-- ==== Sys2Proof/Word.lean ====
section
/-! DEFINITION. The word types of the engine's register pages and memories. -/

namespace Sys2Proof

/-- One register word: every access of R448 is one aligned 32-bit word. -/
abbrev Word := BitVec 32

/-- One byte of a core memory, a stack, or a companion buffer. -/
abbrev Byte := BitVec 8

/-- An FP32 value, held as its IEEE 754 bit pattern (R91, R94). -/
abbrev F32 := BitVec 32

/-- A BF16 value, held as its bit pattern (R71, R91). -/
abbrev B16 := BitVec 16

end Sys2Proof
end

