-- ==== Sys2Proof/Machine/Table.lean ====
section
/-! DEFINITION. Sparse tables keyed by numbers, in one canonical form: keys strictly rising, and no entry
equal to what an unlisted key reads as.  Memories, register stores and per-core state are such tables. -/

namespace Sys2Proof.Machine

/-- A sparse table: a list of (key, value) pairs. -/
abbrev Table (α : Type) := List (Nat × α)

/-- A byte memory: a table of bytes (Host.Cell). -/
abbrev Mem := List Host.Cell

/-- The value at key `k`; `d` where nothing is listed. -/
def Table.get {α : Type} (d : α) : Table α → Nat → α
  | [], _ => d
  | (j, v) :: t, k => if k < j then d else if k = j then v else Table.get d t k

/-- Writes `v` at key `k`, keeping the canonical form for the default `d`.  A removal also drops what a list out of order would keep of the
key, so that a read after a write holds of every list. -/
def Table.set {α : Type} [DecidableEq α] (d : α) : Table α → Nat → α → Table α
  | [], k, v => if v = d then [] else [(k, v)]
  | (j, w) :: t, k, v =>
    if k < j then (if v = d then (j, w) :: t else (k, v) :: (j, w) :: t)
    else if k = j then (if v = d then t.dropWhile (fun e => decide (e.1 ≤ k)) else (k, v) :: t)
    else (j, w) :: Table.set d t k v

/-- Changes the value at key `k` by `f`. -/
def Table.upd {α : Type} [DecidableEq α] (d : α) (t : Table α) (k : Nat) (f : α → α) : Table α :=
  Table.set d t k (f (Table.get d t k))

/-- Changes every listed value by `f`, keeping the canonical form. -/
def Table.mapVals {α : Type} [DecidableEq α] (d : α) (f : α → α) : Table α → Table α
  | [] => []
  | (k, v) :: t => if f v = d then Table.mapVals d f t else (k, f v) :: Table.mapVals d f t

/-- Every key of the table lies above `b` and the keys rise strictly. -/
def Table.above {α : Type} (b : Option Nat) : Table α → Bool
  | [] => true
  | (j, _) :: t => (match b with | none => true | some b => b < j) && Table.above (some j) t

/-- The canonical form: keys strictly rising, and no entry equal to the default `d`. -/
def Table.wf {α : Type} [DecidableEq α] (d : α) (t : Table α) : Bool :=
  Table.above none t && t.all (fun e => e.2 ≠ d)

/-- The canonical form of a byte memory whose unlisted bytes read 0. -/
abbrev Memory.wf (m : Mem) : Bool := Table.wf (0 : Byte) m

/-- The byte at address `a`. -/
def Mem.byte (m : Mem) (a : Nat) : Byte := Table.get 0 m a

/-- Writes one byte. -/
def Mem.setByte (m : Mem) (a : Nat) (b : Byte) : Mem := Table.set 0 m a b

/-- `n` bytes from address `a`. -/
def Mem.read (m : Mem) (a : Nat) : Nat → List Byte
  | 0 => []
  | n + 1 => Mem.byte m a :: Mem.read m (a + 1) n

/-- Writes the bytes `bs` from address `a` upward. -/
def Mem.write (m : Mem) (a : Nat) : List Byte → Mem
  | [] => m
  | b :: bs => Mem.write (Mem.setByte m a b) (a + 1) bs

/-- A little-endian number of the bytes `bs` (all integers of the manual's layouts are little-endian). -/
def leNat : List Byte → Nat
  | [] => 0
  | b :: bs => b.toNat + 256 * leNat bs

/-- The `n` little-endian bytes of `v`. -/
def leBytes : Nat → Nat → List Byte
  | 0, _ => []
  | n + 1, v => BitVec.ofNat 8 v :: leBytes n (v / 256)

/-- Bits [lo + w - 1 : lo] of `v`. -/
def bits (v lo w : Nat) : Nat := v / 2 ^ lo % 2 ^ w

/-- Bit `n` of `v`. -/
def bit (v n : Nat) : Bool := v / 2 ^ n % 2 = 1

/-- A Bool as a number. -/
def b2n (b : Bool) : Nat := if b then 1 else 0

/-- The ceiling of a / b; 0 for b = 0. -/
def cdiv (a b : Nat) : Nat := (a + b - 1) / b

/-- A `w`-bit number read as two's complement. -/
def sgn (w v : Nat) : Int := if v < 2 ^ (w - 1) then v else (v : Int) - 2 ^ w

/-- Replaces element `i` of a list. -/
def setAt {α : Type} : List α → Nat → α → List α
  | [], _, _ => []
  | _ :: t, 0, v => v :: t
  | x :: t, i + 1, v => x :: setAt t i v

/-- The first element that satisfies `p`, with what stands before and after it. -/
def splitFirst {α : Type} (p : α → Bool) : List α → Option (List α × α × List α)
  | [] => none
  | x :: t => if p x then some ([], x, t) else
    match splitFirst p t with
    | none => none
    | some (a, y, b) => some (x :: a, y, b)

/-- Insertion by a strict order, after equals. -/
def insertBy {α : Type} (lt : α → α → Bool) (x : α) : List α → List α
  | [] => [x]
  | y :: t => if lt x y then x :: y :: t else y :: insertBy lt x t

/-- A stable sort by a strict order. -/
def sortBy {α : Type} (lt : α → α → Bool) (l : List α) : List α :=
  l.foldl (fun acc x => insertBy lt x acc) []

/-- The largest of a list of numbers; 0 for none. -/
def maxOf (l : List Nat) : Nat := l.foldl max 0

/-- The smallest of a list of numbers, if any. -/
def minOf : List Nat → Option Nat
  | [] => none
  | x :: t => some (t.foldl min x)

end Sys2Proof.Machine
end

