-- ==== Sys2Proof/Machine/Regs.lean ====
section
/-! DEFINITION. The register fields of every page, written from the manual's register tables, and the pages
themselves with their addresses (R448 to R470). -/

namespace Sys2Proof.Machine

/-- The access codes of R9. -/
inductive Access where
  | ro | rw | rwl | w1c | w1s | wo
  deriving DecidableEq, Repr

/-- One register field: page offset of its word, lowest bit, width, access code, reset value, and whether it is
an RO statistic that a soft reset clears (R440). -/
structure Field where
  off : Nat
  lsb : Nat
  width : Nat
  acc : Access
  reset : Nat
  stat : Bool
  deriving DecidableEq, Repr

/-- The pages of the directory (R456 to R458).  A per-partition page is one page with two addresses, the
primary's and the mirror's (R57).  `core g` is the window of global core `g` at offsets 0x400 to 0x7FF (R79). -/
inductive Page where
  | modul
  | tileGlb (t : Nat) | mesh (t : Nat) | saddle (t e : Nat) | crag (t g : Nat) | coreWin (t : Nat)
  | rmbTile (t : Nat) | therm (t : Nat) | slab (t : Nat)
  | core (g : Nat)
  | msite (m : Nat) | xts (m : Nat) | mchan (m n : Nat) | rmbSite (m : Nat)
  | tickgen (p : Nat) | packer (p : Nat) | adm (p : Nat) | spur (p : Nat) | cohc (p : Nat)
  | vlport (n : Nat) | reqtab (c : Nat) | rmbCtl (c : Nat)
  | smc (c : Nat) | ssb (c : Nat) | sps | journal
  | doorbell (p : Nat) | tallyIf
  deriving DecidableEq, Repr

/-- The page number: the page's address divided by 4,096 (R456 to R458), in CTL-N's window for a page that both
windows show, and above the register address space for the core windows. -/
def Page.id : Page → Nat
  | .modul => 0
  | .tileGlb t => 0x1000 + t * 64
  | .mesh t => 0x1000 + t * 64 + 1
  | .saddle t e => 0x1000 + t * 64 + 2 + e
  | .crag t g => 0x1000 + t * 64 + 8 + g
  | .coreWin t => 0x1000 + t * 64 + 0x18
  | .rmbTile t => 0x1000 + t * 64 + 0x19
  | .therm t => 0x1000 + t * 64 + 0x1A
  | .slab t => 0x1000 + t * 64 + 0x1B
  | .msite m => 0x2400 + m * 64
  | .xts m => 0x2400 + m * 64 + 1
  | .mchan m n => 0x2400 + m * 64 + 2 + n
  | .rmbSite m => 0x2400 + m * 64 + 0x22
  | .tickgen p => 0x3000 + p
  | .packer p => 0x3010 + p
  | .adm p => 0x3020 + p
  | .spur p => 0x3030 + p
  | .cohc p => 0x3040 + p
  | .vlport n => if n < 4 then 0x3050 + n else 0x3250 + (n - 4)
  | .reqtab c => if c = 0 then 0x3060 else 0x3260
  | .rmbCtl c => if c = 0 then 0x3061 else 0x3261
  | .smc c => 0x3800 + c
  | .ssb c => 0x3802 + c
  | .sps => 0x3804
  | .journal => 0x3805
  | .doorbell p => 0x3E00 + p
  | .tallyIf => 0x3F00
  | .core g => 0x4000 + g

/-- The key of a field of a page in the register store. -/
def regKey (p : Page) (f : Field) : Nat := p.id * 131072 + f.off * 32 + f.lsb

/-- Where the store keeps the clock cycle of the last hardware set of bit `b` of a W1C field, low word: at an offset that no page has
(R11; the model's own, log 82). -/
def Field.setLo (f : Field) (b : Nat) : Field := ⟨f.off + 1, (f.lsb + b) % 32, 32, .ro, 0, false⟩
/-- Its high word. -/
def Field.setHi (f : Field) (b : Nat) : Field := ⟨f.off + 2, (f.lsb + b) % 32, 32, .ro, 0, false⟩

/-! ### Common fields of every page (R451) -/

/-- R451: Layout version of the block-specific fields; this manual describes … -/
def page.LAYOUT : Field := ⟨0x000, 0, 8, .ro, 0, false⟩
/-- R451: Instance, as the block's chapter defines it. -/
def page.INSTANCE : Field := ⟨0x000, 8, 8, .ro, 0, false⟩
/-- R451: Block type code. -/
def page.TYPE : Field := ⟨0x000, 16, 16, .ro, 0, false⟩
/-- R451: Minor design version of the block; 0 on every block of the engine … -/
def page.VER_MINOR : Field := ⟨0x004, 0, 8, .ro, 0, false⟩
/-- R451: Major design version of the block; 1 on every block of the engine … -/
def page.VER_MAJOR : Field := ⟨0x004, 8, 8, .ro, 1, false⟩
/-- R451: Enable. -/
def page.EN : Field := ⟨0x008, 0, 1, .rw, 0, false⟩
/-- R451: Block soft reset. -/
def page.SOFT_RESET : Field := ⟨0x008, 1, 1, .wo, 0, false⟩
/-- R451: 0 OFF, 1 STARTING, 2 ON, 3 DRAINING, 4 FAULTED, 5 FENCED. -/
def page.STATE : Field := ⟨0x00C, 0, 3, .ro, 0, false⟩
/-- R451: A restart is pending. -/
def page.PEND : Field := ⟨0x00C, 8, 1, .ro, 0, false⟩
/-- R451: Error bits, defined per block. -/
def page.ERR_STAT : Field := ⟨0x010, 0, 32, .w1c, 0, false⟩
/-- R451: Bit n = 1: bit n is neither captured nor summarised. -/
def page.ERR_MASK : Field := ⟨0x014, 0, 32, .rw, 0, false⟩
/-- R451: Bit number of the captured error. -/
def page.FIRST_BIT : Field := ⟨0x018, 0, 5, .ro, 0, false⟩
/-- R451: A capture is held. -/
def page.FIRST_VALID : Field := ⟨0x018, 8, 1, .w1c, 0, false⟩
/-- R451: The captured error was injected. -/
def page.FIRST_INJ : Field := ⟨0x018, 9, 1, .ro, 0, false⟩
/-- R451: Unmasked error events after the capture, saturating at 0xFFFF. -/
def page.FIRST_MORE : Field := ⟨0x018, 16, 16, .ro, 0, false⟩
/-- R451: Bits [31:0] of the capture's time stamp. -/
def page.ERR_TICK_LO : Field := ⟨0x01C, 0, 32, .ro, 0, false⟩
/-- R451: Bits [47:32]. -/
def page.ERR_TICK_HI : Field := ⟨0x020, 0, 16, .ro, 0, false⟩
/-- R451: 0: partition tick; 1: microseconds since the most recent POWER_GOOD. -/
def page.TICK_SRC : Field := ⟨0x020, 30, 1, .ro, 0, false⟩
/-- R451: Bit n = 1 injects error bit n. -/
def page.ERR_INJECT : Field := ⟨0x024, 0, 32, .wo, 0, false⟩
/-- R451: Freezes the page's RWL fields. -/
def page.LOCK : Field := ⟨0x028, 0, 1, .w1s, 0, false⟩
/-- R451: Disables ERR_INJECT. -/
def page.INJ_LOCK : Field := ⟨0x028, 1, 1, .w1s, 0, false⟩
/-- R451: No effect on the block. -/
def page.SCRATCH : Field := ⟨0x02C, 0, 32, .rw, 0, false⟩
/-- The fields of this page type. -/
def page.fields : List Field :=
  [page.LAYOUT, page.INSTANCE, page.TYPE, page.VER_MINOR, page.VER_MAJOR, page.EN] ++
  [page.SOFT_RESET, page.STATE, page.PEND, page.ERR_STAT, page.ERR_MASK, page.FIRST_BIT] ++
  [page.FIRST_VALID, page.FIRST_INJ, page.FIRST_MORE, page.ERR_TICK_LO, page.ERR_TICK_HI, page.TICK_SRC] ++
  [page.ERR_INJECT, page.LOCK, page.INJ_LOCK, page.SCRATCH]


/-! ### MODULE (R461) -/

/-- R461: Module serial number, bits [31:0]. -/
def modul.SERIAL_LO : Field := ⟨0x040, 0, 32, .ro, 0, false⟩
/-- R461: Bits [63:32]. -/
def modul.SERIAL_HI : Field := ⟨0x044, 0, 32, .ro, 0, false⟩
/-- R461: 56, 64 or 72. -/
def modul.GRADE : Field := ⟨0x048, 0, 8, .ro, 0, false⟩
/-- R461: 1: -T; 0: -X. -/
def modul.SUFFIX_T : Field := ⟨0x048, 8, 1, .ro, 0, false⟩
/-- R461: Bit i: tile i has a summary, i = 0–31. -/
def modul.TILE_ERR0 : Field := ⟨0x04C, 0, 32, .ro, 0, false⟩
/-- R461: Tiles 32–63. -/
def modul.TILE_ERR1 : Field := ⟨0x050, 0, 32, .ro, 0, false⟩
/-- R461: Tiles 64–71. -/
def modul.TILE_ERR2 : Field := ⟨0x054, 0, 8, .ro, 0, false⟩
/-- R461: Bit m: site m has a summary. -/
def modul.SITE_ERR : Field := ⟨0x058, 0, 16, .ro, 0, false⟩
/-- R461: CTL-N window has a summary. -/
def modul.CTLN_ERR : Field := ⟨0x05C, 0, 1, .ro, 0, false⟩
/-- R461: CTL-S window has a summary. -/
def modul.CTLS_ERR : Field := ⟨0x05C, 1, 1, .ro, 0, false⟩
/-- R461: A page at 0x0380_0000 or TALLY_IF has a summary. -/
def modul.SHARED_ERR : Field := ⟨0x05C, 2, 1, .ro, 0, false⟩
/-- The fields of this page type. -/
def modul.fields : List Field :=
  [modul.SERIAL_LO, modul.SERIAL_HI, modul.GRADE, modul.SUFFIX_T, modul.TILE_ERR0, modul.TILE_ERR1] ++
  [modul.TILE_ERR2, modul.SITE_ERR, modul.CTLN_ERR, modul.CTLS_ERR, modul.SHARED_ERR]


/-! ### TILE_GLB (R463) -/

/-- R463: t = ty × 9 + tx. -/
def tileGlb.TILE_IDX : Field := ⟨0x040, 0, 7, .ro, 0, false⟩
/-- R463: 0 functional, 1 routing-only (R4), 2 down in the fault map. -/
def tileGlb.TILE_KIND : Field := ⟨0x040, 8, 2, .ro, 0, false⟩
/-- R463: The tile's PLL is locked. -/
def tileGlb.PLL_LOCK : Field := ⟨0x040, 16, 1, .ro, 0, false⟩
/-- R463: VDD_T trim, in mV. -/
def tileGlb.VNOM : Field := ⟨0x040, 18, 10, .ro, 0, false⟩
/-- R463: Tile budget in pu per 256-cycle epoch. -/
def tileGlb.BUDGET : Field := ⟨0x044, 0, 11, .rw, 960, false⟩
/-- R463: The last BUDGET write was ignored. -/
def tileGlb.BUDGET_LOCKED : Field := ⟨0x044, 16, 1, .ro, 0, false⟩
/-- R463: Epochs over budget. -/
def tileGlb.PWR_OVER_CNT : Field := ⟨0x048, 0, 32, .ro, 0, true⟩
/-- R463: R103. -/
def tileGlb.CLAMP_HI_CNT : Field := ⟨0x050, 0, 32, .ro, 0, true⟩
/-- R463: R103. -/
def tileGlb.CLAMP_LO_CNT : Field := ⟨0x054, 0, 32, .ro, 0, true⟩
/-- R463: R103. -/
def tileGlb.CLIP_CNT : Field := ⟨0x058, 0, 32, .ro, 0, true⟩
/-- R463: R103. -/
def tileGlb.WIDEN_MARK_CNT : Field := ⟨0x05C, 0, 32, .ro, 0, true⟩
/-- R463: R103. -/
def tileGlb.NAN_IN_CNT : Field := ⟨0x060, 0, 32, .ro, 0, true⟩
/-- R463: R103. -/
def tileGlb.NAN_OUT_CNT : Field := ⟨0x064, 0, 32, .ro, 0, true⟩
/-- R463: R103. -/
def tileGlb.OUT_SAT_CNT : Field := ⟨0x068, 0, 32, .ro, 0, true⟩
/-- R463: R133. -/
def tileGlb.KV_APPEND_CNT : Field := ⟨0x06C, 0, 32, .ro, 0, true⟩
/-- R463: R133. -/
def tileGlb.KV_REWRITE_CNT : Field := ⟨0x070, 0, 32, .ro, 0, true⟩
/-- R463: R133. -/
def tileGlb.KV_SAT_CNT : Field := ⟨0x074, 0, 32, .ro, 0, true⟩
/-- R463: R133. -/
def tileGlb.KV_ADDR_ERR_CNT : Field := ⟨0x078, 0, 32, .ro, 0, true⟩
/-- R463: R133. -/
def tileGlb.LSE_NAN_CNT : Field := ⟨0x07C, 0, 32, .ro, 0, true⟩
/-- R463: R285. -/
def tileGlb.DELTA_FMT_CNT : Field := ⟨0x080, 0, 32, .ro, 0, true⟩
/-- The fields of this page type. -/
def tileGlb.fields : List Field :=
  [tileGlb.TILE_IDX, tileGlb.TILE_KIND, tileGlb.PLL_LOCK, tileGlb.VNOM, tileGlb.BUDGET, tileGlb.BUDGET_LOCKED] ++
  [tileGlb.PWR_OVER_CNT, tileGlb.CLAMP_HI_CNT, tileGlb.CLAMP_LO_CNT, tileGlb.CLIP_CNT, tileGlb.WIDEN_MARK_CNT, tileGlb.NAN_IN_CNT] ++
  [tileGlb.NAN_OUT_CNT, tileGlb.OUT_SAT_CNT, tileGlb.KV_APPEND_CNT, tileGlb.KV_REWRITE_CNT, tileGlb.KV_SAT_CNT, tileGlb.KV_ADDR_ERR_CNT] ++
  [tileGlb.LSE_NAN_CNT, tileGlb.DELTA_FMT_CNT]


/-! ### MESH (R179, R233) -/

/-- R179: Partition of the tile; 15 means none. -/
def mesh.PART_ID : Field := ⟨0x040, 0, 4, .ro, 15, false⟩
/-- R179: Flits discarded for a PART mismatch. -/
def mesh.WS_DROP_CNT : Field := ⟨0x044, 0, 32, .ro, 0, true⟩
/-- R179: Router of the last such drop, cy × 16 + cx. -/
def mesh.WS_DROP_RTR : Field := ⟨0x048, 0, 8, .ro, 0, false⟩
/-- R179: Its input port. -/
def mesh.WS_DROP_PORT : Field := ⟨0x048, 8, 3, .ro, 0, false⟩
/-- R179: PART of the dropped flit. -/
def mesh.WS_DROP_PART : Field := ⟨0x048, 12, 4, .ro, 0, false⟩
/-- R179: A drop has been recorded since the last clear. -/
def mesh.WS_DROP_VALID : Field := ⟨0x048, 31, 1, .w1c, 0, false⟩
/-- R179: Displaced flits. -/
def mesh.DISP_CNT : Field := ⟨0x04C, 0, 32, .ro, 0, true⟩
/-- R179: Displaced flits discarded. -/
def mesh.DISP_DROP_CNT : Field := ⟨0x050, 0, 32, .ro, 0, true⟩
/-- R179: Incomplete reductions. -/
def mesh.RED_MISS_CNT : Field := ⟨0x054, 0, 32, .ro, 0, true⟩
/-- R179: Flits with a reserved OP or an invalid route entry. -/
def mesh.MISROUTE_CNT : Field := ⟨0x058, 0, 32, .ro, 0, true⟩
/-- R179: Bulk flits written to slabs. -/
def mesh.BULK_FLIT_CNT : Field := ⟨0x05C, 0, 32, .ro, 0, true⟩
/-- R179: Bulk flits discarded under R172. -/
def mesh.BULK_ADDR_CNT : Field := ⟨0x060, 0, 32, .ro, 0, true⟩
/-- R179: Router selected, cy × 16 + cx. -/
def mesh.TBL_RTR : Field := ⟨0x064, 0, 8, .rw, 0, false⟩
/-- R179: 0 slot table, 1 route table. -/
def mesh.TBL_KIND : Field := ⟨0x064, 8, 1, .rw, 0, false⟩
/-- R179: Entry index. -/
def mesh.TBL_IDX : Field := ⟨0x064, 16, 15, .rw, 0, false⟩
/-- R179: Slot entry, or route entry word 0. -/
def mesh.TBL_DATA0 : Field := ⟨0x068, 0, 32, .ro, 0, false⟩
/-- R179: Route entry word 1. -/
def mesh.TBL_DATA1 : Field := ⟨0x06C, 0, 32, .ro, 0, false⟩
/-- R179: Route entry word 2. -/
def mesh.TBL_DATA2 : Field := ⟨0x070, 0, 32, .ro, 0, false⟩
/-- R179: Slot entries in use at the selected router. -/
def mesh.SLOT_USED : Field := ⟨0x074, 0, 16, .ro, 0, false⟩
/-- R233: Table bank in use by every router of the tile. -/
def mesh.BANK_ACT : Field := ⟨0x078, 0, 1, .ro, 0, false⟩
/-- R233: The inactive bank holds a complete repair table set. -/
def mesh.BANK_NEXT_VALID : Field := ⟨0x078, 1, 1, .ro, 0, false⟩
/-- R233: Bank shown by TBL_DATA0–2: 0 active, 1 inactive. -/
def mesh.TBL_BANK : Field := ⟨0x078, 8, 1, .rw, 0, false⟩
/-- The fields of this page type. -/
def mesh.fields : List Field :=
  [mesh.PART_ID, mesh.WS_DROP_CNT, mesh.WS_DROP_RTR, mesh.WS_DROP_PORT, mesh.WS_DROP_PART, mesh.WS_DROP_VALID] ++
  [mesh.DISP_CNT, mesh.DISP_DROP_CNT, mesh.RED_MISS_CNT, mesh.MISROUTE_CNT, mesh.BULK_FLIT_CNT, mesh.BULK_ADDR_CNT] ++
  [mesh.TBL_RTR, mesh.TBL_KIND, mesh.TBL_IDX, mesh.TBL_DATA0, mesh.TBL_DATA1, mesh.TBL_DATA2] ++
  [mesh.SLOT_USED, mesh.BANK_ACT, mesh.BANK_NEXT_VALID, mesh.TBL_BANK]


/-! ### SADDLE (R181) -/

/-- R181: Logical channel carried by the spare; 7 means none. -/
def saddle.SPARE_FOR : Field := ⟨0x040, 0, 3, .ro, 7, false⟩
/-- R181: Watershed, or next to an unassigned tile. -/
def saddle.FENCED : Field := ⟨0x040, 8, 1, .ro, 0, false⟩
/-- R181: The neighbouring tile's compute side is off. -/
def saddle.PEER_COMPUTE_DOWN : Field := ⟨0x040, 9, 1, .ro, 0, false⟩
/-- R181: Two channels have failed. -/
def saddle.DOWN : Field := ⟨0x040, 10, 1, .ro, 0, false⟩
/-- R181: Physical channel n is locked. -/
def saddle.CH_LOCK : Field := ⟨0x044, 0, 7, .ro, 0, false⟩
/-- R181: Physical channel n − 8 has been declared failed. -/
def saddle.CH_FAIL : Field := ⟨0x044, 8, 7, .ro, 0, false⟩
/-- R181: Largest phase FIFO occupancy observed on any channel. -/
def saddle.FIFO_MAX : Field := ⟨0x048, 0, 4, .ro, 0, true⟩
/-- R181: Flits discarded for CRC errors. -/
def saddle.CRC_ERR_CNT : Field := ⟨0x04C, 0, 32, .ro, 0, true⟩
/-- R181: Swaps onto the spare. -/
def saddle.SWAP_CNT : Field := ⟨0x050, 0, 32, .ro, 0, true⟩
/-- R181: Instance 4 only: memory channel n is locked. -/
def saddle.MCH_LOCK : Field := ⟨0x054, 0, 32, .ro, 0, false⟩
/-- R181: Instance 4 only: memory channel n has failed. -/
def saddle.MCH_FAIL : Field := ⟨0x058, 0, 32, .ro, 0, false⟩
/-- The fields of this page type. -/
def saddle.fields : List Field :=
  [saddle.SPARE_FOR, saddle.FENCED, saddle.PEER_COMPUTE_DOWN, saddle.DOWN, saddle.CH_LOCK, saddle.CH_FAIL] ++
  [saddle.FIFO_MAX, saddle.CRC_ERR_CNT, saddle.SWAP_CNT, saddle.MCH_LOCK, saddle.MCH_FAIL]


/-! ### CRAG (R316, R465) -/

/-- R316: Index of the data core the spare stands in for; 15 means none. -/
def crag.STAND_FOR : Field := ⟨0x040, 0, 4, .ro, 15, false⟩
/-- R316: The hot spare has failed. -/
def crag.SPARE_DEAD : Field := ⟨0x040, 8, 1, .ro, 0, false⟩
/-- R316: The parity core's compute side has failed. -/
def crag.PARITY_DEAD : Field := ⟨0x040, 9, 1, .ro, 0, false⟩
/-- R316: The spare stands in or is dead. -/
def crag.UNPROT : Field := ⟨0x040, 10, 1, .ro, 0, false⟩
/-- R316: The crag halted its partition under R308. -/
def crag.DOUBLE : Field := ⟨0x040, 11, 1, .ro, 0, false⟩
/-- R316: Bit i: core i's alive signal is high. -/
def crag.ALIVE : Field := ⟨0x044, 0, 16, .ro, 0, false⟩
/-- R316: Bit i: core i is dead in the fault map. -/
def crag.DEAD : Field := ⟨0x048, 0, 16, .ro, 0, false⟩
/-- R316: Rebuilds performed. -/
def crag.REBUILD_CNT : Field := ⟨0x04C, 0, 32, .ro, 0, true⟩
/-- R316: Cycles taken by the last rebuild. -/
def crag.REBUILD_CYC : Field := ⟨0x050, 0, 16, .ro, 0, false⟩
/-- R465: Largest write-to-parity delay of an XOR delta observed, in cycles; … -/
def crag.DELTA_LAT_MAX : Field := ⟨0x054, 0, 6, .ro, 0, true⟩
/-- R465: XOR deltas applied to the parity slab, wrapping at 2³². -/
def crag.DELTA_CNT : Field := ⟨0x058, 0, 32, .ro, 0, true⟩
/-- R465: The crag bus carries no delta. -/
def crag.BUS_IDLE : Field := ⟨0x05C, 0, 1, .ro, 1, false⟩
/-- The fields of this page type. -/
def crag.fields : List Field :=
  [crag.STAND_FOR, crag.SPARE_DEAD, crag.PARITY_DEAD, crag.UNPROT, crag.DOUBLE, crag.ALIVE] ++
  [crag.DEAD, crag.REBUILD_CNT, crag.REBUILD_CYC, crag.DELTA_LAT_MAX, crag.DELTA_CNT, crag.BUS_IDLE]


/-! ### CORE_WIN (R462) -/

/-- R462: Core shown, cy × 16 + cx. -/
def coreWin.CORE_SEL : Field := ⟨0x040, 0, 8, .rw, 0, false⟩
/-- R462: 1: window writes go to every core of the tile; reads still show … -/
def coreWin.CORE_BCAST : Field := ⟨0x040, 8, 1, .rw, 0, false⟩
/-- R462: First core that reported a step error in the tile's last failed tick. -/
def coreWin.ERR_CORE : Field := ⟨0x044, 0, 8, .ro, 0, false⟩
/-- R462: Last core of the tile that recorded a late flit. -/
def coreWin.LATE_CORE : Field := ⟨0x044, 8, 8, .ro, 0, false⟩
/-- R462: Cores that reported a step error in that tick, 0–256. -/
def coreWin.ERR_CORES : Field := ⟨0x048, 0, 9, .ro, 0, false⟩
/-- The fields of this page type. -/
def coreWin.fields : List Field :=
  [coreWin.CORE_SEL, coreWin.CORE_BCAST, coreWin.ERR_CORE, coreWin.LATE_CORE, coreWin.ERR_CORES]


/-! ### The core window at 0x400-0x7FF (R79, R149, R234) -/

/-- R79: Bits [23:4] of the program's core address, which must lie in the … -/
def core.PROG_BASE : Field := ⟨0x400, 4, 20, .rw, 524288, false⟩
/-- R79: Bit a for array a: 0 NARROW, 1 DISABLE. -/
def core.ARRAY_DEFECT_POLICY : Field := ⟨0x404, 0, 4, .rw, 0, false⟩
/-- R79: Array a in service. -/
def core.ARRAY_EN : Field := ⟨0x404, 4, 4, .ro, 15, false⟩
/-- R79: Array a presents 31 columns. -/
def core.ARRAY_NARROW : Field := ⟨0x404, 8, 4, .ro, 0, false⟩
/-- R79: The last write to ARRAY_DEFECT_POLICY or PROG_BASE was ignored. -/
def core.CFG_LOCKED : Field := ⟨0x404, 16, 1, .ro, 0, false⟩
/-- R79: Physical column that the spare replaces in array a; 63 means none. -/
def core.SPARE_FOR (i : Nat) : Field := ⟨0x408 + 4 * i, 0, 6, .ro, 63, false⟩
/-- R79: Second defective column of array a; 63 means none. -/
def core.SECOND_DEFECT (i : Nat) : Field := ⟨0x408 + 4 * i, 8, 6, .ro, 63, false⟩
/-- R79: Defective columns of array a. -/
def core.DEFECT_CNT (i : Nat) : Field := ⟨0x408 + 4 * i, 16, 6, .ro, 0, false⟩
/-- R79: 0 idle, 1 running, 2 halted, 3 stopped on step error. -/
def core.SEQ_STATE : Field := ⟨0x418, 0, 2, .ro, 0, false⟩
/-- R79: Commands in flight, 0–64. -/
def core.QFILL : Field := ⟨0x418, 8, 7, .ro, 0, false⟩
/-- R79: Index of the oldest unretired command from PROG_BASE. -/
def core.PC_IDX : Field := ⟨0x418, 16, 16, .ro, 0, false⟩
/-- R79: First step error code of the last failed tick. -/
def core.STEP_ERR : Field := ⟨0x41C, 0, 8, .ro, 0, false⟩
/-- R79: Index of the offending command. -/
def core.ERR_CMD : Field := ⟨0x41C, 8, 16, .ro, 0, false⟩
/-- R79: Schedule cycle of the step error. -/
def core.ERR_CYCLE : Field := ⟨0x420, 0, 16, .ro, 0, false⟩
/-- R79: Low 8 bits of the tick of the step error. -/
def core.ERR_TICK8 : Field := ⟨0x420, 16, 8, .ro, 0, false⟩
/-- R79: SEND_MISS step errors. -/
def core.SEND_MISS_CNT : Field := ⟨0x424, 0, 32, .ro, 0, true⟩
/-- R79: Accesses delayed by a bank conflict. -/
def core.LS_CONFLICT_CNT : Field := ⟨0x428, 0, 32, .ro, 0, true⟩
/-- R79: Corrected local store errors. -/
def core.LS_ECC_CORR : Field := ⟨0x42C, 0, 32, .ro, 0, true⟩
/-- R79: Corrected slab errors. -/
def core.SLAB_ECC_CORR : Field := ⟨0x430, 0, 32, .ro, 0, true⟩
/-- R79: Weight register parity mismatches. -/
def core.WREG_PAR_CNT : Field := ⟨0x434, 0, 32, .ro, 0, true⟩
/-- R79: Logical core number assigned by relocation. -/
def core.LOGICAL_ID : Field := ⟨0x438, 0, 15, .ro, 0, false⟩
/-- R79: 0 data, 1 parity, 2 spare, 3 off or routing-only. -/
def core.ROLE : Field := ⟨0x438, 16, 2, .ro, 3, false⟩
/-- R79: Tag of the last MARK. -/
def core.TRACE_TAG : Field := ⟨0x43C, 0, 32, .ro, 0, false⟩
/-- R79: Schedule cycle of the last MARK. -/
def core.TRACE_CYCLE : Field := ⟨0x440, 0, 16, .ro, 0, false⟩
/-- R149: Window shown at 0x448–0x454. -/
def core.WIN_SEL : Field := ⟨0x444, 0, 6, .rw, 0, false⟩
/-- R149: Semaphore shown at 0x46C. -/
def core.SEM_SEL : Field := ⟨0x444, 8, 5, .rw, 0, false⟩
/-- R149: BASE of the selected window. -/
def core.WIN_BASE : Field := ⟨0x448, 0, 24, .ro, 0, false⟩
/-- R149: LEN, in 32-byte units. -/
def core.WIN_LEN : Field := ⟨0x44C, 0, 16, .ro, 0, false⟩
/-- R149: STAMP. -/
def core.WIN_STAMP : Field := ⟨0x44C, 16, 8, .ro, 0, false⟩
/-- R149: 0 IDLE, 1 OPEN, 2 CLOSED, 3 SEALED. -/
def core.WIN_STATE : Field := ⟨0x44C, 24, 2, .ro, 0, false⟩
/-- R149: Flits held in the early buffer, 0–2. -/
def core.EARLY_FILL : Field := ⟨0x44C, 28, 2, .ro, 0, false⟩
/-- R149: EXPECT. -/
def core.WIN_EXPECT : Field := ⟨0x450, 0, 20, .ro, 0, false⟩
/-- R149: COUNT. -/
def core.WIN_COUNT : Field := ⟨0x454, 0, 20, .ro, 0, false⟩
/-- R149: Late flits. -/
def core.LATE_WRITE_CNT : Field := ⟨0x458, 0, 32, .ro, 0, true⟩
/-- R149: Global core number of the last late flit's source. -/
def core.LATE_SRC : Field := ⟨0x45C, 0, 15, .ro, 0, false⟩
/-- R149: Its stamp. -/
def core.LATE_STAMP : Field := ⟨0x45C, 16, 8, .ro, 0, false⟩
/-- R149: Its window, 0–63. For a SIGNAL flit, bits [28:24] hold its … -/
def core.LATE_WID : Field := ⟨0x45C, 24, 6, .ro, 0, false⟩
/-- R149: The last late flit was a SIGNAL flit. -/
def core.LATE_SIG : Field := ⟨0x45C, 30, 1, .ro, 0, false⟩
/-- R149: A late flit has been recorded since the last clear. -/
def core.LATE_VALID : Field := ⟨0x45C, 31, 1, .w1c, 0, false⟩
/-- R149: Grace arrivals applied. -/
def core.GRACE_CNT : Field := ⟨0x460, 0, 32, .ro, 0, true⟩
/-- R149: Early (+1) flits and signals held. -/
def core.EARLY_CNT : Field := ⟨0x464, 0, 32, .ro, 0, true⟩
/-- R149: Semaphores non-zero at reset. -/
def core.SEM_RESIDUE_CNT : Field := ⟨0x468, 0, 32, .ro, 0, true⟩
/-- R149: Count of the selected semaphore. -/
def core.SEM_VAL : Field := ⟨0x46C, 0, 16, .ro, 0, false⟩
/-- R149: Its pending early count. -/
def core.SEM_PEND : Field := ⟨0x46C, 16, 2, .ro, 0, false⟩
/-- R234: PROG_NEXT is taken at the next cut. -/
def core.NEXT_VALID : Field := ⟨0x470, 0, 1, .ro, 0, false⟩
/-- R234: Bits [23:4] of the program address used after the cut; must lie in … -/
def core.PROG_NEXT : Field := ⟨0x470, 4, 20, .rw, 0, false⟩
/-- The fields of this page type. -/
def core.fields : List Field :=
  [core.PROG_BASE, core.ARRAY_DEFECT_POLICY, core.ARRAY_EN, core.ARRAY_NARROW, core.CFG_LOCKED, core.SEQ_STATE] ++
  [core.QFILL, core.PC_IDX, core.STEP_ERR, core.ERR_CMD, core.ERR_CYCLE, core.ERR_TICK8] ++
  [core.SEND_MISS_CNT, core.LS_CONFLICT_CNT, core.LS_ECC_CORR, core.SLAB_ECC_CORR, core.WREG_PAR_CNT, core.LOGICAL_ID] ++
  [core.ROLE, core.TRACE_TAG, core.TRACE_CYCLE, core.WIN_SEL, core.SEM_SEL, core.WIN_BASE] ++
  [core.WIN_LEN, core.WIN_STAMP, core.WIN_STATE, core.EARLY_FILL, core.WIN_EXPECT, core.WIN_COUNT] ++
  [core.LATE_WRITE_CNT, core.LATE_SRC, core.LATE_STAMP, core.LATE_WID, core.LATE_SIG, core.LATE_VALID] ++
  [core.GRACE_CNT, core.EARLY_CNT, core.SEM_RESIDUE_CNT, core.SEM_VAL, core.SEM_PEND, core.NEXT_VALID] ++
  [core.PROG_NEXT] ++
  (List.range 4).map core.SPARE_FOR ++
  (List.range 4).map core.SECOND_DEFECT ++
  (List.range 4).map core.DEFECT_CNT


/-! ### RMB (R355) -/

/-- R355: Reference. -/
def rmb.REF_SEL : Field := ⟨0x040, 0, 2, .rw, 0, false⟩
/-- R355: The reference has settled. -/
def rmb.REF_RDY : Field := ⟨0x040, 8, 1, .ro, 0, false⟩
/-- R355: A REFCHK result was out of range since the last CAL_DONE. -/
def rmb.REF_FAULT : Field := ⟨0x040, 9, 1, .ro, 0, false⟩
/-- R355: Starts a calibration. -/
def rmb.CAL_START : Field := ⟨0x044, 0, 1, .wo, 0, false⟩
/-- R355: Start from source SW. -/
def rmb.SW_START : Field := ⟨0x044, 1, 1, .wo, 0, false⟩
/-- R355: A calibration is running. -/
def rmb.CAL_BUSY : Field := ⟨0x044, 4, 1, .ro, 0, false⟩
/-- R355: Results carry UNCAL. -/
def rmb.UNCAL : Field := ⟨0x044, 5, 1, .ro, 0, false⟩
/-- R355: The last calibration succeeded. -/
def rmb.CAL_DONE : Field := ⟨0x044, 6, 1, .w1c, 0, false⟩
/-- R355: Offset of converter A, two's complement. -/
def rmb.OFFS_A : Field := ⟨0x048, 0, 13, .ro, 0, false⟩
/-- R355: Offset of converter B. -/
def rmb.OFFS_B : Field := ⟨0x048, 16, 13, .ro, 0, false⟩
/-- R355: Gain of A, 1.0 = 16,384. -/
def rmb.GAIN_A : Field := ⟨0x04C, 0, 16, .ro, 16384, false⟩
/-- R355: Gain of B. -/
def rmb.GAIN_B : Field := ⟨0x04C, 16, 16, .ro, 16384, false⟩
/-- R355: First entry for source s = 0–7. -/
def rmb.START_ENTRY (i : Nat) : Field := ⟨0x050 + 4 * i, 0, 4, .rw, 0, false⟩
/-- R355: Class: 0 NORMAL, 1 URGENT. -/
def rmb.URGENT (i : Nat) : Field := ⟨0x050 + 4 * i, 4, 1, .rw, 0, false⟩
/-- R355: Source enabled. -/
def rmb.SRC_EN (i : Nat) : Field := ⟨0x050 + 4 * i, 5, 1, .rw, 0, false⟩
/-- R355: Period in 50 ns units. -/
def rmb.TIMER0_PER : Field := ⟨0x070, 0, 16, .rw, 0, false⟩
/-- R355: Period in 50 ns units. -/
def rmb.TIMER1_PER : Field := ⟨0x074, 0, 16, .rw, 0, false⟩
/-- R355: Schedule cycle of the snapshot sample. -/
def rmb.SNAP_CYC : Field := ⟨0x078, 0, 16, .rw, 50, false⟩
/-- R355: Control tiles only: partition whose ticks start TICK. -/
def rmb.TRIG_PART : Field := ⟨0x078, 16, 4, .rw, 0, false⟩
/-- R355: Entry e = 0–15: input of A. -/
def rmb.IN_A (i : Nat) : Field := ⟨0x080 + 4 * i, 0, 4, .rw, 0, false⟩
/-- R355: Input of B. -/
def rmb.IN_B (i : Nat) : Field := ⟨0x080 + 4 * i, 4, 4, .rw, 0, false⟩
/-- R355: B takes part. -/
def rmb.B_EN (i : Nat) : Field := ⟨0x080 + 4 * i, 8, 1, .rw, 0, false⟩
/-- R355: Ends a sequence. -/
def rmb.LAST (i : Nat) : Field := ⟨0x080 + 4 * i, 9, 1, .rw, 0, false⟩
/-- R355: Restarts at the loop point (with LAST). -/
def rmb.LOOP (i : Nat) : Field := ⟨0x080 + 4 * i, 10, 1, .rw, 0, false⟩
/-- R355: Feeds the epoch meter. -/
def rmb.PWR (i : Nat) : Field := ⟨0x080 + 4 * i, 11, 1, .rw, 0, false⟩
/-- R355: Entry e: corrected result of A. -/
def rmb.CODE_A (i : Nat) : Field := ⟨0x0C0 + 4 * i, 0, 12, .ro, 0, false⟩
/-- R355: Corrected result of B. -/
def rmb.CODE_B (i : Nat) : Field := ⟨0x0C0 + 4 * i, 12, 12, .ro, 0, false⟩
/-- R355: New result. -/
def rmb.VALID (i : Nat) : Field := ⟨0x0C0 + 4 * i, 24, 1, .w1c, 0, false⟩
/-- R355: Result overwritten while VALID. -/
def rmb.OVR (i : Nat) : Field := ⟨0x0C0 + 4 * i, 25, 1, .w1c, 0, false⟩
/-- R355: Result taken before calibration. -/
def rmb.UNCAL_R (i : Nat) : Field := ⟨0x0C0 + 4 * i, 26, 1, .ro, 0, false⟩
/-- R355: Low 5 bits of SEQ_CNT. -/
def rmb.SEQ_NUM (i : Nat) : Field := ⟨0x0C0 + 4 * i, 27, 5, .ro, 0, false⟩
/-- R355: Comparator n = 0–3: lower bound. -/
def rmb.LO (i : Nat) : Field := ⟨0x100 + 8 * i, 0, 12, .rw, 0, false⟩
/-- R355: Upper bound. -/
def rmb.HI (i : Nat) : Field := ⟨0x100 + 8 * i, 16, 12, .rw, 4095, false⟩
/-- R355: Input watched. -/
def rmb.SRC (i : Nat) : Field := ⟨0x104 + 8 * i, 0, 4, .rw, 0, false⟩
/-- R355: Bit 0: A; bit 1: B. -/
def rmb.CONV (i : Nat) : Field := ⟨0x104 + 8 * i, 4, 2, .rw, 0, false⟩
/-- R355: 0 OUT, 1 IN. -/
def rmb.MODE (i : Nat) : Field := ⟨0x104 + 8 * i, 6, 1, .rw, 0, false⟩
/-- R355: Evaluations required, minus 1. -/
def rmb.DEBOUNCE (i : Nat) : Field := ⟨0x104 + 8 * i, 8, 3, .rw, 0, false⟩
/-- R355: Set CMPn in ERR_STAT. -/
def rmb.ACT_FLAG (i : Nat) : Field := ⟨0x104 + 8 * i, 12, 1, .rw, 0, false⟩
/-- R355: Report a step error. -/
def rmb.ACT_STEPERR (i : Nat) : Field := ⟨0x104 + 8 * i, 13, 1, .rw, 0, false⟩
/-- R355: Condition at the last evaluation. -/
def rmb.COND (i : Nat) : Field := ⟨0x104 + 8 * i, 16, 1, .ro, 0, false⟩
/-- R355: 0 idle, 1 NORMAL, 2 URGENT, 3 calibration. -/
def rmb.SEQ_STATE : Field := ⟨0x120, 0, 2, .ro, 0, false⟩
/-- R355: Entry of the slot in progress. -/
def rmb.CUR_ENTRY : Field := ⟨0x120, 4, 4, .ro, 0, false⟩
/-- R355: Interrupted entry. -/
def rmb.RESUME_ENTRY : Field := ⟨0x120, 8, 4, .ro, 0, false⟩
/-- R355: An interrupted entry is waiting. -/
def rmb.RESUME_VALID : Field := ⟨0x120, 12, 1, .ro, 0, false⟩
/-- R355: The last snapshot was served late. -/
def rmb.SNAP_LATE : Field := ⟨0x120, 13, 1, .ro, 0, false⟩
/-- R355: Bit s: source s has a pending start. -/
def rmb.PEND : Field := ⟨0x120, 16, 8, .ro, 0, false⟩
/-- R355: Sequences ended, loop passes included. -/
def rmb.SEQ_CNT : Field := ⟨0x124, 0, 32, .ro, 0, true⟩
/-- R355: Preemptions. -/
def rmb.PREEMPT_CNT : Field := ⟨0x128, 0, 32, .ro, 0, true⟩
/-- R355: Starts dropped. -/
def rmb.START_LOST_CNT : Field := ⟨0x12C, 0, 32, .ro, 0, true⟩
/-- R355: Epochs without a PWR sample. -/
def rmb.EPOCH_NOSAMP_CNT : Field := ⟨0x130, 0, 32, .ro, 0, true⟩
/-- R355: Low 16 bits of the tick of the last snapshot. -/
def rmb.SNAP_TICK : Field := ⟨0x134, 0, 16, .ro, 0, false⟩
/-- R355: Mean power of the last epoch, in pu. -/
def rmb.P_EPOCH_LAST : Field := ⟨0x138, 0, 16, .ro, 0, false⟩
/-- The fields of this page type. -/
def rmb.fields : List Field :=
  [rmb.REF_SEL, rmb.REF_RDY, rmb.REF_FAULT, rmb.CAL_START, rmb.SW_START, rmb.CAL_BUSY] ++
  [rmb.UNCAL, rmb.CAL_DONE, rmb.OFFS_A, rmb.OFFS_B, rmb.GAIN_A, rmb.GAIN_B] ++
  [rmb.TIMER0_PER, rmb.TIMER1_PER, rmb.SNAP_CYC, rmb.TRIG_PART, rmb.SEQ_STATE, rmb.CUR_ENTRY] ++
  [rmb.RESUME_ENTRY, rmb.RESUME_VALID, rmb.SNAP_LATE, rmb.PEND, rmb.SEQ_CNT, rmb.PREEMPT_CNT] ++
  [rmb.START_LOST_CNT, rmb.EPOCH_NOSAMP_CNT, rmb.SNAP_TICK, rmb.P_EPOCH_LAST] ++
  (List.range 8).map rmb.START_ENTRY ++
  (List.range 8).map rmb.URGENT ++
  (List.range 8).map rmb.SRC_EN ++
  (List.range 16).map rmb.IN_A ++
  (List.range 16).map rmb.IN_B ++
  (List.range 16).map rmb.B_EN ++
  (List.range 16).map rmb.LAST ++
  (List.range 16).map rmb.LOOP ++
  (List.range 16).map rmb.PWR ++
  (List.range 16).map rmb.CODE_A ++
  (List.range 16).map rmb.CODE_B ++
  (List.range 16).map rmb.VALID ++
  (List.range 16).map rmb.OVR ++
  (List.range 16).map rmb.UNCAL_R ++
  (List.range 16).map rmb.SEQ_NUM ++
  (List.range 4).map rmb.LO ++
  (List.range 4).map rmb.HI ++
  (List.range 4).map rmb.SRC ++
  (List.range 4).map rmb.CONV ++
  (List.range 4).map rmb.MODE ++
  (List.range 4).map rmb.DEBOUNCE ++
  (List.range 4).map rmb.ACT_FLAG ++
  (List.range 4).map rmb.ACT_STEPERR ++
  (List.range 4).map rmb.COND


/-! ### THERM (R335) -/

/-- R335: θ, in mK/W. -/
def therm.THETA_EST : Field := ⟨0x040, 0, 16, .ro, 0, false⟩
/-- R335: θ₀, in mK/W; written by capture or from the cairn. -/
def therm.THETA_BASE : Field := ⟨0x040, 16, 16, .rwl, 0, false⟩
/-- R335: P of the last update, in pu. -/
def therm.P_AVG : Field := ⟨0x044, 0, 12, .ro, 0, false⟩
/-- R335: P_perm of the last update, in pu. -/
def therm.P_PERM : Field := ⟨0x044, 16, 12, .ro, 0, false⟩
/-- R335: T_d of the last update. -/
def therm.T_DIE_MAX : Field := ⟨0x048, 0, 8, .ro, 0, false⟩
/-- R335: Hottest diode of the last 1 ms reading. -/
def therm.T_LAST : Field := ⟨0x048, 8, 8, .ro, 0, false⟩
/-- R335: Coolant inlet temperature. -/
def therm.T_IN : Field := ⟨0x048, 16, 8, .ro, 0, false⟩
/-- R335: k_tile. -/
def therm.K_TILE : Field := ⟨0x04C, 0, 7, .ro, 0, false⟩
/-- R335: R331. -/
def therm.HOT : Field := ⟨0x04C, 8, 1, .ro, 0, false⟩
/-- R335: The tile is fenced. -/
def therm.FENCED : Field := ⟨0x04C, 9, 1, .ro, 0, false⟩
/-- R335: The compute switches are closed. -/
def therm.COMPUTE_ON : Field := ⟨0x04C, 10, 1, .ro, 0, false⟩
/-- R335: Consecutive readings of 105 °C or more, 0–10. -/
def therm.HOT105_RUN : Field := ⟨0x04C, 11, 4, .ro, 0, false⟩
/-- R335: Starts a capture. -/
def therm.BASE_CAPTURE : Field := ⟨0x050, 0, 1, .wo, 0, false⟩
/-- R335: A capture is running. -/
def therm.CAPTURE_BUSY : Field := ⟨0x050, 1, 1, .ro, 0, false⟩
/-- R335: The last capture had too few qualifying updates. -/
def therm.BASE_FAIL : Field := ⟨0x050, 2, 1, .ro, 0, false⟩
/-- R335: Updates made, wrapping at 2³². -/
def therm.UPDATE_CNT : Field := ⟨0x054, 0, 32, .ro, 0, true⟩
/-- The fields of this page type. -/
def therm.fields : List Field :=
  [therm.THETA_EST, therm.THETA_BASE, therm.P_AVG, therm.P_PERM, therm.T_DIE_MAX, therm.T_LAST] ++
  [therm.T_IN, therm.K_TILE, therm.HOT, therm.FENCED, therm.COMPUTE_ON, therm.HOT105_RUN] ++
  [therm.BASE_CAPTURE, therm.CAPTURE_BUSY, therm.BASE_FAIL, therm.UPDATE_CNT]


/-! ### SLAB (R235) -/

/-- R235: Core whose dirty map is shown, cy × 16 + cx. -/
def slab.DIRTY_CORE : Field := ⟨0x040, 0, 8, .rw, 0, false⟩
/-- R235: The selected core's dirty map records writes. -/
def slab.DIRTY_ARM : Field := ⟨0x040, 16, 1, .rw, 0, false⟩
/-- R235: 32-bit word of the dirty map shown at 0x048. -/
def slab.DIRTY_IDX : Field := ⟨0x044, 0, 6, .rw, 0, false⟩
/-- R235: Bits 32 × DIRTY_IDX to 32 × DIRTY_IDX + 31. -/
def slab.DIRTY_DATA : Field := ⟨0x048, 0, 32, .ro, 0, false⟩
/-- R235: Dirty blocks of the selected core, 0–2,048. -/
def slab.DIRTY_SUM : Field := ⟨0x04C, 0, 12, .ro, 0, false⟩
/-- R235: A slab clear (R224, R231) is running on the tile. -/
def slab.CLEAR_BUSY : Field := ⟨0x050, 0, 1, .ro, 0, false⟩
/-- The fields of this page type. -/
def slab.fields : List Field :=
  [slab.DIRTY_CORE, slab.DIRTY_ARM, slab.DIRTY_IDX, slab.DIRTY_DATA, slab.DIRTY_SUM, slab.CLEAR_BUSY]


/-! ### MSITE (R203, R289) -/

/-- R203: Bit s: 0 WEIGHT, 1 MUTABLE. Ignored while any region of the set is … -/
def msite.SET_KIND : Field := ⟨0x040, 0, 4, .rwl, 0, false⟩
/-- R203: Partition of the attached edge tile. -/
def msite.PART_ID : Field := ⟨0x040, 8, 4, .ro, 15, false⟩
/-- R203: The last region write broke R185. -/
def msite.CFG_REJECT : Field := ⟨0x040, 16, 1, .ro, 0, false⟩
/-- R203: The last region write was ignored under R188. -/
def msite.CFG_LOCKED : Field := ⟨0x040, 17, 1, .ro, 0, false⟩
/-- R203: A zero fill is running. -/
def msite.ZERO_BUSY : Field := ⟨0x040, 18, 1, .ro, 0, false⟩
/-- R203: Last reading, in °C, two's complement. -/
def msite.STACK_TEMP : Field := ⟨0x044, 0, 8, .ro, 0, false⟩
/-- R203: Refresh doubled. -/
def msite.REFRESH_X2 : Field := ⟨0x044, 8, 1, .ro, 0, false⟩
/-- R203: Temperature of 95 °C or more. -/
def msite.HOT : Field := ⟨0x044, 9, 1, .ro, 0, false⟩
/-- R203: R202. -/
def msite.HOT_FAIL : Field := ⟨0x044, 10, 1, .ro, 0, false⟩
/-- R203: Bit s: parity channel of set s has failed. -/
def msite.SET_UNPROT : Field := ⟨0x044, 12, 4, .ro, 0, false⟩
/-- R203: Bit s: set s is lost. -/
def msite.SET_LOST : Field := ⟨0x044, 16, 4, .ro, 0, false⟩
/-- R203: Region shown at 0x04C–0x058. -/
def msite.REG_SEL : Field := ⟨0x048, 0, 6, .rw, 0, false⟩
/-- R203: 1 writes REG_DATA into the region; 2 invalidates it. -/
def msite.REG_CMD : Field := ⟨0x048, 8, 2, .wo, 0, false⟩
/-- R203: Region entry bits [31:0] to [127:96]. -/
def msite.REG_DATA (i : Nat) : Field := ⟨0x04C + 4 * i, 0, 32, .rw, 0, false⟩
/-- R203: Page-mover commands queued, 0–64. -/
def msite.PM_QFILL : Field := ⟨0x05C, 0, 7, .ro, 0, false⟩
/-- R203: Corrected errors, all channels. -/
def msite.CE_CNT : Field := ⟨0x060, 0, 32, .ro, 0, true⟩
/-- R203: Uncorrectable errors, all channels. -/
def msite.UE_CNT : Field := ⟨0x064, 0, 32, .ro, 0, true⟩
/-- R203: Requests refused under R187. -/
def msite.OWNER_MISS_CNT : Field := ⟨0x068, 0, 32, .ro, 0, true⟩
/-- R203: DEEP entries sent as zeros. -/
def msite.DEEP_ABSENT_CNT : Field := ⟨0x06C, 0, 32, .ro, 0, true⟩
/-- R203: Reads refused for an empty key slot. -/
def msite.KEY_MISS_CNT : Field := ⟨0x070, 0, 32, .ro, 0, true⟩
/-- R203: Scheduled flits not in the channel buffer at release. -/
def msite.SCHED_LATE_CNT : Field := ⟨0x074, 0, 32, .ro, 0, true⟩
/-- R289: Delta entry 0–63. -/
def msite.DDIR_SEL : Field := ⟨0x080, 0, 6, .rw, 0, false⟩
/-- R289: DELTA region holding this site's part of the set. -/
def msite.DDIR_REGION : Field := ⟨0x084, 0, 6, .rw, 0, false⟩
/-- R289: Base within the region, in 4 KiB units. -/
def msite.DDIR_BASE : Field := ⟨0x088, 0, 19, .rw, 0, false⟩
/-- R289: Directory entry in use. -/
def msite.DDIR_VALID : Field := ⟨0x08C, 0, 1, .rw, 0, false⟩
/-- R289: The last write was ignored because the entry has lanes. -/
def msite.DDIR_LOCKED : Field := ⟨0x08C, 8, 1, .ro, 0, false⟩
/-- The fields of this page type. -/
def msite.fields : List Field :=
  [msite.SET_KIND, msite.PART_ID, msite.CFG_REJECT, msite.CFG_LOCKED, msite.ZERO_BUSY, msite.STACK_TEMP] ++
  [msite.REFRESH_X2, msite.HOT, msite.HOT_FAIL, msite.SET_UNPROT, msite.SET_LOST, msite.REG_SEL] ++
  [msite.REG_CMD, msite.PM_QFILL, msite.CE_CNT, msite.UE_CNT, msite.OWNER_MISS_CNT, msite.DEEP_ABSENT_CNT] ++
  [msite.KEY_MISS_CNT, msite.SCHED_LATE_CNT, msite.DDIR_SEL, msite.DDIR_REGION, msite.DDIR_BASE, msite.DDIR_VALID] ++
  [msite.DDIR_LOCKED] ++
  (List.range 4).map msite.REG_DATA


/-! ### MCHAN (R204) -/

/-- R204: Channel in state FAILED. -/
def mchan.FAILED : Field := ⟨0x040, 0, 1, .ro, 0, false⟩
/-- R204: Parity channel of a MUTABLE set. -/
def mchan.PARITY_CH : Field := ⟨0x040, 1, 1, .ro, 0, false⟩
/-- R204: Reads of this channel are rebuilt. -/
def mchan.DEGRADED : Field := ⟨0x040, 2, 1, .ro, 0, false⟩
/-- R204: Corrected errors. -/
def mchan.CE_CNT : Field := ⟨0x044, 0, 32, .ro, 0, true⟩
/-- R204: Uncorrectable errors. -/
def mchan.UE_CNT : Field := ⟨0x048, 0, 32, .ro, 0, true⟩
/-- R204: Channel offset of the last uncorrectable error, in 64-byte units. -/
def mchan.LAST_UE_LINE : Field := ⟨0x04C, 0, 25, .ro, 0, false⟩
/-- R204: Largest request queue occupancy observed. -/
def mchan.QMAX : Field := ⟨0x050, 0, 6, .ro, 0, true⟩
/-- R204: Largest channel buffer occupancy, in units of 4 flits. -/
def mchan.BUF_MAX : Field := ⟨0x050, 8, 10, .ro, 0, true⟩
/-- R204: Scheduled flits released, wrapping at 2³². -/
def mchan.SCHED_FLITS : Field := ⟨0x054, 0, 32, .ro, 0, true⟩
/-- The fields of this page type. -/
def mchan.fields : List Field :=
  [mchan.FAILED, mchan.PARITY_CH, mchan.DEGRADED, mchan.CE_CNT, mchan.UE_CNT, mchan.LAST_UE_LINE] ++
  [mchan.QMAX, mchan.BUF_MAX, mchan.SCHED_FLITS]


/-! ### XTS (R205) -/

/-- R205: Bit j: key slot j of PART_ID is loaded. -/
def xts.KEY_VALID : Field := ⟨0x040, 0, 32, .ro, 0, false⟩
/-- R205: Data units decrypted, wrapping at 2³². -/
def xts.DEC_UNITS : Field := ⟨0x044, 0, 32, .ro, 0, true⟩
/-- R205: Slot named by the last refused read. -/
def xts.KEY_MISS_SLOT : Field := ⟨0x048, 0, 5, .ro, 0, false⟩
/-- The fields of this page type. -/
def xts.fields : List Field :=
  [xts.KEY_VALID, xts.DEC_UNITS, xts.KEY_MISS_SLOT]


/-! ### TICKGEN (R57, R150, R318, R447) -/

/-- R57: Period in units of 8 cycles. -/
def tickgen.PERIOD : Field := ⟨0x040, 0, 13, .rw, 0, false⟩
/-- R57: k applied in the current tick. -/
def tickgen.STRETCH : Field := ⟨0x044, 0, 7, .ro, 0, false⟩
/-- R57: Stretch requested by the thermal control, 0–64. -/
def tickgen.STRETCH_REQ : Field := ⟨0x044, 8, 7, .rw, 0, false⟩
/-- R57: Stretch ceiling used by admission, 0–64. -/
def tickgen.STRETCH_CEIL : Field := ⟨0x044, 16, 7, .rw, 64, false⟩
/-- R57: Ceiling in force for the generator. -/
def tickgen.STRETCH_CEIL_EFF : Field := ⟨0x044, 24, 7, .ro, 64, false⟩
/-- R57: Counter bits [31:0]. A read latches TICK_HI.. -/
def tickgen.TICK_LO : Field := ⟨0x048, 0, 32, .ro, 0, false⟩
/-- R57: Counter bits [47:32], as latched. -/
def tickgen.TICK_HI : Field := ⟨0x04C, 0, 16, .ro, 0, false⟩
/-- R57: Length L of the current tick in cycles. -/
def tickgen.LEN : Field := ⟨0x050, 0, 17, .ro, 0, false⟩
/-- R57: The generator is holding a boundary. -/
def tickgen.HOLD : Field := ⟨0x054, 0, 1, .ro, 0, false⟩
/-- R57: The current tick is a replay tick. -/
def tickgen.REPLAY : Field := ⟨0x054, 1, 1, .ro, 0, false⟩
/-- R57: The mirror generator has taken over. -/
def tickgen.MIRROR_ACT : Field := ⟨0x054, 2, 1, .ro, 0, false⟩
/-- R57: Cause of the last failed tick. 0 none. 1 window short. 2 window … -/
def tickgen.FAIL_CAUSE : Field := ⟨0x054, 8, 8, .ro, 0, false⟩
/-- R57: Replays since the partition was enabled. -/
def tickgen.REPLAY_CNT : Field := ⟨0x058, 0, 32, .ro, 0, true⟩
/-- R57: Largest boundary skew observed, in cycles. -/
def tickgen.SKEW_MAX : Field := ⟨0x05C, 0, 4, .ro, 0, true⟩
/-- R150: Last core declared faulty under R146 or R147. -/
def tickgen.DECL_SRC : Field := ⟨0x060, 0, 15, .ro, 0, false⟩
/-- R150: DECL_SRC holds a declaration. -/
def tickgen.DECL_VALID : Field := ⟨0x060, 31, 1, .ro, 0, false⟩
/-- R150: Cores declared faulty by late writes and source faults. -/
def tickgen.DECL_CNT : Field := ⟨0x064, 0, 32, .ro, 0, true⟩
/-- R150: Late-source table entries in use, 0–16. -/
def tickgen.LATE_TBL_USED : Field := ⟨0x068, 0, 5, .ro, 0, false⟩
/-- R150: An entry was replaced because the table was full. -/
def tickgen.LATE_TBL_OVF : Field := ⟨0x068, 8, 1, .ro, 0, false⟩
/-- R318: Fault holds, wrapping at 2³². -/
def tickgen.HOLD_CNT : Field := ⟨0x06C, 0, 32, .ro, 0, true⟩
/-- R318: Hold of the last event, in cycles. -/
def tickgen.LAST_HOLD : Field := ⟨0x070, 0, 24, .ro, 0, false⟩
/-- R318: Its class. -/
def tickgen.LAST_CLASS : Field := ⟨0x070, 24, 5, .ro, 0, false⟩
/-- R318: Its I, in cycles. -/
def tickgen.LAST_INTR : Field := ⟨0x074, 0, 32, .ro, 0, false⟩
/-- R318: Class of the last halt. -/
def tickgen.HALT_CLASS : Field := ⟨0x078, 0, 5, .ro, 0, false⟩
/-- R318: Current fault map generation. -/
def tickgen.FAULT_GEN : Field := ⟨0x07C, 0, 32, .ro, 0, false⟩
/-- R447: Bit i: tile i, for i = 0–31. -/
def tickgen.TILES0 : Field := ⟨0x080, 0, 32, .rw, 0, false⟩
/-- R447: Tiles 32–63. -/
def tickgen.TILES1 : Field := ⟨0x084, 0, 32, .rw, 0, false⟩
/-- R447: Tiles 64–71. -/
def tickgen.TILES2 : Field := ⟨0x088, 0, 8, .rw, 0, false⟩
/-- R447: Spine frames of every 64, on each spine. -/
def tickgen.FRAMES : Field := ⟨0x08C, 0, 7, .rw, 0, false⟩
/-- R447: R441. -/
def tickgen.CREATE : Field := ⟨0x090, 0, 1, .wo, 0, false⟩
/-- R447: R445. -/
def tickgen.DESTROY : Field := ⟨0x090, 1, 1, .wo, 0, false⟩
/-- R447: The partition exists. -/
def tickgen.CREATED : Field := ⟨0x090, 8, 1, .ro, 0, false⟩
/-- R447: Teardown running. -/
def tickgen.TD_BUSY : Field := ⟨0x090, 9, 1, .ro, 0, false⟩
/-- R447: Last refused CREATE. -/
def tickgen.CR_CODE : Field := ⟨0x090, 16, 8, .ro, 0, false⟩
/-- R447: Last refused start. -/
def tickgen.START_CODE : Field := ⟨0x094, 0, 8, .ro, 0, false⟩
/-- The fields of this page type. -/
def tickgen.fields : List Field :=
  [tickgen.PERIOD, tickgen.STRETCH, tickgen.STRETCH_REQ, tickgen.STRETCH_CEIL, tickgen.STRETCH_CEIL_EFF, tickgen.TICK_LO] ++
  [tickgen.TICK_HI, tickgen.LEN, tickgen.HOLD, tickgen.REPLAY, tickgen.MIRROR_ACT, tickgen.FAIL_CAUSE] ++
  [tickgen.REPLAY_CNT, tickgen.SKEW_MAX, tickgen.DECL_SRC, tickgen.DECL_VALID, tickgen.DECL_CNT, tickgen.LATE_TBL_USED] ++
  [tickgen.LATE_TBL_OVF, tickgen.HOLD_CNT, tickgen.LAST_HOLD, tickgen.LAST_CLASS, tickgen.LAST_INTR, tickgen.HALT_CLASS] ++
  [tickgen.FAULT_GEN, tickgen.TILES0, tickgen.TILES1, tickgen.TILES2, tickgen.FRAMES, tickgen.CREATE] ++
  [tickgen.DESTROY, tickgen.CREATED, tickgen.TD_BUSY, tickgen.CR_CODE, tickgen.START_CODE]


/-! ### PACKER (R467) -/

/-- R467: Wave slots, 1–4. -/
def packer.W : Field := ⟨0x040, 0, 3, .ro, 0, false⟩
/-- R467: Pipeline regions, 1–512. -/
def packer.REGIONS : Field := ⟨0x040, 4, 10, .ro, 0, false⟩
/-- R467: Bit j: slot j is a delta slot. -/
def packer.DELTA_SLOTS : Field := ⟨0x040, 16, 4, .ro, 0, false⟩
/-- R467: Hold-table entry shown at 0x048–0x04C. -/
def packer.HT_IDX : Field := ⟨0x044, 0, 9, .rw, 0, false⟩
/-- R467: Entry bits [31:0] (R46). A read latches bits [63:32] into HT_DATA_HI.. -/
def packer.HT_DATA_LO : Field := ⟨0x048, 0, 32, .ro, 0, false⟩
/-- R467: Entry bits [63:32], as latched. -/
def packer.HT_DATA_HI : Field := ⟨0x04C, 0, 32, .ro, 0, false⟩
/-- R467: Entries with VALID set, 0–512. -/
def packer.HT_USED : Field := ⟨0x050, 0, 10, .ro, 0, false⟩
/-- R467: Widens suppressed. -/
def packer.WIDEN_SUPPRESSED : Field := ⟨0x054, 0, 32, .ro, 0, true⟩
/-- R467: Widens granted. -/
def packer.WIDEN_GRANT_CNT : Field := ⟨0x058, 0, 32, .ro, 0, true⟩
/-- R467: Token ticks stalled. -/
def packer.STALL_CNT : Field := ⟨0x05C, 0, 32, .ro, 0, true⟩
/-- R467: Booked holds executed. -/
def packer.BOOKED_CNT : Field := ⟨0x060, 0, 32, .ro, 0, true⟩
/-- R467: Tokens placed in entry slots. -/
def packer.ENTRY_CNT : Field := ⟨0x064, 0, 32, .ro, 0, true⟩
/-- R467: Token ticks spent waiting in the hold table for an entry slot. -/
def packer.ENTRY_WAIT_CNT : Field := ⟨0x068, 0, 32, .ro, 0, true⟩
/-- The fields of this page type. -/
def packer.fields : List Field :=
  [packer.W, packer.REGIONS, packer.DELTA_SLOTS, packer.HT_IDX, packer.HT_DATA_LO, packer.HT_DATA_HI] ++
  [packer.HT_USED, packer.WIDEN_SUPPRESSED, packer.WIDEN_GRANT_CNT, packer.STALL_CNT, packer.BOOKED_CNT, packer.ENTRY_CNT] ++
  [packer.ENTRY_WAIT_CNT]


/-! ### REQTAB (R264) -/

/-- R264: Handle of the entry shown at 0x080–0x0BC. -/
def reqtab.ENT_SEL : Field := ⟨0x040, 0, 17, .rw, 0, false⟩
/-- R264: Entries in FREE. -/
def reqtab.FREE_CNT : Field := ⟨0x044, 0, 17, .ro, 65536, false⟩
/-- R264: Entries in QUEUED. -/
def reqtab.QUEUED_CNT : Field := ⟨0x048, 0, 17, .ro, 0, false⟩
/-- R264: Entries in SCREE. -/
def reqtab.SCREE_CNT : Field := ⟨0x04C, 0, 17, .ro, 0, false⟩
/-- R264: Millisecond clock, wrapping at 2³². -/
def reqtab.MS_CLOCK : Field := ⟨0x050, 0, 32, .ro, 0, false⟩
/-- R264: The selected entry, as sixteen 32-bit words, least significant first. -/
def reqtab.ENT_W (i : Nat) : Field := ⟨0x080 + 4 * i, 0, 32, .ro, 0, false⟩
/-- The fields of this page type. -/
def reqtab.fields : List Field :=
  [reqtab.ENT_SEL, reqtab.FREE_CNT, reqtab.QUEUED_CNT, reqtab.SCREE_CNT, reqtab.MS_CLOCK] ++
  (List.range 16).map reqtab.ENT_W


/-! ### ADMIT (R265, R288) -/

/-- R265: First lane of the partition. -/
def adm.LANE_BASE : Field := ⟨0x040, 0, 8, .rwl, 0, false⟩
/-- R265: Lanes of the partition, 0–256; 0 means none. -/
def adm.LANE_CNT : Field := ⟨0x040, 8, 9, .rwl, 0, false⟩
/-- R265: Ring sets reserved for GUARANTEED requests. -/
def adm.RES_RINGS : Field := ⟨0x044, 0, 8, .rw, 0, false⟩
/-- R265: Global-pool pages reserved for GUARANTEED requests. -/
def adm.RES_GPAGES : Field := ⟨0x044, 8, 24, .rw, 0, false⟩
/-- R265: L_max of the standing reservation of primed lanes. -/
def adm.PRIME_LMAX : Field := ⟨0x048, 0, 21, .rw, 4096, false⟩
/-- R265: Bytes per tick guaranteed for restores from T1, written by the … -/
def adm.RESTORE_BPT : Field := ⟨0x04C, 0, 32, .ro, 0, false⟩
/-- R265: The same, from T2. -/
def adm.RESTORE_BPT_T2 : Field := ⟨0x050, 0, 32, .ro, 0, false⟩
/-- R265: Spill area address bits [31:0]; bits [11:0] must be 0. -/
def adm.SCREE_T2_BASE_LO : Field := ⟨0x054, 0, 32, .rw, 0, false⟩
/-- R265: Address bits [63:32]. -/
def adm.SCREE_T2_BASE_HI : Field := ⟨0x058, 0, 32, .rw, 0, false⟩
/-- R265: Spill area length in MiB. -/
def adm.SCREE_T2_LEN : Field := ⟨0x05C, 0, 32, .rw, 0, false⟩
/-- R265: Requests accepted. -/
def adm.ADMIT_CNT : Field := ⟨0x060, 0, 32, .ro, 0, true⟩
/-- R265: Requests refused. -/
def adm.REJECT_CNT : Field := ⟨0x064, 0, 32, .ro, 0, true⟩
/-- R265: ELASTIC preemptions. -/
def adm.PREEMPT_CNT : Field := ⟨0x068, 0, 32, .ro, 0, true⟩
/-- R265: Code of the last refusal. -/
def adm.LAST_REJECT : Field := ⟨0x06C, 0, 8, .ro, 0, false⟩
/-- R265: Its handle. -/
def adm.LAST_REJECT_HDL : Field := ⟨0x06C, 8, 17, .ro, 0, false⟩
/-- R265: SLACK_MIN[q] of R251, in ticks, two's complement, q = 0–7. -/
def adm.SLACK_MIN (i : Nat) : Field := ⟨0x070 + 4 * i, 0, 32, .ro, 2147483647, false⟩
/-- R265: Charge counter K[q] of priority q. -/
def adm.K (i : Nat) : Field := ⟨0x090 + 4 * i, 0, 32, .ro, 0, false⟩
/-- R265: Ring sets free. -/
def adm.FREE_RINGS : Field := ⟨0x0B0, 0, 8, .ro, 0, false⟩
/-- R265: Global-pool pages free. -/
def adm.FREE_GPAGES : Field := ⟨0x0B4, 0, 32, .ro, 0, false⟩
/-- R265: Lanes held by requests. -/
def adm.LANES_USED : Field := ⟨0x0B8, 0, 9, .ro, 0, false⟩
/-- R265: TTL in seconds, 1–3,600, for requests that enter SCREE without a … -/
def adm.DEFAULT_TTL : Field := ⟨0x0BC, 0, 12, .rw, 600, false⟩
/-- R288: Delta entry 0–63. -/
def adm.VENT_SEL : Field := ⟨0x0C0, 0, 6, .rw, 0, false⟩
/-- R288: IMAGE_ID bits [31:0]. -/
def adm.VENT_IMAGE_LO : Field := ⟨0x0C4, 0, 32, .rw, 0, false⟩
/-- R288: IMAGE_ID bits [63:32]. -/
def adm.VENT_IMAGE_HI : Field := ⟨0x0C8, 0, 32, .rw, 0, false⟩
/-- R288: Key slot of the delta set. -/
def adm.VENT_KEY : Field := ⟨0x0CC, 0, 5, .rw, 0, false⟩
/-- R288: Variant number to bind, 1–63. -/
def adm.VENT_NUM : Field := ⟨0x0CC, 8, 6, .rw, 0, false⟩
/-- R288: The entry is bound. -/
def adm.VENT_BOUND : Field := ⟨0x0CC, 16, 1, .ro, 0, false⟩
/-- R288: The last bind broke R281. -/
def adm.VENT_REJECT : Field := ⟨0x0CC, 17, 1, .ro, 0, false⟩
/-- R288: Lanes admitted with this entry, 0–256. -/
def adm.VENT_LANES : Field := ⟨0x0CC, 23, 9, .ro, 0, false⟩
/-- R288: 1 binds, 2 unbinds. -/
def adm.VENT_CMD : Field := ⟨0x0D0, 0, 2, .wo, 0, false⟩
/-- The fields of this page type. -/
def adm.fields : List Field :=
  [adm.LANE_BASE, adm.LANE_CNT, adm.RES_RINGS, adm.RES_GPAGES, adm.PRIME_LMAX, adm.RESTORE_BPT] ++
  [adm.RESTORE_BPT_T2, adm.SCREE_T2_BASE_LO, adm.SCREE_T2_BASE_HI, adm.SCREE_T2_LEN, adm.ADMIT_CNT, adm.REJECT_CNT] ++
  [adm.PREEMPT_CNT, adm.LAST_REJECT, adm.LAST_REJECT_HDL, adm.FREE_RINGS, adm.FREE_GPAGES, adm.LANES_USED] ++
  [adm.DEFAULT_TTL, adm.VENT_SEL, adm.VENT_IMAGE_LO, adm.VENT_IMAGE_HI, adm.VENT_KEY, adm.VENT_NUM] ++
  [adm.VENT_BOUND, adm.VENT_REJECT, adm.VENT_LANES, adm.VENT_CMD] ++
  (List.range 8).map adm.SLACK_MIN ++
  (List.range 8).map adm.K


/-! ### SPUR (R287) -/

/-- R287: Draft partition. -/
def spur.DRAFT_PART : Field := ⟨0x040, 0, 4, .rw, 15, false⟩
/-- R287: Request the pairing. -/
def spur.PAIR_EN : Field := ⟨0x040, 8, 1, .rw, 0, false⟩
/-- R287: Pairing active. -/
def spur.PAIR_ACT : Field := ⟨0x040, 9, 1, .ro, 0, false⟩
/-- R287: The last pairing request broke R266. -/
def spur.PAIR_REJECT : Field := ⟨0x040, 10, 1, .ro, 0, false⟩
/-- R287: Ticks an ELASTIC lane may defer. -/
def spur.SPUR_WAIT : Field := ⟨0x044, 0, 6, .rw, 24, false⟩
/-- R287: Main lane shown at 0x04C. -/
def spur.LANE_SEL : Field := ⟨0x048, 0, 8, .rw, 0, false⟩
/-- R287: Its draft lane. -/
def spur.DRAFT_LANE : Field := ⟨0x04C, 0, 8, .ro, 0, false⟩
/-- R287: Tracked spur length. -/
def spur.KT : Field := ⟨0x04C, 8, 2, .ro, 0, false⟩
/-- R287: Zero-streak count. -/
def spur.ZS : Field := ⟨0x04C, 10, 3, .ro, 0, false⟩
/-- R287: Token count of R278, saturating at 127. -/
def spur.TOK_SINCE : Field := ⟨0x04C, 13, 7, .ro, 0, false⟩
/-- R287: Current epoch. -/
def spur.EPOCH : Field := ⟨0x04C, 20, 8, .ro, 0, false⟩
/-- R287: A probe is pending. -/
def spur.PROBE_PEND : Field := ⟨0x04C, 30, 1, .ro, 0, false⟩
/-- R287: The lane has a draft lane. -/
def spur.SPUR_LANE : Field := ⟨0x04C, 31, 1, .ro, 0, false⟩
/-- R287: Passes with k_e ≥ 1. -/
def spur.VERIFY_CNT : Field := ⟨0x050, 0, 32, .ro, 0, true⟩
/-- R287: Extra positions placed. -/
def spur.PLACED_CNT : Field := ⟨0x054, 0, 32, .ro, 0, true⟩
/-- R287: Drafts accepted. -/
def spur.ACCEPT_CNT : Field := ⟨0x058, 0, 32, .ro, 0, true⟩
/-- R287: SPUR words discarded for a stale EPOCH. -/
def spur.SPUR_STALE_CNT : Field := ⟨0x05C, 0, 32, .ro, 0, true⟩
/-- R287: Extra positions removed. -/
def spur.EXTRA_REMOVED_CNT : Field := ⟨0x060, 0, 32, .ro, 0, true⟩
/-- R287: Lanes shrunk to KT = 0. -/
def spur.SHRINK_CNT : Field := ⟨0x064, 0, 32, .ro, 0, true⟩
/-- R287: Probe passes. -/
def spur.PROBE_CNT : Field := ⟨0x068, 0, 32, .ro, 0, true⟩
/-- R287: Requests that found no draft lane. -/
def spur.NOLANE_CNT : Field := ⟨0x06C, 0, 32, .ro, 0, true⟩
/-- R287: Ticks deferred by ELASTIC lanes. -/
def spur.SPUR_WAIT_TICKS : Field := ⟨0x070, 0, 32, .ro, 0, true⟩
/-- R287: Spur-channel words discarded. -/
def spur.CHAN_DROP_CNT : Field := ⟨0x074, 0, 32, .ro, 0, true⟩
/-- The fields of this page type. -/
def spur.fields : List Field :=
  [spur.DRAFT_PART, spur.PAIR_EN, spur.PAIR_ACT, spur.PAIR_REJECT, spur.SPUR_WAIT, spur.LANE_SEL] ++
  [spur.DRAFT_LANE, spur.KT, spur.ZS, spur.TOK_SINCE, spur.EPOCH, spur.PROBE_PEND] ++
  [spur.SPUR_LANE, spur.VERIFY_CNT, spur.PLACED_CNT, spur.ACCEPT_CNT, spur.SPUR_STALE_CNT, spur.EXTRA_REMOVED_CNT] ++
  [spur.SHRINK_CNT, spur.PROBE_CNT, spur.NOLANE_CNT, spur.SPUR_WAIT_TICKS, spur.CHAN_DROP_CNT]


/-! ### VL_PORT (R383) -/

/-- R383: Train and run the port. -/
def vlport.PORT_EN : Field := ⟨0x040, 0, 1, .rw, 0, false⟩
/-- R383: Forces a retrain. -/
def vlport.RETRAIN : Field := ⟨0x040, 1, 1, .wo, 0, false⟩
/-- R383: Highest generation, 2 or 3; other values are ignored. -/
def vlport.GEN_MAX : Field := ⟨0x040, 4, 2, .rw, 3, false⟩
/-- R383: Companion 0 or 1. -/
def vlport.PORT_COMP : Field := ⟨0x040, 8, 1, .rwl, 0, false⟩
/-- R383: Accepts MMIO outside doorbell pages. -/
def vlport.MGMT : Field := ⟨0x040, 9, 1, .rwl, 0, false⟩
/-- R383: Bit p: accepts the doorbell page of partition p. -/
def vlport.PORT_PARTS : Field := ⟨0x040, 16, 12, .rwl, 0, false⟩
/-- R383: 0 DETECT, 1 POLLING, 2 CONFIG, 3 EQ, 4 ACTIVE, 5 RETRAIN, 6 DOWN, … -/
def vlport.LSTATE : Field := ⟨0x044, 0, 3, .ro, 0, false⟩
/-- R383: Generation in use. -/
def vlport.GEN : Field := ⟨0x044, 4, 2, .ro, 0, false⟩
/-- R383: 0 x16, 1 x8. -/
def vlport.WIDTH : Field := ⟨0x044, 6, 1, .ro, 0, false⟩
/-- R383: The port is the ordered port of some partition. -/
def vlport.ORDERED : Field := ⟨0x044, 7, 1, .ro, 0, false⟩
/-- R383: Bit l: lane l failed training. -/
def vlport.LANE_FAIL : Field := ⟨0x044, 16, 16, .ro, 0, false⟩
/-- R383: Partner's NODE_ID, bits [31:0] and [63:32]. -/
def vlport.NODE_ID_LO : Field := ⟨0x048, 0, 32, .ro, 0, false⟩
/-- R383: Partner's NODE_ID, bits [31:0] and [63:32]. -/
def vlport.NODE_ID_HI : Field := ⟨0x04C, 0, 32, .ro, 0, false⟩
/-- R383: Bad flits received. -/
def vlport.CRC_ERR_CNT : Field := ⟨0x050, 0, 32, .ro, 0, true⟩
/-- R383: Gen3 flits corrected by FEC. -/
def vlport.FEC_CORR_CNT : Field := ⟨0x054, 0, 32, .ro, 0, true⟩
/-- R383: Replays sent. -/
def vlport.REPLAY_CNT : Field := ⟨0x058, 0, 32, .ro, 0, true⟩
/-- R383: Retrains that kept their buffers. -/
def vlport.RETRAIN_CNT : Field := ⟨0x05C, 0, 32, .ro, 0, true⟩
/-- R383: Transitions to DOWN. -/
def vlport.DOWN_CNT : Field := ⟨0x060, 0, 32, .ro, 0, true⟩
/-- R383: R376. -/
def vlport.MMIO_DENY_CNT : Field := ⟨0x064, 0, 32, .ro, 0, true⟩
/-- R383: R368. -/
def vlport.PROTO_ERR_CNT : Field := ⟨0x068, 0, 32, .ro, 0, true⟩
/-- R383: Snoops answered. -/
def vlport.SNP_CNT : Field := ⟨0x06C, 0, 32, .ro, 0, true⟩
/-- R383: R381. -/
def vlport.WR_ERR_CNT : Field := ⟨0x070, 0, 32, .ro, 0, true⟩
/-- The fields of this page type. -/
def vlport.fields : List Field :=
  [vlport.PORT_EN, vlport.RETRAIN, vlport.GEN_MAX, vlport.PORT_COMP, vlport.MGMT, vlport.PORT_PARTS] ++
  [vlport.LSTATE, vlport.GEN, vlport.WIDTH, vlport.ORDERED, vlport.LANE_FAIL, vlport.NODE_ID_LO] ++
  [vlport.NODE_ID_HI, vlport.CRC_ERR_CNT, vlport.FEC_CORR_CNT, vlport.REPLAY_CNT, vlport.RETRAIN_CNT, vlport.DOWN_CNT] ++
  [vlport.MMIO_DENY_CNT, vlport.PROTO_ERR_CNT, vlport.SNP_CNT, vlport.WR_ERR_CNT]


/-! ### COHC (R385) -/

/-- R385: Command ring base, bits [31:0] and [63:32]; bits [5:0] must be 0. -/
def cohc.CMD_BASE_LO : Field := ⟨0x040, 0, 32, .rw, 0, false⟩
/-- R385: Command ring base, bits [31:0] and [63:32]; bits [5:0] must be 0. -/
def cohc.CMD_BASE_HI : Field := ⟨0x044, 0, 32, .rw, 0, false⟩
/-- R385: n of the command ring. -/
def cohc.CMD_LOG2 : Field := ⟨0x048, 0, 5, .rw, 0, false⟩
/-- R385: Completion ring base. -/
def cohc.CPL_BASE_LO : Field := ⟨0x04C, 0, 32, .rw, 0, false⟩
/-- R385: Completion ring base. -/
def cohc.CPL_BASE_HI : Field := ⟨0x050, 0, 32, .rw, 0, false⟩
/-- R385: n of the completion ring. -/
def cohc.CPL_LOG2 : Field := ⟨0x054, 0, 5, .rw, 0, false⟩
/-- R385: Address for CMD_CI; bits [1:0] must be 0. -/
def cohc.CI_SHADOW_LO : Field := ⟨0x058, 0, 32, .rw, 0, false⟩
/-- R385: Address for CMD_CI; bits [1:0] must be 0. -/
def cohc.CI_SHADOW_HI : Field := ⟨0x05C, 0, 32, .rw, 0, false⟩
/-- R385: Interrupt address; bits [1:0] must be 0. -/
def cohc.INT_ADDR_LO : Field := ⟨0x060, 0, 32, .rw, 0, false⟩
/-- R385: Interrupt address; bits [1:0] must be 0. -/
def cohc.INT_ADDR_HI : Field := ⟨0x064, 0, 32, .rw, 0, false⟩
/-- R385: Interrupt value. -/
def cohc.INT_DATA : Field := ⟨0x068, 0, 32, .rw, 0, false⟩
/-- R385: Interrupts enabled. -/
def cohc.INT_EN : Field := ⟨0x06C, 0, 1, .rw, 0, false⟩
/-- R385: The interrupt is armed. -/
def cohc.ARMED : Field := ⟨0x06C, 1, 1, .ro, 0, false⟩
/-- R385: µs. -/
def cohc.INT_HOLDOFF : Field := ⟨0x06C, 16, 16, .rw, 0, false⟩
/-- R385: Companion of the partition. -/
def cohc.COMP : Field := ⟨0x070, 0, 1, .rw, 0, false⟩
/-- R385: Ordered port; meaningful only when ORD_VALID is 1. -/
def cohc.ORD_PORT : Field := ⟨0x070, 8, 3, .ro, 7, false⟩
/-- R385: An ordered port exists. -/
def cohc.ORD_VALID : Field := ⟨0x070, 11, 1, .ro, 0, false⟩
/-- R385: Aperture entry shown at 0x078–0x088. -/
def cohc.APER_SEL : Field := ⟨0x074, 0, 4, .rw, 0, false⟩
/-- R385: Base; bits [11:0] must be 0. -/
def cohc.APER_BASE_LO : Field := ⟨0x078, 0, 32, .rw, 0, false⟩
/-- R385: Base; bits [11:0] must be 0. -/
def cohc.APER_BASE_HI : Field := ⟨0x07C, 0, 32, .rw, 0, false⟩
/-- R385: Last byte + 1; bits [11:0] must be 0. -/
def cohc.APER_LIMIT_LO : Field := ⟨0x080, 0, 32, .rw, 0, false⟩
/-- R385: Last byte + 1; bits [11:0] must be 0. -/
def cohc.APER_LIMIT_HI : Field := ⟨0x084, 0, 32, .rw, 0, false⟩
/-- R385: Entry in use. -/
def cohc.APER_VALID : Field := ⟨0x088, 0, 1, .rw, 0, false⟩
/-- R385: Writes permitted. -/
def cohc.APER_WRITE : Field := ⟨0x088, 1, 1, .rw, 0, false⟩
/-- R385: Command consumer index. -/
def cohc.CMD_CI : Field := ⟨0x08C, 0, 17, .ro, 0, false⟩
/-- R385: Completion producer index. -/
def cohc.CPL_PI : Field := ⟨0x090, 0, 17, .ro, 0, false⟩
/-- R385: R380, wrapping at 2³². -/
def cohc.APERT_VIOL_CNT : Field := ⟨0x094, 0, 32, .ro, 0, true⟩
/-- The fields of this page type. -/
def cohc.fields : List Field :=
  [cohc.CMD_BASE_LO, cohc.CMD_BASE_HI, cohc.CMD_LOG2, cohc.CPL_BASE_LO, cohc.CPL_BASE_HI, cohc.CPL_LOG2] ++
  [cohc.CI_SHADOW_LO, cohc.CI_SHADOW_HI, cohc.INT_ADDR_LO, cohc.INT_ADDR_HI, cohc.INT_DATA, cohc.INT_EN] ++
  [cohc.ARMED, cohc.INT_HOLDOFF, cohc.COMP, cohc.ORD_PORT, cohc.ORD_VALID, cohc.APER_SEL] ++
  [cohc.APER_BASE_LO, cohc.APER_BASE_HI, cohc.APER_LIMIT_LO, cohc.APER_LIMIT_HI, cohc.APER_VALID, cohc.APER_WRITE] ++
  [cohc.CMD_CI, cohc.CPL_PI, cohc.APERT_VIOL_CNT]


/-! ### SMC (R446, R469) -/

/-- R446: 0 booting, 1 fault map, 2 base tests, 3 training, 4 READY, 5 … -/
def smc.BRINGUP : Field := ⟨0x040, 0, 3, .ro, 0, false⟩
/-- R446: The last start followed a module reset. -/
def smc.MODRST : Field := ⟨0x040, 8, 1, .w1c, 0, false⟩
/-- R446: Milliseconds from POWER_GOOD to READY or READY_MAINT. -/
def smc.READY_MS : Field := ⟨0x044, 0, 32, .ro, 0, false⟩
/-- R446: Tiles down in the fault map. -/
def smc.TILES_DOWN : Field := ⟨0x048, 0, 7, .ro, 0, false⟩
/-- R446: Saddles DOWN. -/
def smc.SADDLES_DOWN : Field := ⟨0x04C, 0, 8, .ro, 0, false⟩
/-- R446: Bit m: site m is down. -/
def smc.SITES_DOWN : Field := ⟨0x050, 0, 16, .ro, 0, false⟩
/-- R446: Slab rows replaced in this bring-up. -/
def smc.SLAB_REPAIRS : Field := ⟨0x054, 0, 32, .ro, 0, true⟩
/-- R446: Fault records created under R435. -/
def smc.BRINGUP_FAULTS : Field := ⟨0x058, 0, 32, .ro, 0, true⟩
/-- R469: Fault log record shown. -/
def smc.FLOG_SEL : Field := ⟨0x060, 0, 6, .rw, 0, false⟩
/-- R469: Records in the log, 0–64. -/
def smc.FLOG_CNT : Field := ⟨0x060, 8, 7, .ro, 0, false⟩
/-- R469: Record bytes 0–31, least significant word first. -/
def smc.FLOG_DATA (i : Nat) : Field := ⟨0x064 + 4 * i, 0, 32, .ro, 0, false⟩
/-- R469: Sequence number of the newest record. -/
def smc.FLOG_NEWEST : Field := ⟨0x084, 0, 32, .ro, 0, false⟩
/-- R469: Endpoint ID assigned by the bus owner. -/
def smc.MCTP_EID : Field := ⟨0x088, 0, 8, .ro, 0, false⟩
/-- R469: Dynamic address on J_MGT. -/
def smc.I3C_DA : Field := ⟨0x088, 8, 7, .ro, 0, false⟩
/-- R469: This SMC's control tile holds the SPI NOR grant. -/
def smc.NOR_GRANT : Field := ⟨0x088, 16, 1, .ro, 0, false⟩
/-- R469: VERSION of the running MCF. -/
def smc.MCF_VERSION : Field := ⟨0x08C, 0, 32, .ro, 0, false⟩
/-- The fields of this page type. -/
def smc.fields : List Field :=
  [smc.BRINGUP, smc.MODRST, smc.READY_MS, smc.TILES_DOWN, smc.SADDLES_DOWN, smc.SITES_DOWN] ++
  [smc.SLAB_REPAIRS, smc.BRINGUP_FAULTS, smc.FLOG_SEL, smc.FLOG_CNT, smc.FLOG_NEWEST, smc.MCTP_EID] ++
  [smc.I3C_DA, smc.NOR_GRANT, smc.MCF_VERSION] ++
  (List.range 8).map smc.FLOG_DATA


/-! ### SSB (R413) -/

/-- R413: 0 booting, 1 NORMAL, 2 MAINT, 3 FAILED. -/
def ssb.BOOT_STATE : Field := ⟨0x040, 0, 2, .ro, 0, false⟩
/-- R413: An override is in force. -/
def ssb.OVERRIDE : Field := ⟨0x040, 4, 1, .ro, 0, false⟩
/-- R413: Revocation bits. -/
def ssb.KEY_REVOKED : Field := ⟨0x040, 8, 4, .ro, 0, false⟩
/-- R413: KEYIDX of the running SSB_FW. -/
def ssb.KEY_IN_USE : Field := ⟨0x040, 12, 2, .ro, 0, false⟩
/-- R413: Current block. -/
def ssb.LMS_BLOCK : Field := ⟨0x044, 0, 10, .ro, 0, false⟩
/-- R413: Next leaf. -/
def ssb.LMS_LEAF : Field := ⟨0x044, 10, 10, .ro, 0, false⟩
/-- R413: No fresh block remains. -/
def ssb.LMS_EXHAUSTED : Field := ⟨0x044, 31, 1, .ro, 0, false⟩
/-- R413: Boot count from the counters cairn. -/
def ssb.BOOT_CNT : Field := ⟨0x048, 0, 32, .ro, 0, false⟩
/-- R413: 1–4 selects SSB_FW to MSF; 0 selects MANIFEST. -/
def ssb.SVN_KIND : Field := ⟨0x04C, 0, 3, .rw, 0, false⟩
/-- R413: Raises the fused minimum of SVN_KIND to the ACTIVE slot's SVN. -/
def ssb.SVN_COMMIT : Field := ⟨0x04C, 8, 1, .wo, 0, false⟩
/-- R413: Fused minimum of SVN_KIND. -/
def ssb.SVN_MIN : Field := ⟨0x050, 0, 7, .ro, 0, false⟩
/-- R413: Reports signed. -/
def ssb.ATTEST_CNT : Field := ⟨0x054, 0, 32, .ro, 0, true⟩
/-- R413: Keys loaded. -/
def ssb.KEYLOAD_CNT : Field := ⟨0x058, 0, 32, .ro, 0, true⟩
/-- R413: KEY_LOAD refusals. -/
def ssb.KEYLOAD_FAIL_CNT : Field := ⟨0x05C, 0, 32, .ro, 0, true⟩
/-- R413: CODE of the last KEY_LOAD or KEY_CLEAR. -/
def ssb.LAST_KEY_CODE : Field := ⟨0x060, 0, 8, .ro, 0, false⟩
/-- The fields of this page type. -/
def ssb.fields : List Field :=
  [ssb.BOOT_STATE, ssb.OVERRIDE, ssb.KEY_REVOKED, ssb.KEY_IN_USE, ssb.LMS_BLOCK, ssb.LMS_LEAF] ++
  [ssb.LMS_EXHAUSTED, ssb.BOOT_CNT, ssb.SVN_KIND, ssb.SVN_COMMIT, ssb.SVN_MIN, ssb.ATTEST_CNT] ++
  [ssb.KEYLOAD_CNT, ssb.KEYLOAD_FAIL_CNT, ssb.LAST_KEY_CODE]


/-! ### SPS (R336) -/

/-- R336: P48, in units of 10 mV. -/
def sps.VIN : Field := ⟨0x040, 0, 16, .ro, 0, false⟩
/-- R336: 100 ms average input power, in units of 10 W. -/
def sps.PIN : Field := ⟨0x044, 0, 16, .ro, 0, false⟩
/-- R336: R327, in units of 10 W; values outside 500–2,000 are ignored. -/
def sps.MOD_CAP : Field := ⟨0x048, 0, 12, .rw, 2000, false⟩
/-- R336: c × 65,535. -/
def sps.CAP_FACTOR : Field := ⟨0x04C, 0, 16, .ro, 65535, false⟩
/-- R336: Stack shown at 0x054–0x05C. -/
def sps.PH_SEL : Field := ⟨0x050, 0, 7, .rw, 0, false⟩
/-- R336: Bit n: phase n is present and sharing. -/
def sps.PH_OK : Field := ⟨0x054, 0, 17, .ro, 0, false⟩
/-- R336: Bit n: phase n taken out for a swap. -/
def sps.PH_OFFLINE : Field := ⟨0x058, 0, 17, .rw, 0, false⟩
/-- R336: Phase losses of the selected stack, wrapping at 2³². -/
def sps.PH_LOST_CNT : Field := ⟨0x05C, 0, 32, .ro, 0, true⟩
/-- R336: Step 6 of R323 reached. -/
def sps.POWER_GOOD : Field := ⟨0x060, 0, 1, .ro, 0, false⟩
/-- R336: R326. -/
def sps.SHUTDOWN : Field := ⟨0x060, 1, 1, .wo, 0, false⟩
/-- R336: Cause latched with PWR_FAIL: 0 none, 1 undervoltage, 2 OVERPOWER, … -/
def sps.TRIP_CAUSE : Field := ⟨0x060, 4, 4, .ro, 0, false⟩
/-- The fields of this page type. -/
def sps.fields : List Field :=
  [sps.VIN, sps.PIN, sps.MOD_CAP, sps.CAP_FACTOR, sps.PH_SEL, sps.PH_OK] ++
  [sps.PH_OFFLINE, sps.PH_LOST_CNT, sps.POWER_GOOD, sps.SHUTDOWN, sps.TRIP_CAUSE]


/-! ### JOURNAL (R470) -/

/-- R470: SEQ of the newest durable record, bits [31:0]. A read latches bits … -/
def journal.SEQ_LAST_LO : Field := ⟨0x040, 0, 32, .ro, 0, false⟩
/-- R470: Bits [63:32], as latched. -/
def journal.SEQ_LAST_HI : Field := ⟨0x044, 0, 32, .ro, 0, false⟩
/-- R470: Sector of the write point, 0–767. -/
def journal.WR_SECTOR : Field := ⟨0x048, 0, 10, .ro, 0, false⟩
/-- R470: Offset within the sector, in 16-byte units. -/
def journal.WR_OFFSET : Field := ⟨0x048, 16, 16, .ro, 0, false⟩
/-- R470: Journal in use after the newest snapshot, in 64 KiB sectors. -/
def journal.FILL : Field := ⟨0x04C, 0, 16, .ro, 0, false⟩
/-- R470: Snapshot area holding the newest valid snapshot. -/
def journal.SNAP_AREA : Field := ⟨0x04C, 16, 1, .ro, 0, false⟩
/-- R470: A compaction is running. -/
def journal.COMPACT_BUSY : Field := ⟨0x04C, 17, 1, .ro, 0, false⟩
/-- R470: Erased sectors ahead of the write point, saturating at 255. -/
def journal.ERASED_AHEAD : Field := ⟨0x04C, 24, 8, .ro, 0, false⟩
/-- R470: Records submitted and not yet durable. -/
def journal.QUEUED : Field := ⟨0x050, 0, 8, .ro, 0, false⟩
/-- R470: Records made durable since power-on. -/
def journal.RECORD_CNT : Field := ⟨0x054, 0, 32, .ro, 0, true⟩
/-- R470: Records after the boot scan's stopping point. -/
def journal.BOOT_DROP : Field := ⟨0x058, 0, 32, .ro, 0, false⟩
/-- R470: Entries in use in the abandon table. -/
def journal.ABANDON_USED : Field := ⟨0x05C, 0, 6, .ro, 0, false⟩
/-- The fields of this page type. -/
def journal.fields : List Field :=
  [journal.SEQ_LAST_LO, journal.SEQ_LAST_HI, journal.WR_SECTOR, journal.WR_OFFSET, journal.FILL, journal.SNAP_AREA] ++
  [journal.COMPACT_BUSY, journal.ERASED_AHEAD, journal.QUEUED, journal.RECORD_CNT, journal.BOOT_DROP, journal.ABANDON_USED]


/-! ### TALLY_IF (R430) -/

/-- R430: A Tally is fitted on a -T module. -/
def tallyIf.PRESENT : Field := ⟨0x040, 0, 1, .ro, 0, false⟩
/-- R430: A READING arrived within the last 300 ms. -/
def tallyIf.LINK_UP : Field := ⟨0x040, 1, 1, .ro, 0, false⟩
/-- R430: The MCF speaks the Tally's generation of interface 0x0A. -/
def tallyIf.GEN_OK : Field := ⟨0x040, 2, 1, .ro, 0, false⟩
/-- R430: That generation. -/
def tallyIf.TLY_GEN : Field := ⟨0x040, 8, 8, .ro, 0, false⟩
/-- R430: Firmware checksum from the last READING. -/
def tallyIf.CHECKSUM : Field := ⟨0x044, 0, 16, .ro, 0, false⟩
/-- R430: mWh, bits [31:0] and [63:32], copied from the last READING. -/
def tallyIf.E_IMP_LO : Field := ⟨0x048, 0, 32, .ro, 0, false⟩
/-- R430: mWh, bits [31:0] and [63:32], copied from the last READING. -/
def tallyIf.E_IMP_HI : Field := ⟨0x04C, 0, 32, .ro, 0, false⟩
/-- R430: mWh. -/
def tallyIf.E_REV_LO : Field := ⟨0x050, 0, 32, .ro, 0, false⟩
/-- R430: mWh. -/
def tallyIf.E_REV_HI : Field := ⟨0x054, 0, 32, .ro, 0, false⟩
/-- R430: Mean power, W, signed. -/
def tallyIf.P_LAST : Field := ⟨0x058, 0, 32, .ro, 0, false⟩
/-- R430: STATUS of the last READING. -/
def tallyIf.STATUS : Field := ⟨0x05C, 0, 16, .ro, 0, false⟩
/-- R430: 32-byte nonce for REQ_SIGNED. -/
def tallyIf.NONCE (i : Nat) : Field := ⟨0x060 + 4 * i, 0, 32, .rw, 0, false⟩
/-- R430: Sends REQ_SIGNED with NONCE. -/
def tallyIf.REQ_SIGNED : Field := ⟨0x080, 0, 1, .wo, 0, false⟩
/-- R430: Sends REQ_LOG for LOG_IDX. -/
def tallyIf.REQ_LOG : Field := ⟨0x080, 1, 1, .wo, 0, false⟩
/-- R430: Sends REQ_CERT. -/
def tallyIf.REQ_CERT : Field := ⟨0x080, 2, 1, .wo, 0, false⟩
/-- R430: A new frame is in the buffer. -/
def tallyIf.FRAME_VALID : Field := ⟨0x080, 8, 1, .w1c, 0, false⟩
/-- R430: Its TYPE, low 4 bits. -/
def tallyIf.FRAME_TYPE : Field := ⟨0x080, 12, 4, .ro, 0, false⟩
/-- R430: Record index. -/
def tallyIf.LOG_IDX : Field := ⟨0x084, 0, 32, .rw, 0, false⟩
/-- R430: Length of the buffered frame in bytes. -/
def tallyIf.FRAME_LEN : Field := ⟨0x088, 0, 16, .ro, 0, false⟩
/-- R430: Partition shown at 0x090–0x09C. -/
def tallyIf.SHARE_SEL : Field := ⟨0x08C, 0, 4, .rw, 0, false⟩
/-- R430: E_p accumulated, mWh. -/
def tallyIf.SHARE_E_LO : Field := ⟨0x090, 0, 32, .ro, 0, false⟩
/-- R430: E_p accumulated, mWh. -/
def tallyIf.SHARE_E_HI : Field := ⟨0x094, 0, 32, .ro, 0, false⟩
/-- R430: Tokens accumulated. -/
def tallyIf.SHARE_TOK_LO : Field := ⟨0x098, 0, 32, .ro, 0, false⟩
/-- R430: Tokens accumulated. -/
def tallyIf.SHARE_TOK_HI : Field := ⟨0x09C, 0, 32, .ro, 0, false⟩
/-- R430: Source of E in the last second: 0 Tally, 1 PIN. -/
def tallyIf.SHARE_SRC : Field := ⟨0x0A0, 0, 1, .ro, 0, false⟩
/-- The fields of this page type. -/
def tallyIf.fields : List Field :=
  [tallyIf.PRESENT, tallyIf.LINK_UP, tallyIf.GEN_OK, tallyIf.TLY_GEN, tallyIf.CHECKSUM, tallyIf.E_IMP_LO] ++
  [tallyIf.E_IMP_HI, tallyIf.E_REV_LO, tallyIf.E_REV_HI, tallyIf.P_LAST, tallyIf.STATUS, tallyIf.REQ_SIGNED] ++
  [tallyIf.REQ_LOG, tallyIf.REQ_CERT, tallyIf.FRAME_VALID, tallyIf.FRAME_TYPE, tallyIf.LOG_IDX, tallyIf.FRAME_LEN] ++
  [tallyIf.SHARE_SEL, tallyIf.SHARE_E_LO, tallyIf.SHARE_E_HI, tallyIf.SHARE_TOK_LO, tallyIf.SHARE_TOK_HI, tallyIf.SHARE_SRC] ++
  (List.range 8).map tallyIf.NONCE


/-! ### The doorbell page (R377) -/

/-- R377: Command producer index, modulo twice the ring size. The write is … -/
def doorbell.CMD_PI : Field := ⟨0x000, 0, 17, .rw, 0, false⟩
/-- R377: Completion consumer index, modulo twice the ring size. -/
def doorbell.CPL_CI : Field := ⟨0x004, 0, 17, .rw, 0, false⟩
/-- R377: 1 arms the interrupt. -/
def doorbell.ARM : Field := ⟨0x004, 31, 1, .wo, 0, false⟩
/-- The fields of this page type. -/
def doorbell.fields : List Field :=
  [doorbell.CMD_PI, doorbell.CPL_CI, doorbell.ARM]

/-! ### Page types -/

/-- The block type code of a page (R460); the doorbell pages do not follow the common layout (R377). -/
def Page.typeCode : Page → Nat
  | .modul => 0x00 | .tileGlb _ => 0x01 | .mesh _ => 0x02 | .saddle _ _ => 0x03 | .crag _ _ => 0x04
  | .coreWin _ => 0x05 | .rmbTile _ => 0x06 | .rmbSite _ => 0x06 | .rmbCtl _ => 0x06 | .therm _ => 0x07
  | .slab _ => 0x08 | .msite _ => 0x10 | .mchan _ _ => 0x11 | .xts _ => 0x12 | .tickgen _ => 0x20
  | .packer _ => 0x21 | .reqtab _ => 0x22 | .adm _ => 0x23 | .spur _ => 0x24 | .vlport _ => 0x25
  | .cohc _ => 0x26 | .smc _ => 0x30 | .ssb _ => 0x31 | .sps => 0x32 | .journal => 0x33 | .tallyIf => 0x34
  | .core _ => 0x05 | .doorbell _ => 0

/-- The number a page shows as its INSTANCE field (R57, R181, R204, R264, R316, R383, R457, R458). -/
def Page.inst : Page → Nat
  | .saddle _ e => e | .crag _ g => g | .mchan _ n => n | .tickgen p => p | .packer p => p | .adm p => p
  | .spur p => p | .cohc p => p | .vlport n => n | .reqtab c => c | .smc c => c | .ssb c => c
  | _ => 0

/-- The block-specific fields of a page. -/
def Page.blockFields : Page → List Field
  | .modul => modul.fields | .tileGlb _ => tileGlb.fields | .mesh _ => mesh.fields
  | .saddle _ _ => saddle.fields | .crag _ _ => crag.fields | .coreWin _ => coreWin.fields
  | .rmbTile _ => rmb.fields | .rmbSite _ => rmb.fields | .rmbCtl _ => rmb.fields | .therm _ => therm.fields
  | .slab _ => slab.fields | .core _ => core.fields | .msite _ => msite.fields | .xts _ => xts.fields
  | .mchan _ _ => mchan.fields | .tickgen _ => tickgen.fields | .packer _ => packer.fields
  | .adm _ => adm.fields | .spur _ => spur.fields | .cohc _ => cohc.fields | .vlport _ => vlport.fields
  | .reqtab _ => reqtab.fields | .smc _ => smc.fields | .ssb _ => ssb.fields | .sps => sps.fields
  | .journal => journal.fields | .doorbell _ => doorbell.fields | .tallyIf => tallyIf.fields

/-- Every field of a page, the common ones first (R451); the core windows and doorbells have no common ones. -/
def Page.allFields (p : Page) : List Field :=
  match p with
  | .core _ => core.fields
  | .doorbell _ => doorbell.fields
  | _ => page.fields ++ p.blockFields

/-- The pages with an enable of their own (R452). -/
def Page.ownEn : Page → Bool
  | .tickgen _ => true | .msite _ => true | .rmbTile _ => true | .rmbSite _ => true | .rmbCtl _ => true
  | _ => false

end Sys2Proof.Machine
end

