-- ==== Sys2Proof/Syntax.lean ====
section
/-! DEFINITION. The commands the engine takes: one constructor of Instr for each row of the manual's table, with
the operands that come from outside the model's state.  Numbers name things as the manual numbers them: `p` a partition,
`g` a global core (R8), `t` a tile, `m` a site, `y` a crag (tile × 16 + crag index), `n` a port, `c` a control tile. -/

namespace Sys2Proof

open Sys2Proof.Machine (Page)

/-- What the hardware finds wrong in a memory or register while a command runs (R62, R72): nothing, a weight
register parity mismatch, or a corrected or uncorrectable error of the local store or the slab. -/
inductive Upset where
  | none | wregParity | lsCorr | lsUe | slabCorr | slabUe
  deriving DecidableEq, Repr

/-- Errors that the site finds in a read or a parity update (R191, R192): corrected ones or uncorrectable ones, each at a 32-byte unit of the
command's reads, those of the old lines at its destination coming after those of its source; `several` names any number of both. -/
inductive StackUpset where
  | none | ce (i : Nat) | ue (i : Nat) | several (ces ues : List Nat)
  deriving DecidableEq, Repr

/-- The element formats of a wide-unit command: BF16 in place of FP32 for A, B and the destination (R71; log 10). -/
structure WuFmt where
  aBf : Bool := false
  bBf : Bool := false
  dBf : Bool := false
  deriving DecidableEq, Repr

/-- The formats of WU_CVT (R78). -/
inductive CvtFmt where
  | f32 | bf16 | mxfp8 | mxfp4
  deriving DecidableEq, Repr, Inhabited

/-- A page-mover command (R201). -/
structure PmCmd where
  op : Nat := 0
  region : Nat := 0
  dstRegion : Nat := 0
  offset : Nat := 0
  dstOffset : Nat := 0
  length : Nat := 0
  tid : Nat := 0
  core : Nat := 0
  slab : Nat := 0
  deriving DecidableEq, Repr

/-- An export descriptor (R200): the partition ID of its spine word (R19), core, slab offset in bytes, flits, and the MEM_REQ fields. -/
structure ExportDesc where
  part : Nat := 0
  core : Nat := 0
  slab : Nat := 0
  nflit : Nat := 0
  tid : Nat := 0
  site : Nat := 0
  region : Nat := 0
  offset : Nat := 0
  deriving DecidableEq, Repr

/-- What LOAD_IMAGE reads from companion memory (R218, R221, R223): the descriptor, the image file at the first and at the second reading,
the binding block, and whether a read met an error (R381). -/
structure LoadData where
  desc : List Byte := []
  image : List Byte := []
  again : List Byte := []
  binds : List Byte := []
  readErr : Bool := false
  deriving DecidableEq, Repr

/-- What SUBMIT and RESUME read from companion memory (R239, R254, R256): tokens, the sampling block's and the mask
table's bytes, what the spill area holds of the request (R259), and whether a read met an error (R381). -/
structure ReqData where
  toks : List Nat := []
  samp : List Byte := []
  mask : List Byte := []
  spill : List Byte := []
  readErr : Bool := false
  deriving DecidableEq, Repr

/-- A block of the power-up sequence whose rail misses its window (R323): a tile, a site or a control tile. -/
inductive RailBlock where
  | tile (t : Nat) | site (m : Nat) | ctl (c : Nat)
  deriving DecidableEq, Repr

/-- What the tests of bring-up find (R436, R437): slabs with defective rows (core, rows), failed routers or crag buses
(tile), saddle channels (tile, edge 1 or 2, channel), memory channels (site, channel). -/
structure BringupData where
  rows : List (Nat × Nat) := []
  tiles : List Nat := []
  chans : List (Nat × Nat × Nat) := []
  mchans : List (Nat × Nat) := []
  ms : Nat := 0
  deriving DecidableEq, Repr

/-- What the compute-die test of a start finds (R443): cores dead, columns that fail against the defect map as (core, array, column), and
any other finding. -/
structure StartFindings where
  dead : List Nat := []
  columns : List (Nat × Nat × Nat) := []
  other : Bool := false
  deriving DecidableEq, Repr

/-- What a port's training meets (R359, R360, R373): partner's generation, failed lanes, NODE_ID, the credits it advertises
on each VC, and whether it reached ACTIVE in time. -/
structure TrainData where
  gen : Nat := 3
  laneFail : Nat := 0
  nodeId : Nat := 0
  credits : List Nat := [64, 64, 64, 64]
  active : Bool := true
  deriving DecidableEq, Repr

/-- The cause of a tile fault (R308 class TILE). -/
inductive TileCause where
  | pll | rail | statusTree
  deriving DecidableEq, Repr

/-- A frame of the Tally (R419): FSEQ, payload and whether its CRC holds. -/
structure TallyFrame where
  fseq : Nat := 0
  payload : List Byte := []
  crcOk : Bool := true
  deriving DecidableEq, Repr

/-- The commands: one constructor for each row of the table. -/
inductive Instr where
  -- the tick (chapter 2)
  | tickBoundary (p skew : Nat)
  | tickFinality (p : Nat)
  | replayBoundary (p : Nat) (ue : Bool)
  | commitPhase (p : Nat) (logits : List (Nat × List F32)) (lost : List Nat)
  | bodyEnd (p : Nat)
  | period (p v : Nat)
  | stretchCeil (p v : Nat)
  | stretchCeilRaiseApply (p : Nat)
  | tickLo (p : Nat)
  -- the sequencer and the units (chapters 3 to 6)
  | retireWithoutEffect (g : Nat)
  | commandRetire (g : Nat)
  | slabReadPortStart (g : Nat)
  | apassTree (g : Nat) (u : Upset)
  | apassSkew (g : Nat) (u : Upset)
  | accDrain (g : Nat) (u : Upset)
  | accBase (g : Nat)
  | edgeCfg (g : Nat)
  | attQload (g : Nat) (u : Upset)
  | attStream (g : Nat) (u : Upset)
  | attFinish (g : Nat)
  | wuAdd (g : Nat) (f : WuFmt) (u : Upset)
  | wuMul (g : Nat) (f : WuFmt) (u : Upset)
  | wuFma (g : Nat) (f : WuFmt) (u : Upset)
  | wuMax (g : Nat) (f : WuFmt) (u : Upset)
  | wuExp (g : Nat) (f : WuFmt) (u : Upset)
  | wuRsqrt (g : Nat) (f : WuFmt) (u : Upset)
  | wuRecip (g : Nat) (f : WuFmt) (u : Upset)
  | wuSilu (g : Nat) (f : WuFmt) (u : Upset)
  | wuRope (g : Nat) (f : WuFmt) (half : Bool) (u : Upset)
  | wuReduce (g : Nat) (f : WuFmt) (u : Upset)
  | wuCvt (g : Nat) (u : Upset)
  | wuSpdelta (g xlen : Nat) (u : Upset)
  | wuCopy (g : Nat) (u : Upset)
  | send (g : Nat) (u : Upset)
  | sendMc (g : Nat) (u : Upset)
  | sendRed (g : Nat) (u : Upset)
  | sendSpine (g : Nat) (u : Upset)
  | winOpen (g : Nat)
  | winClose (g : Nat)
  | winWait (g : Nat)
  | semSignal (g : Nat)
  | semWait (g : Nat)
  | kvSetup (g : Nat)
  | kvMapload (g : Nat) (u : Upset)
  | kvSpec (g : Nat)
  | commit (g : Nat)
  | commitKv (g : Nat)
  | fence (g : Nat)
  | nop (g : Nat)
  | mark (g : Nat)
  | halt (g : Nat)
  -- the mesh (chapters 6 and 7)
  | slotInjection (g : Nat)
  | xorDeltaApply (y : Nat)
  | flitArrival (g port : Nat) (crcBad : Bool)
  | displacedForward (g : Nat)
  | displacedTimeout (g : Nat)
  | reductionResult (g rctx : Nat)
  | reductionIncomplete (g rctx : Nat)
  | write (g : Nat)
  | addInt32 (g : Nat)
  | xor (g : Nat)
  | addFp32 (g : Nat)
  | maxFp32 (g : Nat)
  | lseMerge (g : Nat)
  | signal (g : Nat)
  | append (g : Nat)
  | bulk (g : Nat)
  | memReq (m : Nat) (crcBad : Bool)
  | memData (m : Nat) (crcBad : Bool) (u : StackUpset)
  | earlyFlitRelease (g : Nat)
  | bulkRetry (p tid : Nat)
  | saddleChannelFail (t e ch : Nat) (lock : Bool)
  | saddleSpareSwap (t e : Nat)
  -- the sites (chapter 8)
  | scheduleReadStart (m ch : Nat) (u : StackUpset)
  | scheduleRelease (m ch : Nat)
  | memChannelFail (m ch : Nat) (lock : Bool)
  | stackRefresh (m ch : Nat)
  | regCmdWrite (m : Nat)
  | regCmdInvalidate (m : Nat)
  | zeroFillDone (m : Nat)
  | setKind (m v : Nat)
  | exportDescriptor (t : Nat) (d : ExportDesc)
  | stageIn (m : Nat) (cmd : PmCmd) (bytes : List Byte) (u : StackUpset)
  | stageOut (m : Nat) (cmd : PmCmd) (u : StackUpset)
  | load (m : Nat) (cmd : PmCmd) (u : StackUpset)
  | importRange (m : Nat) (cmd : PmCmd) (u : StackUpset)
  | copy (m : Nat) (cmd : PmCmd) (u : StackUpset)
  | zero (m : Nat) (cmd : PmCmd) (u : StackUpset)
  | pageMoverDone (m : Nat) (u : StackUpset)
  | stackTempReading (m : Nat) (temp : Int)
  | deepPageMove (m g page tid region offset record : Nat)
  | deepPageLive (m g entry record : Nat)
  -- images (chapter 9)
  | loadImage (p : Nat) (d : LoadData)
  | loadEnd (p : Nat)
  | migrationRound (p : Nat)
  | repairCut (p : Nat)
  | spareClear (y : Nat)
  -- requests (chapters 10 and 11)
  | cmdPi (p v : Nat)
  | cplCi (p v : Nat)
  | arm (p : Nat)
  | intAddr (p v : Nat)
  | commandFetch (p : Nat) (entry : List Byte)
  | submit (p : Nat) (d : ReqData)
  | pause (p : Nat)
  | resume (p : Nat) (d : ReqData)
  | cancel (p : Nat)
  | release (p : Nat)
  | keyLoad (p : Nat) (record : List Byte)
  | keyClear (p : Nat)
  | attest (p : Nat)
  | heldCompletionWrite (p : Nat)
  | elasticScan (p : Nat) (spill : List Byte)
  | lanePrime (p lane : Nat)
  | outputRecordWrite (p : Nat)
  | kvExportDone (p h : Nat)
  | ttlExpire (p h : Nat)
  | slackSweep (p : Nat)
  | pairEn (p v : Nat)
  | draft (p : Nat)
  | spur (p : Nat)
  | ventCmdBind (p : Nat)
  | ventCmdUnbind (p : Nat)
  -- faults (chapter 12)
  | aliveLoss (g : Nat)
  | phaseLoss (stack phase : Nat) (excursion : Bool)
  | heartbeat (c : Nat)
  | heartbeatTimeout (c : Nat)
  | faultCompletion (p : Nat)
  -- power and heat (chapter 13)
  | powerOn (clk : Bool) (fails : List RailBlock)
  | clkRetry (clk : Bool) (fails : List RailBlock)
  | vinSample (vin current : Nat)
  | powerDown
  | computeSwitchClose (t : Nat) (ok : Bool)
  | shutdown
  | thermalUpdate (tIn : Int)
  | diodeReading (t : Nat)
  | baseCapture (t : Nat)
  | captureEnd (t : Nat)
  | phOffline (v : Nat)
  | cartridgeSelfTest (stack phase : Nat)
  -- rail monitors (chapter 14)
  | conversionResult (pg : Page) (rawA rawB : Nat)
  | refSel (pg : Page) (v : Nat)
  | refRdy (pg : Page)
  | swStart (pg : Page)
  | calStart (pg : Page)
  | rmbTimer (pg : Page) (k : Nat)
  | snapshotStart (p : Nat)
  | epochEnd (t : Nat)
  -- the link (chapter 15)
  | portTrain (n : Nat) (d : TrainData)
  | trainingTimeout (n : Nat)
  | downRetry (n : Nat) (d : TrainData)
  | dataFlit (n fseq ack vc cr : Nat) (ackv good corr : Bool) (bytes : List Byte)
  | idleFlit (n ack vc cr : Nat) (ackv corr : Bool)
  | nak (n fseq ack vc cr : Nat) (ackv corr : Bool)
  | ackTimeout (n : Nat)
  | blockLockLoss (n : Nat)
  | retrain (n : Nat)
  | retrainTimeout (n : Nat) (active : Bool)
  | mmioWr (n tag addr v : Nat)
  | mmioRd (n tag addr : Nat)
  | snpInv (n addr : Nat)
  | cmp (n tag status : Nat)
  | data (n tag status : Nat) (bytes : List Byte)
  | intHoldoffExpire (p : Nat)
  -- trust, firmware, journal (chapter 16), bring-up (chapter 18)
  | bringup (d : BringupData)
  | firmwareObjectStage (bytes : List Byte)
  | activateFirmware (kind : Nat) (healthy : Bool)
  | roleSwap (p : Nat)
  | siteUpdateDrain (m : Nat)
  | svnCommit (c : Nat)
  | journalRecordDurable (ok : Bool)
  | compaction
  -- the Tally (chapter 17)
  | reading (f : TallyFrame)
  | signed (f : TallyFrame)
  | log (f : TallyFrame)
  | cert (f : TallyFrame)
  | status (f : TallyFrame)
  | reqSigned
  | reqLog
  | reqCert
  | intervalSign (mwhImp mwhRev : Nat)
  | tallyHoldupSave
  | sealOpen
  | sealClosed
  | fwChange (bytes : List Byte)
  | shareUpdate (pinMwh : Nat)
  -- resets, partitions and registers (chapters 18 and 19)
  | moduleReset
  | clockLoss
  | create (p : Nat)
  | destroy (p : Nat)
  | teardownDone (p : Nat)
  | en (pg : Page) (v : Bool)
  | partitionStartDone (p : Nat) (f : StartFindings)
  | drainDone (p : Nat)
  | softReset (pg : Page)
  | budget (t v : Nat)
  | arrayDefectPolicy (g v : Nat)
  | progBase (g v : Nat)
  | errInject (pg : Page) (v : Nat)
  | firstValid (pg : Page)
  | lock (pg : Page)
  | injLock (pg : Page)
  | htDataLo (p : Nat)
  | flogData0 (c : Nat)
  | seqLastLo
  | registerWrite (addr v : Nat)
  | tileFault (t : Nat) (cause : TileCause)
  | routerParityFailure (g : Nat)
  | siteControllerFailure (m : Nat)
  | mgtRstNRelease (clk : Bool) (fails : List RailBlock)
  | pwrFailRestart (clk : Bool) (fails : List RailBlock)
  | shutdownTimeout
  | tallyLinkTimeout
  | healthyStartTimeout (kind : Nat)
  | msfReady (m : Nat)
  | portConfigRecordWrite (bytes : List Byte)
  deriving DecidableEq, Repr

end Sys2Proof
end

