-- ==== Sys2Proof/Machine/Image.lean ====
section
/-! DEFINITION. A massif image as the loader understands it: header, section table and typed sections (R206, R207, R215, R217, R219, R229). -/

namespace Sys2Proof.Machine

/-- A region of the PIPE section's region map: A4 layer region or not, global layer or not, its cores (LCORE records make them physical, R219), and its lane-directory
bindings (core, layer, KV head, HEAD in the page, directory address, heads per page). -/
structure PipeRegion where
  a4 : Bool := false
  glob : Bool := false
  cores : List Nat := []
  binds : List (Nat × Nat × Nat × Nat × Nat × Nat) := []
  deriving DecidableEq, Repr, Inhabited

/-- The PIPE section (R207): region map, buckets as (compiled, μ, deep), vocabulary, model width, delta slots, delta span in 4 KiB units,
pages per 64 positions of a lane, ring sets and global pages, bytes of a lane's priming, the restore rates of R265, the first cycle that
consumes lane entries, the model's facts that R7 limits (head dimension, context, density of its variants in ten-thousandths), and the
region entries of the image as (physical site after its records, region, 128-bit word), and the summit-stage and sampler tables as bytes. -/
structure PipeInfo where
  regions : List PipeRegion := []
  buckets : List (Bool × Nat × Bool) := []
  vocab : Nat := 0
  width : Nat := 0
  deltaMask : Nat := 0
  deltaSpan : Nat := 0
  deltaSites : List Nat := []
  pagesPer64 : Nat := 0
  rings : Nat := 0
  gpages : Nat := 0
  primeBytes : Nat := 0
  bpt : Nat := 0
  bptT2 : Nat := 0
  entryCycle : Nat := 40
  headDim : Nat := 128
  context : Nat := 0
  density : Nat := 0
  ents : List (Nat × Nat × Nat) := []
  summit : List Byte := []
  sampler : List Byte := []
  deriving DecidableEq, Repr, Inhabited

/-- A symbol (R217): number, kind 1 COMP_ADDR, 2 KEY, 3 REGION, 4 CHANSET, ALIGN, SIZE, logical site, and whether its reserved bytes are 0. -/
structure Symbol where
  sym : Nat := 0
  kind : Nat := 0
  align : Nat := 0
  size : Nat := 0
  site : Nat := 0
  clean : Bool := true
  deriving DecidableEq, Repr

/-- A patch record (R219): kind, field width and bit offset, section, byte offset of the window, and whether its reserved byte is 0. -/
structure PatchRec where
  kind : Nat := 0
  width : Nat := 1
  shift : Nat := 0
  sect : Nat := 0
  off : Nat := 0
  clean : Bool := true
  deriving DecidableEq, Repr

/-- A section-table entry (R207) and the section's bytes in the file; WEIGHTS and STACKFED have none. -/
structure SectEnt where
  kind : Nat := 0
  flags : Nat := 0
  target : Nat := 0
  offset : Nat := 0
  length : Nat := 0
  dest : Nat := 0
  clean : Bool := true
  bytes : List Byte := []
  deriving DecidableEq, Repr

/-- The contents of a section (R207).  WEIGHTS and STACKFED give their first data unit and their bytes; SLOTS entries are (router, slot
word), ROUTES entries (router, port × 256 + label, route word) and bulk entries (logical tile, edge); POWER gives for each epoch the active
cycles of each class of R49; CHANSCHED entries are (channel, schedule word), deep entries (layer, KV head, shard, shards). -/
inductive Sect where
  | weights (core unit len dest : Nat)
  | program (core dest : Nat) (bytes : List Byte)
  | slots (tile : Nat) (ents : List (Nat × Nat))
  | routes (tile : Nat) (ents : List (Nat × Nat × Nat)) (bulk : List (Nat × Nat))
  | power (tile : Nat) (epochs : List (List Nat))
  | chansched (site : Nat) (ents : List (Nat × Nat)) (deep : List (Nat × Nat × Nat × Nat))
  | pipe (info : PipeInfo)
  | stackfed (site unit len sym : Nat)
  | reloc (ents : List (Nat × List Nat))
  | symbols (syms : List Symbol)
  | patch (recs : List PatchRec)
  | migrate (ents : List (Nat × Nat × Nat × Nat × Nat))
  | unknown (kind : Nat)
  deriving DecidableEq, Repr

/-- A massif image (R206): the fields of its header, whether the header's format holds, its section table, and the blob. -/
structure Image where
  headOk : Bool := false
  id : Nat := 0
  baseId : Nat := 0
  repair : Bool := false
  stackfed : Bool := false
  grade : Nat := 72
  w : Nat := 1
  period : Nat := 0
  nregions : Nat := 0
  lw : Nat := 9
  lh : Nat := 8
  kvLayout : Nat := 0
  sectOff : Nat := 0
  nsect : Nat := 0
  blobOff : Nat := 0
  blobLen : Nat := 0
  faultGen : Nat := 0
  present : List Nat := []
  compute : List Nat := []
  sites : List Nat := []
  ifgen : List (Nat × Nat) := []
  ents : List SectEnt := []
  blob : List Byte := []
  deriving DecidableEq, Repr

end Sys2Proof.Machine
end

