-- ==== Sys2Proof/Config.lean ====
section
/-! DEFINITION. What one implementation fixes and the manual leaves open: opaque constants without a body, so
that no proof can see a value of one.  Each is named in the assumption log. -/

namespace Sys2Proof.Config

/-- FREE VALUE (log 5): which of the FP32 values within 2 ulp the exponential (0), reciprocal root (1), reciprocal (2)
or SiLU (3) of an operand takes; a fixed function of the input (R71).  The summit stage's quotient (4) and logarithm (5) are taken to be as
accurate (log 24). -/
opaque ulpPick : Nat → BitVec 32 → Nat

/-- FREE VALUE (log 6): the rank that orders the terms of a sum the manual only calls fixed: the score of R114 (0),
the tile fold of R114 (1), the sparse product of R285 (2), the merges over the vocabulary of R255 (3). -/
opaque sumRank : Nat → Nat → Nat

/-- FREE VALUE (log 10): the source and the target format that the bits [3:0] of a WU_CVT word name (R78). -/
opaque cvtFormats : Nat → CvtFmt × CvtFmt

/-- FREE VALUE (log 6): whether the attention engine fuses a multiply with the add that follows it (R114). -/
opaque attFused : Bool

/-- FREE VALUE (log 6): whether the attention engine flushes subnormal values (R94 speaks of the wide unit only). -/
opaque attFlush : Bool

/-- FREE VALUE (log 6): whether the sparse product fuses a multiply with the add that follows it (R285). -/
opaque spFused : Bool

/-- FREE VALUE (log 6): whether the rotary embedding fuses a multiply with the add that follows it (R78). -/
opaque ropeFused : Bool

/-- FREE VALUE (log 9): the last element of a rotary embedding of an odd number of elements, which has no partner (R71, R78), by the
operands A and B. -/
opaque ropeOdd : List (BitVec 32) → List (BitVec 32) → BitVec 32

/-- FREE VALUE (log 7): the plaintext that a key gives a ciphertext data unit: key, tweak, unit bytes as a number.
AES-256-XTS itself is a published function that the manual names and does not restate (R189). -/
opaque xtsDecrypt : Nat → Nat → Nat → Nat

/-- FREE VALUE (log 8): SHA-256 of a byte string given as a number with its length (R387, R208). -/
opaque sha256 : Nat → Nat → Nat

/-- FREE VALUE (log 8): whether an LMS signature over an object verifies (R388): the signed bytes, public key, signature. -/
opaque lmsVerify : Nat → Nat → Nat → Bool

/-- FREE VALUE (log 8): the HSS signature of a report (R396, R399) or a Tally frame (R422): seed, index q, message. -/
opaque hssSign : Nat → Nat → Nat → Nat

/-- FREE VALUE (log 8): the ML-KEM-1024 encapsulation key of an SSB for one boot (R400): SSB, boot count. -/
opaque kemPublic : Nat → Nat → Nat

/-- FREE VALUE (log 8): the shared secret that an SSB's decapsulation key of one boot gives a ciphertext (R400, R401): SSB, boot, ciphertext. -/
opaque kemDecap : Nat → Nat → Nat → Nat

/-- FREE VALUE (log 8): HKDF-SHA-256 (R401): salt, input key, info. -/
opaque hkdf : Nat → Nat → Nat → Nat

/-- FREE VALUE (log 8): the key that AES-256 key unwrap gives (R401): wrapping key, wrapped key; none when the integrity check of RFC 3394 fails. -/
opaque keyUnwrap : Nat → Nat → Option Nat

/-- FREE VALUE (log 14): the contents of a stack byte that nothing has written (R182 gives none): site, channel, offset. -/
opaque stackGarbage : Nat → Nat → Nat → BitVec 8

/-- FREE VALUE (log 59): what a byte of a local store reads once the store has been lost in a replay or a spare swap (R60): the number
of the loss and the address. -/
opaque lostByte : Nat → Nat → BitVec 8

/-- FREE VALUE (log 60): the slot descriptor of an EMPTY slot, which has no meaning (R113): the number of the hold mask, region and
slot. -/
opaque emptySlot : Nat → Nat → Nat → Nat

/-- FREE VALUE (log 61): which of the checker's codes 0x01 to 0x0B an image is refused with for which a rule gives no code: beyond a limit
of R7 (0), another weight format (1, R80), an OUT set that differs from OUT_MASK (2, R157), an opcode that does not match its route (3,
R159), a channel schedule that is too long or not sorted (4, R194). -/
opaque checkCode : Nat → Nat

/-- FREE VALUE (log 8): how a measurement is extended by a digest (R208). -/
opaque extend : Nat → Nat → Nat

/-- FREE VALUE (log 79): the slot entries in the bytes of a SLOTS section, as (router, slot word) (R156, R207). -/
opaque slotTable : List Byte → List (Nat × Nat)
/-- FREE VALUE (log 79): the route entries in the bytes of a ROUTES section, as (router, port × 256 + label, route word) (R155, R207). -/
opaque routeTable : List Byte → List (Nat × Nat × Nat)
/-- FREE VALUE (log 79): the bulk direction entries in the bytes of a ROUTES section, as (logical tile, edge) (R173, R207). -/
opaque bulkTable : List Byte → List (Nat × Nat)
/-- FREE VALUE (log 79): the active cycles of each class of R49, by epoch, in the bytes of a POWER section (R207). -/
opaque powerTable : List Byte → List (List Nat)
/-- FREE VALUE (log 79): the channel schedules in the bytes of a CHANSCHED section, as (channel, schedule word) (R194, R207). -/
opaque chanTable : List Byte → List (Nat × Nat)
/-- FREE VALUE (log 79): the deep directory in the bytes of a CHANSCHED section, as (layer, KV head, shard, shards) (R197, R207). -/
opaque deepTable : List Byte → List (Nat × Nat × Nat × Nat)
/-- FREE VALUE (log 79): what the bytes of a PIPE section hold (R207). -/
opaque pipeTable : List Byte → Machine.PipeInfo

/-- FREE VALUE (log 22): PHASE on the first pass over a completion ring; R236 says only that it flips at each wrap. -/
opaque firstPhase : Bool

/-- FREE VALUE (log 23): where the control tile places a lane's pages, which R112 leaves to it: partition, core, directory, lane
and local page give the slab address, in 64-byte units. -/
opaque pageAddr : Nat → Nat → Nat → Nat → Nat → Nat

/-- FREE VALUE (log 23): the member of a KV group that owns a lane's ring (R108): layer, head and lane. -/
opaque ringOwner : Nat → Nat → Nat → Nat

/-- FREE VALUE (log 8): the payload of a Tally's CERT frame (R420), by its serial number. -/
opaque tallyCert : Nat → Nat

/-- FREE VALUE (log 73): the clock cycles that the test LED (false) and the pulse output (true) stay off between two pulses. -/
opaque pulseGap : Bool → Nat

/-- FREE VALUE (log 73): how the Tally's display rounds E_IMP in mWh to whole Wh: true shows the next Wh. -/
opaque displayUp : Nat → Bool

/-- FREE VALUE (log 73): the clock cycle from which the Tally's display counts its turns of 5 s. -/
opaque displayStart : Nat

/-- FREE VALUE (log 52): how many records the Tally's journal keeps before it overwrites the oldest (R425). -/
opaque tallyRing : Nat

/-- FREE VALUE (log 9): the value number `n` of the run where the manual states none; `n` is State.fresh. -/
opaque freeValue : Nat → BitVec 32

end Sys2Proof.Config
end

