-- ==== Sys2Proof/Machine/ImageFile.lean ====
section
/-! DEFINITION. The file of a massif image: its header, its section table and its sections, decoded from bytes (R206, R207, R215, R217,
R219, R229), and the load descriptor and binding block (R218, R221). -/

namespace Sys2Proof.Machine

/-- CRC-32 of IEEE 802.3 over one more byte, bit by bit. -/
def crcByte (c : Nat) (b : Byte) : Nat :=
  (List.range 8).foldl (fun c _ => if c % 2 = 1 then Nat.xor (c / 2) 0xEDB88320 else c / 2) (Nat.xor c b.toNat)

/-- CRC-32 of IEEE 802.3. -/
def crc32 (l : List Byte) : Nat := Nat.xor (l.foldl crcByte 0xFFFFFFFF) 0xFFFFFFFF

/-- The little-endian number in `n` bytes from offset `o`. -/
def field (bs : List Byte) (o n : Nat) : Nat := leNat ((bs.drop o).take n)

/-- Cuts bytes into pieces of `n`; a shorter rest is left out. -/
def chunksOf (n : Nat) (bs : List Byte) : List (List Byte) := (List.range (bs.length / n)).map (fun i => (bs.drop (n * i)).take n)

/-- The set bits of a mask of `n` bits. -/
def bitsSet (v n : Nat) : List Nat := (List.range n).filter (bit v)

/-! ### Header and section table (R206, R207) -/

/-- The bytes of the header that no row of R206 lists, and its last reserved ones, as (offset, length). -/
def headerGaps : List (Nat × Nat) := [(6, 2), (34, 2), (81, 3), (93, 3), (98, 30), (160, 92)]

/-- The header's format holds (R206): MAGIC, FORMAT, HDR_CRC, the reserved bytes, KIND, PLACEMENT and the grid's range, COMPUTE within
PRESENT, and a blob of whole data units. -/
def headerOk (bs : List Byte) : Bool :=
  256 ≤ bs.length && field bs 0 4 = 0x494D584B && field bs 4 2 = 1 && field bs 252 4 = crc32 (bs.take 252) &&
    headerGaps.all (fun g => field bs g.1 g.2 = 0) && field bs 24 1 ≤ 1 && field bs 25 1 ≤ 1 &&
    1 ≤ field bs 32 1 && field bs 32 1 ≤ 9 && 1 ≤ field bs 33 1 && field bs 33 1 ≤ 8 &&
    Nat.land (field bs 84 9) (field bs 72 9) = field bs 84 9 && field bs 60 8 % 4096 = 0

/-- WEIGHTS and STACKFED sections lie in the blob (R207). -/
def blobKind (k : Nat) : Bool := k = 1 || k = 8

/-- The section-table entry at offset `o` (R207). -/
def sectEntOf (bs : List Byte) (o : Nat) : SectEnt :=
  let k := field bs o 2
  let off := field bs (o + 8) 8
  let len := field bs (o + 16) 8
  { kind := k, flags := field bs (o + 2) 1, target := field bs (o + 4) 4, offset := off, length := len, dest := field bs (o + 24) 4
    clean := field bs (o + 3) 1 = 0 && field bs (o + 28) 4 = 0, bytes := if blobKind k then [] else (bs.drop off).take len }

/-- The pairs of IFGEN, up to the first code 0. -/
def ifgenOf : List (List Byte) → List (Nat × Nat)
  | [] => []
  | x :: t => if field x 0 1 = 0 then [] else (field x 0 1, field x 1 1) :: ifgenOf t

/-- The image in a file (R206, R207). -/
def imageOf (bs : List Byte) : Image :=
  let so := field bs 44 8
  let n := field bs 40 4
  let bo := field bs 52 8
  let bl := field bs 60 8
  { headOk := headerOk bs, id := field bs 8 8, baseId := field bs 16 8, repair := field bs 24 1 = 1, stackfed := field bs 25 1 = 1
    grade := field bs 26 1, w := field bs 27 1, period := field bs 28 2, nregions := field bs 30 2, lw := field bs 32 1
    lh := field bs 33 1, kvLayout := field bs 36 4, sectOff := so, nsect := n, blobOff := bo, blobLen := bl
    faultGen := field bs 68 4, present := bitsSet (field bs 72 9) 72, compute := bitsSet (field bs 84 9) 72
    sites := bitsSet (field bs 96 2) 16, ifgen := ifgenOf (chunksOf 2 ((bs.drop 128).take 32))
    ents := if so + 32 * n ≤ bs.length then (List.range n).map (fun i => sectEntOf bs (so + 32 * i)) else []
    blob := (bs.drop bo).take bl }

/-- The file ranges of an image: header, section table, sections and blob. -/
def Image.ranges (im : Image) : List (Nat × Nat) :=
  (0, 256) :: (im.sectOff, 32 * im.nsect) :: (im.blobOff, im.blobLen) ::
    im.ents.filterMap (fun e => if blobKind e.kind then none else some (e.offset, e.length))

/-- The ranges within the blob that the sections of the blob take. -/
def Image.blobRanges (im : Image) : List (Nat × Nat) :=
  im.ents.filterMap (fun e => if blobKind e.kind then some (4096 * e.offset, e.length) else none)

/-- Two file ranges share no byte. -/
def apartIn (a b : Nat × Nat) : Bool := a.2 = 0 || b.2 = 0 || a.1 + a.2 ≤ b.1 || b.1 + b.2 ≤ a.1

/-- No two ranges of a list share a byte. -/
def allApart (l : List (Nat × Nat)) : Bool :=
  (List.range l.length).all (fun i => (List.range i).all (fun j => apartIn (l.getD i (0, 0)) (l.getD j (0, 0))))

/-- The section bounds of R207 hold in a file of `n` bytes: no range overlaps another, every section lies in the file, the blob too where the
load reads it from there, and the sections of the blob lie within it and apart.  `blob` says whether the blob is read from the file. -/
def Image.boundsOk (im : Image) (n : Nat) (blob : Bool) : Bool :=
  im.ents.length = im.nsect && allApart im.ranges && allApart im.blobRanges &&
    im.ents.all (fun e => if blobKind e.kind then 4096 * e.offset + e.length ≤ im.blobLen else e.offset + e.length ≤ n) &&
    (!blob || im.blobOff + im.blobLen ≤ n)

/-! ### Sections (R215, R217, R219, R229) -/

/-- A requirement entry (R215): logical core and the requirement of each array. -/
def relocOf (b : List Byte) : Nat × List Nat :=
  let v := leNat b
  (bits v 0 15, (List.range 4).map (fun a => bits v (15 + 2 * a) 2))

/-- A symbol entry (R217). -/
def symbolOf (b : List Byte) : Symbol :=
  { sym := field b 0 2, kind := field b 2 1, align := field b 3 1, size := field b 4 8, site := field b 12 1, clean := field b 13 3 = 0 }

/-- A patch record (R219). -/
def patchOf (b : List Byte) : PatchRec :=
  { kind := field b 0 1, width := field b 1 1, shift := field b 2 1, sect := field b 4 4, off := field b 8 8, clean := field b 3 1 = 0 }

/-- A migration entry (R229): source, destination, source offset, length and destination offset. -/
def migrateOf (b : List Byte) : Nat × Nat × Nat × Nat × Nat := (field b 0 2, field b 2 2, field b 4 4, field b 8 4, field b 12 4)

/-- The bytes of one element of a section; 1 where the manual gives no element. -/
def sectStep : Nat → Nat
  | 9 => 4 | 10 => 16 | 11 => 16 | 12 => 16 | _ => 1

/-- The contents of a section whose bytes are `bs`.  The manual gives no layout for SLOTS, ROUTES, POWER, CHANSCHED and PIPE beyond that of
their entries: these five decoders are uninterpreted (log 79). -/
def SectEnt.sect (e : SectEnt) (bs : List Byte) : Sect :=
  match e.kind with
  | 1 => .weights e.target e.offset e.length e.dest
  | 2 => .program e.target e.dest bs
  | 3 => .slots e.target (Config.slotTable bs)
  | 4 => .routes e.target (Config.routeTable bs) (Config.bulkTable bs)
  | 5 => .power e.target (Config.powerTable bs)
  | 6 => .chansched e.target (Config.chanTable bs) (Config.deepTable bs)
  | 7 => .pipe (Config.pipeTable bs)
  | 8 => .stackfed e.target e.offset e.length e.dest
  | 9 => .reloc ((chunksOf 4 bs).map relocOf)
  | 10 => .symbols ((chunksOf 16 bs).map symbolOf)
  | 11 => .patch ((chunksOf 16 bs).map patchOf)
  | 12 => .migrate ((chunksOf 16 bs).map migrateOf)
  | k => .unknown k

/-- The kinds of section that an image may hold (R207, R227): MIGRATE only in a repair, and in a repair only what R227 lists. -/
def kindAllowed (repair : Bool) (k : Nat) : Bool :=
  if repair then [2, 3, 4, 5, 9, 11, 12].contains k else 1 ≤ k && k ≤ 11

/-- A section entry and what it holds keep R207, R208, R215 and R217: a known kind, MEASURED where it must be, the reserved bits 0, whole
elements, and data units that R209 names. -/
def SectEnt.ok (repair : Bool) (e : SectEnt) : Bool :=
  kindAllowed repair e.kind && e.clean && e.flags < 2 && (blobKind e.kind || e.flags = 1) && e.bytes.length % sectStep e.kind = 0 &&
    (match e.sect e.bytes with
     | .reloc l => (chunksOf 4 e.bytes).all (fun b => bits (leNat b) 23 9 = 0) && l.all (fun x => x.2.all (· < 3))
     | .symbols l => l.all (fun y => y.clean && 1 ≤ y.kind && y.kind ≤ 4)
     | .patch l => l.all (fun r => r.clean && 1 ≤ r.kind && r.kind ≤ 6)
     | _ => true)

/-- The requirement entries of an image (R215). -/
def Image.reloc (im : Image) : List (Nat × List Nat) :=
  im.ents.flatMap (fun e => match e.sect e.bytes with | .reloc l => l | _ => [])

/-- The symbols of an image (R217). -/
def Image.symbols (im : Image) : List Symbol :=
  im.ents.flatMap (fun e => match e.sect e.bytes with | .symbols l => l | _ => [])

/-- The patch records of an image, in section order (R219, R220). -/
def Image.patches (im : Image) : List PatchRec :=
  im.ents.flatMap (fun e => match e.sect e.bytes with | .patch l => l | _ => [])

/-- The migration entries of an image (R229). -/
def Image.migrate (im : Image) : List (Nat × Nat × Nat × Nat × Nat) :=
  im.ents.flatMap (fun e => match e.sect e.bytes with | .migrate l => l | _ => [])

/-- The PIPE section among decoded sections. -/
def pipeOf (l : List Sect) : PipeInfo := (l.findSome? (fun x => match x with | .pipe i => some i | _ => none)).getD {}

/-! ### Windows of patch records (R220) -/

/-- The window of a record, as a number; none where it runs past its section, or the field past the window. -/
def patchWindow (bs : List Byte) (r : PatchRec) : Option Nat :=
  if r.width = 0 ∨ 64 < r.width ∨ 64 < r.shift + r.width ∨ bs.length < r.off + 8 then none else some (field bs r.off 8)

/-- Replaces `n` bits of `w` from bit `lo` by `v`. -/
def putBits (w lo n v : Nat) : Nat := w - bits w lo n * 2 ^ lo + v % 2 ^ n * 2 ^ lo

/-- Writes a value into the field that a record names. -/
def patchPut (bs : List Byte) (r : PatchRec) (v : Nat) : List Byte :=
  bs.take r.off ++ leBytes 8 (putBits (field bs r.off 8) r.shift r.width v) ++ bs.drop (r.off + 8)

/-- Two records touch one bit. -/
def patchClash (a b : PatchRec) : Bool :=
  a.sect = b.sect && 8 * a.off + a.shift < 8 * b.off + b.shift + b.width && 8 * b.off + b.shift < 8 * a.off + a.shift + a.width

/-- Every record names a field within its section, and no two touch one bit (R220). -/
def windowsOk (im : Image) : Bool :=
  let l := im.patches
  l.all (fun r => match im.ents[r.sect]? with
    | some e => (patchWindow e.bytes r).isSome
    | none => false) &&
  (List.range l.length).all (fun i => (List.range i).all (fun j => !patchClash (l.getD i {}) (l.getD j {})))

/-! ### Measurement (R208) -/

/-- The measurement extended over the measured sections, in table order, after their patches. -/
def measureFrom (start : Nat) (im : Image) (l : List (List Byte)) : Nat :=
  (im.ents.zip l).foldl (fun m e => if blobKind e.1.kind || !bit e.1.flags 0 then m
    else Config.extend m (Config.sha256 (leNat e.2) e.2.length)) start

end Sys2Proof.Machine
end

