-- ==== Sys2Proof/Machine/Numerics.lean ====
section
/-! DEFINITION. Narrow formats, exact accumulation, FP32 arithmetic and the random draws (R71, R80 to R94, R105,
R106, R119, R490). -/

namespace Sys2Proof.Machine

/-! ### Exact values and their packing -/

/-- A floating value: NaN, an infinity, or ± mag × 2^e with the sign kept on zero. -/
inductive FV where
  | nan
  | inf (neg : Bool)
  | fin (neg : Bool) (mag : Nat) (e : Int)
  deriving DecidableEq, Repr

/-- `mag` shifted right by `sh`, to nearest with ties to even. -/
def rneShift (mag sh : Nat) : Nat :=
  let q := mag / 2 ^ sh
  let r := 2 * (mag % 2 ^ sh)
  if 2 ^ sh < r ∨ (r = 2 ^ sh ∧ q % 2 = 1) then q + 1 else q

/-- The magnitude code of mag × 2^e in a format with `fb` fraction bits and smallest quantum 2^qmin: exponent above
fraction, to nearest with ties to even, subnormal codes kept, no upper bound. -/
def packMag (fb : Nat) (qmin : Int) (mag : Nat) (e : Int) : Nat :=
  if mag = 0 then 0 else
  let q := max ((Nat.log2 mag : Int) + e - fb) qmin
  let m := if e ≥ q then mag * 2 ^ (e - q).toNat else rneShift mag (q - e).toNat
  if m < 2 ^ fb then m else (q - qmin).toNat * 2 ^ fb + m

/-- The value of a magnitude code. -/
def unpackMag (fb : Nat) (qmin : Int) (code : Nat) : Nat × Int :=
  let ex := code / 2 ^ fb
  if ex = 0 then (code, qmin) else (2 ^ fb + code % 2 ^ fb, qmin + (ex : Int) - 1)

/-- The value of an FP32 pattern. -/
def f32Val (x : F32) : FV :=
  let n := x.toNat
  let neg := bit n 31
  let c := n % 2 ^ 31
  if c > 0x7F800000 then .nan else if c = 0x7F800000 then .inf neg else
  let (m, e) := unpackMag 23 (-149) c
  .fin neg m e

/-- The quiet NaN of R94. -/
def qnan : F32 := 0x7FC00000

/-- An FP32 pattern from a sign and a magnitude code. -/
def mkF32 (neg : Bool) (code : Nat) : F32 := BitVec.ofNat 32 (b2n neg * 2 ^ 31 + code)

/-- A value as FP32, to nearest with ties to even; a magnitude beyond the largest finite value becomes infinite. -/
def toF32 : FV → F32
  | .nan => qnan
  | .inf neg => mkF32 neg 0x7F800000
  | .fin neg m e => mkF32 neg (min (packMag 23 (-149) m e) 0x7F800000)

/-- A subnormal pattern becomes zero with its sign (R94). -/
def ftz (x : F32) : F32 := if x.toNat % 2 ^ 31 < 2 ^ 23 then mkF32 (bit x.toNat 31) 0 else x

/-- A value as the wide unit passes it on: flushed, and a NaN as 0x7FC0_0000 (R94). -/
def quiet (x : F32) : F32 := if x.toNat % 2 ^ 31 > 0x7F800000 then 0x7FC00000 else ftz x

/-- The FP32 value of a BF16 pattern, exact (R71). -/
def bfToF32 (x : B16) : F32 := BitVec.ofNat 32 (x.toNat * 2 ^ 16)

/-- A value as BF16, to nearest with ties to even. -/
def toB16 : FV → B16
  | .nan => 0x7FC0
  | .inf neg => BitVec.ofNat 16 (b2n neg * 2 ^ 15 + 0x7F80)
  | .fin neg m e => BitVec.ofNat 16 (b2n neg * 2 ^ 15 + min (packMag 7 (-133) m e) 0x7F80)

/-- The signed integer of a finite value at exponent `e0`, which is at most its own. -/
def atExp (neg : Bool) (m : Nat) (e e0 : Int) : Int :=
  let v : Int := (m * 2 ^ (e - e0).toNat : Nat)
  if neg then -v else v

/-- The exact sum. -/
def FV.add : FV → FV → FV
  | .nan, _ => .nan
  | _, .nan => .nan
  | .inf a, .inf b => if a = b then .inf a else .nan
  | .inf a, _ => .inf a
  | _, .inf b => .inf b
  | .fin na ma ea, .fin nb mb eb =>
    let e := min ea eb
    let s := atExp na ma ea e + atExp nb mb eb e
    if s = 0 then .fin (na && nb) 0 e else .fin (s < 0) s.natAbs e

/-- The exact product. -/
def FV.mul : FV → FV → FV
  | .nan, _ => .nan
  | _, .nan => .nan
  | .inf a, .inf b => .inf (a != b)
  | .inf a, .fin nb mb _ => if mb = 0 then .nan else .inf (a != nb)
  | .fin na ma _, .inf b => if ma = 0 then .nan else .inf (na != b)
  | .fin na ma ea, .fin nb mb eb => .fin (na != nb) (ma * mb) (ea + eb)

/-- The value negated. -/
def FV.neg : FV → FV
  | .nan => .nan
  | .inf a => .inf (!a)
  | .fin n m e => .fin (!n) m e

/-- Strictly less, for values that are not NaN, with −0 below +0 (R94, R142). -/
def FV.lt : FV → FV → Bool
  | .inf a, .inf b => a && !b
  | .inf a, _ => a
  | _, .inf b => !b
  | .fin na ma ea, .fin nb mb eb =>
    let e := min ea eb
    let x := atExp na ma ea e
    let y := atExp nb mb eb e
    x < y || (x = y && ma = 0 && na && !nb)
  | _, _ => false

/-! ### The wide unit (R71, R94) -/

/-- FP32 addition of the wide unit: subnormal operands and results flush to zero. -/
def fadd (a b : F32) : F32 := ftz (toF32 (FV.add (f32Val (ftz a)) (f32Val (ftz b))))

/-- FP32 subtraction under the same rules. -/
def fsub (a b : F32) : F32 := fadd a (BitVec.ofNat 32 ((b.toNat + 2 ^ 31) % 2 ^ 32))

/-- FP32 multiplication of the wide unit. -/
def fmul (a b : F32) : F32 := ftz (toF32 (FV.mul (f32Val (ftz a)) (f32Val (ftz b))))

/-- Fused a × b + d of the wide unit, rounded once. -/
def ffma (a b d : F32) : F32 :=
  ftz (toF32 (FV.add (FV.mul (f32Val (ftz a)) (f32Val (ftz b))) (f32Val (ftz d))))

/-- The larger value; +0 above −0; NaN where either is NaN (R94, R142). -/
def fmax (a b : F32) : F32 :=
  match f32Val (ftz a), f32Val (ftz b) with
  | .nan, _ => qnan
  | _, .nan => qnan
  | x, y => if FV.lt x y then ftz b else ftz a

/-- The maximum of MAX_FP32 and of a merge, which R142 and R119 give without the flushing of R94. -/
def fmaxRaw (a b : F32) : F32 :=
  match f32Val a, f32Val b with
  | .nan, _ => qnan
  | _, .nan => qnan
  | x, y => if FV.lt x y then b else a

/-- The FP32 value within 2 ulp of mag × 2^e that the implementation takes for operand `x` of function `op` (R71). -/
def near2 (op : Nat) (x : F32) (neg : Bool) (mag : Nat) (e : Int) : F32 :=
  if mag = 0 then mkF32 neg 0 else
  let q := max ((Nat.log2 mag : Int) + e - 23) (-149)
  let sh := (q - e).toNat
  let up := (e - q).toNat
  let lo := cdiv (mag * 2 ^ up) (2 ^ sh) - 2
  let hi := mag * 2 ^ up / 2 ^ sh + 2
  let n := lo + Config.ulpPick op x % (hi - lo + 1)
  ftz (toF32 (.fin neg n q))

/-- Fraction bits of the fixed-point exponential. -/
def expFrac : Nat := 160

/-- ln 2 × 2^160, truncated. -/
def ln2Fix : Nat := 1013035739299659071135698605846798551586536899366

/-- The Taylor sum of e^r in 160-bit fixed point, r below ln 2. -/
def expSeries (r : Nat) : Nat → Nat → Nat → Nat
  | 0, _, _ => 0
  | fuel + 1, n, term => term + expSeries r fuel (n + 1) (term * r / 2 ^ expFrac / (n + 1))

/-- e^x for x = ± mag × 2^e, as mag' × 2^e'; none where x lies beyond ±300, far outside FP32. -/
def expFix (neg : Bool) (mag : Nat) (e : Int) : Option (Nat × Int) :=
  let x : Nat := if e ≥ -(expFrac : Int) then mag * 2 ^ (e + expFrac).toNat else mag / 2 ^ (-(e + expFrac)).toNat
  if x > 300 * 2 ^ expFrac then none else
  let xs : Int := if neg then -(x : Int) else x
  let k := Int.fdiv xs ln2Fix
  let r := (xs - k * ln2Fix).toNat
  some (expSeries r 48 0 (2 ^ expFrac), k - expFrac)

/-- The exponential, accurate to 2 ulp (R71); e^(−∞) is 0 (R114), and e^0 is 1: a merge with an empty triple changes nothing (R119; log 54). -/
def fexp (x : F32) : F32 :=
  match f32Val (ftz x) with
  | .nan => qnan
  | .inf true => mkF32 false 0
  | .inf false => mkF32 false 0x7F800000
  | .fin neg m e =>
    if m = 0 then mkF32 false 0x3F800000 else
    match expFix neg m e with
    | none => if neg then mkF32 false 0 else mkF32 false 0x7F800000
    | some (mag, ee) => near2 0 x false mag ee

/-- The integer square root, bit by bit from bit `fuel - 1`. -/
def isqrtAux (n : Nat) : Nat → Nat → Nat
  | 0, acc => acc
  | k + 1, acc => let t := acc + 2 ^ k; isqrtAux n k (if t * t ≤ n then t else acc)

/-- The reciprocal square root, accurate to 2 ulp (R71). -/
def frsqrt (x : F32) : F32 :=
  match f32Val (ftz x) with
  | .nan => qnan
  | .inf neg => if neg then qnan else mkF32 false 0
  | .fin neg m e =>
    if m = 0 then mkF32 neg 0x7F800000 else if neg then qnan else
    let (m2, e2) := if e % 2 = 0 then (m, e) else (2 * m, e - 1)
    near2 1 x false (isqrtAux (2 ^ 200 / m2) 101 0) (-100 - e2 / 2)

/-- The reciprocal, accurate to 2 ulp (R71). -/
def frecip (x : F32) : F32 :=
  match f32Val (ftz x) with
  | .nan => qnan
  | .inf neg => mkF32 neg 0
  | .fin neg m e => if m = 0 then mkF32 neg 0x7F800000 else near2 2 x neg (2 ^ 120 / m) (-120 - e)

/-- A quotient, accurate to 2 ulp (R255; log 24). -/
def fquot (x y : F32) : F32 :=
  match f32Val x, f32Val y with
  | .fin n a e, .fin k b f => if b = 0 then qnan else near2 4 x (xor n k) (a * 2 ^ 100 / b) (e - f - 100)
  | .inf n, .fin k _ _ => mkF32 (xor n k) 0x7F800000
  | .fin n _ _, .inf k => mkF32 (xor n k) 0
  | _, _ => qnan

/-- The sum z + z³/3 + z⁵/5 + … in 160-bit fixed point, z at most one third. -/
def atanhSeries (z2 : Nat) : Nat → Nat → Nat → Nat
  | 0, _, _ => 0
  | fuel + 1, n, term => term / n + atanhSeries z2 fuel (n + 2) (term * z2 / 2 ^ expFrac)

/-- ln of m × 2^e, in 160-bit fixed point. -/
def lnFix (m : Nat) (e : Int) : Int :=
  let k := Nat.log2 m
  let z := (m - 2 ^ k) * 2 ^ expFrac / (m + 2 ^ k)
  (e + (k : Int)) * ln2Fix + 2 * (atanhSeries (z * z / 2 ^ expFrac) 52 1 z : Nat)

/-- The natural logarithm, accurate to 2 ulp (R255; log 24). -/
def fln (x : F32) : F32 :=
  match f32Val x with
  | .fin false m e =>
    if m = 0 then mkF32 true 0x7F800000 else
    let y := lnFix m e
    near2 5 x (y < 0) y.natAbs (-(expFrac : Int))
  | .inf false => mkF32 false 0x7F800000
  | _ => qnan

/-- x × σ(x), accurate to 2 ulp, with the special cases of R94. -/
def fsilu (x : F32) : F32 :=
  match f32Val (ftz x) with
  | .nan => qnan
  | .inf true => mkF32 true 0
  | .inf false => mkF32 false 0x7F800000
  | .fin neg m e =>
    match expFix false m e with
    | none => if neg then mkF32 true 0 else ftz x
    | some (mag, ee) =>
      let y := if ee ≥ -(expFrac : Int) then mag * 2 ^ (ee + expFrac).toNat else mag / 2 ^ (-(ee + expFrac)).toNat
      let num := if neg then 2 ^ expFrac else y
      near2 3 x neg (m * num * 2 ^ 200 / (y + 2 ^ expFrac)) (e - 200)

/-! ### Narrow formats and digits (R80 to R88) -/

/-- The element formats of weights and activations (R80). -/
inductive Fmt where
  | mxfp4 | mxfp8 | mxint8 | kt3 | kt2
  deriving DecidableEq, Repr

/-- The number of digit planes of a format (R85). -/
def Fmt.planes : Fmt → Nat
  | .mxfp8 => 2 | .mxint8 => 2 | _ => 1

/-- Bits of one element (R83). -/
def Fmt.bits : Fmt → Nat
  | .mxfp4 => 4 | .mxfp8 => 8 | .mxint8 => 8 | .kt3 => 3 | .kt2 => 2

/-- The unit exponent u of a plane (R85). -/
def Fmt.unit : Fmt → Nat → Int
  | .mxfp4, _ => -1
  | .mxfp8, 0 => -9
  | .mxfp8, _ => -1
  | .mxint8, 0 => -6
  | .mxint8, _ => -2
  | _, _ => 0

/-- Twice the magnitude of an E2M1 code: 0, 1, 2, 3, 4, 6, 8, 12 (R85). -/
def e2m1Digit (c : Nat) : Nat :=
  match c % 8 with
  | 0 => 0 | 1 => 1 | 2 => 2 | 3 => 3 | 4 => 4 | 5 => 6 | 6 => 8 | _ => 12

/-- An E4M3 code that is a NaN: S.1111.111 (R80). -/
def e4m3Nan (c : Nat) : Bool := c % 128 = 127

/-- The signed digit of an element code in a plane, with its shift applied: ± d × 2^s (R85).  A NaN gives 0 (R81). -/
def planeVal (f : Fmt) (plane c : Nat) : Int :=
  match f with
  | .mxfp4 => if bit c 3 then -(e2m1Digit c : Int) else e2m1Digit c
  | .mxfp8 =>
    if e4m3Nan c then 0 else
    let ex := bits c 3 4
    let e1 := max ex 1
    let sig := if ex = 0 then c % 8 else 8 + c % 8
    let v : Nat :=
      if plane = 0 then (if e1 ≤ 8 then sig * 2 ^ (e1 - 1) else 0) else (if e1 ≥ 9 then sig * 2 ^ (e1 - 9) else 0)
    if bit c 7 then -(v : Int) else v
  | .mxint8 =>
    let x := sgn 8 c
    let a := x.natAbs
    let d : Nat := if plane = 0 then a % 16 else a / 16
    if x < 0 then -(d : Int) else d
  | .kt3 => sgn 3 c
  | .kt2 => sgn 2 c

/-- The value of an E4M3 code; a NaN reads as 0 (R105). -/
def e4m3Val (c : Nat) : FV :=
  if e4m3Nan c then .fin false 0 0 else
  let (m, e) := unpackMag 3 (-9) (c % 128)
  .fin (bit c 7) m e

/-- The value of an E2M1 code. -/
def e2m1Val (c : Nat) : FV := .fin (bit c 3) (e2m1Digit c) (-1)

/-- The sum of digit products of one plane pairing over up to 32 elements (R88). -/
def digitSum (wf af : Fmt) (wp ap : Nat) : List Nat → List Nat → Int
  | w :: ws, a :: as => planeVal wf wp w * planeVal af ap a + digitSum wf af wp ap ws as
  | _, _ => 0

/-- The combined exponent X of R88. -/
def combExp (sw sa : Nat) (uw ua : Int) : Int := (sw : Int) - 127 + ((sa : Int) - 127) + uw + ua

/-- The largest accumulator magnitude (R90). -/
def accMax : Int := 2 ^ 79 - 1

/-- One contribution s × 2^X added to accumulator A under window base B (R90): the new A, and how much CLAMP_HI_CNT and
CLAMP_LO_CNT grow.  A contribution takes one row of the table, the last one where it saturates. -/
def accAdd (a s x b : Int) : Int × Nat × Nat :=
  if s = 0 then (a, 0, 0) else
  let d := x - b
  let (r, hi, lo) :=
    if d < 0 then (a + Int.tdiv s (2 ^ (-d).toNat), 0, 1)
    else if d ≤ 47 then (a + s * 2 ^ d.toNat, 0, 0)
    else (a + s * 2 ^ 47, 1, 0)
  if r > accMax then (accMax, 1, 0) else if r < -accMax then (-accMax, 1, 0) else (r, hi, lo)

/-! ### Output conversion (R91, R92, R106) -/

/-- An exact integer × 2^e as a value; zero is +0 (R91). -/
def intVal (m e : Int) : FV := .fin (m < 0) m.natAbs e

/-- m × 2^e > n × 2^k. -/
def magAbove (m : Nat) (e : Int) (n : Nat) (k : Int) : Bool :=
  if e ≥ k then n < m * 2 ^ (e - k).toNat else n * 2 ^ (k - e).toNat < m

/-- A code with its sign in bit `sbit`; a zero is +0 (R91; log 53). -/
def signed0 (neg : Bool) (sbit c : Nat) : Nat := if c = 0 then 0 else b2n neg * 2 ^ sbit + c

/-- A drain to FP32: a magnitude above the largest finite value becomes that value, and the flag counts in OUT_SAT_CNT (R91). -/
def drainF32 : FV → F32 × Nat
  | .fin neg m e =>
    (BitVec.ofNat 32 (signed0 neg 31 (min (packMag 23 (-149) m e) 0x7F7FFFFF)), b2n (magAbove m e (2 ^ 24 - 1) 104))
  | v => (toF32 v, 0)

/-- A drain to BF16, likewise. -/
def drainB16 : FV → B16 × Nat
  | .fin neg m e =>
    (BitVec.ofNat 16 (signed0 neg 15 (min (packMag 7 (-133) m e) 0x7F7F)), b2n (magAbove m e (2 ^ 8 - 1) 120))
  | v => (toB16 v, 0)

/-- ⌊log₂⌋ of a finite non-zero value; none for zero, an infinity or a NaN. -/
def FV.floorLog2 : FV → Option Int
  | .fin _ m e => if m = 0 then none else some ((Nat.log2 m : Int) + e)
  | _ => none

/-- The block scale exponent of R91: ⌊log₂ amax⌋ − e limited to ±127; 0 when amax is 0, and when no value
of the block is finite (log 71). -/
def mxScale (e : Int) (vs : List FV) : Int :=
  let l := vs.foldl (fun acc v => match FV.floorLog2 v, acc with
    | none, acc => acc
    | some x, none => some x
    | some x, some y => some (max x y)) (none : Option Int)
  match l with
  | none => 0
  | some x => max (-127) (min 127 (x - e))

/-- One element of an MX block under scale exponent X: code, clips, NaNs (R91, R92).  `fb`, `qmin` and `top` are the
format's fraction bits, quantum and largest code; `lim2` is twice the clip limit. -/
def mxElem (fb : Nat) (qmin : Int) (top sbit lim2 : Nat) (x : Int) : FV → Nat × Nat × Nat
  | .nan => (0, 0, 1)
  | .inf neg => (b2n neg * 2 ^ sbit + top, 1, 0)
  | .fin neg m e =>
    let e' := e - x
    let clip : Bool := if e' + 1 ≥ 0 then lim2 ≤ m * 2 ^ (e' + 1).toNat else lim2 * 2 ^ (-(e' + 1)).toNat ≤ m
    (signed0 neg sbit (min (packMag fb qmin m e') top), b2n clip, 0)

/-- An MX conversion of 32 values: element codes, scale code, clips, NaNs. -/
def mxBlock (fp8 : Bool) (vs : List FV) : List Nat × Nat × Nat × Nat :=
  let x := mxScale (if fp8 then 8 else 2) vs
  let es := vs.map (fun v => if fp8 then mxElem 3 (-9) 0x7E 7 928 x v else mxElem 1 (-1) 7 3 14 x v)
  (es.map (·.1), (x + 127).toNat, (es.map (·.2.1)).foldl (· + ·) 0, (es.map (·.2.2)).foldl (· + ·) 0)

/-- Two 4-bit codes a byte, the even element in bits [3:0] (R82). -/
def nibbles : List Nat → List Byte
  | a :: b :: t => BitVec.ofNat 8 (a % 16 + 16 * b) :: nibbles t
  | [a] => [BitVec.ofNat 8 (a % 16)]
  | [] => []

/-- The bytes of an MX block: the elements, then the scale (R82). -/
def mxBytes (fp8 : Bool) (codes : List Nat) (scale : Nat) : List Byte :=
  (if fp8 then codes.map (BitVec.ofNat 8) else nibbles codes) ++ [BitVec.ofNat 8 scale]

/-- The FP8 E4M3 code of v / σ with σ = 2^(c − 127): code and whether KV_SAT_CNT counts it (R106). -/
def kvCode (c : Nat) : FV → Nat × Nat
  | .nan => (0, 0)
  | .inf neg => (b2n neg * 128 + 0x7E, 1)
  | .fin neg m e =>
    let e' := e - ((c : Int) - 127)
    let sat : Bool := if e' ≥ 0 then 464 ≤ m * 2 ^ e'.toNat else 464 * 2 ^ (-e').toNat ≤ m
    (signed0 neg 7 (min (packMag 3 (-9) m e') 0x7E), b2n sat)

/-! ### The LSE merge (R119) -/

/-- m, l and the two factors of the merge of two triples. -/
structure LseHead where
  m : F32
  l : F32
  a1 : F32
  a2 : F32
  deriving DecidableEq, Repr

/-- Whether an FP32 pattern is a NaN. -/
def isNan (x : F32) : Bool := x.toNat % 2 ^ 31 > 0x7F800000

/-- −∞. -/
def negInf : F32 := 0xFF800000

/-- Payload 0 of a merge: the factors first (R119 steps 1 to 3).  For a NaN maximum the result is (NaN, 0, 0). -/
def lseHead (m1 l1 m2 l2 : F32) : LseHead :=
  if isNan m1 || isNan m2 then ⟨qnan, 0, 0, 0⟩ else
  let m := fmaxRaw m1 m2
  if m = negInf then ⟨negInf, 0, 0, 0⟩ else
  let a1 := fexp (fsub m1 m)
  let a2 := fexp (fsub m2 m)
  ⟨m, fadd (fmul a1 l1) (fmul a2 l2), a1, a2⟩

/-- One element of o under the factors: two products, a sum, then BF16 (R119 step 2); 0 for the two special results. -/
def lseElem (h : LseHead) (o1 o2 : B16) : B16 :=
  if isNan h.m || h.m = negInf then 0 else
  toB16 (f32Val (fadd (fmul h.a1 (bfToF32 o1)) (fmul h.a2 (bfToF32 o2))))

/-! ### Random draws (R490) -/

/-- One Philox-4×32 round with the published multipliers. -/
def philoxRound (c : Nat × Nat × Nat × Nat) (k0 k1 : Nat) : Nat × Nat × Nat × Nat :=
  let p0 := 0xD2511F53 * c.1
  let p1 := 0xCD9E8D57 * c.2.2.1
  (Nat.xor (Nat.xor (p1 / 2 ^ 32) c.2.1) k0, p1 % 2 ^ 32, Nat.xor (Nat.xor (p0 / 2 ^ 32) c.2.2.2) k1, p0 % 2 ^ 32)

/-- `n` rounds with the published key increments. -/
def philoxRounds : Nat → Nat × Nat × Nat × Nat → Nat → Nat → Nat × Nat × Nat × Nat
  | 0, c, _, _ => c
  | n + 1, c, k0, k1 =>
    philoxRounds n (philoxRound c k0 k1) ((k0 + 0x9E3779B9) % 2 ^ 32) ((k1 + 0xBB67AE85) % 2 ^ 32)

/-- Output word 0 of Philox-4×32-10 for position `n`, role `w` and a 64-bit seed: u × 2^32 (R490). -/
def draw (seed n w : Nat) : Nat := (philoxRounds 10 (n, w, 0, 0) (seed % 2 ^ 32) (seed / 2 ^ 32 % 2 ^ 32)).1

end Sys2Proof.Machine
end

