-- ==== Sys2Proof/Machine/State.lean ====
section
/-! DEFINITION. The state of the engine as plain data, why a step stops, and the state right after reset. -/

namespace Sys2Proof.Machine

/-! ### The core (chapters 3 to 6) -/

/-- A flit: its header and payload (R153), and the displaced marker (R158).  For BULK the 16-bit TID is
lane × 256 + route.  `site` marks an export's flit, which moves under the bulk rules (R200; log 13).  `last` names the queued command
whose last flit this is, and `nth` an append flit's place among the five of R163 (log 64). -/
structure Flit where
  part : Nat := 0
  stamp : Nat := 0
  op : Nat := 0
  lane : Nat := 0
  route : Nat := 0
  payload : List Byte := []
  displaced : Bool := false
  site : Option Nat := none
  last : Option Nat := none
  nth : Nat := 0
  deriving DecidableEq, Repr

/-- A flit at an ejection unit: with the router, the input port and the label that select its route entry, and the clock cycle from
which it may be accepted. -/
structure EjFlit where
  flit : Flit := {}
  rtr : Nat := 0
  port : Nat := 0
  label : Nat := 0
  since : Nat := 0
  deriving DecidableEq, Repr

/-- One entry of a core's command queue (R73, R74): the word, its index from PROG_BASE, and how far it has come.
`wait` holds from issue until the slab read port is taken (R65); `doneAt` is the schedule cycle of completion. -/
structure CmdEntry where
  word : Nat := 0
  idx : Nat := 0
  issued : Bool := false
  wait : Bool := false
  barrier : Bool := false
  doneAt : Option Nat := none
  upset : Upset := .none
  deriving DecidableEq, Repr

/-- The states of a slot (R74). -/
inductive SlotState where
  | empty | run | stall | widen | booked
  deriving DecidableEq, Repr

/-- The slot state and descriptor of one slot (R74, R113), with the token of its lane-entry word at the embedding region (R20), the clip count
of R96 and the spur flag of R277. -/
structure Slot where
  state : SlotState := .empty
  lane : Nat := 0
  pos : Nat := 0
  mu : Nat := 0
  step : Nat := 0
  bucket : Nat := 0
  token : Option Nat := none
  spurPass : Bool := false
  spec : Bool := false
  clips : Nat := 0
  marked : Bool := false
  deriving DecidableEq, Repr

/-- The states of a window (R135). -/
inductive WinState where
  | idle | opened | closed | sealed
  deriving DecidableEq, Repr

/-- A window of a core's router (R135, R141). -/
structure Window where
  base : Nat := 0
  len : Nat := 0
  expect : Nat := 0
  count : Nat := 0
  stamp : Nat := 0
  state : WinState := .idle
  openedIn : Bool := false
  closing : Bool := false
  early : List EjFlit := []
  deriving DecidableEq, Repr

/-- An open LSE merge context of a window (R143). -/
structure MergeCtx where
  wid : Nat := 0
  addr : Nat := 0
  m : F32 := 0
  a1 : F32 := 0
  a2 : F32 := 0
  startAt : Nat := 0
  deriving DecidableEq, Repr

/-- A send in progress (R160): what is left to read into the injection queue. -/
structure SendJob where
  idx : Nat := 0
  addr : Nat := 0
  stride : Nat := 1
  left : Nat := 0
  op : Nat := 0
  route : Nat := 0
  lane : Nat := 0
  spineTag : Option Nat := none
  deriving DecidableEq, Repr

/-- The KV_SETUP in force (R120). -/
structure KvSetup where
  scale : Nat := 0
  head : Nat := 0
  isV : Bool := false
  layer : Nat := 0
  route : Nat := 0
  deriving DecidableEq, Repr

/-- A binding of a layer and KV head that a core serves, with the HEAD within its pages, its lane directory and the heads per page (R104,
R108, R110). -/
structure Binding where
  layer : Nat := 0
  kvHead : Nat := 0
  head : Nat := 0
  dir : Nat := 0
  heads : Nat := 1
  deriving DecidableEq, Repr

/-- The attention engine's state for one query head (R114). -/
structure AttHead where
  q : List B16 := []
  m : F32 := 0
  l : F32 := 0
  o : List F32 := []
  deriving DecidableEq, Repr

/-- What a member does with an append (R123): only count it, refuse it, write it, or rewrite it. -/
inductive AppendAct where
  | skip | refuse | write | rewrite
  deriving DecidableEq, Repr

/-- An append in assembly at a member core, one per route: the descriptor of R163, what the member does with it, the address
of its codes and trailer entry, the directory, and the stamp of its flits. -/
structure AppendDesc where
  rtr : Nat := 0
  key : Nat := 0
  lane : Nat := 0
  pos : Nat := 0
  scale : Nat := 0
  act : AppendAct := .skip
  addr : Nat := 0
  trailer : Nat := 0
  dir : Nat := 0
  stamp : Nat := 0
  deriving DecidableEq, Repr

/-- A commit-pointer proposal of R124: binding index, slot, lane and the proposed CP. -/
structure Proposal where
  bind : Nat := 0
  slot : Nat := 0
  lane : Nat := 0
  cp : Option Nat := none
  deriving DecidableEq, Repr

/-- The first step error of a tick: code, index of the command, schedule cycle, low byte of the tick, and whether it has gone up the status
tree (R75). -/
structure StepErr where
  code : Nat := 0
  cmd : Nat := 0
  cycle : Nat := 0
  tick8 : Nat := 0
  sent : Bool := false
  deriving DecidableEq, Repr

/-- What a core counts in a tick and adds to its tile's counters in the commit phase (R103, R133, R285). -/
structure Counts where
  clampHi : Nat := 0
  clampLo : Nat := 0
  clip : Nat := 0
  widenMark : Nat := 0
  nanIn : Nat := 0
  nanOut : Nat := 0
  outSat : Nat := 0
  kvAppend : Nat := 0
  kvRewrite : Nat := 0
  kvSat : Nat := 0
  kvAddrErr : Nat := 0
  lseNan : Nat := 0
  deltaFmt : Nat := 0
  deriving DecidableEq, Repr

/-- A weight register set of an array: its digit plane, the weight section it holds, and the parity bit of each 32-cell row slice (R62, R87). -/
structure WReg where
  plane : Nat := 0
  bytes : List Byte := []
  parity : Nat := 0
  deriving DecidableEq, Repr

/-- One core position: its memories, its units and its synchronisation state.  `mem` holds the local store and the slab
at the addresses of R59, each byte as its difference from `Core.blank`, what it reads unwritten; `lost` numbers the last loss of the local
store (R60), 0 for none; the two banks hold the input double-buffer, `readB1` naming the slots whose read half is bank 1.  `wAct` and
`wShd` hold the weight set of each array's active and shadow registers (R62), `slabAt` the clock of the last scheduled slab
write (R173), `lsAt` the clock and the bank of the last local store write of the ejection unit (R72), `deepAt` the addresses of the page-list entries
that hold a record index (R111, R198).
Times are schedule cycles of the current tick. -/
structure Core where
  mem : Mem := []
  lost : Nat := 0
  bank0 : Mem := []
  bank1 : Mem := []
  readB1 : List Bool := [false, false, false, false]
  alive : Bool := true
  gated : Bool := false
  faulty : Bool := false
  lfa : Table (BitVec 80) := []
  base : Int := 0
  clipT : Nat := 0
  clipEn : Bool := false
  skew : Bool := false
  queue : List CmdEntry := []
  fetchIdx : Nat := 0
  fetching : Bool := false
  issuedAt : Option Nat := none
  arrayFree : Nat := 0
  attFree : Nat := 0
  wideFree : Nat := 0
  portFree : Nat := 0
  slots : List Slot := [{}, {}, {}, {}]
  heads : List AttHead := []
  tau : B16 := 0
  send : Option SendJob := none
  outFlits : List Flit := []
  inj : List (Nat × Flit) := []
  quiet : List Nat := []
  ej : List EjFlit := []
  rel : List EjFlit := []
  ejAt : Option Nat := none
  counts : List (Nat × Nat) := []
  applied : Table Nat := []
  wins : Table Window := []
  sems : Table Nat := []
  semPend : Table Nat := []
  merges : List MergeCtx := []
  kv : Option KvSetup := none
  binds : List Binding := []
  cache : List Nat := []
  cacheCnt : Nat := 0
  appends : List AppendDesc := []
  commitSets : Nat := 0
  props : List Proposal := []
  err : Option StepErr := none
  halted : Bool := false
  late : Option (Nat × Nat) := none
  cnt : Counts := {}
  armed : Bool := false
  dirty : List Nat := []
  wAct : Table WReg := []
  wShd : Table WReg := []
  slabAt : Option Nat := none
  lsAt : Option (Nat × Nat) := none
  deepAt : List Nat := []
  deriving DecidableEq, Repr

/-- A flit held in a router's displacement buffer: input port, and the cycle at which it entered (R158). -/
structure DispFlit where
  flit : Flit := {}
  port : Nat := 0
  since : Nat := 0
  outs : List Nat := []
  deriving DecidableEq, Repr

/-- A reduction operand in a router's reduction buffer (R164). -/
structure RedFlit where
  rctx : Nat := 0
  port : Nat := 0
  flit : Flit := {}
  arr : Nat := 0
  deriving DecidableEq, Repr

/-- A reduction context with the factors of an LSE merge (R143, R165): results so far, and the head of each fold. -/
structure RedCtx where
  rctx : Nat := 0
  n : Nat := 0
  heads : List LseHead := []
  readyAt : Nat := 0
  deriving DecidableEq, Repr

/-- A migration copy at the router of its source (R229): TID, source and destination offsets in the slabs, length in bytes, the destination
core, and the next flit. -/
structure CopyRun where
  tid : Nat := 0
  src : Nat := 0
  dst : Nat := 0
  off : Nat := 0
  len : Nat := 0
  i : Nat := 0
  deriving DecidableEq, Repr

/-- A router: slot and route tables in two banks, and its buffers (R155, R156, R158, R164, R173, R178).  Route tables are
keyed by port × 256 + label.  `exports` holds the exports in progress with the next flit of each (R200), `used` the ports
that unscheduled flits took in the clock cycle numbered before it, `copies` the migration copies in progress (R229), `redAt` the schedule cycle + 1 in which a reduction's
slot was last used or passed empty (R166). -/
structure Router where
  slots : List Nat := []
  routes : Table Nat := []
  slotsB : List Nat := []
  routesB : Table Nat := []
  disp : List DispFlit := []
  dispRoutes : List Nat := []
  red : List RedFlit := []
  redCtx : List RedCtx := []
  bulk : List Flit := []
  exports : List (ExportDesc × Nat) := []
  copies : List CopyRun := []
  used : Nat × List Nat := (0, [])
  redAt : Table Nat := []
  tidCnt : Table Nat := []
  deriving DecidableEq, Repr

/-- A flit in flight on a link: the input it is due at, and the schedule cycle count of its partition at which it is
released there (R152, R168). -/
structure LinkFlit where
  dst : Nat := 0
  port : Nat := 0
  due : Nat := 0
  flit : Flit := {}
  deriving DecidableEq, Repr

/-- An XOR delta in flight on a crag bus (R125): writing core, address, old ⊕ new, and the clock of the write. -/
structure Delta where
  core : Nat := 0
  addr : Nat := 0
  bytes : List Byte := []
  time : Nat := 0
  deriving DecidableEq, Repr

/-! ### Memory sites (chapter 8) -/

/-- A region table entry (R185). -/
structure Region where
  valid : Bool := false
  set : Nat := 0
  kind : Nat := 0
  single : Bool := false
  ch : Nat := 0
  owner : Nat := 0
  keySlot : Nat := 0
  base : Nat := 0
  len : Nat := 0
  tweak : Nat := 0
  deriving DecidableEq, Repr

/-- One channel of a stack: its data (each written byte kept as its value + 1; the ranges that a zero fill cleared since),
its schedule (R194) with the entries whose reads started in this tick, its buffer of flits to be released (R195), its failure
for the next boundary and whether it has lost its lock, the clocks of its uncorrectable errors (R193) and CRC errors (R171), and the refreshes performed (R199). -/
structure Chan where
  mem : Table Nat := []
  zeros : List (Nat × Nat) := []
  sched : List Nat := []
  started : List Nat := []
  buffer : List (Nat × Flit) := []
  failNext : Bool := false
  noLock : Bool := false
  ueTimes : List Nat := []
  crcTimes : List Nat := []
  refreshes : Nat := 0
  deriving DecidableEq, Repr

/-- An entry of the site's deep directory (R197): layer, head, shard and each lane's first record, kept as its index + 1. -/
structure DeepDir where
  layer : Nat := 0
  head : Nat := 0
  shard : Nat := 0
  shards : Nat := 1
  first : Table Nat := []
  deriving DecidableEq, Repr

/-- A delta directory entry of a site (R282, R289): valid, its region, and the base within it in 4 KiB units. -/
structure DeltaDir where
  valid : Bool := false
  region : Nat := 0
  base : Nat := 0
  deriving DecidableEq, Repr

/-- An export transfer in progress at a site (R200): TID, region, next offset in 32-byte units, flits left and written. -/
structure Transfer where
  tid : Nat := 0
  region : Nat := 0
  offset : Nat := 0
  nflit : Nat := 0
  left : Nat := 0
  written : Nat := 0
  status : Nat := 0
  deriving DecidableEq, Repr

/-- A page-mover command in the queue (R201) with the spine data words of its TID and the errors it meets; once executed, its status and the
units it moved.  `inner` marks one that the engine itself sent: it runs when PAGE_MOVER_DONE ends it (log 94). -/
structure PmJob where
  cmd : PmCmd := {}
  bytes : List Byte := []
  upset : StackUpset := .none
  inner : Bool := false
  ran : Bool := false
  status : Nat := 0
  count : Nat := 0
  deriving DecidableEq, Repr

/-- One memory site (R182 to R205): its controller is up and its PLL locked (R22), stack, region table, deep directory and record table, key slots (each key kept as its value
+ 1), page mover, export transfers, zero fills in progress, the finished parts of exports longer than one transfer (region, offset and flits),
temperature history, the step error for the status tree, the delta
directory and lane table of R282, and the byte ranges of regions that STAGE_IN has written (R210). -/
structure Site where
  up : Bool := true
  pll : Bool := false
  regions : Table Region := []
  chans : Table Chan := []
  deep : List DeepDir := []
  records : Table Nat := []
  keys : Table Nat := []
  transfers : List Transfer := []
  pm : List PmJob := []
  bulkOut : List Flit := []
  zeroing : List Nat := []
  longs : List (Nat × Nat × Nat) := []
  hotCnt : Nat := 0
  siteErr : Option Nat := none
  deltas : Table DeltaDir := []
  laneTbl : Table Nat := []
  stagedAt : List (Nat × Nat × Nat) := []
  draining : Bool := false
  readyAt : Option Nat := none
  deriving DecidableEq, Repr

/-! ### Images (chapter 9) -/

/-- A staged-image entry of the SMC (R210): image and, for each site, region and unit range. -/
structure Staged where
  valid : Bool := false
  imageId : Nat := 0
  parts : List (Nat × Nat × Nat × Nat) := []
  deriving DecidableEq, Repr

/-! ### Partitions: tick, packer and image (chapters 2, 9, 18) -/

/-- A region of a loaded pipeline: whether it is an A4 layer region, a global layer, and its cores (R42, R98, R127). -/
structure RegionInfo where
  a4 : Bool := false
  glob : Bool := false
  cores : List Nat := []
  deriving DecidableEq, Repr

/-- A length bucket of the image (R127): compiled or not, μ, and whether its tier is T1. -/
structure BucketInfo where
  compiled : Bool := false
  mu : Nat := 1
  deep : Bool := false
  deriving DecidableEq, Repr

/-- The loaded image of a partition, as its PIPE section, header and load left it (R206, R207, R222 to R225); `summit` and `sampler` hold the
tables of the summit stage and the sampler as their bytes, `context` the longest context. -/
structure Loaded where
  id : Nat := 0
  kvLayout : Nat := 0
  stackfed : Bool := false
  grade : Nat := 72
  w : Nat := 1
  period : Nat := 0
  regions : List RegionInfo := []
  buckets : List BucketInfo := []
  vocab : Nat := 0
  width : Nat := 0
  deltaMask : Nat := 0
  deltaSpan : Nat := 0
  deltaSites : List Nat := []
  pagesPer64 : Nat := 0
  primeBytes : Nat := 0
  present : List Nat := []
  compute : List Nat := []
  sites : List Nat := []
  reloc : List (Nat × List Nat) := []
  charges : List (Nat × List (List Nat)) := []
  ox : Nat := 0
  oy : Nat := 0
  lw : Nat := 9
  lh : Nat := 8
  moved : List (Nat × Nat) := []
  summit : List Byte := []
  sampler : List Byte := []
  context : Nat := 0
  deriving DecidableEq, Repr

/-- A hold-table entry (R46), with the position, the step and the handle that the packer knows of its token, whether it holds for a widen
in this tick, and whether it holds for a further global step (R127); whether it entered in a verification pass, whether that pass is a probe, and
the probability of a draft token (R275 to R278). -/
structure Hold where
  region : Nat := 0
  lane : Nat := 0
  slot : Nat := 0
  entry : Nat := 0
  holds : Nat := 0
  budget : Nat := 0
  booked : Nat := 0
  bucket : Nat := 0
  elastic : Bool := false
  kind : Nat := 0
  held : Bool := false
  widen : Bool := false
  widenNow : Bool := false
  bookedNow : Bool := false
  heldHere : Bool := false
  pos : Nat := 0
  step : Nat := 0
  token : Nat := 0
  handle : Nat := 0
  removed : Bool := false
  mark : Bool := false
  pass : Bool := false
  probe : Bool := false
  q : F32 := 0
  deriving DecidableEq, Repr

/-- A result of the summit stage that waits for finality (R257): request, kind, lane, position, value, log-probability (of a draft
partition: the draft probability), STOP flag, the extra positions of its pass, whether the pass is a probe, and the FP32 elements of an EMBED
result or, with kind 5, of one position that goes into a mean (R244). -/
structure Result where
  handle : Nat := 0
  kind : Nat := 0
  lane : Nat := 0
  pos : Nat := 0
  value : Nat := 0
  logp : F32 := 0
  stop : Bool := false
  ke : Nat := 0
  probe : Bool := false
  vals : List F32 := []
  deriving DecidableEq, Repr

/-- A completion entry (R240); `ends` marks one after which its table entry is FREE (R243), `waits` a held DONE whose STATUS is not written
yet (R241). -/
structure Cpl where
  event : Nat := 0
  code : Nat := 0
  faults : Nat := 0
  cookie : Nat := 0
  handle : Nat := 0
  produced : Nat := 0
  tick : Nat := 0
  worst : Nat := 0
  ends : Bool := false
  waits : Bool := false
  deriving DecidableEq, Repr

/-- A command entry that has been fetched and not yet decided (R236, R237): its 64 bytes and address, the tick, the clock and the millisecond
clock of its fetch, the clock at which the doorbell write that covers it arrived (R245), and the table entry that a SUBMIT holds in QUEUED. -/
structure CmdIn where
  bytes : List Byte := []
  addr : Nat := 0
  tick : Nat := 0
  clock : Nat := 0
  ms : Nat := 0
  bell : Nat := 0
  ent : Option Nat := none
  deriving DecidableEq, Repr

/-- A fault record (R314). -/
structure FaultRec where
  cls : Nat := 0
  path : Nat := 0
  part : Nat := 0xFF
  outcome : Nat := 0
  loc : Nat := 0
  unit : Nat := 0
  tick : Nat := 0
  hold : Nat := 0
  intr : Nat := 0
  gen : Nat := 0
  seq : Nat := 0
  deriving DecidableEq, Repr

/-- Spur state of a main lane at the coordinator (R268 to R278): draft lane, KT, ZS, token count, EPOCH, pending probe and whether the
probe pass is in flight, the tokens the draft holds by position with their probabilities, the ticks deferred, the V that the
draft was last sent, and whether the draft partition has gone down since the lane had its draft lane (R280). -/
structure Spur where
  draftLane : Option Nat := none
  kt : Nat := 0
  zs : Nat := 0
  cnt : Nat := 0
  epoch : Nat := 0
  probe : Bool := false
  probing : Bool := false
  drafts : List (Nat × Nat × F32) := []
  deferred : Nat := 0
  base : Nat := 0
  down : Bool := false
  deriving DecidableEq, Repr

/-- A lane of a partition (R242, R249): the request that holds it, whether its reservations are counted and it is primed, the earliest tick
of a lane under hand-over (R252), its delta entry and its spur state.  In a draft partition: the input tokens by position, the committed count V,
the next position to enter, EPOCH, k_d, and whether it is idle (R272, R278). -/
structure Lane where
  handle : Option Nat := none
  gen : Nat := 0
  primed : Bool := false
  freeAt : Nat := 0
  delta : Option Nat := none
  spur : Spur := {}
  toks : List Nat := []
  draftV : Nat := 0
  next : Nat := 0
  epoch : Nat := 0
  kd : Nat := 0
  idle : Bool := false
  deriving DecidableEq, Repr

/-- A migration entry of a repair (R229): physical source and destination cores, and block ranges. -/
structure Move where
  src : Nat := 0
  dst : Nat := 0
  off : Nat := 0
  len : Nat := 0
  dstOff : Nat := 0
  deriving DecidableEq, Repr

/-- What a load or repair in progress holds (R222 to R230): the command's COOKIE, what the partition will run, the measurement,
the address of the status record and the clock of its start, the regions and TIDs in use, the values written last, the code
that aborts it, and a repair's migration, its programs as (core, address, bytes) and its bulk direction entries as (tile, tile, edge); the
page-mover commands that wait for room, and the values of R224 step 4: ring sets, pages and restore rates, region entries as (site,
region, word), and the tile budgets that the checks found (log 37); a repair's directory bases by core (R219). -/
structure LoadJob where
  repair : Bool := false
  cookie : Nat := 0
  image : Loaded := {}
  meas : Nat := 0
  statusAddr : Nat := 0
  startClock : Nat := 0
  gen : Nat := 0
  regions : List (Nat × Nat) := []
  tids : List Nat := []
  abort : Option Nat := none
  changed : Bool := false
  rounds : Nat := 0
  moves : List Move := []
  progs : List (Nat × Nat × Nat) := []
  bulk : List (Nat × Nat × Nat) := []
  cutReq : Bool := false
  finished : Bool := false
  todo : List (Nat × PmCmd × List Byte) := []
  caps : List Nat := []
  ents : List (Nat × Nat × Nat) := []
  budgets : List (Nat × Nat) := []
  bases : List (Nat × List Nat) := []
  deriving DecidableEq, Repr

/-- The status record of a load (R225). -/
structure LoadStatus where
  status : Nat := 0
  code : Nat := 0
  tile : Nat := 0xFFFF
  cycle : Nat := 0xFFFFFFFF
  sect : Nat := 0xFFFFFFFF
  ox : Nat := 0
  oy : Nat := 0
  imageId : Nat := 0
  micros : Nat := 0
  gen : Nat := 0
  deriving DecidableEq, Repr

/-- What the generator does between boundaries (R33, R35, R295, R300, R306, R312). -/
inductive GenPhase where
  | stopped | running | drain (left : Nat) | fault (left : Nat) | boundaryHold (left : Nat)
  deriving DecidableEq, Repr

/-- A delta entry (R281, R288): image, key slot, the number to bind, the binding and its number, and the lanes admitted with it. -/
structure Vent where
  image : Nat := 0
  key : Nat := 0
  num : Nat := 0
  bound : Bool := false
  bnd : Nat := 0
  lanes : Nat := 0
  deriving DecidableEq, Repr

/-- An aperture entry (R380, R385): base, last byte + 1, in use, and whether writes are permitted. -/
structure Aper where
  base : Nat := 0
  limit : Nat := 0
  valid : Bool := false
  canWrite : Bool := false
  deriving DecidableEq, Repr

/-- A word on a control spine (R19, R161, R269): its partition ID, the core that sent it and the TAG of a word of SEND_SPINE, and its data. -/
structure SpineWord where
  part : Nat := 0
  core : Nat := 0
  tag : Nat := 0
  bytes : List Byte := []
  deriving DecidableEq, Repr

/-- A DRAFT word on the spur channel (R270): draft lane, EPOCH, KEEP, k_d, V and the tokens carried. -/
structure DraftWord where
  lane : Nat := 0
  epoch : Nat := 0
  keep : Bool := false
  kd : Nat := 0
  v : Nat := 0
  toks : List Nat := []
  deriving DecidableEq, Repr

/-- A SPUR word on the spur channel (R270): draft lane, EPOCH, position of the first draft, drafts with probabilities. -/
structure SpurWord where
  lane : Nat := 0
  epoch : Nat := 0
  pos : Nat := 0
  toks : List (Nat × F32) := []
  deriving DecidableEq, Repr

/-- A record of an output buffer that is due (R241): handle, buffer, offset and bytes, the SEQ and record count after it; or the
end of the request: its STATUS and its completion entry. -/
structure OutRec where
  handle : Nat := 0
  base : Nat := 0
  offset : Nat := 0
  bytes : List Byte := []
  seq : Nat := 0
  cnt : Nat := 0
  fin : Option (Nat × Cpl) := none
  deriving DecidableEq, Repr

/-- A part of a paused request's KV (R258): where it lies in a SCREE region, its flits, and the page it came from: core, directory,
local page, first byte within the page, and whether the page was deep. -/
structure Piece where
  site : Nat := 0
  region : Nat := 0
  off : Nat := 0
  n : Nat := 0
  core : Nat := 0
  dir : Nat := 0
  page : Nat := 0
  start : Nat := 0
  deep : Bool := false
  deriving DecidableEq, Repr

/-- A transfer that waits for its completion word (R173, R200, R201, R229): what was sent (a page-mover command, an export descriptor, or a
migration copy by its source core), where and when, the handle of a
request that an export or restore serves, and the count that a right completion carries. -/
structure Xfer where
  site : Nat := 0
  cmd : PmCmd := {}
  desc : Option ExportDesc := none
  copy : Option (Nat × CopyRun) := none
  bytes : List Byte := []
  sent : Nat := 0
  handle : Option Nat := none
  expect : Nat := 0
  got : Option (Nat × Nat) := none
  deriving DecidableEq, Repr

/-- One partition.  STATE, PEND and the register fields stand in the TICKGEN, PACKER, ADMIT, SPUR and COHC pages; this
holds the rest: the tick machinery, the packer, the image, the rings' contents in hand, and the lanes.  `clean` says that the tick before
a held boundary has passed, and `lag` holds the cycles that the work a hold interrupts loses beside the hold itself (R292, R295); `bells`
holds the doorbell writes of CMD_PI with the clocks of their arrival (R245), `draftWords` and `spurWords` the words of the spur channel on
their way, `draftIn` and `spurIn` those that wait for the next latch (R271). -/
structure Part where
  tiles : List Nat := []
  tick : Nat := 0
  cyc : Nat := 0
  wall : Nat := 0
  sched : Nat := 0
  stretch : Nat := 0
  phase : GenPhase := .stopped
  replay : Bool := false
  wasReplay : Bool := false
  roleKeep : List (Nat × Nat) := []
  commitDone : Bool := false
  finalDone : Bool := true
  bodyDone : Bool := false
  failCode : Nat := 0
  routerErrs : List Nat := []
  rmbErrs : List Nat := []
  missing : List Nat := []
  deadNow : List (Nat × Nat) := []
  deadCause : Nat := 0
  ceilPend : List (Nat × Nat) := []
  holdReq : Bool := false
  table : List Hold := []
  entering : List Hold := []
  block : Table Nat := []
  toDecide : Bool := false
  results : List Result := []
  lateTbl : List (Nat × Nat) := []
  lateRep : List (Nat × Nat) := []
  latched : List Hold := []
  lanes : Table Lane := []
  image : Option Loaded := none
  job : Option LoadJob := none
  status : Option LoadStatus := none
  staged : Table Staged := []
  meas : Nat := 0
  cplHeld : List Cpl := []
  cmdIn : List CmdIn := []
  bells : List (Nat × Nat) := []
  xfers : List Xfer := []
  outQ : List OutRec := []
  spurWords : List SpineWord := []
  spurIn : List SpurWord := []
  vents : Table Vent := []
  apers : Table Aper := []
  keysUsed : List Nat := []
  haltAt : Option Nat := none
  swapPend : List (Nat × Nat × Nat) := []
  holdStart : Nat := 0
  draftWords : List SpineWord := []
  draftIn : List DraftWord := []
  shareE : Nat := 0
  shareTok : Nat := 0
  tileE : Nat := 0
  intAddr : Nat := 0
  intPend : Bool := false
  lastFire : Nat := 0
  nextTid : Nat := 0
  lost : Bool := false
  freed : List (Nat × Nat) := []
  lenSum : Nat := 0
  lenN : Nat := 0
  faultDue : List Cpl := []
  clearUntil : Nat := 0
  clean : Bool := false
  lag : Nat := 0
  deriving DecidableEq, Repr

/-! ### Requests (chapter 10) -/

/-- The states of a request (R242). -/
inductive ReqState where
  | free | queued | admitted | prefill | decode | paused | scree | done | rejected | faulted | expired
  deriving DecidableEq, Repr

/-- A sampling block (R254). -/
structure Sampling where
  temp : F32 := 0
  topK : Nat := 0
  topP : F32 := 0x3F800000
  minP : F32 := 0
  seed : Nat := 0
  stops : List Nat := []
  deriving DecidableEq, Repr

/-- A request table entry (R242), with what the lane record and the packer hold of it: its tokens by position, the
positions that enter, the sampling block, the mask, the output buffer and its counters, its admission order, the STRETCH_CEIL under
which it was admitted (R41), the replays since its admission (R251), and the sum of the positions that go into a mean (R244). -/
structure Request where
  state : ReqState := .free
  prio : Nat := 0
  kind : Nat := 0
  elastic : Bool := false
  part : Nat := 0
  auto : Bool := false
  lane : Nat := 0
  bucket : Nat := 0
  allow : Nat := 0
  spurOn : Bool := false
  spurK : Nat := 0
  variant : Nat := 0
  keep : Bool := false
  poolMean : Bool := false
  perToken : Bool := false
  retLogp : Bool := false
  deadline : Nat := 0
  ttl : Nat := 0
  promptLen : Nat := 0
  genCnt : Nat := 0
  maxNew : Nat := 0
  worst : Nat := 0
  pageRoot : Nat := 0
  sampPtr : Nat := 0
  maskPtr : Nat := 0
  cookie : Nat := 0
  ttlExp : Nat := 0
  ksnap : Nat := 0
  tokAddr : Nat := 0
  outAddr : Nat := 0
  outLen : Nat := 0
  order : Nat := 0
  toks : List Nat := []
  recs : List (Nat × F32) := []
  contLen : Nat := 0
  startPos : Nat := 0
  entered : Nat := 0
  toEnter : Nat := 0
  ready : Bool := false
  notBefore : Nat := 0
  samp : Sampling := {}
  mask : Option Nat := none
  seqNo : Nat := 0
  recCnt : Nat := 0
  logpSum : F32 := 0
  scree : List Piece := []
  inT2 : Bool := false
  t2Off : Nat := 0
  pages : Nat := 0
  status : Nat := 0
  entryHeld : Bool := false
  setupAt : Nat := 0
  toExport : Bool := false
  rings : Nat := 0
  ceil : Nat := 0
  kvLayout : Nat := 0
  replays : Nat := 0
  pool : List F32 := []
  deriving DecidableEq, Repr

/-! ### Rail monitor blocks (chapter 14) -/

/-- What a sequencer runs: an entry of a sequence of a class, the sequence's first entry, or a calibration slot. -/
inductive SlotKind where
  | normal | urgent | cal
  deriving DecidableEq, Repr

/-- A slot: kind, entry, first entry of its sequence, the clock of its first cycle, the number of its sequence, and what its entry held when the
slot began: the inputs, whether B takes part, and the flags (R344, R348). -/
structure RmbSlot where
  kind : SlotKind := .normal
  entry : Nat := 0
  first : Nat := 0
  began : Nat := 0
  seq : Nat := 0
  inA : Nat := 0
  inB : Nat := 0
  bEn : Bool := false
  last : Bool := false
  loop : Bool := false
  pwr : Bool := false
  deriving DecidableEq, Repr

/-- A power epoch of the meter: the sum and number of its products, its first and last clock, and its tick (R48, R352). -/
structure Epoch where
  sum : Nat := 0
  n : Nat := 0
  start : Nat := 0
  stop : Nat := 0
  tick : Nat := 0
  deriving DecidableEq, Repr

/-- One rail monitor block: the slot in progress, one that has ended and whose result is awaited, the interrupted one, the entry that a change of
reference holds back, the comparators' starts with the clocks at which they become effective, the looping sequences that wait at their loop
points, pending sources, comparator counts and those that have fired, a calibration's slots and sums, coefficients that wait (offsets and gains of
A and B), the reference that waits, the clock at which it has settled, the epoch meter with the clock of its epoch's start, an epoch that has ended
and still awaits a result, the last VDD_A codes, a tick whose snapshot has not been taken, and the timers' next starts (R337 to R352). -/
structure Rmb where
  cur : Option RmbSlot := none
  done : Option RmbSlot := none
  intr : Option RmbSlot := none
  held : Option RmbSlot := none
  soon : List (Nat × Nat) := []
  loops : List RmbSlot := []
  calTurn : Bool := true
  pend : List Nat := []
  deb : Table Nat := []
  fired : List Nat := []
  calN : Nat := 0
  calGnd : Nat × Nat := (0, 0)
  calRef : Nat × Nat := (0, 0)
  newCoef : Option (List Nat) := none
  refNext : Option Nat := none
  settleAt : Option Nat := none
  powSum : Nat := 0
  powN : Nat := 0
  epochAt : Nat := 0
  epochSched : Nat := 0
  closing : Option Epoch := none
  vddaV : Nat := 0
  vddaI : Nat := 0
  snapDue : Bool := false
  timers : Table Nat := []
  deriving DecidableEq, Repr

/-! ### Tiles, crags, saddles, power and heat (chapters 7, 12, 13) -/

/-- A tile beside its pages: its rails, router rail and PLL are up; the spine drop queue (R161); the bulk direction table by
destination tile, each edge kept as its number + 1 (R173); the powers that the rail monitor has measured since the last thermal update, in units
of 2^−24 pu, and their number; the diode readings of the window; the diode readings of 105 °C or more in a row; a capture in progress: updates left,
qualifying ones, and the sum of their θ_raw (R328 to R332). -/
structure Tile where
  up : Bool := true
  dropQ : List SpineWord := []
  bulkDir : Table Nat := []
  powSum : Nat := 0
  powN : Nat := 0
  diodes : List Int := []
  hot105 : Nat := 0
  capture : Option (Nat × Nat × Nat) := none
  deriving DecidableEq, Repr

/-- A crag's bus: deltas in flight (R125). -/
structure Crag where
  deltas : List Delta := []
  deriving DecidableEq, Repr

/-- A saddle between two tiles: CRC error times of each channel, failed channels, those that a repair's tables no longer use (R305), and the swap that waits with the tick of its
declaration (R169). -/
structure Saddle where
  crc : List (Nat × Nat) := []
  failed : List Nat := []
  unused : List Nat := []
  pending : Option (Nat × Nat) := none
  deriving DecidableEq, Repr

/-- A regulator stack (R320 to R322, R333): phases present and sharing, phases taken offline, losses counted, and phases that have
failed and not been replaced. -/
structure Stack where
  ok : Nat := 0
  offline : Nat := 0
  lost : Nat := 0
  bad : Nat := 0
  deriving DecidableEq, Repr

/-- What the SPS sequencer does (R319, R323, R325, R326). -/
inductive PowerState where
  | off | clkWait | seq | good | failing | down
  deriving DecidableEq, Repr

/-- The shared power sequencer beside its page: sequencing state, the input power samples of the last 100 ms, the samples below 0.95 ×
MOD_CAP, the cap factor in force, PWR_FAIL and its cause, the samples above 45 V since, the shutdown and reset requests, the
control tile it has fenced, the regulator stacks, the microseconds since POWER_GOOD, MOD_OVER, and a lost reference clock.  Power is counted in
units of 10 mV × 10 mA. -/
structure Sps where
  state : PowerState := .off
  samples : List Nat := []
  underCap : Nat := 0
  capNum : Nat := 1
  capDen : Nat := 1
  latched : Bool := false
  recovered : Nat := 0
  shutdown : Bool := false
  resetReq : Bool := false
  resetLow : Bool := false
  fenced : Option Nat := none
  stackTbl : Table Stack := []
  micros : Nat := 0
  modOver : Bool := false
  clkLost : Bool := false
  deriving DecidableEq, Repr

/-! ### The Vreljo Link (chapter 15) -/

/-- A write on its way to a companion: partition, ORD, address, bytes; `tag` is the outstanding tag (R367, R369). -/
structure Write where
  part : Nat := 0
  ord : Bool := true
  addr : Nat := 0
  bytes : List Byte := []
  tag : Nat := 0
  port : Option Nat := none
  deriving DecidableEq, Repr

/-- A read that waits for its data (R368, R370): partition, address, whether it is cached, what it is for. -/
structure Read where
  part : Nat := 0
  addr : Nat := 0
  cached : Bool := false
  tag : Nat := 0
  port : Option Nat := none
  stale : Bool := false
  what : Nat := 0
  deriving DecidableEq, Repr

/-- A word or message that the engine sends (R20, R173, R200, R201, R241, R368, R420): the part that receives it and
what it carries. -/
inductive Msg where
  | spineDone (initiator tid status count : Nat)
  | spineData (initiator tid : Nat) (bytes : List Byte)
  | peer (ctl kind : Nat)
  | draft (part lane epoch : Nat) (keep : Bool) (k v : Nat) (toks : List Nat)
  | mmioRsp (port tag status data : Nat)
  | snpRsp (port addr : Nat)
  | agentGone (port agent : Nat)
  | write (w : Write)
  | read (r : Read)
  | flit (port kind seq : Nat)
  | credit (port vc units : Nat)
  | report (part : Nat) (q : Nat) (sig : Nat)
  | tallyFrame (type fseq : Nat) (payload : List Byte)
  | tallyOut (type fseq : Nat) (payload : List Byte)
  | event (page code : Nat)
  | readBack (page off : Nat) (data : Nat)
  | combo (kind : Nat)
  deriving DecidableEq, Repr

/-- One port's link and message layer (R359 to R369): transmit and receive sequence numbers, the replay buffer (each flit with the message
that starts in it), the clock at which ACKSEQ last advanced or the buffer filled, a NAK that waits for its flit, replays without an
advance, credits, training attempts, the clock of the last entry into DOWN, the next tag, the bytes of a message that is still
arriving, and the messages that wait for credits (with VC and units). -/
structure Port where
  txSeq : Nat := 0
  rxSeq : Nat := 0
  replay : List (Nat × Option Msg) := []
  ackTime : Nat := 0
  nakSent : Bool := false
  replays : Nat := 0
  attempts : Nat := 0
  credits : List Nat := [0, 0, 0, 0]
  sinceDown : Nat := 0
  tag : Nat := 0
  rxBuf : List Byte := []
  txWait : List (Msg × Nat × Nat) := []
  deriving DecidableEq, Repr

/-- A control tile beside its pages: up, its PLL is locked (R22), cached lines, the clock at which it last heard its peer, the newest fault record when FAULT_REC was last
cleared. -/
structure Ctl where
  up : Bool := true
  pll : Bool := false
  cache : List Nat := []
  hbSeen : Nat := 0
  recSeen : Nat := 0
  deriving DecidableEq, Repr

/-! ### Trust, journal and Tally (chapters 16, 17) -/

/-- The states of a firmware slot (R394). -/
inductive SlotSt where
  | empty | staged | trial | active | failed
  deriving DecidableEq, Repr

/-- A key delivery record (R401): its magic, partition, slot and SSB, and its nonce, ciphertext and wrapped key as numbers. -/
structure KeyRecord where
  magic : Nat := 0
  part : Nat := 0
  slot : Nat := 0
  ssb : Nat := 0
  nonce : Nat := 0
  ct : Nat := 0
  wrapped : Nat := 0
  deriving DecidableEq, Repr

/-- A signed object (R387) as its bytes give it: its header fields, its payload, and its bytes up to the payload, its bytes up to the signature, public key
and signature as numbers with the length of the first. -/
structure SignedObj where
  magic : Nat := 0
  type : Nat := 0
  key : Nat := 0
  svn : Nat := 0
  version : Nat := 0
  ifgen : List (Nat × Nat) := []
  payload : List Byte := []
  body : Nat := 0
  bodyLen : Nat := 0
  signed : Nat := 0
  pub : Nat := 0
  sig : Nat := 0
  deriving DecidableEq, Repr

/-- A firmware slot in the NOR (R387, R394): its state and the object's header fields and digest. -/
structure FwSlot where
  st : SlotSt := .empty
  key : Nat := 0
  svn : Nat := 0
  version : Nat := 0
  ifgen : List (Nat × Nat) := []
  digest : Nat := 0
  payload : List (List Nat) := []
  deriving DecidableEq, Repr

/-- The OVERRIDE of the NOR's override area (R393): serial number, the digests of SSB_FW, MCF, TSQ and MSF, masks, its own digest. -/
structure Override where
  serial : Nat := 0
  digests : List Nat := []
  masks : List Nat := []
  digest : Nat := 0
  deriving DecidableEq, Repr

/-- A body of a journal record (R409). -/
inductive Cairn where
  | fault (r : FaultRec) (entries : List (Nat × Nat × Nat))
  | spare (crag standFor : Nat)
  | cal (page ref offsA offsB gainA gainB : Nat)
  | theta (tile base : Nat)
  | lmsRes (block leaf ssb : Nat)
  | lmsRel (block leaf ssb : Nat)
  | slot (kind idx : Nat) (st : SlotSt)
  | counters (boots hours trips : Nat)
  | pwrfail (cause : Nat)
  deriving DecidableEq, Repr

/-- A journal record: SEQ, origin, body, and the sector it lies in. -/
structure JRec where
  seq : Nat := 0
  origin : Nat := 0
  body : Cairn := .pwrfail 0
  sector : Nat := 0
  deriving DecidableEq, Repr

/-- The SPI NOR (R408 to R412, R438, R471): slots, override, port configuration record, the newest snapshot and its area, the records
after it, those that wait, the one being written, the write point, the sectors in use, the abandon table and a compaction's
records and SEQ_LAST. -/
structure Nor where
  slots : Table FwSlot := []
  override : Option Override := none
  portRec : Option (List Byte) := none
  snap : List JRec := []
  snapSeq : Nat := 0
  snapArea : Nat := 0
  log : List JRec := []
  waiting : List JRec := []
  writing : Option JRec := none
  seqNext : Nat := 1
  sector : Nat := 0
  off : Nat := 0
  abandon : List (Nat × Nat) := []
  full : Bool := false
  compact : Option (List JRec × Nat) := none
  torn : Bool := false
  deriving DecidableEq, Repr

/-- The fuses (R2, R5, R389, R413): serial number, grade, suffix, routing-only tiles, revoked keys, key hashes and the
minimum SVN of each kind 0 to 4, the thermal baseline and the VDD_T trim of each tile, the core rail's nominal level of sites and control tiles,
the seed of the device key, and the defective
columns of the arrays by core, array and column (R70). -/
structure Fuses where
  serial : Nat := 1
  grade : Nat := 72
  suffixT : Bool := true
  routing : List Nat := []
  revoked : Nat := 0
  hashes : List Nat := [0, 0, 0, 0]
  svn : List Nat := [0, 0, 0, 0, 0]
  theta : List Nat := List.replicate 72 200
  vnom : List Nat := List.replicate 72 750
  coreNom : Nat := 750
  seed : Nat := 0
  columns : List (Nat × Nat × Nat) := []
  deriving DecidableEq, Repr

/-- Security state of an SSB beside its page (R396 to R402): signing block and leaf, reservation pending, boot count. -/
structure Ssb where
  block : Nat := 0
  leaf : Nat := 0
  hasBlock : Bool := false
  nextBlock : Option Nat := none
  durable : Bool := false
  stopped : Bool := false
  boots : Nat := 0
  deriving DecidableEq, Repr

/-- A record of the Tally's journal (R425): sequence number, kind and contents. -/
structure TallyRec where
  seq : Nat := 0
  kind : Nat := 0
  vals : List Nat := []
  deriving DecidableEq, Repr

/-- A pulse output of the Tally (R423, R424): the mWh measured since the last pulse fell due, the pulses that have fallen due, and the clock
at which the last of them ends, with its gap. -/
structure PulseOut where
  rest : Nat := 0
  total : Nat := 0
  free : Nat := 0
  deriving DecidableEq, Repr

/-- The Tally and the link to it (R415 to R428): whether it is fitted, its energy registers, T_SEC, serial, the module serial it last
received, UNPAIRED, the cover, firmware checksum, version and generation; the next signing index, what is left of its tree and the
trees reserved, the nonce that waits to be signed; its journal and the next record; the next FSEQ
of either direction.  At the engine: the E_IMP of the last share, the clock of the last READING, and the frame buffer.  Last, the test LED,
the pulse output, OVER_IMAX and V_OUT of the last READING in their STATUS bits, and the metrology key hashes and SVN floor of the seal (R426). -/
structure Tally where
  fitted : Bool := true
  eImp : Nat := 0
  eRev : Nat := 0
  tSec : Nat := 0
  serial : Nat := 0
  module : Nat := 0
  unpaired : Bool := false
  sealOpen : Bool := false
  checksum : Nat := 0
  version : Nat := 0
  gen : Nat := 1
  q : Nat := 0
  treeLeft : Nat := 0
  trees : Nat := 0
  queued : Option Nat := none
  log : List TallyRec := []
  logNext : Nat := 0
  fseqTx : Nat := 0
  fseqRx : Nat := 0
  eLast : Option Nat := none
  sinceReading : Nat := 0
  frame : List Byte := []
  led : PulseOut := {}
  pulse : PulseOut := {}
  quality : Nat := 0
  metro : List Nat := [0, 0, 0, 0]
  svnFloor : Nat := 0
  deriving DecidableEq, Repr

/-! ### Faults and refusals of a step -/

/-- Why a step faults.  The manual gives every command of the table an effect or says that it has none, so
no meaning of this model faults; the type has the one reason below for the form of the interface. -/
inductive Fault where
  /-- No meaning of this model raises it (safe). -/
  | unreachable
  deriving DecidableEq, Repr

/-- Why a step is refused. -/
inductive Refusal where
  /-- A command without a meaning in Machine/Dispatch.lean, by its mnemonic (safe: the model stops). -/
  | notModelled (mnemonic : String)
  deriving DecidableEq, Repr

/-! ### The whole engine -/

/-- The engine.  `regs` holds every register field of every page as its bits' difference from the reset value, so that
an empty store is the reset value of all of them; the other tables hold what the pages do not show.  `fresh` is the
model's own counter of free values, not the manual's. -/
structure State where
  regs : Table Word
  clock : Nat
  cores : Table Core
  routers : Table Router
  links : List LinkFlit
  tiles : Table Tile
  crags : Table Crag
  saddles : Table Saddle
  sites : Table Site
  parts : Table Part
  reqs : Table Request
  rmbs : Table Rmb
  sps : Sps
  ports : Table Port
  writes : List Write
  reads : List Read
  ctls : Table Ctl
  ssbs : Table Ssb
  nor : Nor
  fuses : Fuses
  tally : Tally
  faultMap : Table Nat
  faultGen : Nat
  faultLog : List FaultRec
  faultSeq : Nat
  order : Nat
  ms : Nat
  sent : List Msg
  fresh : Nat
  pending : List Instr
  deriving DecidableEq, Repr

/-- The firmware slots as the module leaves the factory (log 2): version 1 of every kind, ACTIVE in slot 0, signed with key 0; the MCF speaks
generation 1 of the Tally's interface, and the manifest lists these versions with every mask open. -/
def factorySlots : Table FwSlot :=
  [(2, { st := .active, version := 1 }), (4, { st := .active, version := 1, ifgen := [(0x0A, 1)] }), (6, { st := .active, version := 1 }),
   (8, { st := .active, version := 1 }),
   (16, { st := .active, version := 1, payload := [List.replicate 8 1 ++ List.replicate 16 0xFFFF] })]

/-- The engine right after reset: no power applied, every register at its reset value, the fuses as manufactured, and
no command waiting (R432, R323).  The fuses' values are this model's (log 2). -/
def State.reset : State where
  regs := []
  clock := 0
  cores := []
  routers := []
  links := []
  tiles := []
  crags := []
  saddles := []
  sites := []
  parts := []
  reqs := []
  rmbs := []
  sps := {}
  ports := []
  writes := []
  reads := []
  ctls := []
  ssbs := []
  nor := { slots := factorySlots }
  fuses := {}
  tally := {}
  faultMap := []
  faultGen := 0
  faultLog := []
  faultSeq := 0
  order := 0
  ms := 0
  sent := []
  fresh := 0
  pending := []

end Sys2Proof.Machine
end

