-- ==== Sys2Proof/Machine/Ops.lean ====
section
/-! DEFINITION. The named operations over registers, partitions, error captures and core memories that every
meaning uses. -/

namespace Sys2Proof.Machine

/-- What a step answers. -/
abbrev Out := Host.Outcome State Fault Refusal

/-! ### Registers -/

/-- A register field's value.  The store holds the difference from the reset value (R451, R9). -/
def State.rd (s : State) (p : Page) (f : Field) : Nat :=
  ((Table.get (0 : Word) s.regs (regKey p f)) ^^^ BitVec.ofNat 32 f.reset).toNat % 2 ^ f.width

/-- Sets a register field to the low bits of `v`: a counter so wraps at its width. -/
def State.wr (s : State) (p : Page) (f : Field) (v : Nat) : State :=
  { s with regs := Table.set 0 s.regs (regKey p f) (BitVec.ofNat 32 (v % 2 ^ f.width) ^^^ BitVec.ofNat 32 f.reset) }

/-- A one-bit field read as a Bool. -/
def State.flag (s : State) (p : Page) (f : Field) : Bool := s.rd p f ≠ 0

/-- Sets a one-bit field. -/
def State.setFlag (s : State) (p : Page) (f : Field) (b : Bool) : State := s.wr p f (b2n b)

/-- Adds to a counter, wrapping at its width. -/
def State.inc (s : State) (p : Page) (f : Field) (n : Nat) : State := s.wr p f (s.rd p f + n)

/-- Raises a recorded maximum. -/
def State.raise (s : State) (p : Page) (f : Field) (v : Nat) : State := if s.rd p f < v then s.wr p f v else s

/-- Returns a field to its reset value. -/
def State.clr (s : State) (p : Page) (f : Field) : State := s.wr p f f.reset

/-- Returns several fields to their reset values. -/
def State.clrAll (s : State) (p : Page) (fs : List Field) : State := fs.foldl (fun s f => s.clr p f) s

/-- A 64-bit value held in two words. -/
def State.rd64 (s : State) (p : Page) (lo hi : Field) : Nat := s.rd p lo + 2 ^ 32 * s.rd p hi

/-- Writes a 64-bit value into two words. -/
def State.wr64 (s : State) (p : Page) (lo hi : Field) (v : Nat) : State := (s.wr p lo v).wr p hi (v / 2 ^ 32)

/-! ### Typed parts -/

/-- Core position `g`. -/
def State.core (s : State) (g : Nat) : Core := Table.get {} s.cores g
/-- Changes core `g`. -/
def State.updCore (s : State) (g : Nat) (f : Core → Core) : State := { s with cores := Table.upd {} s.cores g f }
/-- Router `g`. -/
def State.router (s : State) (g : Nat) : Router := Table.get {} s.routers g
/-- Changes router `g`. -/
def State.updRouter (s : State) (g : Nat) (f : Router → Router) : State :=
  { s with routers := Table.upd {} s.routers g f }
/-- Tile `t`. -/
def State.tile (s : State) (t : Nat) : Tile := Table.get {} s.tiles t
/-- Changes tile `t`. -/
def State.updTile (s : State) (t : Nat) (f : Tile → Tile) : State := { s with tiles := Table.upd {} s.tiles t f }
/-- Crag `y`. -/
def State.crag (s : State) (y : Nat) : Crag := Table.get {} s.crags y
/-- Changes crag `y`. -/
def State.updCrag (s : State) (y : Nat) (f : Crag → Crag) : State := { s with crags := Table.upd {} s.crags y f }
/-- The saddle on edge `e` of tile `t`, keyed by its western or northern tile. -/
def State.saddle (s : State) (k : Nat) : Saddle := Table.get {} s.saddles k
/-- Changes a saddle. -/
def State.updSaddle (s : State) (k : Nat) (f : Saddle → Saddle) : State :=
  { s with saddles := Table.upd {} s.saddles k f }
/-- Site `m`. -/
def State.site (s : State) (m : Nat) : Site := Table.get {} s.sites m
/-- Changes site `m`. -/
def State.updSite (s : State) (m : Nat) (f : Site → Site) : State := { s with sites := Table.upd {} s.sites m f }
/-- Partition `p`. -/
def State.part (s : State) (p : Nat) : Part := Table.get {} s.parts p
/-- Changes partition `p`. -/
def State.updPart (s : State) (p : Nat) (f : Part → Part) : State := { s with parts := Table.upd {} s.parts p f }
/-- The request with handle `h`. -/
def State.req (s : State) (h : Nat) : Request := Table.get {} s.reqs h
/-- Changes request `h`. -/
def State.updReq (s : State) (h : Nat) (f : Request → Request) : State := { s with reqs := Table.upd {} s.reqs h f }
/-- Port `n`. -/
def State.port (s : State) (n : Nat) : Port := Table.get {} s.ports n
/-- Changes port `n`. -/
def State.updPort (s : State) (n : Nat) (f : Port → Port) : State := { s with ports := Table.upd {} s.ports n f }
/-- Control tile `c`. -/
def State.ctl (s : State) (c : Nat) : Ctl := Table.get {} s.ctls c
/-- Changes control tile `c`. -/
def State.updCtl (s : State) (c : Nat) (f : Ctl → Ctl) : State := { s with ctls := Table.upd {} s.ctls c f }
/-- The SSB of control tile `c`. -/
def State.ssb (s : State) (c : Nat) : Ssb := Table.get {} s.ssbs c
/-- Changes an SSB. -/
def State.updSsb (s : State) (c : Nat) (f : Ssb → Ssb) : State := { s with ssbs := Table.upd {} s.ssbs c f }
/-- The rail monitor block of page `pg`. -/
def State.rmbOf (s : State) (pg : Page) : Rmb := Table.get {} s.rmbs pg.id
/-- Changes a rail monitor block. -/
def State.updRmb (s : State) (pg : Page) (f : Rmb → Rmb) : State := { s with rmbs := Table.upd {} s.rmbs pg.id f }
/-- Regulator stack `k` of R336; a stack that nothing has changed has every phase present. -/
def stackPhases (k : Nat) : Nat := if k < 72 then 17 else if k < 88 then 7 else 5
/-- The stack as new: all phases present. -/
def stackNew (k : Nat) : Stack := { ok := 2 ^ stackPhases k - 1 }
/-- Regulator stack `k`: phases are kept as the difference from a complete stack. -/
def State.stack (s : State) (k : Nat) : Stack :=
  let x := Table.get {} s.sps.stackTbl k
  { x with ok := Nat.xor x.ok (stackNew k).ok }
/-- Changes regulator stack `k`. -/
def State.updStack (s : State) (k : Nat) (f : Stack → Stack) : State :=
  let x := f (s.stack k)
  { s with sps := { s.sps with stackTbl := Table.set {} s.sps.stackTbl k { x with ok := Nat.xor x.ok (stackNew k).ok } } }
/-- Counts an admission: the order of R247. -/
def State.nextOrder (s : State) : State := { s with order := s.order + 1 }
/-- Puts the writes to companions that wait. -/
def State.setWrites (s : State) (l : List Write) : State := { s with writes := l }
/-- Puts the reads that wait. -/
def State.setReads (s : State) (l : List Read) : State := { s with reads := l }
/-- Puts the power sequencer. -/
def State.setSps (s : State) (x : Sps) : State := { s with sps := x }
/-- Empties the request table of a partition. -/
def State.dropReqs (s : State) (p : Nat) : State := { s with reqs := s.reqs.filter (fun e => e.2.part ≠ p) }
/-- Puts the flits in flight on links. -/
def State.setLinks (s : State) (l : List LinkFlit) : State := { s with links := l }
/-- Sends a message out of the engine. -/
def State.emit (s : State) (m : Msg) : State := { s with sent := s.sent ++ [m] }
/-- A fresh free value (log 9) and the state with the counter advanced. -/
def State.free (s : State) : Word × State := (Config.freeValue s.fresh, { s with fresh := s.fresh + 1 })

/-! ### Geometry (R8, R12 to R16, R167, R171) -/

/-- The tile of global core `g`. -/
def tileOf (g : Nat) : Nat := g / 256
/-- cx of a core. -/
def cxOf (g : Nat) : Nat := g % 16
/-- cy of a core. -/
def cyOf (g : Nat) : Nat := g % 256 / 16
/-- tx of a tile. -/
def txOf (t : Nat) : Nat := t % 9
/-- ty of a tile. -/
def tyOf (t : Nat) : Nat := t / 9
/-- The global core at (cx, cy) of tile `t`. -/
def coreAt (t cx cy : Nat) : Nat := t * 256 + cy * 16 + cx
/-- The crag index of a core in its tile (R16). -/
def cragIn (g : Nat) : Nat := cyOf g / 4 * 4 + cxOf g / 4
/-- The crag of a core, as tile × 16 + crag index. -/
def cragOf (g : Nat) : Nat := tileOf g * 16 + cragIn g
/-- The crag-local index of a core (R316). -/
def cragLocal (g : Nat) : Nat := cyOf g % 4 * 4 + cxOf g % 4
/-- The core with a crag-local index. -/
def cragCore (y i : Nat) : Nat := coreAt (y / 16) (y % 4 * 4 + i % 4) (y % 16 / 4 * 4 + i / 4)
/-- The parity core of a crag (R16). -/
def parityCore (y : Nat) : Nat := cragCore y 15
/-- The hot spare of a crag (R16). -/
def spareCore (y : Nat) : Nat := cragCore y 11
/-- The register page of crag `y`. -/
def cragPage (y : Nat) : Page := .crag (y / 16) (y % 16)
/-- The site of the west edge of a row is `k`, of the east edge `8 + k` (R13): its edge tile. -/
def siteTile (m : Nat) : Nat := if m < 8 then m * 9 else (m - 8) * 9 + 8
/-- The site attached to a tile, if any (R13). -/
def tileSite (t : Nat) : Option Nat := if txOf t = 0 then some (tyOf t) else if txOf t = 8 then some (8 + tyOf t) else none
/-- The neighbouring tile across edge 0 N, 1 E, 2 S, 3 W (R14). -/
def neighbour (t e : Nat) : Option Nat :=
  match e with
  | 0 => if 9 ≤ t then some (t - 9) else none
  | 1 => if txOf t < 8 then some (t + 1) else none
  | 2 => if tyOf t < 7 then some (t + 9) else none
  | 3 => if 0 < txOf t then some (t - 1) else none
  | _ => none
/-- The key of the saddle on an edge: that of its east or south end. -/
def saddleKey (t e : Nat) : Nat :=
  match e with
  | 1 => t * 2 | 2 => t * 2 + 1
  | 3 => (t - 1) * 2 | _ => (t - 9) * 2 + 1
/-- The attach positions of the logical channels of a saddle (R167). -/
def attachPos (c : Nat) : Nat := (16 * c + 8) / 6
/-- The logical channel that attaches at an edge position, if any. -/
def channelAt (pos : Nat) : Option Nat := (List.range 6).find? (fun c => attachPos c = pos)

/-! ### Partitions -/

/-- The partition a tile belongs to: PART_ID of its routers (R176, R442). -/
def State.tilePart (s : State) (t : Nat) : Option Nat :=
  let v := s.rd (.mesh t) mesh.PART_ID
  if v < 12 then some v else none
/-- The partition a site serves: PART_ID of its edge tile (R187, R203). -/
def State.sitePart (s : State) (m : Nat) : Option Nat :=
  let v := s.rd (.msite m) msite.PART_ID
  if v < 12 then some v else none
/-- The partition of a core. -/
def State.corePart (s : State) (g : Nat) : Option Nat := s.tilePart (tileOf g)
/-- STATE of a partition (R440): 0 OFF, 1 STARTING, 2 ON, 3 DRAINING, 4 FAULTED. -/
def State.pstate (s : State) (p : Nat) : Nat := s.rd (.tickgen p) page.STATE
/-- Whether a tile lies in a partition whose STATE is not OFF. -/
def State.tileBusy (s : State) (t : Nat) : Bool :=
  match s.tilePart t with
  | none => false
  | some p => s.pstate p ≠ 0
/-- The primary control tile of a partition (R18), the other after a role swap (R406), and after a takeover the survivor (R304). -/
def State.primary (s : State) (p : Nat) : Nat :=
  let home := if p < 6 then 0 else 1
  match s.sps.fenced with
  | some d => 1 - d
  | none => if s.flag (.tickgen p) tickgen.MIRROR_ACT then 1 - home else home
/-- The partition a page belongs to, for the time stamp of R453. -/
def State.pagePart (s : State) (p : Page) : Option Nat :=
  match p with
  | .tileGlb t | .mesh t | .saddle t _ | .crag t _ | .coreWin t | .rmbTile t | .therm t | .slab t => s.tilePart t
  | .core g => s.corePart g
  | .msite m | .xts m | .mchan m _ | .rmbSite m => s.sitePart m
  | .tickgen p | .packer p | .adm p | .spur p | .cohc p => some p
  | _ => none
/-- The physical cores that run step programs in a partition, as its image places them. -/
def State.usedCores (s : State) (p : Nat) : List Nat :=
  match (s.part p).image with
  | none => []
  | some im => im.regions.flatMap (·.cores)
/-- The period of a partition in cycles (R26). -/
def State.periodOf (s : State) (p : Nat) : Nat := s.rd (.tickgen p) tickgen.PERIOD * 8
/-- The tick length under stretch k (R38). -/
def tickLen (per k : Nat) : Nat := per + k * (per / 64)

/-- Whether wall cycle `w` of a tick of period `per` under stretch k is a hold cycle: k follow every full block of 64
schedule cycles (R38). -/
def holdCycle (per k w : Nat) : Bool := w < per / 64 * (64 + k) && 64 ≤ w % (64 + k)
/-- Whether the parts of R38 take a step in partition `p` now: its generator runs, and it is no hold cycle. -/
def State.steps (s : State) (p : Nat) : Bool :=
  (s.part p).phase = .running && !holdCycle (s.periodOf p) (s.part p).stretch (s.part p).wall

/-- This cycle of a running tick is a hold cycle: the partition's routers and its sides of the saddles take no step (R38). -/
def State.inHoldCycle (s : State) (p : Nat) : Bool :=
  decide ((s.part p).phase = .running) && holdCycle (s.periodOf p) (s.part p).stretch (s.part p).wall

/-! ### Error events (R453) -/

/-- Stamps ERR_TICK: the tick of the page's partition, or the microseconds since POWER_GOOD. -/
def State.stamp (s : State) (p : Page) : State :=
  match s.pagePart p with
  | some q => ((s.wr p page.ERR_TICK_LO (s.part q).tick).wr p page.ERR_TICK_HI ((s.part q).tick / 2 ^ 32)).setFlag p
      page.TICK_SRC false
  | none => ((s.wr p page.ERR_TICK_LO s.sps.micros).wr p page.ERR_TICK_HI (s.sps.micros / 2 ^ 32)).setFlag p
      page.TICK_SRC true

/-- ERR_STAT as it reads: LINK_LOST stays 1 while the partition is link-lost (R386). -/
def State.errStat (s : State) (p : Page) : Nat :=
  match p with
  | .cohc q => if (s.part q).lost then Nat.lor (s.rd p page.ERR_STAT) 4 else s.rd p page.ERR_STAT
  | _ => s.rd p page.ERR_STAT

/-- A page raises its summary while an unmasked error bit is 1 (R461). -/
def State.summary (s : State) (p : Page) : Bool := Nat.land (s.errStat p) (Nat.xor (s.rd p page.ERR_MASK) 0xFFFFFFFF) ≠ 0

/-- A change of page `p`; a change of its summary is reported as a platform event with the page's number (R461). -/
def State.noting (s : State) (p : Page) (f : State → State) : State :=
  let t := f s
  if t.summary p = s.summary p then t else t.emit (.event p.id (b2n (t.summary p)))

/-- The hardware sets bit `b` of a W1C field in this clock cycle (R11). -/
def State.hwSet (s : State) (p : Page) (f : Field) (b : Nat) : State := s.wr64 p (f.setLo b) (f.setHi b) (s.clock + 1)

/-- The hardware has set bit `b` of a field in this clock cycle: a W1C of the same cycle leaves it 1 (R11). -/
def State.setNow (s : State) (p : Page) (f : Field) (b : Nat) : Bool := s.rd64 p (f.setLo b) (f.setHi b) = s.clock + 1

/-- The hardware sets a W1C flag. -/
def State.raiseFlag (s : State) (p : Page) (f : Field) : State := (s.hwSet p f 0).setFlag p f true

/-- Captures an unmasked error event, or counts it after the capture (R453). -/
def State.capture (s : State) (p : Page) (b : Nat) (inj : Bool) : State :=
  if s.flag p page.FIRST_VALID then
    s.wr p page.FIRST_MORE (min (s.rd p page.FIRST_MORE + 1) 0xFFFF)
  else (((s.raiseFlag p page.FIRST_VALID).wr p page.FIRST_BIT b).setFlag p page.FIRST_INJ inj).stamp p

/-- An error event: sets the ERR_STAT bit; an unmasked one is captured or counted. -/
def State.err (s : State) (p : Page) (b : Nat) (inj : Bool := false) : State :=
  let st := s.rd p page.ERR_STAT
  let s := s.hwSet p page.ERR_STAT b
  let s := s.noting p (fun s => if bit st b then s else s.wr p page.ERR_STAT (st + 2 ^ b))
  if bit (s.rd p page.ERR_MASK) b then s else s.capture p b inj

/-- Several error events in one cycle, the lowest bit first (R453). -/
def State.errs (s : State) (p : Page) (bits : List Nat) (inj : Bool := false) : State :=
  bits.foldl (fun s b => s.err p b inj) s

/-! ### Core memories (R59, R125, R134, R235) -/

/-- The areas of a core's address space. -/
inductive Area where
  | localStore | inputBuf | slabArea | reserved
  deriving DecidableEq, Repr

/-- The area of an address (R59). -/
def areaOf (a : Nat) : Area :=
  if a < 0x0C0000 then .localStore else if a < 0x0C8000 then .inputBuf
  else if 0x800000 ≤ a ∧ a < 0x1000000 then .slabArea else .reserved

/-- The end of an area. -/
def areaEnd : Area → Nat
  | .localStore => 0x0C0000 | .inputBuf => 0x0C8000 | .slabArea => 0x1000000 | .reserved => 0

/-- An operand range of `n` bytes that lies whole in the area in which it starts, which is one of `ok` (R59). -/
def rangeOk (ok : List Area) (a n : Nat) : Bool := ok.contains (areaOf a) && a + n ≤ areaEnd (areaOf a)

/-- The bank of a local store address (R72). -/
def bankOf (a : Nat) : Nat := a / 32 % 64

/-- The local store or the read half of the input double-buffer. -/
def lsOrBuf : List Area := [.localStore, .inputBuf]

/-- The slot area of the input double-buffer that an address lies in. -/
def bufSlot (a : Nat) : Nat := (a - 0x0C0000) / 0x2000

/-- What a byte of the core's memory reads that nothing has written (log 3), or nothing since the local store was last lost (R60; log
59). -/
def Core.blank (c : Core) (a : Nat) : Byte := if c.lost ≠ 0 ∧ a < 0x0C0000 then Config.lostByte c.lost a else 0

/-- One byte as the core reads it: the local store, the slab, or the read half of the input double-buffer. -/
def Core.byte (c : Core) (a : Nat) : Byte :=
  if areaOf a = .inputBuf then
    (if c.readB1.getD (bufSlot a) false then Mem.byte c.bank1 (a - 0x0C0000) else Mem.byte c.bank0 (a - 0x0C0000))
  else Mem.byte c.mem a ^^^ c.blank a

/-- `n` bytes as the core reads them. -/
def Core.read (c : Core) (a : Nat) : Nat → List Byte
  | 0 => []
  | n + 1 => c.byte a :: c.read (a + 1) n

/-- One byte as a window sees it: the receive half in place of the read half (R135). -/
def Core.recvByte (c : Core) (a : Nat) : Byte :=
  if areaOf a = .inputBuf then
    (if c.readB1.getD (bufSlot a) false then Mem.byte c.bank0 (a - 0x0C0000) else Mem.byte c.bank1 (a - 0x0C0000))
  else Mem.byte c.mem a ^^^ c.blank a

/-- `n` bytes as a window sees them. -/
def Core.recv (c : Core) (a : Nat) : Nat → List Byte
  | 0 => []
  | n + 1 => c.recvByte a :: c.recv (a + 1) n

/-- Writes one byte where a window or a unit writes: the receive half of the input double-buffer (R59, R134). -/
def Core.setByte (c : Core) (a : Nat) (b : Byte) : Core :=
  if areaOf a = .inputBuf then
    (if c.readB1.getD (bufSlot a) false then { c with bank0 := Mem.setByte c.bank0 (a - 0x0C0000) b }
     else { c with bank1 := Mem.setByte c.bank1 (a - 0x0C0000) b })
  else { c with mem := Mem.setByte c.mem a (b ^^^ c.blank a) }

/-- Writes bytes from `a` upward. -/
def Core.write (c : Core) (a : Nat) : List Byte → Core
  | [] => c
  | b :: bs => (c.setByte a b).write (a + 1) bs

/-- The bytewise exclusive OR of two byte lists. -/
def xorBytes : List Byte → List Byte → List Byte
  | x :: xs, y :: ys => (x ^^^ y) :: xorBytes xs ys
  | _, _ => []

/-- The 4 KiB blocks that `n` bytes from slab address `a` touch (R229). -/
def blocksOf (a n : Nat) : List Nat :=
  let b0 := (a - 0x800000) / 4096
  (List.range ((a - 0x800000 + n - 1) / 4096 + 1 - b0)).map (· + b0)

/-- Adds elements to a set kept as a list without repeats. -/
def addSet (l xs : List Nat) : List Nat := xs.foldl (fun l x => if l.contains x then l else l ++ [x]) l

/-- The slab of a routing-only tile holds no data (R4). -/
def State.slabDead (s : State) (g : Nat) : Bool := s.fuses.routing.contains (tileOf g)

/-- A write to a core's memory.  A slab write is performed together with its XOR delta, which goes out on the crag bus
(R125), and marks the dirty map when it is armed (R229).  The parity slab itself sends no delta, and the slab of a routing-only tile takes
nothing (R4). -/
def State.memWrite (s : State) (g a : Nat) (bs : List Byte) : State :=
  if areaOf a = .slabArea ∧ bs ≠ [] then
    if s.slabDead g then s else
    let old := (s.core g).recv a bs.length
    let s := s.updCore g (fun c =>
      let c := { c.write a bs with slabAt := some s.clock }
      if c.armed then { c with dirty := addSet c.dirty (blocksOf a bs.length) } else c)
    if cragLocal g = 15 then s else
    (s.updCrag (cragOf g) (fun y => { y with deltas := y.deltas ++ [⟨g, a, xorBytes old bs, s.clock⟩] })).setFlag
      (cragPage (cragOf g)) crag.BUS_IDLE false
  else s.updCore g (fun c => c.write a bs)

/-! ### Step errors (R75) -/

/-- The step error codes of R75. -/
inductive StepCode where
  | overrun | sendMiss | illegal | addr | arrayOff | wregParity | lsUe | slabUe | queue
  deriving DecidableEq, Repr

/-- A code's number (R75). -/
def StepCode.num : StepCode → Nat
  | .overrun => 1 | .sendMiss => 2 | .illegal => 3 | .addr => 4 | .arrayOff => 5
  | .wregParity => 6 | .lsUe => 7 | .slabUe => 8 | .queue => 9

/-- A step error of core `g`: the first of the tick is kept, later ones are ignored (R75); the sequencer stops (R79,
log 11).  SEND_MISS also counts.  ERR_CMD of an error that no queued command caused is 0 (DESIGN CHOICE; log 83). -/
def State.stepErr (s : State) (g : Nat) (code : StepCode) (cmd : Nat := 0) : State :=
  let s := if code = .sendMiss then s.inc (.core g) core.SEND_MISS_CNT 1 else s
  match (s.core g).err with
  | some _ => s
  | none =>
    let pt := s.part ((s.corePart g).getD 0)
    (s.updCore g (fun c => { c with err := some ⟨code.num, cmd, pt.cyc, pt.tick % 256, false⟩ })).wr (.core g)
      core.SEQ_STATE 3

/-- Whether partition `p` is in the body of a running tick (R27, R28): cycles 12 to P − 109, once the hold mask of cycle 11 has come
(R45, R74). -/
def State.inBody (s : State) (p : Nat) : Bool :=
  let pt := s.part p
  s.steps p && pt.finalDone && (12 ≤ pt.cyc) && (pt.cyc + 109 ≤ s.periodOf p) && !pt.bodyDone

/-- The key of an entry of the fault map: kind 1 core, 2 saddle channel, 3 stack channel, 4 phase, 5 tile, 6 site, 7 control tile, 8 to 10
array column, 11 routing-only tile, and its index. -/
def mapKey (kind i : Nat) : Nat := kind * 2 ^ 20 + i

/-- The entry of a defective column, as (core, array, column): its kind, index and state (R70). -/
def columnEnt (e : Nat × Nat × Nat) : Nat × Nat × Nat := (8, (e.1 * 4 + e.2.1) * 33 + e.2.2, 1)

/-- The state of an entry of the fault map: 0 good. -/
def State.mapped (s : State) (kind i : Nat) : Nat := Table.get 0 s.faultMap (mapKey kind i)

/-- A functional tile: not routing-only by its fuses and not down (R5, R214). -/
def State.functional (s : State) (t : Nat) : Bool := s.mapped 5 t = 0 && !s.fuses.routing.contains t

/-- The slab bytes of a memory. -/
def slabBytes (m : Mem) : Mem := m.filter (fun e => decide (0x800000 ≤ e.1))

/-- The local store is lost (R60), with a number of its own for each core and loss; the slab stays. -/
def Core.loseStore (c : Core) (n g : Nat) : Core := { c with mem := slabBytes c.mem, lost := n * 32768 + g + 1 }

/-- The local stores of the cores `l` are lost. -/
def State.loseCores (s : State) (l : List Nat) : State :=
  let n := s.fresh
  (l.foldl (fun s g => if s.core g = {} then s else s.updCore g (fun c => c.loseStore n g)) s).free.2

/-- The compute side of a tile goes on or off, and the neighbouring saddles show it (R170, R181, R312, R324).  Opening the switches loses
what the compute die's local stores hold. -/
def State.setCompute (s : State) (t : Nat) (on : Bool) : State :=
  let s := if on || !s.flag (.therm t) therm.COMPUTE_ON then s else s.loseCores ((List.range 256).map (· + 256 * t))
  (List.range 4).foldl (fun s e => match neighbour t e with
    | some u => s.setFlag (.saddle u ((e + 2) % 4)) saddle.PEER_COMPUTE_DOWN (!on)
    | none => s) (s.setFlag (.therm t) therm.COMPUTE_ON on)

/-- The role that a core kept which was found dead in this tick: ROLE changes at a boundary only (R79). -/
def State.keptRole (s : State) (g : Nat) : Option Nat :=
  (s.corePart g).bind (fun p => ((s.part p).roleKeep.find? (fun e => e.1 = g)).map (·.2))

/-- A data core of the crag is dead in the fault map, and no repair has moved its identity away: the spare serves for it (R215, R216). -/
def State.spareDue (s : State) (y : Nat) : Bool :=
  ((List.range 16).map (cragCore y)).any (fun g => cragLocal g ≠ 11 && cragLocal g ≠ 15 && s.mapped 1 g ≠ 0 &&
    !((s.tilePart (tileOf g)).bind (fun p => (s.part p).image)).any (fun im => im.moved.any (fun e => e.1 + (im.oy * 9 + im.ox) * 256 = g)))

/-- ROLE by position and the fault map (R79, R216): 3 while off, on a tile that computes nothing, or dead; else 1 for a parity position, 2 for
a spare that serves for no dead core, and 0 for every other. -/
def State.roleNow (s : State) (g : Nat) : Nat :=
  if !s.flag .sps sps.POWER_GOOD || !s.functional (tileOf g) || s.mapped 1 g ≠ 0 || (s.core g).faulty then 3
  else if cragLocal g = 15 then 1
  else if cragLocal g = 11 && s.rd (cragPage (cragOf g)) crag.STAND_FOR = 15 && !s.spareDue (cragOf g) then 2
  else 0

/-- ROLE of a core position: what it was at the last boundary, for a core found dead since (R79). -/
def State.roleOf (s : State) (g : Nat) : Nat := (s.keptRole g).getD (s.roleNow g)

/-- Keeps the ROLE of a core of partition `p` until the next boundary. -/
def State.keepRole (s : State) (p g : Nat) : State :=
  let r := s.roleOf g
  s.updPart p (fun x => { x with roleKeep := x.roleKeep ++ [(g, r)] })

/-- A partition whose generator runs a tick. -/
def State.running (s : State) (p : Nat) : Bool := (s.part p).phase = .running

end Sys2Proof.Machine
end

