-- ==== Sys2Proof/Machine/Operands.lean ====
section
/-! DEFINITION. The fields of the 128-bit command word (R76 to R78, R115, R120, R122, R136, R159) and of the
slot and route table entries (R155, R156), flit headers and payload layouts (R113, R163, R172, R200). -/

namespace Sys2Proof.Machine

/-- OP [127:120] (R76). -/
def cOp (w : Nat) : Nat := bits w 120 8
/-- AT [119:104]. -/
def cAt (w : Nat) : Nat := bits w 104 16
/-- SLOT [103:102]. -/
def cSlot (w : Nat) : Nat := bits w 102 2
/-- C_BOOKED [101]. -/
def cBooked (w : Nat) : Bool := bit w 101
/-- C_WIDEN [100]. -/
def cWiden (w : Nat) : Bool := bit w 100
/-- C_RUN [99]. -/
def cRun (w : Nat) : Bool := bit w 99
/-- ALL [98]. -/
def cAll (w : Nat) : Bool := bit w 98
/-- F[96]: ACC of a pass, CLEAR of a drain (R77). -/
def cF (w : Nat) : Bool := bit w 96
/-- A [95:72]. -/
def cA (w : Nat) : Nat := bits w 72 24
/-- B [71:48]. -/
def cB (w : Nat) : Nat := bits w 48 24
/-- LEN [47:32]. -/
def cLen (w : Nat) : Nat := bits w 32 16
/-- The specific field [31:0]. -/
def cSpec (w : Nat) : Nat := bits w 0 32
/-- The destination [31:8] of the wide-unit commands. -/
def cDst (w : Nat) : Nat := bits w 8 24
/-- NBLK [47:37] (R77). -/
def cNblk (w : Nat) : Nat := bits w 37 11
/-- ASTRIDE or OSTRIDE [36:26], in units of 16 bytes. -/
def cStride (w : Nat) : Nat := bits w 26 11
/-- ARRAYS [25:22]. -/
def cArrays (w : Nat) : Nat := bits w 22 4
/-- LFA0 [21:14]. -/
def cLfa0 (w : Nat) : Nat := bits w 14 8
/-- NV [13:6] + 1. -/
def cNv (w : Nat) : Nat := bits w 6 8 + 1
/-- AFMT [5:4]. -/
def cAfmt (w : Nat) : Nat := bits w 4 2
/-- WFMT or OFMT [3:1]. -/
def cFmt (w : Nat) : Nat := bits w 1 3
/-- WSRC or KV [0]. -/
def cLow (w : Nat) : Bool := bit w 0

/-- The four arrays that a mask selects, in ascending order. -/
def arraysOf (mask : Nat) : List Nat := (List.range 4).filter (bit mask)

/-- The weight format of WFMT (R77). -/
def weightFmt : Nat → Option Fmt
  | 0 => some .mxfp4 | 1 => some .mxfp8 | 2 => some .mxint8 | 3 => some .kt3 | 4 => some .kt2 | _ => none

/-- The activation format of AFMT (R77, R82). -/
def actFmt (a8 : Bool) : Fmt := if a8 then .mxfp8 else .mxfp4

/-- Bytes of one array's section of the weight stream (R83). -/
def sectionBytes : Fmt → Nat
  | .mxfp4 => 544 | .mxfp8 => 1056 | .mxint8 => 1056 | .kt3 => 448 | .kt2 => 288

/-- S of R65: bytes per input block for all four arrays. -/
def streamBytes (f : Fmt) : Nat := 4 * sectionBytes f

/-- Twice p of R65: cycles per block per vector. -/
def twiceP (f : Fmt) (a8 : Bool) : Nat :=
  let base := match f with
    | .mxfp8 => 4 | .mxint8 => 4 | .kt2 => 1 | _ => 2
  if a8 then 2 * base else base

/-- Bytes of an activation block (R82). -/
def actBytes (a8 : Bool) : Nat := if a8 then 33 else 17

/-! ### Slot and route tables -/

/-- CYCLE [31:16] of a slot entry (R156). -/
def slCycle (e : Nat) : Nat := bits e 16 16
/-- OUT [15:13]. -/
def slOut (e : Nat) : Nat := bits e 13 3
/-- IN [12:10]. -/
def slIn (e : Nat) : Nat := bits e 10 3
/-- LABEL [9:2]. -/
def slLabel (e : Nat) : Nat := bits e 2 8

/-- OUT_MASK of a route entry (R155). -/
def rtMask (e : Nat) : Nat := bits e 0 7
/-- OUT_LABEL. -/
def rtOutLabel (e : Nat) : Nat := bits e 7 8
/-- RED_K. -/
def rtRedK (e : Nat) : Nat := bits e 15 3
/-- RCTX. -/
def rtRctx (e : Nat) : Nat := bits e 18 4
/-- WID. -/
def rtWid (e : Nat) : Nat := bits e 22 6
/-- The semaphore of a SIGNAL entry: bits [26:22]. -/
def rtSid (e : Nat) : Nat := bits e 22 5
/-- VALID. -/
def rtValid (e : Nat) : Bool := bit e 31
/-- OFF0 (word 1). -/
def rtOff0 (e : Nat) : Nat := bits e 32 16
/-- STRIDE (word 1). -/
def rtStride (e : Nat) : Nat := bits e 48 8
/-- SRC (word 2). -/
def rtSrc (e : Nat) : Nat := bits e 64 15

/-- The ports of a mask in ascending order. -/
def portsOf (mask : Nat) : List Nat := (List.range 7).filter (bit mask)

/-- The core's port (R151). -/
def portL : Nat := 4

/-- The class of an arrival by its stamp (R31): d as a signed value, and the cycle. -/
inductive Arrival where
  | onTime | grace | late | early | stampError
  deriving DecidableEq, Repr

/-- Classifies a stamp against the current tick and cycle (R31). -/
def classify (stamp tick cyc : Nat) : Arrival :=
  let d := (stamp + 256 - tick % 256) % 256
  if d = 0 then .onTime
  else if d = 1 then .early
  else if d < 128 then .stampError
  else if d = 255 ∧ cyc ≤ 11 then .grace
  else .late

/-! ### Payload layouts -/

/-- The TID of a BULK, MEM_REQ or MEM_DATA flit: header bits [15:0] (R153, R200). -/
def Flit.tid (f : Flit) : Nat := f.lane * 256 + f.route
/-- The address word of a BULK flit: payload bytes 24 to 31 (R172). -/
def Flit.bulkWord (f : Flit) : Nat := leNat (f.payload.drop 24)
/-- Destination core of a BULK flit. -/
def Flit.bulkDst (f : Flit) : Nat := bits f.bulkWord 0 15
/-- LAST of a BULK flit. -/
def Flit.bulkLast (f : Flit) : Bool := bit f.bulkWord 15
/-- Slab offset of a BULK flit, in bytes. -/
def Flit.bulkOff (f : Flit) : Nat := bits f.bulkWord 16 20 * 8

/-- A BULK flit (R172): 24 bytes of data for a slab offset of a core. -/
def bulkFlit (part stamp tid core off seq : Nat) (last : Bool) (data : List Byte) : Flit :=
  { part := part, stamp := stamp, op := 8, lane := tid / 256 % 256, route := tid % 256,
    payload := (data ++ List.replicate (24 - data.length) 0) ++
      leBytes 8 (core + 2 ^ 15 * b2n last + 2 ^ 16 * (off / 8) + 2 ^ 36 * (seq % 4096)) }

/-- The MEM_REQ flit of an export (R200). -/
def memReqFlit (part stamp : Nat) (d : ExportDesc) : Flit :=
  { part := part, stamp := stamp, op := 9, lane := d.tid / 256 % 256, route := d.tid % 256,
    payload := leBytes 2 d.tid ++ [BitVec.ofNat 8 d.site, BitVec.ofNat 8 d.region] ++ leBytes 4 d.offset ++
      leBytes 2 (d.nflit - 1) ++ List.replicate 22 0 }

/-- The descriptor flit of an append (R163). -/
def appendHead (pos head : Nat) (isV : Bool) (scale : Nat) : List Byte :=
  leBytes 4 pos ++ [BitVec.ofNat 8 (head + 8 * b2n isV), BitVec.ofNat 8 scale] ++ List.replicate 26 0

/-- A page-map entry's key: LANE, LAYER and PAGE (R111). -/
def pmKey (e : Nat) : Nat := bits e 32 31
/-- The key of LANE, LAYER and PAGE. -/
def pmKeyOf (lane layer page : Nat) : Nat := lane * 2 ^ 23 + layer * 2 ^ 14 + page
/-- HEADS − 1 of an entry. -/
def pmHeads (e : Nat) : Nat := bits e 29 3 + 1
/-- The slab address of a page-map entry: ADDR holds slab address bits [22:6] (R111). -/
def pmAddr (e : Nat) : Nat := 0x800000 + bits e 0 17 * 64
/-- A page-map entry. -/
def pmEntry (lane layer page heads : Nat) (ring : Bool) (addr : Nat) : Nat :=
  2 ^ 63 + pmKeyOf lane layer page * 2 ^ 32 + (heads - 1) * 2 ^ 29 + b2n ring * 2 ^ 28 + (addr - 0x800000) / 64 % 2 ^ 17
/-- The page stride: H × 16,384 + 64 bytes (R104). -/
def pageStride (heads : Nat) : Nat := heads * 16384 + 64

/-! ### Lane directories (R110) -/

/-- SHARDS of a directory. -/
def dirShards (c : Core) (d : Nat) : Nat := (c.byte d).toNat
/-- SHARD_IDX. -/
def dirIdx (c : Core) (d : Nat) : Nat := (c.byte (d + 1)).toNat
/-- The window w in positions; 0 for a global layer. -/
def dirWindow (c : Core) (d : Nat) : Nat := leNat (c.read (d + 2) 2) * 64
/-- The address of lane λ's entry. -/
def dirEntry (d lane : Nat) : Nat := d + 32 + 32 * lane
/-- OWN. -/
def dirOwn (c : Core) (d lane : Nat) : Bool := bit (c.byte (dirEntry d lane)).toNat 0
/-- WP. -/
def dirWp (c : Core) (d lane : Nat) : Nat := leNat (c.read (dirEntry d lane + 4) 4)
/-- CP. -/
def dirCp (c : Core) (d lane : Nat) : Nat := leNat (c.read (dirEntry d lane + 8) 4)
/-- BASE. -/
def dirBase (c : Core) (d lane : Nat) : Nat := leNat (c.read (dirEntry d lane + 12) 4)
/-- NPAGES. -/
def dirPages (c : Core) (d lane : Nat) : Nat := leNat (c.read (dirEntry d lane + 16) 2)

end Sys2Proof.Machine
end

