-- ==== Sys2Proof/Machine/Sequencer.lean ====
section
/-! DEFINITION. The command sequencer: when the oldest command issues, how it completes and retires, and the
commands of the sequencer itself (R73 to R78). -/

namespace Sys2Proof.Machine

/-- The units of R78. -/
inductive Unit4 where
  | array | attention | wide | send | sync | sequencer
  deriving DecidableEq, Repr

/-- The unit of an opcode; none for an undefined one (R78). -/
def unitOf (op : Nat) : Option Unit4 :=
  if op ≤ 0x04 ∨ op = 0x60 ∨ op = 0x61 ∨ op = 0x62 then some .array
  else if 0x10 ≤ op ∧ op ≤ 0x12 then some .attention
  else if 0x20 ≤ op ∧ op ≤ 0x2C then some .wide
  else if 0x30 ≤ op ∧ op ≤ 0x33 then some .send
  else if (0x40 ≤ op ∧ op ≤ 0x42) ∨ op = 0x50 ∨ op = 0x51 then some .sync
  else if op = 0x70 ∨ op = 0x71 ∨ (0x80 ≤ op ∧ op ≤ 0x82) ∨ op = 0xF0 then some .sequencer
  else none

/-- A command that has completed by schedule cycle `cyc`. -/
def CmdEntry.done (e : CmdEntry) (cyc : Nat) : Bool :=
  match e.doneAt with
  | some d => d ≤ cyc
  | none => false

/-- The oldest unissued command. -/
def Core.oldest (c : Core) : Option CmdEntry := c.queue.find? (fun e => !e.issued)

/-- The slot a command belongs to. -/
def Core.slotOf (c : Core) (w : Nat) : Slot := c.slots.getD (cSlot w) {}

/-- Whether the command's COND bits select its slot's state, or ALL is set (R74). -/
def Core.selected (c : Core) (w : Nat) : Bool :=
  cAll w || (match (c.slotOf w).state with
    | .run => cRun w
    | .widen => cWiden w
    | .booked => cBooked w
    | _ => false)

/-- Whether a unit accepts a command in cycle `cyc` (R65, R71, R115, R160). -/
def Core.accepts (c : Core) (u : Unit4) (cyc : Nat) : Bool :=
  let waits (v : Unit4) : Bool := c.queue.any (fun e => e.wait && (unitOf (cOp e.word) = some v))
  match u with
  | .array => c.arrayFree ≤ cyc && !waits .array
  | .attention => c.attFree ≤ cyc && !waits .attention
  | .wide => c.wideFree ≤ cyc && !waits .wide
  | .send => c.send = none
  | _ => true

/-- No earlier barrier command is pending (R74). -/
def Core.noBarrier (c : Core) (cyc : Nat) : Bool := c.queue.all (fun e => !(e.issued && e.barrier && !e.done cyc))

/-- A core whose sequencer runs in the body of its partition's tick (R28, R73): a data core that is alive and not gated. -/
def State.coreRuns (s : State) (g : Nat) : Bool :=
  match s.corePart g with
  | none => false
  | some p => s.inBody p && s.roleOf g = 0 && s.rd (.core g) core.SEQ_STATE = 1 &&
      (s.core g).alive && !(s.core g).gated

/-- The schedule cycle of the core's partition. -/
def State.cycOf (s : State) (g : Nat) : Nat := (s.part ((s.corePart g).getD 0)).cyc

/-- The oldest command, when nothing but its unit and its opcode may keep it from issuing this cycle (R74). -/
def State.issuable (s : State) (g : Nat) : Option CmdEntry :=
  let c := s.core g
  let cyc := s.cycOf g
  match c.oldest with
  | none => none
  | some e =>
    if s.coreRuns g && c.issuedAt ≠ some cyc && c.selected e.word && cAt e.word ≤ cyc && c.noBarrier cyc then some e
    else none

/-- Replaces a queue entry by its index. -/
def Core.setEntry (c : Core) (idx : Nat) (f : CmdEntry → CmdEntry) : Core :=
  { c with queue := c.queue.map (fun e => if e.idx = idx then f e else e) }

/-- Marks a command issued and done at schedule cycle `d`. -/
def State.finishAt (s : State) (g idx d : Nat) : State :=
  s.updCore g (fun c => c.setEntry idx (fun e => { e with issued := true, wait := false, doneAt := some d }))

/-- Marks a command issued and not yet done. -/
def State.issueOpen (s : State) (g idx : Nat) (barrier wait : Bool) (u : Upset := .none) : State :=
  s.updCore g (fun c => c.setEntry idx (fun e =>
    { e with issued := true, barrier := barrier, wait := wait, upset := u }))

/-- What the hardware found while a command ran (R62, R72, R75): counted, or a step error; the flag says whether the command
still has its effect. -/
def State.upset (s : State) (g : Nat) (idx : Nat) : Upset → State × Bool
  | .none => (s, true)
  | .lsCorr => (s.inc (.core g) core.LS_ECC_CORR 1, true)
  | .slabCorr => (s.inc (.core g) core.SLAB_ECC_CORR 1, true)
  | .wregParity =>
    (((s.inc (.core g) core.WREG_PAR_CNT 1).err (.coreWin (tileOf g)) 2).stepErr g .wregParity idx, false)
  | .lsUe => ((s.err (.coreWin (tileOf g)) 3).stepErr g .lsUe idx, false)
  | .slabUe => ((s.err (.coreWin (tileOf g)) 3).stepErr g .slabUe idx, false)

/-- Issues the oldest command of core `g` if its opcode is `op` and R74 lets it issue now, and runs `run` on it. -/
def State.issue (s : State) (g op : Nat) (u : Upset) (run : CmdEntry → State → State) : State :=
  match s.issuable g, unitOf op with
  | some e, some un =>
    if cOp e.word = op ∧ (s.core g).accepts un (s.cycOf g) then
      let s := s.updCore g (fun c => { c with issuedAt := some (s.cycOf g) })
      match s.upset g e.idx u with
      | (s, true) => run e s
      | (s, false) => s.issueOpen g e.idx false false
    else s
  | _, _ => s

/-- A command that fails: issued, with its step error. -/
def State.fail (s : State) (g : Nat) (e : CmdEntry) (code : StepCode) : State :=
  (s.stepErr g code e.idx).issueOpen g e.idx false false

/-- The index of the oldest unretired command, that of the next fetch when the queue is empty (R79). -/
def Core.pcIdx (c : Core) : Nat :=
  match c.queue with
  | [] => c.fetchIdx
  | e :: _ => e.idx

/-- A core in the body of its partition's tick. -/
def State.coreBody (s : State) (g : Nat) : Bool :=
  match s.corePart g with
  | none => false
  | some p => s.inBody p

/-- RETIRE_WITHOUT_EFFECT (R74): the oldest command, whose slot state its COND bits do not select, leaves the queue; that
takes the cycle's one issue place.  The route of a send that is skipped so carries no flits in this tick (R45; log 15). -/
def retireWithoutEffect (s : State) (g : Nat) : State :=
  let c := s.core g
  match c.oldest with
  | none => s
  | some e =>
    if s.coreRuns g && c.issuedAt ≠ some (s.cycOf g) && !c.selected e.word then
      let op := cOp e.word
      let skips : Bool := op = 0x30 || op = 0x31 || op = 0x32 || (op = 0x02 && cLow e.word)
      let route := if op = 0x02 then (c.kv.getD {}).route else bits e.word 0 8
      let s := s.updCore g (fun c =>
        { c with queue := c.queue.filter (fun x => x.idx ≠ e.idx), issuedAt := some (s.cycOf g),
                 quiet := if skips then addSet c.quiet [route] else c.quiet })
      (s.wr (.core g) core.QFILL (s.core g).queue.length).wr (.core g) core.PC_IDX (s.core g).pcIdx
    else s

/-- COMMAND_RETIRE (R74, R75): in the body the head of the queue, once done, retires.  HALT, done on its retirement (R78), so retires when it
is the head: every earlier command has completed and left.  It ends the step program. -/
def commandRetire (s : State) (g : Nat) : State :=
  match (s.core g).queue with
  | [] => s
  | e :: rest =>
    if s.coreBody g && e.issued && (e.done (s.cycOf g) || cOp e.word = 0xF0) then
      let s := s.updCore g (fun c => { c with queue := rest, halted := c.halted || cOp e.word = 0xF0 })
      let s := (s.wr (.core g) core.QFILL rest.length).wr (.core g) core.PC_IDX (s.core g).pcIdx
      if cOp e.word = 0xF0 then (s.updCore g (fun c => { c with fetching := false })).wr (.core g) core.SEQ_STATE 2 else s
    else s

/-- Every command before index `idx` in the queue is done. -/
def Core.earlierDone (c : Core) (idx cyc : Nat) : Bool :=
  c.queue.all (fun e => decide (idx ≤ e.idx) || (e.issued && e.done cyc))

/-- FENCE (R78): a barrier until every earlier command completes. -/
def runFence (g : Nat) (e : CmdEntry) (s : State) : State :=
  let s := s.issueOpen g e.idx true false
  if (s.core g).earlierDone e.idx (s.cycOf g) then s.finishAt g e.idx (s.cycOf g) else s

/-- HALT (R75, R78): a barrier that is done on its retirement. -/
def runHalt (g : Nat) (e : CmdEntry) (s : State) : State := s.issueOpen g e.idx true false

/-- NOP (R78): nothing for one cycle. -/
def runNop (g : Nat) (e : CmdEntry) (s : State) : State := s.finishAt g e.idx (s.cycOf g + 1)

/-- MARK (R78, R79): writes the tag and the cycle to the trace registers. -/
def runMark (g : Nat) (e : CmdEntry) (s : State) : State :=
  ((s.wr (.core g) core.TRACE_TAG (cSpec e.word)).wr (.core g) core.TRACE_CYCLE (s.cycOf g)).finishAt g e.idx (s.cycOf g + 1)

/-- COMMIT (R139): names the window sets that are checked and closed at the commit phase. -/
def runCommit (g : Nat) (e : CmdEntry) (s : State) : State :=
  (s.updCore g (fun c => { c with commitSets := bits e.word 0 8 })).finishAt g e.idx (s.cycOf g + 1)

/-- COMMIT_KV (R124, R277): proposes, for each binding of the core, a commit pointer for the slot's lane: the current WP,
or nothing with SRC = 1 or where KV_SPEC named the slot of a verification pass. -/
def runCommitKv (g : Nat) (e : CmdEntry) (s : State) : State :=
  if bits e.word 1 31 ≠ 0 then s.fail g e .illegal else
  let c := s.core g
  let sl := c.slotOf e.word
  let none? := bit e.word 0 || (sl.spurPass && sl.spec)
  let ps := (List.range c.binds.length).map (fun b =>
    ({ bind := b, slot := cSlot e.word, lane := sl.lane
       cp := if none? then none else some (dirWp c ((c.binds.getD b {}).dir) sl.lane) } : Proposal))
  (s.updCore g (fun c => { c with props := c.props ++ ps })).finishAt g e.idx (s.cycOf g + 1)

/-- The executions of RETIRE_WITHOUT_EFFECT, COMMAND_RETIRE and the sequencer's commands. -/
def execRetireWithoutEffect (g : Nat) (s : State) : Out := .next (retireWithoutEffect s g)
/-- COMMAND_RETIRE. -/
def execCommandRetire (g : Nat) (s : State) : Out := .next (commandRetire s g)
/-- COMMIT. -/
def execCommit (g : Nat) (s : State) : Out := .next (s.issue g 0x70 .none (runCommit g))
/-- COMMIT_KV. -/
def execCommitKv (g : Nat) (s : State) : Out := .next (s.issue g 0x71 .none (runCommitKv g))
/-- FENCE. -/
def execFence (g : Nat) (s : State) : Out := .next (s.issue g 0x80 .none (runFence g))
/-- NOP. -/
def execNop (g : Nat) (s : State) : Out := .next (s.issue g 0x81 .none (runNop g))
/-- MARK. -/
def execMark (g : Nat) (s : State) : Out := .next (s.issue g 0x82 .none (runMark g))
/-- HALT. -/
def execHalt (g : Nat) (s : State) : Out := .next (s.issue g 0xF0 .none (runHalt g))

end Sys2Proof.Machine
end

