-- ==== Sys2Proof/Machine/Arrays.lean ====
section
/-! DEFINITION. The array unit: passes, drains, window base, output converter and the KV append path's setup (R62
to R70, R77, R83 to R92, R96, R97, R106, R120 to R122, R277). -/

namespace Sys2Proof.Machine

/-! ### Array passes -/

/-- The element code at row `i` of column `c` in an array section read as a number (R83). -/
def elemCode (f : Fmt) (sect c i : Nat) : Nat := bits sect ((c * 32 + i) * f.bits) f.bits

/-- The scale codes of a column: one, or two for KT3, each with the rows it covers (R83). -/
def colScales (f : Fmt) (sect c : Nat) : List (Nat × List Nat) :=
  let base := 32 * 32 * f.bits
  match f with
  | .kt3 => [(bits sect (base + 16 * c) 8, List.range 16), (bits sect (base + 16 * c + 8) 8, (List.range 16).map (· + 16))]
  | _ => [(bits sect (base + 8 * c) 8, List.range 32)]

/-- The contributions of one weight set to one column as (s, X): the weight planes one after the other, for each the activation planes, a
cycle each, and in a cycle the sums of its blocks and half-blocks, the lower first (log 70); none where a scale is NaN (R81, R86, R87, R88).
`ops` holds the array section and the activation block of each block of the set: one, or the two of a KT2 pair. -/
def columnTerms (wf : Fmt) (a8 : Bool) (c : Nat) (ops : List (Nat × List Nat × Nat)) : List (Int × Int) :=
  (List.range wf.planes).flatMap (fun wp => (List.range (actFmt a8).planes).flatMap (fun ap => ops.flatMap (fun (sect, acts, sa) =>
    (colScales wf sect c).flatMap (fun (sw, rows) =>
      if sw = 255 ∨ sa = 255 then [] else
      [(digitSum wf (actFmt a8) wp ap (rows.map (elemCode wf sect c)) (rows.map (fun i => acts.getD i 0)),
        combExp sw sa (wf.unit wp) ((actFmt a8).unit ap))]))))

/-- Adds contributions to an accumulator: value, and the clamps above and below (R90). -/
def addTerms (b : Int) : Int × Nat × Nat → List (Int × Int) → Int × Nat × Nat
  | acc, [] => acc
  | (a, hi, lo), (s, x) :: ts =>
    let (a', h, l) := accAdd a s x b
    addTerms b (a', hi + h, lo + l) ts

/-- The key of accumulator `idx` of column `col` of array `a` (R63). -/
def lfaKey (a col idx : Nat) : Nat := (a * 32 + col) * 256 + idx

/-- An accumulator's value. -/
def Core.acc (c : Core) (a col idx : Nat) : Int := (Table.get (0 : BitVec 80) c.lfa (lfaKey a col idx)).toInt

/-- Sets an accumulator. -/
def Core.setAcc (c : Core) (a col idx : Nat) (v : Int) : Core :=
  { c with lfa := Table.set 0 c.lfa (lfaKey a col idx) (BitVec.ofInt 80 v) }

/-- NaN scales and NaN elements of an array section (R81). -/
def sectNans (f : Fmt) (sect : Nat) : Nat :=
  ((List.range 32).flatMap (fun c => (colScales f sect c).map (·.1))).countP (· = 255) +
  (if f = .mxfp8 then ((List.range 1024).map (fun k => bits sect (8 * k) 8)).countP e4m3Nan else 0)

/-- NaN scale and NaN elements of an activation block (R81). -/
def actNans (a8 : Bool) (blk : List Nat × Nat) : Nat := b2n (blk.2 = 255) + (if a8 then blk.1.countP e4m3Nan else 0)

/-- The elements and scale of an activation block as the core reads it (R82). -/
def Core.act (c : Core) (a8 : Bool) (addr : Nat) : List Nat × Nat :=
  if a8 then ((c.read addr 32).map (·.toNat), (c.byte (addr + 32)).toNat)
  else ((c.read addr 16).flatMap (fun b => [b.toNat % 16, b.toNat / 16]), (c.byte (addr + 16)).toNat)

/-- One weight set of one vector into the columns of one array, `cols` of them. -/
def passBlock (wf : Fmt) (a8 : Bool) (a idx cols : Nat) (clear : Bool) (ops : List (Nat × List Nat × Nat)) (c : Core) : Core :=
  (List.range cols).foldl (fun c col =>
    let start : Int := if clear then 0 else c.acc a col idx
    let (v, hi, lo) := addTerms c.base (start, 0, 0) (columnTerms wf a8 col ops)
    { c.setAcc a col idx v with cnt := { c.cnt with clampHi := c.cnt.clampHi + hi, clampLo := c.cnt.clampLo + lo } }) c

/-- Columns that array `a` of core `g` presents: 32, or 31 when NARROW (R68, R69). -/
def State.columns (s : State) (g a : Nat) : Nat := if bit (s.rd (.core g) core.ARRAY_NARROW) a then 31 else 32

/-- The shadow registers of array `a` have been filled and become active; the former active ones are filled next (R62). -/
def Core.loadWeights (c : Core) (a : Nat) (r : WReg) : Core :=
  { c with wAct := Table.set {} c.wAct a r, wShd := Table.set {} c.wShd a (Table.get {} c.wAct a) }

/-- The parity bits of the 32 row slices of weight sections read as numbers: even parity over the element codes of a row's cells (R62). -/
def rowParity (wf : Fmt) (sects : List Nat) : Nat :=
  (List.range 32).foldl (fun n i =>
    let x := sects.foldl (fun x t => (List.range 32).foldl (fun x col => Nat.xor x (elemCode wf t col i)) x) 0
    n + 2 ^ i * ((List.range 8).countP (bit x) % 2)) 0

/-- The weight sets of an input block, or of a KT2 pair: one for each plane of the format, plane A (or low) first, each filling the shadow registers
in turn (R62, R87). -/
def Core.loadSets (c : Core) (wf : Fmt) (a : Nat) (bytes : List Byte) (sects : List Nat) : Core :=
  (List.range wf.planes).foldl (fun c pl => c.loadWeights a { plane := pl, bytes := bytes, parity := rowParity wf sects }) c

/-- The blocks of a weight set: two under KT2 (R86). -/
def setBlocks (wf : Fmt) : Nat := if wf = .kt2 then 2 else 1

/-- A whole pass: every block's weight sets, then every selected array, then every vector, in the order in which the stream carries them
(R62, R65, R83, R86, R87). -/
def passEffect (wf : Fmt) (a8 clear : Bool) (act wgt nblk nv stride lfa0 : Nat) (arrays : List (Nat × Nat)) (c : Core) :
    Core :=
  (List.range (nblk / setBlocks wf)).foldl (fun c n =>
    let bs := (List.range (setBlocks wf)).map (· + n * setBlocks wf)
    let blks := bs.map (fun b => (List.range nv).map (fun v => c.act a8 (act + v * stride * 16 + b * actBytes a8)))
    let c := { c with cnt := { c.cnt with nanIn := c.cnt.nanIn + (blks.map (fun l => (l.map (actNans a8)).sum)).sum } }
    arrays.foldl (fun c (a, cols) =>
      let bytes := bs.map (fun b => c.read (wgt + b * streamBytes wf + a * sectionBytes wf) (sectionBytes wf))
      let sects := bytes.map leNat
      let c := { c.loadSets wf a bytes.flatten sects with cnt := { c.cnt with nanIn := c.cnt.nanIn + (sects.map (sectNans wf)).sum } }
      (List.range nv).foldl (fun c v =>
        passBlock wf a8 a (lfa0 + v) cols (clear && (n = 0)) (sects.zip (blks.map (fun l => l.getD v ([], 0)))) c) c) c) c

/-- F of R65 for a weight source of `r` bytes a cycle. -/
def passFill (wf : Fmt) (r : Nat) : Nat := cdiv (streamBytes wf) r

/-- T of R65. -/
def passTime (wf : Fmt) (a8 : Bool) (nblk nv r z : Nat) : Nat :=
  passFill wf r + max (cdiv (nblk * nv * twiceP wf a8) 2) (cdiv (nblk * streamBytes wf) r) + z

/-- Starts a pass that has issued: reads its operands, updates the accumulators, and holds the unit and the port (R65). -/
def startPass (s : State) (g : Nat) (e : CmdEntry) : State :=
  let w := e.word
  match weightFmt (cFmt w) with
  | none => s
  | some wf =>
    let a8 := cAfmt w = 1
    let cyc := s.cycOf g
    let z := if cOp w = 1 then 36 else 4
    let r := if cLow w then 512 else 640
    let t := passTime wf a8 (cNblk w) (cNv w) r z
    let arrays := (arraysOf (cArrays w)).map (fun a => (a, s.columns g a))
    let s := s.updCore g (fun c =>
      let c := passEffect wf a8 (!cF w) (cA w) (cB w) (cNblk w) (cNv w) (cStride w) (cLfa0 w) arrays c
      { c with arrayFree := cyc + t,
               portFree := if cLow w then c.portFree else cyc + passFill wf 640 + cdiv (cNblk w * streamBytes wf) 640 })
    s.finishAt g e.idx (cyc + t)

/-- The slab read port is free in cycle `cyc` and no earlier command waits for it (R65). -/
def Core.portReady (c : Core) (cyc : Nat) : Bool := c.portFree ≤ cyc && c.queue.all (fun e => !e.wait)

/-- The checks of a pass, in the order of the error codes: fields, addresses, arrays (R59, R65, R66, R70, R75).  A tree-mode pass beyond
accumulator 255 is ILLEGAL too, though R66 gives that limit for skew mode only (log 68). -/
def passCheck (s : State) (g : Nat) (w : Nat) : Option StepCode :=
  match weightFmt (cFmt w) with
  | none => some .illegal
  | some wf =>
    if 2 ≤ cAfmt w ∨ cNblk w = 0 ∨ (wf = .kt2 ∧ cNblk w % 2 = 1) ∨ 256 < cLfa0 w + cNv w ∨ (cOp w = 0 ∧ 4 < cNv w) then
      some .illegal
    else if !rangeOk lsOrBuf (cA w) ((cNv w - 1) * cStride w * 16 + cNblk w * actBytes (cAfmt w = 1)) ||
        !rangeOk [if cLow w then .localStore else .slabArea] (cB w) (cNblk w * streamBytes wf) then some .addr
    else if (arraysOf (cArrays w)).any (fun a => !bit (s.rd (.core g) core.ARRAY_EN) a) then some .arrayOff
    else none

/-- An array pass (R62 to R67): it starts at once from the local store, and from the slab when the read port is free. -/
def runPass (g : Nat) (skew : Bool) (e : CmdEntry) (s : State) : State :=
  let s := s.updCore g (fun c => { c with skew := skew })
  match passCheck s g e.word with
  | some code => s.fail g e code
  | none =>
    if cLow e.word || (s.core g).portReady (s.cycOf g) then startPass s g e else s.issueOpen g e.idx false true

/-- APASS_TREE. -/
def execApassTree (g : Nat) (u : Upset) (s : State) : Out := .next (s.issue g 0x00 u (runPass g false))
/-- APASS_SKEW. -/
def execApassSkew (g : Nat) (u : Upset) (s : State) : Out := .next (s.issue g 0x01 u (runPass g true))

/-! ### Widen marking (R96, R97) -/

/-- Adds clips of an MXFP4 conversion to a slot's count and marks the slot when the count exceeds T.  Marks are made only in
RUN and BOOKED steps, and not in skew mode.  A threshold that a later EDGE_CFG lowers is compared at the slot's next such conversion (log
72). -/
def Core.addClips (c : Core) (slot n : Nat) (skewed : Bool) : Core :=
  let sl := c.slots.getD slot {}
  if !c.clipEn || skewed || !(sl.state = .run || sl.state = .booked) then c else
  let cnt := min (sl.clips + n) 0xFFFF
  let mk : Bool := c.clipT < cnt
  { c with slots := setAt c.slots slot { sl with clips := cnt, marked := sl.marked || mk },
           cnt := { c.cnt with widenMark := c.cnt.widenMark + b2n (mk && !sl.marked) } }

/-! ### Drains -/

/-- One array's 32 values of a vector under the window base; an absent column drains as +0 (R69, R89). -/
def Core.drainValues (c : Core) (a cols idx : Nat) : List FV :=
  (List.range 32).map (fun col => if col < cols then intVal (c.acc a col idx) c.base else .fin false 0 0)

/-- The bytes of one array's values in format OFMT, with OUT_SAT, clip, NaN and KV_SAT counts (R91, R92, R106). -/
def drainBytes (ofmt scale : Nat) (vs : List FV) : List Byte × Nat × Nat × Nat × Nat :=
  match ofmt with
  | 0 => let ds := vs.map drainF32; (ds.flatMap (fun d => leBytes 4 d.1.toNat), (ds.map (·.2)).sum, 0, 0, 0)
  | 1 => let ds := vs.map drainB16; (ds.flatMap (fun d => leBytes 2 d.1.toNat), (ds.map (·.2)).sum, 0, 0, 0)
  | 2 => let (es, x, cl, nn) := mxBlock false vs; (mxBytes false es x, 0, cl, nn, 0)
  | 3 => let (es, x, cl, nn) := mxBlock true vs; (mxBytes true es x, 0, cl, nn, 0)
  | _ => let ds := vs.map (kvCode scale); (ds.map (fun d => BitVec.ofNat 8 d.1), 0, 0, 0, (ds.map (·.2)).sum)

/-- Bytes that one array contributes to an output vector. -/
def drainSize : Nat → Nat
  | 0 => 128 | 1 => 64 | 2 => 17 | 3 => 33 | _ => 32

/-- The output bytes of vector `v` and the core with its counters, marks and cleared accumulators. -/
def drainVector (w scale : Nat) (arrays : List (Nat × Nat)) (v : Nat) (c : Core) : Core × List Byte :=
  let idx := cLfa0 w + v
  let (c, bs, clips) := arrays.foldl (fun (c, bs, clips) (a, cols) =>
    let (b, sat, cl, nn, kv) := drainBytes (cFmt w) scale (c.drainValues a cols idx)
    let c := { c with cnt := { c.cnt with outSat := c.cnt.outSat + sat, clip := c.cnt.clip + cl,
                                          nanOut := c.cnt.nanOut + nn, kvSat := c.cnt.kvSat + kv } }
    let c := if cF w then (List.range 32).foldl (fun c col => c.setAcc a col idx 0) c else c
    (c, bs ++ b, clips + cl)) ((c, [], 0) : Core × List Byte × Nat)
  (if cFmt w = 2 then c.addClips (idx % 4) clips c.skew else c, bs)

/-- The five append flits of a vector (R121, R163): descriptor, then the 128 codes; missing codes are +0. -/
def appendFlits (part stamp lane pos : Nat) (k : KvSetup) (codes : List Byte) : List Flit :=
  let mk (pl : List Byte) : Flit :=
    { part := part, stamp := stamp, op := 7, lane := lane, route := k.route, payload := pl }
  let codes := codes ++ List.replicate (128 - codes.length) 0
  mk (appendHead pos k.head k.isV k.scale) ::
    (List.range 4).map (fun i => { mk ((codes.drop (32 * i)).take 32) with nth := i + 1 })

/-- The checks of a drain (R59, R70, R75, R77, R121).  That a drain beyond accumulator 255, one with KV = 1 in another format than 4, and one in
format 4 with no KV_SETUP in force are ILLEGAL is the model's choice (log 68). -/
def drainCheck (s : State) (g w : Nat) : Option StepCode :=
  let n := (arraysOf (cArrays w)).length
  if 5 ≤ cFmt w ∨ bits w 37 35 ≠ 0 ∨ bits w 4 2 ≠ 0 ∨ 256 < cLfa0 w + cNv w ∨ (cLow w ∧ cFmt w ≠ 4) ∨
      (cFmt w = 4 ∧ (s.core g).kv = none) then some .illegal
  else if !cLow w && !rangeOk [.localStore, .slabArea] (cA w) ((cNv w - 1) * cStride w * 16 + n * drainSize (cFmt w)) then
    some .addr
  else if (arraysOf (cArrays w)).any (fun a => !bit (s.rd (.core g) core.ARRAY_EN) a) then some .arrayOff
  else none

/-- ACC_DRAIN (R77, R91, R96, R106, R121): each vector is written at DST + v × OSTRIDE × 16, or emitted as an append. -/
def runDrain (g : Nat) (e : CmdEntry) (s : State) : State :=
  let w := e.word
  match drainCheck s g w with
  | some code => s.fail g e code
  | none =>
    let arrays := (arraysOf (cArrays w)).map (fun a => (a, s.columns g a))
    let k := (s.core g).kv.getD {}
    let pt := (s.corePart g).getD 0
    let cyc := s.cycOf g
    let s := (List.range (cNv w)).foldl (fun s v =>
      let (c, bs) := drainVector w k.scale arrays v (s.core g)
      let s := s.updCore g (fun _ => c)
      if cLow w then
        let sl := c.slots.getD ((cLfa0 w + v) % 4) {}
        s.updCore g (fun c => { c with
          outFlits := c.outFlits ++ appendFlits pt ((s.part pt).tick % 256) sl.lane sl.pos k bs })
      else s.memWrite g (cA w + v * cStride w * 16) bs) s
    let d := cyc + 6 + arrays.length * cNv w
    (s.updCore g (fun c => { c with arrayFree := d })).finishAt g e.idx d

/-- ACC_DRAIN. -/
def execAccDrain (g : Nat) (u : Upset) (s : State) : Out := .next (s.issue g 0x02 u (runDrain g))

/-! ### Configuration commands of the array unit -/

/-- Completes an array-unit command that takes `n` cycles. -/
def State.arrayDone (s : State) (g : Nat) (e : CmdEntry) (n : Nat) : State :=
  (s.updCore g (fun c => { c with arrayFree := s.cycOf g + n })).finishAt g e.idx (s.cycOf g + n)

/-- ACC_BASE (R89): the signed window base for every later pass and drain. -/
def runAccBase (g : Nat) (e : CmdEntry) (s : State) : State :=
  (s.updCore g (fun c => { c with base := sgn 16 (bits e.word 0 16) })).arrayDone g e 1

/-- EDGE_CFG (R96): clip threshold and widen marking enable. -/
def runEdgeCfg (g : Nat) (e : CmdEntry) (s : State) : State :=
  (s.updCore g (fun c => { c with clipT := bits e.word 0 16, clipEn := bit e.word 16 })).arrayDone g e 1

/-- KV_SETUP (R120). -/
def runKvSetup (g : Nat) (e : CmdEntry) (s : State) : State :=
  let w := e.word
  let sc := bits w 0 8
  if bits w 29 3 ≠ 0 ∨ bits w 32 64 ≠ 0 ∨ sc = 0 ∨ sc = 255 then s.fail g e .illegal else
  (s.updCore g (fun c => { c with
    kv := some ⟨sc, bits w 8 3, bit w 11, bits w 12 9, bits w 21 8⟩ })).arrayDone g e 1

/-- KV_SPEC (R277): marks the named slots for the step's COMMIT_KV, whether it comes later or has been executed already. -/
def runKvSpec (g : Nat) (e : CmdEntry) (s : State) : State :=
  if bits e.word 4 28 ≠ 0 then s.fail g e .illegal else
  (s.updCore g (fun c => { c with
    slots := (List.range 4).map (fun i => let sl := c.slots.getD i {}; { sl with spec := sl.spec || bit e.word i })
    props := c.props.map (fun x => if bit e.word x.slot && (c.slots.getD x.slot {}).spurPass then { x with cp := none } else x) })).arrayDone
    g e 1

/-- Puts an entry into the page-map cache (R122): in place of the same key, else free, else entry (count mod 256), where the count is that of
all loads since the cache was cleared (log 74). -/
def Core.cachePut (c : Core) (x : Nat) : Core :=
  if c.cache.any (fun y => pmKey y = pmKey x) then
    { c with cache := c.cache.map (fun y => if pmKey y = pmKey x then x else y), cacheCnt := c.cacheCnt + 1 }
  else if c.cache.length < 256 then { c with cache := c.cache ++ [x], cacheCnt := c.cacheCnt + 1 }
  else { c with cache := setAt c.cache (c.cacheCnt % 256) x, cacheCnt := c.cacheCnt + 1 }

/-- The page-map entry of the page that holds a position of a lane at a binding (R108, R109, R111, R122): the ring page, or
the page-list entry when this core is the page's shard; none when it is not. -/
def Core.pageEntry (c : Core) (b : Binding) (lane pos : Nat) : Option Nat :=
  let w := dirWindow c b.dir
  if w ≠ 0 then
    let pg := pos % (w + 64) / 64
    some (pmEntry lane b.layer pg b.heads true (dirBase c b.dir lane + pg * pageStride b.heads))
  else
    let sh := dirShards c b.dir
    let pg := pos / 64
    if sh = 0 ∨ pg % sh ≠ dirIdx c b.dir then none
    else some (leNat (c.read (dirBase c b.dir lane + 8 * (pg / sh)) 8))

/-- KV_MAPLOAD (R122): with AUTO the entry of the page that holds POS, through the directory at A; else LEN entries from A. -/
def runKvMapload (g : Nat) (e : CmdEntry) (s : State) : State :=
  let w := e.word
  let c := s.core g
  if bits w 1 31 ≠ 0 then s.fail g e .illegal else
  if bit w 0 then
    if !rangeOk [.slabArea] (cA w) 8224 then s.fail g e .addr else
    let sl := c.slotOf w
    let b := (c.binds.find? (fun b => b.dir = cA w)).getD { dir := cA w }
    match c.pageEntry b sl.lane sl.pos with
    | none => s.arrayDone g e 0
    | some x => (s.updCore g (fun c => c.cachePut x)).arrayDone g e 2
  else if !rangeOk [.slabArea] (cA w) (8 * cLen w) then s.fail g e .addr else
    (s.updCore g (fun c => (List.range (cLen w)).foldl (fun c i => c.cachePut (leNat (c.read (cA w + 8 * i) 8))) c)).arrayDone
      g e (2 * cLen w)

/-- ACC_BASE. -/
def execAccBase (g : Nat) (s : State) : Out := .next (s.issue g 0x03 .none (runAccBase g))
/-- EDGE_CFG. -/
def execEdgeCfg (g : Nat) (s : State) : Out := .next (s.issue g 0x04 .none (runEdgeCfg g))
/-- KV_SETUP. -/
def execKvSetup (g : Nat) (s : State) : Out := .next (s.issue g 0x60 .none (runKvSetup g))
/-- KV_MAPLOAD. -/
def execKvMapload (g : Nat) (u : Upset) (s : State) : Out := .next (s.issue g 0x61 u (runKvMapload g))
/-- KV_SPEC. -/
def execKvSpec (g : Nat) (s : State) : Out := .next (s.issue g 0x62 .none (runKvSpec g))

end Sys2Proof.Machine
end

