-- ==== Sys2Proof/Machine/Attention.lean ====
section
/-! DEFINITION. The attention engine: query load, streaming of a lane's KV, and the result (R104, R105, R109,
R113 to R118). -/

namespace Sys2Proof.Machine

/-! ### FP32 of the engine (R114) -/

/-- An operand as the engine reads it: flushing of subnormal values is free (log 6). -/
def attVal (x : F32) : FV := f32Val (if Config.attFlush then ftz x else x)

/-- A result of the engine. -/
def attRound (v : FV) : F32 := if Config.attFlush then ftz (toF32 v) else toF32 v

/-- The exact product a × b added to `acc`, in the sums of R114 and in its update of l: fused, or with the product rounded first (log 6). -/
def attMac (acc : F32) (a b : FV) : F32 :=
  let p := FV.mul a b
  let p := if Config.attFused then p else attVal (attRound p)
  attRound (FV.add p (attVal acc))

/-- The product of two FP32 values. -/
def attMul (a b : F32) : F32 := attRound (FV.mul (attVal a) (attVal b))

/-- Elements paired with their index, in the order of a free rank (log 6). -/
def inRank {α : Type} (k : Nat) (l : List α) : List α :=
  (sortBy (fun x y => Config.sumRank k x.1 < Config.sumRank k y.1) ((List.range l.length).zip l)).map (·.2)

/-- The score τ × Σ q_d k_d (R114 step 1). -/
def attScore (tau : B16) (q : List B16) (k : List FV) : F32 :=
  let sum := (inRank 0 (q.zip k)).foldl (fun acc (a, b) => attMac acc (attVal (bfToF32 a)) b) (0 : F32)
  attMul (bfToF32 tau) sum

/-- The exact quotient o / l as BF16, to nearest with ties to even; the sign of a zero quotient is kept (R115). -/
def divB16 (o l : F32) : B16 :=
  match f32Val o, f32Val l with
  | .nan, _ => 0x7FC0
  | _, .nan => 0x7FC0
  | .inf _, .inf _ => 0x7FC0
  | .inf a, .fin b _ _ => toB16 (.inf (a != b))
  | .fin a _ _, .inf b => toB16 (.fin (a != b) 0 0)
  | .fin a m e, .fin b n f =>
    if n = 0 then toB16 (.inf (a != b)) else
    let q := m * 2 ^ 64 / n
    toB16 (.fin (a != b) (2 * q + b2n (m * 2 ^ 64 % n ≠ 0)) (e - f - 65))

/-! ### Query load -/

/-- ATT_QLOAD (R115): G query vectors, with m = −∞, l = 0 and o = 0 for every head. -/
def runQload (g : Nat) (e : CmdEntry) (s : State) : State :=
  let w := e.word
  let n := cLen w
  if bits w 16 16 ≠ 0 ∨ n = 0 ∨ 16 < n then s.fail g e .illegal
  else if !rangeOk [.localStore] (cA w) (256 * n) then s.fail g e .addr
  else
    let d := s.cycOf g + 2 + 4 * n
    (s.updCore g (fun c => { c with
      tau := BitVec.ofNat 16 (bits w 0 16),
      heads := (List.range n).map (fun i =>
        { q := (List.range 128).map (fun j => BitVec.ofNat 16 (leNat (c.read (cA w + 256 * i + 2 * j) 2))),
          m := negInf, l := 0, o := List.replicate 128 0 }),
      attFree := d })).finishAt g e.idx d

/-! ### Streaming -/

/-- What one command streams: the address of the page, the page's heads, the position's offset, the tile's key and the
position. -/
structure KvPos where
  page : Nat := 0
  heads : Nat := 1
  off : Nat := 0
  tile : Nat := 0
  pos : Nat := 0
  deriving DecidableEq, Repr

/-- The ring positions of R109 for a token at `q`, in position order. -/
def ringSel (c : Core) (b : Binding) (lane q : Nat) : List KvPos :=
  let w := dirWindow c b.dir
  let lo := q + 1 - w
  (List.range (q + 1 - lo)).filterMap (fun i =>
    let slot := (lo + i) % (w + 64)
    if slot / 64 < dirPages c b.dir lane then
      some ⟨dirBase c b.dir lane + slot / 64 * pageStride b.heads, b.heads, slot % 64, slot / 16, lo + i⟩
    else none)

/-- The positions of a global layer up to `q` on this shard's pages whose local index i has i mod μ = STEP (R108, R116).  In
a deep lane a page is read from the staging once it is LIVE, and from the slab before that (R131, R132, R198).  In the staging, page i
lies at place i / μ, the SEL of its schedule entry (R197; log 12). -/
def globalSel (c : Core) (d lane q mu step : Nat) (stage : Option Nat) : List KvPos :=
  let sh := max (dirShards c d) 1
  let deep := bit (c.byte (dirEntry d lane)).toNat 1
  let locals := (List.range (q / 64 + 1)).filterMap (fun pg =>
    if pg % sh = dirIdx c d ∧ pg / sh < dirPages c d lane ∧ pg / sh % mu = step ∧
        (deep = false ∨ stage.isSome = c.deepAt.contains (dirBase c d lane + 8 * (pg / sh))) then some (pg, pg / sh)
    else none)
  locals.flatMap (fun (pg, li) =>
    let x := leNat (c.read (dirBase c d lane + 8 * li) 8)
    if !bit x 63 then [] else
    let at_ := match stage with
      | some base => base + li / mu * pageStride (pmHeads x)
      | none => pmAddr x
    (List.range (min 64 (q + 1 - 64 * pg))).map (fun o => ⟨at_, pmHeads x, o, 4 * pg + o / 16, 64 * pg + o⟩))

/-- The staged pages of a ring lie one after another at the page stride, in the order of their positions (log 12). -/
def stagePages (base : Nat) (l : List KvPos) : List KvPos :=
  let pages := addSet [] (l.map (fun k => k.pos / 64))
  l.map (fun k => { k with page := base + (pages.findIdx (· = k.pos / 64)) * pageStride k.heads })

/-- The positions that a command selects (R116). -/
def Core.selection (c : Core) (w : Nat) : List KvPos :=
  let sl := c.slotOf w
  let d := cA w
  let b := (c.binds.find? (fun b => b.dir = d)).getD { dir := d }
  if !dirOwn c d sl.lane then [] else
  let stage := if bit w 31 then some (bits w 0 24) else none
  let l := if dirWindow c d ≠ 0 then
      (let l := ringSel c b sl.lane sl.pos
       if bit w 31 then stagePages (bits w 0 24) l else l)
    else globalSel c d sl.lane sl.pos (sl.mu + 1) sl.step stage
  if cLen w = 0 then l else l.drop (l.length - cLen w)

/-- The element `code` under the page scale σ; a NaN of either reads as 0 (R81, R105). -/
def kvElem (scale : B16) (code : Nat) : FV :=
  match f32Val (bfToF32 scale) with
  | .nan => .fin false 0 0
  | v => FV.mul (e4m3Val code) v

/-- K (`v` false) or V elements of a position's head. -/
def kvRead (c : Core) (k : KvPos) (head : Nat) (v : Bool) : List FV :=
  let sc := BitVec.ofNat 16 (leNat (c.read (k.page + k.heads * 16384 + 4 * head + 2 * b2n v) 2))
  (c.read (k.page + head * 16384 + b2n v * 8192 + k.off * 128) 128).map (fun b => kvElem sc b.toNat)

/-- NaN scales and NaN elements of a tile as it is read (R81). -/
def tileNans (c : Core) (k : KvPos) (head : Nat) : Nat :=
  let base := k.page + head * 16384 + k.off / 16 * 2048
  let codes := (c.read base 2048 ++ c.read (base + 8192) 2048).map (·.toNat)
  let scs := [leNat (c.read (k.page + k.heads * 16384 + 4 * head) 2), leNat (c.read (k.page + k.heads * 16384 + 4 * head + 2) 2)]
  codes.countP e4m3Nan + scs.countP (fun x => x % 2 ^ 15 > 0x7F80)

/-- Folds one tile into a head (R114 step 2). -/
def foldTile (tau : B16) (kvs : List (List FV × List FV)) (h : AttHead) : AttHead :=
  let sc := kvs.map (fun kv => attScore tau h.q kv.1)
  let m' := sc.foldl fmax h.m
  let f := fexp (fsub h.m m')
  let ps := sc.map (fun x => fexp (fsub x m'))
  let l := attMac ((inRank 1 ps).foldl (fun a p => attRound (FV.add (attVal a) (attVal p))) (0 : F32)) (attVal h.l) (attVal f)
  let o := (List.range 128).map (fun j =>
    let sum := (inRank 1 (ps.zip kvs)).foldl (fun a (p, kv) => attMac a (attVal p) (kv.2.getD j (.fin false 0 0))) (0 : F32)
    attMac sum (attVal (h.o.getD j 0)) (attVal f))
  { h with m := m', l := l, o := o }

/-- The selected positions grouped by tile, in the order of their first position. -/
def tilesOf (l : List KvPos) : List (List KvPos) :=
  (addSet [] (l.map (·.tile))).map (fun t => l.filter (fun k => k.tile = t))

/-- Streams the selection through every head of the group. -/
def streamEffect (w : Nat) (l : List KvPos) (c : Core) : Core :=
  let head := bits w 28 3
  (tilesOf l).foldl (fun c ks =>
    let kvs := ks.map (fun k => (kvRead c k head false, kvRead c k head true))
    let nn := match ks with | [] => 0 | k :: _ => tileNans c k head
    { c with heads := c.heads.map (foldTile c.tau kvs), cnt := { c.cnt with nanIn := c.cnt.nanIn + nn } }) c

/-- Starts a stream: its time, its effect, and the slab read port when it comes from the slab (R117). -/
def startStream (s : State) (g : Nat) (e : CmdEntry) : State :=
  let w := e.word
  let c := s.core g
  let l := c.selection w
  let n := (tilesOf l).length
  let cyc := s.cycOf g
  let rate := if bit w 31 then 512 else 640
  let d := if n = 0 then cyc + 4 else cyc + 7 + max (n * c.heads.length) (cdiv (n * 4096) rate) + 12
  (s.updCore g (fun c =>
    let c := streamEffect w l c
    { c with attFree := d,
             portFree := if bit w 31 ∨ n = 0 then c.portFree else cyc + 7 + cdiv (n * 4096) 640 })).finishAt g e.idx d

/-- ATT_STREAM (R115 to R117): from the staging, or with nothing selected, it starts at issue; else when the port is free. -/
def runStream (g : Nat) (e : CmdEntry) (s : State) : State :=
  let w := e.word
  let c := s.core g
  if bits w 24 4 ≠ 0 then s.fail g e .illegal
  else if !rangeOk [.slabArea] (cA w) 8224 then s.fail g e .addr
  else
    let l := c.selection w
    let area := if bit w 31 then Area.localStore else Area.slabArea
    if l.any (fun k => !rangeOk [area] k.page (pageStride k.heads)) then s.fail g e .addr
    else if bit w 31 || l.isEmpty || c.portReady (s.cycOf g) then startStream s g e
    else s.issueOpen g e.idx false true

/-! ### The result -/

/-- The nine payloads of a head's partial triple as 288 bytes (R118). -/
def tripleBytes (h : AttHead) : List Byte :=
  leBytes 4 h.m.toNat ++ leBytes 4 h.l.toNat ++ List.replicate 24 0 ++
    h.o.flatMap (fun x => leBytes 2 (toB16 (f32Val x)).toNat)

/-- A head's output o / l as 256 bytes; +0 values where l = 0 (R115). -/
def outBytes (h : AttHead) : List Byte :=
  h.o.flatMap (fun x => leBytes 2 (if h.l.toNat % 2 ^ 31 = 0 then (0 : B16) else divB16 x h.l).toNat)

/-- ATT_FINISH (R115, R118). -/
def runFinish (g : Nat) (e : CmdEntry) (s : State) : State :=
  let w := e.word
  let hs := (s.core g).heads
  let pt := bit w 0
  if bits w 1 31 ≠ 0 then s.fail g e .illegal
  else if !rangeOk [.localStore] (cA w) (hs.length * (if pt then 288 else 256)) then s.fail g e .addr
  else
    let d := s.cycOf g + 12 + (if pt then 9 else 8) * hs.length
    ((s.memWrite g (cA w) (hs.flatMap (fun h => if pt then tripleBytes h else outBytes h))).updCore g
      (fun c => { c with attFree := d })).finishAt g e.idx d

/-- ATT_QLOAD. -/
def execAttQload (g : Nat) (u : Upset) (s : State) : Out := .next (s.issue g 0x10 u (runQload g))
/-- ATT_STREAM. -/
def execAttStream (g : Nat) (u : Upset) (s : State) : Out := .next (s.issue g 0x11 u (runStream g))
/-- ATT_FINISH. -/
def execAttFinish (g : Nat) (s : State) : Out := .next (s.issue g 0x12 .none (runFinish g))

end Sys2Proof.Machine
end

