-- ==== Sys2Proof/Machine/Wide.lean ====
section
/-! DEFINITION. The wide unit: elementwise operations, reduction, conversion, rotary embedding, the sparse product
of variants and the slab copy; and the start of a command that waits for the slab read port (R65, R71, R93, R94, R117,
R284, R285). -/

namespace Sys2Proof.Machine

/-! ### Operands -/

/-- Bytes of `n` elements in FP32 or BF16. -/
def vecBytes (bf : Bool) (n : Nat) : Nat := n * (if bf then 2 else 4)

/-- Element `i` of a vector; a BF16 operand is widened on read (R71). -/
def Core.elem (c : Core) (bf : Bool) (a i : Nat) : F32 :=
  if bf then bfToF32 (BitVec.ofNat 16 (leNat (c.read (a + 2 * i) 2))) else BitVec.ofNat 32 (leNat (c.read (a + 4 * i) 4))

/-- `n` elements of a vector. -/
def Core.vec (c : Core) (bf : Bool) (a n : Nat) : List F32 := (List.range n).map (c.elem bf a)

/-- The bytes of a result; a BF16 result is rounded to nearest even on write (R71). -/
def vecOut (bf : Bool) (l : List F32) : List Byte :=
  l.flatMap (fun x => if bf then leBytes 2 (toB16 (f32Val x)).toNat else leBytes 4 x.toNat)

/-- Completes a wide-unit command: the unit accepts again after `busy` cycles, and the command is done `lat` later (R71). -/
def State.wideDone (s : State) (g : Nat) (e : CmdEntry) (busy lat : Nat) : State :=
  (s.updCore g (fun c => { c with wideFree := s.cycOf g + busy })).finishAt g e.idx (s.cycOf g + busy + lat)

/-- A command over LEN elements of local-store operands: its checks, its result and its time (R59, R71). -/
def State.wuRun (s : State) (g : Nat) (e : CmdEntry) (ranges : List (Nat × Nat)) (lat : Nat)
    (out : Core → List Byte) : State :=
  let w := e.word
  if cLen w = 0 then s.fail g e .illegal
  else if ranges.any (fun (a, n) => !rangeOk [.localStore] a n) then s.fail g e .addr
  else (s.memWrite g (cDst w) (out (s.core g))).wideDone g e (cdiv (cLen w) 32) lat

/-- A two-operand elementwise command. -/
def runBinary (f : F32 → F32 → F32) (lat : Nat) (m : WuFmt) (g : Nat) (e : CmdEntry) (s : State) : State :=
  let w := e.word
  let n := cLen w
  s.wuRun g e [(cA w, vecBytes m.aBf n), (cB w, vecBytes m.bBf n), (cDst w, vecBytes m.dBf n)] lat (fun c =>
    vecOut m.dBf (List.zipWith f (c.vec m.aBf (cA w) n) (c.vec m.bBf (cB w) n)))

/-- A one-operand elementwise command. -/
def runUnary (f : F32 → F32) (lat : Nat) (m : WuFmt) (g : Nat) (e : CmdEntry) (s : State) : State :=
  let w := e.word
  let n := cLen w
  s.wuRun g e [(cA w, vecBytes m.aBf n), (cDst w, vecBytes m.dBf n)] lat (fun c =>
    vecOut m.dBf ((c.vec m.aBf (cA w) n).map f))

/-- WU_FMA: a × b + d, the destination being the accumulator (R78). -/
def runFma (m : WuFmt) (g : Nat) (e : CmdEntry) (s : State) : State :=
  let w := e.word
  let n := cLen w
  s.wuRun g e [(cA w, vecBytes m.aBf n), (cB w, vecBytes m.bBf n), (cDst w, vecBytes m.dBf n)] 4 (fun c =>
    vecOut m.dBf (List.zipWith (fun (x : F32 × F32) d => ffma x.1 x.2 d)
      ((c.vec m.aBf (cA w) n).zip (c.vec m.bBf (cB w) n)) (c.vec m.dBf (cDst w) n)))

/-! ### Reduction -/

/-- One level of the binary tree over lane values. -/
def treeLevel (f : F32 → F32 → F32) : List F32 → List F32
  | a :: b :: t => f a b :: treeLevel f t
  | l => l

/-- Five levels over 32 lanes. -/
def tree32 (f : F32 → F32 → F32) (l : List F32) : F32 :=
  (treeLevel f (treeLevel f (treeLevel f (treeLevel f (treeLevel f l))))).headD 0

/-- The reduction of R71: 32 lanes, each folding every 32nd element in ascending order, then the tree. -/
def reduceVec (mx : Bool) (l : List F32) : F32 :=
  let f := if mx then fmax else fadd
  let lanes := (List.range 32).map (fun i =>
    match ((List.range l.length).filter (fun k => k % 32 = i)).map (fun k => l.getD k 0) with
    | [] => if mx then negInf else (0 : F32)
    | x :: t => t.foldl f x)
  tree32 f lanes

/-- WU_REDUCE (R71, R78): one FP32 value, a sum or a maximum. -/
def runReduce (m : WuFmt) (g : Nat) (e : CmdEntry) (s : State) : State :=
  let w := e.word
  let n := cLen w
  s.wuRun g e [(cA w, vecBytes m.aBf n), (cDst w, 4)] 9 (fun c =>
    leBytes 4 (reduceVec (bit w 0) (c.vec m.aBf (cA w) n)).toNat)

/-! ### Rotary embedding -/

/-- a × b + c × d, each product rounded, or the second fused with the sum (log 6). -/
def ropeSum (a b c d : F32) : F32 := if Config.ropeFused then ffma c d (fmul a b) else fadd (fmul a b) (fmul c d)

/-- The rotated vector: pairs (2i, 2i + 1), or (i, i + n/2) with `half`, the table holding cosine and sine of each pair
(log 10); a last element without partner is a free value (log 9). -/
def ropeVec (half : Bool) (x tb : List F32) : List F32 :=
  let n := x.length
  let k := n / 2
  let pairOf (i : Nat) : Nat × Bool := if half then (i % max k 1, k ≤ i) else (i / 2, i % 2 = 1)
  (List.range n).map (fun i =>
    if i = 2 * k then Config.ropeOdd x tb else
    let (p, snd) := pairOf i
    let a := x.getD (if half then p else 2 * p) 0
    let b := x.getD (if half then p + k else 2 * p + 1) 0
    let cs := tb.getD (2 * p) 0
    let sn := tb.getD (2 * p + 1) 0
    if snd then ropeSum a sn b cs else ropeSum a cs (BitVec.ofNat 32 ((b.toNat + 2 ^ 31) % 2 ^ 32)) sn)

/-- WU_ROPE (R71, R78). -/
def runRope (m : WuFmt) (half : Bool) (g : Nat) (e : CmdEntry) (s : State) : State :=
  let w := e.word
  let n := cLen w
  s.wuRun g e [(cA w, vecBytes m.aBf n), (cB w, vecBytes m.bBf (2 * (n / 2))), (cDst w, vecBytes m.dBf n)] 6 (fun c =>
    vecOut m.dBf (ropeVec half (c.vec m.aBf (cA w) n) (c.vec m.bBf (cB w) (2 * (n / 2)))))

/-! ### Conversion -/

/-- Bytes of `n` elements in a format of WU_CVT; MX elements take whole blocks (R82). -/
def cvtBytes : CvtFmt → Nat → Nat
  | .f32, n => 4 * n
  | .bf16, n => 2 * n
  | .mxfp8, n => 33 * cdiv n 32
  | .mxfp4, n => 17 * cdiv n 32

/-- The FP32 value of an MX element; a NaN scale or element gives 0 (R81). -/
def mxElemF32 (a8 : Bool) (scale code : Nat) : F32 :=
  if scale = 255 then 0 else
  ftz (toF32 (FV.mul (if a8 then e4m3Val code else e2m1Val code) (.fin false 1 ((scale : Int) - 127))))

/-- The source elements and the NaNs decoded. -/
def cvtSource (c : Core) (f : CvtFmt) (a n : Nat) : List F32 × Nat :=
  match f with
  | .f32 => (c.vec false a n, 0)
  | .bf16 => (c.vec true a n, 0)
  | _ =>
    let a8 : Bool := f = .mxfp8
    let blks := (List.range (cdiv n 32)).map (fun b => c.act a8 (a + b * actBytes a8))
    ((blks.flatMap (fun b => b.1.map (mxElemF32 a8 b.2))).take n, (blks.map (actNans a8)).sum)

/-- Blocks of 32 consecutive elements; where LEN is no multiple of 32 the last is filled up with +0 and written whole, which R93 leaves open
(DESIGN CHOICE; log 96). -/
def blocks32 (l : List F32) : List (List F32) :=
  (List.range (cdiv l.length 32)).map (fun b => (List.range 32).map (fun i => l.getD (32 * b + i) 0))

/-- The target bytes, clips and NaNs (R91, R92). -/
def cvtTarget (f : CvtFmt) (l : List F32) : List Byte × Nat × Nat :=
  match f with
  | .f32 => (vecOut false (l.map quiet), 0, 0)
  | .bf16 => (vecOut true (l.map quiet), 0, 0)
  | _ =>
    let rs := (blocks32 l).map (fun b => mxBlock (f = .mxfp8) (b.map (fun x => f32Val (ftz x))))
    (rs.flatMap (fun r => mxBytes (f = .mxfp8) r.1 r.2.1), (rs.map (·.2.2.1)).sum, (rs.map (·.2.2.2)).sum)

/-- The source and the target format of a WU_CVT word, which its bits [3:0] give (R78; log 10). -/
def cvtFmts (w : Nat) : CvtFmt × CvtFmt := Config.cvtFormats (bits w 0 4)

/-- WU_CVT (R71, R93, R96). -/
def runCvt (g : Nat) (e : CmdEntry) (s : State) : State :=
  let w := e.word
  let n := cLen w
  let src := (cvtFmts w).1
  let dst := (cvtFmts w).2
  let (xs, nin) := cvtSource (s.core g) src (cA w) n
  let (bs, cl, nn) := cvtTarget dst xs
  if n = 0 then s.fail g e .illegal
  else if !rangeOk [.localStore] (cA w) (cvtBytes src n) || !rangeOk [.localStore] (cDst w) (cvtBytes dst n) then
    s.fail g e .addr
  else
    ((s.updCore g (fun c =>
      let c := { c with cnt := { c.cnt with nanIn := c.cnt.nanIn + nin, clip := c.cnt.clip + cl,
                                            nanOut := c.cnt.nanOut + nn } }
      if dst = .mxfp4 then c.addClips (cSlot w) cl false else c)).memWrite g (cDst w) bs).wideDone g e (cdiv n 32) 4

/-! ### The sparse product of variants (R284, R285) -/

/-- What the sparse product has done so far: destination values, busy cycles, NaNs met, and whether a record was bad. -/
structure SpAcc where
  vals : List F32 := []
  cycles : Nat := 0
  nans : Nat := 0
  bad : Bool := false
  deriving DecidableEq, Repr

/-- One product added to a destination value under R94, fused or not (log 6). -/
def spMac (d a b : F32) : F32 := if Config.spFused then ffma a b d else fadd d (fmul a b)

/-- One record: rows, column masks and deltas, and the activation block it meets. -/
def spRecord (rec : List Byte) (rows : List Nat) (masks : List Nat) (arr : Nat) (a8 : Bool) (blk : List Nat × Nat)
    (acc : SpAcc) : SpAcc :=
  let scale := (rec.getD 2 0).toNat
  let deltas := (rec.drop (8 + 4 * rows.length)).map (·.toNat)
  let starts := (List.range rows.length).map (fun k => ((masks.take k).map (fun m => (List.range 32).countP (bit m))).sum)
  let xs := inRank 2 (rows.zip (masks.zip starts))
  let vals := xs.foldl (fun vs (i, m, st) =>
    let x := mxElemF32 a8 blk.2 (blk.1.getD i 0)
    let cols := (List.range 32).filter (bit m)
    (List.range cols.length).foldl (fun vs k =>
      let j := 32 * arr + cols.getD k 0
      setAt vs j (spMac (vs.getD j 0) (mxElemF32 true scale (deltas.getD (st + k) 0)) x)) vs) acc.vals
  let n := (rec.getD 3 0).toNat + 1
  { acc with vals := vals, cycles := acc.cycles + 2 + rows.length,
             nans := acc.nans + b2n (scale = 255) + (deltas.take n).countP e4m3Nan + actNans a8 blk }

/-- The records from `st` on, at most `fuel` of them, until the end mark, the end of the stream, or a bad record. -/
def spStream (c : Core) (b xlen : Nat) (a8 : Bool) : Nat → List Byte → SpAcc → SpAcc
  | 0, _, acc => acc
  | fuel + 1, st, acc =>
    let hd := leNat (st.take 2)
    if st.length < 8 ∨ hd = 0 then acc else
    let rowmap := leNat ((st.drop 4).take 4)
    let rows := (List.range 32).filter (bit rowmap)
    let masks := (List.range rows.length).map (fun k => leNat ((st.drop (8 + 4 * k)).take 4))
    let n := (st.getD 3 0).toNat + 1
    let blkIx := bits hd 0 11
    if (masks.map (fun m => (List.range 32).countP (bit m))).sum ≠ n ∨ xlen ≤ blkIx then { acc with bad := true } else
    let len := cdiv (8 + 4 * rows.length + n) 4 * 4
    spStream c b xlen a8 fuel (st.drop len)
      (spRecord st rows masks (bits hd 11 2) a8 (c.act a8 (b + blkIx * actBytes a8)) acc)

/-- WU_SPDELTA (R285). -/
def runSpdelta (xlen : Nat) (g : Nat) (e : CmdEntry) (s : State) : State :=
  let w := e.word
  let a8 := bit w 0
  if cLen w = 0 ∨ bits w 1 7 ≠ 0 then s.fail g e .illegal
  else if !rangeOk [.localStore] (cA w) (32 * cLen w) || !rangeOk lsOrBuf (cB w) (xlen * actBytes a8) ||
      !rangeOk [.localStore] (cDst w) 512 then s.fail g e .addr
  else
    let c := s.core g
    let r := spStream c (cB w) xlen a8 (4 * cLen w) (c.read (cA w) (32 * cLen w)) { vals := c.vec false (cDst w) 128 }
    ((s.updCore g (fun c => { c with cnt := { c.cnt with nanIn := c.cnt.nanIn + r.nans,
                                                         deltaFmt := c.cnt.deltaFmt + b2n r.bad } })).memWrite g (cDst w)
      (vecOut false r.vals)).wideDone g e (max r.cycles 1) 6

/-! ### The slab copy, and the slab read port -/

/-- Starts a copy: the bytes move, and the port is held for ⌈bytes / 640⌉ cycles (R71). -/
def startCopy (s : State) (g : Nat) (e : CmdEntry) : State :=
  let w := e.word
  let n := 32 * cLen w
  let busy := cdiv n 640
  let cyc := s.cycOf g
  ((s.memWrite g (cB w) ((s.core g).read (cA w) n)).updCore g (fun c => { c with portFree := cyc + busy })).wideDone g e busy 2

/-- WU_COPY (R71, R78). -/
def runCopy (g : Nat) (e : CmdEntry) (s : State) : State :=
  let w := e.word
  let n := 32 * cLen w
  if cLen w = 0 then s.fail g e .illegal
  else if !rangeOk [.slabArea] (cA w) n || !rangeOk [.localStore] (cB w) n then s.fail g e .addr
  else if (s.core g).portReady (s.cycOf g) then startCopy s g e
  else s.issueOpen g e.idx false true

/-- SLAB_READ_PORT_START (R65, R71, R117): the earliest waiting command starts once the port is free. -/
def slabReadPortStart (s : State) (g : Nat) : State :=
  let c := s.core g
  match c.queue.find? (fun e => e.wait) with
  | none => s
  | some e =>
    if s.coreRuns g && c.portFree ≤ s.cycOf g then
      match unitOf (cOp e.word) with
      | some .array => startPass s g e
      | some .attention => startStream s g e
      | some .wide => startCopy s g e
      | _ => s
    else s

/-- SLAB_READ_PORT_START. -/
def execSlabReadPortStart (g : Nat) (s : State) : Out := .next (slabReadPortStart s g)
/-- WU_ADD. -/
def execWuAdd (g : Nat) (f : WuFmt) (u : Upset) (s : State) : Out := .next (s.issue g 0x20 u (runBinary fadd 3 f g))
/-- WU_MUL. -/
def execWuMul (g : Nat) (f : WuFmt) (u : Upset) (s : State) : Out := .next (s.issue g 0x21 u (runBinary fmul 3 f g))
/-- WU_FMA. -/
def execWuFma (g : Nat) (f : WuFmt) (u : Upset) (s : State) : Out := .next (s.issue g 0x22 u (runFma f g))
/-- WU_MAX. -/
def execWuMax (g : Nat) (f : WuFmt) (u : Upset) (s : State) : Out := .next (s.issue g 0x23 u (runBinary fmax 3 f g))
/-- WU_EXP. -/
def execWuExp (g : Nat) (f : WuFmt) (u : Upset) (s : State) : Out := .next (s.issue g 0x24 u (runUnary fexp 8 f g))
/-- WU_RSQRT. -/
def execWuRsqrt (g : Nat) (f : WuFmt) (u : Upset) (s : State) : Out := .next (s.issue g 0x25 u (runUnary frsqrt 12 f g))
/-- WU_RECIP. -/
def execWuRecip (g : Nat) (f : WuFmt) (u : Upset) (s : State) : Out := .next (s.issue g 0x26 u (runUnary frecip 10 f g))
/-- WU_SILU. -/
def execWuSilu (g : Nat) (f : WuFmt) (u : Upset) (s : State) : Out := .next (s.issue g 0x27 u (runUnary fsilu 14 f g))
/-- WU_ROPE. -/
def execWuRope (g : Nat) (f : WuFmt) (half : Bool) (u : Upset) (s : State) : Out :=
  .next (s.issue g 0x28 u (runRope f half g))
/-- WU_REDUCE. -/
def execWuReduce (g : Nat) (f : WuFmt) (u : Upset) (s : State) : Out := .next (s.issue g 0x29 u (runReduce f g))
/-- WU_CVT. -/
def execWuCvt (g : Nat) (u : Upset) (s : State) : Out := .next (s.issue g 0x2A u (runCvt g))
/-- WU_SPDELTA. -/
def execWuSpdelta (g xlen : Nat) (u : Upset) (s : State) : Out := .next (s.issue g 0x2B u (runSpdelta xlen g))
/-- WU_COPY. -/
def execWuCopy (g : Nat) (u : Upset) (s : State) : Out := .next (s.issue g 0x2C u (runCopy g))

end Sys2Proof.Machine
end

