-- ==== Sys2Proof/Machine/Sync.lean ====
section
/-! DEFINITION. Windows and semaphores as a core's commands use them (R135 to R137, R144), and the declaration of a
faulty source core (R146, R147). -/

namespace Sys2Proof.Machine

/-- Window `wid` of a core. -/
def Core.win (c : Core) (wid : Nat) : Window := Table.get {} c.wins wid

/-- Changes a window. -/
def Core.updWin (c : Core) (wid : Nat) (f : Window → Window) : Core := { c with wins := Table.upd {} c.wins wid f }

/-- A semaphore's count. -/
def Core.sem (c : Core) (sid : Nat) : Nat := Table.get 0 c.sems sid

/-- Sets a semaphore. -/
def Core.setSem (c : Core) (sid v : Nat) : Core := { c with sems := Table.set 0 c.sems sid v }

/-- The partition's tick as the core's router sees it. -/
def State.tickOf (s : State) (g : Nat) : Nat := (s.part ((s.corePart g).getD 0)).tick

/-- The running count of schedule cycles of the core's partition. -/
def State.schedOf (s : State) (g : Nat) : Nat := (s.part ((s.corePart g).getD 0)).sched

/-- The route entry of input port `port` and label `l` at router `g` (R155). -/
def Router.route (r : Router) (port l : Nat) : Nat := Table.get 0 r.routes (port * 256 + l)

/-- The core that takes what crosses to port L at router `g`: its own, or the spare that stands in for it (R297). -/
def State.ejectCore (s : State) (g : Nat) : Nat :=
  let y := cragOf g
  if s.rd (cragPage y) crag.STAND_FOR = cragLocal g then spareCore y else g

/-- The router through whose port L a core sends and receives: its own, or that of the dead core for which it stands in (R297). -/
def State.routerOf (s : State) (g : Nat) : Nat :=
  let y := cragOf g
  let d := s.rd (cragPage y) crag.STAND_FOR
  if cragLocal g = 11 ∧ d ≠ 15 then cragCore y d else g

/-! ### Windows -/

/-- WIN_OPEN (R136, R137, R141): the window opens, the flits held under its new stamp are released, and the counts of its
route entries start again (R162). -/
def runWinOpen (g : Nat) (e : CmdEntry) (s : State) : State :=
  let w := e.word
  let wid := bits w 0 6
  let c := s.core g
  if bits w 6 2 ≠ 0 ∨ bits w 28 4 ≠ 0 ∨ cLen w = 0 ∨ cA w % 32 ≠ 0 ∨ (c.win wid).openedIn then s.fail g e .illegal
  else if !rangeOk [.localStore, .inputBuf, .slabArea] (cA w) (32 * cLen w) then s.fail g e .addr
  else
    let stamp := s.tickOf g % 256
    let old := c.win wid
    let out := old.early.filter (fun f => f.flit.stamp = stamp)
    let r := s.router (s.routerOf g)
    (s.updCore g (fun c =>
      let c := c.updWin wid (fun v => { v with base := cA w, len := cLen w, expect := bits w 8 20, count := 0,
                                               stamp := stamp, state := .opened, openedIn := true, closing := false,
                                               early := old.early.filter (fun f => f.flit.stamp ≠ stamp) })
      { c with rel := c.rel ++ out.map (fun f => { f with since := s.clock + 1 }),
               counts := c.counts.filter (fun x => x.1 ≠ wid),
               applied := c.applied.filter (fun x => rtWid (Table.get 0 r.routes x.1) ≠ wid) })).finishAt g e.idx
        (s.cycOf g + 1)

/-- WIN_CLOSE (R136, R137): the window closes at the end of this cycle. -/
def runWinClose (g : Nat) (e : CmdEntry) (s : State) : State :=
  let w := e.word
  let wid := bits w 0 6
  let v := (s.core g).win wid
  if bits w 6 26 ≠ 0 ∨ cA w ≠ 0 ∨ cLen w ≠ 0 ∨ v.state ≠ .opened ∨ v.closing then s.fail g e .illegal else
  (s.updCore g (fun c => c.updWin wid (fun v => { v with closing := true }))).finishAt g e.idx (s.cycOf g + 1)

/-- WIN_WAIT (R136): a barrier until COUNT reaches EXPECT; done at once if it already has. -/
def runWinWait (g : Nat) (e : CmdEntry) (s : State) : State :=
  let w := e.word
  let v := (s.core g).win (bits w 0 6)
  if bits w 6 26 ≠ 0 ∨ cA w ≠ 0 ∨ cLen w ≠ 0 ∨ !v.openedIn then s.fail g e .illegal else
  let s := s.issueOpen g e.idx true false
  if v.expect ≤ v.count then s.finishAt g e.idx (s.cycOf g) else s

/-! ### Semaphores -/

/-- Raises a semaphore by one; a count raised above 65,535 is step error QUEUE (R144). -/
def State.raiseSem (s : State) (g sid idx : Nat) : State :=
  let v := (s.core g).sem sid + 1
  if 65535 < v then s.stepErr g .queue idx else s.updCore g (fun c => c.setSem sid v)

/-- SEM_SIGNAL (R144). -/
def runSemSignal (g : Nat) (e : CmdEntry) (s : State) : State :=
  (s.raiseSem g (bits e.word 0 5) e.idx).finishAt g e.idx (s.cycOf g + 1)

/-- SEM_WAIT (R144): a barrier that completes in a later cycle in which the count is not zero. -/
def runSemWait (g : Nat) (e : CmdEntry) (s : State) : State := s.issueOpen g e.idx true false

/-! ### Faulty sources (R146, R147, R291) -/

/-- What the crag page shows of a core that is found dead (R316, R317). -/
def State.showDead (s : State) (g : Nat) : State :=
  let pg := cragPage (cragOf g)
  let s := if cragLocal g = 15 then s.setFlag pg crag.PARITY_DEAD true
    else if cragLocal g = 11 then (s.setFlag pg crag.SPARE_DEAD true).setFlag pg crag.UNPROT true else s
  s.err pg 0

/-- Gives a core to its partition's generator as dead, with the PATH code of R314 and the cause that an aborted tick records. -/
def State.addDead (s : State) (p src cause path : Nat) : State :=
  if (s.part p).deadNow.any (fun e => e.1 = src) then s else
  (s.updPart p (fun x => { x with deadNow := x.deadNow ++ [(src, path)], deadCause := max x.deadCause cause })).showDead src

/-- Declares a core faulty: the declaration fields, the reports about it removed, and the core given to its partition's
generator as dead. -/
def State.declare (s : State) (p src cause path : Nat) : State :=
  if (s.part p).deadNow.any (fun e => e.1 = src) then s else
  let s := ((s.wr (.tickgen p) tickgen.DECL_SRC src).setFlag (.tickgen p) tickgen.DECL_VALID true).inc (.tickgen p)
    tickgen.DECL_CNT 1
  let s := ((s.keepRole p src).addDead p src cause path).updPart p (fun x => { x with lateTbl := x.lateTbl.filter (fun e => e.1 ≠ src) })
  (s.updCore src (fun c => { c with faulty := true })).wr (.tickgen p) tickgen.LATE_TBL_USED (s.part p).lateTbl.length

/-- WIN_OPEN. -/
def execWinOpen (g : Nat) (s : State) : Out := .next (s.issue g 0x40 .none (runWinOpen g))
/-- WIN_CLOSE. -/
def execWinClose (g : Nat) (s : State) : Out := .next (s.issue g 0x41 .none (runWinClose g))
/-- WIN_WAIT. -/
def execWinWait (g : Nat) (s : State) : Out := .next (s.issue g 0x42 .none (runWinWait g))
/-- SEM_SIGNAL. -/
def execSemSignal (g : Nat) (s : State) : Out := .next (s.issue g 0x50 .none (runSemSignal g))
/-- SEM_WAIT. -/
def execSemWait (g : Nat) (s : State) : Out := .next (s.issue g 0x51 .none (runSemWait g))

end Sys2Proof.Machine
end

