-- ==== Sys2Proof/Machine/Mesh.lean ====
section
/-! DEFINITION. The mesh: sends, injection, arrivals at routers, displacement, in-network reduction, bulk traffic
and saddles (R151 to R181). -/

namespace Sys2Proof.Machine

/-! ### Send commands (R159 to R161) -/

/-- The checks of SEND, SEND_MC and SEND_RED (R159). -/
def sendCheck (w : Nat) : Option StepCode :=
  let stride := max (bits w 16 8) 1
  if cLen w = 0 ∨ 6 < bits w 8 4 ∨ bits w 48 24 ≠ 0 ∨ bits w 12 4 ≠ 0 ∨ bits w 24 8 ≠ 0 then some .illegal
  else if bits w 8 4 ≠ 6 ∧ !rangeOk lsOrBuf (cA w) ((cLen w - 1) * stride * 32 + 32) then some .addr
  else none

/-- A send (R159, R160): the send unit takes it and reads one flit a cycle into the injection queue. -/
def runSend (g : Nat) (e : CmdEntry) (s : State) : State :=
  let w := e.word
  match sendCheck w with
  | some code => s.fail g e code
  | none =>
    let lane := if cAll w then 0 else ((s.core g).slotOf w).lane
    (s.updCore g (fun c => { c with
      send := some { idx := e.idx, addr := cA w, stride := max (bits w 16 8) 1, left := cLen w, op := bits w 8 4,
                     route := bits w 0 8, lane := lane } })).issueOpen g e.idx false false

/-- SEND_SPINE (R161): the send unit writes words into the tile's spine drop queue. -/
def runSendSpine (g : Nat) (e : CmdEntry) (s : State) : State :=
  let w := e.word
  if cLen w = 0 then s.fail g e .illegal
  else if !rangeOk lsOrBuf (cA w) (32 * cLen w) then s.fail g e .addr
  else
    (s.updCore g (fun c => { c with
      send := some { idx := e.idx, addr := cA w, left := cLen w, spineTag := some (bits w 0 16),
                     lane := (c.slotOf w).lane } })).issueOpen g e.idx false false

/-! ### Leaving a router -/

/-- Router `g` has memory saddle ports: (0, cy) of a west edge tile or (15, cy) of an east one (R151). -/
def memRouter (g : Nat) : Option Nat :=
  let t := tileOf g
  if txOf t = 0 ∧ cxOf g = 0 then some (tyOf t) else if txOf t = 8 ∧ cxOf g = 15 then some (8 + tyOf t) else none

/-- Where a flit that leaves router `g` by port `o` arrives: destination, port, delay, and the saddle crossed as its key and
channel (R151, R152, R167, R168, R171).  A site's channel n is destination 32,768 + site, port n. -/
def hop (g o : Nat) : Option (Nat × Nat × Nat × Option (Nat × Nat × Nat)) :=
  let t := tileOf g
  match o with
  | 0 => if 0 < cyOf g then some (g - 16, 2, 1, none) else
    match neighbour t 0, channelAt (cxOf g) with
    | some u, some c => some (coreAt u (cxOf g) 15, 2, 11, some (t, 0, c))
    | _, _ => none
  | 1 => if cxOf g < 15 then some (g + 1, 3, 1, none) else
    match neighbour t 1, channelAt (cyOf g) with
    | some u, some c => some (coreAt u 0 (cyOf g), 3, 11, some (t, 1, c))
    | _, _ => none
  | 2 => if cyOf g < 15 then some (g + 16, 0, 1, none) else
    match neighbour t 2, channelAt (cxOf g) with
    | some u, some c => some (coreAt u (cxOf g) 0, 0, 11, some (t, 2, c))
    | _, _ => none
  | 3 => if 0 < cxOf g then some (g - 1, 1, 1, none) else
    match neighbour t 3, channelAt (cyOf g) with
    | some u, some c => some (coreAt u 15 (cyOf g), 1, 11, some (t, 3, c))
    | _, _ => none
  | 5 => (memRouter g).map (fun m => (32768 + m, 2 * cyOf g, 11, none))
  | 6 => (memRouter g).map (fun m => (32768 + m, 2 * cyOf g + 1, 11, none))
  | _ => none

/-- A saddle's logical channel carries flits: not fenced, not DOWN, and not failed unless the spare carries it (R169, R170). -/
def State.channelUp (s : State) (t e c : Nat) : Bool :=
  let pg := Page.saddle t e
  !s.flag pg saddle.FENCED && !s.flag pg saddle.DOWN &&
    (!((s.saddle (saddleKey t e)).failed.contains c) || s.rd pg saddle.SPARE_FOR = c)

/-- The routers of partition `p` discard every flit: a drain is under way (R33). -/
def State.draining (s : State) (p : Nat) : Bool := match (s.part p).phase with | .drain _ => true | _ => false

/-- A router queue or buffer has overflowed: MESH bit QUEUE, and step error QUEUE of the router up the status tree (R166, R168, R180). -/
def State.routerQueueErr (s : State) (g : Nat) : State :=
  (s.err (.mesh (tileOf g)) 4).updPart ((s.corePart g).getD 0)
    (fun x => { x with routerErrs := addSet x.routerErrs [g], failCode := max x.failCode 4 })

/-- Counts an event in the MESH page. -/
def State.meshCount (s : State) (g : Nat) (f : Field) (b : Nat) : State :=
  (s.inc (.mesh (tileOf g)) f 1).err (.mesh (tileOf g)) b

/-- Puts a flit on a link. -/
def State.launch (s : State) (p dst port delay : Nat) (f : Flit) : State :=
  s.setLinks (s.links ++ [⟨dst, port, (s.part p).sched + delay, f⟩])

/-- A flit leaves router `g` by port `o`, having entered by `port` with route label `label`, and takes `out` as its label
(R152, R155, R157, R162, R297).  Ejection clears the displaced marker; a full ejection queue is step error QUEUE (R54, R180). -/
def State.cross (s : State) (g o port label out : Nat) (f : Flit) : State :=
  if o = portL then
    let k := s.ejectCore g
    if 8 ≤ (s.core k).ej.length then (s.err (.mesh (tileOf g)) 4).stepErr k .queue else
    s.updCore k (fun c => { c with ej := c.ej ++ [⟨{ f with displaced := false }, g, port, label,
      s.clock + (if k = g then 1 else 5)⟩] })
  else
    match hop g o with
    | none => s
    | some (dst, pt, d, none) => s.launch f.part dst pt d { f with route := out }
    | some (dst, pt, d, some (t, e, c)) =>
      if s.channelUp t e c then s.launch f.part dst pt d { f with route := out } else s

/-- A flit leaves by several ports. -/
def State.crossAll (s : State) (g : Nat) (os : List Nat) (port label out : Nat) (f : Flit) : State :=
  os.foldl (fun s o => s.cross g o port label out f) s

/-- The slot entries of router `g` at cycle `cyc`. -/
def Router.slotsAt (r : Router) (cyc : Nat) : List Nat := r.slots.filter (fun e => slCycle e = cyc)

/-- The slot entries that match a flit at a port with a label (R157). -/
def Router.hits (r : Router) (cyc port label : Nat) : List Nat :=
  (r.slotsAt cyc).filter (fun e => slIn e = port ∧ slLabel e = label)

/-- A col: the output port has no slot entry in this cycle (R47); in a held boundary every cycle is one (R230). -/
def State.isCol (s : State) (g o : Nat) : Bool :=
  match s.corePart g with
  | none => true
  | some p => !s.running p || !((s.router g).slotsAt (s.part p).cyc).any (fun e => slOut e = o)

/-- An output port that unscheduled flits may still use in this clock cycle. -/
def State.freePort (s : State) (g o : Nat) : Bool :=
  let u := (s.router g).used
  s.isCol g o && !(u.1 = s.clock + 1 && u.2.contains o)

/-- Marks ports as used in this clock cycle; 16 stands for the input from L (R152, R160). -/
def State.usePorts (s : State) (g : Nat) (os : List Nat) : State :=
  s.updRouter g (fun r => { r with used := (s.clock + 1, if r.used.1 = s.clock + 1 then r.used.2 ++ os else os) })

/-! ### Injection (R160) -/

/-- The ports of router `g` used in this clock cycle contain `o`. -/
def State.usedPort (s : State) (g o : Nat) : Bool :=
  let u := (s.router g).used
  u.1 = s.clock + 1 && u.2.contains o

/-- A queued command is a send of one of the routes `ls`. -/
def CmdEntry.sends (e : CmdEntry) (ls : List Nat) : Bool :=
  (cOp e.word = 0x30 || cOp e.word = 0x31 || cOp e.word = 0x32) && ls.contains (bits e.word 0 8)

/-- Whether a send of route `l` is still to come in this tick: selected and not yet issued, in progress, or waiting. -/
def Core.sendPending (c : Core) (l : Nat) : Bool :=
  c.queue.any (fun e => !e.issued && c.selected e.word && e.sends [l]) ||
  (match c.send with | some j => j.spineTag = none && j.route = l | none => false) ||
  c.outFlits.any (fun f => f.route = l) || (c.inj.any (fun f => f.2.route = l))

/-- Takes the head of a core's injection queue; a send is done when its last flit has crossed (R78). -/
def State.popInj (s : State) (k : Nat) : State :=
  match (s.core k).inj with
  | [] => s
  | (_, f) :: t =>
    let s := s.updCore k (fun c => { c with inj := t })
    match f.last with
    | some idx => s.finishAt k idx (s.cycOf k)
    | none => s

/-- Puts a reduction operand into the router's reduction buffer, or discards it (R164, R178). -/
def State.redOperand (s : State) (g port entry : Nat) (f : Flit) : State :=
  let p := (s.corePart g).getD 0
  if f.stamp ≠ (s.part p).tick % 256 ∨ f.op = 0 ∨ 5 < f.op then s else
  if 16 ≤ (s.router g).red.length then s.routerQueueErr g
  else s.updRouter g (fun r => { r with red := r.red ++ [⟨rtRctx entry, port, f, (s.part p).sched⟩] })

/-- The command that ERR_CMD names for a SEND_MISS in slots of the labels `ls` (R75; log 76): the send in progress of such a route, else
the first such send that waits, else the oldest command not retired. -/
def Core.missCmd (c : Core) (ls : List Nat) : Nat :=
  match c.send.filter (fun j => j.spineTag = none && ls.contains j.route), c.queue.find? (fun e => !e.issued && e.sends ls), c.queue with
  | some j, _, _ => j.idx
  | none, some e, _ => e.idx
  | none, none, e :: _ => e.idx
  | none, none, [] => c.fetchIdx

/-- Slot entries from L through which nothing crossed: step error SEND_MISS, unless the sends of all of them were skipped in this tick
(R160; log 15). -/
def State.slotMissed (s : State) (k : Nat) (es : List Nat) : State :=
  let c := s.core k
  if es.all (fun e => c.quiet.contains (slLabel e) && !c.sendPending (slLabel e)) then s
  else s.stepErr k .sendMiss (c.missCmd (es.map slLabel))

/-- The slot entries of this cycle through which a flit of the core itself crosses: IN = L, and no reduction (R160, R164). -/
def Router.injSlots (r : Router) (cyc : Nat) : List Nat :=
  (r.slotsAt cyc).filter (fun e => slIn e = portL && rtRedK (r.route portL (slLabel e)) = 0)

/-- SLOT_INJECTION (R160) at router `g`, once a cycle (R152): in a slot entry from L the head of the injection queue crosses if its
label matches, or is discarded where its route entry is not valid (R155); else step error SEND_MISS.  A reduction operand of the
core itself goes to the reduction buffer when it is the head (log 15). -/
def slotInjection (s : State) (g : Nat) : State :=
  match s.corePart g with
  | none => s
  | some p =>
    if !s.inBody p || s.usedPort g 16 then s else
    let k := s.ejectCore g
    let r := s.router g
    let es := r.injSlots (s.part p).cyc
    match (s.core k).inj with
    | (t, f) :: _ =>
      let ent := r.route portL f.route
      let m := es.filter (fun e => slLabel e = f.route)
      if (s.part p).sched < t then s.slotMissed k es
      else if rtValid ent ∧ rtRedK ent ≠ 0 then
        ((s.usePorts g [16]).redOperand g portL ent f).popInj k |>.slotMissed k es
      else if m = [] then s.slotMissed k es
      else if !rtValid ent then ((s.usePorts g [16]).meshCount g mesh.MISROUTE_CNT 3).popInj k
      else ((s.usePorts g (16 :: m.map slOut)).crossAll g (m.map slOut) portL f.route (rtOutLabel ent) f).popInj k
    | [] => s.slotMissed k es

/-! ### Arrivals (R157, R158, R164, R169, R172, R176) -/

/-- A flit on a link to input `port` of router `dst` is due. -/
def State.isDue (s : State) (dst port : Nat) (l : LinkFlit) : Bool :=
  decide (l.dst = dst) && decide (l.port = port) && decide (l.due ≤ (s.part l.flit.part).sched)

/-- Takes the first flit due at a port, with whether it comes after the cycle in which it was due. -/
def State.takeDue (s : State) (dst port : Nat) : Option (Flit × Bool × State) :=
  match splitFirst (s.isDue dst port) s.links with
  | none => none
  | some (a, x, b) => some (x.flit, decide (x.due < (s.part x.flit.part).sched), s.setLinks (a ++ b))

/-- The flits of a list that a predicate picks, without those after the first 8 picked. -/
def keepEight (p : LinkFlit → Bool) : Nat → List LinkFlit → List LinkFlit
  | _, [] => []
  | n, l :: t => if !p l then l :: keepEight p n t else if n < 8 then l :: keepEight p (n + 1) t else keepEight p n t

/-- The phase FIFO of an input that a saddle feeds holds the flits due there, 8 at most (R168, R181): a write to the full FIFO is lost. -/
def State.phaseFifo (s : State) (g port edge : Nat) : State :=
  let n := s.links.countP (s.isDue g port)
  let pg := Page.saddle (tileOf g) edge
  let s := s.raise pg saddle.FIFO_MAX (min n 8)
  if n ≤ 8 then s else ((s.setLinks (keepEight (s.isDue g port) 0 s.links)).err pg 4).routerQueueErr g

/-- The edge of a tile on which input port `port` of router `g` comes from a saddle: 0 to 3, and 4 for the memory saddle. -/
def inEdge (g port : Nat) : Option Nat :=
  match port with
  | 0 => if cyOf g = 0 then some 0 else none
  | 1 => if cxOf g = 15 then some 1 else none
  | 2 => if cyOf g = 15 then some 2 else none
  | 3 => if cxOf g = 0 then some 3 else none
  | 5 => some 4
  | 6 => some 4
  | _ => none

/-- WATERSHED_DROP (R176). -/
def State.watershedDrop (s : State) (g port part : Nat) : State :=
  let pg := Page.mesh (tileOf g)
  (((s.meshCount g mesh.WS_DROP_CNT 0).wr pg mesh.WS_DROP_RTR (g % 256)).wr pg mesh.WS_DROP_PORT port).wr pg
    mesh.WS_DROP_PART part |>.raiseFlag pg mesh.WS_DROP_VALID

/-- A flit of input `port` and label `label` is displaced in this tick (R158). -/
def State.markRoute (s : State) (g port label : Nat) : State :=
  (s.updRouter g (fun r => { r with dispRoutes := addSet r.dispRoutes [port * 256 + label] })).inc (.mesh (tileOf g)) mesh.DISP_CNT 1

/-- FLIT_DISPLACE (R158): into the displacement buffer, or discarded when that is full. -/
def State.displace (s : State) (g port entry : Nat) (f : Flit) : State :=
  let p := (s.corePart g).getD 0
  let s := s.markRoute g port f.route
  if 8 ≤ (s.router g).disp.length then s.meshCount g mesh.DISP_DROP_CNT 1 else
  s.updRouter g (fun r => { r with disp := r.disp ++ [⟨{ f with displaced := true }, port, (s.part p).sched,
    portsOf (rtMask entry)⟩] })

/-- A flit at a router input, once it has passed the link and the watershed; one that is late for its slot is displaced (R168). -/
def State.arrive (s : State) (g port : Nat) (f : Flit) (late : Bool) : State :=
  let p := (s.corePart g).getD 0
  let r := s.router g
  if 0xB ≤ f.op then s.meshCount g mesh.MISROUTE_CNT 3
  else if f.op = 8 ∨ f.site ≠ none then
    if 4 ≤ r.bulk.length then s.routerQueueErr g
    else s.updRouter g (fun r => { r with bulk := r.bulk ++ [f] })
  else
    let ent := r.route port f.route
    if !rtValid ent then s.meshCount g mesh.MISROUTE_CNT 3
    else
      let moved := late || f.displaced || r.dispRoutes.contains (port * 256 + f.route)
      if rtRedK ent ≠ 0 then
        if moved then (s.markRoute g port f.route).meshCount g mesh.DISP_DROP_CNT 1
        else s.redOperand g port ent f
      else
        let es := r.hits (s.part p).cyc port f.route
        if !moved && es ≠ [] && s.steps p then s.crossAll g (es.map slOut) port f.route (rtOutLabel ent) f
        else s.displace g port ent f

/-- The channel that feeds a router input across an edge: of a saddle the physical one, 6 where the spare carries it (R169); of the
memory saddle channel 2r or 2r + 1 (R171). -/
def State.inChannel (s : State) (g port edge : Nat) : Nat :=
  if edge = 4 then 2 * cyOf g + (port - 5) else
  let c := (channelAt (if edge = 0 ∨ edge = 2 then cxOf g else cyOf g)).getD 0
  if s.rd (.saddle (tileOf g) edge) saddle.SPARE_FOR = c then 6 else c

/-- A flit that fails its CRC is counted, with the clock, at its channel (R169, R171). -/
def State.crcError (s : State) (g port edge : Nat) : State :=
  let t := tileOf g
  let ch := s.inChannel g port edge
  let s := (s.inc (.saddle t edge) saddle.CRC_ERR_CNT 1).err (.saddle t edge) 0
  if edge = 4 then
    match memRouter g with
    | some m => s.updSite m (fun x => { x with chans := Table.upd {} x.chans ch (fun c => { c with crcTimes := c.crcTimes ++ [s.clock] }) })
    | none => s
  else s.updSaddle (saddleKey t edge) (fun x => { x with crc := x.crc ++ [(ch, s.clock)] })

/-- The state once the phase FIFO of an input port that a saddle feeds has taken what is due there. -/
def State.atInput (s : State) (g port : Nat) : State :=
  match inEdge g port with
  | some e => s.phaseFifo g port e
  | none => s

/-- FLIT_ARRIVAL (R157, R158, R168, R169, R176): the flit due at an input port of router `g`.  In a drain it is discarded (R33), and in a hold
cycle it stays where it is until the schedule cycle for which it is due (R38). -/
def flitArrival (s : State) (g port : Nat) (crcBad : Bool) : State :=
  if s.inHoldCycle ((s.corePart g).getD 0) then s else
  let s := s.atInput g port
  match s.takeDue g port with
  | none => s
  | some (f, late, s) =>
    match inEdge g port, crcBad with
    | some e, true => s.crcError g port e
    | _, _ =>
      if s.rd (.mesh (tileOf g)) mesh.PART_ID ≠ f.part then s.watershedDrop g port f.part
      else if s.draining f.part then s
      else s.arrive g port f late

/-- DISPLACED_FORWARD (R158, R174): the oldest displaced flit leaves through those of its ports that are cols. -/
def displacedForward (s : State) (g : Nat) : State :=
  match (s.router g).disp with
  | [] => s
  | d :: rest =>
    let os := d.outs.filter (s.freePort g)
    if os = [] ∨ (s.running ((s.corePart g).getD 0) ∧ !s.steps ((s.corePart g).getD 0)) then s else
    let left := d.outs.filter (fun o => !os.contains o)
    let ent := (s.router g).route d.port d.flit.route
    let s := s.updRouter g (fun r => { r with disp := if left = [] then rest else { d with outs := left } :: rest })
    (s.usePorts g os).crossAll g os d.port d.flit.route (rtOutLabel ent) d.flit

/-- DISPLACED_TIMEOUT (R158): a displaced flit that has waited 256 cycles is discarded. -/
def displacedTimeout (s : State) (g : Nat) : State :=
  let now := (s.part ((s.corePart g).getD 0)).sched
  match splitFirst (fun d => decide (d.since + 256 ≤ now)) (s.router g).disp with
  | none => s
  | some (a, _, b) => (s.updRouter g (fun r => { r with disp := a ++ b })).meshCount g mesh.DISP_DROP_CNT 1

/-! ### Reduction (R164 to R166) -/

/-- The eight 32-bit words of a payload. -/
def words8 (bs : List Byte) : List F32 := (List.range 8).map (fun i => BitVec.ofNat 32 (leNat ((bs.drop (4 * i)).take 4)))

/-- A payload of eight words. -/
def bytes8 (ws : List F32) : List Byte := ws.flatMap (fun w => leBytes 4 w.toNat)

/-- An accumulating operation on a stored and an arriving payload (R142). -/
def accumulate (op : Nat) (st pl : List Byte) : List Byte :=
  match op with
  | 1 => bytes8 (List.zipWith (fun a b => a + b) (words8 st) (words8 pl))
  | 2 => bytes8 (List.zipWith fadd (words8 st) (words8 pl))
  | 3 => xorBytes st pl
  | 4 => bytes8 (List.zipWith fmaxRaw (words8 st) (words8 pl))
  | _ => pl

/-- Payload 0 of a merge of two triples: bytes 0 to 3 m, 4 to 7 l (R118, R119). -/
def lseHead0 (x y : List Byte) : LseHead :=
  let a := words8 x
  let b := words8 y
  lseHead (a.getD 0 0) (a.getD 1 0) (b.getD 0 0) (b.getD 1 0)

/-- Payload 0 of a merged triple. -/
def headBytes (h : LseHead) : List Byte := leBytes 4 h.m.toNat ++ leBytes 4 h.l.toNat ++ List.replicate 24 0

/-- Payloads 1 to 8 of a merge: sixteen BF16 elements under the factors. -/
def lseElems (h : LseHead) (x y : List Byte) : List Byte :=
  (List.range 16).flatMap (fun i =>
    let el (bs : List Byte) : B16 := BitVec.ofNat 16 (leNat ((bs.drop (2 * i)).take 2))
    leBytes 2 (lseElem h (el x) (el y)).toNat)

/-- Folds payload 0 of several triples in order: the result and the head of each fold. -/
def foldHeads : List Byte → List (List Byte) → List Byte × List LseHead
  | acc, [] => (acc, [])
  | acc, x :: xs =>
    let h := lseHead0 acc x
    let (r, hs) := foldHeads (headBytes h) xs
    (r, h :: hs)

/-- Folds later payloads under the heads. -/
def foldElems : List Byte → List (List Byte) → List LseHead → List Byte
  | acc, x :: xs, h :: hs => foldElems (lseElems h acc x) xs hs
  | acc, _, _ => acc

/-- The operands of a reduction at router `g`: (input port, label), ascending by port. -/
def Router.operands (r : Router) (rctx : Nat) : List (Nat × Nat) :=
  (r.routes.filter (fun e => rtValid e.2 && rtRedK e.2 ≠ 0 && rtRctx e.2 = rctx)).map (fun e => (e.1 / 256, e.1 % 256))

/-- The first operand flit of each port that a reduction still waits for or has. -/
def Router.have (r : Router) (rctx : Nat) : List (Option RedFlit) :=
  (r.operands rctx).map (fun o => r.red.find? (fun x => x.rctx = rctx ∧ x.port = o.1))

/-- Removes the first flit of a reduction from a port. -/
def dropFirst (rctx port : Nat) (l : List RedFlit) : List RedFlit :=
  match splitFirst (fun x => decide (x.rctx = rctx) && decide (x.port = port)) l with
  | some (a, _, b) => a ++ b
  | none => l

/-- The latency of R165 for `k` operands. -/
def redLatency (op k n : Nat) : Nat :=
  match op with
  | 1 => k - 1
  | 3 => k - 1
  | 5 => if n % 9 = 0 then 10 * (k - 1) else 2 * (k - 1)
  | _ => 2 * (k - 1)

/-- The slot entries of this cycle in which the result of `rctx` crosses. -/
def State.redSlots (s : State) (g rctx : Nat) : List Nat :=
  match (s.router g).operands rctx, s.corePart g with
  | (port, label) :: _, some p => if s.steps p then (s.router g).hits (s.part p).cyc port label else []
  | _, _ => []

/-- What a reduction yields now: its operand flits, its result payload, and the context after it; none while an operand is
missing or its latency has not passed. -/
def State.redReady (s : State) (g rctx : Nat) : Option (List RedFlit × List Byte × RedCtx) :=
  let r := s.router g
  let fs := (r.have rctx).filterMap id
  let now := (s.part ((s.corePart g).getD 0)).sched
  let cx := (r.redCtx.find? (fun c => c.rctx = rctx)).getD { rctx := rctx }
  match fs with
  | [] => none
  | f :: rest =>
    let k := fs.length
    let due := maxOf (fs.map (·.arr)) + redLatency f.flit.op k cx.n
    if k ≠ (r.operands rctx).length ∨ now < due ∨ now < cx.readyAt then none else
    if f.flit.op = 5 then
      if cx.n % 9 = 0 then
        let (res, hs) := foldHeads f.flit.payload (rest.map (·.flit.payload))
        some (fs, res, { cx with heads := hs, n := cx.n + 1, readyAt := now })
      else some (fs, foldElems f.flit.payload (rest.map (·.flit.payload)) cx.heads, { cx with n := cx.n + 1 })
    else some (fs, rest.foldl (fun acc x => accumulate f.flit.op acc x.flit.payload) f.flit.payload, { cx with n := cx.n + 1 })

/-- The slot of a reduction has been used, or has passed empty, in this schedule cycle (R152, R166). -/
def State.redDone (s : State) (g rctx : Nat) : Bool :=
  Table.get 0 (s.router g).redAt rctx = (s.part ((s.corePart g).getD 0)).sched + 1

/-- Marks it so. -/
def State.markRed (s : State) (g rctx : Nat) : State :=
  let n := (s.part ((s.corePart g).getD 0)).sched + 1
  s.updRouter g (fun r => { r with redAt := Table.set 0 r.redAt rctx n })

/-- REDUCTION_RESULT (R164, R165): the result crosses in the slot of its lowest-numbered operand, one in its cycle (R152).  Each merge with a NaN maximum counts
(R119, R166). -/
def reductionResult (s : State) (g rctx : Nat) : State :=
  let es := s.redSlots g rctx
  if es = [] || s.redDone g rctx then s else
  match s.redReady g rctx, (s.router g).operands rctx with
  | some (fs, res, cx), (port, label) :: _ =>
    match fs with
    | [] => s
    | f :: _ =>
      let nans : Nat := if f.flit.op = 5 ∧ cx.n % 9 = 1 then cx.heads.countP (fun h => isNan h.m) else 0
      let s := (s.markRed g rctx).updRouter g (fun r => { r with
        red := fs.foldl (fun l x => dropFirst rctx x.port l) r.red,
        redCtx := r.redCtx.filter (fun c => c.rctx ≠ rctx) ++
          (if f.flit.op = 5 ∧ cx.n % 9 ≠ 0 then [cx] else []) })
      let s := if nans = 0 then s else s.updCore g (fun c => { c with cnt := { c.cnt with lseNan := c.cnt.lseNan + nans } })
      s.crossAll g (es.map slOut) port label (rtOutLabel ((s.router g).route port label)) { f.flit with payload := res }
  | _, _ => s

/-- REDUCTION_INCOMPLETE (R166): in its slot cycle not every operand is there; they are discarded and the tick fails. -/
def reductionIncomplete (s : State) (g rctx : Nat) : State :=
  let p := (s.corePart g).getD 0
  if s.redSlots g rctx = [] ∨ (s.redReady g rctx).isSome ∨ s.redDone g rctx then s else
  let s := (s.markRed g rctx).updRouter g (fun r => { r with
    red := ((r.operands rctx).map (·.1)).foldl (fun l o => dropFirst rctx o l) r.red })
  (s.meshCount g mesh.RED_MISS_CNT 2).updPart p (fun x => { x with routerErrs := addSet x.routerErrs [g],
                                                                   failCode := max x.failCode 4 })

/-! ### Bulk traffic (R172 to R174, R200) -/

/-- The site a bulk flit goes to, and the destination tile and position of its next leg within the mesh. -/
def Flit.goal (f : Flit) : Nat × Nat × Nat × Nat :=
  match f.site with
  | some m =>
    let t := siteTile m
    (t, if txOf t = 0 then 0 else 15, f.tid % 32 / 2, 5 + f.tid % 2)
  | none => (tileOf f.bulkDst, cxOf f.bulkDst, cyOf f.bulkDst, portL)

/-- The output port by which a bulk flit leaves router `g`: towards the edge that the bulk direction table names, first along
x and then along y; none where the table names no way.  A flit bound for a site leaves its tile on channel TID mod 6 (DESIGN CHOICE; log 93). -/
def State.bulkPort (s : State) (g : Nat) (f : Flit) : Option Nat :=
  let (t, x, y, last) := f.goal
  let ch := attachPos ((if f.site = none then f.bulkDst else f.tid) % 6)
  let go (x y last : Nat) : Nat :=
    if cxOf g < x then 1 else if x < cxOf g then 3 else if cyOf g < y then 2 else if y < cyOf g then 0 else last
  if tileOf g = t then some (go x y last) else
  match Table.get 0 (s.tile (tileOf g)).bulkDir t with
  | 0 => none
  | e + 1 =>
    match e with
    | 0 => some (go ch 0 0)
    | 1 => some (go 15 ch 1)
    | 2 => some (go ch 15 2)
    | _ => some (go 0 ch 3)

/-- A credit for the bulk buffer at the far end of a hop. -/
def State.bulkCredit (s : State) (dst : Nat) : Bool :=
  32768 ≤ dst ||
    (s.router dst).bulk.length + s.links.countP (fun l => l.dst = dst ∧ (l.flit.op = 8 ∨ l.flit.site ≠ none)) < 4

/-- Delivers a completion word to the initiator of a transfer (R173, R200): the word goes out on the spine, and the transfer
keeps it. -/
def State.spineDone (s : State) (p tid status count : Nat) : State :=
  (s.emit (.spineDone (s.primary p) tid status count)).updPart p (fun x => { x with
    xfers := x.xfers.map (fun t => if t.cmd.tid = tid then { t with got := some (status, count) } else t) })

/-- The ejection unit writes a bulk flit at its destination core (R172, R173). -/
def State.bulkWrite (s : State) (g : Nat) (f : Flit) : State :=
  if 0x800000 < f.bulkOff + 24 then s.meshCount g mesh.BULK_ADDR_CNT 5 else
  let k := s.ejectCore g
  let s := (s.memWrite k (0x800000 + f.bulkOff) (f.payload.take 24)).inc (.mesh (tileOf g)) mesh.BULK_FLIT_CNT 1
  let n := Table.get 0 (s.router g).tidCnt f.tid + 1
  if f.bulkLast then (s.updRouter g (fun r => { r with tidCnt := Table.set 0 r.tidCnt f.tid 0 })).spineDone f.part f.tid 0 n
  else s.updRouter g (fun r => { r with tidCnt := Table.set 0 r.tidCnt f.tid n })

/-- One bulk flit moves on from router `g`, if its port is a col and the next buffer has a credit; at its destination, in a cycle in which
the slab write port is free (R173).  In a drain it is discarded (R33). -/
def State.bulkMove (s : State) (g : Nat) (f : Flit) (rest : State → State) : State :=
  if s.draining f.part then rest s else
  match s.bulkPort g f with
  | none => s
  | some o =>
    if !s.freePort g o then s else
    if o = portL then
      (if (s.core (s.ejectCore g)).slabAt = some s.clock then s else (rest (s.usePorts g [o])).bulkWrite g f)
    else
    match hop g o with
    | none => s
    | some (dst, pt, d, sd) =>
      let up := match sd with | none => true | some (t, e, c) => s.channelUp t e c
      if s.bulkCredit dst && up then (rest (s.usePorts g [o])).launch f.part dst pt d f else s

/-- The flit an export sends next: its request, then 32 bytes of the slab each (R200). -/
def exportFlit (s : State) (g : Nat) (d : ExportDesc) (i : Nat) : Flit :=
  let p := (s.corePart g).getD 0
  let stamp := (s.part p).tick % 256
  if i = 0 then { memReqFlit p stamp d with site := some d.site } else
  { part := p, stamp := stamp, op := 10, lane := d.tid / 256 % 256, route := d.tid % 256, site := some d.site,
    payload := (s.core (s.ejectCore g)).recv (0x800000 + d.slab + 32 * (i - 1)) 32 }

/-- The offset at which flit `i` of a copy begins: 24 bytes a flit, the last of them the last 24 of its range (log 93). -/
def CopyRun.at' (r : CopyRun) (i : Nat) : Nat := min (24 * i) (r.len - 24)

/-- The flits of a copy. -/
def CopyRun.flits (r : CopyRun) : Nat := cdiv r.len 24

/-- The flit that a copy sends next from core `g` (R229, R230): the slab as it is now. -/
def State.copyFlit (s : State) (g : Nat) (r : CopyRun) : Flit :=
  let p := (s.corePart g).getD 0
  bulkFlit p ((s.part p).tick % 256) r.tid r.dst (r.off + r.at' r.i) r.i (r.i + 1 = r.flits) ((s.core g).read (0x800000 + r.src + r.at' r.i) 24)

/-- A copy after one flit; the dirty bit of a block is cleared as its copy starts (R229). -/
def State.copyNext (s : State) (g : Nat) (r : CopyRun) (rest : List CopyRun) : State :=
  let o := r.src + r.at' r.i
  (s.updRouter g (fun x => { x with copies := if r.i + 1 = r.flits then rest else { r with i := r.i + 1 } :: rest })).updCore g (fun c =>
    { c with dirty := c.dirty.filter (fun b => !(o ≤ 4096 * b && 4096 * b < o + 24)) })

/-- CYCLE of a channel schedule entry (R194). -/
def csCycle (e : Nat) : Nat := bits e 0 16
/-- NFLIT, the number of flits. -/
def csFlits (e : Nat) : Nat := bits e 24 12 + 1

/-- Channel `ch` of site `m` may send a bulk flit to router `g` in this cycle: no entry of its schedule takes the cycle, no flit of the
channel went out in it, and the router's bulk buffer has a credit (R173, R201). -/
def State.siteCol (s : State) (m ch g p : Nat) : Bool :=
  let at11 := (s.part p).cyc + 11
  let due := (s.part p).sched + 11
  s.bulkCredit g && !s.links.any (fun l => l.dst = g && l.port = 5 + ch % 2 && l.due = due) &&
    !(s.running p && (Table.get {} (s.site m).chans ch).sched.any (fun e => csCycle e ≤ at11 && at11 < csCycle e + csFlits e))

/-- BULK (R173, R174, R200) at router `g`: the oldest bulk flit of its buffer moves on, once no displaced flit waits for the
port; with an empty buffer, a flit of an export or of a migration copy in progress, read in a cycle in which the slab read port is idle, or one
from the site on this router's memory saddle, with the stamp of its injection (R30).  In a held boundary every cycle is a col (R230). -/
def bulk (s : State) (g : Nat) : State :=
  let r := s.router g
  let p := (s.corePart g).getD 0
  if s.running p ∧ !s.steps p then s else
  if r.disp.any (fun d => d.outs.any (s.freePort g)) then s else
  let idle : Bool := !s.running p || (s.core (s.ejectCore g)).portFree ≤ (s.part p).cyc
  match r.bulk, r.exports with
  | f :: t, _ => s.bulkMove g f (fun s => s.updRouter g (fun r => { r with bulk := t }))
  | [], (d, i) :: t =>
    if i ≠ 0 && !idle then s else
    s.bulkMove g (exportFlit s g d i) (fun s => s.updRouter g (fun r =>
      { r with exports := if i = d.nflit then t else (d, i + 1) :: t }))
  | [], [] =>
    match r.copies with
    | c :: t => if !idle then s else s.bulkMove g (s.copyFlit g c) (fun s => s.copyNext g c t)
    | [] =>
    match memRouter g with
    | none => s
    | some m =>
      match splitFirst (fun f => decide (f.tid % 32 / 2 = cyOf g)) (s.site m).bulkOut with
      | none => s
      | some (a, f, b) =>
        if !s.siteCol m (f.tid % 32) g f.part then s else
        (s.updSite m (fun x => { x with bulkOut := a ++ b })).launch f.part g (5 + f.tid % 2) 11
          { f with stamp := (s.part f.part).tick % 256 }

/-- BULK_RETRY (R173): a transfer without a completion, or with a wrong count, is started again 2^20 cycles after it was sent.
The whole transfer goes out anew: an export or a copy from its core, any other command at its site, once its queue has room. -/
def bulkRetry (s : State) (p tid : Nat) : State :=
  match splitFirst (fun x => decide (x.cmd.tid = tid)) (s.part p).xfers with
  | none => s
  | some (a, x, b) =>
    let bad := match x.got with | none => true | some (st, n) => decide (st = 0) && decide (n ≠ x.expect)
    if !(bad && decide (x.sent + 2 ^ 20 ≤ s.clock)) then s else
    let n := (s.site x.site).pm.length
    if x.desc.isNone && x.copy.isNone && 64 ≤ n then s else
    let s := s.updPart p (fun y => { y with xfers := a ++ { x with sent := s.clock, got := none } :: b })
    match x.desc, x.copy with
    | some d, _ => s.updRouter d.core (fun r => { r with exports := r.exports ++ [(d, 0)] })
    | none, some (g, c) => s.updRouter g (fun r => { r with copies := r.copies ++ [c] })
    | none, none =>
      (s.updSite x.site (fun y => { y with pm := y.pm ++ [{ cmd := x.cmd, bytes := x.bytes, inner := true }] })).wr (.msite x.site) msite.PM_QFILL (n + 1)

/-- SEND. -/
def execSend (g : Nat) (u : Upset) (s : State) : Out := .next (s.issue g 0x30 u (runSend g))
/-- SEND_MC. -/
def execSendMc (g : Nat) (u : Upset) (s : State) : Out := .next (s.issue g 0x31 u (runSend g))
/-- SEND_RED. -/
def execSendRed (g : Nat) (u : Upset) (s : State) : Out := .next (s.issue g 0x32 u (runSend g))
/-- SEND_SPINE. -/
def execSendSpine (g : Nat) (u : Upset) (s : State) : Out := .next (s.issue g 0x33 u (runSendSpine g))
/-- SLOT_INJECTION. -/
def execSlotInjection (g : Nat) (s : State) : Out := .next (slotInjection s g)
/-- FLIT_ARRIVAL. -/
def execFlitArrival (g port : Nat) (crcBad : Bool) (s : State) : Out := .next (flitArrival s g port crcBad)
/-- DISPLACED_FORWARD. -/
def execDisplacedForward (g : Nat) (s : State) : Out := .next (displacedForward s g)
/-- DISPLACED_TIMEOUT. -/
def execDisplacedTimeout (g : Nat) (s : State) : Out := .next (displacedTimeout s g)
/-- REDUCTION_RESULT. -/
def execReductionResult (g rctx : Nat) (s : State) : Out := .next (reductionResult s g rctx)
/-- REDUCTION_INCOMPLETE. -/
def execReductionIncomplete (g rctx : Nat) (s : State) : Out := .next (reductionIncomplete s g rctx)
/-- BULK. -/
def execBulk (g : Nat) (s : State) : Out := .next (bulk s g)
/-- BULK_RETRY. -/
def execBulkRetry (p tid : Nat) (s : State) : Out := .next (bulkRetry s p tid)

end Sys2Proof.Machine
end

