-- ==== Sys2Proof/Machine/Checker.lean ====
section
/-! DEFINITION. What the load-time checker computes from the tables and step programs of a placement: routes (R55, R156, R157, R159), and the
run of every program in its longest combination of slot states under the identity margin (R53, R75, R101, R298; log 20). -/

namespace Sys2Proof.Machine

/-! ### The tables of a placement -/

/-- The slot and route tables as a placement will stand: slot entries as (section, router, word), with 0xFFFFFFFF for one that already stands,
and route entries as (router, port × 256 + label, word). -/
structure Wiring where
  slots : List (Nat × Nat × Nat) := []
  routes : List (Nat × Nat × Nat) := []
  deriving DecidableEq, Repr

/-- The route entry of a port and label; a later one stands for an earlier one. -/
def Wiring.route (w : Wiring) (g port label : Nat) : Nat :=
  (((w.routes.filter (fun e => e.1 = g && e.2.1 = port * 256 + label)).getLast?).map (·.2.2)).getD 0

/-- The slot words by which a flit that enters a router's port in cycle `c` crosses: those of the cycle, or those of its reduction context
that come first (R157, R165). -/
def Wiring.crossings (w : Wiring) (g port label c : Nat) : List Nat :=
  let e := w.route g port label
  let here := (w.slots.filter (fun z => z.2.1 = g)).map (·.2.2)
  if rtRedK e = 0 then here.filter (fun z => slCycle z = c && slIn z = port && slLabel z = label) else
  let l := here.filter (fun z =>
    let y := w.route g (slIn z) (slLabel z)
    c ≤ slCycle z && rtRedK y ≠ 0 && rtRctx y = rtRctx e)
  match minOf (l.map slCycle) with
  | none => []
  | some k => l.filter (fun z => slCycle z = k)

/-- The crossings of a route from a router's port on, as (route word, cycle); after `n` hops one crossing beyond every limit. -/
def Wiring.walk (w : Wiring) : Nat → Nat → Nat → Nat → Nat → List (Nat × Nat)
  | 0, _, _, _, c => [(0, c + 1024)]
  | n + 1, g, port, label, c => (w.crossings g port label c).flatMap (fun z =>
      let e := w.route g (slIn z) (slLabel z)
      (e, slCycle z) :: (if slOut z = portL then [] else
        match hop g (slOut z) with
        | some (dst, pt, k, _) => if 32768 ≤ dst then [] else w.walk n dst pt (rtOutLabel e) (slCycle z + k)
        | none => []))

/-- The injections of the tables: slot entries whose input is the core (R160). -/
def Wiring.injections (w : Wiring) : List (Nat × Nat × Nat) := w.slots.filter (fun e => slIn e.2.2 = portL)

/-- A router needs more than 32,768 slot entries (R156). -/
def Wiring.full (w : Wiring) : Option (Nat × Nat × Nat) :=
  w.slots.find? (fun e => decide (32768 < w.slots.countP (fun x => x.2.1 = e.2.1)))

/-- An output port of a router is scheduled twice in one cycle (check 0x03). -/
def Wiring.twice (w : Wiring) : Option (Nat × Nat × Nat) :=
  w.slots.find? (fun e => decide (1 < w.slots.countP (fun x => x.2.1 = e.2.1 && slCycle x.2.2 = slCycle e.2.2 && slOut x.2.2 = slOut e.2.2)))

/-- A route takes more than 512 cycles from its injection (check 0x05). -/
def Wiring.long (w : Wiring) : Option (Nat × Nat × Nat) :=
  w.injections.find? (fun e => (w.walk 513 e.2.1 portL (slLabel e.2.2) (slCycle e.2.2)).any (fun z => decide (slCycle e.2.2 + 512 < z.2)))

/-- The OUT set of a slot entry's cycle, port and label differs from OUT_MASK (R157). -/
def Wiring.maskBad (w : Wiring) : Option (Nat × Nat × Nat) :=
  w.slots.find? (fun e =>
    let same := w.slots.filter (fun x => x.2.1 = e.2.1 && slCycle x.2.2 = slCycle e.2.2 && slIn x.2.2 = slIn e.2.2 && slLabel x.2.2 = slLabel e.2.2)
    (List.range 8).any (fun o => same.any (fun x => slOut x.2.2 = o) != bit (rtMask (w.route e.2.1 (slIn e.2.2) (slLabel e.2.2))) o))

/-! ### Step programs -/

/-- A step program: the section it is in, its core, the core's router, the tile that a finding names, its commands up to HALT or to where its
bytes end, and the lane directories of the core's sections as (address, window, shards). -/
structure Prog where
  sect : Nat := 0
  rtr : Nat := 0
  core : Nat := 0
  words : List Nat := []
  dirs : List (Nat × Nat × Nat) := []
  deriving DecidableEq, Repr

/-- The commands in bytes, up to the first HALT and with it. -/
def upToHalt : List Nat → List Nat
  | [] => []
  | w :: t => if cOp w = 0xF0 then [w] else w :: upToHalt t

/-- The commands at the start of a run of bytes. -/
def progWords (bs : List Byte) : List Nat := upToHalt ((chunksOf 16 bs).map leNat)

/-- A send's opcode does not match its route (R159); an operand that is reduced at the sender's own router has its slots under the lowest
operand port. -/
def Wiring.sendBad (w : Wiring) (g : Nat) (c : Nat) : Bool :=
  let r := bits c 0 8
  let outs := (portsOf (rtMask (w.route g portL r))).length
  match cOp c with
  | 0x30 => outs ≠ 1
  | 0x31 => outs < 2
  | 0x32 => !(rtRedK (w.route g portL r) ≠ 0 && w.crossings g portL r 0 ≠ []) && !(w.injections.any (fun e => e.2.1 = g && slLabel e.2.2 = r &&
      (w.walk 513 g portL r (slCycle e.2.2)).any (fun z => rtRedK z.1 ≠ 0)))
  | _ => false

/-- A pass or drain whose word names a format that R80 does not list: WFMT or OFMT 5 to 7, AFMT 2 or 3. -/
def cmdFormatBad (w : Nat) : Bool := (cOp w ≤ 1 && (5 ≤ cFmt w || 2 ≤ cAfmt w)) || (cOp w = 2 && 5 ≤ cFmt w)

/-! ### Arrivals at a core (R142, R143, R160) -/

/-- Where the flits of a route leave the mesh, as (router, cycle of the crossing to L). -/
def Wiring.ends (w : Wiring) : Nat → Nat → Nat → Nat → Nat → List (Nat × Nat)
  | 0, _, _, _, _ => []
  | n + 1, g, port, label, c => (w.crossings g port label c).flatMap (fun z =>
      if slOut z = portL then [(g, slCycle z)] else
        match hop g (slOut z) with
        | some (dst, pt, k, _) => if 32768 ≤ dst then [] else w.ends n dst pt (rtOutLabel (w.route g (slIn z) (slLabel z))) (slCycle z + k)
        | none => [])

/-- The ejections of the sends of operation `op`, as (router, cycle). -/
def Wiring.endsOf (w : Wiring) (ps : List Prog) (op : Nat) : List (Nat × Nat) :=
  ps.flatMap (fun p => (p.words.filter (fun c => 0x30 ≤ cOp c && cOp c ≤ 0x32 && bits c 8 4 = op)).flatMap (fun c =>
    (w.injections.filter (fun e => e.2.1 = p.rtr && slLabel e.2.2 = bits c 0 8)).flatMap (fun e =>
      w.ends 513 p.rtr portL (bits c 0 8) (slCycle e.2.2))))

/-- A flit that comes to a core: the cycle of its arrival, its route key, the word of its route entry, LSE_MERGE or SIGNAL, and the cycle in
which the ejection unit accepts it. -/
structure EjectAt where
  at' : Nat := 0
  key : Nat := 0
  entry : Nat := 0
  lse : Bool := false
  signal : Bool := false
  taken : Nat := 0
  deriving DecidableEq, Repr

/-- Inserts an arrival by its cycle. -/
def insertEject (a : EjectAt) : List EjectAt → List EjectAt
  | [] => [a]
  | b :: t => if a.at' < b.at' then a :: b :: t else b :: insertEject a t

/-- The arrivals at a router, each a cycle after its crossing and 4 later under the identity margin (R298). -/
def Wiring.arrivals (w : Wiring) (lse sig : List (Nat × Nat)) (g : Nat) : List EjectAt :=
  (w.slots.filter (fun e => e.2.1 = g && slOut e.2.2 = portL)).foldl (fun l e =>
    let k := slIn e.2.2 * 256 + slLabel e.2.2
    insertEject { at' := slCycle e.2.2 + 5, key := k, entry := w.route g (slIn e.2.2) (slLabel e.2.2),
                    lse := lse.contains (g, slCycle e.2.2), signal := sig.contains (g, slCycle e.2.2) } l) []

/-- The cycles in which the ejection unit accepts arrivals, one a cycle; payloads 1 to 8 of a triple wait for 12 cycles after payload 0 (R143).
`last` is the latest acceptance, `counts` the payloads so far by route, `starts` the payloads 0 by window. -/
def acceptAll : List EjectAt → Nat → Table Nat → Table Nat → List EjectAt
  | [], _, _, _ => []
  | a :: t, last, counts, starts =>
    let n := Table.get 0 counts a.key
    let base := max a.at' (last + 1)
    let c := if a.lse ∧ n % 9 ≠ 0 then max base (Table.get 0 starts (rtWid a.entry) + 12) else base
    { a with taken := c } :: acceptAll t c (if a.lse then Table.set 0 counts a.key (n + 1) else counts)
      (if a.lse ∧ n % 9 = 0 then Table.set 0 starts (rtWid a.entry) c else starts)

/-- The cycle in which an arrival finds the ejection queue of 8 full (R53). -/
def ejectFull (l : List EjectAt) : Option Nat :=
  (l.find? (fun a => decide (8 < l.countP (fun b => b.at' ≤ a.at' && a.at' ≤ b.taken)))).map (·.at')

/-- The cycle in which the COUNT of a window that opens in cycle `o` rises for an arrival (R137, R141 to R143). -/
def EjectAt.counted (a : EjectAt) (o : Nat) : Nat := max a.taken (o + 1) + (if a.lse then 12 else 3)

/-! ### The run of a program (R65, R71, R73 to R78, R115, R117, R136, R144, R160, R161) -/

/-- A cycle that never comes. -/
def farCycle : Nat := 2 ^ 32

/-- A run: the next issue place, the fetches, the last 64 cycles in which commands leave the queue (latest first), until when units and the slab
read port are taken, the end of the barriers, of all commands and of the retired ones, query heads, the route of appends, the injection slots
left as (cycle, label), crossings and the last entry of flits, and window openings and semaphore raises. -/
structure Run where
  next : Nat := 12
  fetched : Nat := 0
  leaves : List Nat := []
  array : Nat := 0
  att : Nat := 0
  wide : Nat := 0
  port : Nat := 0
  send : Nat := 0
  bar : Nat := 0
  done : Nat := 0
  heads : Nat := 0
  kvRoute : Nat := 0
  slots : List (Nat × Nat) := []
  crossed : List Nat := []
  entered : Nat := 0
  opens : List (Nat × Nat) := []
  raises : List (Nat × Nat) := []
  halted : Option Nat := none
  deriving DecidableEq, Repr

/-- Inserts a cycle into a list that falls. -/
def insertFall (c : Nat) : List Nat → List Nat
  | [] => [c]
  | x :: t => if x < c then c :: x :: t else x :: insertFall c t

/-- A command leaves the queue in cycle `c`. -/
def Run.leave (r : Run) (c : Nat) : Run := { r with leaves := (insertFall c r.leaves).take 64 }

/-- The cycle in which the next word is fetched: one a cycle from cycle 0, while the queue of 64 has room (R73). -/
def Run.fetchAt (r : Run) : Nat := if r.leaves.length < 64 then r.fetched else max r.fetched (r.leaves.getLastD 0 + 1)

/-- One flit of route `l` enters the injection queue of 8 after cycle `c`, and crosses in the first slot of its label after the flits before
it (R160). -/
def Run.flit (r : Run) (c l : Nat) : Run :=
  let room := if r.crossed.length < 8 then 0 else r.crossed.getD 7 0 + 1
  let e := max (max (c + 1) (r.entered + 1)) room
  let at' := max (e + 1) (r.crossed.headD 0 + 1)
  match splitFirst (fun z => decide (z.2 = l ∧ at' ≤ z.1)) r.slots with
  | some (a, z, b) => { r with slots := a ++ b, entered := e, crossed := z.1 :: r.crossed }
  | none => { r with entered := e, crossed := farCycle :: r.crossed }

/-- `n` flits of a route. -/
def Run.flits (r : Run) (c l : Nat) : Nat → Run
  | 0 => r
  | n + 1 => (r.flit c l).flits c l n

/-- The most tiles that an ATT_STREAM may select: LEN positions, or the image's context, within the window of its directory or the pages of
its shard (R110, R116, R117). -/
def streamTiles (dirs : List (Nat × Nat × Nat)) (context w : Nat) : Nat :=
  let n := if cLen w = 0 then context else cLen w
  let n := match dirs.find? (fun d => d.1 = cA w) with
    | some (_, win, sh) => if win ≠ 0 then min n win else min n (64 * cdiv (cdiv context 64) (max sh 1))
    | none => n
  if n = 0 then 0 else n / 16 + 2

/-- The latency of an elementwise wide-unit command (R71). -/
def wideLatency (op : Nat) : Nat :=
  match op with
  | 0x20 => 3 | 0x21 => 3 | 0x23 => 3 | 0x22 => 4 | 0x24 => 8 | 0x25 => 12 | 0x26 => 10 | 0x27 => 14 | 0x28 => 6 | 0x29 => 9 | 0x2A => 4 | _ => 6

/-- How a command that has issued in cycle `t` takes its unit: the state after it, and the cycle of its completion. -/
def Run.unit (r : Run) (p : Prog) (context : Nat) (arr : List EjectAt) (w t : Nat) : Run × Nat :=
  let op := cOp w
  let arrayFor (n : Nat) : Run × Nat := ({ r with array := t + n }, t + n)
  let attFor (n : Nat) : Run × Nat := ({ r with att := t + n }, t + n)
  if op ≤ 1 then
    match weightFmt (cFmt w) with
    | none => (r, t)
    | some wf =>
      let c := if cLow w then t else max t r.port
      let d := c + passTime wf (cAfmt w = 1) (cNblk w) (cNv w) (if cLow w then 512 else 640) (if op = 1 then 36 else 4)
      ({ r with array := d, port := if cLow w then r.port else c + passFill wf 640 + cdiv (cNblk w * streamBytes wf) 640 }, d)
  else if op = 2 then
    let d := t + 6 + (arraysOf (cArrays w)).length * cNv w
    let r := if cLow w then r.flits t r.kvRoute (5 * cNv w) else r
    ({ r with array := d }, d)
  else if op = 0x60 then ({ r with array := t + 1, kvRoute := bits w 21 8 }, t + 1)
  else if op = 0x61 then arrayFor (if bit w 0 then 2 else 2 * cLen w)
  else if op ≤ 4 ∨ op = 0x62 then arrayFor 1
  else if op = 0x10 then ({ r with att := t + 2 + 4 * cLen w, heads := cLen w }, t + 2 + 4 * cLen w)
  else if op = 0x11 then
    let n := streamTiles p.dirs context w
    if n = 0 then attFor 4 else
    let c := if bit w 31 then t else max t r.port
    let d := c + 7 + max (n * r.heads) (cdiv (n * 4096) (if bit w 31 then 512 else 640)) + 12
    ({ r with att := d, port := if bit w 31 then r.port else c + 7 + cdiv (n * 4096) 640 }, d)
  else if op = 0x12 then attFor (12 + (if bit w 0 then 9 else 8) * r.heads)
  else if op = 0x2C then
    let c := max t r.port
    let n := cdiv (32 * cLen w) 640
    ({ r with wide := c + n, port := c + n }, c + n + 2)
  else if op = 0x2B then
    let n := cdiv (1088 * cLen w) 168
    ({ r with wide := t + n }, t + n + 6)
  else if 0x20 ≤ op ∧ op ≤ 0x2A then
    let n := cdiv (cLen w) 32
    ({ r with wide := t + n }, t + n + wideLatency op)
  else if op = 0x33 then ({ r with send := t + cLen w }, t + cLen w)
  else if 0x30 ≤ op ∧ op ≤ 0x32 then
    let r := r.flits t (bits w 0 8) (cLen w)
    ({ r with send := r.entered + 1 }, r.crossed.headD 0)
  else if op = 0x40 then ({ r with opens := (bits w 0 6 + 64 * bits w 8 20, t) :: r.opens }, t + 1)
  else if op = 0x42 then
    let d := match r.opens.find? (fun o => o.1 % 64 = bits w 0 6) with
      | none => t
      | some (o, c) =>
        let l := ((arr.filter (fun a => !a.signal && rtWid a.entry = bits w 0 6)).map (fun a => a.counted c)).foldl (fun l x => insertFall x l) []
        if o / 64 = 0 then t else max t (l.reverse.getD (o / 64 - 1) farCycle)
    ({ r with bar := d }, d)
  else if op = 0x50 then ({ r with raises := r.raises ++ [(bits w 0 5, t)] }, t + 1)
  else if op = 0x51 then
    match splitFirst (fun e => decide (e.1 = bits w 0 5)) r.raises with
    | none => ({ r with bar := farCycle }, farCycle)
    | some (a, e, b) => let d := max t e.2 + 1; ({ r with raises := a ++ b, bar := d }, d)
  else if op = 0x80 then let d := max t r.done; ({ r with bar := d }, d)
  else if op = 0xF0 then let d := max t r.done; ({ r with halted := some d }, d)
  else (r, t + 1)

/-- The cycle from which the unit of an opcode accepts a command. -/
def Run.freeAt (r : Run) (op : Nat) : Nat :=
  match unitOf op with
  | some .array => r.array | some .attention => r.att | some .wide => r.wide | some .send => r.send | _ => 0

/-- A command under a combination of slot states, 0 for none, 1 RUN, 2 WIDEN, 3 BOOKED: one issue place a cycle, in program order (R74). -/
def Run.command (p : Prog) (context : Nat) (arr : List EjectAt) (combo : List Nat) (r : Run) (w : Nat) : Run :=
  let f := r.fetchAt
  let t := max r.next (f + 1)
  let r := { r with fetched := f + 1 }
  let sel : Bool := cAll w || (match combo.getD (cSlot w) 0 with
    | 1 => cRun w | 2 => cWiden w | 3 => cBooked w | _ => false)
  if !sel then { r with next := t + 1 }.leave t else
  let t := max (max t (cAt w)) (max r.bar (r.freeAt (cOp w)))
  let (r, d) := r.unit p context arr w t
  { r with next := t + 1, done := max r.done d }.leave (max r.done d)

/-- The run of a program. -/
def Prog.run (p : Prog) (context : Nat) (arr : List EjectAt) (slots : List (Nat × Nat)) (combo : List Nat) : Run :=
  p.words.foldl (Run.command p context arr combo)
    { slots := slots, raises := (arr.filter (·.signal)).map (fun a => (rtSid a.entry, a.taken)) }

/-- Every combination of the states of `n` slots. -/
def combos : Nat → List (List Nat)
  | 0 => [[]]
  | n + 1 => (combos n).flatMap (fun l => [0, 1, 2, 3].map (· :: l))

/-- The cycles in which HALT retires, over all combinations; a program without HALT never ends (R75, R101). -/
def Prog.ends (p : Prog) (context w : Nat) (arr : List EjectAt) (slots : List (Nat × Nat)) : List Nat :=
  (combos w).map (fun l => ((p.run context arr slots l).halted).getD farCycle)

/-- Three flits come for a window before a run opens it: its early buffer of 2 is full (R53, R141). -/
def earlyFull (arr : List EjectAt) (r : Run) : Option Nat :=
  r.opens.findSome? (fun o =>
    (arr.filter (fun a => !a.signal && rtWid a.entry = o.1 % 64 && a.taken < o.2))[2]?.map (·.taken))

/-- The injection slots of a router by cycle, due 4 cycles earlier under the identity margin (R298). -/
def Wiring.injectSlots (w : Wiring) (g : Nat) : List (Nat × Nat) :=
  ((w.injections.filter (fun e => e.2.1 = g)).foldl (fun l e =>
    insertEject { at' := slCycle e.2.2 - 4, key := slLabel e.2.2 } l) []).foldl (fun (l : List (Nat × Nat)) a =>
      if l.any (fun z => z.1 = a.at') then l else l ++ [(a.at', a.key)]) []

/-- What checks 0x02 and 0x06 find in the runs of the programs: the first program, as (section, tile, cycle), that does not end within the body,
and the first queue that overflows. -/
def Wiring.runCheck (w : Wiring) (ps : List Prog) (context nw per : Nat) (code : Nat) : Option (Nat × Nat × Nat) :=
  let lse := w.endsOf ps 5
  let sig := w.endsOf ps 6
  ps.findSome? (fun p =>
    let arr := acceptAll (w.arrivals lse sig p.rtr) 0 [] []
    let slots := w.injectSlots p.rtr
    let hit : Option Nat :=
      if code = 0x02 then ((p.ends context nw arr slots).find? (fun c => decide (per < c + 109))).map (fun c => if c < farCycle then c else per - 109)
      else (ejectFull arr).or ((combos nw).findSome? (fun l => earlyFull arr (p.run context arr slots l)))
    hit.map (fun c => (p.sect, tileOf p.rtr, c)))

end Sys2Proof.Machine
end

