-- ==== Sys2Proof/Machine/Ejection.lean ====
section
/-! DEFINITION. The ejection unit: how an arriving flit is classified and matched to a window, the accumulating
writes, signals and KV appends (R31, R104 to R111, R123, R138 to R147, R162, R163). -/

namespace Sys2Proof.Machine

/-- The route entry under which an ejected flit travelled. -/
def State.entryOf (s : State) (x : EjFlit) : Nat := (s.router x.rtr).route x.port x.label

/-- The route key of an ejected flit. -/
def EjFlit.key (x : EjFlit) : Nat := x.port * 256 + x.label

/-- LATE_FLIT (R145): a late flit is counted and recorded; the first of the tick is kept for the commit report. -/
def State.lateFlit (s : State) (g : Nat) (x : EjFlit) : State :=
  let ent := s.entryOf x
  let sig : Bool := x.flit.op = 6
  let pg := Page.core g
  let s := ((((s.inc pg core.LATE_WRITE_CNT 1).wr pg core.LATE_SRC (rtSrc ent)).wr pg core.LATE_STAMP x.flit.stamp).wr pg
    core.LATE_WID (if sig then rtSid ent else rtWid ent)).setFlag pg core.LATE_SIG sig |>.raiseFlag pg core.LATE_VALID
  let s := (s.wr (.coreWin (tileOf g)) coreWin.LATE_CORE (g % 256)).err (.coreWin (tileOf g)) 1
  s.updCore g (fun c => { c with late := match c.late with
    | none => some (rtSrc ent, x.flit.stamp)
    | l => l })

/-- SOURCE_FAULT_DECLARE (R147): the flit is discarded and its source is declared faulty. -/
def State.sourceFault (s : State) (g : Nat) (x : EjFlit) (cause : Nat) : State :=
  s.declare ((s.corePart g).getD 0) (rtSrc (s.entryOf x)) cause 4

/-! ### Windows (R140) -/

/-- What R140 does with a flit. -/
inductive Handling where
  | apply | applyGrace | hold | holdEarly | late | source
  deriving DecidableEq, Repr

/-- R140 for a flit of stamp `stamp` and a window. -/
def handling (w : Window) (stamp tick cyc : Nat) : Handling :=
  match classify stamp tick cyc with
  | .onTime =>
    if w.state = .opened ∧ w.stamp = stamp then .apply
    else if w.state = .idle ∧ !w.openedIn then .hold
    else if w.state ≠ .idle ∧ (w.stamp + 1) % 256 = tick % 256 ∧ cyc ≤ 11 then .hold
    else .late
  | .grace => if w.state = .opened ∧ (w.stamp + 1) % 256 = tick % 256 then .applyGrace else .late
  | .late => .late
  | .early => .holdEarly
  | .stampError => .source

/-- A write of the ejection unit (R142): to the local store it takes its bank in this cycle (R72). -/
def State.ejectWrite (s : State) (g a : Nat) (bs : List Byte) : State :=
  let s := s.memWrite g a bs
  if areaOf a = .localStore then s.updCore g (fun c => { c with lsAt := some (s.clock, bankOf a) }) else s

/-- Adds one to a window's COUNT after `d` schedule cycles (R137, R142). -/
def State.countAt (s : State) (g wid d : Nat) : State :=
  let t := s.schedOf g + d
  s.updCore g (fun c => { c with counts := c.counts ++ [(wid, t)] })

/-- The number of flits applied under a route entry since its window opened (R162). -/
def Core.appliedN (c : Core) (key : Nat) : Nat := Table.get 0 c.applied key

/-- Counts a flit as applied under its route entry. -/
def State.bump (s : State) (g key : Nat) : State :=
  s.updCore g (fun c => { c with applied := Table.upd 0 c.applied key (· + 1) })

/-- WRITE and the accumulating operations at the window (R138, R142). -/
def State.applyWrite (s : State) (g : Nat) (x : EjFlit) : State :=
  let ent := s.entryOf x
  let w := (s.core g).win (rtWid ent)
  let off := rtOff0 ent + rtStride ent * (s.core g).appliedN x.key
  if w.len ≤ off then s.stepErr g .addr else
  let a := w.base + 32 * off
  let op := if x.flit.op = 10 then 0 else x.flit.op
  let st := (s.core g).recv a 32
  let d := if op = 0 then 1 else if op = 1 ∨ op = 3 then 2 else 3
  ((s.ejectWrite g a (accumulate op st x.flit.payload)).bump g x.key).countAt g (rtWid ent) d

/-- LSE_MERGE at the window (R143): payload n mod 9 of a triple. -/
def State.applyLse (s : State) (g : Nat) (x : EjFlit) : State :=
  let ent := s.entryOf x
  let wid := rtWid ent
  let c := s.core g
  let w := c.win wid
  let n := c.appliedN x.key
  let f := n % 9
  match c.merges.find? (fun m => m.wid = wid) with
  | none =>
    if f ≠ 0 then s.stepErr g .illegal else
    let off := rtOff0 ent + rtStride ent * n
    if w.len ≤ off then s.stepErr g .addr else
    let a := w.base + 32 * off
    let h := lseHead0 (c.recv a 32) x.flit.payload
    let t := s.schedOf g
    let s := s.ejectWrite g a ((headBytes h).take 8)
    let s := s.updCore g (fun c => { c with
      merges := c.merges ++ [⟨wid, a, h.m, h.a1, h.a2, t⟩],
      cnt := { c.cnt with lseNan := c.cnt.lseNan + b2n (isNan h.m) } })
    (s.bump g x.key).countAt g wid 12
  | some m =>
    if f = 0 then s.stepErr g .illegal else
    let a := m.addr + 32 * f
    if w.base + 32 * w.len ≤ a then s.stepErr g .addr else
    let s := s.ejectWrite g a (lseElems ⟨m.m, 0, m.a1, m.a2⟩ (c.recv a 32) x.flit.payload)
    let s := if f = 8 then s.updCore g (fun c => { c with merges := c.merges.filter (fun y => y.wid ≠ wid) }) else s
    (s.bump g x.key).countAt g wid 3

/-! ### Appends (R123, R163) -/

/-- The descriptor of an append as a member takes it: what it does with it under R123, and where the codes go.  An append names no layer:
the member takes the binding by the append's HEAD alone (log 75). -/
def Core.openAppend (c : Core) (x : EjFlit) : AppendDesc :=
  let pl := x.flit.payload
  let lane := x.flit.lane
  let q := bits (leNat (pl.take 4)) 0 20
  let b4 := (pl.getD 4 0).toNat
  let head := b4 % 8
  let isV := bit b4 3
  let d0 : AppendDesc := { rtr := x.rtr, key := x.key, lane := lane, pos := q, scale := (pl.getD 5 0).toNat, stamp := x.flit.stamp }
  match c.binds.find? (fun b => b.head = head) with
  | none => d0
  | some b =>
    let d := b.dir
    let w := dirWindow c d
    let sh := max (dirShards c d) 1
    let pg := if w ≠ 0 then q % (w + 64) / 64 else q / 64
    let mine : Bool := w ≠ 0 || pg % sh = dirIdx c d
    let page := if w ≠ 0 then pg else pg / sh
    let off := if w ≠ 0 then q % (w + 64) % 64 else q % 64
    if !dirOwn c d lane || !mine then d0 else
    match c.cache.find? (fun e => bit e 63 && pmKey e = pmKeyOf lane b.layer page) with
    | none => { d0 with act := .refuse }
    | some e =>
      let st := ((c.slots.find? (fun sl => sl.state ≠ .empty ∧ sl.lane = lane ∧ sl.pos = q)).getD {}).state
      let wp := dirWp c d lane
      let cp := dirCp c d lane
      let act : AppendAct :=
        if st = .widen ∧ q < wp then .rewrite
        else if (st = .run ∨ st = .booked) ∧ cp ≤ q ∧ q ≤ wp ∧ q < cp + 64 then .write
        else .refuse
      { d0 with act := act, addr := pmAddr e + head * 16384 + b2n isV * 8192 + off * 128,
                trailer := if off = 0 then pmAddr e + pmHeads e * 16384 + 4 * head + 2 * b2n isV else 0, dir := d }

/-- An append whose codes are stored. -/
def AppendAct.stores (a : AppendAct) : Bool := a = .write || a = .rewrite

/-- The last flit of an append: trailer entry, write pointer and counters (R107, R123, R133). -/
def State.closeAppend (s : State) (g : Nat) (d : AppendDesc) : State :=
  let s := if d.act.stores ∧ d.trailer ≠ 0 then s.memWrite g d.trailer (leBytes 2 (d.scale * 128)) else s
  match d.act with
  | .write =>
    let s := s.memWrite g (dirEntry d.dir d.lane + 4) (leBytes 4 (max (dirWp (s.core g) d.dir d.lane) (d.pos + 1)))
    s.updCore g (fun c => { c with cnt := { c.cnt with kvAppend := c.cnt.kvAppend + 1 } })
  | .rewrite => s.updCore g (fun c => { c with cnt := { c.cnt with kvRewrite := c.cnt.kvRewrite + 1 } })
  | _ => s

/-- The append in assembly on a flit's route, of the flit's tick. -/
def Core.appendOf (c : Core) (x : EjFlit) : Option AppendDesc :=
  c.appends.find? (fun d => d.rtr = x.rtr ∧ d.key = x.key ∧ d.stamp = x.flit.stamp)

/-- Replaces the append in assembly on a flit's route in its tick. -/
def Core.setAppend (c : Core) (x : EjFlit) (d : Option AppendDesc) : Core :=
  { c with appends := c.appends.filter (fun y => !(y.rtr = x.rtr ∧ y.key = x.key ∧ y.stamp = x.flit.stamp)) ++ d.toList }

/-- One APPEND flit (R123, R163), counted in the window its entry names: the descriptor opens an append; flits 1 to 4, named by their place
among the five (log 64), need one of the same tick before them.  A refused append is step error ADDR. -/
def State.applyAppend (s : State) (g : Nat) (x : EjFlit) : State :=
  let s := (s.bump g x.key).countAt g (rtWid (s.entryOf x)) 1
  if x.flit.nth = 0 then
    let d := (s.core g).openAppend x
    let s := s.updCore g (fun c => c.setAppend x (some d))
    if d.act = .refuse then
      ((s.updCore g (fun c => { c with cnt := { c.cnt with kvAddrErr := c.cnt.kvAddrErr + 1 } })).err
        (.tileGlb (tileOf g)) 3).stepErr g .addr
    else s
  else
    match (s.core g).appendOf x with
    | none => s.stepErr g .addr
    | some d =>
      let s := if d.act.stores then s.memWrite g (d.addr + 32 * (x.flit.nth - 1)) x.flit.payload else s
      if x.flit.nth = 4 then (s.updCore g (fun c => c.setAppend x none)).closeAppend g d else s

/-! ### Acceptance -/

/-- Applies a flit by its operation. -/
def State.applyFlit (s : State) (g : Nat) (x : EjFlit) : State :=
  if x.flit.op = 5 then s.applyLse g x else if x.flit.op = 7 then s.applyAppend g x else s.applyWrite g x

/-- Holds a flit in its window's early buffer; a full buffer is a fault of the source for an early flit, and step error QUEUE
for one on time (R141). -/
def State.holdFlit (s : State) (g : Nat) (x : EjFlit) (early : Bool) : State :=
  let wid := rtWid (s.entryOf x)
  if 2 ≤ ((s.core g).win wid).early.length then
    (if early then s.sourceFault g x 6 else s.stepErr g .queue)
  else
    let s := s.updCore g (fun c => c.updWin wid (fun w => { w with early := w.early ++ [x] }))
    if early then s.inc (.core g) core.EARLY_CNT 1 else s

/-- A flit of a window operation under R140. -/
def State.acceptWindow (s : State) (g : Nat) (x : EjFlit) : State :=
  let w := (s.core g).win (rtWid (s.entryOf x))
  match handling w x.flit.stamp (s.tickOf g) (s.cycOf g) with
  | .apply => s.applyFlit g x
  | .applyGrace => (s.inc (.core g) core.GRACE_CNT 1).applyFlit g x
  | .hold => s.holdFlit g x false
  | .holdEarly => s.holdFlit g x true
  | .late => s.lateFlit g x
  | .source => s.sourceFault g x 3

/-- A SIGNAL flit (R144). -/
def State.acceptSignal (s : State) (g : Nat) (x : EjFlit) : State :=
  let sid := rtSid (s.entryOf x)
  match classify x.flit.stamp (s.tickOf g) (s.cycOf g) with
  | .onTime => s.raiseSem g sid 0
  | .early =>
    let n := Table.get 0 (s.core g).semPend sid
    if 2 ≤ n then s.sourceFault g x 6 else
    (s.updCore g (fun c => { c with semPend := Table.set 0 c.semPend sid (n + 1) })).inc (.core g) core.EARLY_CNT 1
  | .stampError => s.sourceFault g x 3
  | _ => s.lateFlit g x

/-- Whether the ejection unit of core `g` may still accept a flit in this clock cycle. -/
def State.ejectFree (s : State) (g : Nat) : Bool :=
  match s.corePart g with
  | none => false
  | some p => s.steps p && (s.core g).ejAt ≠ some s.clock

/-- An LSE payload 1 to 8 that would come less than 12 cycles after its payload 0 waits (R143). -/
def State.lseWaits (s : State) (g : Nat) (x : EjFlit) : Bool :=
  x.flit.op = 5 && (s.core g).appliedN x.key % 9 ≠ 0 &&
    (s.core g).merges.any (fun m => decide (m.wid = rtWid (s.entryOf x)) && decide (s.schedOf g < m.startAt + 12))

/-- The ejection unit accepts the head of its queue, if its operation is one of `ops` (R142, R162). -/
def State.eject (s : State) (g : Nat) (ops : List Nat) : State :=
  match (s.core g).ej with
  | [] => s
  | x :: rest =>
    if !s.ejectFree g || s.clock < x.since || !ops.contains x.flit.op || s.lseWaits g x then s else
    let s := s.updCore g (fun c => { c with ej := rest, ejAt := some s.clock })
    if x.flit.op = 6 then s.acceptSignal g x else s.acceptWindow g x

/-- EARLY_FLIT_RELEASE (R141): the first released flit is applied, in a cycle in which no flit of the queue can be. -/
def earlyFlitRelease (s : State) (g : Nat) : State :=
  match (s.core g).rel with
  | [] => s
  | x :: rest =>
    if !s.ejectFree g || s.clock < x.since || (s.core g).ej.any (fun y => y.since ≤ s.clock) || s.lseWaits g x then s else
    let s := s.updCore g (fun c => { c with rel := rest, ejAt := some s.clock })
    let w := (s.core g).win (rtWid (s.entryOf x))
    if w.state = .opened ∧ w.stamp = x.flit.stamp then s.applyFlit g x else s.lateFlit g x

/-- WRITE, and MEM_DATA flits that a site's schedule sends to a window (R132, R194). -/
def execWrite (g : Nat) (s : State) : Out := .next (s.eject g [0, 10])
/-- ADD_INT32. -/
def execAddInt32 (g : Nat) (s : State) : Out := .next (s.eject g [1])
/-- ADD_FP32. -/
def execAddFp32 (g : Nat) (s : State) : Out := .next (s.eject g [2])
/-- XOR. -/
def execXor (g : Nat) (s : State) : Out := .next (s.eject g [3])
/-- MAX_FP32. -/
def execMaxFp32 (g : Nat) (s : State) : Out := .next (s.eject g [4])
/-- LSE_MERGE. -/
def execLseMerge (g : Nat) (s : State) : Out := .next (s.eject g [5])
/-- SIGNAL. -/
def execSignal (g : Nat) (s : State) : Out := .next (s.eject g [6])
/-- APPEND. -/
def execAppend (g : Nat) (s : State) : Out := .next (s.eject g [7])
/-- EARLY_FLIT_RELEASE. -/
def execEarlyFlitRelease (g : Nat) (s : State) : Out := .next (earlyFlitRelease s g)

/-! ### XOR deltas (R125, R465) -/

/-- XOR_DELTA_APPLY: the oldest delta of a crag's bus is applied to the parity slab. -/
def xorDeltaApply (s : State) (y : Nat) : State :=
  match (s.crag y).deltas with
  | [] => s
  | d :: rest =>
    let k := parityCore y
    let pg := cragPage y
    let s := s.updCore k (fun c => c.write d.addr (xorBytes (c.recv d.addr d.bytes.length) d.bytes))
    let s := s.updCrag y (fun x => { x with deltas := rest })
    let s := (s.inc pg crag.DELTA_CNT 1).raise pg crag.DELTA_LAT_MAX (min (s.clock - d.time) 32)
    if rest = [] then s.setFlag pg crag.BUS_IDLE true else s

/-- XOR_DELTA_APPLY. -/
def execXorDeltaApply (y : Nat) (s : State) : Out := .next (xorDeltaApply s y)

end Sys2Proof.Machine
end

