-- ==== Sys2Proof/Machine/Sites.lean ====
section
/-! DEFINITION. The memory sites: stack locations, regions, parity, decryption, errors, scheduled streaming, exports and the
deep tier (R182 to R200, R202 to R205). -/

namespace Sys2Proof.Machine

/-! ### Sets, regions and locations (R184 to R186) -/

/-- Channel set `k` of site `m` is MUTABLE (R184, R203). -/
def State.setMutable (s : State) (m k : Nat) : Bool := bit (s.rd (.msite m) msite.SET_KIND) k

/-- The number of data channels of a set. -/
def State.dataChans (s : State) (m k : Nat) : Nat := if s.setMutable m k then 7 else 8

/-- Region `i` of site `m`. -/
def State.region (s : State) (m i : Nat) : Region := Table.get {} (s.site m).regions i

/-- Channel `ch` of site `m`. -/
def State.chan (s : State) (m ch : Nat) : Chan := Table.get {} (s.site m).chans ch

/-- Changes a channel. -/
def State.updChan (s : State) (m ch : Nat) (f : Chan → Chan) : State :=
  s.updSite m (fun x => { x with chans := Table.upd {} x.chans ch f })

/-- A region entry's 128-bit word (R185). -/
def regionOfWord (w : Nat) : Region :=
  { valid := bit w 0, set := bits w 1 2, kind := bits w 3 3, single := bit w 6, ch := bits w 7 5, owner := bits w 12 4,
    keySlot := bits w 16 5, base := bits w 21 19, len := bits w 40 19, tweak := bits w 64 64 }

/-- The word of a region entry. -/
def Region.word (r : Region) : Nat :=
  b2n r.valid + r.set * 2 + r.kind * 8 + b2n r.single * 64 + r.ch * 128 + r.owner * 2 ^ 12 + r.keySlot * 2 ^ 16 +
    r.base * 2 ^ 21 + r.len * 2 ^ 40 + r.tweak * 2 ^ 64

/-- KIND 1 IMAGE, 2 DELTA, 3 STACKFED: ciphertext kinds of a WEIGHT set. -/
def Region.weight (r : Region) : Bool := r.kind = 1 || r.kind = 2 || r.kind = 3

/-- The channels a region covers. -/
def State.regionChans (s : State) (m : Nat) (r : Region) : List Nat :=
  if r.single then [r.ch] else (List.range (s.dataChans m r.set)).map (· + 8 * r.set)

/-- The bytes of a region. -/
def State.regionSize (s : State) (m : Nat) (r : Region) : Nat := r.len * 4096 * (s.regionChans m r).length

/-- The channel and channel offset of region-relative byte `x` (R186). -/
def State.locate (s : State) (m : Nat) (r : Region) (x : Nat) : Nat × Nat :=
  if r.single then (r.ch, r.base * 4096 + x) else
  let n := s.dataChans m r.set
  let u := x / 4096
  (8 * r.set + u % n, (r.base + u / n) * 4096 + x % 4096)

/-! ### Stack bytes with channel parity (R184, R192, R193) -/

/-- A channel in state FAILED. -/
def State.chFailed (s : State) (m ch : Nat) : Bool := s.flag (.mchan m ch) mchan.FAILED

/-- A channel that cannot be read or written: FAILED, or without lock before its boundary (R193). -/
def State.chGone (s : State) (m ch : Nat) : Bool := s.chFailed m ch || (s.chan m ch).noLock

/-- The failed channels of a set. -/
def State.failedIn (s : State) (m k : Nat) : Nat := (List.range 8).countP (fun i => s.chFailed m (8 * k + i))

/-- A MUTABLE set that two failed channels have lost (R193). -/
def State.setLost (s : State) (m k : Nat) : Bool := s.setMutable m k && 2 ≤ s.failedIn m k

/-- A scheduled read of a region reports SITE_UE in every tick: its MUTABLE set is lost, or it is a STACKFED region of a set with a failed
channel (R193). -/
def State.regionLost (s : State) (m : Nat) (r : Region) : Bool := s.setLost m r.set || (r.kind = 3 && 1 ≤ s.failedIn m r.set)

/-- A byte as the cells hold it. -/
def State.rawByte (s : State) (m ch off : Nat) : Byte :=
  let c := s.chan m ch
  match Table.get 0 c.mem off with
  | 0 => if c.zeros.any (fun z => decide (z.1 ≤ off) && decide (off < z.2)) then 0 else Config.stackGarbage m ch off
  | v + 1 => BitVec.ofNat 8 v

/-- A byte as the site reads it: rebuilt from the other seven channels where its channel has failed (R193); what a failed channel of a
WEIGHT set reads is a free value (log 14). -/
def State.stackByte (s : State) (m ch off : Nat) : Byte :=
  let k := ch / 8
  if s.setMutable m k && s.chGone m ch then
    ((List.range 8).filter (fun i => 8 * k + i ≠ ch)).foldl (fun a i => a ^^^ s.rawByte m (8 * k + i) off) 0
  else if s.chGone m ch then Config.stackGarbage m ch off
  else s.rawByte m ch off

/-- Writes a cell. -/
def State.rawSet (s : State) (m ch off : Nat) (b : Byte) : State :=
  s.updChan m ch (fun c => { c with mem := Table.set 0 c.mem off (b.toNat + 1) })

/-- Writes one byte, in a MUTABLE set with its parity: new parity = old parity ⊕ old data ⊕ new data.  A failed data channel takes
the parity update only, and a failed parity channel none (R192, R193). -/
def State.stackSet (s : State) (m ch off : Nat) (b : Byte) : State :=
  let k := ch / 8
  if s.setMutable m k then
    let par := 8 * k + 7
    let old := s.stackByte m ch off
    let s := if s.chGone m par then s else s.rawSet m par off (s.rawByte m par off ^^^ old ^^^ b)
    if s.chGone m ch then s else s.rawSet m ch off b
  else s.rawSet m ch off b

/-- Writes bytes at region offset `x`. -/
def State.regionWrite (s : State) (m : Nat) (r : Region) (x : Nat) : List Byte → State
  | [] => s
  | b :: bs =>
    let (ch, off) := s.locate m r x
    (s.stackSet m ch off b).regionWrite m r (x + 1) bs

/-- `n` bytes from region offset `x`, as stored. -/
def State.regionRead (s : State) (m : Nat) (r : Region) (x n : Nat) : List Byte :=
  (List.range n).map (fun i => let (ch, off) := s.locate m r (x + i); s.stackByte m ch off)

/-! ### Decryption (R189, R190) -/

/-- The key of a slot, if loaded. -/
def State.siteKey (s : State) (m slot : Nat) : Option Nat :=
  match Table.get 0 (s.site m).keys slot with
  | 0 => none
  | v + 1 => some v

/-- The data units that `n` bytes from offset `x` touch. -/
def unitsOf (x n : Nat) : List Nat := (List.range ((x % 4096 + n + 4095) / 4096)).map (· + x / 4096)

/-- `n` bytes from region offset `x` in plain form: decrypted per data unit with tweak TWEAK_BASE + u. -/
def State.regionPlain (s : State) (m : Nat) (r : Region) (key x n : Nat) : List Byte :=
  ((((unitsOf x n).flatMap (fun u =>
    leBytes 4096 (Config.xtsDecrypt key (r.tweak + u) (leNat (s.regionRead m r (u * 4096) 4096))))).drop (x % 4096)).take n)

/-- A read refused for an empty key slot (R190). -/
def State.keyMiss (s : State) (m slot : Nat) : State :=
  ((s.inc (.msite m) msite.KEY_MISS_CNT 1).err (.msite m) 5).wr (.xts m) xts.KEY_MISS_SLOT slot

/-- A request refused because the region's owner is not the partition of the edge tile (R187). -/
def State.ownerMiss (s : State) (m : Nat) : State := (s.inc (.msite m) msite.OWNER_MISS_CNT 1).err (.msite m) 3

/-- The site serves the region: its OWNER is PART_ID, and a partition has the edge tile (R187). -/
def State.serves (s : State) (m : Nat) (r : Region) : Bool := r.valid && s.sitePart m = some r.owner

/-! ### Read errors (R191, R193) -/

/-- A corrected error. -/
def State.stackCe (s : State) (m ch : Nat) : State := (s.inc (.msite m) msite.CE_CNT 1).inc (.mchan m ch) mchan.CE_CNT 1

/-- An uncorrectable error at a channel offset. -/
def State.stackUe (s : State) (m ch off : Nat) : State :=
  let s := ((s.inc (.msite m) msite.UE_CNT 1).inc (.mchan m ch) mchan.UE_CNT 1).wr (.mchan m ch) mchan.LAST_UE_LINE (off / 64)
  (s.err (.msite m) 0).updChan m ch (fun c => { c with ueTimes := c.ueTimes ++ [s.clock] })

/-- SITE_UE for the status tree of this tick: 1, or 2 where no replay can avoid it (R193); the larger stays. -/
def State.siteError (s : State) (m code : Nat) : State :=
  s.updSite m (fun x => { x with siteErr := some (max (x.siteErr.getD 0) code) })

/-- The units with a corrected error. -/
def upsetCes : StackUpset → List Nat
  | .ce i => [i] | .several l _ => l | _ => []

/-- The units with an uncorrectable error. -/
def upsetUes : StackUpset → List Nat
  | .ue i => [i] | .several _ l => l | _ => []

/-- The errors from unit `n` on, which the command's second run of reads meets. -/
def upsetFrom (u : StackUpset) (n : Nat) : StackUpset :=
  .several (((upsetCes u).filter (n ≤ ·)).map (· - n)) (((upsetUes u).filter (n ≤ ·)).map (· - n))

/-- What R191 does with a read of `n` 32-byte units of a region, unit `i` of them at byte offset `at_ i`: counts, and the 64-byte lines of
the region whose data may not be used; a MUTABLE line is rebuilt unless another line that this needs cannot be read. -/
def State.readUpset (s : State) (m : Nat) (r : Region) (n : Nat) (at_ : Nat → Nat) (u : StackUpset) : State × List Nat :=
  let ues := ((upsetUes u).filter (· < n)).map (fun i => (s.locate m r (at_ i), at_ i / 64))
  let heals (e : (Nat × Nat) × Nat) : Bool := s.setMutable m (e.1.1 / 8) && s.failedIn m (e.1.1 / 8) = 0 &&
    ues.all (fun z => z.1.1 = e.1.1 || z.1.2 / 64 ≠ e.1.2 / 64)
  let s := ((upsetCes u).filter (· < n)).foldl (fun s i => s.stackCe m (s.locate m r (at_ i)).1) s
  (ues.foldl (fun s e => s.stackUe m e.1.1 e.1.2) s, (ues.filter (fun e => !heals e)).map (·.2))

/-! ### Scheduled streaming (R194 to R197, R282) -/

/-- LABEL. -/
def csLabel (e : Nat) : Nat := bits e 16 8
/-- SRC. -/
def csSrc (e : Nat) : Nat := bits e 36 2
/-- SLOT. -/
def csSlot (e : Nat) : Nat := bits e 38 2
/-- REGION. -/
def csRegion (e : Nat) : Nat := bits e 40 6
/-- ARG. -/
def csArg (e : Nat) : Nat := bits e 64 32

/-- The 4 KiB units that an entry's reads touch: from its offset, or from a unit's start for a deep page, whose record gives it (R196). -/
def csUnits (e : Nat) : Nat := ((if csSrc e = 1 then 0 else csArg e % 128) + csFlits e + 127) / 128

/-- The edge router and port of a memory saddle channel (R171). -/
def chRouter (m ch : Nat) : Nat := let t := siteTile m; coreAt t (if txOf t = 0 then 0 else 15) (ch / 2)
/-- Its input port. -/
def chPort (ch : Nat) : Nat := 5 + ch % 2

/-- The first core that a flit of a label reaches from a router's port, along the route tables; `n` bounds the hops. -/
def State.routeEnd (s : State) : Nat → Nat → Nat → Nat → Option Nat
  | 0, _, _, _ => none
  | n + 1, g, port, label =>
    let ent := (s.router g).route port label
    if !rtValid ent then none
    else if bit (rtMask ent) portL then some (s.ejectCore g)
    else (portsOf (rtMask ent)).findSome? (fun o =>
      match hop g o with
      | some (dst, pt, _, _) => if 32768 ≤ dst then none else s.routeEnd n dst pt (rtOutLabel ent)
      | none => none)

/-- The slot descriptor of a channel schedule entry: that of the region its flits reach (log 21). -/
def State.csDescr (s : State) (m ch e : Nat) : Slot :=
  match s.routeEnd 512 (chRouter m ch) (chPort ch) (csLabel e) with
  | some g => (s.core g).slots.getD (csSlot e) {}
  | none => {}

/-- The record of a DEEP entry that R197 reads, if any: record i of the lane's list, while local page i does not lie beyond POS. -/
def State.deepRecord (s : State) (m e : Nat) (sl : Slot) : Option Nat :=
  let x := s.site m
  match x.deep[bits (csArg e) 8 16]? with
  | none => none
  | some d =>
    let i := sl.step + bits (csArg e) 0 8 * (sl.mu + 1)
    if sl.pos / 64 < i * d.shards + d.shard then none else
    match Table.get 0 d.first sl.lane with
    | 0 => none
    | f + 1 =>
      let r := Table.get 0 x.records (f + i)
      if bit r 63 && bit r 62 then some r else none

/-- Where an entry reads: region, region-relative byte offset; none for zero flits.  Of a STRIPED region, a FIX offset counts
along the entry's channel. -/
def State.csWhere (s : State) (m ch e : Nat) (sl : Slot) : Option (Nat × Nat) :=
  match csSrc e with
  | 0 =>
    let r := s.region m (csRegion e)
    let y := 32 * csArg e
    some (csRegion e, if r.single then y else (y / 4096 * s.dataChans m r.set + (ch - 8 * r.set)) * 4096 + y % 4096)
  | 1 => (s.deepRecord m e sl).map (fun r => (bits r 29 6, bits r 0 29 * 64))
  | 2 =>
    match Table.get 0 (s.site m).laneTbl sl.lane with
    | 0 => none
    | v + 1 =>
      let d := Table.get {} (s.site m).deltas v
      if d.valid then some (d.region, d.base * 4096 + 32 * csArg e) else none
  | _ => none

/-- Byte offset `i` of an entry's run within its region: a FIX run in a STRIPED region stays on its channel. -/
def State.csStep (s : State) (m e x i : Nat) : Nat :=
  let r := s.region m (csRegion e)
  if csSrc e = 0 ∧ !r.single then
    let y := x % 4096 + i
    x / 4096 * 4096 + y / 4096 * (4096 * s.dataChans m r.set) + y % 4096
  else x + i

/-- The 32-byte payload of flit `i` of a run, in plain form. -/
def State.csPayload (s : State) (m e : Nat) (r : Region) (key : Option Nat) (x i : Nat) : List Byte :=
  let y := s.csStep m e x (32 * i)
  match key with
  | some k => s.regionPlain m r k y 32
  | none => s.regionRead m r y 32

/-- The payloads of an entry's flits after all its checks: a region not served, an empty key slot, a lost set or the line of an
uncorrectable error gives zeros, and so does a channel that has lost its lock since the boundary, which fails the tick (R187, R188, R190, R191, R193, R197; log 78). -/
def State.csData (s : State) (m ch e : Nat) (sl : Slot) (u : StackUpset) : State × List (List Byte) :=
  let n := csFlits e
  let zero32 := List.replicate 32 (0 : Byte)
  let zeros := List.replicate n zero32
  match s.csWhere m ch e sl with
  | none => (if csSrc e = 1 then s.inc (.msite m) msite.DEEP_ABSENT_CNT 1 else s, zeros)
  | some (ri, x) =>
    let r := s.region m ri
    let key := if r.weight then s.siteKey m r.keySlot else none
    if !s.serves m r then (s.ownerMiss m, zeros)
    else if (s.site m).zeroing.contains ri then (s, zeros)
    else if s.regionLost m r then (s.siteError m 2, zeros)
    else if r.weight && key = none then (s.keyMiss m r.keySlot, zeros)
    else
      let at_ (i : Nat) : Nat := s.csStep m e x (32 * i)
      let (t, bad) := s.readUpset m r n at_ u
      let lost (i : Nat) : Bool := let c := s.chan m (s.locate m r (at_ i)).1; c.failNext && c.noLock
      let ps := (List.range n).map (fun i => if bad.contains (at_ i / 64) || lost i then zero32 else s.csPayload m e r key x i)
      let t := if r.weight then t.inc (.xts m) xts.DEC_UNITS (unitsOf x (32 * n)).length else t
      (if bad ≠ [] || (List.range n).any lost then t.siteError m 1 else t, ps)

/-- Entry `i` of a channel's schedule has not started in this tick. -/
def Chan.waiting (c : Chan) (i : Nat) : Bool := !c.started.contains i

/-- The 4 KiB requests of the entries started and not yet at their CYCLE. -/
def Chan.requests (c : Chan) (cyc : Nat) : Nat :=
  (c.started.map (fun i => let e := c.sched.getD i 0; if cyc < csCycle e then csUnits e else 0)).foldl (· + ·) 0

/-- The scheduled requests queued on a channel: its own, or with the channel FAILED none, and the rebuild reads for a failed channel of its
MUTABLE set (R193, R199). -/
def State.schedReqs (s : State) (m ch cyc : Nat) : Nat :=
  let k := ch / 8
  if !s.setMutable m k then (s.chan m ch).requests cyc else
  if s.chFailed m ch then 0 else
  (s.chan m ch).requests cyc + ((List.range 8).map (fun i =>
    if s.chFailed m (8 * k + i) then (s.chan m (8 * k + i)).requests cyc else 0)).sum

/-- The channels on which a scheduled read of a channel queues its requests. -/
def State.readChans (s : State) (m ch : Nat) : List Nat :=
  let k := ch / 8
  if s.setMutable m k && s.chFailed m ch then ((List.range 8).map (· + 8 * k)).filter (fun c => !s.chFailed m c) else [ch]

/-- The flits that the channel buffer holds; a failure of the channel leaves the places of those it lost, without a payload (R193). -/
def Chan.held (c : Chan) : Nat := c.buffer.countP (fun x => x.2.payload ≠ [])

/-- The accesses of the page mover and of exports that wait at a channel, 8 at most (R199). -/
def State.otherReqs (s : State) (m ch : Nat) : Nat :=
  let x := s.site m
  min 8 (x.pm.countP (fun j => !j.ran && (s.regionChans m (s.region m j.cmd.region)).contains ch) +
    x.transfers.countP (fun t => (s.regionChans m (s.region m t.region)).contains ch))

/-- QMAX of channels takes up the requests they have now: at most 24 scheduled ones, at most 8 others, and `extra` of a refresh (R199, R204). -/
def State.noteQueue (s : State) (m : Nat) (l : List Nat) (extra : Nat) : State :=
  let cyc := (s.part ((s.sitePart m).getD 0)).cyc
  l.foldl (fun s ch => s.raise (.mchan m ch) mchan.QMAX (min (s.schedReqs m ch cyc) 24 + min 8 (s.otherReqs m ch + extra))) s

/-- The channels of a region that a write uses: with a MUTABLE set its parity channel too (R192). -/
def State.writeChans (s : State) (m : Nat) (r : Region) : List Nat :=
  s.regionChans m r ++ (if s.setMutable m r.set then [8 * r.set + 7] else [])

/-- SCHEDULE_READ_START (R195): the first entry of the channel whose reads are due starts, while the buffer has room and the scheduled
reads leave room for its requests in their 24 entries of the request queue (R53, R199).  The flits of an EMPTY or STALL slot are not sent. -/
def scheduleReadStart (s : State) (m ch : Nat) (u : StackUpset) : State :=
  match s.sitePart m with
  | none => s
  | some p =>
    let c := s.chan m ch
    let cyc := (s.part p).cyc
    if !s.running p || !(s.site m).up || cyc < 12 then s else
    match (List.range c.sched.length).find? (fun i => c.waiting i && csCycle (c.sched.getD i 0) ≤ cyc + 340) with
    | none => s
    | some i =>
      let e := c.sched.getD i 0
      let sl := s.csDescr m ch e
      if sl.state = .empty ∨ sl.state = .stall then s.updChan m ch (fun c => { c with started := c.started ++ [i] }) else
      if 2048 < c.held + csFlits e ∨ (s.readChans m ch).any (fun k => 24 < s.schedReqs m k cyc + csUnits e) then s else
      let (s, ps) := s.csData m ch e sl u
      let lane := if csSrc e = 0 then 0 else sl.lane
      let f (j : Nat) : Nat × Flit := (csCycle e + j,
        { part := p, stamp := (s.part p).tick % 256, op := 10, lane := lane, route := csLabel e, payload := ps.getD j [] })
      let s := s.updChan m ch (fun c => { c with
        started := c.started ++ [i], buffer := c.buffer ++ ((List.range (csFlits e)).map f).filter (fun x => cyc ≤ x.1) })
      let c := s.chan m ch
      (s.noteQueue m (s.readChans m ch) 0).raise (.mchan m ch) mchan.BUF_MAX (c.held / 4)

/-- SCHEDULE_RELEASE (R194, R195): the flit of this cycle reaches the edge router's input; one that is not in the buffer is late. -/
def scheduleRelease (s : State) (m ch : Nat) : State :=
  match s.sitePart m with
  | none => s
  | some p =>
    let c := s.chan m ch
    let cyc := (s.part p).cyc
    if !s.steps p || !(s.site m).up then s else
    let late (s : State) : State := (s.inc (.msite m) msite.SCHED_LATE_CNT 1).err (.msite m) 4
    match splitFirst (fun x => x.1 = cyc) c.buffer with
    | some (a, x, b) =>
      let s := s.updChan m ch (fun c => { c with buffer := a ++ b })
      if x.2.payload = [] then late s else
      (s.inc (.mchan m ch) mchan.SCHED_FLITS 1).launch p (chRouter m ch) (chPort ch) 0 x.2
    | none =>
      if (List.range c.sched.length).any (fun i => let e := c.sched.getD i 0
          c.waiting i && csCycle e ≤ cyc && cyc < csCycle e + csFlits e) then late s
      else s

/-! ### Failed channels (R193) -/

/-- Interrupts a load in progress with a code; the first stays, and a repair past its commit point is not interrupted (R226, R230). -/
def State.abortLoad (s : State) (p code : Nat) : State :=
  s.updPart p (fun x => { x with job := x.job.map (fun j => if j.finished then j else { j with abort := j.abort.or (some code) }) })

/-- A fault that is detected before the commit point of a requested cut abandons it (R230). -/
def State.abandonCut (s : State) (q : Option Nat) : State :=
  match q with
  | none => s
  | some p => if (s.part p).job.any (·.cutReq) then s.abortLoad p 0x1E else s

/-- MEM_CHANNEL_FAIL: a channel that lost its lock, or had 3 uncorrectable errors (R193) or 3 CRC errors on its memory saddle channel
(R169, R171) within 2^20 cycles, is declared failed; its state changes at the next boundary.  A scheduled read that this cuts short
fails the tick, and its flits are missing at their release. -/
def memChannelFail (s : State) (m ch : Nat) (lock : Bool) : State :=
  let c := s.chan m ch
  let recent (l : List Nat) : Nat := l.countP (fun t => decide (s.clock < t + 2 ^ 20))
  if c.failNext || s.chFailed m ch || !(lock || 3 ≤ recent c.ueTimes || 3 ≤ recent c.crcTimes) then s else
  let cut := c.buffer ≠ []
  let s := ((s.abandonCut (s.sitePart m)).updChan m ch (fun c => { c with
    failNext := true, noLock := c.noLock || lock, buffer := c.buffer.map (fun x => (x.1, { x.2 with payload := [] })) })).err (.msite m) 1
  let pg := Page.saddle (siteTile m) 4
  let s := if lock ∧ bit (s.rd pg saddle.MCH_LOCK) ch then s.wr pg saddle.MCH_LOCK (s.rd pg saddle.MCH_LOCK - 2 ^ ch) else s
  if cut then s.siteError m 1 else s

/-- Region `i` of site `m` changes: staged-image entries that hold it are no longer valid, and a load that reads from it is interrupted
(R210, R226). -/
def State.touchRegion (s : State) (m i : Nat) : State :=
  let p := (s.region m i).owner
  let used : Bool := (s.region m i).valid && (match (s.part p).job with
    | some j => j.regions.contains (m, i)
    | none => false)
  let s := if used then s.abortLoad p 0x19 else s
  s.updPart p (fun x => { x with staged := Table.mapVals {} (fun e =>
    if e.parts.any (fun z => z.1 = m && z.2.1 = i) then { e with valid := false } else e) x.staged })

/-- Drops what STAGE_IN left in the regions of a set (R193). -/
def State.unstageSet (s : State) (m k : Nat) : State :=
  let mine := (s.site m).stagedAt.filter (fun e => (s.region m e.1).set = k)
  (mine.foldl (fun s e => s.touchRegion m e.1) s).updSite m (fun x => { x with stagedAt := x.stagedAt.filter (fun e => (Table.get {} x.regions e.1).set ≠ k) })

/-- The flags of a set by its kind and its failed channels: DEGRADED, SET_UNPROT and SET_LOST (R193, R203, R204). -/
def State.setFlags (s : State) (m k : Nat) : State :=
  let pg := Page.msite m
  let keeps : Bool := s.setMutable m k
  let put (v : Nat) (b : Bool) : Nat := v - 2 ^ k * b2n (bit v k) + 2 ^ k * b2n b
  let lost := s.setLost m k
  let newly := lost && !bit (s.rd pg msite.SET_LOST) k
  let s := (List.range 7).foldl (fun s i => s.setFlag (.mchan m (8 * k + i)) mchan.DEGRADED (keeps && s.chFailed m (8 * k + i))) s
  let s := s.wr pg msite.SET_UNPROT (put (s.rd pg msite.SET_UNPROT) (keeps && s.chFailed m (8 * k + 7)))
  let s := s.wr pg msite.SET_LOST (put (s.rd pg msite.SET_LOST) lost)
  if newly then s.err pg 2 else s

/-- MEM_CHANNEL_FAILED_STATE (R193): at a boundary of its partition a declared channel enters FAILED. -/
def State.failChannel (s : State) (m ch : Nat) : State :=
  if !(s.chan m ch).failNext then s else
  let k := ch / 8
  let s := (s.updChan m ch (fun c => { c with failNext := false })).setFlag (.mchan m ch) mchan.FAILED true
  let sp := Page.saddle (siteTile m) 4
  let s := (s.wr sp saddle.MCH_FAIL (Nat.lor (s.rd sp saddle.MCH_FAIL) (2 ^ ch))).setFlags m k
  if s.setMutable m k then s else s.unstageSet m k

/-- All channels of a site at a boundary. -/
def State.failChannels (s : State) (m : Nat) : State := (List.range 32).foldl (fun s ch => s.failChannel m ch) s

/-- STACK_REFRESH (R199): a refresh that is due is performed; at the double rate it makes up two of the normal rate. -/
def stackRefresh (s : State) (m ch : Nat) : State :=
  (s.updChan m ch (fun c => { c with refreshes := c.refreshes + 1 })).noteQueue m [ch] 1

/-! ### The region table (R185, R188, R203) -/

/-- A region's entry keeps the first rule of R185, and no byte of it lies outside its channel set's data. -/
def State.regionOk (s : State) (m i : Nat) (r : Region) : Bool :=
  let kindOk : Bool := if s.setMutable m r.set then r.kind = 4 || r.kind = 5 else r.weight
  let chOk : Bool := !r.single || (r.ch / 8 = r.set && r.ch % 8 < s.dataChans m r.set)
  let apart : Bool := (s.site m).regions.all (fun e => e.1 = i || !e.2.valid ||
    e.2.base + e.2.len ≤ r.base || r.base + r.len ≤ e.2.base ||
    (s.regionChans m e.2).all (fun c => !(s.regionChans m r).contains c))
  kindOk && chOk && apart && r.base + r.len ≤ 393216

/-- A DEEP or STACKFED region of a partition that is not OFF is locked (R188). -/
def State.regionLocked (s : State) (r : Region) : Bool :=
  r.valid && (r.kind = 3 || r.kind = 4) && r.owner < 12 && s.pstate r.owner ≠ 0

/-- Changes a region entry; what was staged there is gone (R210, R226), and an open export to it is no longer served: status RANGE, as for a
region that is not valid (R187; log 94). -/
def State.putRegion (s : State) (m i : Nat) (r : Region) : State :=
  let s := (s.touchRegion m i).updSite m (fun x => { x with
    transfers := x.transfers.map (fun t => if t.region = i ∧ t.status = 0 then { t with status := 2 } else t)
    regions := Table.set {} x.regions i r, zeroing := x.zeroing.filter (· ≠ i), stagedAt := x.stagedAt.filter (fun e => e.1 ≠ i) })
  s.setFlag (.msite m) msite.ZERO_BUSY ((s.site m).zeroing ≠ [])

/-- Enters a region that the table takes; making a MUTABLE region VALID starts its zero fill (R188). -/
def State.enterRegion (s : State) (m i : Nat) (r : Region) : State :=
  let s := s.putRegion m i r
  if r.valid && s.setMutable m r.set then
    (s.updSite m (fun x => { x with zeroing := x.zeroing ++ [i] })).setFlag (.msite m) msite.ZERO_BUSY true
  else s

/-- REG_CMD_WRITE (R185, R188): REG_DATA into the selected entry. -/
def regCmdWrite (s : State) (m : Nat) : State :=
  let pg := Page.msite m
  let i := s.rd pg msite.REG_SEL
  let w := (List.range 4).foldl (fun a j => a + 2 ^ (32 * j) * s.rd pg (msite.REG_DATA j)) 0
  let r := regionOfWord w
  let old := s.region m i
  let s := (s.setFlag pg msite.CFG_REJECT false).setFlag pg msite.CFG_LOCKED false
  if s.regionLocked old || s.regionLocked r then s.setFlag pg msite.CFG_LOCKED true
  else if r.valid && !s.regionOk m i r then s.setFlag pg msite.CFG_REJECT true
  else s.enterRegion m i r

/-- REG_CMD_INVALIDATE (R188): the selected entry is no longer in use, unless it is locked. -/
def regCmdInvalidate (s : State) (m : Nat) : State :=
  let pg := Page.msite m
  let i := s.rd pg msite.REG_SEL
  let old := s.region m i
  let s := (s.setFlag pg msite.CFG_REJECT false).setFlag pg msite.CFG_LOCKED false
  if s.regionLocked old then s.setFlag pg msite.CFG_LOCKED true else s.putRegion m i { old with valid := false }

/-- ZERO_FILL_DONE (R188): the fill of the oldest new MUTABLE region ends; its lines are zero and parity holds again (R184), with what a
failed channel of the set holds by its parity unchanged (R193). -/
def zeroFillDone (s : State) (m : Nat) : State :=
  match (s.site m).zeroing with
  | [] => s
  | i :: rest =>
    let r := s.region m i
    let lo := r.base * 4096
    let hi := (r.base + r.len) * 4096
    let wipe (s : State) (ch : Nat) : State := s.updChan m ch (fun c => { c with
      mem := c.mem.filter (fun e => decide (e.1 < lo) || decide (hi ≤ e.1)), zeros := c.zeros ++ [(lo, hi)] })
    let par := 8 * r.set + 7
    let others := (List.range 7).filter (fun c => 8 * r.set + c ≠ r.ch)
    let keep := others.any (fun c => s.chFailed m (8 * r.set + c))
    let xor (off : Nat) : Byte :=
      if keep then s.rawByte m par off ^^^ s.rawByte m r.ch off
      else others.foldl (fun a c => a ^^^ s.rawByte m (8 * r.set + c) off) 0
    let s := (s.regionChans m r).foldl wipe s
    let s := if !r.single then wipe s par else (List.range (hi - lo)).foldl (fun s j => s.rawSet m par (lo + j) (xor (lo + j))) s
    (s.updSite m (fun x => { x with zeroing := rest })).setFlag (.msite m) msite.ZERO_BUSY (rest ≠ [])

/-- SET_KIND (R184, R203): each set that holds no VALID region takes the kind written, and its flags follow (R193). -/
def setKind (s : State) (m v : Nat) : State :=
  let pg := Page.msite m
  if s.flag pg page.LOCK then s else
  let used (k : Nat) : Bool := (s.site m).regions.any (fun e => e.2.valid && e.2.set = k)
  let old := s.rd pg msite.SET_KIND
  let nw := (List.range 4).foldl (fun a k => a + 2 ^ k * b2n (if used k then bit old k else bit v k)) 0
  (List.range 4).foldl (fun s k => (s.setFlag (.mchan m (8 * k + 7)) mchan.PARITY_CH (bit nw k)).setFlags m k) (s.wr pg msite.SET_KIND nw)

/-! ### Temperature (R202) -/

/-- A 1 ms reading: thresholds with their hysteresis. -/
def stackTempReading (s : State) (m : Nat) (temp : Int) : State :=
  let pg := Page.msite m
  let s := s.wr pg msite.STACK_TEMP ((temp % 256).toNat)
  let s := if 85 ≤ temp then s.setFlag pg msite.REFRESH_X2 true else if temp < 82 then s.setFlag pg msite.REFRESH_X2 false else s
  let s := if 95 ≤ temp then (if s.flag pg msite.HOT then s else (s.setFlag pg msite.HOT true).err pg 6)
           else if temp < 92 then s.setFlag pg msite.HOT false else s
  let n := if 105 ≤ temp then min ((s.site m).hotCnt + 1) 10 else 0
  let s := s.updSite m (fun x => { x with hotCnt := n })
  if 10 ≤ n then (if s.flag pg msite.HOT_FAIL then s else (s.setFlag pg msite.HOT_FAIL true).err pg 7)
  else if temp < 95 then s.setFlag pg msite.HOT_FAIL false else s

/-! ### Exports (R200) -/

/-- The status of an export to region `i`, in the order in which the site tests: a region that is not valid is RANGE, then owner, kind, range,
lost set (DESIGN CHOICE; log 94). -/
def State.exportStatus (s : State) (m i off n : Nat) : Nat :=
  let r := s.region m i
  if !r.valid then 2 else if !s.serves m r then 1
  else if r.kind ≠ 4 ∧ r.kind ≠ 5 then 3
  else if s.regionSize m r < 32 * (off + n) then 2
  else if s.setLost m r.set then 6 else 0

/-- The phase FIFOs of a site's 32 channels hold 8 flits each; a write to a full one is lost (R22, R171; log 94). -/
def State.siteFifos (s : State) (m : Nat) : State :=
  s.setLinks ((List.range 32).foldl (fun l ch => keepEight (fun k =>
    decide (k.dst = 32768 + m) && decide (k.port = ch) && decide (k.due ≤ (s.part k.flit.part).sched)) 0 l) s.links)

/-- Takes a due flit of operation `op` at a site, the first of its channel; with its channel. -/
def State.takeSite (s : State) (m op : Nat) : Option (Nat × Flit × State) :=
  let dst := 32768 + m
  let s := s.siteFifos m
  match splitFirst (fun l => decide (l.dst = dst) && decide (l.flit.op = op) && decide (l.due ≤ (s.part l.flit.part).sched))
      s.links with
  | none => none
  | some (a, x, b) => if a.any (fun l => l.dst = dst ∧ l.port = x.port) then none else some (x.port, x.flit, s.setLinks (a ++ b))

/-- A flit that fails its CRC on its way to a site is discarded and counted at its channel (R169, R171). -/
def State.siteCrc (s : State) (m ch : Nat) : State := s.crcError (chRouter m ch) (chPort ch) 4

/-- MEM_REQ: opens an export transfer; none is started while the stack is at 95 °C or more, while the page mover drains (R202) or
while a zero fill runs (R188). -/
def memReq (s : State) (m : Nat) (crcBad : Bool) : State :=
  if !(s.site m).up || s.flag (.msite m) msite.HOT || (s.site m).draining || (s.site m).zeroing ≠ [] then s else
  match s.takeSite m 9 with
  | none => s
  | some (ch, f, s) =>
    if crcBad then s.siteCrc m ch else
    let pl := f.payload
    let i := bits (pl.getD 3 0).toNat 0 6
    let off := leNat ((pl.drop 4).take 4)
    let n := bits (leNat ((pl.drop 8).take 2)) 0 12 + 1
    let st := s.exportStatus m i off n
    let s := if st = 1 then s.ownerMiss m else s
    s.updSite m (fun x => { x with
      transfers := x.transfers.filter (fun t => t.tid ≠ f.tid) ++ [⟨f.tid, i, off, n, n, 0, st⟩] }) |>.noteQueue m
        (if st = 0 then s.writeChans m (s.region m i) else []) 0

/-- Sets STORED in the records of the pages at an offset of a region (R197). -/
def State.storeAt (s : State) (m region off : Nat) : State :=
  s.updSite m (fun x => { x with records := x.records.map (fun e =>
    if bit e.2 63 && bits e.2 29 6 = region && bits e.2 0 29 * 2 = off && !bit e.2 61 then (e.1, e.2 + 2 ^ 61) else e) })

/-- An export has ended (R131, R197): STORED is set once the whole page is written.  One of 4,096 flits is the first part of a longer
page, whose second part lies 4,096 flits on. -/
def State.storeRecord (s : State) (m region off n : Nat) : State :=
  let has (o : Nat) (first : Bool) : Bool := (s.site m).longs.any (fun e => e.1 = region && e.2.1 = o && (e.2.2 = 4096) = first)
  let done (o : Nat) (s : State) : State := (s.updSite m (fun x => { x with
    longs := x.longs.filter (fun e => !(e.1 = region && (e.2.1 = o || e.2.1 = o + 4096))) })).storeAt m region o
  let wait (s : State) : State := s.updSite m (fun x => { x with longs := x.longs.filter (· ≠ (region, off, n)) ++ [(region, off, n)] })
  if n = 4096 then (if has (off + 4096) false then done off s else wait s)
  else
    let s := s.storeAt m region off
    if off < 4096 then s else if has (off - 4096) true then done (off - 4096) s
    else if (s.site m).records.any (fun e => bit e.2 63 && bits e.2 29 6 = region && bits e.2 0 29 * 2 = off - 4096 && !bit e.2 61) then wait s else s

/-- MEM_DATA: the next flit of its transfer is written with its parity while the site serves the region (R187, R188), unless the old line that the
parity update reads cannot be read (R191, R192: status UE); the last sends the completion word.  One that belongs to no transfer is discarded and counted. -/
def memData (s : State) (m : Nat) (crcBad : Bool) (u : StackUpset) : State :=
  if !(s.site m).up then s else
  match s.takeSite m 10 with
  | none => s
  | some (ch, f, s) =>
    if crcBad then s.siteCrc m ch else
    match splitFirst (fun t => t.tid = f.tid) (s.site m).transfers with
    | none => s.meshCount (chRouter m 0) mesh.MISROUTE_CNT 3
    | some (a, t, b) =>
      let r := s.region m t.region
      let x := 32 * (t.offset + (t.nflit - t.left))
      let now := if t.status = 0 then s.exportStatus m t.region t.offset t.nflit else t.status
      let s := if t.status = 0 ∧ now = 1 then s.ownerMiss m else s
      let (s, bad) := s.readUpset m r (b2n (now = 0)) (fun _ => x) u
      let st := if now = 0 ∧ bad ≠ [] then 5 else now
      let s := if st = 0 then s.regionWrite m r x f.payload else s
      let t := { t with left := t.left - 1, written := t.written + b2n (st = 0), status := st }
      if t.left = 0 then
        let s := s.updSite m (fun x => { x with transfers := a ++ b })
        let s := if st = 0 then s.storeRecord m t.region t.offset t.nflit else s
        s.spineDone f.part t.tid st t.written
      else s.updSite m (fun x => { x with transfers := a ++ t :: b })

/-- Records a transfer that its initiator will retry until a right completion comes (R173). -/
def State.addXfer (s : State) (p : Nat) (x : Xfer) : State :=
  s.updPart p (fun y => { y with xfers := y.xfers.filter (fun z => z.cmd.tid ≠ x.cmd.tid) ++ [{ x with sent := s.clock }] })

/-- EXPORT_DESCRIPTOR (R200): the core's router takes up the export; a word of a partition that the tile does not belong to is discarded at its
spine drop (R19). -/
def exportDescriptor (s : State) (t : Nat) (d : ExportDesc) : State :=
  match s.tilePart t with
  | none => s
  | some p =>
    if d.part ≠ p ∨ tileOf d.core ≠ t ∨ d.nflit = 0 then s else
    let s := s.updRouter d.core (fun r => { r with exports := r.exports ++ [(d, 0)] })
    if (s.part p).xfers.any (fun x => x.cmd.tid = d.tid) then s else
    s.addXfer p { site := d.site, cmd := { tid := d.tid }, desc := some d, expect := d.nflit }

/-! ### The deep tier (R131, R197, R198) -/

/-- A record's word: VALID, region and offset. -/
def recordWord (region off : Nat) : Nat := 2 ^ 63 + region % 64 * 2 ^ 29 + off % 2 ^ 29

/-- The binding of a core under which all 64 positions of the page of a page-list entry are committed (R131). -/
def Core.pageBinding (c : Core) (ent : Nat) : Option Binding :=
  c.binds.find? (fun b => b.layer = bits ent 46 9 && dirWindow c b.dir = 0 &&
    (bits ent 32 14 * max (dirShards c b.dir) 1 + dirIdx c b.dir + 1) * 64 ≤ dirCp c b.dir (bits ent 55 8))

/-- The control tile enters the first record index of a lane in the deep directory entry of a binding: record `record` is that of local
page `i` (R197, R198). -/
def State.deepFirst (s : State) (m : Nat) (b : Binding) (shard lane i record : Nat) : State :=
  s.updSite m (fun x => { x with deep := x.deep.map (fun d =>
    if d.layer = b.layer && d.head = b.kvHead && d.shard = shard then { d with first := Table.set 0 d.first lane (record - i + 1) } else d) })

/-- DEEP_PAGE_MOVE (R131, R198): the record and the lane's list are written, and the page at the page-list entry of address `page` goes to
the stack as an export, in two parts where it is longer than one transfer, once all of its 64 positions are committed. -/
def deepPageMove (s : State) (m g page tid region offset record : Nat) : State :=
  match s.corePart g with
  | none => s
  | some p =>
    let c := s.core g
    let ent := leNat (c.read page 8)
    let r := s.region m region
    match c.pageBinding ent with
    | none => s
    | some b =>
      if !bit ent 63 || bit ent 28 || c.deepAt.contains page || !r.single || r.kind ≠ 4 then s else
      let n := pageStride (pmHeads ent) / 32
      let d : ExportDesc := { part := p, core := g, slab := pmAddr ent - 0x800000, nflit := min n 4096, tid := tid, site := m,
                              region := region, offset := 2 * offset }
      let s := (s.updSite m (fun x => { x with records := Table.set 0 x.records record (recordWord region offset) })).deepFirst m b
        (dirIdx c b.dir) (bits ent 55 8) (bits ent 32 14) record
      let ds := d :: (if 4096 < n then [{ d with slab := d.slab + 131072, nflit := n - 4096, tid := tid + 32, offset := d.offset + 4096 }] else [])
      ds.foldl (fun s d => (s.updRouter g (fun r => { r with exports := r.exports ++ [(d, 0)] })).addXfer p
        { site := m, cmd := { tid := d.tid }, desc := some d, expect := d.nflit }) s

/-- DEEP_PAGE_LIVE (R198, R131): at a boundary, once STORED is set, LIVE is set, the page-list entry takes the record's index, and
the slab copy is free. -/
def deepPageLive (s : State) (m g entry record : Nat) : State :=
  match s.corePart g with
  | none => s
  | some p =>
    let rec0 := Table.get 0 (s.site m).records record
    if !bit rec0 63 || !bit rec0 61 || bit rec0 62 || 11 < (s.part p).cyc then s else
    let s := s.updSite m (fun x => { x with records := Table.set 0 x.records record (rec0 + 2 ^ 62) })
    let ent := leNat ((s.core g).read entry 8)
    let s := (s.memWrite g entry (leBytes 8 (ent / 2 ^ 17 * 2 ^ 17 + record % 2 ^ 17))).updCore g (fun c =>
      { c with deepAt := addSet c.deepAt [entry] })
    let s := s.inc (.adm p) adm.FREE_GPAGES 1
    match (Table.get {} (s.part p).lanes (bits ent 55 8)).handle with
    | some h => s.updReq h (fun r => { r with pages := r.pages - 1 })
    | none => s

/-- SCHEDULE_READ_START. -/
def execScheduleReadStart (m ch : Nat) (u : StackUpset) (s : State) : Out := .next (scheduleReadStart s m ch u)
/-- SCHEDULE_RELEASE. -/
def execScheduleRelease (m ch : Nat) (s : State) : Out := .next (scheduleRelease s m ch)
/-- MEM_CHANNEL_FAIL. -/
def execMemChannelFail (m ch : Nat) (lock : Bool) (s : State) : Out := .next (memChannelFail s m ch lock)
/-- STACK_REFRESH. -/
def execStackRefresh (m ch : Nat) (s : State) : Out := .next (stackRefresh s m ch)
/-- REG_CMD_WRITE. -/
def execRegCmdWrite (m : Nat) (s : State) : Out := .next (regCmdWrite s m)
/-- REG_CMD_INVALIDATE. -/
def execRegCmdInvalidate (m : Nat) (s : State) : Out := .next (regCmdInvalidate s m)
/-- ZERO_FILL_DONE. -/
def execZeroFillDone (m : Nat) (s : State) : Out := .next (zeroFillDone s m)
/-- SET_KIND. -/
def execSetKind (m v : Nat) (s : State) : Out := .next (setKind s m v)
/-- STACK_TEMP_READING. -/
def execStackTempReading (m : Nat) (temp : Int) (s : State) : Out := .next (stackTempReading s m temp)
/-- EXPORT_DESCRIPTOR. -/
def execExportDescriptor (t : Nat) (d : ExportDesc) (s : State) : Out := .next (exportDescriptor s t d)
/-- MEM_REQ. -/
def execMemReq (m : Nat) (crcBad : Bool) (s : State) : Out := .next (memReq s m crcBad)
/-- MEM_DATA. -/
def execMemData (m : Nat) (crcBad : Bool) (u : StackUpset) (s : State) : Out := .next (memData s m crcBad u)
/-- DEEP_PAGE_MOVE. -/
def execDeepPageMove (m g page tid region offset record : Nat) (s : State) : Out :=
  .next (deepPageMove s m g page tid region offset record)
/-- DEEP_PAGE_LIVE. -/
def execDeepPageLive (m g entry record : Nat) (s : State) : Out := .next (deepPageLive s m g entry record)

end Sys2Proof.Machine
end

