-- ==== Sys2Proof/Machine/PageMover.lean ====
section
/-! DEFINITION. The page mover of a memory site: its queue, its six operations and their completion words (R201). -/

namespace Sys2Proof.Machine

/-- Merges the byte range that a STAGE_IN wrote into the ranges of its region (R210). -/
def addRange (l : List (Nat × Nat × Nat)) (i a b : Nat) : List (Nat × Nat × Nat) :=
  let hit := l.filter (fun e => e.1 = i && e.2.1 ≤ b && a ≤ e.2.2)
  let lo := hit.foldl (fun v e => min v e.2.1) a
  let hi := hit.foldl (fun v e => max v e.2.2) b
  l.filter (fun e => !(e.1 = i && e.2.1 ≤ b && a ≤ e.2.2)) ++ [(i, lo, hi)]

/-- The status of a range of region `i`: a region that is not valid is RANGE, then owner, range and the loss of its set (R187, R193, R200;
DESIGN CHOICE where several apply, log 94). -/
def State.pmRange (s : State) (m i x n : Nat) : Nat :=
  let r := s.region m i
  if !r.valid then 2 else if !s.serves m r then 1
  else if s.regionSize m r < x + n then 2 else if s.setLost m r.set then 6 else 0

/-- The kinds that an operation works on (R201). -/
def pmKindOk (op kind dstKind : Nat) : Bool :=
  match op with
  | 3 => kind = 1 || kind = 2
  | 4 => kind = 4 || kind = 5
  | 5 => (kind ≤ 3) = (dstKind ≤ 3)
  | 6 => kind = 4 || kind = 5
  | _ => true

/-- The status of a command before it runs: that of its source, of its destination, then kind and key (R190, R200, R201; DESIGN CHOICE where
several apply, log 94). -/
def State.pmStatus (s : State) (m : Nat) (c : PmCmd) : Nat :=
  let n := 32 * c.length
  let r := s.region m c.region
  let a := s.pmRange m c.region (32 * c.offset) n
  let b := if c.op = 5 then s.pmRange m c.dstRegion (32 * c.dstOffset) n else 0
  if a ≠ 0 then a else if b ≠ 0 then b
  else if !pmKindOk c.op r.kind (s.region m c.dstRegion).kind then 3
  else if c.op = 3 ∧ s.siteKey m r.keySlot = none then 4 else 0

/-- Cuts bytes into BULK flits of 24 bytes for a core and slab offset (R172, R201). -/
def bulkRun (part stamp tid core off : Nat) (bs : List Byte) : List Flit :=
  let n := (bs.length + 23) / 24
  (List.range n).map (fun i => bulkFlit part stamp tid core (off + 24 * i) i (i + 1 = n) ((bs.drop (24 * i)).take 24))

/-- The source reads of a command (R191): the lines it cannot use, those of a channel that has lost its lock among them. -/
def State.sourceLines (s : State) (m : Nat) (r : Region) (n : Nat) (at_ : Nat → Nat) (u : StackUpset) : State × List Nat :=
  let gone := (List.range n).filter (fun i =>
    let ch := (s.locate m r (at_ i)).1
    (s.chan m ch).noLock && !s.chFailed m ch && !s.setMutable m (ch / 8))
  let (s, bad) := s.readUpset m r n at_ u
  (s, bad ++ gone.map (fun i => at_ i / 64))

/-- The reads of the old lines that a write to a MUTABLE set makes for its parity (R192); one to a WEIGHT set makes none. -/
def State.oldLines (s : State) (m : Nat) (r : Region) (n : Nat) (at_ : Nat → Nat) (u : StackUpset) : State × List Nat :=
  if s.setMutable m r.set then s.readUpset m r n at_ u else (s, [])

/-- Runs one command: what it writes or sends, its status and the units it moved (R201). -/
def State.pmExec (s : State) (m : Nat) (j : PmJob) : State × PmJob :=
  let c := j.cmd
  let p := (s.sitePart m).getD 0
  let r := s.region m c.region
  let x := 32 * c.offset
  let n := 32 * c.length
  let unit (i : Nat) : Nat := x + 32 * i
  let done (st n : Nat) : PmJob := { j with ran := true, status := st, count := n }
  let st := s.pmStatus m c
  if st ≠ 0 then
    let s := if st = 1 then s.ownerMiss m else if st = 4 then s.keyMiss m r.keySlot else s
    (s, done st 0)
  else
    let stamp := (s.part p).tick % 256
    let send (s : State) (bs : List Byte) : State × PmJob :=
      let fs := bulkRun p stamp c.tid c.core (8 * c.slab) bs
      (s.updSite m (fun y => { y with bulkOut := y.bulkOut ++ fs }), done 0 fs.length)
    match c.op with
    | 1 =>
      match s.oldLines m r c.length unit j.upset with
      | (s, _ :: _) => (s, done 5 0)
      | (s, []) =>
        let s := (s.touchRegion m c.region).regionWrite m r x (j.bytes.take n)
        (s.updSite m (fun y => { y with stagedAt := addRange y.stagedAt c.region x (x + min n j.bytes.length) }), done 0 c.length)
    | 2 =>
      match s.sourceLines m r c.length unit j.upset with
      | (s, _ :: _) => (s, done 5 0)
      | (s, []) => (s.emit (.spineData (s.primary p) c.tid (s.regionRead m r x n)), done 0 c.length)
    | 3 =>
      match s.sourceLines m r c.length unit j.upset with
      | (s, _ :: _) => (s, done 5 0)
      | (s, []) =>
        let key := (s.siteKey m r.keySlot).getD 0
        send (s.inc (.xts m) xts.DEC_UNITS (unitsOf x n).length) (s.regionPlain m r key x n)
    | 4 =>
      match s.sourceLines m r c.length unit j.upset with
      | (s, _ :: _) => (s, done 5 0)
      | (s, []) => send s (s.regionRead m r x n)
    | 5 =>
      let q := s.region m c.dstRegion
      match s.sourceLines m r c.length unit j.upset with
      | (s, _ :: _) => (s, done 5 0)
      | (s, []) =>
        match s.oldLines m q c.length (fun i => 32 * c.dstOffset + 32 * i) (upsetFrom j.upset c.length) with
        | (s, _ :: _) => (s, done 5 0)
        | (s, []) => (s.regionWrite m q (32 * c.dstOffset) (s.regionRead m r x n), done 0 c.length)
    | 6 =>
      match s.oldLines m r c.length unit j.upset with
      | (s, _ :: _) => (s, done 5 0)
      | (s, []) => (s.regionWrite m r x (List.replicate n 0), done 0 c.length)
    | _ => (s, done 3 0)

/-- The page mover may start a command: its controller is up, the stack is below 95 °C, and no zero fill runs (R188, R202). -/
def State.pmFree (s : State) (m : Nat) : Bool :=
  (s.site m).up && !s.flag (.msite m) msite.HOT && (s.site m).zeroing = []

/-- Runs the jobs of a list that have not run, in order, up to one that the engine itself sent. -/
def State.pmRunList (s : State) (m : Nat) : List PmJob → State × List PmJob
  | [] => (s, [])
  | j :: t =>
    if j.inner && !j.ran then (s, j :: t) else
    let (s, j) := if j.ran then (s, j) else s.pmExec m j
    let (s, t) := s.pmRunList m t
    (s, j :: t)

/-- Runs the queue of a site as far as it may. -/
def State.pmRun (s : State) (m : Nat) : State :=
  if !s.pmFree m then s else
  let (s, l) := s.pmRunList m (s.site m).pm
  s.updSite m (fun x => { x with pm := l })

/-- Runs the oldest command, where the engine itself sent it, with the errors it meets. -/
def State.pmHead (s : State) (m : Nat) (u : StackUpset) : State :=
  match (s.site m).pm with
  | [] => s
  | j :: t =>
    if !j.inner || j.ran || !s.pmFree m then s else
    let (s, j) := s.pmExec m { j with upset := u }
    s.updSite m (fun x => { x with pm := j :: t })

/-- A command of the page mover enters the queue of 64 and runs in its turn; its initiator keeps it until it completes (R201).  One that finds
the queue full is dropped with no completion word (DESIGN CHOICE; log 94).  A page mover that drains accepts none, and the initiator retries
(R407, R173). -/
def State.pmQueue (s : State) (m op : Nat) (c : PmCmd) (bytes : List Byte) (inner : Bool) (u : StackUpset) : State :=
  if 64 ≤ (s.site m).pm.length then s else
  let c := { c with op := op }
  let n := if op = 3 ∨ op = 4 then (32 * c.length + 23) / 24 else c.length
  let s := match s.sitePart m with
    | some p => if (s.part p).xfers.any (fun x => x.cmd.tid = c.tid) then s else
        s.addXfer p { site := m, cmd := c, bytes := bytes, expect := n }
    | none => s
  if (s.site m).draining then s else
  (((s.updSite m (fun x => { x with pm := x.pm ++ [{ cmd := c, bytes := bytes, upset := u, inner := inner }] })).wr (.msite m)
    msite.PM_QFILL ((s.site m).pm.length + 1)).noteQueue m (s.writeChans m (s.region m c.region)) 0).pmRun m

/-- A command from outside. -/
def State.pmCommand (s : State) (m op : Nat) (c : PmCmd) (bytes : List Byte) (u : StackUpset) : State := s.pmQueue m op c bytes false u

/-- A command that the engine itself sends. -/
def State.pmSend (s : State) (m op : Nat) (c : PmCmd) (bytes : List Byte) : State := s.pmQueue m op c bytes true .none

/-- A page mover that drains and whose queue is empty (R407, R452): the page is OFF, or starts again under PEND; at an update the MSF
restarts. -/
def State.pmDrained (s : State) (m : Nat) : State :=
  let pg := Page.msite m
  if !(s.site m).draining || (s.site m).pm ≠ [] then s else
  match s.rd pg page.STATE with
  | 3 => if s.flag pg page.PEND then (s.wr pg page.STATE 1).setFlag pg page.PEND false else s.wr pg page.STATE 0
  | 2 => s.wr pg page.STATE 1
  | _ => s

/-- PAGE_MOVER_DONE (R201): the oldest command ends and its completion word goes to the initiator; a transfer in
BULK flits is complete for its initiator only once its last flit is written (R173); a load that one of its LOADs
fails is interrupted (R226). -/
def pageMoverDone (s : State) (m : Nat) (u : StackUpset) : State :=
  let s := (s.pmRun m).pmHead m u
  match (s.site m).pm with
  | [] => s
  | j :: t =>
    if !j.ran then s else
    let s := ((s.updSite m (fun x => { x with pm := t })).wr (.msite m) msite.PM_QFILL t.length).pmDrained m
    let p := (s.sitePart m).getD 0
    let s := if (j.cmd.op = 3 ∨ j.cmd.op = 4) ∧ j.status = 0 then s.emit (.spineDone (s.primary p) j.cmd.tid 0 j.count)
             else s.spineDone p j.cmd.tid j.status j.count
    let mine : Bool := match (s.part p).job with
      | some l => l.tids.contains j.cmd.tid
      | none => false
    if !mine then s else
    match j.status with
    | 4 => s.abortLoad p 0x18
    | 5 => s.abortLoad p 0x19
    | 1 => s.abortLoad p 0x19
    | _ => s

/-- STAGE_IN. -/
def execStageIn (m : Nat) (c : PmCmd) (bytes : List Byte) (u : StackUpset) (s : State) : Out := .next (s.pmCommand m 1 c bytes u)
/-- STAGE_OUT. -/
def execStageOut (m : Nat) (c : PmCmd) (u : StackUpset) (s : State) : Out := .next (s.pmCommand m 2 c [] u)
/-- LOAD. -/
def execLoad (m : Nat) (c : PmCmd) (u : StackUpset) (s : State) : Out := .next (s.pmCommand m 3 c [] u)
/-- IMPORT. -/
def execImportRange (m : Nat) (c : PmCmd) (u : StackUpset) (s : State) : Out := .next (s.pmCommand m 4 c [] u)
/-- COPY. -/
def execCopy (m : Nat) (c : PmCmd) (u : StackUpset) (s : State) : Out := .next (s.pmCommand m 5 c [] u)
/-- ZERO. -/
def execZero (m : Nat) (c : PmCmd) (u : StackUpset) (s : State) : Out := .next (s.pmCommand m 6 c [] u)
/-- PAGE_MOVER_DONE. -/
def execPageMoverDone (m : Nat) (u : StackUpset) (s : State) : Out := .next (pageMoverDone s m u)

end Sys2Proof.Machine
end

