-- ==== Sys2Proof/Machine/Rings.lean ====
section
/-! DEFINITION. Companion memory as the engine reaches it: ports and ordered writes, apertures, the two rings, doorbells,
interrupts, completions and the command fetch (R236 to R240, R366 to R386). -/

namespace Sys2Proof.Machine

/-! ### Ports of a partition (R374, R375) -/

/-- LSTATE of port `n` is ACTIVE. -/
def State.portActive (s : State) (n : Nat) : Bool := s.rd (.vlport n) vlport.LSTATE = 4

/-- The ports of the control tile primary for `p` that reach its companion; one that retrains keeps its place (R374, R381). -/
def State.partPorts (s : State) (p : Nat) : List Nat :=
  ((List.range 4).map (· + 4 * s.primary p)).filter (fun n =>
    (s.portActive n || s.rd (.vlport n) vlport.LSTATE = 5) && s.rd (.vlport n) vlport.PORT_COMP = s.rd (.cohc p) cohc.COMP)

/-- The ordered port of a partition: the lowest of these ports. -/
def State.ordPort (s : State) (p : Nat) : Option Nat := (s.partPorts p).head?

/-- Link-lost: no ACTIVE port to the companion (R375). -/
def State.linkLost (s : State) (p : Nat) : Bool := (s.partPorts p).all (fun n => !s.portActive n)

/-- Takes note of partitions that become link-lost, or no longer are (R375, R386). -/
def State.linkCheck (s : State) : State :=
  (List.range 12).foldl (fun s p =>
    let lost : Bool := s.flag (.tickgen p) tickgen.CREATED && s.linkLost p
    let s := if lost && !(s.part p).lost then s.err (.cohc p) 2 else s
    s.updPart p (fun x => { x with lost := lost })) s

/-! ### Sending (R366, R369, R374, R380) -/

/-- A range lies in one aperture entry of the partition, with WRITE where it is written (R380). -/
def State.inAperture (s : State) (p addr n : Nat) (write : Bool) : Bool :=
  (s.part p).apers.any (fun e => e.2.valid && e.2.base ≤ addr && addr + n ≤ e.2.limit && (!write || e.2.canWrite))

/-- An access that fails the aperture check at run time is not sent (R380). -/
def State.apertViol (s : State) (p : Nat) : State := (s.inc (.cohc p) cohc.APERT_VIOL_CNT 1).err (.cohc p) 3

/-- The DATA flits that a message of `k` credit units fills: 120 or 242 bytes each (R358, R361). -/
def State.flitsOf (s : State) (n k : Nat) : Nat := cdiv (16 * k) (if s.rd (.vlport n) vlport.GEN = 3 then 242 else 120)

/-- Sends a message of `k` credit units on a VC: its credits are consumed, and its flits enter the replay buffer (R363, R366). -/
def State.transmit (s : State) (n vc k : Nat) (m : Msg) : State :=
  let f := s.flitsOf n k
  (s.updPort n (fun x => { x with
    credits := setAt x.credits vc (x.credits.getD vc 0 - k), tag := (x.tag + 1) % 4096
    replay := x.replay ++ (List.range f).map (fun i => ((x.txSeq + i) % 1024, if i = 0 then some m else none))
    ackTime := if x.replay = [] then s.clock else x.ackTime, txSeq := (x.txSeq + f) % 1024 })).emit m

/-- Messages of the engine that port `n` still waits to see answered. -/
def State.outstanding (s : State) (n : Nat) : Nat :=
  s.writes.countP (fun w => w.port = some n) + s.reads.countP (fun r => r.port = some n)

/-- Port `n` may send a message of `k` credits on a VC: credits, tags and room in the replay buffer of 512 flits. -/
def State.maySend (s : State) (n vc k : Nat) : Bool :=
  s.portActive n && k ≤ (s.port n).credits.getD vc 0 && s.outstanding n < 4096 && (s.port n).replay.length + s.flitsOf n k ≤ 512

/-- One waiting write: sent on the ordered port with a tag, unless an earlier write of its partition still waits. -/
def flushWrite (a : State × List Nat × List Write) (w : Write) : State × List Nat × List Write :=
  let (s, stuck, out) := a
  if w.port ≠ none ∨ stuck.contains w.part then (s, stuck, out ++ [w]) else
  match s.ordPort w.part with
  | none => (s, stuck ++ [w.part], out ++ [w])
  | some n =>
    if s.maySend n 3 5 then
      let w := { w with port := some n, tag := (s.port n).tag }
      (s.transmit n 3 5 (.write w), stuck, out ++ [w])
    else (s, stuck ++ [w.part], out ++ [w])

/-- The port that a read of an address takes: spread by address bits [9:8] (R374). -/
def State.readPort (s : State) (p addr : Nat) : Option Nat :=
  let l := (s.partPorts p).filter s.portActive
  l[addr / 256 % 4 % l.length]?

/-- One waiting read. -/
def flushRead (a : State × List Read) (r : Read) : State × List Read :=
  let (s, out) := a
  if r.port ≠ none then (s, out ++ [r]) else
  match s.readPort r.part r.addr with
  | none => (s, out ++ [r])
  | some n =>
    if s.maySend n 0 1 then
      let r := { r with port := some n, tag := (s.port n).tag }
      (s.transmit n 0 1 (.read r), out ++ [r])
    else (s, out ++ [r])

/-- One message that waits at a port, unless an earlier one of its VC still waits. -/
def flushMsg (n : Nat) (a : State × List (Msg × Nat × Nat)) (m : Msg × Nat × Nat) : State × List (Msg × Nat × Nat) :=
  let (s, out) := a
  if out.any (fun x => x.2.1 = m.2.1) || !s.maySend n m.2.1 m.2.2 then (s, out ++ [m]) else (s.transmit n m.2.1 m.2.2 m.1, out)

/-- The messages that wait at port `n`. -/
def State.flushPort (s : State) (n : Nat) : State :=
  let a := (s.port n).txWait.foldl (flushMsg n) (s, [])
  a.1.updPort n (fun x => { x with txWait := a.2 })

/-- The writes that wait and may go. -/
def State.flushWrites (s : State) : State :=
  let a := s.writes.foldl flushWrite (s, [], [])
  a.1.setWrites a.2.2

/-- The reads that wait and may go. -/
def State.flushReads (s : State) : State :=
  let a := s.reads.foldl flushRead (s, [])
  a.1.setReads a.2

/-- Sends what waits and may go. -/
def State.flush (s : State) : State := ((List.range 8).foldl State.flushPort s).flushWrites.flushReads

/-- Queues a message of `k` units on a VC of a port. -/
def State.sendMsg (s : State) (n vc k : Nat) (m : Msg) : State :=
  (s.updPort n (fun x => { x with txWait := x.txWait ++ [(m, vc, k)] })).flushPort n

/-- A port leaves its ring of duties in LSTATE `st`: its unanswered reads and writes go out again on the remaining ports (R374). -/
def State.portOff (s : State) (n st : Nat) : State :=
  let s := (s.wr (.vlport n) vlport.LSTATE st).updPort n (fun _ => { sinceDown := s.clock })
  let s := s.setWrites (s.writes.map (fun (w : Write) => if w.port = some n then { w with port := none } else w))
  let s := s.setReads (s.reads.map (fun (r : Read) => if r.port = some n then { r with port := none } else r))
  s.flush.linkCheck

/-- A port goes DOWN (R359, R360, R364). -/
def State.portDown (s : State) (n : Nat) : State :=
  ((s.inc (.vlport n) vlport.DOWN_CNT 1).err (.vlport n) 2).portOff n 6

/-- The pieces of a write, none crossing a 64-byte line; `n` bounds their number. -/
def linePieces : Nat → Nat → List Byte → List (Nat × List Byte)
  | 0, _, _ => []
  | n + 1, a, bs =>
    if bs = [] then [] else
    let k := 64 - a % 64
    (a, bs.take k) :: linePieces n (a + k) (bs.drop k)

/-- Queues a write to companion memory and sends it when it may go; one outside the apertures is not sent (R369, R380). -/
def State.sendWrite (s : State) (p : Nat) (ord : Bool) (addr : Nat) (bs : List Byte) : State :=
  if !s.inAperture p addr bs.length true then s.apertViol p else
  let ws : List Write := (linePieces (bs.length + 1) addr bs).map (fun x => { part := p, ord := ord, addr := x.1, bytes := x.2 })
  (s.setWrites (s.writes ++ ws)).flush

/-- Queues a read: RD_SH into the cache unless the line is there, or RD_NC (R370). -/
def State.sendRead (s : State) (p addr : Nat) (cached : Bool) (what : Nat) : State :=
  if cached && (s.ctl (s.primary p)).cache.contains (addr / 64) then s else
  (s.setReads (s.reads ++ [{ part := p, addr := addr, cached := cached, what := what }])).flush

/-! ### Rings (R236, R237, R377, R378) -/

/-- The first handle of a partition's half of the table (R18). -/
def halfBase (p : Nat) : Nat := if p < 6 then 0 else 65536

/-- Entries of the command ring. -/
def State.cmdN (s : State) (p : Nat) : Nat := 2 ^ s.rd (.cohc p) cohc.CMD_LOG2
/-- Entries of the completion ring. -/
def State.cplN (s : State) (p : Nat) : Nat := 2 ^ s.rd (.cohc p) cohc.CPL_LOG2
/-- Completion entries beyond CPL_CI. -/
def State.cplUsed (s : State) (p : Nat) : Nat :=
  (s.rd (.cohc p) cohc.CPL_PI + 2 * s.cplN p - s.rd (.doorbell p) doorbell.CPL_CI) % (2 * s.cplN p)
/-- The completion ring is full. -/
def State.cplFull (s : State) (p : Nat) : Bool := s.cplN p ≤ s.cplUsed p

/-- The 32 bytes of a completion entry (R240, R313). -/
def Cpl.bytes (c : Cpl) (phase : Bool) : List Byte :=
  [BitVec.ofNat 8 c.event, BitVec.ofNat 8 c.code] ++ leBytes 2 c.faults ++ leBytes 4 c.cookie ++ leBytes 4 c.handle ++
    leBytes 4 c.produced ++ leBytes 6 c.tick ++ [0, 0] ++ leBytes 5 c.worst ++ [0, 0, if phase then 0x80 else 0]

/-- Fires the interrupt (R379): INT_DATA to INT_ADDR with ORD, and disarms. -/
def State.fire (s : State) (p : Nat) : State :=
  let pg := Page.cohc p
  let s := (s.setFlag pg cohc.ARMED false).updPart p (fun x => { x with intPend := false, lastFire := s.clock + 1 })
  s.sendWrite p true ((s.part p).intAddr / 4 * 4) (leBytes 4 (s.rd pg cohc.INT_DATA))

/-- INT_HOLDOFF has passed since the last firing. -/
def State.holdoffOver (s : State) (p : Nat) : Bool :=
  (s.part p).lastFire = 0 || (s.part p).lastFire + 2500 * s.rd (.cohc p) cohc.INT_HOLDOFF ≤ s.clock + 1

/-- An armed interrupt fires, or waits for its holdoff; with INT_EN = 0 nothing fires (R379). -/
def State.tryFire (s : State) (p : Nat) : State :=
  if !s.flag (.cohc p) cohc.ARMED || !s.flag (.cohc p) cohc.INT_EN then s
  else if s.holdoffOver p then s.fire p else s.updPart p (fun x => { x with intPend := true })

/-- Writes a completion entry into the ring; one that ends its request frees the table entry (R243). -/
def State.writeCpl (s : State) (p : Nat) (c : Cpl) : State :=
  let pg := Page.cohc p
  let n := s.cplN p
  let i := s.rd pg cohc.CPL_PI
  let base := s.rd64 pg cohc.CPL_BASE_LO cohc.CPL_BASE_HI
  let phase := xor Config.firstPhase (decide (i / n % 2 = 1))
  let s := s.sendWrite p true (base / 64 * 64 + 32 * (i % n)) (c.bytes phase)
  let s := s.wr pg cohc.CPL_PI ((i + 1) % (2 * n))
  let s := if c.ends then s.updReq c.handle (fun _ => {}) else s
  s.tryFire p

/-- Holds an entry: FAULT entries coalesce, and a ROLE_SWAP entry replaces the one held (R237). -/
def holdCpl (l : List Cpl) (c : Cpl) : List Cpl :=
  if (c.event = 11 ∨ c.event = 14) ∧ l.any (fun x => x.event = c.event) then
    l.map (fun x => if x.event ≠ c.event then x else
      if c.event = 11 then { c with faults := min (x.faults + 1) 65535 } else c)
  else l ++ [c]

/-- A completion entry falls due, with its tick: written, or held while the ring is full or an earlier one is held. -/
def State.postCplAt (s : State) (p : Nat) (c : Cpl) : State :=
  if s.cplFull p || (s.part p).cplHeld ≠ [] then s.updPart p (fun x => { x with cplHeld := holdCpl x.cplHeld c })
  else s.writeCpl p c

/-- A completion entry falls due in the current tick. -/
def State.postCpl (s : State) (p : Nat) (c : Cpl) : State := s.postCplAt p { c with tick := (s.part p).tick }

/-- An entry of the store of 1,024 (R237): not one that its request's table entry holds, nor FAULT or ROLE_SWAP. -/
def Cpl.stored (c : Cpl) : Bool := !c.ends && c.event ≠ 11 && c.event ≠ 14

/-- The store holds an entry: no command is fetched, and no ELASTIC request admitted or resumed (R237). -/
def State.storeHolds (s : State) (p : Nat) : Bool := (s.part p).cplHeld.any Cpl.stored

/-- HELD_COMPLETION_WRITE (R237): the oldest held entry is written once a ring entry is free, a DONE once its STATUS is written (R241). -/
def heldCompletionWrite (s : State) (p : Nat) : State :=
  match (s.part p).cplHeld with
  | [] => s
  | c :: t => if s.cplFull p || c.waits then s else (s.updPart p (fun x => { x with cplHeld := t })).writeCpl p c

/-- A range of `n` entries of `sz` bytes from a base lies in one writable aperture entry. -/
def State.ringFits (s : State) (p : Nat) (lo hi log : Field) (sz : Nat) : Bool :=
  let pg := Page.cohc p
  6 ≤ s.rd pg log && s.rd pg log ≤ 16 && s.inAperture p (s.rd64 pg lo hi / 64 * 64) (sz * 2 ^ s.rd pg log) true

/-- Nothing keeps R378's rings from starting. -/
def State.ringsGood (s : State) (p : Nat) : Bool :=
  let pg := Page.cohc p
  s.ringFits p cohc.CMD_BASE_LO cohc.CMD_BASE_HI cohc.CMD_LOG2 64 && s.ringFits p cohc.CPL_BASE_LO cohc.CPL_BASE_HI cohc.CPL_LOG2 32 &&
    s.inAperture p (s.rd64 pg cohc.CI_SHADOW_LO cohc.CI_SHADOW_HI / 4 * 4) 4 true && (s.ordPort p).isSome

/-- CMD_PI (R377): the doorbell; one that would place more entries ahead than the ring holds is ignored, and so is one of an OFF partition
whose rings break R378 (R442). -/
def cmdPi (s : State) (p v : Nat) : State :=
  if s.flag (.tickgen p) tickgen.CREATED && s.pstate p = 0 && !s.ringsGood p then s.err (.cohc p) 0 else
  let n := s.cmdN p
  let v := v % (2 * n)
  if n < (v + 2 * n - s.rd (.cohc p) cohc.CMD_CI) % (2 * n) then s.err (.cohc p) 1
  else (s.wr (.doorbell p) doorbell.CMD_PI v).updPart p (fun x => { x with bells := x.bells ++ [(v, s.clock)] })

/-- CPL_CI (R377). -/
def cplCi (s : State) (p v : Nat) : State := s.wr (.doorbell p) doorbell.CPL_CI (v % (2 * s.cplN p))

/-- ARM (R379): arms the interrupt, which fires at once if entries beyond CPL_CI exist. -/
def arm (s : State) (p : Nat) : State :=
  let s := s.setFlag (.cohc p) cohc.ARMED true
  if s.cplUsed p = 0 then s else s.tryFire p

/-- INT_ADDR (R379): a write of the high word makes the new address take effect as a whole. -/
def intAddr (s : State) (p v : Nat) : State :=
  let s := s.wr (.cohc p) cohc.INT_ADDR_HI v
  s.updPart p (fun x => { x with intAddr := s.rd64 (.cohc p) cohc.INT_ADDR_LO cohc.INT_ADDR_HI })

/-- INT_HOLDOFF_EXPIRE (R379): the delayed firing. -/
def intHoldoffExpire (s : State) (p : Nat) : State :=
  if (s.part p).intPend && s.holdoffOver p && s.flag (.cohc p) cohc.ARMED && s.flag (.cohc p) cohc.INT_EN then s.fire p else s

/-- The opcodes of R238, R398, R402 and R403. -/
def knownOpc (o : Nat) : Bool := [0x01, 0x02, 0x03, 0x04, 0x05, 0x10, 0x11, 0x12, 0x13].contains o

/-- COOKIE of a command. -/
def CmdIn.cookie (c : CmdIn) : Nat := leNat ((c.bytes.drop 4).take 4)
/-- A field of a command: `n` bytes from byte `i`. -/
def CmdIn.field (c : CmdIn) (i n : Nat) : Nat := leNat ((c.bytes.drop i).take n)
/-- OPC of a command. -/
def CmdIn.opc (c : CmdIn) : Nat := c.field 0 1

/-- The header bytes of a command other than SUBMIT keep R238: FLAGS and PRIO have a defined value, whatever it is, and KIND is 0. -/
def CmdIn.headOk (c : CmdIn) : Bool := c.field 1 1 < 64 && c.field 2 1 = 0 && c.field 3 1 < 8

/-- NACK (R243, R381): a command that is not carried out. -/
def State.nack (s : State) (p : Nat) (c : CmdIn) (code handle : Nat) : State :=
  s.postCpl p { event := 9, code := code, cookie := c.cookie, handle := handle }

/-- NACK of a command that names no request: its HANDLE is a free value (log 9). -/
def State.nackFree (s : State) (p : Nat) (c : CmdIn) (code : Nat) : State :=
  let (v, s) := s.free
  s.nack p c code (v.toNat % 2 ^ 17)

/-- The lowest FREE handle of a partition's half of the table (R18, R242). -/
def State.freeHandle (s : State) (p : Nat) : Option Nat :=
  let b := halfBase p
  let h := (s.reqs.map (·.1)).foldl (fun h k => if k = h then h + 1 else h) b
  if h < b + 65536 then some h else none

/-- The clock at which the doorbell write arrived that covers the entry of index `ci` of a ring of `n` entries (R245). -/
def Part.bellOf (x : Part) (ci n : Nat) : Option Nat :=
  (x.bells.find? (fun b => let k := (b.1 + 2 * n - ci) % (2 * n); 1 ≤ k && k ≤ n)).map (·.2)

/-- A fetched command enters the list of those to be decided; a SUBMIT takes a FREE table entry, which is QUEUED (R243). -/
def State.enterCmd (s : State) (p : Nat) (c : CmdIn) : State :=
  let h := if c.opc = 1 then s.freeHandle p else none
  let s := match h with
    | some h => s.updReq h (fun _ => { state := .queued, part := p, prio := c.field 3 1, kind := c.field 2 1, cookie := c.cookie })
    | none => s
  s.updPart p (fun x => { x with cmdIn := x.cmdIn ++ [{ c with ent := h }] })

/-- A command that will not be decided gives up its table entry. -/
def State.dropEntry (s : State) (c : CmdIn) : State :=
  match c.ent with
  | some h => s.updReq h (fun _ => {})
  | none => s

/-- COMMAND_FETCH (R236, R237, R378): the next entry of the ring, whose 64 bytes the companion holds, is fetched, and CMD_CI and its
shadow advance.  Nothing is fetched while the completion ring is full, while the store holds entries, with 64 commands not completed (log 81),
or while the partition is link-lost (R375). -/
def commandFetch (s : State) (p : Nat) (entry : List Byte) : State :=
  let pg := Page.cohc p
  let ci := s.rd pg cohc.CMD_CI
  let n := s.cmdN p
  if !s.flag (.tickgen p) tickgen.CREATED || ci = s.rd (.doorbell p) doorbell.CMD_PI || s.cplFull p ||
      s.storeHolds p || 64 ≤ (s.part p).cmdIn.length + b2n (s.part p).job.isSome || s.linkLost p then s else
  let addr := s.rd64 pg cohc.CMD_BASE_LO cohc.CMD_BASE_HI / 64 * 64 + 64 * (ci % n)
  if !s.inAperture p addr 64 false then s.apertViol p else
  let s := s.sendRead p addr true 1
  let s := s.wr pg cohc.CMD_CI ((ci + 1) % (2 * n))
  let shadow := s.rd64 pg cohc.CI_SHADOW_LO cohc.CI_SHADOW_HI / 4 * 4
  let s := s.sendWrite p true shadow (leBytes 4 (s.rd pg cohc.CMD_CI))
  let c : CmdIn := { bytes := entry, addr := addr, tick := (s.part p).tick, clock := s.clock, ms := s.ms, bell := ((s.part p).bellOf ci n).getD s.clock }
  let s := s.updPart p (fun x => { x with bells := x.bells.filter (fun b => b.1 ≠ (ci + 1) % (2 * n)) })
  if knownOpc c.opc then s.enterCmd p c else s.nackFree p c 0x07

/-- Takes the oldest command that has been fetched and not decided, if its opcode is `opc`: commands are decided in fetch order
(R262). -/
def State.takeCmd (s : State) (p opc : Nat) : Option (CmdIn × State) :=
  match (s.part p).cmdIn with
  | c :: t => if c.opc = opc then some (c, s.updPart p (fun x => { x with cmdIn := t })) else none
  | [] => none

/-- HELD_COMPLETION_WRITE. -/
def execHeldCompletionWrite (p : Nat) (s : State) : Out := .next (heldCompletionWrite s p)
/-- CMD_PI. -/
def execCmdPi (p v : Nat) (s : State) : Out := .next (cmdPi s p v)
/-- CPL_CI. -/
def execCplCi (p v : Nat) (s : State) : Out := .next (cplCi s p v)
/-- ARM. -/
def execArm (p : Nat) (s : State) : Out := .next (arm s p)
/-- INT_ADDR. -/
def execIntAddr (p v : Nat) (s : State) : Out := .next (intAddr s p v)
/-- INT_HOLDOFF_EXPIRE. -/
def execIntHoldoffExpire (p : Nat) (s : State) : Out := .next (intHoldoffExpire s p)
/-- COMMAND_FETCH. -/
def execCommandFetch (p : Nat) (entry : List Byte) (s : State) : Out := .next (commandFetch s p entry)

end Sys2Proof.Machine
end

