-- ==== Sys2Proof/Machine/Sampling.lean ====
section
/-! DEFINITION. Sampling at the summit stage: the sampling block, the token mask, the kept distribution and the draw (R254 to
R256, R490). -/

namespace Sys2Proof.Machine

/-- The sampling block's fields, or none where a reserved byte or a range makes the request refused with PARAM (R254). -/
def parseSampling (bs : List Byte) : Option Sampling :=
  let f (i n : Nat) : Nat := leNat ((bs.drop i).take n)
  let temp := f 0 4
  let topP := f 8 4
  let minP := f 12 4
  if f 6 2 ≠ 0 ∨ f 56 8 ≠ 0 ∨ 256 < f 4 2 ∨ 0x42C80000 < temp ∨ topP = 0 ∨ 0x3F800000 < topP ∨ 0x3F800000 ≤ minP then none
  else some { temp := BitVec.ofNat 32 temp, topK := if f 4 2 = 0 then 256 else f 4 2, topP := BitVec.ofNat 32 topP,
              minP := BitVec.ofNat 32 minP, seed := f 16 8,
              stops := ((List.range 8).map (fun i => f (24 + 4 * i) 4)).filter (· ≠ 0xFFFFFFFF) }

/-- Bytes of a mask table after its header says so (R256). -/
def maskLen (bs : List Byte) : Nat := 8 + (if (bs.getD 1 0).toNat = 0 then 4 else 1) * leNat ((bs.drop 4).take 4)

/-- The allowed tokens of a mask table as a bitmap, or none where the request is refused with PARAM (R256). -/
def parseMask (bs : List Byte) (vocab : Nat) : Option Nat :=
  let mode := (bs.getD 0 0).toNat
  let form := (bs.getD 1 0).toNat
  let n := leNat ((bs.drop 4).take 4)
  let all := 2 ^ vocab - 1
  if leNat ((bs.drop 2).take 2) ≠ 0 ∨ 1 < mode ∨ 1 < form then none
  else
    let listed : Option Nat :=
      if form = 0 then
        let ids := (List.range n).map (fun i => leNat ((bs.drop (8 + 4 * i)).take 4))
        if n = 0 ∨ 4096 < n ∨ ids.any (fun t => vocab ≤ t) then none
        else some (ids.foldl (fun a t => Nat.lor a (2 ^ t)) 0)
      else if n ≠ (vocab + 7) / 8 then none
      else some (leNat ((bs.drop 8).take n) % 2 ^ vocab)
    match listed with
    | none => none
    | some l =>
      if mode = 1 then some (Nat.xor all l)
      else if l = 0 then none else some l

/-- A token is allowed by a mask. -/
def allowed (mask : Option Nat) (t : Nat) : Bool :=
  match mask with
  | none => true
  | some m => bit m t

/-- Step 1 of R255: masked and NaN logits become −∞. -/
def maskLogits (mask : Option Nat) (ls : List F32) : List F32 :=
  (List.range ls.length).map (fun t => let x := ls.getD t negInf; if !allowed mask t || isNan x then negInf else x)

/-- Strictly less as numbers: the two zeros are equal. -/
def numLt (x y : F32) : Bool :=
  let z (v : FV) : FV := match v with
    | .fin _ 0 e => .fin false 0 e
    | v => v
  FV.lt (z (f32Val x)) (z (f32Val y))

/-- The candidates in descending order of their logits, ties to the lower token (step 4). -/
def ranked (ls : List F32) : List Nat :=
  sortBy (fun a b => numLt (ls.getD b negInf) (ls.getD a negInf))
    ((List.range ls.length).filter (fun t => ls.getD t negInf ≠ negInf))

/-- The smallest prefix whose probabilities sum to `p` or more (step 6). -/
def topPrefix (p : F32) : F32 → List (Nat × F32) → List (Nat × F32)
  | _, [] => []
  | acc, (t, x) :: l =>
    let acc := fadd acc x
    (t, x) :: (if numLt acc p then topPrefix p acc l else [])

/-- A logit divided by TEMP; TEMP = 0 skips the division (step 2). -/
def scaled (temp x : F32) : F32 := if temp = 0 then x else fquot x temp

/-- The maximum and the sum of the exponentials over the whole vocabulary, by LSE merges in a fixed order (step 3, R119; log 24). -/
def vocabLse (temp : F32) (ls : List F32) : F32 × F32 :=
  (inRank 3 ls).foldl (fun (a : F32 × F32) x => let h := lseHead a.1 a.2 (scaled temp x) 0x3F800000; (h.m, h.l)) (negInf, 0)

/-- The log-probability of a token over the whole vocabulary: x / TEMP − m − ln l (step 3). -/
def logProb (ls : List F32) (temp : F32) (t : Nat) : F32 :=
  let (m, l) := vocabLse temp ls
  fsub (fsub (scaled temp (ls.getD t negInf)) m) (fln l)

/-- The kept distribution before it is renormalised (steps 4 to 7): tokens with their probabilities over the vocabulary. -/
def kept (sm : Sampling) (ls : List F32) : List (Nat × F32) :=
  let c := ((ranked ls).take (min 256 sm.topK)).map (fun t => (t, fexp (logProb ls sm.temp t)))
  let c := if sm.topP = 0x3F800000 then c else topPrefix sm.topP 0 c
  match c with
  | [] => []
  | (_, x) :: _ => c.filter (fun e => !numLt e.2 (fmul sm.minP x))

/-- The sum of the kept probabilities. -/
def keptSum (l : List (Nat × F32)) : F32 := l.foldl (fun a e => fadd a e.2) 0

/-- The first candidate whose cumulative probability in the renormalised distribution exceeds u = d × 2^-32 (step 8). -/
def chooseBy (d : Nat) (total : F32) : F32 → List (Nat × F32) → Option Nat
  | _, [] => none
  | acc, (t, x) :: l =>
    let acc := fadd acc x
    if FV.lt (FV.mul (.fin false d (-32)) (f32Val total)) (f32Val acc) ∨ l = [] then some t else chooseBy d total acc l

/-- The token for position `n` from masked logits, drawn in role `w`; none where every logit is −∞ (R255, R490). -/
def sampleToken (sm : Sampling) (ls : List F32) (n w : Nat) : Option Nat :=
  if sm.temp = 0 then (ranked ls).head?
  else let k := kept sm ls; chooseBy (draw sm.seed n w) (keptSum k) 0 k

/-- The probability of a token in the renormalised kept distribution, as two sums: numerator and denominator. -/
def keptProb (sm : Sampling) (ls : List F32) (t : Nat) : F32 × F32 :=
  let k := kept sm ls
  (((k.find? (fun e => e.1 = t)).map (·.2)).getD 0, keptSum k)

/-- The same as the FP32 value that a SPUR word carries (R272); with TEMP = 0 it is 1. -/
def draftProb (sm : Sampling) (ls : List F32) (t : Nat) : F32 :=
  if sm.temp = 0 then 0x3F800000 else let p := keptProb sm ls t; fquot p.1 p.2

end Sys2Proof.Machine
end

