-- ==== Sys2Proof/Machine/Lanes.lean ====
section
/-! DEFINITION. Lanes and their KV: length buckets, pages, lane directories over the control spine, priming, exports to the scree and
restores from it (R112, R126, R127, R249, R252, R253, R258 to R260). -/

namespace Sys2Proof.Machine

/-! ### Buckets and budgets (R42, R45, R126, R127) -/

/-- The limits of the buckets B0 to B5 (R126). -/
def bucketLimits : List Nat := [2048, 8192, 32768, 131072, 524288, 1048576]

/-- The smallest compiled bucket whose limit covers `l` positions. -/
def bucketOf (im : Loaded) (l : Nat) : Option Nat :=
  (List.range 6).find? (fun b => (im.buckets.getD b {}).compiled && l ≤ bucketLimits.getD b 0)

/-- B: booked holds per pass of a bucket. -/
def bookedHolds (im : Loaded) (b : Nat) : Nat := im.regions.countP (·.glob) * ((im.buckets.getD b {}).mu - 1)

/-- A4 layer regions: the default widen allowance. -/
def a4Regions (im : Loaded) : Nat := im.regions.countP (·.a4)

/-- The image of a partition. -/
def State.img (s : State) (p : Nat) : Loaded := (s.part p).image.getD {}

/-- The delta slots of an image, of its W wave slots (R283). -/
def deltaSlots (im : Loaded) : Nat := (List.range im.w).countP (bit im.deltaMask)

/-- Global-pool pages that a lane of `l` positions reserves. -/
def lanePages (im : Loaded) (l : Nat) : Nat := im.pagesPer64 * cdiv l 64

/-- A TICK deadline that lies before tick `t` (R37). -/
def isPast (d t : Nat) : Bool := 2 ^ 39 ≤ (d % 2 ^ 40 + 2 ^ 40 - t % 2 ^ 40) % 2 ^ 40

/-! ### Lanes (R252) -/

/-- The lanes of a partition. -/
def State.laneIds (s : State) (p : Nat) : List Nat :=
  (List.range (s.rd (.adm p) adm.LANE_CNT)).map (· + s.rd (.adm p) adm.LANE_BASE)

/-- Lane `l` of partition `p`. -/
def State.lane (s : State) (p l : Nat) : Lane := Table.get {} (s.part p).lanes l

/-- Changes a lane. -/
def State.updLane (s : State) (p l : Nat) (f : Lane → Lane) : State :=
  s.updPart p (fun x => { x with lanes := Table.upd {} x.lanes l f })

/-- A lane that no request holds and that is not being handed over. -/
def State.laneFree (s : State) (p l : Nat) : Bool := (s.lane p l).handle = none && (s.lane p l).freeAt ≤ (s.part p).tick

/-- The lowest free primed lane, then the lowest free lane. -/
def State.freeLane (s : State) (p : Nat) : Option Nat :=
  let free := (s.laneIds p).filter (s.laneFree p)
  (free.find? (fun l => (s.lane p l).primed)).or free.head?

/-! ### Directories, page lists and rings (R108 to R112) -/

/-- The slab address that the control tile gives page `i` of a lane's reservation at a directory of core `g` (log 23). -/
def pageAt (p g d lane i : Nat) : Nat := 0x800000 + 64 * (Config.pageAddr p g d lane i % 2 ^ 17)

/-- The KV group of a layer and KV head: the cores of the image that serve them, in order (R108). -/
def State.kvGroup (s : State) (p layer kv : Nat) : List Nat :=
  (s.usedCores p).filter (fun g => (s.core g).binds.any (fun b => b.layer = layer && b.kvHead = kv))

/-- Core `g` is the owner of a lane's ring. -/
def State.ownsRing (s : State) (p g layer kv lane : Nat) : Bool :=
  let l := s.kvGroup p layer kv
  l[Config.ringOwner layer kv lane % l.length]? = some g

/-- The global pages of a lane of `n` positions that lie on a shard. -/
def shardPages (shards idx n : Nat) : Nat := (cdiv n 64 + shards - 1 - idx) / max shards 1

/-- Writes one lane entry of a directory and its page list for `n` positions with WP = CP = `cp` (R110, R111, R112). -/
def State.writeDir (s : State) (p g lane n cp : Nat) (deep : Bool) (b : Binding) : State :=
  let c := s.core g
  let w := dirWindow c b.dir
  let at' (i : Nat) : Nat := pageAt p g b.dir (lane + 256 * (s.lane p lane).gen) i
  let base := at' 0
  let sh := max (dirShards c b.dir) 1
  let k := if w = 0 then shardPages sh (dirIdx c b.dir) n else w / 64 + 1
  let own : Bool := if w = 0 then decide (k ≠ 0) else s.ownsRing p g b.layer b.kvHead lane
  let entry := [BitVec.ofNat 8 (b2n own + 2 * b2n (deep && w = 0)), 0, 0, 0] ++ leBytes 4 cp ++ leBytes 4 cp ++ leBytes 4 base ++
    leBytes 2 k ++ List.replicate 14 0
  let s := s.memWrite g (dirEntry b.dir lane) entry
  if w ≠ 0 ∨ !own then s else
  let s := s.updCore g (fun c => { c with deepAt := c.deepAt.filter (fun a => !(base ≤ a && a < base + 8 * k)) })
  (List.range k).foldl (fun s i => s.memWrite g (base + 8 * i)
    (leBytes 8 (pmEntry lane b.layer i b.heads false (at' (i + 1))))) s

/-- The bindings of a core, one for each directory. -/
def Core.dirs (c : Core) : List Binding :=
  c.binds.foldl (fun l b => if l.any (fun x => x.dir = b.dir) then l else l ++ [b]) []

/-- Writes a lane's directory entries, page lists and rings at every binding of the partition. -/
def State.writeDirs (s : State) (p lane n cp : Nat) (deep : Bool) : State :=
  (s.usedCores p).foldl (fun s g => (s.core g).dirs.foldl (fun s b => s.writeDir p g lane n cp deep b) s) s

/-- Writes CP and WP of a lane at every binding (R253, R272, R276). -/
def State.writePtrs (s : State) (p lane cp : Nat) (wp : Bool) : State :=
  (s.usedCores p).foldl (fun s g => (s.core g).dirs.foldl (fun s b =>
    let e := dirEntry b.dir lane
    let s := s.memWrite g (e + 8) (leBytes 4 cp)
    if wp then s.memWrite g (e + 4) (leBytes 4 cp) else s) s) s

/-- A free lane gets its reservation for PRIME_LMAX, with WP = CP = 0 (R249). -/
def State.prime (s : State) (p lane : Nat) : State :=
  (s.updLane p lane (fun x => { x with gen := x.gen + 1, primed := true })).writeDirs p lane (s.rd (.adm p) adm.PRIME_LMAX) 0 false

/-- LANE_PRIME (R249, R443): a free lane that is not primed is primed, in STARTING and in service. -/
def lanePrime (s : State) (p lane : Nat) : State :=
  if !(s.laneIds p).contains lane || !s.laneFree p lane || (s.lane p lane).primed || (s.part p).image = none ||
      !(s.pstate p = 1 || s.pstate p = 2) then s else s.prime p lane

/-! ### Room in the scree (R258, R259) -/

/-- The ranges (offset, length) in 32-byte units that requests hold in a SCREE region. -/
def State.screeUsed (s : State) (m i : Nat) : List (Nat × Nat) :=
  s.reqs.flatMap (fun e => if e.2.inT2 then [] else
    (e.2.scree.filter (fun x => x.site = m && x.region = i)).map (fun x => (x.off, x.n)))

/-- The lowest offset at which `n` units fit beside ranges that are in use. -/
def firstFit (used : List (Nat × Nat)) (size n : Nat) : Option Nat :=
  minOf ((0 :: used.map (fun u => u.1 + u.2)).filter (fun x =>
    x + n ≤ size && used.all (fun u => u.1 + u.2 ≤ x || x + n ≤ u.1)))

/-- The SCREE regions of a partition as (site, region). -/
def State.screeRegions (s : State) (p : Nat) : List (Nat × Nat) :=
  (List.range 16).flatMap (fun m => if s.sitePart m ≠ some p then [] else
    (s.site m).regions.filterMap (fun e =>
      if e.2.valid && e.2.kind = 5 && e.2.owner = p && !s.setLost m e.2.set then some (m, e.1) else none))

/-- Places a piece in a SCREE region, on site `m` alone where one is given. -/
def State.placePiece (s : State) (p : Nat) (only : Option Nat) (n : Nat) : Option (Nat × Nat × Nat) :=
  (s.screeRegions p).findSome? (fun (m, i) =>
    if only.any (· ≠ m) then none else
    (firstFit (s.screeUsed m i) (s.regionSize m (s.region m i) / 32) n).map (fun o => (m, i, o)))

/-- The runs of at most 4,096 flits of a page. -/
def pageRuns (heads : Nat) : List (Nat × Nat) :=
  let n := pageStride heads / 32
  if n ≤ 4096 then [(0, n)] else [(0, 4096), (4096 * 32, n - 4096)]

/-- The ring slots that hold the last w committed positions, as ring pages. -/
def ringPages (w cp : Nat) : List Nat :=
  (List.range (w / 64 + 1)).filter (fun i => (List.range (min w cp)).any (fun k => (cp - 1 - k) % (w + 64) / 64 = i))

/-- What a core exports of a lane: directory, page and heads of every page with committed positions (R258). -/
def Core.exportPages (c : Core) (lane : Nat) : List (Binding × Nat) :=
  c.dirs.flatMap (fun b =>
    if !dirOwn c b.dir lane then [] else
    let w := dirWindow c b.dir
    let cp := dirCp c b.dir lane
    (if w ≠ 0 then ringPages w cp else List.range (min (shardPages (max (dirShards c b.dir) 1) (dirIdx c b.dir) cp) (dirPages c b.dir lane))).map
      (fun i => (b, i)))

/-- The slab address of a lane's page at a directory, or the record index of a page in the deep tier. -/
def Core.pageWhere (c : Core) (b : Binding) (lane i : Nat) : Nat :=
  let base := dirBase c b.dir lane
  if dirWindow c b.dir ≠ 0 then base + i * pageStride b.heads else pmAddr (leNat (c.read (base + 8 * i) 8))

/-- The site and record of a lane's deep page; none for a page of the slab (R131, R197). -/
def State.deepPage (s : State) (p g : Nat) (b : Binding) (lane i : Nat) : Option (Nat × Nat) :=
  let c := s.core g
  let ent := leNat (c.read (dirBase c b.dir lane + 8 * i) 8)
  let r := bits ent 0 17
  (List.range 16).findSome? (fun m =>
    let x := Table.get 0 (s.site m).records r
    if s.sitePart m = some p && dirWindow c b.dir = 0 && bit (c.byte (dirEntry b.dir lane)).toNat 1 && bit x 62 &&
        (s.site m).deep.any (fun d => d.layer = b.layer && d.head = b.kvHead && d.shard = dirIdx c b.dir)
    then some (m, x) else none)

/-- The pieces that a request's export needs: site bound or not, piece, and where it is read: a core's slab or a region's offset. -/
def State.exportPieces (s : State) (p lane : Nat) : List (Option Nat × Piece × Nat × Nat) :=
  (s.usedCores p).flatMap (fun g =>
    let c := s.core g
    (c.exportPages lane).flatMap (fun (b, i) =>
      (pageRuns b.heads).map (fun (st, n) =>
        let x : Piece := { n := n, core := g, dir := b.dir, page := i, start := st }
        match s.deepPage p g b lane i with
        | some (m, r) => (some m, { x with deep := true }, bits r 29 6, bits r 0 29 * 2 + st / 32)
        | none => (none, x, 0, c.pageWhere b lane i - 0x800000 + st))))

/-- A transfer ID for the next transfer of a partition. -/
def State.takeTid (s : State) (p : Nat) : Nat × State :=
  let t := (s.part p).nextTid
  (t, s.updPart p (fun x => { x with nextTid := (t + 1) % 65536 }))

/-- A request's entry holds a piece. -/
def State.addPiece (s : State) (h : Nat) (x : Piece) : State := s.updReq h (fun r => { r with scree := r.scree ++ [x] })

/-- Exports one piece of request `h` into its place. -/
def State.exportPiece (s : State) (p h : Nat) (x : Piece) (src a : Nat) : State :=
  let (tid, s) := s.takeTid p
  if x.deep then
    let c : PmCmd := { op := 5, region := src, dstRegion := x.region, offset := a, dstOffset := x.off, length := x.n, tid := tid }
    (s.addXfer p { site := x.site, cmd := c, handle := some h, expect := x.n }).pmSend x.site 5 c []
  else
    let d : ExportDesc := { part := p, core := x.core, slab := a, nflit := x.n, tid := tid, site := x.site, region := x.region, offset := x.off }
    exportDescriptor (s.addXfer p { site := x.site, cmd := { tid := tid }, desc := some d, handle := some h, expect := x.n })
      (tileOf x.core) d

/-! ### The spill area (R259) -/

/-- Bytes of a request's scree record. -/
def Request.bytes32 (r : Request) : Nat := 32 * (r.scree.map (·.n)).sum

/-- Moves the oldest SCREE record to T2 by STAGE_OUT; none when no record is there or T2 has no room. -/
def State.spillOldest (s : State) (p : Nat) : Option State :=
  let l := s.reqs.filter (fun e => e.2.part = p && e.2.state = .scree && !e.2.inT2 && e.2.scree ≠ [])
  match sortBy (fun a b => decide (a.2.ttlExp < b.2.ttlExp)) l with
  | [] => none
  | (h, r) :: _ =>
    let used := s.reqs.filterMap (fun e => if e.2.part = p && e.2.inT2 then some (e.2.t2Off, e.2.bytes32) else none)
    match firstFit used (s.rd (.adm p) adm.SCREE_T2_LEN * 2 ^ 20) r.bytes32 with
    | none => none
    | some o =>
      let base := s.rd64 (.adm p) adm.SCREE_T2_BASE_LO adm.SCREE_T2_BASE_HI / 4096 * 4096 + o
      let (s, _) := r.scree.foldl (fun (a : State × Nat) x =>
        let (s, k) := a
        let bs := s.regionRead x.site (s.region x.site x.region) (32 * x.off) (32 * x.n)
        let (tid, s) := s.takeTid p
        let c : PmCmd := { op := 2, region := x.region, offset := x.off, length := x.n, tid := tid }
        ((s.pmSend x.site 2 c []).sendWrite p false (base + k) bs, k + 32 * x.n)) (s, 0)
      some (s.updReq h (fun r => { r with inT2 := true, t2Off := o }))

/-- Places a piece, moving the oldest records to T2 while there is no room; `n` bounds how many. -/
def State.placeOrSpill (s : State) (p : Nat) (only : Option Nat) (size : Nat) : Nat → State × Option (Nat × Nat × Nat)
  | 0 => (s, s.placePiece p only size)
  | n + 1 =>
    match s.placePiece p only size with
    | some x => (s, some x)
    | none =>
      match s.spillOldest p with
      | none => (s, none)
      | some s => s.placeOrSpill p only size n

/-- Starts the export of a request's committed KV (R258); false where neither tier has room. -/
def State.exportAll (s : State) (p h lane : Nat) : State × Bool :=
  (s.exportPieces p lane).foldl (fun (a : State × Bool) (only, x, src, ad) =>
    let (s, ok) := a
    if !ok then (s, false) else
    match s.placeOrSpill p only x.n s.reqs.length with
    | (s, none) => (s, false)
    | (s, some (m, i, o)) =>
      let x := { x with site := m, region := i, off := o }
      ((s.addPiece h x).exportPiece p h x src ad, true)) (s, true)

/-- Drops a request's transfers that are still outstanding. -/
def State.dropXfers (s : State) (p h : Nat) : State :=
  s.updPart p (fun x => { x with xfers := x.xfers.filter (fun t => t.handle ≠ some h) })

/-- Places a request's spilled record in the SCREE regions again and writes it there by STAGE_IN (R260); none without room. -/
def State.unspill (s : State) (p h : Nat) (bytes : List Byte) : Option State :=
  let r := s.req h
  if !r.inT2 then some s else
  let s := s.updReq h (fun r => { r with scree := [], inT2 := false })
  let (s, ok, _) := r.scree.foldl (fun (a : State × Bool × List Byte) x =>
    let (s, ok, bs) := a
    if !ok then (s, false, []) else
    match s.placeOrSpill p none x.n s.reqs.length with
    | (s, none) => (s, false, [])
    | (s, some (m, i, o)) =>
      let (tid, s) := (s.addPiece h { x with site := m, region := i, off := o }).takeTid p
      let c : PmCmd := { op := 1, region := i, offset := o, length := x.n, tid := tid }
      (s.pmSend m 1 c (bs.take (32 * x.n)), true, bs.drop (32 * x.n))) (s, true, bytes)
  if ok then some s else none

/-- Starts the restore of a request's KV into the pages of its new lane by IMPORT (R260). -/
def State.restore (s : State) (p h lane : Nat) : State :=
  ((s.req h).scree).foldl (fun s x =>
    let c := s.core x.core
    match c.dirs.find? (fun b => b.dir = x.dir) with
    | none => s
    | some b =>
      let (tid, s) := s.takeTid p
      let m : PmCmd := { op := 4, region := x.region, offset := x.off, length := x.n, tid := tid, core := x.core,
                         slab := (c.pageWhere b lane x.page - 0x800000 + x.start) / 8 }
      (s.addXfer p { site := x.site, cmd := m, handle := some h, expect := (32 * x.n + 23) / 24 }).pmSend x.site 4 m []) s

/-- Every transfer of a request has its right completion. -/
def State.xfersDone (s : State) (p h : Nat) : Bool :=
  (s.part p).xfers.all (fun t => t.handle ≠ some h || t.got = some (0, t.expect))

/-- LANE_PRIME. -/
def execLanePrime (p lane : Nat) (s : State) : Out := .next (lanePrime s p lane)

end Sys2Proof.Machine
end

