-- ==== Sys2Proof/Machine/Spurs.lean ====
section
/-! DEFINITION. Spurs and model variants: pairings, draft lanes, the spur channel, verdicts, the acceptance tracker, and the binding
of delta entries (R266 to R272, R276, R278, R280, R281). -/

namespace Sys2Proof.Machine

/-! ### Pairings (R266) -/

/-- The draft partition of an active pairing of main partition `p`. -/
def State.draftOf (s : State) (p : Nat) : Option Nat :=
  if s.flag (.spur p) spur.PAIR_ACT then some (s.rd (.spur p) spur.DRAFT_PART) else none

/-- The main partition of the pairing in which `d` is the draft. -/
def State.mainOf (s : State) (d : Nat) : Option Nat := (List.range 12).find? (fun p => s.draftOf p = some d)

/-- A partition other than `p` whose pairing includes partition `x`. -/
def State.pairedElse (s : State) (p x : Nat) : Bool :=
  (List.range 12).any (fun m => m ≠ p && ((s.draftOf m = some x) || (m = x && (s.draftOf m).isSome)))

/-- DRAFT_PART (R266): a write while either partition is not OFF is ignored. -/
def State.draftPart (s : State) (p v : Nat) : State :=
  let d := s.rd (.spur p) spur.DRAFT_PART
  if s.pstate p ≠ 0 ∨ (d < 12 ∧ s.pstate d ≠ 0) ∨ (v < 12 ∧ s.pstate v ≠ 0) then s else s.wr (.spur p) spur.DRAFT_PART v

/-- PAIR_EN (R266): a pairing becomes active while both partitions are OFF and R266 holds; a write while either is not OFF is
ignored. -/
def pairEn (s : State) (p v : Nat) : State :=
  let pg := Page.spur p
  let d := s.rd pg spur.DRAFT_PART
  if s.pstate p ≠ 0 ∨ (d < 12 ∧ s.pstate d ≠ 0) then s else
  let s := (s.wr pg spur.PAIR_EN v).setFlag pg spur.PAIR_REJECT false
  if v % 2 = 0 then s.setFlag pg spur.PAIR_ACT false else
  let vocabs : Bool := match (s.part p).image, (s.part d).image with
    | some a, some b => a.vocab = b.vocab
    | _, _ => false
  if d ≠ p ∧ d < 12 ∧ !s.pairedElse p p ∧ !s.pairedElse p d ∧ vocabs then s.setFlag pg spur.PAIR_ACT true
  else ((s.setFlag pg spur.PAIR_ACT false).setFlag pg spur.PAIR_REJECT true).err pg 0

/-! ### The coordinator (R268 to R272, R276, R278) -/

/-- The spur state of a main lane. -/
def State.spurOf (s : State) (p lane : Nat) : Spur := (s.lane p lane).spur

/-- Changes the spur state of a main lane. -/
def State.updSpur (s : State) (p lane : Nat) (f : Spur → Spur) : State :=
  s.updLane p lane (fun x => { x with spur := f x.spur })

/-- The 32 bytes of a DRAFT word (R270). -/
def DraftWord.bytes (w : DraftWord) : List Byte :=
  (([1, w.lane % 256, w.epoch % 256, b2n w.keep + 2 * w.toks.length + 16 * w.kd].map (BitVec.ofNat 8)) ++ leBytes 4 w.v ++
    w.toks.flatMap (leBytes 4) ++ List.replicate 24 0).take 32

/-- The DRAFT word that 32 bytes hold. -/
def draftWordOf (bs : List Byte) : DraftWord :=
  let f (i n : Nat) : Nat := leNat ((bs.drop i).take n)
  { lane := f 1 1, epoch := f 2 1, keep := bit (f 3 1) 0, kd := bits (f 3 1) 4 2, v := f 4 4 % 2 ^ 20
    toks := (List.range (bits (f 3 1) 1 3)).map (fun i => f (8 + 4 * i) 4) }

/-- The 32 bytes of a SPUR word (R270). -/
def SpurWord.bytes (w : SpurWord) : List Byte :=
  let pad (l : List Byte) : List Byte := (l ++ List.replicate 12 0).take 12
  ([2, w.lane % 256, w.epoch % 256, w.toks.length % 4].map (BitVec.ofNat 8)) ++ leBytes 4 w.pos ++
    pad (w.toks.flatMap (fun e => leBytes 4 e.1)) ++ pad (w.toks.flatMap (fun e => leBytes 4 e.2.toNat))

/-- The SPUR word that 32 bytes hold. -/
def spurWordOf (bs : List Byte) : SpurWord :=
  let f (i n : Nat) : Nat := leNat ((bs.drop i).take n)
  { lane := f 1 1, epoch := f 2 1, pos := f 4 4 % 2 ^ 20
    toks := (List.range (f 3 1 % 4)).map (fun i => (f (8 + 4 * i) 4, BitVec.ofNat 32 (f (20 + 4 * i) 4))) }

/-- Sends a DRAFT word, with the draft partition's ID (R269); one with KEEP = 0 has a new EPOCH (R270, R272). -/
def State.sendDraft (s : State) (p d lane : Nat) (keep : Bool) (kd v : Nat) (toks : List Nat) : State :=
  match (s.spurOf p lane).draftLane with
  | none => s
  | some dl =>
    let s := s.updSpur p lane (fun x => { x with
      epoch := if keep then x.epoch else (x.epoch + 1) % 256
      base := v
      drafts := if keep then x.drafts.filter (fun e => decide (v ≤ e.1)) else x.drafts.filter (fun e => decide (e.1 < v)) ++
        (List.range toks.length).map (fun i => (v + i, toks.getD i 0, 0)) })
    let e := (s.spurOf p lane).epoch
    let w : DraftWord := { lane := dl, epoch := e, keep := keep, kd := kd, v := v, toks := toks }
    (s.updPart d (fun x => { x with draftWords := x.draftWords ++ [{ part := d, bytes := w.bytes }] })).emit
      (.draft d dl e keep kd v toks)

/-- Sends tokens from position `v` on in as many words as they need; `n` bounds the words. -/
def State.sendDrafts (s : State) (p d lane kd v : Nat) : Nat → List Nat → State
  | 0, _ => s
  | n + 1, toks =>
    if toks = [] then s else
    (s.sendDraft p d lane false kd v (toks.take 5)).sendDrafts p d lane kd (v + 5) n (toks.drop 5)

/-- L_max of a request in a draft lane or a lane (R126, R244). -/
def Request.lmax (r : Request) : Nat :=
  r.promptLen + (if r.kind = 1 then r.maxNew + (if r.spurOn then r.spurK else 0) else r.contLen)

/-- Gives a spur lane the lowest free lane of its draft partition and sends it the tokens held as a prefill (R268).  A lane that had one when its
draft partition went down starts again from KT = 0: its new draft lane idles until a probe (R280). -/
def State.takeDraft (s : State) (p lane h : Nat) : State :=
  let r := s.req h
  match s.draftOf p with
  | none => s
  | some d =>
    let im := s.img d
    let pages := lanePages im r.lmax
    let fits : Bool := 1 ≤ s.rd (.adm d) adm.FREE_RINGS && pages ≤ s.rd (.adm d) adm.FREE_GPAGES
    if s.pstate d ≠ 2 then s else
    match (s.laneIds d).find? (s.laneFree d) with
    | some dl =>
      if !fits then s else
      let dn := (s.spurOf p lane).down
      let s := s.updLane d dl (fun x => { handle := some h, gen := x.gen + 1, freeAt := x.freeAt, kd := r.spurK, idle := dn })
      let s := s.writeDirs d dl r.lmax 0 false
      let s := (s.wr (.adm d) adm.FREE_RINGS (s.rd (.adm d) adm.FREE_RINGS - 1)).wr (.adm d) adm.FREE_GPAGES
        (s.rd (.adm d) adm.FREE_GPAGES - pages)
      if dn then s.updSpur p lane (fun x => { x with draftLane := some dl, down := false }) else
      let s := s.updSpur p lane (fun _ => { draftLane := some dl, kt := r.spurK })
      s.sendDrafts p d lane r.spurK 0 (r.toks.length + 1) r.toks
    | none => s

/-- R268 at the admission of a GENERATE request with spurs: a draft lane, or a tracked length of 0 until one frees. -/
def State.admitSpur (s : State) (p lane h : Nat) : State :=
  let r := s.req h
  if r.kind ≠ 1 ∨ !r.spurOn ∨ r.spurK = 0 ∨ s.draftOf p = none then s else
  let s := s.takeDraft p lane h
  if (s.spurOf p lane).draftLane = none then s.inc (.spur p) spur.NOLANE_CNT 1 else s

/-- Releases the draft lane of a main lane that its request leaves (R268, R280). -/
def State.releaseDraft (s : State) (p lane h : Nat) : State :=
  match s.draftOf p, (s.spurOf p lane).draftLane with
  | some d, some dl =>
    let pages := lanePages (s.img d) (s.req h).lmax
    let s := s.updLane d dl (fun x => { gen := x.gen, freeAt := (s.part d).tick + 2 })
    let s := s.updPart d (fun x => { x with freed := x.freed ++ [(dl, x.tick + 2)] })
    (s.wr (.adm d) adm.FREE_RINGS (s.rd (.adm d) adm.FREE_RINGS + 1)).wr (.adm d) adm.FREE_GPAGES
      (s.rd (.adm d) adm.FREE_GPAGES + pages)
  | _, _ => s

/-- A spur lane that has no draft lane takes one that has come free (R268). -/
def State.retryDrafts (s : State) (p : Nat) : State :=
  (s.laneIds p).foldl (fun s l =>
    match (s.lane p l).handle with
    | none => s
    | some h =>
      let r := s.req h
      if r.kind = 1 ∧ r.spurOn ∧ r.spurK ≠ 0 ∧ (r.state = .prefill ∨ r.state = .decode) ∧ (s.spurOf p l).draftLane = none
      then s.takeDraft p l h else s) s

/-- The draft's guess for a position. -/
def Spur.guess (x : Spur) (pos : Nat) : Option Nat := (x.drafts.find? (fun e => e.1 = pos)).map (·.2.1)

/-- Its probability. -/
def Spur.prob (x : Spur) (pos : Nat) : F32 := ((x.drafts.find? (fun e => e.1 = pos)).map (·.2.2)).getD 0

/-- Idles the draft lane of a main lane (R278). -/
def State.idleDraft (s : State) (p lane : Nat) : State :=
  match s.draftOf p, (s.spurOf p lane).draftLane with
  | some d, some dl => (s.updLane d dl (fun x => { x with idle := true })).updSpur p lane (fun x => { x with drafts := [] })
  | _, _ => s

/-- The acceptance tracker at the verdict of a pass with `ke` extra positions of which `a` were accepted, a probe or not (R278): true where the
draft lane is idled, and true where the lane shrinks. -/
def Spur.track (x : Spur) (k ke a : Nat) (probe : Bool) : Spur × Bool × Bool :=
  if probe then
    if 1 ≤ a then ({ x with probing := false, zs := 0, kt := k }, false, false)
    else ({ x with probing := false, cnt := 0 }, true, false)
  else
    if x.kt = 0 then
      let n := x.cnt + a + 1
      ({ x with cnt := n, probe := x.probe || (decide (64 ≤ n) && !x.probing) }, false, false)
    else if ke = 0 then (x, false, false)
    else if 1 ≤ a then ({ x with zs := 0 }, false, false)
    else if x.zs + 1 = 4 then ({ x with kt := 0, zs := 0, cnt := 0 }, true, true)
    else ({ x with zs := x.zs + 1 }, false, false)

/-- SPUR_VERDICT (R276): V' takes effect at every binding, the tracker moves on, and D is sent a DRAFT word. `tok` is the token
emitted last, at position V' (log 26).  While D is down no probe falls due and no word is sent (R280). -/
def State.spurVerdict (s : State) (p lane h v ke a tok : Nat) (probe : Bool) : State :=
  let r := s.req h
  let x := s.spurOf p lane
  match s.draftOf p, x.draftLane with
  | some d, some _ =>
    let pg := Page.spur p
    let s := if ke = 0 then s else (s.inc pg spur.VERIFY_CNT 1).inc pg spur.ACCEPT_CNT a
    if s.pstate d ≠ 2 then s else
    let (y, idle, shrunk) := x.track r.spurK ke a probe
    let s := s.updSpur p lane (fun _ => y)
    let s := if shrunk then s.inc pg spur.SHRINK_CNT 1 else s
    if idle then s.idleDraft p lane
    else if y.kt = 0 && !y.probe && !y.probing then s
    else if y.kt = 0 && y.probe && !x.probe then
      s.sendDrafts p d lane 1 y.base (r.toks.length + 1) ((r.toks.take (v + 1)).drop y.base)
    else
      let keep := a = ke && y.guess v = some tok
      s.sendDraft p d lane keep (max y.kt 1) v (if keep then [] else [tok])
  | _, _ => s

/-- D halts or is disabled (R280): every spur lane of M runs with KT = 0 and no probes, and the draft lanes are released with what was on its way
to them (R309). -/
def State.draftDown (s : State) (d : Nat) : State :=
  match s.mainOf d with
  | none => s
  | some p =>
    let s := (s.laneIds p).foldl (fun s l =>
      let had : Bool := (s.spurOf p l).draftLane.isSome
      let s := match (s.lane p l).handle with
        | some h => s.releaseDraft p l h
        | none => s
      s.updSpur p l (fun x => { x with draftLane := none, kt := 0, zs := 0, cnt := 0, probe := false, probing := false, drafts := [], base := 0
                                       down := x.down || had })) s
    (s.updPart d (fun x => { x with draftWords := [], draftIn := [] })).err (.spur p) 2

/-- A spur-channel word that names no lane of the pairing (R269). -/
def State.chanDrop (s : State) (p : Nat) : State := (s.inc (.spur p) spur.CHAN_DROP_CNT 1).err (.spur p) 1

/-- DRAFT (R19, R269, R271): the oldest DRAFT word on its way to draft partition `d` reaches its packer; one for another partition or of a lane
outside the pairing is discarded. -/
def draft (s : State) (d : Nat) : State :=
  match (s.part d).draftWords, s.mainOf d with
  | w :: t, some p =>
    let s := s.updPart d (fun x => { x with draftWords := t })
    let x := draftWordOf w.bytes
    if w.part ≠ d then s
    else if (s.lane d x.lane).handle = none then s.chanDrop p
    else s.updPart d (fun y => { y with draftIn := y.draftIn ++ [x] })
  | _ :: t, none => s.updPart d (fun x => { x with draftWords := t })
  | [], _ => s

/-- What a DRAFT word does at the latch of D (R272): its pointers move, and with KEEP = 0 the draft positions beyond V go with what they have
produced, and the tokens it carries are the lane's input from V on; those before V that have not entered yet still do. -/
def State.applyDraft (s : State) (d : Nat) (w : DraftWord) : State :=
  if (s.lane d w.lane).handle = none then s else
  let s := s.writePtrs d w.lane w.v (!w.keep)
  let s := s.updLane d w.lane (fun x => { x with draftV := w.v, kd := w.kd, idle := false })
  if w.keep then s else
  let gone (h : Hold) : Hold := if h.lane = w.lane ∧ w.v ≤ h.pos then { h with removed := true } else h
  let s := s.updPart d (fun x => { x with
    table := x.table.map gone
    entering := x.entering.filter (fun h => !(h.lane = w.lane && decide (w.v ≤ h.pos)))
    results := x.results.filter (fun r => !(r.lane = w.lane && decide (w.v ≤ r.pos + 1))) })
  s.updLane d w.lane (fun x => { x with
    epoch := w.epoch
    next := min x.next w.v
    toks := x.toks.take w.v ++ List.replicate (w.v - x.toks.length) 0 ++ w.toks })

/-- The main lane of a draft lane. -/
def State.mainLane (s : State) (p dl : Nat) : Option Nat :=
  (s.laneIds p).find? (fun l => (s.lane p l).handle ≠ none && (s.spurOf p l).draftLane = some dl)

/-- A SPUR word of another EPOCH is discarded (R272). -/
def State.spurStale (s : State) (p : Nat) : State := s.inc (.spur p) spur.SPUR_STALE_CNT 1

/-- SPUR (R19, R269, R271, R272): the oldest SPUR word on its way reaches the coordinator of main partition `p`. -/
def spurWord (s : State) (p : Nat) : State :=
  match (s.part p).spurWords with
  | [] => s
  | w :: t =>
    let s := s.updPart p (fun x => { x with spurWords := t })
    let x := spurWordOf w.bytes
    if w.part ≠ p then s else
    match s.mainLane p x.lane with
    | none => s.chanDrop p
    | some l => if x.epoch ≠ (s.spurOf p l).epoch then s.spurStale p else s.updPart p (fun y => { y with spurIn := y.spurIn ++ [x] })

/-- What a SPUR word does at the latch of M (R271, R272): the lane holds its drafts, unless its EPOCH has passed by then. -/
def State.applySpur (s : State) (p : Nat) (w : SpurWord) : State :=
  match s.mainLane p w.lane with
  | none => s
  | some l =>
    if w.epoch ≠ (s.spurOf p l).epoch then s.spurStale p else
    s.updSpur p l (fun x => { x with
      drafts := x.drafts ++ (List.range w.toks.length).map (fun i => (w.pos + i, (w.toks.getD i (0, 0)).1, (w.toks.getD i (0, 0)).2)) })

/-- The words of the spur channel take effect at a partition's latch (R271). -/
def State.takeWords (s : State) (p : Nat) : State :=
  let a := (s.part p).draftIn
  let b := (s.part p).spurIn
  let s := s.updPart p (fun x => { x with draftIn := [], spurIn := [] })
  b.foldl (fun s w => s.applySpur p w) (a.foldl (fun s w => s.applyDraft p w) s)

/-- The packer of D sends a draft token of a lane in a SPUR word (R272). -/
def State.sendSpur (s : State) (d lane pos tok : Nat) (q : F32) : State :=
  match s.mainOf d with
  | none => s
  | some p =>
    let w : SpurWord := { lane := lane, epoch := (s.lane d lane).epoch, pos := pos, toks := [(tok, q)] }
    s.updPart p (fun x => { x with spurWords := x.spurWords ++ [{ part := p, bytes := w.bytes }] })

/-! ### Delta entries (R281) -/

/-- Delta entry `e` of a partition. -/
def State.vent (s : State) (p e : Nat) : Vent := Table.get {} (s.part p).vents e

/-- Changes a delta entry. -/
def State.updVent (s : State) (p e : Nat) (f : Vent → Vent) : State :=
  s.updPart p (fun x => { x with vents := Table.upd {} x.vents e f })

/-- The entry bound to a variant number. -/
def State.boundVent (s : State) (p num : Nat) : Option Nat :=
  ((s.part p).vents.find? (fun e => e.2.bound && e.2.bnd = num)).map (·.1)

/-- What a bind needs (R281): the running image, a loaded key slot, and at every site of the image's DELTA entries a valid directory
entry in a DELTA region of the partition that is long enough. -/
def State.ventOk (s : State) (p e : Nat) : Bool :=
  let v := s.vent p e
  match (s.part p).image with
  | none => false
  | some im => v.image = im.id && 1 ≤ v.num && v.num ≤ 63 && im.deltaSites.all (fun m =>
      let d := Table.get {} (s.site m).deltas e
      let r := s.region m d.region
      (s.siteKey m v.key).isSome && d.valid && r.valid && r.kind = 2 && r.owner = p &&
        (d.base + im.deltaSpan) * 4096 ≤ s.regionSize m r)

/-- VENT_CMD 1 (R281): binds the selected entry to its number, taking the number from its previous entry. -/
def ventCmdBind (s : State) (p : Nat) : State :=
  let pg := Page.adm p
  let e := s.rd pg adm.VENT_SEL
  if !s.ventOk p e then s.setFlag pg adm.VENT_REJECT true else
  let n := (s.vent p e).num
  let s := match s.boundVent p n with
    | some o => s.updVent p o (fun v => { v with bound := false })
    | none => s
  (s.updVent p e (fun v => { v with bound := true, bnd := v.num })).setFlag pg adm.VENT_REJECT false

/-- VENT_CMD 2 (R281): unbinds the selected entry while no lane is admitted with it. -/
def ventCmdUnbind (s : State) (p : Nat) : State :=
  let e := s.rd (.adm p) adm.VENT_SEL
  if (s.vent p e).lanes ≠ 0 then s else s.updVent p e (fun v => { v with bound := false })

/-- PAIR_EN. -/
def execPairEn (p v : Nat) (s : State) : Out := .next (pairEn s p v)
/-- DRAFT. -/
def execDraft (p : Nat) (s : State) : Out := .next (draft s p)
/-- SPUR. -/
def execSpur (p : Nat) (s : State) : Out := .next (spurWord s p)
/-- VENT_CMD with 1. -/
def execVentCmdBind (p : Nat) (s : State) : Out := .next (ventCmdBind s p)
/-- VENT_CMD with 2. -/
def execVentCmdUnbind (p : Nat) (s : State) : Out := .next (ventCmdUnbind s p)

end Sys2Proof.Machine
end

