-- ==== Sys2Proof/Machine/Requests.lean ====
section
/-! DEFINITION. Requests: SUBMIT, RESUME, PAUSE, CANCEL and RELEASE, admission and preemption, output buffers, the scree's timers and
the slack sweep (R238 to R263). -/

namespace Sys2Proof.Machine

/-! ### The table (R242) -/

/-- Requests of a partition that satisfy `f`, with their handles. -/
def State.reqsOf (s : State) (p : Nat) (f : Request → Bool) : List (Nat × Request) := s.reqs.filter (fun e => e.2.part = p && f e.2)

/-- ADMITTED, PREFILL or DECODE. -/
def ReqState.running (x : ReqState) : Bool := x = .admitted || x = .prefill || x = .decode

/-! ### Output buffers (R241) -/

/-- Bytes 0 to 15 of an output buffer's header. -/
def outHeader (seq cnt status h : Nat) : List Byte :=
  leBytes 4 seq ++ leBytes 4 cnt ++ [BitVec.ofNat 8 status, 0, 0, 0] ++ leBytes 4 h

/-- Writes STATUS, then the completion entry (R241): the one that waited in its place, with the tick of its event (R236, R240), or a new
one. -/
def State.closeOut (s : State) (p addr status : Nat) (c : Cpl) : State :=
  let s := s.sendWrite p true (addr + 8) [BitVec.ofNat 8 status]
  if (s.part p).cplHeld.any (fun x => x.waits && x.handle = c.handle) then
    heldCompletionWrite (s.updPart p (fun x => { x with
      cplHeld := x.cplHeld.map (fun y => if y.handle = c.handle then { y with waits := false } else y) })) p
  else s.postCpl p c

/-- The end of a request's output: at once, or after its records that are still to be written; its completion entry keeps its place in the
order of events (R236). -/
def State.endOut (s : State) (p h status : Nat) (c : Cpl) : State :=
  let r := s.req h
  if (s.part p).outQ.any (fun o => o.handle = h) then
    s.updPart p (fun x => { x with
      outQ := x.outQ ++ [{ handle := h, base := r.outAddr, fin := some (status, c) }]
      cplHeld := x.cplHeld ++ [{ c with tick := x.tick, waits := true }] })
  else s.closeOut p r.outAddr status c

/-- A record of a request falls due: it takes the next place in the buffer (R241). -/
def State.queueRec (s : State) (p h : Nat) (bytes : List Byte) : State :=
  let r := s.req h
  let s := s.updPart p (fun x => { x with outQ := x.outQ ++
    [{ handle := h, base := r.outAddr, offset := 64 + 8 * r.recCnt, bytes := bytes, seq := r.seqNo + 1, cnt := r.recCnt + 1 }] })
  s.updReq h (fun r => { r with seqNo := r.seqNo + 1, recCnt := r.recCnt + 1 })

/-! ### Leaving a lane (R252, R253, R258) -/

/-- Returns a request's pages and ring set to the pool. -/
def State.freePages (s : State) (p h : Nat) : State :=
  let r := s.req h
  ((s.inc (.adm p) adm.FREE_RINGS r.rings).inc (.adm p) adm.FREE_GPAGES r.pages).updReq h (fun r => { r with rings := 0, pages := 0 })

/-- The positions of a lane become EMPTY in the hold mask two ticks on (steps 1 and 2 of R252). -/
def State.markFreed (s : State) (p lane : Nat) : State :=
  s.updPart p (fun x => { x with freed := x.freed ++ [(lane, x.tick + 2)] })

/-- A request gives up its lane: its draft lane, its delta entry and its lane entry at the sites. -/
def State.leaveLane (s : State) (p h : Nat) : State :=
  let l := (s.req h).lane
  if (s.lane p l).handle ≠ some h then s else
  let s := s.releaseDraft p l h
  let s := match (s.lane p l).delta with
    | some e => s.updVent p e (fun v => { v with lanes := v.lanes - 1 })
    | none => s
  s.updLane p l (fun x => { gen := x.gen, freeAt := max x.freeAt ((s.part p).tick + 2) })

/-- A request that runs ends with a status: lane, pages and transfers are released, and DONE is written (R243, R253). -/
def State.finish (s : State) (p h status : Nat) : State :=
  let r := s.req h
  let s := if r.state.running then s.markFreed p r.lane else s
  let s := ((s.leaveLane p h).freePages p h).dropXfers p h
  let s := s.updReq h (fun r => { r with state := .done, status := status, scree := [], inT2 := false, toExport := false, ready := false })
  let s := if status = 1 ∧ !r.elastic then s.err (.adm p) 1 else s
  s.endOut p h status { event := 3, code := status, cookie := r.cookie, handle := h, produced := r.genCnt, ends := true }

/-- DONE with KEEP (R243, R258): the request goes to PAUSED and its KV is exported. -/
def State.finishKeep (s : State) (p h status : Nat) : State :=
  let r := s.req h
  let s := (s.markFreed p r.lane).updReq h (fun r => { r with
    state := .paused, status := status, ttl := 0, auto := false, toExport := true, ready := false })
  let s := if status = 1 ∧ !r.elastic then s.err (.adm p) 1 else s
  s.endOut p h status { event := 3, code := status, cookie := r.cookie, handle := h, produced := r.genCnt }

/-- A request that has to run again enters every token it holds anew, in QUEUED (R252, R311). -/
def State.requeue (s : State) (p h : Nat) : State :=
  ((s.leaveLane p h).freePages p h).dropXfers p h |>.updReq h (fun r => { r with
    state := .queued, auto := false, scree := [], inT2 := false, startPos := 0, entered := 0, toEnter := r.toks.length
    ready := false, toExport := false, setupAt := 0, entryHeld := false })

/-- Preempts an ELASTIC request (R252): it goes to QUEUED, or to PAUSED with AUTO from DECODE. -/
def State.preempt (s : State) (p h : Nat) : State :=
  let r := s.req h
  let s := (s.markFreed p r.lane).inc (.adm p) adm.PREEMPT_CNT 1
  let s := if r.state = .decode then
      (s.leaveLane p h).updReq h (fun r => { r with
        state := .paused, auto := true, ttl := 0, toExport := true, ready := false
        startPos := r.toks.length - 1, entered := 0, toEnter := 1 })
    else s.requeue p h
  s.postCpl p { event := 7, cookie := r.cookie, handle := h, produced := r.genCnt }

/-- The ELASTIC request that is preempted: highest priority number, then latest admitted. -/
def State.victim (s : State) (p : Nat) : Option (Nat × Request) :=
  (sortBy (fun a b => decide (b.2.prio < a.2.prio) || (a.2.prio = b.2.prio && decide (b.2.order < a.2.order)))
    (s.reqsOf p (fun r => r.elastic && r.state.running))).head?

/-! ### Admission (R246 to R251) -/

/-- What a decision finds for an accepted request: its lane, the request preempted for it, its bucket, first entry tick and
worst-case completion tick (none where it is unbounded), and its charge. -/
structure Plan where
  lane : Nat := 0
  victim : Option Nat := none
  bucket : Nat := 0
  first : Nat := 0
  worst : Option Nat := none
  charge : Nat := 0
  deriving DecidableEq, Repr

/-- W of a request: the delta slots for one with a variant (R283). -/
def reqW (im : Loaded) (r : Request) : Nat := if r.variant = 0 then im.w else deltaSlots im

/-- Bytes of a lane's setup on the spine (R249). -/
def State.setupBytes (s : State) (p : Nat) (im : Loaded) (r : Request) (primed : Bool) : Nat :=
  let n := max r.lmax (s.rd (.adm p) adm.PRIME_LMAX)
  32 + (if r.mask = none then 0 else 32 * cdiv im.vocab 256) +
    (if primed && r.lmax ≤ s.rd (.adm p) adm.PRIME_LMAX then 0 else im.primeBytes + 8 * im.pagesPer64 * cdiv n 64)

/-- σ of R248: the further ticks that the setup needs. -/
def State.setupTicks (s : State) (p bytes : Nat) (victim : Bool) : Nat :=
  let per := s.periodOf p
  let need := cdiv bytes (s.rd (.tickgen p) tickgen.FRAMES)
  let have' := if victim then per - 12 else tickLen per (s.part p).stretch - (s.part p).wall
  if need ≤ have' then 0 else cdiv (need - have') per

/-- r of R248, none where it is unbounded. -/
def State.restoreTicks (s : State) (p : Nat) (r : Request) : Option Nat :=
  let n := r.bytes32
  let d := s.rd (.adm p) (if r.inT2 then adm.RESTORE_BPT_T2 else adm.RESTORE_BPT)
  if n = 0 then some 0 else if d = 0 then none else some (cdiv n d)

/-- GUARANTEED requests that count beside a request: those with variants alone for one with a variant (R283). -/
def besides (r x : Request) : Bool := !x.elastic && (r.variant = 0 || x.variant ≠ 0)

/-- Prefill positions that a request still has to enter. -/
def Request.left (x : Request) : Nat := x.toEnter - x.entered

/-- q of R248. -/
def State.termQ (s : State) (p : Nat) (im : Loaded) (r : Request) : Nat :=
  ((s.reqsOf p (fun x => besides r x && (x.state = .admitted || x.state = .prefill) && (r.elastic || x.prio ≤ r.prio))).map
    (fun e => cdiv e.2.left (reqW im r) * (1 + bookedHolds im e.2.bucket))).sum

/-- h of R248. -/
def State.termH (s : State) (p : Nat) (im : Loaded) (r : Request) : Nat :=
  ((s.reqsOf p (fun x => besides r x && x.state = .decode && (r.elastic || x.prio < r.prio))).map
    (fun e => 1 + bookedHolds im e.2.bucket)).sum

/-- s of R248: the least s with s ≥ a + h × ⌈s / n⌉; none where there is none. -/
def entrySpan (a h n : Nat) : Option Nat :=
  if h = 0 then some a else if n ≤ h then none else
  let m := max 1 (cdiv a (n - h))
  some (max (a + h * m) ((m - 1) * n + 1))

/-- The charge of R250. -/
def State.chargeOf (s : State) (p : Nat) (im : Loaded) (r : Request) (b : Nat) : Nat :=
  let lo := ((s.reqsOf p (fun x => !x.elastic && x.state.running && r.prio < x.prio)).map (fun e => e.2.left)).sum
  cdiv r.toEnter (reqW im r) * (1 + bookedHolds im b) + cdiv lo (reqW im r * im.regions.length) + 1

/-- The times and the charge of a request that takes a lane (R248, R250). -/
def State.planFor (s : State) (p : Nat) (im : Loaded) (r : Request) (lane b : Nat) (victim : Option Nat) : Plan :=
  let nr := im.regions.length
  let bh := bookedHolds im b
  let e := if victim = none then 0 else 2
  let primed : Bool := victim = none && (s.lane p lane).primed && !(im.buckets.getD b {}).deep
  let n0 := (s.part p).tick + 1 + e + s.setupTicks p (s.setupBytes p im r primed) (victim ≠ none)
  let a := s.termQ p im r + cdiv r.toEnter (reqW im r) * (1 + bh)
  let passes := if r.kind = 1 then r.maxNew - r.genCnt else 1
  let pass := nr + (if r.elastic then 0 else r.allow) + bh
  let rest := s.restoreTicks p r
  let worst := match rest, entrySpan a (s.termH p im r) nr with
    | some t, some sp => some (n0 + t + sp - 1 + passes * pass + 2)
    | _, _ => none
  { lane := lane, victim := victim, bucket := b, first := n0 + (if r.elastic then 0 else rest.getD 0), worst := worst
    charge := s.chargeOf p im r b }

/-- SLACK_MIN[q] as a number (R265). -/
def State.slackMin (s : State) (p q : Nat) : Int := sgn 32 (s.rd (.adm p) (adm.SLACK_MIN q))

/-- Writes SLACK_MIN[q]; below 0 it sets SLACK_NEG (R251). -/
def State.setSlack (s : State) (p q : Nat) (v : Int) : State :=
  let v := min v 0x7FFFFFFF
  let s := s.wr (.adm p) (adm.SLACK_MIN q) ((v % 2 ^ 32).toNat)
  if v < 0 then s.err (.adm p) 0 else s

/-- D − t in ticks, of a deadline that is not past. -/
def ticksTo (d t : Nat) : Nat := (d % 2 ^ 40 + 2 ^ 40 - t % 2 ^ 40) % 2 ^ 40

/-- The lane for a GUARANTEED request: a free one, or a victim's. -/
def State.laneFor (s : State) (p : Nat) : Option (Nat × Option Nat) :=
  match s.freeLane p, s.victim p with
  | some l, _ => some (l, none)
  | none, some (v, r) => some (r.lane, some v)
  | none, none => none

/-- The decision on a GUARANTEED request (R246): a refusal code of 0x01 to 0x06, or a plan. -/
def State.decideGuaranteed (s : State) (p : Nat) (im : Loaded) (r : Request) : Except Nat Plan :=
  let t := (s.part p).tick
  if isPast r.deadline t then .error 1 else
  match s.laneFor p with
  | none => .error 3
  | some (l, v) =>
    let back : Nat × Nat := match v with
      | some h => if (s.req h).state = .decode then (0, 0) else ((s.req h).rings, (s.req h).pages)
      | none => (0, 0)
    if s.rd (.adm p) adm.FREE_RINGS + back.1 < 1 ∨ s.rd (.adm p) adm.FREE_GPAGES + back.2 < lanePages im r.lmax then .error 4 else
    match bucketOf im r.lmax with
    | none => .error 5
    | some b =>
      let pl := s.planFor p im r l b v
      if (List.range 8).any (fun q => r.prio ≤ q && s.slackMin p q < pl.charge) then .error 6 else
      match pl.worst with
      | none => .error 2
      | some c => if c - t ≤ ticksTo r.deadline t then .ok pl else .error 2

/-- An ELASTIC request's KV fits the pages free for ELASTIC use (R252). -/
def State.fitsElastic (s : State) (p pages : Nat) : Bool :=
  let pg := Page.adm p
  s.rd pg adm.RES_RINGS + 1 ≤ s.rd pg adm.FREE_RINGS && s.rd pg adm.RES_GPAGES + pages ≤ s.rd pg adm.FREE_GPAGES

/-- Sets up a lane for its request (R249): its directories where its priming does not serve, CP and WP, its delta entry at the sites,
and the restore of its KV (R260). -/
def State.setupLane (s : State) (p h : Nat) : State :=
  let r := s.req h
  let im := s.img p
  let deep := (im.buckets.getD r.bucket {}).deep
  let n := s.rd (.adm p) adm.PRIME_LMAX
  let s := if (s.lane p r.lane).primed && r.lmax ≤ n && !deep then
      (if r.startPos = 0 then s else s.writePtrs p r.lane r.startPos true)
    else (s.updLane p r.lane (fun x => { x with gen := x.gen + 1 })).writeDirs p r.lane (max n r.lmax) r.startPos deep
  let s := (s.updLane p r.lane (fun x => { x with primed := false })).updReq h (fun r => { r with setupAt := 0 })
  let ent := match (s.lane p r.lane).delta with | some e => e + 1 | none => 0
  let s := (List.range 16).foldl (fun s m => if s.sitePart m = some p then
    s.updSite m (fun x => { x with laneTbl := Table.set 0 x.laneTbl r.lane ent }) else s) s
  s.restore p h r.lane

/-- K[q] and SLACK_MIN of an accepted GUARANTEED request (R250, R251). -/
def State.charge (s : State) (p : Nat) (r : Request) (pl : Plan) : State :=
  let s := (List.range 8).foldl (fun s q => if q < r.prio then s else
    (s.inc (.adm p) (adm.K q) pl.charge).setSlack p q (s.slackMin p q - pl.charge)) s
  let slack : Int := (ticksTo r.deadline (s.part p).tick : Int) - ((pl.worst.getD 0 : Nat) - ((s.part p).tick : Nat) : Int)
  s.setSlack p r.prio (min (s.slackMin p r.prio) slack)

/-- Admits request `h` by a plan: the victim goes, the lane and pages are taken, the charge is made, the lane is set up, and ADMITTED
is written (R246, R249, R250, R252, R268). -/
def State.admitPlan (s : State) (p h : Nat) (r : Request) (pl : Plan) : State :=
  let s := match pl.victim with
    | some v => s.preempt p v
    | none => s
  let s := if r.elastic then s else s.charge p r pl
  let im := s.img p
  let pages := lanePages im r.lmax
  let t := (s.part p).tick
  let worst := pl.worst.getD 0 % 2 ^ 40
  let ent := if r.variant = 0 then none else s.boundVent p r.variant
  let (root, s) := s.free
  let s := (s.updReq h (fun _ => { r with
    state := .admitted, auto := false, recs := [], logpSum := 0, pool := [], replays := 0, part := p, lane := pl.lane, bucket := pl.bucket, worst := worst
    ceil := s.rd (.tickgen p) tickgen.STRETCH_CEIL, pageRoot := root.toNat % 2 ^ 24,
    ksnap := s.rd (.adm p) (adm.K r.prio), order := s.order, notBefore := pl.first, pages := pages, rings := 1
    setupAt := if pl.victim = none then 0 else t + 2 })).nextOrder
  let s := s.updLane p pl.lane (fun x => { x with handle := some h, delta := ent })
  let s := match ent with
    | some e => s.updVent p e (fun v => { v with lanes := v.lanes + 1 })
    | none => s
  let pg := Page.adm p
  let s := (s.wr pg adm.FREE_RINGS (s.rd pg adm.FREE_RINGS - 1)).wr pg adm.FREE_GPAGES (s.rd pg adm.FREE_GPAGES - pages)
  let s := s.inc pg adm.ADMIT_CNT 1
  let s := if pl.victim = none then s.setupLane p h else s
  let s := s.sendWrite p true r.outAddr (outHeader r.seqNo r.recCnt 0 h)
  let s := s.admitSpur p pl.lane h
  s.postCpl p { event := 1, cookie := r.cookie, handle := h, produced := r.genCnt, worst := worst }

/-! ### The commands' fields (R238, R239) -/

/-- CLASS, DLMODE and the other FLAGS of a command. -/
def CmdIn.flags (c : CmdIn) : Nat := c.field 1 1
/-- P, or the number of new tokens. -/
def CmdIn.count (c : CmdIn) : Nat := c.field 16 4
/-- N. -/
def CmdIn.n (c : CmdIn) : Nat := c.field 20 4

/-- A field out of range or a reserved byte that is not 0, in SUBMIT or RESUME (R239, code PARAM). -/
def paramBad (c : CmdIn) (im : Option Loaded) (resume : Bool) : Bool :=
  let kind := c.field 2 1
  let kindBad : Bool := if resume then kind ≠ 0 else kind = 0 ∨ 3 < kind
  let countBad : Bool := 1048576 < c.count ∨ (!resume ∧ c.count = 0)
  let nBad : Bool := 2 ^ 21 ≤ c.n ∨ ((resume ∨ kind = 1) ∧ c.n = 0) ∨ (kind = 3 ∧ c.n ≠ 0)
  let resBad : Bool := if resume then 2 ^ 17 ≤ c.field 12 3 else c.field 13 3 ≠ 0
  let aBad : Bool := match im with
    | some im => c.field 46 1 ≠ 255 ∧ a4Regions im < c.field 46 1
    | none => false
  decide (kindBad ∨ countBad ∨ nBad ∨ resBad ∨ aBad ∨ 64 ≤ c.flags ∨ 8 ≤ c.field 3 1 ∨ c.field 32 8 % 64 ≠ 0 ∨ 64 ≤ c.field 44 2 ∨
    c.field 47 1 / 4 % 32 ≠ 0)

/-- D of a command (R245): with T_el in cycles of 0.4 ns from the doorbell write to the fetch, the quotient of R245 is
(5 T − 2 T_el − 255,000) / 2 L. -/
def State.deadlineOf (s : State) (p : Nat) (c : CmdIn) (raw : Nat) : Nat :=
  if !bit c.flags 1 then raw else
  let l := tickLen (s.periodOf p) (s.rd (.tickgen p) tickgen.STRETCH_CEIL)
  let q : Int := (5 * (raw : Int) - 2 * ((c.clock : Int) - c.bell) - 255000) / (2 * (l : Int))
  (((c.tick : Int) + q - 2) % 2 ^ 40).toNat

/-- The request that a SUBMIT asks for, or a RESUME of the request `r0` (R239, R244, R260). -/
def State.asked (s : State) (p : Nat) (c : CmdIn) (d : ReqData) (im : Loaded) (r0 : Option Request) : Request :=
  let kind := match r0 with | some r => r.kind | none => c.field 2 1
  let cont := if kind = 2 then c.n else 0
  let held := match r0 with | some r => r.toks | none => []
  let k := c.count + cont
  let new := d.toks.take k ++ List.replicate (k - d.toks.length) 0
  let raw := match r0 with
    | some _ => c.field 8 4 + 2 ^ 32 * c.field 15 1
    | none => c.field 8 5
  let base := r0.getD {}
  let fl := c.flags
  { state := base.state, order := base.order, scree := base.scree, inT2 := base.inT2, t2Off := base.t2Off, ttlExp := base.ttlExp
    ttl := base.ttl, pageRoot := base.pageRoot, kvLayout := base.kvLayout
    prio := c.field 3 1, kind := kind, elastic := bit fl 0, part := p, keep := bit fl 2, poolMean := bit fl 3
    perToken := bit fl 4, retLogp := bit fl 5, deadline := s.deadlineOf p c raw
    allow := if c.field 46 1 = 255 then a4Regions im else c.field 46 1
    spurOn := bit (c.field 47 1) 7, spurK := c.field 47 1 % 4, variant := c.field 44 2, cookie := c.cookie
    promptLen := held.length + c.count, maxNew := if kind = 1 then c.n else 0, contLen := cont
    tokAddr := c.field 24 8, outAddr := c.field 32 8, outLen := c.field 40 4, sampPtr := c.field 48 8, maskPtr := c.field 56 8
    toks := held ++ new, startPos := held.length - 1, toEnter := k + (if r0 = none then 0 else 1)
    samp := if c.field 48 8 = 0 then {} else (parseSampling d.samp).getD {}
    mask := if c.field 56 8 = 0 then none else parseMask d.mask im.vocab }

/-- The companion addresses of a request lie in the partition's apertures (R246, R380). -/
def State.apertureOk (s : State) (p : Nat) (c : CmdIn) (r : Request) (d : ReqData) : Bool :=
  s.inAperture p r.tokAddr (4 * (c.count + r.contLen)) false && s.inAperture p r.outAddr r.outLen true &&
    (r.sampPtr = 0 || s.inAperture p r.sampPtr 64 false) && (r.maskPtr = 0 || s.inAperture p r.maskPtr (maskLen d.mask) false)

/-- The least output buffer of a request (R244). -/
def outNeed (im : Loaded) (r : Request) : Nat :=
  match r.kind with
  | 1 => 64 + 8 * r.maxNew
  | 2 => 64 + 8 * (1 + (if r.perToken then r.contLen else 0))
  | _ => 64 + 4 * im.width

/-- The refusal of codes 0x07 to 0x0B after the fields have been checked, or none (R246). -/
def State.refusal (s : State) (p : Nat) (c : CmdIn) (d : ReqData) (r : Request) (im : Option Loaded) : Option Nat :=
  let ap := s.apertureOk p c r d
  let sampBad : Bool := r.sampPtr ≠ 0 && parseSampling d.samp = none
  let maskBad : Bool := r.maskPtr ≠ 0 && (match im with
    | some i => parseMask d.mask i.vocab = none
    | none => false)
  let variantBad : Bool := r.variant ≠ 0 && (s.boundVent p r.variant = none || deltaSlots (im.getD {}) = 0)
  if ap && (sampBad || maskBad) then some 7
  else if !ap then some 8
  else if r.outLen < outNeed (im.getD {}) r then some 9
  else if variantBad then some 0x0A
  else if s.pstate p ≠ 2 then some 0x0B
  else none

/-- Counts a refusal (R265). -/
def State.countReject (s : State) (p code h : Nat) : State :=
  ((s.inc (.adm p) adm.REJECT_CNT 1).wr (.adm p) adm.LAST_REJECT code).wr (.adm p) adm.LAST_REJECT_HDL h

/-- Refuses a SUBMIT: its entry goes to REJECTED until the completion is written; with no FREE entry HANDLE is a free value. -/
def State.rejectNew (s : State) (p : Nat) (c : CmdIn) (code : Nat) : State :=
  match c.ent with
  | some h =>
    let s := s.updReq h (fun _ => { state := .rejected, part := p, cookie := c.cookie })
    (s.countReject p code h).postCpl p { event := 2, code := code, cookie := c.cookie, handle := h, ends := true }
  | none =>
    let (v, s) := s.free
    let h := v.toNat % 2 ^ 17
    (s.countReject p code h).postCpl p { event := 2, code := code, cookie := c.cookie, handle := h }

/-- Decides a SUBMIT (R246). -/
def State.submitCmd (s : State) (p : Nat) (c : CmdIn) (d : ReqData) : State :=
  let im := (s.part p).image
  let i := im.getD {}
  if paramBad c im false || (s.mainOf p).isSome then s.rejectNew p c 7 else
  let r := s.asked p c d i none
  if d.readErr && s.apertureOk p c r d then s.rejectNew p c 0x10 else
  match s.refusal p c d r im, c.ent with
  | some code, _ => s.rejectNew p c code
  | none, none => s.rejectNew p c 0x0C
  | none, some h =>
    if r.elastic then
      match bucketOf i r.lmax with
      | none => s.rejectNew p c 5
      | some b => (s.updReq h (fun _ => { r with state := .queued, bucket := b, order := s.order })).nextOrder
    else
      match s.decideGuaranteed p i r with
      | .error code => s.rejectNew p c code
      | .ok pl => s.admitPlan p h r pl

/-- SUBMIT (R246): the oldest command that has been fetched is decided. -/
def submit (s : State) (p : Nat) (d : ReqData) : State :=
  match s.takeCmd p 1 with
  | none => s
  | some (c, s) => s.submitCmd p c d

/-- Refuses a RESUME: the request stays in SCREE (R243). -/
def State.rejectResume (s : State) (p h : Nat) (c : CmdIn) (code : Nat) : State :=
  (s.countReject p code h).postCpl p { event := 2, code := code, cookie := c.cookie, handle := h, produced := (s.req h).genCnt }

/-- An ELASTIC request that a lane and pages are free for is admitted with its nominal budget (R252). -/
def State.admitElastic (s : State) (p h : Nat) (r : Request) : Option State :=
  let im := s.img p
  match s.freeLane p, bucketOf im r.lmax with
  | some l, some b => if s.fitsElastic p (lanePages im r.lmax) then some (s.admitPlan p h r (s.planFor p im r l b none)) else none
  | _, _ => none

/-- Decides a RESUME of a request in SCREE (R260).  An ELASTIC one that finds no lane or pages waits in SCREE with AUTO (log 25). -/
def State.resumeCmd (s : State) (p h : Nat) (c : CmdIn) (d : ReqData) : State :=
  let r0 := s.req h
  let im := (s.part p).image
  let i := im.getD {}
  if paramBad c im true then s.rejectResume p h c 7 else
  let r := s.asked p c d i (some r0)
  if d.readErr && s.apertureOk p c r d then s.rejectResume p h c 0x10 else
  match s.refusal p c d r im with
  | some code => s.rejectResume p h c code
  | none =>
    if r.elastic then
      if bucketOf i r.lmax = none then s.rejectResume p h c 5 else
      let s := s.updReq h (fun _ => { r with auto := true })
      match s.unspill p h d.spill with
      | none => s
      | some s => if s.storeHolds p then s else (s.admitElastic p h (s.req h)).getD s
    else
      match s.decideGuaranteed p i r with
      | .error code => s.rejectResume p h c code
      | .ok pl =>
        match s.unspill p h d.spill with
        | none => s.rejectResume p h c 4
        | some s => s.admitPlan p h { r with scree := (s.req h).scree, inT2 := false } pl

/-- RESUME (R243, R260).  On the ring of a draft partition it is refused with PARAM (R267).  KV written under another KV layout identifier is not read (R107; log 80). -/
def resume (s : State) (p : Nat) (d : ReqData) : State :=
  match s.takeCmd p 3 with
  | none => s
  | some (c, s) =>
    let h := c.field 12 3 % 2 ^ 17
    if (s.mainOf p).isSome then s.rejectResume p h c 7 else
    if (s.req h).state ≠ .scree ∨ (s.req h).part ≠ p ∨ (s.req h).kvLayout ≠ (s.img p).kvLayout then s.nack p c 0x0D h
    else s.resumeCmd p h c d

/-- The HANDLE of PAUSE, CANCEL and RELEASE. -/
def CmdIn.handle (c : CmdIn) : Nat := c.field 8 4 % 2 ^ 17

/-- Reserved bits of PAUSE, CANCEL and RELEASE that are not 0 (R238, R239). -/
def shortBad (c : CmdIn) (used : Nat) : Bool :=
  !c.headOk || 2 ^ 17 ≤ c.field 8 4 || (c.bytes.drop (12 + used)).any (· ≠ 0)

/-- PAUSE (R243, R258). -/
def pause (s : State) (p : Nat) : State :=
  match s.takeCmd p 2 with
  | none => s
  | some (c, s) =>
    let h := c.handle
    let r := s.req h
    let ttl := c.field 12 2
    if shortBad c 2 || ttl = 0 || 3600 < ttl then s.nack p c 0x07 h
    else if r.part ≠ p then s.nack p c 0x0D h
    else match r.state with
      | .decode => (s.markFreed p r.lane).updReq h (fun r => { r with
          state := .paused, ttl := ttl, toExport := true, ready := false })
      | .scree => s.updReq h (fun r => { r with ttl := ttl, ttlExp := (s.ms + ttl * 1000) % 2 ^ 32, auto := false })
      | _ => s.nack p c 0x0D h

/-- CANCEL (R243). -/
def cancel (s : State) (p : Nat) : State :=
  match s.takeCmd p 4 with
  | none => s
  | some (c, s) =>
    let h := c.handle
    let r := s.req h
    if shortBad c 0 then s.nack p c 0x07 h
    else if r.part ≠ p ∨ !(r.state.running || r.state = .queued || r.state = .paused || r.state = .scree) then s.nack p c 0x0D h
    else s.finish p h 2

/-- RELEASE (R243). -/
def release (s : State) (p : Nat) : State :=
  match s.takeCmd p 5 with
  | none => s
  | some (c, s) =>
    let h := c.handle
    let r := s.req h
    if shortBad c 0 then s.nack p c 0x07 h
    else if r.part ≠ p ∨ r.state ≠ .scree then s.nack p c 0x0D h
    else (s.updReq h (fun r => { r with state := .done, scree := [], inT2 := false })).postCpl p
      { event := 6, cookie := r.cookie, handle := h, produced := r.genCnt, ends := true }

/-- ELASTIC_SCAN (R252, R311): the first request in rank order whose KV fits is admitted, from QUEUED or from SCREE with AUTO; `spill`
is what the spill area holds of it. -/
def elasticScan (s : State) (p : Nat) (spill : List Byte) : State :=
  if s.storeHolds p ∨ s.pstate p ≠ 2 then s else
  let l := s.reqsOf p (fun r => r.elastic && (r.state = .queued || (r.state = .scree && r.auto && r.kvLayout = (s.img p).kvLayout)))
  let l := sortBy (fun a b => decide (a.2.prio < b.2.prio) || (a.2.prio = b.2.prio && decide (a.2.order < b.2.order))) l
  match s.freeLane p, l.find? (fun e => s.fitsElastic p (lanePages (s.img p) e.2.lmax)) with
  | some _, some (h, _) =>
    match s.unspill p h spill with
    | none => s
    | some s => (s.admitElastic p h (s.req h)).getD s
  | _, _ => s

/-- OUTPUT_RECORD_WRITE (R241): the oldest record that is due is written, then SEQ and the count; the end of its request follows
its last record.  A write outside the apertures ends the request with status BUFFER (R380). -/
def outputRecordWrite (s : State) (p : Nat) : State :=
  match (s.part p).outQ with
  | [] => s
  | o :: t =>
    let s := s.updPart p (fun x => { x with outQ := t })
    match o.fin with
    | some (st, c) => s.closeOut p o.base st c
    | none =>
      if !s.inAperture p (o.base + o.offset) o.bytes.length true then
        let s := (s.apertViol p).updPart p (fun x => { x with outQ := x.outQ.filter (fun y => y.handle ≠ o.handle || y.fin.isSome) })
        if (s.req o.handle).state.running then s.finish p o.handle 4 else s
      else
        let s := (s.sendWrite p true (o.base + o.offset) o.bytes).sendWrite p true o.base (leBytes 4 o.seq ++ leBytes 4 o.cnt)
        let s := s.updPart p (fun x => { x with shareTok := (x.shareTok + 1) % 2 ^ 64 })
        match t with
        | n :: t' =>
          match n.fin with
          | some (st, c) => if n.handle = o.handle then (s.updPart p (fun x => { x with outQ := t' })).closeOut p n.base st c else s
          | none => s
        | [] => s

/-! ### The scree's events and timers (R258, R259, R261) -/

/-- Starts the export of a PAUSED request; without room in either tier it goes to EXPIRED (R259). -/
def State.beginExport (s : State) (p h : Nat) : State :=
  let r := s.req h
  match s.exportAll p h r.lane with
  | (s, true) => s.updReq h (fun r => { r with toExport := false })
  | (_, false) =>
    let s := ((s.leaveLane p h).freePages p h).err (.adm p) 2
    (s.updReq h (fun r => { r with state := .expired, toExport := false, scree := [] })).postCpl p
      { event := 4, code := 0x0E, cookie := r.cookie, handle := h, produced := r.genCnt, ends := true }

/-- KV_EXPORT_DONE (R258): the last completion puts a PAUSED request into SCREE; its lane and pages are released. -/
def kvExportDone (s : State) (p h : Nat) : State :=
  let r := s.req h
  if r.part ≠ p ∨ r.state ≠ .paused ∨ r.toExport ∨ !s.xfersDone p h then s else
  let ttl := if r.ttl = 0 then s.rd (.adm p) adm.DEFAULT_TTL else r.ttl
  let (root, s) := s.free
  let s := ((s.leaveLane p h).freePages p h).dropXfers p h
  (s.updReq h (fun r => { r with state := .scree, ttl := ttl, ttlExp := (s.ms + ttl * 1000) % 2 ^ 32, pageRoot := root.toNat % 2 ^ 24,
                                   kvLayout := (s.img p).kvLayout })).postCpl p
    { event := 4, cookie := r.cookie, handle := h, produced := r.genCnt }

/-- The millisecond clock, wrapping at 2^32, has reached TTL_EXP. -/
def ttlOver (ms e : Nat) : Bool := (ms % 2 ^ 32 + 2 ^ 32 - e) % 2 ^ 32 < 2 ^ 31

/-- TTL_EXPIRE (R261); a RESUME that was fetched before is decided first (R262). -/
def ttlExpire (s : State) (p h : Nat) : State :=
  let r := s.req h
  if r.part ≠ p ∨ r.state ≠ .scree ∨ !ttlOver s.ms r.ttlExp ∨
      (s.part p).cmdIn.any (fun c => c.opc = 3 && c.field 12 3 % 2 ^ 17 = h && !ttlOver c.ms r.ttlExp) then s else
  (s.updReq h (fun r => { r with state := .expired, scree := [], inT2 := false })).postCpl p
    { event := 5, cookie := r.cookie, handle := h, produced := r.genCnt, ends := true }

/-- D − effective WORST of an admitted request (R250, R251), less two ticks for each replay beyond the one that WORST allows for (log 95). -/
def State.slackOf (s : State) (p : Nat) (r : Request) : Int :=
  let k : Nat := (s.rd (.adm p) (adm.K r.prio) + 2 ^ 32 - r.ksnap) % 2 ^ 32
  sgn 40 (ticksTo r.deadline r.worst) - k - 2 * (r.replays - 1 : Nat)

/-- SLACK_SWEEP (R251): each SLACK_MIN is set to the true minimum. -/
def slackSweep (s : State) (p : Nat) : State :=
  (List.range 8).foldl (fun s q =>
    let l := (s.reqsOf p (fun r => !r.elastic && r.state.running && r.prio = q)).map (fun e => s.slackOf p e.2)
    s.setSlack p q (l.foldl min 0x7FFFFFFF)) s

/-- SUBMIT. -/
def execSubmit (p : Nat) (d : ReqData) (s : State) : Out := .next (submit s p d)
/-- PAUSE. -/
def execPause (p : Nat) (s : State) : Out := .next (pause s p)
/-- RESUME. -/
def execResume (p : Nat) (d : ReqData) (s : State) : Out := .next (resume s p d)
/-- CANCEL. -/
def execCancel (p : Nat) (s : State) : Out := .next (cancel s p)
/-- RELEASE. -/
def execRelease (p : Nat) (s : State) : Out := .next (release s p)
/-- ELASTIC_SCAN. -/
def execElasticScan (p : Nat) (spill : List Byte) (s : State) : Out := .next (elasticScan s p spill)
/-- OUTPUT_RECORD_WRITE. -/
def execOutputRecordWrite (p : Nat) (s : State) : Out := .next (outputRecordWrite s p)
/-- KV_EXPORT_DONE. -/
def execKvExportDone (p h : Nat) (s : State) : Out := .next (kvExportDone s p h)
/-- TTL_EXPIRE. -/
def execTtlExpire (p h : Nat) (s : State) : Out := .next (ttlExpire s p h)
/-- SLACK_SWEEP. -/
def execSlackSweep (p : Nat) (s : State) : Out := .next (slackSweep s p)

end Sys2Proof.Machine
end

