-- ==== Sys2Proof/Machine/Journal.lean ====
section
/-! DEFINITION. The journal in the SPI NOR: its queue, its writer, readback failures and compaction (R408 to R411, R470, R471). -/

namespace Sys2Proof.Machine

/-- The sectors of the journal (R408). -/
def jSectors : Nat := 768

/-- The 16-byte units of a record (R409): header, body and CRC.  A fault-map entry is taken as 8 bytes (log 28). -/
def Cairn.units : Cairn → Nat
  | .fault _ l => cdiv (16 + 32 + 8 * l.length + 4) 16
  | _ => 2

/-- The class in which the writer serves a record (R410). -/
def Cairn.rank : Cairn → Nat
  | .pwrfail _ => 0
  | .lmsRes _ _ _ => 1
  | .lmsRel _ _ _ => 1
  | .fault _ _ => 2
  | .spare _ _ => 2
  | _ => 3

/-- The control tile whose SMC holds the NOR grant (R390). -/
def State.norHolder (s : State) : Option Nat := [0, 1].find? (fun c => s.flag (.smc c) smc.NOR_GRANT)

/-- Changes the NOR. -/
def State.updNor (s : State) (f : Nor → Nor) : State := { s with nor := f s.nor }

/-- The sectors that hold records after the newest snapshot, or are being written. -/
def Nor.fill (n : Nor) : Nat :=
  match n.log with
  | [] => if n.off = 0 then 0 else 1
  | r :: _ => (n.sector + jSectors - r.sector) % jSectors + (if n.off = 0 then 0 else 1)

/-- The erased sectors ahead of the write point. -/
def Nor.erased (n : Nor) : Nat := jSectors - 1 - n.fill

/-- Starts the next record that may be written: the first of the lowest class (R410); while FULL, PWRFAIL alone (R471). -/
def Nor.start (n : Nor) : Nor :=
  if n.writing.isSome then n else
  let ok := n.waiting.filter (fun r => !n.full || r.body.rank = 0)
  match (sortBy (fun a b => decide (a.body.rank < b.body.rank)) ok).head? with
  | none => n
  | some r =>
    match splitFirst (fun x => decide (x = r)) n.waiting with
    | none => n
    | some (a, x, b) => { n with waiting := a ++ b, writing := some { x with seq := n.seqNext }, seqNext := n.seqNext + 1 }

/-- Submits a record (R315, R409).  On the power-fail path no other record is started (R325). -/
def State.journal (s : State) (c : Nat) (b : Cairn) : State :=
  if s.sps.state = .failing then s else
  s.updNor (fun n => Nor.start { n with waiting := n.waiting ++ [{ origin := c, body := b }] })

/-- The key under which a later record replaces an earlier one in a snapshot (R411); none for a fault record. -/
def Cairn.key : Cairn → Option (Nat × Nat × Nat)
  | .fault _ _ => none
  | .spare y _ => some (2, y, 0)
  | .cal p r _ _ _ _ => some (3, p, r)
  | .theta t _ => some (4, t, 0)
  | .lmsRes b _ k => some (5, b, k)
  | .lmsRel b _ k => some (6, b, k)
  | .slot k i _ => some (7, k, i)
  | .counters _ _ _ => some (8, 0, 0)
  | .pwrfail _ => some (9, 0, 0)

/-- The records that state what a list of records comes to. -/
def condense : List JRec → List JRec
  | [] => []
  | r :: t => if r.body.key ≠ none ∧ t.any (fun x => x.body.key = r.body.key) then condense t else r :: condense t

/-- The bodies of the durable records, oldest first: the newest snapshot and the records after it (R412). -/
def Nor.bodies (n : Nor) : List Cairn := (n.snap ++ n.log).map (·.body)

/-- Starts a compaction once the records after the snapshot fill 75 % of the journal (R411). -/
def Nor.maybeCompact (n : Nor) : Nor :=
  if n.compact = none ∧ 576 ≤ n.fill then { n with compact := some (condense (n.snap ++ n.log), n.seqNext - 1) } else n

/-- The write point after a record of `k` units, in the next sector where it does not fit. -/
def Nor.place (n : Nor) (k : Nat) : Nor :=
  if n.off + k ≤ 4096 then n else { n with sector := (n.sector + 1) % jSectors, off := 0 }

/-- An LMS reservation is durable from now on (R397). -/
def State.durable (s : State) : Cairn → State
  | .lmsRes b _ k => s.updSsb k (fun x => if x.nextBlock = some b then { x with durable := true } else x)
  | _ => s

/-- JOURNAL_RECORD_DURABLE (R410, R471): the record in hand has been programmed and read back. -/
def journalRecordDurable (s : State) (ok : Bool) : State :=
  if s.norHolder = none then s else
  let s := s.updNor Nor.start
  match s.nor.writing with
  | none => s
  | some r =>
    if s.nor.erased = 0 ∧ 4096 < s.nor.off + r.body.units then s.err .journal 3 else
    if ok then
      let n := s.nor.place r.body.units
      let s := s.updNor (fun _ => Nor.start (Nor.maybeCompact { n with
        log := n.log ++ [{ r with sector := n.sector }], off := n.off + r.body.units, writing := none }))
      let s := if s.nor.erased = 0 then s.err .journal 3 else s
      (s.inc .journal journal.RECORD_CNT 1).durable r.body
    else
      let s := s.err .journal 0
      if 64 ≤ s.nor.abandon.length then
        (s.updNor (fun n => Nor.start { n with full := true, writing := none, waiting := { r with seq := 0 } :: n.waiting
                                               seqNext := n.seqNext - 1 })).err .journal 2
      else s.updNor (fun n =>
        let n := n.place r.body.units
        { n with abandon := n.abandon ++ [(n.sector, n.off)], sector := (n.sector + 1) % jSectors, off := 0 })

/-- COMPACTION (R411): the snapshot is durable; the sectors that hold nothing above its SEQ_LAST are erased, and the abandon table
is emptied of them. -/
def compaction (s : State) : State :=
  match s.nor.compact with
  | none => s
  | some (l, q) =>
    s.updNor (fun n =>
      let log := n.log.filter (fun r => q < r.seq)
      let n := { n with snap := l, snapSeq := q, snapArea := 1 - n.snapArea, log := log, compact := none, full := false }
      Nor.start { n with abandon := n.abandon.filter (fun e => (e.1 + 2 * jSectors - (n.sector + jSectors - n.fill)) % jSectors < n.fill) })

/-- JOURNAL_RECORD_DURABLE. -/
def execJournalRecordDurable (ok : Bool) (s : State) : Out := .next (journalRecordDurable s ok)
/-- COMPACTION. -/
def execCompaction (s : State) : Out := .next (compaction s)

end Sys2Proof.Machine
end

