-- ==== Sys2Proof/Machine/Faults.lean ====
section
/-! DEFINITION. Faults: records and the fault map, core faults and the fault hold, halts, channel faults of the saddles, control-tile
takeover, and the failures that halt a partition (R169, R175, R290 to R315). -/

namespace Sys2Proof.Machine

/-! ### Fault records (R313 to R315) -/

/-- Changes fault map entries, each (kind, index, state); a change advances FAULT_GEN once (R313). -/
def State.setMap (s : State) (l : List (Nat × Nat × Nat)) : State :=
  let m := l.foldl (fun m e => Table.set 0 m (mapKey e.1 e.2.1) e.2.2) s.faultMap
  { s with faultMap := m, faultGen := if m = s.faultMap then s.faultGen else s.faultGen + 1 }

/-- Puts the newest 64 records. -/
def State.setLog (s : State) (l : List FaultRec) : State := { s with faultLog := l.take 64 }

/-- Numbers a record. -/
def State.countRec (s : State) : State := { s with faultSeq := s.faultSeq + 1 }

/-- Adds a record to the fault log of 64 (R313, R469). -/
def State.logFault (s : State) (r : FaultRec) : State :=
  let gone := (s.faultLog.drop 63).head?
  let s := s.setLog (r :: s.faultLog)
  [0, 1].foldl (fun s c =>
    let wrap : Bool := match gone with
      | some x => (s.ctl c).recSeen < x.seq
      | none => false
    let s := if wrap then s.err (.smc c) 3 else s
    s.err (.smc c) 0) s

/-- An event: its record, the map entries it changes, its cairn, and the completion entries that the partitions `ps` are due
(R313, R315); a load in progress in the partition is interrupted (R226).  COOKIE of a FAULT entry is a free value (log 9). -/
def State.record (s : State) (r : FaultRec) (ents : List (Nat × Nat × Nat)) (ps : List Nat) : State :=
  let s := s.setMap ents
  let r := { r with gen := s.faultGen, seq := s.faultSeq + 1 }
  let s := s.countRec.logFault r
  let s := s.journal (s.norHolder.getD 0) (.fault r ents)
  let s := if ents ≠ [] ∧ r.part < 12 then s.abortLoad r.part 0x1E else s
  ps.foldl (fun s p =>
    let (v, s) := s.free
    let c : Cpl := { event := 11, code := r.cls, faults := 1, cookie := v.toNat, handle := 0x1FFFF, produced := r.seq, tick := r.tick }
    s.updPart p (fun x => { x with faultDue := x.faultDue ++ [c] })) s

/-- FAULT_COMPLETION (R313): the oldest FAULT entry that a partition is due. -/
def faultCompletion (s : State) (p : Nat) : State :=
  match (s.part p).faultDue with
  | [] => s
  | c :: t => (s.updPart p (fun x => { x with faultDue := t })).postCplAt p c

/-- A PATH that no rule states for an event: a free value (log 9). -/
def State.freePath (s : State) : Nat × State :=
  let (v, s) := s.free
  (v.toNat % 256, s)

/-! ### Abandoning a tick (R33, R148, R175, R295) -/

/-- The physical cores of a partition's tiles. -/
def State.partCores (s : State) (p : Nat) : List Nat := (s.part p).tiles.flatMap (fun t => (List.range 256).map (· + 256 * t))

/-- WP returns to CP at every binding of a core, for the lanes in use (R33, R124). -/
def State.rewindCore (s : State) (p g : Nat) : State :=
  (s.core g).dirs.foldl (fun s b =>
    (s.part p).lanes.foldl (fun s e =>
      let c := s.core g
      if dirWp c b.dir e.1 = dirCp c b.dir e.1 then s else
      s.memWrite g (dirEntry b.dir e.1 + 4) (leBytes 4 (dirCp c b.dir e.1))) s) s

/-- What a core loses when its tick is abandoned (R148, R175). -/
def Core.abandon (c : Core) : Core :=
  { c with queue := [], fetching := false, send := none, outFlits := [], inj := [], ej := [], rel := [], wins := [], sems := []
           semPend := [], merges := [], appends := [], props := [], counts := [], applied := [], heads := [], quiet := []
           err := none, late := none, skew := false }

/-- What a router loses in the drain (R175). -/
def Router.drain (r : Router) : Router := { r with disp := [], dispRoutes := [], red := [], redCtx := [], bulk := [] }

/-- PARTITION_DRAIN and what goes with it: flits are discarded, windows and semaphores are reset, write pointers return to their
commit pointers (R33, R148, R175); the words in the drop queues go with the results of the tick (log 88). -/
def State.abandonWork (s : State) (p : Nat) : State :=
  let s := s.setLinks (s.links.filter (fun l => l.flit.part ≠ p))
  let s := (s.partCores p).foldl (fun s g =>
    let s := if s.core g = {} then s else ((s.updCore g Core.abandon).wr (.core g) core.SEQ_STATE 0).wr (.core g) core.QFILL 0
    if s.router g = {} then s else s.updRouter g Router.drain) s
  let s := (s.usedCores p).foldl (fun s g => s.rewindCore p g) s
  let s := (s.part p).tiles.foldl (fun s t => if s.tile t = {} then s else s.updTile t (fun x => { x with dropQ := [] })) s
  let s := (List.range 16).foldl (fun s m => if s.sitePart m ≠ some p then s else s.updSite m (fun x => { x with
    siteErr := none, bulkOut := [], chans := Table.mapVals {} (fun c => { c with buffer := [], started := [] }) x.chans })) s
  s.updPart p (fun x => { x with
    results := [], routerErrs := [], missing := [], failCode := 0, lateRep := [], toDecide := false
    table := x.table.map (fun h => { h with mark := false }) })

/-! ### Halts (R263, R308, R309) -/

/-- The SCREE records of a partition in a lost set go to EXPIRED with code LOST (R193, R263). -/
def State.expireLost (s : State) (p : Nat) : State :=
  (s.reqsOf p (fun r => r.state = .scree && !r.inT2 && r.scree.any (fun x => s.setLost x.site (s.region x.site x.region).set))).foldl
    (fun s e => (s.updReq e.1 (fun r => { r with state := .expired, scree := [] })).postCpl p
      { event := 5, code := 0x0F, cookie := e.2.cookie, handle := e.1, produced := e.2.genCnt, ends := true }) s

/-- Requests of a halted partition (R263): GUARANTEED to FAULTED, ELASTIC to QUEUED; SCREE records in a lost set to EXPIRED.  Every lane is
released (R309): a PAUSED request's export begins if it has not yet. -/
def State.haltRequests (s : State) (p : Nat) : State :=
  let s := (s.reqsOf p (fun r => r.state.running)).foldl (fun s e =>
    let (h, r) := e
    if r.elastic then (s.requeue p h).postCpl p { event := 7, cookie := r.cookie, handle := h, produced := r.genCnt }
    else
      let s := ((s.leaveLane p h).freePages p h).dropXfers p h
      (s.updReq h (fun r => { r with state := .faulted, scree := [] })).postCpl p
        { event := 8, code := 1, cookie := r.cookie, handle := h, produced := r.genCnt, ends := true }) s
  let s := (s.reqsOf p (fun r => r.state = .paused)).foldl (fun s e =>
    let s := if e.2.toExport then s.beginExport p e.1 else s
    (s.leaveLane p e.1).freePages p e.1) s
  s.expireLost p

/-- The CORE events of a partition that halts before their hold has ended: each has its record and its map entry (R146, R313). -/
def State.recordDead (s : State) (p : Nat) : State :=
  (s.part p).deadNow.foldl (fun s e => s.record { cls := 1, path := e.2, part := p, outcome := 1, loc := tileOf e.1, unit := e.1 % 256
                                                  tick := (s.part p).tick } [(1, e.1, 1)] [p]) s

/-- PARTITION_HALT (R309) with a class, and its record; a partition that is not running is not halted again. -/
def State.halt (s : State) (p cls path loc unit : Nat) (ents : List (Nat × Nat × Nat)) : State :=
  let tick := (s.part p).tick
  if s.pstate p ≠ 2 ∧ s.pstate p ≠ 3 ∧ s.pstate p ≠ 1 then s.record { cls := cls, path := path, part := p, outcome := 1, loc := loc, unit := unit, tick := tick } ents [p]
  else
    let pg := Page.tickgen p
    let s := ((s.abandonWork p).recordDead p).updPart p (fun x => { x with
      phase := .stopped, replay := false, table := [], entering := [], results := [], deadNow := [], deadCause := 0, haltAt := none, holdReq := false, roleKeep := [] })
    let s := (((s.wr pg page.STATE 4).wr pg tickgen.HALT_CLASS cls).setFlag pg tickgen.HOLD false).err pg 6
    let s := s.haltRequests p
    let s := s.abortLoad p 0x1E
    let s := s.draftDown p
    let s := (s.part p).tiles.foldl (fun s t => if s.flag (.therm t) therm.FENCED then s.setCompute t false else s) s
    s.record { cls := cls, path := path, part := p, outcome := 1, loc := loc, unit := unit, tick := tick } ents [p]

/-- A replay tick runs in partition `p`. -/
def State.inReplay (s : State) (p : Nat) : Bool := s.running p && (s.part p).replay

/-- A replay tick of partition `p` has failed (R34, R57, R58): its cause, REPLAY_FAIL, and the halt with class REPLAY.  The cause is the
highest that the tick has met, 0 where none of R57's codes applies to it (DEDUCED; log 84). -/
def State.replayHalt (s : State) (p cause path loc unit : Nat) : State :=
  let pg := Page.tickgen p
  ((s.wr pg tickgen.FAIL_CAUSE (max (s.part p).failCode cause)).err pg 2).halt p 13 path loc unit []

/-- A fault event that starts no hold: its record; in a replay tick the replay fails (R307). -/
def State.eventIn (s : State) (p cause : Nat) (r : FaultRec) (ents : List (Nat × Nat × Nat)) (ps : List Nat) : State :=
  if s.inReplay p then (s.record { r with outcome := 1 } ents ps).replayHalt p cause r.path r.loc r.unit
  else s.record r ents ps

/-! ### Core faults (R290, R291, R295 to R297, R307) -/

/-- The crag has a spare that can stand in. -/
def State.spareReady (s : State) (y : Nat) : Bool :=
  s.rd (cragPage y) crag.STAND_FOR = 15 && !s.flag (cragPage y) crag.SPARE_DEAD

/-- A core of a running partition is found dead: a spare that does not stand in, a parity core, or a data core (R290, R300). -/
def State.coreDead (s : State) (p g path : Nat) : State :=
  let s := s.keepRole p g
  let r : FaultRec := { path := path, part := p, loc := tileOf g, unit := g % 256, tick := (s.part p).tick, outcome := 2 }
  if cragLocal g = 15 then (s.showDead g).eventIn p 6 { r with cls := 6 } [(1, g, 1)] [p]
  else if cragLocal g = 11 ∧ s.rd (cragPage (cragOf g)) crag.STAND_FOR = 15 then (s.showDead g).eventIn p 6 { r with cls := 7 } [(1, g, 1)] [p]
  else s.addDead p g 6 path

/-- The class of a core that is found dead, by its position (R290). -/
def deadClass (g : Nat) : Nat := if cragLocal g = 15 then 6 else if cragLocal g = 11 then 7 else 1

/-- ALIVE_LOSS (R290): a core's alive signal falls; that of a core already declared is ignored (R291). -/
def aliveLoss (s : State) (g : Nat) : State :=
  let c := s.core g
  if !c.alive then s else
  let s := s.updCore g (fun c => { c with alive := false })
  if c.gated || c.faulty then s else
  match s.corePart g with
  | some p =>
    if s.pstate p = 2 ∨ s.pstate p = 3 then s.coreDead p g 1
    else (s.showDead g).record { cls := deadClass g, path := 1, part := p, outcome := 2, loc := tileOf g, unit := g % 256
                                 tick := (s.part p).tick } [(1, g, 1)] [p]
  | none => (s.showDead g).record { cls := deadClass g, path := 1, outcome := 2, loc := tileOf g, unit := g % 256 } [(1, g, 1)] []

/-- Cycles of a CORE hold, and of its rebuild, swap and boundary alone (R295). -/
def coreHold : Nat := 14548
/-- A rebuild that starts during the hold: rebuild, identity swap and boundary (R295, R307). -/
def lateRebuild : Nat := 13908

/-- Two of the dead cores lie in one crag, or one in a crag without a spare (R307). -/
def State.doubleCrag (s : State) (l : List Nat) : Option Nat :=
  (l.find? (fun g => !s.spareReady (cragOf g) || l.any (fun x => x ≠ g && cragOf x = cragOf g))).map cragOf

/-- The dead cores are clock-gated (R291, R295). -/
def State.gateCores (s : State) (l : List Nat) : State := l.foldl (fun s g => s.updCore g (fun c => { c with gated := true })) s

/-- A second fault in a crag halts the partition with class DOUBLE (R307, R308). -/
def State.doubleHalt (s : State) (p y path g : Nat) : State :=
  ((s.setFlag (cragPage y) crag.DOUBLE true).err (cragPage y) 2).halt p 8 path (tileOf g) (g % 256) []

/-- The work that a hold beginning now interrupts is a replay, which so fails (R34, R307): the tick that runs, or one whose finality
has not been decided. -/
def State.breaksReplay (s : State) (p : Nat) : Bool :=
  let pt := s.part p
  match pt.phase with
  | .running => pt.replay || (pt.toDecide && !pt.finalDone && pt.wasReplay)
  | .boundaryHold _ => pt.replay && pt.toDecide
  | _ => false

/-- The cycles that the work interrupted now loses beside the hold: what has run of it since its boundary, and a tick's length more where
the tick before it failed (R292). -/
def State.lagNow (s : State) (p : Nat) : Nat :=
  let pt := s.part p
  let len := tickLen (s.periodOf p) pt.stretch
  match pt.phase with
  | .drain _ => len + pt.wall
  | .boundaryHold _ => if pt.clean then 0 else pt.wall
  | _ => if pt.deadCause = 0 then len + pt.wall else pt.wall

/-- A fault hold of `n` cycles begins: the work in progress is abandoned (R295, R303). -/
def State.enterHold (s : State) (p n lag : Nat) : State :=
  let pg := Page.tickgen p
  let w := (s.part p).wall
  let s := (s.abandonWork p).updPart p (fun x => { x with phase := .fault n, holdStart := w, lag := lag, holdReq := false })
  (s.setFlag pg tickgen.HOLD true).err pg 5

/-- A hold for dead cores begins now: in a running tick once finality has been decided, at once in a drain or a held boundary, and in one
that waits for a finality after it (R295; log 85). -/
def State.holdDue (s : State) (p : Nat) : Bool :=
  let pt := s.part p
  pt.deadNow ≠ [] && (match pt.phase with
    | .running => pt.finalDone && 12 ≤ pt.cyc
    | .drain _ => true
    | .boundaryHold _ => !(pt.toDecide && (pt.holdReq || pt.haltAt.isSome))
    | _ => false)

/-- Starts the fault hold for the cores given as dead (R295), and abandons a repair before its commit point; a double fault or a fault in a
replay tick halts the partition (R34, R307). -/
def State.startHold (s : State) (p : Nat) : State :=
  if !s.holdDue p then s else
  let pt := s.part p
  let dead := pt.deadNow.map (·.1)
  let path := (pt.deadNow.map (·.2)).headD 0
  let g0 := dead.headD 0
  match s.doubleCrag dead with
  | some y => s.doubleHalt p y path g0
  | none =>
    if s.breaksReplay p then s.replayHalt p pt.deadCause path (tileOf g0) (g0 % 256) else
    let cut : Bool := match pt.phase with
      | .running => true
      | .boundaryHold _ => !pt.clean
      | _ => false
    let s' := if cut ∧ pt.deadCause ≠ 0 then s.wr (.tickgen p) tickgen.FAIL_CAUSE pt.deadCause else s
    ((s'.gateCores dead).abortLoad p 0x1E).enterHold p coreHold (s.lagNow p)

/-- A core found dead while the partition is held: its rebuild starts at once and the replay boundary waits for it (R307). -/
def State.joinHold (s : State) (p : Nat) (known : List Nat) : State :=
  let pt := s.part p
  let dead := pt.deadNow.map (·.1)
  match pt.phase with
  | .fault left =>
    if dead.all known.contains then s else
    match s.doubleCrag dead with
    | some y => s.doubleHalt p y 1 (dead.getLastD 0)
    | none => (s.gateCores dead).updPart p (fun x => { x with phase := .fault (max left lateRebuild) })
  | _ => s

/-- The local stores of a partition are not preserved across a replay (R60). -/
def State.loseStores (s : State) (p : Nat) : State := s.loseCores (s.partCores p)

/-- The rebuild of R296: the XOR of the surviving slabs of the crag and its parity slab, which the base die keeps when the parity core
has died (R300); a data core that died before takes no part (R231). -/
def State.rebuild (s : State) (g : Nat) : Mem :=
  let y := cragOf g
  let src := ((List.range 16).map (cragCore y)).filter (fun x =>
    x ≠ g ∧ x ≠ spareCore y ∧ (x = parityCore y ∨ (s.mapped 1 x = 0 ∧ !(s.core x).faulty)))
  src.foldl (fun m x => (slabBytes (s.core x).mem).foldl (fun m e => Mem.setByte m e.1 (Mem.byte m e.1 ^^^ e.2)) m) []

/-- CRAG_REBUILD and IDENTITY_SWAP (R296, R297): the spare takes the dead core's slab, input buffers and identity; its local store holds
nothing of the dead core's (R60). -/
def State.standIn (s : State) (p g : Nat) : State :=
  let y := cragOf g
  let sp := spareCore y
  let pg := cragPage y
  let slab := s.rebuild g
  let own := s.core sp
  let d := s.core g
  let s := s.updCore sp (fun _ => { d with
    mem := slab.foldl (fun m e => Mem.setByte m e.1 e.2) [], lost := s.fresh * 32768 + sp + 1
    alive := own.alive, gated := false, faulty := false })
  let s := s.updCore g (fun c => { c with gated := true, faulty := true })
  let s := (s.wr (.core sp) core.LOGICAL_ID (s.rd (.core g) core.LOGICAL_ID)).wr (.core sp) core.PROG_BASE
    (s.rd (.core g) core.PROG_BASE)
  let s := (((s.wr pg crag.STAND_FOR (cragLocal g)).setFlag pg crag.UNPROT true).inc pg crag.REBUILD_CNT 1).wr pg crag.REBUILD_CYC 13748
  let swap (l : List Nat) : List Nat := l.map (fun x => if x = g then sp else x)
  let s := s.updPart p (fun x => { x with image := x.image.map (fun im =>
    { im with regions := im.regions.map (fun r => { r with cores := swap r.cores }) }) })
  ((s.err pg 1).journal (s.norHolder.getD 0) (.spare y (cragLocal g))).free.2

/-- The fields of R318 about the last event with a hold. -/
def State.noteHold (s : State) (p cls hold intr : Nat) : State :=
  let pg := Page.tickgen p
  (((s.inc pg tickgen.HOLD_CNT 1).wr pg tickgen.LAST_HOLD hold).wr pg tickgen.LAST_CLASS cls).wr pg tickgen.LAST_INTR intr

/-! ### Saddle channels (R169, R300) -/

/-- SADDLE_CHANNEL_FAIL (R169): a channel that loses lock, or has 3 CRC errors within 2^20 cycles, is declared failed.  Physical
channel 6 is the spare.  Two failed channels take the saddle DOWN and halt its partition; one waits for the spare. -/
def saddleChannelFail (s : State) (t e ch : Nat) (lock : Bool) : State :=
  let k := saddleKey t e
  let x := s.saddle k
  let recent := (x.crc.filter (fun c => c.1 = ch && decide (s.clock < c.2 + 2 ^ 20))).length
  match neighbour t e with
  | none => s
  | some u =>
    if x.failed.contains ch || x.unused.contains ch || 6 < ch || !(lock || 3 ≤ recent) then s else
    let ends := [(t, e), (u, (e + 2) % 4)]
    let s := s.updSaddle k (fun x => { x with failed := x.failed ++ [ch] })
    let s := ends.foldl (fun s (t, e) =>
      let pg := Page.saddle t e
      let s := s.wr pg saddle.CH_FAIL (Nat.lor (s.rd pg saddle.CH_FAIL) (2 ^ ch))
      if lock then (s.wr pg saddle.CH_LOCK (Nat.land (s.rd pg saddle.CH_LOCK) (Nat.xor 127 (2 ^ ch)))).err pg 1 else s) s
    let p := s.tilePart t
    let mine : Bool := p.isSome && p = s.tilePart u
    let s := s.abandonCut p
    let tick := (s.part (p.getD 0)).tick
    let ent := (2, k * 8 + ch, 1)
    if 2 ≤ (s.saddle k).failed.length then
      let s := ends.foldl (fun s (t, e) => (s.setFlag (.saddle t e) saddle.DOWN true).err (.saddle t e) 3) s
      if mine then s.halt (p.getD 0) 11 6 t ch [ent]
      else s.record { cls := 11, path := 6, outcome := 2, loc := t, unit := ch } [ent] []
    else
      let r : FaultRec := { cls := 2, path := 6, part := if mine then p.getD 0 else 0xFF, outcome := 2, loc := t, unit := ch, tick := tick }
      if ch = 6 then (if mine then s.eventIn (p.getD 0) 0 r [ent] [p.getD 0] else s.record r [ent] [])
      else
      let s := s.updSaddle k (fun x => { x with pending := some (ch, tick) })
      if !mine then s
      else if s.inReplay (p.getD 0) then s.eventIn (p.getD 0) 0 r [ent] [p.getD 0]
      else s.updPart (p.getD 0) (fun x => { x with swapPend := x.swapPend ++ [(t, e, ch)] })

/-- SADDLE_SPARE_SWAP (R169, R300, R307): in a drain, a hold or a boundary hold the spare takes over the failed channel; the event
is recorded with its hold, unless it ended a replay tick and is recorded already. -/
def saddleSpareSwap (s : State) (t e : Nat) : State :=
  let k := saddleKey t e
  let q := s.tilePart t
  let p := q.getD 0
  let pt := s.part p
  match (s.saddle k).pending, neighbour t e with
  | some (c, tick), some u =>
    if pt.phase = .running then s else
    let mine : Bool := q.isSome && q = s.tilePart u
    let len := tickLen (s.periodOf p) pt.stretch
    let (hold, intr) := match pt.phase with
      | .boundaryHold _ => (128, 128)
      | .drain _ => (640, 640 + len + 12)
      | _ => (0, 0)
    let s := (s.updSaddle k (fun x => { x with pending := none })).updPart p (fun x => { x with
      swapPend := x.swapPend.filter (fun w => !(saddleKey w.1 w.2.1 = k)) })
    let s := [(t, e), (u, (e + 2) % 4)].foldl (fun s (t, e) =>
      ((s.wr (.saddle t e) saddle.SPARE_FOR c).inc (.saddle t e) saddle.SWAP_CNT 1).err (.saddle t e) 2) s
    if s.mapped 2 (k * 8 + c) ≠ 0 then s else
    let s := if mine && hold ≠ 0 then s.noteHold p 2 hold intr else s
    s.record { cls := 2, path := 6, part := if mine then p else 0xFF, outcome := if hold = 0 then 2 else 0, loc := t, unit := c
               tick := tick, hold := hold, intr := intr } [(2, k * 8 + c, 1)] (if mine then [p] else [])
  | _, _ => s

/-! ### Failures that halt (R308) -/

/-- A tile is lost: its map entry, and its partition halts with class TILE. -/
def State.tileLost (s : State) (t path : Nat) : State :=
  match s.tilePart t with
  | some p => s.halt p 9 path t 0 [(5, t, 1)]
  | none => s.record { cls := 9, path := path, outcome := 2, loc := t } [(5, t, 1)] []

/-- TILE_FAULT (R308): PLL lock loss, a compute or router rail failure, or loss of the tile's status tree branch. -/
def tileFault (s : State) (t : Nat) (cause : TileCause) : State :=
  match cause with
  | .pll => (s.setFlag (.tileGlb t) tileGlb.PLL_LOCK false).err (.tileGlb t) 1 |>.tileLost t 11
  | .rail => s.tileLost t 11
  | .statusTree =>
    let (v, s) := s.freePath
    s.tileLost t v

/-- ROUTER_PARITY_FAILURE (R308): a router's tables or buffers fail their parity checks. -/
def routerParityFailure (s : State) (g : Nat) : State :=
  let (v, s) := s.freePath
  match s.corePart g with
  | some p => s.halt p 10 v (tileOf g) (g % 256) []
  | none => s.record { cls := 10, path := v, outcome := 2, loc := tileOf g, unit := g % 256 } [] []

/-- SITE_CONTROLLER_FAILURE (R308). -/
def siteControllerFailure (s : State) (m : Nat) : State :=
  let s := (s.updSite m (fun x => { x with up := false })).wr (.msite m) page.STATE 4
  let (v, s) := s.freePath
  match s.sitePart m with
  | some p => s.halt p 15 v m 0 []
  | none => s.record { cls := 15, path := v, outcome := 2, loc := m } [] []

/-! ### Control tiles (R302 to R304) -/

/-- HEARTBEAT (R302): control tile `c` sends a heartbeat word to its peer. -/
def heartbeat (s : State) (c : Nat) : State :=
  if !(s.ctl c).up || !(s.ctl (1 - c)).up then s else
  s.updCtl (1 - c) (fun x => { x with hbSeen := s.clock })

/-- The hold that remains at a takeover once the peer is fenced: drain, fence, spine, ports, rewrites and restore (R303). -/
def takeoverHold : Nat := 98890

/-- The ports of a lost control tile are down, and what they carried goes out again on the survivor's (R304). -/
def State.losePorts (s : State) (c : Nat) : State := (List.range 4).foldl (fun s i => s.portOff (4 * c + i) 7) s

/-- A fault of the surviving control tile halts every partition with class CTL2 (R304, R308).  No rule gives its PATH. -/
def State.ctlLost (s : State) (c : Nat) : State :=
  let s := (s.updCtl c (fun x => { x with up := false, cache := [] })).losePorts c
  if (s.ctl (1 - c)).up then s else
  let (v, s) := s.freePath
  (List.range 12).foldl (fun s p => if s.pstate p = 1 ∨ s.pstate p = 2 ∨ s.pstate p = 3 then s.halt p 16 v (0x100 + c) 0 [] else s) s

/-- AGENT_GONE on the lowest ACTIVE port of the survivor to each companion (R371). -/
def State.agentGone (s : State) (c : Nat) : State :=
  [0, 1].foldl (fun s comp =>
    match ((List.range 4).map (· + 4 * c)).find? (fun n => s.portActive n && s.rd (.vlport n) vlport.PORT_COMP = comp) with
    | some n => s.sendMsg n 0 1 (.agentGone n (1 - c))
    | none => s) s

/-- What a takeover changes in every partition: the survivor is primary with no mirror, and restores run at half rate (R304).  MIRROR_ACT
reads 1 in all 12 (DEDUCED; log 86). -/
def State.soloPart (s : State) (p : Nat) : State :=
  ((s.setFlag (.tickgen p) tickgen.MIRROR_ACT true).wr (.adm p) adm.RESTORE_BPT (s.rd (.adm p) adm.RESTORE_BPT / 2)).wr (.adm p)
    adm.RESTORE_BPT_T2 (s.rd (.adm p) adm.RESTORE_BPT_T2 / 2)

/-- A repair cut has been requested for the next boundary, and not abandoned since (R230). -/
def State.cutDue (s : State) (p : Nat) : Bool :=
  match (s.part p).job with
  | some j => j.cutReq && j.abort.isNone
  | none => false

/-- The doorbell writes of the commands fetched and not completed, before `ci`, for a ring of `n` entries: their entries are fetched again (R304). -/
def Part.rebell (x : Part) (ci n : Nat) : List (Nat × Nat) :=
  (List.range x.cmdIn.length).map (fun i => ((ci + 2 * n - x.cmdIn.length + i + 1) % (2 * n), (x.cmdIn.getD i {}).bell))

/-- The survivor of control tile `d` takes over partition `p` (R303, R304, R307).  The replay runs the work of the tick that was not final;
where a held boundary's tick had passed, the next tick begins. -/
def State.takeOver (s : State) (d p : Nat) : State :=
  let pg := Page.tickgen p
  let pt := s.part p
  let s := s.err pg 8
  let n := s.cmdN p
  let ci := s.rd (.cohc p) cohc.CMD_CI
  let s := (s.wr (.cohc p) cohc.CMD_CI ((ci + 2 * n - pt.cmdIn.length % (2 * n)) % (2 * n))).updPart p
    (fun x => { x with cmdIn := [], bells := x.rebell ci n ++ x.bells })
  let s := pt.cmdIn.foldl State.dropEntry s
  match pt.phase with
  | .stopped => s
  | .fault _ => s.updPart p (fun x => { x with phase := .fault (takeoverHold + coreHold) })
  | _ =>
    if s.breaksReplay p then s.replayHalt p 0 9 (0x100 + d) 0
    else (if s.cutDue p then s.abortLoad p 0x1E else s).enterHold p takeoverHold (if pt.clean then 0 else tickLen (s.periodOf p) pt.stretch + 12)

/-- HEARTBEAT_TIMEOUT (R303): control tile `c` has seen no heartbeat for 6,000 cycles.  The SPS grants the first such request: the
peer's rails go off and `c` takes over its partitions.  A refused tile switches itself off. -/
def heartbeatTimeout (s : State) (c : Nat) : State :=
  let x := s.ctl c
  let d := 1 - c
  if !x.up || s.rd (.smc c) smc.BRINGUP < 4 || x.hbSeen + 6000 > s.clock then s else
  match s.sps.fenced with
  | some f => if f = c then (s.updCtl c (fun x => { x with up := false })).losePorts c else s
  | none =>
    let s := s.setSps { s.sps with fenced := some d }
    let s := (s.setFlag (.smc d) smc.NOR_GRANT false).setFlag (.smc c) smc.NOR_GRANT true
    let s := ((s.updCtl d (fun x => { x with up := false, cache := [] })).losePorts d).agentGone c
    let ps := (List.range 12).filter (fun p => s.flag (.tickgen p) tickgen.CREATED && s.primary p = d)
    let s := (List.range 12).foldl State.soloPart (ps.foldl (fun s p => s.takeOver d p) s)
    let hold := 6000 + takeoverHold
    let len (p : Nat) : Nat := tickLen (s.periodOf p) (s.part p).stretch
    let s := s.record { cls := 5, path := 9, outcome := 0, loc := 0x100 + d, hold := hold, intr := hold + maxOf (ps.map len) + 12 } [] ps
    s.flush.linkCheck

/-- ALIVE_LOSS. -/
def execAliveLoss (g : Nat) (s : State) : Out :=
  let s' := aliveLoss s g
  .next (match s.corePart g with
    | some p => s'.joinHold p ((s.part p).deadNow.map (·.1))
    | none => s')
/-- HEARTBEAT. -/
def execHeartbeat (c : Nat) (s : State) : Out := .next (heartbeat s c)
/-- FAULT_COMPLETION. -/
def execFaultCompletion (p : Nat) (s : State) : Out := .next (faultCompletion s p)
/-- TILE_FAULT. -/
def execTileFault (t : Nat) (cause : TileCause) (s : State) : Out := .next (tileFault s t cause)
/-- ROUTER_PARITY_FAILURE. -/
def execRouterParityFailure (g : Nat) (s : State) : Out := .next (routerParityFailure s g)
/-- SITE_CONTROLLER_FAILURE. -/
def execSiteControllerFailure (m : Nat) (s : State) : Out := .next (siteControllerFailure s m)
/-- SADDLE_CHANNEL_FAIL. -/
def execSaddleChannelFail (t e ch : Nat) (lock : Bool) (s : State) : Out := .next (saddleChannelFail s t e ch lock)
/-- SADDLE_SPARE_SWAP. -/
def execSaddleSpareSwap (t e : Nat) (s : State) : Out := .next (saddleSpareSwap s t e)

end Sys2Proof.Machine
end

