-- ==== Sys2Proof/Machine/Rmb.lean ====
section
/-! DEFINITION. The rail monitor blocks: slots and results, references, the sequencer, its start sources, comparators, calibration and
the epoch meter (R337 to R356). -/

namespace Sys2Proof.Machine

/-! ### The sequencer (R344 to R347) -/

/-- The class of a source's starts. -/
def State.urgent (s : State) (pg : Page) (src : Nat) : Bool := s.flag pg (rmb.URGENT src)

/-- The pending source that is served first: URGENT before NORMAL, then the lower number (R345). -/
def State.nextSrc (s : State) (pg : Page) (onlyUrgent : Bool) : Option Nat :=
  let l := (List.range 8).filter (fun i => (s.rmbOf pg).pend.contains i)
  ((l.filter (s.urgent pg)).head?).or (if onlyUrgent then none else l.head?)

/-- Shows the sequencer's state in the page (R355). -/
def State.showSeq (s : State) (pg : Page) : State :=
  let x := s.rmbOf pg
  let st := match x.cur with
    | none => 0
    | some c => match c.kind with
      | .normal => 1
      | .urgent => 2
      | .cal => 3
  let s := (s.wr pg rmb.SEQ_STATE st).wr pg rmb.CUR_ENTRY ((x.cur.map (·.entry)).getD 0)
  let s := (s.wr pg rmb.RESUME_ENTRY ((x.intr.map (·.entry)).getD 0)).setFlag pg rmb.RESUME_VALID x.intr.isSome
  s.wr pg rmb.PEND ((List.range 8).foldl (fun a i => a + 2 ^ i * b2n (x.pend.contains i)) 0)

/-- New coefficients take effect at a sequence start or a loop point (R350): CAL_DONE sets, UNCAL, CAL_BUSY and REF_FAULT clear. -/
def State.takeCoef (s : State) (pg : Page) : State :=
  match (s.rmbOf pg).newCoef with
  | some [oa, ob, ga, gb] =>
    let s := s.updRmb pg (fun x => { x with newCoef := none })
    let s := (((s.wr pg rmb.OFFS_A oa).wr pg rmb.OFFS_B ob).wr pg rmb.GAIN_A ga).wr pg rmb.GAIN_B gb
    let s := ((s.raiseFlag pg rmb.CAL_DONE).setFlag pg rmb.UNCAL false).setFlag pg rmb.CAL_BUSY false
    (s.setFlag pg rmb.REF_FAULT false).journal (s.norHolder.getD 0) (.cal pg.id (s.rd pg rmb.REF_SEL) oa ob ga gb)
  | _ => s

/-- A slot of the sequencer begins at clock `c`, with what its entry holds now (R344, R348). -/
def State.beginSlot (s : State) (pg : Page) (k : RmbSlot) (c : Nat) : State :=
  let e := k.entry
  s.updRmb pg (fun x => { x with cur := some { k with
    began := c, inA := s.rd pg (rmb.IN_A e), inB := s.rd pg (rmb.IN_B e), bEn := s.flag pg (rmb.B_EN e), last := s.flag pg (rmb.LAST e)
    loop := s.flag pg (rmb.LOOP e), pwr := s.flag pg (rmb.PWR e) } })

/-- Starts the sequence of a source with a slot that begins at clock `c`.  SEQ_NUM of its results is SEQ_CNT as it starts (DEDUCED; log 90). -/
def State.beginSeq (s : State) (pg : Page) (src c : Nat) : State :=
  let e := s.rd pg (rmb.START_ENTRY src)
  let k : SlotKind := if s.urgent pg src then .urgent else .normal
  let s := (s.takeCoef pg).updRmb pg (fun x => { x with pend := x.pend.filter (· ≠ src) })
  s.beginSlot pg { kind := k, entry := e, first := e, seq := s.rd pg rmb.SEQ_CNT } c

/-- A calibration slot is due: 128 have not begun yet (R350). -/
def State.calDue (s : State) (pg : Page) : Bool :=
  let x := s.rmbOf pg
  s.flag pg rmb.CAL_BUSY && x.newCoef = none && decide (x.calN + b2n ((x.done.map (·.kind)) = some .cal) < 128)

/-- What an idle sequencer does next, at clock `c`: an entry of an URGENT sequence that the reference held back, an URGENT start, another entry held
back, the interrupted entry, a NORMAL start, a calibration slot (one at each loop point), and the looping sequence (R341, R345 to R347, R350). -/
def State.nextSlot (s : State) (pg : Page) (c : Nat) : State :=
  let x := s.rmbOf pg
  if x.cur ≠ none ∨ !s.flag pg rmb.REF_RDY ∨ !s.flag pg page.EN then s else
  let first : Option RmbSlot := x.held.filter (fun k => k.kind = .urgent || (s.nextSrc pg true).isNone)
  match first, s.nextSrc pg true, x.intr, s.nextSrc pg false with
  | some k, _, _, _ => (s.updRmb pg (fun x => { x with held := none })).beginSlot pg k c
  | none, some i, _, _ => s.beginSeq pg i c
  | none, none, some k, _ => (s.updRmb pg (fun x => { x with intr := none })).beginSlot pg k c
  | none, none, none, some i => s.beginSeq pg i c
  | none, none, none, none =>
    match x.loops with
    | [] => if s.calDue pg then s.beginSlot pg { kind := .cal } c else s
    | k :: t =>
      if s.calDue pg && x.calTurn then (s.updRmb pg (fun x => { x with calTurn := false })).beginSlot pg { kind := .cal } c
      else
        let s := (s.takeCoef pg).updRmb pg (fun x => { x with loops := t, calTurn := true })
        s.beginSlot pg { k with entry := k.first, seq := s.rd pg rmb.SEQ_CNT } c

/-- A reference that waits takes effect at clock `c`, at the end of a slot or when none is in progress (R341). -/
def State.takeRef (s : State) (pg : Page) (c : Nat) : State :=
  match (s.rmbOf pg).refNext with
  | none => s
  | some v =>
    let t := if v = 0 then 20 else if v = 1 then 50 else 5
    let s := s.updRmb pg (fun x => { x with refNext := none, settleAt := some (c + 2500 * t) })
    ((s.wr pg rmb.REF_SEL v).setFlag pg rmb.REF_RDY false).setFlag pg rmb.UNCAL true

/-! ### The epoch meter (R52, R352) -/

/-- A quotient that no rule rounds: its floor, or one more where it is not exact, as a free value says (log 9). -/
def State.freeQuot (s : State) (n d : Nat) : Nat × State :=
  if n % d = 0 then (n / d, s) else
  let (v, s) := s.free
  (n / d + v.toNat % 2, s)

/-- Full scale of input 7 in amperes (R338). -/
def fullScale : Page → Nat
  | .rmbSite _ => 250
  | .rmbCtl _ => 125
  | _ => 500

/-- An epoch of tile `t` has all its products: their mean is stored and, with the latest VDD_A power, compared with the tile budget (R52, R352). -/
def State.closeEpoch (s : State) (t : Nat) (e : Epoch) : State :=
  let pg := Page.rmbTile t
  let x := s.rmbOf pg
  if e.n = 0 then s.inc pg rmb.EPOCH_NOSAMP_CNT 1 else
  let fs := fullScale pg
  let (mean, s) := s.freeQuot (e.sum * fs * 4) (e.n * 2 ^ 24)
  let s := s.wr pg rmb.P_EPOCH_LAST mean
  let s := match s.tilePart t with
    | some p => s.updPart p (fun y => { y with tileE := y.tileE + mean * (e.stop - e.start) })
    | none => s
  if s.rd (.tileGlb t) tileGlb.BUDGET * e.n * 2 ^ 24 < (e.sum * fs + e.n * x.vddaV * x.vddaI * 5) * 4 then
    let g := Page.tileGlb t
    ((((s.inc g tileGlb.PWR_OVER_CNT 1).err g 0).wr g page.ERR_TICK_LO e.tick).wr g page.ERR_TICK_HI (e.tick / 2 ^ 32)).setFlag g page.TICK_SRC
      false
  else s

/-- The epoch that awaited a result closes with the products it has. -/
def State.closeWaiting (s : State) (pg : Page) : State :=
  match (s.rmbOf pg).closing, pg with
  | some e, .rmbTile t => (s.updRmb pg (fun x => { x with closing := none })).closeEpoch t e
  | _, _ => s

/-- URGENT_PREEMPT (R346): an URGENT start abandons a NORMAL or calibration slot; a reference that waited for the slot's end takes effect then. -/
def State.preemptSlot (s : State) (pg : Page) : State :=
  let x := s.rmbOf pg
  match x.cur, s.nextSrc pg true with
  | some k, some i =>
    if k.kind = .urgent ∨ x.intr ≠ none ∨ !s.flag pg rmb.REF_RDY then s else
    let s := ((s.inc pg rmb.PREEMPT_CNT 1).updRmb pg (fun x => { x with intr := some k, cur := none })).closeWaiting pg
    if x.refNext.isSome then s.takeRef pg (s.clock + 1) else s.beginSeq pg i (s.clock + 1)
  | _, _ => s

/-- A start from a source (R344, R345). -/
def State.startSrc (s : State) (pg : Page) (src : Nat) : State :=
  if !s.flag pg page.EN || !s.flag pg (rmb.SRC_EN src) then s else
  if (s.rmbOf pg).pend.contains src then (s.inc pg rmb.START_LOST_CNT 1).err pg 7 else
  let s := s.updRmb pg (fun x => { x with pend := x.pend ++ [src] })
  ((s.preemptSlot pg).nextSlot pg (s.clock + 1)).showSeq pg

/-- REF_SEL (R341): takes effect when the current slot ends; 3 is ignored. -/
def refSel (s : State) (pg : Page) (v : Nat) : State :=
  if v % 4 = 3 then s else
  let s := s.updRmb pg (fun x => { x with refNext := some (v % 4) })
  if (s.rmbOf pg).cur = none then s.takeRef pg s.clock else s

/-- REF_RDY (R341, R342): the reference has settled, and starts that were held are served. -/
def refRdy (s : State) (pg : Page) : State :=
  match (s.rmbOf pg).settleAt with
  | none => s
  | some c =>
    if s.clock < c then s else
    ((((s.updRmb pg (fun x => { x with settleAt := none })).setFlag pg rmb.REF_RDY true).preemptSlot pg).nextSlot pg (s.clock + 1)).showSeq pg

/-- SW_START (R349). -/
def swStart (s : State) (pg : Page) : State := s.startSrc pg 7

/-- CAL_START (R350). -/
def calStart (s : State) (pg : Page) : State :=
  if s.flag pg rmb.CAL_BUSY then s else
  let s := (s.setFlag pg rmb.CAL_BUSY true).updRmb pg (fun x => { x with
    calN := 0, calGnd := (0, 0), calRef := (0, 0), newCoef := none, calTurn := true })
  (s.nextSlot pg (s.clock + 1)).showSeq pg

/-- TIMERn_PER of a timer. -/
def State.timerPer (s : State) (pg : Page) (k : Nat) : Nat := s.rd pg (if k = 0 then rmb.TIMER0_PER else rmb.TIMER1_PER)

/-- EN of a timer source is written (R349): its periods count from now. -/
def State.armTimer (s : State) (pg : Page) (k : Nat) : State :=
  s.updRmb pg (fun x => { x with timers := Table.set 0 x.timers k (s.clock + 125 * s.timerPer pg k) })

/-- RMB_TIMER (R349): TIMER0 or TIMER1 reaches its period. -/
def rmbTimer (s : State) (pg : Page) (k : Nat) : State :=
  let per := 125 * s.timerPer pg k
  if 1 < k ∨ per = 0 ∨ !s.flag pg (rmb.SRC_EN (5 + k)) ∨ s.clock < Table.get 0 (s.rmbOf pg).timers k then s else
  (s.updRmb pg (fun x => { x with timers := Table.set 0 x.timers k (Table.get 0 x.timers k + per) })).startSrc pg (5 + k)

/-- EN = 0 on an RMB page (R353): no result is written and no meter reading made; a reference that waited for the slot takes effect. -/
def State.rmbOff (s : State) (pg : Page) : State :=
  ((s.updRmb pg (fun x => { x with
    cur := none, done := none, intr := none, held := none, soon := [], closing := none, loops := [], pend := [] })).takeRef pg s.clock).showSeq pg

/-! ### Ticks and snapshots (R349) -/

/-- The RMB pages whose TICK source follows partition `p`. -/
def State.rmbPages (s : State) (p : Nat) : List Page :=
  (s.part p).tiles.map Page.rmbTile ++ ((List.range 16).filter (fun m => s.sitePart m = some p)).map Page.rmbSite ++
    ([0, 1].filter (fun c => s.rd (.rmbCtl c) rmb.TRIG_PART = p)).map Page.rmbCtl

/-- The first power epoch of a tick begins at the boundary (R48): the meter of a tile starts anew. -/
def State.firstEpoch (s : State) (t : Nat) : State :=
  s.updRmb (.rmbTile t) (fun x => { x with powSum := 0, powN := 0, epochAt := s.clock })

/-- TICK_SOURCE_START: a boundary starts the NORMAL TICK sequences, and each block may take one snapshot in the tick (R349). -/
def State.tickStarts (s : State) (p : Nat) : State :=
  let s := (s.part p).tiles.foldl State.firstEpoch s
  (s.rmbPages p).foldl (fun s pg =>
    let s := s.updRmb pg (fun x => { x with snapDue := true })
    if s.urgent pg 4 then s else s.startSrc pg 4) s

/-- The URGENT TICK start of a page becomes effective in this cycle (R349): SNAP_CYC − 50, within the limits of SNAP_CYC. -/
def State.snapNow (s : State) (p : Nat) (pg : Page) : Bool :=
  let c := s.rd pg rmb.SNAP_CYC
  (s.rmbOf pg).snapDue && s.flag pg page.EN && s.flag pg (rmb.SRC_EN 4) && s.urgent pg 4 && s.running p && (s.part p).cyc + 50 = c &&
    decide (c < s.periodOf p)

/-- SNAPSHOT_START (R349): in cycle SNAP_CYC − 50 the URGENT TICK starts of a partition become effective. -/
def snapshotStart (s : State) (p : Nat) : State :=
  (s.rmbPages p).foldl (fun s pg =>
    if !s.snapNow p pg then s else
    let s := s.updRmb pg (fun x => { x with snapDue := false })
    let late : Bool := match (s.rmbOf pg).cur with
      | some k => k.kind = .urgent
      | none => false
    ((s.setFlag pg rmb.SNAP_LATE late).wr pg rmb.SNAP_TICK (s.part p).tick).startSrc pg 4) s

/-! ### Results (R340, R343, R348, R349, R352) -/

/-- The corrected code of a raw code; 4,096 stands for an input above the reference, which reads 4,095 (R340; log 91). -/
def corrected (raw : Nat) (offs gain : Nat) : Nat :=
  if 4095 < raw then 4095 else
  let v := ((raw : Int) - sgn 13 offs) * (gain : Int) / 2 ^ 14
  if v < 0 then 0 else min v.toNat 4095

/-- A comparator evaluates a code (R349).  The start of a crossing becomes effective two cycles later, as in the worked example of the chapter. -/
def State.compare (s : State) (pg : Page) (n code : Nat) : State :=
  let inside : Bool := decide (s.rd pg (rmb.LO n) ≤ code) && decide (code ≤ s.rd pg (rmb.HI n))
  let cond := if s.flag pg (rmb.MODE n) then inside else !inside
  let s := s.setFlag pg (rmb.COND n) cond
  if !cond then s.updRmb pg (fun x => { x with deb := Table.set 0 x.deb n 0, fired := x.fired.filter (· ≠ n) }) else
  let k := Table.get 0 (s.rmbOf pg).deb n + 1
  let s := s.updRmb pg (fun x => { x with deb := Table.set 0 x.deb n (min k 8) })
  if k < s.rd pg (rmb.DEBOUNCE n) + 1 ∨ (s.rmbOf pg).fired.contains n then s else
  let s := s.updRmb pg (fun x => { x with fired := x.fired ++ [n] })
  let s := if s.flag pg (rmb.ACT_FLAG n) then s.err pg n else s
  let s := if s.flag pg (rmb.ACT_STEPERR n) then
      (match s.pagePart pg with
        | some p => s.updPart p (fun x => { x with rmbErrs := addSet x.rmbErrs [pg.id] })
        | none => s)
    else s
  s.updRmb pg (fun x => { x with soon := x.soon ++ [(n, s.clock + 2)] })

/-- Every comparator that watches an input of the result (R349). -/
def State.compareAll (s : State) (pg : Page) (k : RmbSlot) (codeA codeB : Nat) : State :=
  (List.range 4).foldl (fun s n =>
    let conv := s.rd pg (rmb.CONV n)
    let s := if bit conv 0 && k.inA = s.rd pg (rmb.SRC n) then s.compare pg n codeA else s
    if bit conv 1 && k.bEn && k.inB = s.rd pg (rmb.SRC n) then s.compare pg n codeB else s) s

/-- A product of a PWR slot goes to the epoch in which its sample instant fell, the end of cycle 49 of the slot (R337, R352); one that has ended
meanwhile closes.  The thermal control has it with the latest VDD_A power, in units of 2^−24 pu (R328). -/
def State.meter (s : State) (pg : Page) (k : RmbSlot) (prod : Nat) : State :=
  let x := s.rmbOf pg
  let s := match pg with
    | .rmbTile t => s.updTile t (fun y => { y with
        powSum := y.powSum + (prod * fullScale pg + x.vddaV * x.vddaI * 5) * 4, powN := y.powN + 1 })
    | _ => s
  if x.epochAt ≤ k.began + 49 then s.updRmb pg (fun x => { x with powSum := x.powSum + prod, powN := x.powN + 1 })
  else s.updRmb pg (fun x => { x with closing := x.closing.map (fun e =>
    if e.start ≤ k.began + 49 then { e with sum := e.sum + prod, n := e.n + 1 } else e) })

/-- Writes a result into its register (R343, R348) and into the epoch meter (R352). -/
def State.writeResult (s : State) (pg : Page) (k : RmbSlot) (codeA codeB : Nat) : State :=
  let e := k.entry
  let s := if s.flag pg (rmb.VALID e) then (s.raiseFlag pg (rmb.OVR e)).err pg 6 else s
  let s := s.wr pg (rmb.CODE_A e) codeA
  let s := if k.bEn then s.wr pg (rmb.CODE_B e) codeB else s
  let s := ((s.raiseFlag pg (rmb.VALID e)).setFlag pg (rmb.UNCAL_R e) (s.flag pg rmb.UNCAL)).wr pg (rmb.SEQ_NUM e) k.seq
  let bad (inp code : Nat) : Bool := inp = 14 && (decide (code < 3041) || decide (3103 < code))
  let s := if bad k.inA codeA || (k.bEn && bad k.inB codeB) then (s.setFlag pg rmb.REF_FAULT true).err pg 4 else s
  let s := s.updRmb pg (fun x => { x with
    vddaV := if k.inA = 5 then codeA else if k.bEn && k.inB = 5 then codeB else x.vddaV
    vddaI := if k.inA = 9 then codeA else if k.bEn && k.inB = 9 then codeB else x.vddaI })
  (if k.pwr && k.bEn then s.meter pg k (codeA * codeB) else s).closeWaiting pg

/-- One coefficient pair of a calibration (R350): the mean GND code, and a GAIN under which the mean REFCHK code corrects to 3,072;
which of those GAINs is a free value.  None where the limits of R350 are broken; for REF_SEL 0 and 2, where no rule gives the
tolerance of the permitted reference, a free value says so (log 29). -/
def State.coef (s : State) (pg : Page) (gnd ref : Nat) : Option (Nat × Nat) × State :=
  let (offs, s) := s.freeQuot gnd 64
  let d := ref - 64 * offs
  let sel := s.rd pg rmb.REF_SEL
  let (v, s) := s.free
  let outside : Bool := if sel = 1 then decide (ref < 2793 * 64) || decide (3413 * 64 < ref) else bit v.toNat 0
  if 64 * 64 < gnd ∨ d = 0 ∨ outside then (none, s) else
  let lo := cdiv (3072 * 2 ^ 20) d
  let hi := cdiv (3073 * 2 ^ 20) d
  let (w, s) := s.free
  (some (offs, lo + w.toNat % max (hi - lo) 1), s)

/-- A calibration slot ends with its raw codes; the 128th ends the calibration (R350). -/
def State.calSlot (s : State) (pg : Page) (rawA rawB : Nat) : State :=
  let (rawA, rawB) := (min rawA 4095, min rawB 4095)
  let s := s.updRmb pg (fun x =>
    if x.calN < 64 then { x with calN := x.calN + 1, calGnd := (x.calGnd.1 + rawA, x.calGnd.2 + rawB) }
    else { x with calN := x.calN + 1, calRef := (x.calRef.1 + rawA, x.calRef.2 + rawB) })
  let x := s.rmbOf pg
  if x.calN < 128 then s else
  let (a, s) := s.coef pg x.calGnd.1 x.calRef.1
  let (b, s) := s.coef pg x.calGnd.2 x.calRef.2
  match a, b with
  | some (oa, ga), some (ob, gb) => s.updRmb pg (fun x => { x with newCoef := some [oa, ob, ga, gb] })
  | _, _ => (s.setFlag pg rmb.CAL_BUSY false).err pg 5

/-- The slot `k` ends with the cycle before clock `c`, where the sequencer goes on; its result follows three cycles later (R337, R341, R344, R346,
R347). -/
def State.endSlot (s : State) (pg : Page) (k : RmbSlot) (c : Nat) : State :=
  let s := s.updRmb pg (fun x => { x with cur := none, done := some k })
  let more : Bool := k.kind ≠ .cal && !k.last
  let s := if k.kind = .cal ∨ !k.last then s else
    let s := s.inc pg rmb.SEQ_CNT 1
    if k.loop then s.updRmb pg (fun x => { x with loops := x.loops ++ [k] }) else s
  let s := s.takeRef pg c
  if !more then s.nextSlot pg c else
  let n : RmbSlot := { k with entry := (k.entry + 1) % 16 }
  if s.flag pg rmb.REF_RDY then s.beginSlot pg n c else s.updRmb pg (fun x => { x with held := some n })

/-- CONVERSION_RESULT (R337, R340, R348): the result of the slot that has ended is written, and the comparators evaluate. -/
def conversionResult (s : State) (pg : Page) (rawA rawB : Nat) : State :=
  match (s.rmbOf pg).done with
  | none => s
  | some k =>
    if s.clock < k.began + 127 ∨ !s.flag pg page.EN then s else
    let s := s.updRmb pg (fun x => { x with done := none })
    if k.kind = .cal then ((s.calSlot pg rawA rawB).nextSlot pg (s.clock + 1)).showSeq pg else
    let a := corrected rawA (s.rd pg rmb.OFFS_A) (s.rd pg rmb.GAIN_A)
    let b := corrected rawB (s.rd pg rmb.OFFS_B) (s.rd pg rmb.GAIN_B)
    ((s.writeResult pg k a b).compareAll pg k a b).showSeq pg

/-- Every rail monitor block's page. -/
def rmbAll : List Page := (List.range 72).map .rmbTile ++ (List.range 16).map .rmbSite ++ [.rmbCtl 0, .rmbCtl 1]

/-- One clock cycle of a rail monitor: the comparators' starts that become effective in it, and a slot that ends with it (R337, R346). -/
def State.rmbCycle (s : State) (pg : Page) : State :=
  let x := s.rmbOf pg
  if x.soon = [] ∧ x.cur = none then s else
  let now := x.soon.filter (fun e => decide (e.2 ≤ s.clock))
  let s := if now = [] then s else
    now.foldl (fun s e => s.startSrc pg e.1) (s.updRmb pg (fun x => { x with soon := x.soon.filter (fun e => decide (s.clock < e.2)) }))
  match (s.rmbOf pg).cur with
  | some k => if k.began + 124 ≤ s.clock then (s.endSlot pg k (s.clock + 1)).showSeq pg else s
  | none => s

/-- The schedule cycles that the partition of a tile has counted. -/
def State.schedPart (s : State) (t : Nat) : Nat :=
  match s.tilePart t with
  | none => 0
  | some p => (s.part p).sched

/-- A power epoch of the tile's partition ends now and has not been taken yet (R48): 256 schedule cycles with their hold cycles are over,
counted from the boundary, or the tick is, whose last epoch may be short. -/
def State.epochOver (s : State) (t : Nat) : Bool :=
  match s.tilePart t with
  | none => false
  | some p =>
    let x := s.part p
    x.phase = .running && (s.rmbOf (.rmbTile t)).epochSched ≠ x.sched &&
      ((x.cyc % 256 = 0 && x.cyc ≠ 0 && s.steps p) || decide (tickLen (s.periodOf p) x.stretch ≤ x.wall))

/-- A PWR slot of the block whose sample instant has fallen in the epoch that ends now, and whose result is still to come (R352). -/
def Rmb.sampled (x : Rmb) (now : Nat) : Bool :=
  (x.done.or x.cur).any (fun k => k.pwr && k.bEn && k.kind ≠ .cal && decide (k.began + 49 < now) && decide (x.epochAt ≤ k.began + 49))

/-- EPOCH_END (R48, R52, R352): a power epoch of the tile's partition ends.  It closes at once, or with the result of the sample that is still
being converted. -/
def epochEnd (s : State) (t : Nat) : State :=
  let pg := Page.rmbTile t
  let x := s.rmbOf pg
  if !s.flag pg page.EN || !s.epochOver t then s else
  let now := s.schedPart t
  let e : Epoch := { sum := x.powSum, n := x.powN, start := x.epochAt, stop := s.clock, tick := (s.part ((s.tilePart t).getD 0)).tick }
  let s := s.updRmb pg (fun x => { x with powSum := 0, powN := 0, epochAt := s.clock, epochSched := now })
  if x.sampled s.clock then s.updRmb pg (fun x => { x with closing := some e }) else s.closeEpoch t e

/-- CONVERSION_RESULT. -/
def execConversionResult (pg : Page) (rawA rawB : Nat) (s : State) : Out := .next (conversionResult s pg rawA rawB)
/-- REF_SEL. -/
def execRefSel (pg : Page) (v : Nat) (s : State) : Out := .next (refSel s pg v)
/-- REF_RDY. -/
def execRefRdy (pg : Page) (s : State) : Out := .next (refRdy s pg)
/-- SW_START. -/
def execSwStart (pg : Page) (s : State) : Out := .next (swStart s pg)
/-- CAL_START. -/
def execCalStart (pg : Page) (s : State) : Out := .next (calStart s pg)
/-- RMB_TIMER. -/
def execRmbTimer (pg : Page) (k : Nat) (s : State) : Out := .next (rmbTimer s pg k)
/-- SNAPSHOT_START. -/
def execSnapshotStart (p : Nat) (s : State) : Out := .next (snapshotStart s p)
/-- EPOCH_END. -/
def execEpochEnd (t : Nat) (s : State) : Out := .next (epochEnd s t)

end Sys2Proof.Machine
end

