-- ==== Sys2Proof/Machine/Packer.lean ====
section
/-! DEFINITION. The wavefront packer: what every token does in the next tick, which tokens enter, and the hold mask that goes to the
regions (R42 to R46, R98 to R100, R113, R127, R128, R247, R272 to R274, R283). -/

namespace Sys2Proof.Machine

/-! ### Widens, stalls and booked holds (R45, R99, R127, R274) -/

/-- The slot state of a token in its tick (R74). -/
def Hold.st (h : Hold) : SlotState :=
  if h.widenNow then .widen else if h.bookedNow then .booked else if h.held then .stall else .run

/-- An extra position of a verification pass (R274). -/
def Hold.isExtra (h : Hold) : Bool := h.kind = 2

/-- A token may take one more widen hold or stall where it is (R45). -/
def Hold.mayHold (h : Hold) : Bool := !h.heldHere && (h.elastic || h.holds < h.budget)

/-- The tokens that a widen at region `r` would stall: those behind it in adjoining regions, back to the first empty position, to an
extra position, or to one that stays for a booked hold; and back at the entry the token latched for the slot (R247).  `l` holds the
column behind it, in descending order of region, and `entry` the tokens latched. -/
def stalledBy (entry : List Hold) : Nat → List Hold → List Hold
  | 0, _ => entry.filter (fun h => !h.isExtra && !h.removed)
  | _, [] => []
  | r + 1, h :: t => if h.region = r && !h.isExtra && h.booked = 0 && !h.removed then h :: stalledBy entry r t else []

/-- What the packer counts while it decides (R467, R287), and the extra positions it removes by lane, entry and position. -/
structure Decided where
  table : List Hold := []
  entering : List Hold := []
  grants : Nat := 0
  suppressed : Nat := 0
  stalls : Nat := 0
  booked : Nat := 0
  removed : List (Nat × Nat × Nat) := []
  deriving DecidableEq, Repr

/-- Charges a widen hold or a stall to a token. -/
def Hold.chargeHold (h : Hold) : Hold := { h with holds := min (h.holds + 1) 127, heldHere := true }

/-- The BOOKED load of a token that arrives at region `r` (R127). -/
def bookedAt (im : Loaded) (r b : Nat) : Nat :=
  if (im.regions.getD r {}).glob then (im.buckets.getD b {}).mu - 1 else 0

/-- The next tick of one token, given whether the position ahead stays occupied and whether a widen hold does that: the token's next
entry (none when it leaves), and the counts of a suppressed widen and of a removed extra position. -/
def Hold.next (im : Loaded) (entry : List Hold) (h : Hold) (behind : List Hold) (blocked byHold : Bool) : Option Hold × Bool × Bool :=
  let moved : Option Hold :=
    let r := h.region + 1
    if im.regions.length ≤ r then none
    else some { h with region := r, step := 0, heldHere := false, booked := bookedAt im r h.bucket, held := false, widenNow := false
                       bookedNow := false, mark := false }
  let stay (h : Hold) : Hold := { h with mark := false, bookedNow := false }
  let marked : Bool := h.mark && (im.regions.getD h.region {}).a4 && (h.st = .run || h.st = .booked)
  let bookedNext : Hold := { stay h with step := h.step + 1, booked := h.booked - 1, held := true, widenNow := false, bookedNow := true }
  if h.isExtra then
    if h.booked ≠ 0 then (some bookedNext, marked, false)
    else if blocked then (none, marked, true)
    else (moved, marked, false)
  else
    let grant : Bool := marked && h.mayHold && (stalledBy entry h.region behind).all Hold.mayHold
    if grant then (some (stay { h.chargeHold with held := true, widenNow := true }), false, false)
    else if h.booked ≠ 0 then (some bookedNext, marked, false)
    else if blocked then
      (some (stay { (if byHold then h.chargeHold else h) with held := true, widenNow := false }), marked, false)
    else (moved, marked, false)

/-- Decides a column from its first token back to the entry.  `ahead` is the region that the token before occupies in the next tick, and
`byHold` whether it stays there for a widen. -/
def decideColumn (im : Loaded) (entry : List Hold) (ahead : Option Nat) (byHold : Bool) : List Hold → Decided → Decided × Option Nat × Bool
  | [], d => (d, ahead, byHold)
  | h :: t, d =>
    if h.removed then decideColumn im entry none false t d else
    let blocked : Bool := ahead = some (h.region + 1)
    let (n, supp, gone) := h.next im entry t blocked byHold
    let d := { d with suppressed := d.suppressed + b2n supp
                      removed := if gone then d.removed ++ [(h.lane, h.entry, h.pos)] else d.removed }
    match n with
    | none => decideColumn im entry none false t d
    | some x =>
      let stays : Bool := x.region = h.region
      let d := { d with
        table := d.table ++ [x]
        grants := d.grants + b2n x.widenNow
        stalls := d.stalls + b2n (stays && !x.widenNow && x.step = h.step)
        booked := d.booked + b2n (stays && !x.widenNow && x.step ≠ h.step) }
      decideColumn im entry (some x.region) (stays && (x.widenNow || (x.step = h.step && byHold))) t d

/-- Decides the token that waits at the entry of a column: one kept out by a widen has its stall at the embedding region (R44, R247). -/
def decideEntry (im : Loaded) (ahead : Option Nat) (byHold : Bool) (h : Hold) (d : Decided) : Decided :=
  if h.removed then d
  else if ahead = some 0 then
    if h.isExtra then { d with removed := d.removed ++ [(h.lane, h.entry, h.pos)] }
    else { d with entering := d.entering ++ [{ (if byHold then h.chargeHold else h) with held := true }], stalls := d.stalls + 1 }
  else { d with table := d.table ++ [{ h with held := false, booked := bookedAt im 0 h.bucket }] }

/-- One slot: its tokens from the last region back, then its entry. -/
def decideSlot (im : Loaded) (table entering : List Hold) (d : Decided) (j : Nat) : Decided :=
  let col := sortBy (fun a b => decide (b.region < a.region)) (table.filter (fun h => h.slot = j))
  let entry := entering.filter (fun h => h.slot = j)
  let (d, ahead, byHold) := decideColumn im entry none false col d
  entry.foldl (fun d h => decideEntry im ahead byHold h d) d

/-- The extra positions of a pass leave with one that was removed before them, and all leave when t0 is held (R274). -/
def dropExtras (d : Decided) : Decided :=
  let held (h : Hold) : Bool :=
    (d.table ++ d.entering).any (fun x => !x.isExtra && x.lane = h.lane && x.entry = h.entry && x.handle = h.handle &&
      (x.widenNow || (x.held && !x.bookedNow) || d.entering.contains x)) ||
    d.removed.any (fun e => e.1 = h.lane && e.2.1 = h.entry && e.2.2 < h.pos)
  let gone := (d.table ++ d.entering).filter (fun h => h.isExtra && held h)
  { d with table := d.table.filter (fun h => !gone.contains h), entering := d.entering.filter (fun h => !gone.contains h)
           removed := d.removed ++ gone.map (fun h => (h.lane, h.entry, h.pos)) }

/-- WIDEN_DECISION (R45): the table of the next tick. -/
def decideAll (im : Loaded) (table entering : List Hold) : Decided :=
  dropExtras ((List.range 4).foldl (fun d j => decideSlot im table entering d j) {})

/-- The hold table as it reads at a latch (R35, R46): the tokens in flight, each with WIDEN where its widen is granted for the next tick, and
those latched for an entry slot. -/
def holdTable (im : Loaded) (table entering : List Hold) : List Hold :=
  let d := decideAll im table entering
  let granted (h : Hold) : Bool :=
    d.table.any (fun x => x.widenNow && x.lane = h.lane && x.slot = h.slot && x.entry = h.entry && x.pos = h.pos)
  table.map (fun h => { h with widen := granted h }) ++ entering

/-- The packer's decision for the tick that has begun, with its counters (R467). -/
def State.decideTick (s : State) (p : Nat) : State :=
  let pt := s.part p
  let d := decideAll (s.img p) pt.table pt.entering
  let pg := Page.packer p
  let s := s.updPart p (fun x => { x with table := d.table, entering := d.entering })
  let s := (((s.inc pg packer.WIDEN_GRANT_CNT d.grants).inc pg packer.WIDEN_SUPPRESSED d.suppressed).inc pg packer.STALL_CNT
    d.stalls).inc pg packer.BOOKED_CNT d.booked
  let s := s.inc (.spur p) spur.EXTRA_REMOVED_CNT d.removed.length
  if d.suppressed = 0 then s else s.err pg 0

/-! ### The hold mask (R45, R74, R113) -/

/-- The slot of a region in this tick; the descriptor of an EMPTY slot has no meaning (R113; log 60), `n` numbering the mask. -/
def maskSlot (im : Loaded) (table : List Hold) (n r j : Nat) : Slot :=
  match table.find? (fun h => h.region = r && h.slot = j) with
  | none =>
    let d := Config.emptySlot n r j
    { lane := bits d 0 8, pos := bits d 8 20, mu := bits d 28 5, step := bits d 33 5, bucket := bits d 38 3 }
  | some h =>
    { state := h.st, lane := h.lane, pos := h.pos, token := if r = 0 then some h.token else none, mu := (im.buckets.getD h.bucket {}).mu - 1, step := h.step, bucket := h.bucket
      spurPass := h.pass }

/-- Sends the slot states and descriptors to the cores of every region; the embedding region's have the lane-entry words of the spine with
them (R20, R28).  A tile's spine drop discards the words of another partition (R19). -/
def State.sendMask (s : State) (p : Nat) : State :=
  let im := s.img p
  let table := (s.part p).table
  let n := s.fresh
  ((List.range im.regions.length).foldl (fun s r =>
    let slots := (List.range 4).map (maskSlot im table n r)
    let own (g : Nat) : List Slot := if s.corePart g = some p then slots else slots.map (fun x => { x with token := none })
    ((im.regions.getD r {}).cores).foldl (fun s g => s.updCore g (fun c => { c with slots := own g })) s) s).free.2

/-- Swaps the input double-buffer halves of every slot that is not held (R43). -/
def State.swapInputs (s : State) (p : Nat) : State :=
  let im := s.img p
  let table := (s.part p).table
  (List.range im.regions.length).foldl (fun s r =>
    let kept (j : Nat) : Bool := table.any (fun h => h.region = r && h.slot = j && (h.held || h.widenNow))
    ((im.regions.getD r {}).cores).foldl (fun s g => s.updCore g (fun c => { c with
      readB1 := (List.range 4).map (fun j => xor (c.readB1.getD j false) (!kept j)) })) s) s

/-! ### Entry (R44, R247, R273, R283) -/

/-- A token that waits for an entry slot: its request, whether it is ELASTIC, its priority, prefill before decode, its order of
admission, lane, bucket, position, KIND and budget, whether it must take a delta slot, and whether it stands in a draft lane. -/
structure Cand where
  handle : Nat := 0
  elastic : Bool := false
  prio : Nat := 0
  late : Nat := 0
  order : Nat := 0
  lane : Nat := 0
  bucket : Nat := 0
  pos : Nat := 0
  kind : Nat := 0
  budget : Nat := 127
  variant : Bool := false
  deriving DecidableEq, Repr

/-- The rank of R247. -/
def Cand.before (a b : Cand) : Bool :=
  let ka := [b2n a.elastic, a.prio, a.late, a.order]
  let kb := [b2n b.elastic, b.prio, b.late, b.order]
  match (ka.zip kb).find? (fun e => e.1 ≠ e.2) with
  | some (x, y) => x < y
  | none => a.handle = b.handle && a.pos < b.pos

/-- The tokens that the summit stage has produced for a request and that are not yet final, with whether they end it. -/
def State.pendingOf (s : State) (p h : Nat) : List Result := (s.part p).results.filter (fun r => r.handle = h)

/-- The tokens of a request by position, with those that are not yet final. -/
def State.knownToks (s : State) (p h : Nat) : List Nat :=
  (s.req h).toks ++ ((s.pendingOf p h).filter (fun r => r.kind = 1)).map (·.value)

/-- The results that wait end the request. -/
def State.endsSoon (s : State) (p h : Nat) : Bool :=
  let l := s.pendingOf p h
  l.any (fun r => r.stop || r.kind = 4) || (s.req h).maxNew ≤ (s.req h).genCnt + (l.filter (fun r => r.kind = 1)).length

/-- A spur lane's held drafts that count beside t0 at position `v` (R273): from V + 1 on, when the guess for V is t0. -/
def Spur.usable (x : Spur) (v t0 : Nat) : Nat :=
  if x.draftLane.isSome && x.guess v = some t0 then
    ((List.range 8).find? (fun i => (x.guess (v + 1 + i)).isNone)).getD 8
  else 0

/-- The extra positions that the drafts of a decode token allow, before the free slots are counted (R273, R278). -/
def State.extrasFor (s : State) (p : Nat) (c : Cand) : Nat :=
  let r := s.req c.handle
  let x := s.spurOf p c.lane
  let im := s.img p
  let toks := s.knownToks p c.handle
  let n := x.usable c.pos (toks.getD c.pos 0)
  let kt := if x.kt = 0 && x.probe then 1 else x.kt
  let w := if c.variant then deltaSlots im else im.w
  let gen := r.genCnt + (toks.length - r.toks.length)
  if c.kind ≠ 0 || !r.spurOn || (s.draftOf p).isNone then 0 else min (min kt (w - 1)) (min n (r.maxNew - gen - 1))

/-- An ELASTIC spur lane waits for its drafts at this boundary (R273). -/
def State.defers (s : State) (p : Nat) (c : Cand) : Bool :=
  let x := s.spurOf p c.lane
  let t0 := (s.knownToks p c.handle).getD c.pos 0
  c.kind = 0 && c.elastic && (s.req c.handle).spurOn && (s.draftOf p).isSome && x.draftLane.isSome && 1 ≤ x.kt &&
    x.usable c.pos t0 < min x.kt ((s.img p).w - 1) && x.deferred < s.rd (.spur p) spur.SPUR_WAIT

/-- The waiting tokens of the requests of a partition at the boundary of tick `t`. -/
def State.waiting (s : State) (p t : Nat) : List Cand :=
  (s.reqsOf p (fun r => r.state.running && r.setupAt = 0 && r.notBefore ≤ t)).flatMap (fun (h, r) =>
    if (s.lane p r.lane).handle ≠ some h || !s.xfersDone p h then [] else
    let c : Cand := { handle := h, elastic := r.elastic, prio := r.prio, order := r.order, lane := r.lane, bucket := r.bucket
                      budget := if r.elastic then 127 else min r.allow 126, variant := r.variant ≠ 0 }
    if r.entered < r.toEnter then
      (List.range (min (r.toEnter - r.entered) 4)).map (fun i => { c with pos := r.startPos + r.entered + i, kind := 1 })
    else
      let toks := s.knownToks p h
      let fresh := (s.pendingOf p h).any (fun x => x.kind = 1) && !s.endsSoon p h
      if r.kind = 1 && !r.entryHeld && (r.ready || fresh) then [{ c with pos := toks.length - 1, late := 1 }] else [])

/-- The waiting tokens of a draft partition (R272). -/
def State.waitingDraft (s : State) (d : Nat) : List Cand :=
  (s.laneIds d).flatMap (fun l =>
    let x := s.lane d l
    match x.handle with
    | none => []
    | some h =>
      let r := s.req h
      let n := x.toks.length
      if x.idle then [] else
      match bucketOf (s.img d) r.lmax with
      | none => []
      | some b =>
        ((List.range (min (n - x.next) 4)).map (· + x.next)).filterMap (fun i =>
          if i + 1 = n && x.draftV + 2 * x.kd + 1 ≤ n - 1 then none
          else some { handle := h, elastic := r.elastic, prio := r.prio, order := r.order, lane := l, bucket := b, pos := i
                      late := b2n (decide (i + 1 = n)), kind := if i + 1 = n then 0 else 1 }))

/-- Places candidates in slots, in order; the slots that are left and what was placed. -/
def placeCands : List Nat → List Cand → List Nat × List (Nat × Cand)
  | sl, [] => (sl, [])
  | [], _ => ([], [])
  | j :: sl, c :: t => let (r, l) := placeCands sl t; (r, (j, c) :: l)

/-- The hold-table entry of a token that has been latched for a slot. -/
def Cand.hold (c : Cand) (t j : Nat) : Hold :=
  { lane := c.lane, slot := j, entry := t % 256, budget := c.budget, bucket := c.bucket, elastic := c.elastic, kind := c.kind
    pos := c.pos, handle := c.handle }

/-- A request's token has been latched for an entry slot: its first makes it PREFILL (R243). -/
def State.enterToken (s : State) (p : Nat) (c : Cand) : State :=
  if (s.mainOf p).isSome then s.updLane p c.lane (fun x => { x with next := x.next + 1 }) else
  s.updReq c.handle (fun r =>
    if c.kind = 1 then { r with entered := r.entered + 1, state := if r.state = .admitted then .prefill else r.state }
    else { r with entryHeld := !r.ready, ready := false })

/-- Adds the extra positions of one verification pass to the free slots (R273, R274); a probe places exactly one (R278). -/
def State.placeExtras (s : State) (p t : Nat) (a : List Nat × List Hold) (c : Cand) : State × List Nat × List Hold :=
  let (free, holds) := a
  let sl := if c.variant then free.filter (bit (s.img p).deltaMask) else free
  let k := min (s.extrasFor p c) sl.length
  if k = 0 then (s.updSpur p c.lane (fun x => { x with deferred := 0 }), free, holds) else
  let used := sl.take k
  let x := s.spurOf p c.lane
  let probe : Bool := x.kt = 0 && x.probe
  let new := (List.range k).map (fun i =>
    { c.hold t (used.getD i 0) with pos := c.pos + 1 + i, kind := 2, token := (x.guess (c.pos + 1 + i)).getD 0, pass := true, probe := probe
                                    q := x.prob (c.pos + 1 + i) })
  let holds := holds.map (fun h => if h.handle = c.handle ∧ h.pos = c.pos then { h with pass := true, probe := probe } else h)
  let s := s.updSpur p c.lane (fun x => { x with deferred := 0, probe := x.probe && !probe, probing := x.probing || probe })
  let s := if probe then s.inc (.spur p) spur.PROBE_CNT 1 else s
  (s.inc (.spur p) spur.PLACED_CNT k, free.filter (fun j => !used.contains j), holds ++ new)

/-- PACKER_FILL (R44, R247): the entry slots of tick `t`, while the hold table has room (R46, R53; log 77); none while the
partition is link-lost (R375). -/
def State.fill (s : State) (p t : Nat) : State :=
  let im := s.img p
  let pt := s.part p
  let stuck (j : Nat) : Bool := pt.entering.any (fun h => h.slot = j)
  let s := s.updPart p (fun x => { x with block := x.block.filterMap (fun e =>
    if stuck e.1 then some e else if e.2 ≤ 1 then none else some (e.1, e.2 - 1)) })
  let room := 512 - (pt.table.length + pt.entering.length)
  let free := ((List.range im.w).filter (fun j => !stuck j && Table.get 0 pt.block j = 0)).take room
  if s.pstate p ≠ 2 || s.linkLost p then s else
  let all := if (s.mainOf p).isSome then s.waitingDraft p else s.waiting p t
  let late := all.filter (s.defers p)
  let cands := sortBy Cand.before (all.filter (fun c => !s.defers p c))
  let s := late.foldl (fun s c => s.updSpur p c.lane (fun x => { x with deferred := x.deferred + 1 })) s
  let s := s.inc (.spur p) spur.SPUR_WAIT_TICKS late.length
  let b := match pt.entering, cands with
    | h :: _, _ => h.bucket
    | [], c :: _ => c.bucket
    | [], [] => 0
  let same := cands.filter (fun c => c.bucket = b)
  let (df, l1) := placeCands (free.filter (bit im.deltaMask)) (same.filter (·.variant))
  let rest := (List.range im.w).filter (fun j => free.contains j && (!bit im.deltaMask j || df.contains j))
  let (free2, l2) := placeCands rest (same.filter (fun c => !c.variant))
  let placed := sortBy (fun a b => a.2.before b.2) (l1 ++ l2)
  let left := cands.filter (fun c => !placed.any (fun e => e.2 = c))
  let (s, _, holds) := placed.foldl (fun (a : State × List Nat × List Hold) e =>
    let (s, f, hs) := a
    s.placeExtras p t (f, hs) e.2) (s, free2, placed.map (fun e => e.2.hold t e.1))
  let s := placed.foldl (fun s e => s.enterToken p e.2) s
  let k := bookedHolds im b
  let s := s.updPart p (fun x => { x with
    entering := x.entering ++ holds
    block := if k = 0 then x.block else holds.foldl (fun m h => Table.set 0 m h.slot k) x.block })
  let pg := Page.packer p
  let s := (s.inc pg packer.ENTRY_CNT holds.length).inc pg packer.ENTRY_WAIT_CNT left.length
  if left.any (fun c => !c.elastic) then s.err pg 1 else s

end Sys2Proof.Machine
end

