-- ==== Sys2Proof/Machine/Commit.lean ====
section
/-! DEFINITION. The end of a tick's body, the commit phase, the summit stage's results, and their release when a tick becomes final
(R28, R75, R98, R103, R124, R139, R144 to R146, R254 to R257, R275, R276, R291). -/

namespace Sys2Proof.Machine

/-! ### BODY_END (R75, R141) -/

/-- The end of the body at one core.  Every early flit of the tick that no WIN_OPEN has released is discarded with ADDR, whichever row of R141 held
it; one that is held for an IDLE window after the body's end stays in the buffer, where no WIN_OPEN and no body's end of another tick meets its stamp
(DESIGN CHOICE; log 97).  OVERRUN names the oldest command that is still queued
(DESIGN CHOICE; log 83). -/
def State.endBody (s : State) (p g : Nat) : State :=
  let c := s.core g
  if !c.alive || c.gated || s.roleOf g ≠ 0 then s else
  let stamp := (s.part p).tick % 256
  let stuck := c.wins.any (fun e => e.2.early.any (fun f => f.flit.stamp = stamp))
  let idx := match c.queue with
    | e :: _ => e.idx
    | [] => c.fetchIdx
  let s := if stuck then s.stepErr g .addr else s
  let s := if c.halted then s else s.stepErr g .overrun idx
  (s.updCore g (fun c => { c with
    queue := [], fetching := false
    wins := Table.mapVals {} (fun w => { w with early := w.early.filter (fun f => f.flit.stamp ≠ stamp) }) c.wins })).wr (.core g)
      core.QFILL 0

/-- BODY_END (R75, R141): after the last body cycle a program that has not halted is a step error, and commands and flits that are
still held are discarded. -/
def bodyEnd (s : State) (p : Nat) : State :=
  let pt := s.part p
  if pt.phase ≠ .running ∨ pt.bodyDone ∨ pt.cyc + 108 < s.periodOf p then s else
  ((s.usedCores p).foldl (fun s g => s.endBody p g) s).updPart p (fun x => { x with bodyDone := true })

/-! ### The reports of the cores (R28, R98, R103, R139, R144, R145) -/

/-- Checks a window: whether it is short, and whether it is over count (R139). -/
def Window.check (w : Window) : Bool × Bool := (w.count < w.expect, w.expect < w.count)

/-- A failing cause of the tick that is being decided (R57). -/
def State.failWith (s : State) (p code : Nat) : State := s.updPart p (fun x => { x with failCode := max x.failCode code })

/-- Adds a core's counts of the tick to its tile's counters (R103, R133, R285). -/
def State.addCounts (s : State) (t : Nat) (n : Counts) : State :=
  let s := [(tileGlb.CLAMP_HI_CNT, n.clampHi), (tileGlb.CLAMP_LO_CNT, n.clampLo), (tileGlb.CLIP_CNT, n.clip),
    (tileGlb.WIDEN_MARK_CNT, n.widenMark), (tileGlb.NAN_IN_CNT, n.nanIn), (tileGlb.NAN_OUT_CNT, n.nanOut),
    (tileGlb.OUT_SAT_CNT, n.outSat), (tileGlb.KV_APPEND_CNT, n.kvAppend), (tileGlb.KV_REWRITE_CNT, n.kvRewrite),
    (tileGlb.KV_SAT_CNT, n.kvSat), (tileGlb.KV_ADDR_ERR_CNT, n.kvAddrErr), (tileGlb.LSE_NAN_CNT, n.lseNan),
    (tileGlb.DELTA_FMT_CNT, n.deltaFmt)].foldl (fun s e => if e.2 = 0 then s else s.inc (.tileGlb t) e.1 e.2) s
  let s := if n.clampHi + n.clampLo = 0 then s else s.err (.tileGlb t) 2
  if n.kvAddrErr = 0 then s else s.err (.tileGlb t) 3

/-- Checks and seals the windows that `f` selects, at core `g` (R139). -/
def State.sealWindows (s : State) (p g : Nat) (f : Nat → Window → Bool) (newSt : WinState) : State :=
  let l := (s.core g).wins.filter (fun e => f e.1 e.2)
  let s := if l.any (fun e => e.2.check.1) then s.failWith p 1 else s
  let s := if l.any (fun e => e.2.check.2) then s.failWith p 2 else s
  s.updCore g (fun c => { c with wins := l.foldl (fun t e => Table.upd {} t e.1 (fun w => { w with state := newSt })) c.wins })

/-- A step error's report: its registers, its cause, and the declarations of R291. -/
def State.reportErr (s : State) (p g : Nat) (e : StepErr) : State :=
  let pg := Page.core g
  let s := (((s.wr pg core.STEP_ERR e.code).wr pg core.ERR_CMD e.cmd).wr pg core.ERR_CYCLE e.cycle).wr pg core.ERR_TICK8 e.tick8
  let s := (s.failWith p (if e.code = 9 then 4 else 5)).err (.coreWin (tileOf g)) 0
  if e.code = 6 ∨ e.code = 7 then s.updPart p (fun x => { x with lateRep := x.lateRep ++ [(g, e.tick8)] })
  else if e.code = 8 then s.declare p g 5 5 else s

/-- A step error that has not gone up the status tree yet. -/
def Core.unsent (c : Core) : Bool := c.alive && !c.gated && (c.err.map (·.sent)) = some false

/-- The commit report of one core.  Its counts are those since its last report, those of a tick that was abandoned in between among them (R103;
log 67). -/
def State.commitCore (s : State) (p g : Nat) : State :=
  let c := s.core g
  if c.gated then s else
  if !c.alive then s.updPart p (fun x => { x with missing := x.missing ++ [g] }) else
  let s := s.sealWindows p g (fun i w => w.state = .closed || (w.state = .opened && bit c.commitSets (i / 8))) .sealed
  let s := if c.sems = [] then s else s.inc (.core g) core.SEM_RESIDUE_CNT c.sems.length
  let s := (s.addCounts (tileOf g) c.cnt).updCore g (fun c => { c with sems := [], cnt := {}, err := c.err.map (fun e => { e with sent := true }) })
  match c.err with
  | some e => s.reportErr p g e
  | none => s

/-- The merges with a NaN maximum that the routers of the partition counted at positions whose core reports nothing: parity, spare and
unused cores, and dead ones (R119, R133, R166). -/
def State.routerCounts (s : State) (p : Nat) : State :=
  (s.partCores p).foldl (fun s g =>
    let n := (s.core g).cnt.lseNan
    if n = 0 then s else
    (s.inc (.tileGlb (tileOf g)) tileGlb.LSE_NAN_CNT n).updCore g (fun c => { c with cnt := { c.cnt with lseNan := 0 } })) s

/-- An XOR delta of the partition's crags is in flight (R125). -/
def State.deltaInFlight (s : State) (p : Nat) : Bool :=
  (s.part p).tiles.any (fun t => (List.range 16).any (fun i => (s.crag (t * 16 + i)).deltas ≠ []))

/-- ERR_CORE and ERR_CORES of the tiles in which cores report a step error (R462): the first by its cycle, then by its number. -/
def State.showErrs (s : State) (gs : List Nat) : State :=
  let l := gs.filterMap (fun g => let c := s.core g; if c.gated || !c.alive then none else c.err.map (fun e => (g, e.cycle)))
  (addSet [] (l.map (fun e => tileOf e.1))).foldl (fun s t =>
    let m := sortBy (fun a b => decide (a.2 < b.2 ∨ (a.2 = b.2 ∧ a.1 < b.1))) (l.filter (fun e => tileOf e.1 = t))
    (s.wr (.coreWin t) coreWin.ERR_CORE ((m.headD (0, 0)).1 % 256)).wr (.coreWin t) coreWin.ERR_CORES m.length) s

/-- The marks of a region's cores reach the packer (R98). -/
def State.gatherMarks (s : State) (p : Nat) : State :=
  let im := s.img p
  let marked (r j : Nat) : Bool := ((im.regions.getD r {}).cores).any (fun g => ((s.core g).slots.getD j {}).marked)
  s.updPart p (fun x => { x with table := x.table.map (fun h => { h with mark := marked h.region h.slot }) })

/-! ### The summit stage (R255, R275) -/

/-- A token with the log-probability that its distribution gives it. -/
def withLogp (sm : Sampling) (ls : List F32) (t : Nat) : Nat × F32 := (t, logProb ls sm.temp t)

/-- The acceptance test of a draft token for position `n`: u × q < p (R275). -/
def accepts (sm : Sampling) (ls : List F32) (n d : Nat) (q : F32) : Bool :=
  if sm.temp = 0 then (ranked ls).head? = some d
  else
    let (num, den) := keptProb sm ls d
    FV.lt (FV.mul (FV.mul (.fin false (draw sm.seed n 1) (-32)) (f32Val den)) (f32Val q)) (f32Val num)

/-- The token drawn after a rejection: from the kept distribution without the draft (R275). -/
def correction (sm : Sampling) (ls : List F32) (n d : Nat) : Option Nat :=
  if sm.temp = 0 then (ranked ls).head?
  else
    let k := (kept sm ls).filter (fun e => e.1 ≠ d)
    chooseBy (draw sm.seed n 0) (keptSum k) 0 k

/-- The tokens of a pass for positions `n` onward: the drafts that are accepted, then a correction or the bonus token; none where every
logit is −∞. -/
def passTokens (sm : Sampling) : Nat → List (Nat × F32) → List (List F32) → List (Option (Nat × F32))
  | n, [], ls :: _ => [(sampleToken sm ls n 0).map (withLogp sm ls)]
  | n, (d, q) :: ds, ls :: rest =>
    if accepts sm ls n d q then some (withLogp sm ls d) :: passTokens sm (n + 1) ds rest
    else [(correction sm ls n d).map (withLogp sm ls)]
  | _, _, [] => []

/-- Keeps tokens up to the first that ends the request (R256, R275): a STOP match, the last of `n`, or an empty distribution. -/
def cutTokens (stops : List Nat) : Nat → List (Option (Nat × F32)) → List (Option (Nat × F32))
  | 0, _ => []
  | _, [] => []
  | _, none :: _ => [none]
  | n + 1, some (t, l) :: rest => some (t, l) :: (if stops.contains t then [] else cutTokens stops n rest)

/-- A token of the last region that leaves it in this tick. -/
def Hold.atSummit (im : Loaded) (h : Hold) : Bool :=
  h.region + 1 = im.regions.length && h.st ≠ .stall && h.booked = 0 && !h.removed

/-- The results for one token of a request at the summit, from the logits (or the final norm's output, for EMBED) of its slot.  A SCORE request
without a continuation has its result once its last position has passed (R244). -/
def State.resultsFor (s : State) (p : Nat) (logits : List (Nat × List F32)) (h : Hold) : List Result :=
  let r := s.req h.handle
  let at' (j : Nat) : Option (List F32) := (logits.find? (fun e => e.1 = j)).map (·.2)
  let base : Result := { handle := h.handle, lane := h.lane, pos := h.pos, probe := h.probe }
  match at' h.slot with
  | none => []
  | some raw =>
    let ls := maskLogits r.mask raw
    match r.kind with
    | 1 =>
      if h.pos + 1 ≠ r.toks.length then [] else
      let ex := sortBy (fun a b => decide (a.pos < b.pos)) ((s.part p).table.filter (fun x =>
        x.isExtra && x.lane = h.lane && x.entry = h.entry && x.handle = h.handle && x.atSummit (s.img p)))
      let ds := ex.map (fun x => (x.token, x.q))
      let l := cutTokens r.samp.stops (r.maxNew - r.genCnt)
        (passTokens r.samp (h.pos + 1) ds (ls :: ex.map (fun x => maskLogits r.mask ((at' x.slot).getD []))))
      (List.range l.length).map (fun i =>
        match l.getD i none with
        | none => { base with kind := 4, pos := h.pos + i, ke := ex.length }
        | some (t, lp) => { base with kind := 1, pos := h.pos + i, value := t, logp := lp, stop := r.samp.stops.contains t, ke := ex.length })
    | 2 =>
      if r.contLen = 0 ∧ h.pos + 1 = r.toks.length then [{ base with kind := 2 }] else
      if h.pos + 1 < r.promptLen ∨ r.toks.length ≤ h.pos + 1 then [] else
      if ranked ls = [] then [{ base with kind := 4 }] else
      let t := r.toks.getD (h.pos + 1) 0
      [{ base with kind := 2, value := t, logp := if ls.getD t negInf = negInf then negInf else logProb ls 0 t }]
    | 3 =>
      if r.poolMean then [{ base with kind := 5, vals := raw }]
      else if h.pos + 1 = r.toks.length then [{ base with kind := 3, vals := raw }] else []
    | _ => []

/-- The result for one token of a draft lane (R272): a token drawn in role 2, and its probability. -/
def State.resultDraft (s : State) (d : Nat) (logits : List (Nat × List F32)) (h : Hold) : List Result :=
  let r := s.req h.handle
  match logits.find? (fun e => e.1 = h.slot) with
  | none => []
  | some (_, raw) =>
    if h.pos + 1 ≠ (s.lane d h.lane).toks.length then [] else
    let ls := maskLogits r.mask raw
    match sampleToken r.samp ls (h.pos + 1) 2 with
    | none => []
    | some t => [{ handle := h.handle, kind := 1, lane := h.lane, pos := h.pos, value := t, logp := draftProb r.samp ls t }]

/-- The summit stage's results of the tick; a result that a SEND_SPINE word of the tick brought stands (R257). -/
def State.summit (s : State) (p : Nat) (logits : List (Nat × List F32)) : State :=
  let im := s.img p
  let l := sortBy (fun a b => decide (a.pos < b.pos)) ((s.part p).table.filter (fun h => h.atSummit im && !h.isExtra &&
    (s.part p).results.all (fun r => r.handle ≠ h.handle || r.pos ≠ h.pos)))
  let one (h : Hold) : List Result := if (s.mainOf p).isSome then s.resultDraft p logits h else s.resultsFor p logits h
  s.updPart p (fun x => { x with results := x.results ++ l.flatMap one })

/-- A rail excursion fails the tick that commits next (R349). -/
def State.takeRmbErrs (s : State) (p : Nat) : State :=
  if (s.part p).rmbErrs = [] then s else (s.failWith p 5).updPart p (fun x => { x with rmbErrs := [] })

/-- COMMIT_PHASE (R28), which waits while a delta is in flight (R125): reports, window checks, semaphores, marks, and the results of the summit stage, whose logits by slot come from
outside the model.  The report of a core that `lost` names does not reach the generator, its alive signal up or not (R291). -/
def commitPhase (s : State) (p : Nat) (logits : List (Nat × List F32)) (lost : List Nat) : State :=
  let pt := s.part p
  if pt.phase ≠ .running ∨ !pt.bodyDone ∨ pt.commitDone ∨ s.deltaInFlight p then s else
  let s := s.takeRmbErrs p
  let heard := (s.usedCores p).filter (fun g => !lost.contains g)
  let s := s.updPart p (fun x => { x with missing := x.missing ++ ((s.usedCores p).filter (fun g => lost.contains g && !(s.core g).gated)) })
  let s := (heard.foldl (fun s g => s.commitCore p g) (s.showErrs heard)).routerCounts p
  let s := (s.gatherMarks p).summit p logits
  s.updPart p (fun x => { x with commitDone := true, toDecide := true })

/-! ### What a passed tick releases (R124, R241, R243, R257, R276) -/

/-- KV_COMMIT_POINTER_UPDATE (R124): the proposals of a core take effect; a WP that exceeds the new CP is set to it. -/
def State.commitPtrs (s : State) (g : Nat) : State :=
  let s := (s.core g).props.foldl (fun s x =>
    match x.cp with
    | none => s
    | some v =>
      let d := ((s.core g).binds.getD x.bind {}).dir
      let s := s.memWrite g (dirEntry d x.lane + 8) (leBytes 4 v)
      if v < dirWp (s.core g) d x.lane then s.memWrite g (dirEntry d x.lane + 4) (leBytes 4 v) else s) s
  s.updCore g (fun c => { c with props := [] })

/-- A request's last result is final in tick `t`: OK, or LATE beyond its deadline (R36, R243). -/
def doneStatus (r : Request) (t : Nat) : Nat := if isPast r.deadline t then 1 else 0

/-- A request ends: the tokens it still had at the entry go with it, and KEEP pauses a GENERATE request (R243, R244). -/
def State.endRequest (s : State) (p h status : Nat) : State :=
  let s := s.updPart p (fun x => { x with entering := x.entering.filter (fun e => e.handle ≠ h) })
  if (s.req h).keep && (s.req h).kind = 1 && status ≤ 1 then s.finishKeep p h status else s.finish p h status

/-- A preemption victim whose work ends in the tick in which it was chosen (R262): PAUSED with its export to come, or QUEUED. -/
def Request.victim (r : Request) : Bool := (r.state = .paused && r.auto && r.toExport) || r.state = .queued

/-- The bytes of a GENERATE record (R241). -/
def genRecord (r : Request) (t : Nat) (lp : F32) : List Byte := leBytes 4 t ++ leBytes 4 (if r.retLogp then lp.toNat else 0)

/-- The tokens of one pass of a GENERATE request, final in tick `t` (R241, R243, R276). -/
def State.releaseTokens (s : State) (p h t : Nat) (l : List Result) : State :=
  let r := s.req h
  let toks := l.filter (fun x => x.kind = 1)
  let s := toks.foldl (fun s x => (s.queueRec p h (genRecord r x.value x.logp)).updReq h (fun r => { r with
    toks := r.toks ++ [x.value], recs := r.recs ++ [(x.value, x.logp)], genCnt := r.genCnt + 1 })) s
  let q := s.req h
  let v := r.toks.length - 1 + toks.length
  let ke := (l.head?.map (·.ke)).getD 0
  let s := if r.spurOn && (s.draftOf p).isSome && toks ≠ [] then s.writePtrs p r.lane v true else s
  let held := q.entryHeld
  let s := s.updReq h (fun r => { r with
    state := if r.state = .prefill then .decode else r.state
    ready := r.state.running && !held, entryHeld := false
    startPos := if r.state = .paused then r.toks.length - 1 else r.startPos })
  let live : Bool := r.state.running || r.victim
  if l.any (fun x => x.kind = 4) then (if live then s.endRequest p h 3 else s)
  else if live && (toks.any (·.stop) || r.maxNew ≤ q.genCnt) then s.endRequest p h (doneStatus r t)
  else if !r.state.running || toks = [] then s
  else s.spurVerdict p r.lane h v ke (toks.length - 1) ((toks.getLast?.map (·.value)).getD 0) ((l.head?.map (·.probe)).getD false)

/-- A continuation token's log-probability of a SCORE request (R244, R241). -/
def State.releaseScore (s : State) (p h t : Nat) (x : Result) : State :=
  let s := if (s.req h).contLen = 0 then s else
    s.updReq h (fun r => { r with recs := r.recs ++ [(x.value, x.logp)], logpSum := fadd r.logpSum x.logp })
  let r := s.req h
  if r.recs.length < r.contLen then s else
  let s := s.queueRec p h (leBytes 4 r.logpSum.toNat ++ leBytes 4 r.contLen)
  let s := if r.perToken then r.recs.foldl (fun s e => s.queueRec p h (leBytes 4 e.1 ++ leBytes 4 e.2.toNat)) s else s
  s.endRequest p h (doneStatus r t)

/-- The pooled state of an EMBED request (R241, R244): the last position's, or the mean over all positions, summed in position order and divided
by their number (log 24). -/
def State.releaseEmbed (s : State) (p h t : Nat) (x : Result) : State :=
  let r := s.req h
  let pool := if r.pool = [] then x.vals else (r.pool.zip x.vals).map (fun e => fadd e.1 e.2)
  let n := r.toks.length
  let out := if x.kind = 5 then pool.map (fun v => fquot v (toF32 (.fin false n 0))) else x.vals
  let s := if x.kind = 5 then s.updReq h (fun r => { r with pool := pool }) else s
  if x.kind = 5 ∧ x.pos + 1 ≠ n then s
  else (s.queueRec p h (out.flatMap (fun v => leBytes 4 v.toNat))).endRequest p h (doneStatus r t)

/-- The results that wait end a request that was preempted out of its prefill in this tick (R262). -/
def Request.endsWith (r : Request) (l : List Result) : Bool :=
  l.any (fun x => x.kind = 4 || x.stop) ||
    (match r.kind with
      | 1 => decide (r.maxNew ≤ r.genCnt + l.length)
      | 2 => decide (r.contLen ≤ r.recs.length + l.length)
      | _ => l.any (fun x => x.pos + 1 = r.toks.length))

/-- RESULT_RELEASE of one request (R257). -/
def State.releaseFor (s : State) (p h t : Nat) : State :=
  let l := sortBy (fun a b => decide (a.pos < b.pos)) ((s.part p).results.filter (fun r => r.handle = h))
  let r := s.req h
  if r.part ≠ p ∨ l = [] ∨ !(r.state.running || (r.state = .paused && r.toExport) || (r.state = .queued && r.endsWith l)) then s else
  let on (s : State) : Bool := (s.req h).state.running || (s.req h).state = r.state
  match r.kind with
  | 1 => s.releaseTokens p h t l
  | 2 => l.foldl (fun s x => if !on s then s else if x.kind = 4 then s.endRequest p h 3 else s.releaseScore p h t x) s
  | _ => l.foldl (fun s x => if !on s then s else s.releaseEmbed p h t x) s

/-- RESULT_RELEASE (R257): the results of tick `t`, in the order of admission; a draft partition's tokens go to the coordinator. -/
def State.releaseResults (s : State) (p t : Nat) : State :=
  let l := (s.part p).results
  let s := if (s.mainOf p).isSome then
      l.foldl (fun s x =>
        if (s.lane p x.lane).handle ≠ some x.handle ∨ (s.lane p x.lane).toks.length ≠ x.pos + 1 then s else
        (s.updLane p x.lane (fun y => { y with toks := y.toks ++ [x.value] })).sendSpur p x.lane (x.pos + 1) x.value x.logp) s
    else
      let hs := sortBy (fun a b => decide ((s.req a).order < (s.req b).order)) (addSet [] (l.map (·.handle)))
      hs.foldl (fun s h => s.releaseFor p h t) s
  s.updPart p (fun x => { x with results := [] })

/-- BODY_END. -/
def execBodyEnd (p : Nat) (s : State) : Out := .next (bodyEnd s p)
/-- COMMIT_PHASE. -/
def execCommitPhase (p : Nat) (logits : List (Nat × List F32)) (lost : List Nat) (s : State) : Out := .next (commitPhase s p logits lost)

end Sys2Proof.Machine
end

