-- ==== Sys2Proof/Machine/Tick.lean ====
section
/-! DEFINITION. The tick generator: finality, boundaries, replays, the late-source table and the generator's registers (R25 to R45, R57,
R146, R193, R291, R295, R300, R307, R312). -/

namespace Sys2Proof.Machine

/-! ### Boundaries (R29, R35, R38, R39, R41) -/

/-- The stretch that a boundary applies (R38, R39). -/
def State.stretchNow (s : State) (p : Nat) : Nat :=
  min 64 (min (s.rd (.tickgen p) tickgen.STRETCH_REQ) (s.rd (.tickgen p) tickgen.STRETCH_CEIL_EFF))

/-- What a core takes up at a boundary: fetch starts at PROG_BASE, units are idle, the array unit is in tree mode, the page-map cache is
empty, windows of the last tick may be opened again, a semaphore holds its pending signals alone, and of the appends in assembly those of the
last tick, with stamp `old`, stay for grace arrivals (R67, R73, R122, R136, R144, R163).  A signal of the last tick that came after the reset at
P − 108 is not carried over (DESIGN CHOICE; log 87). -/
def Core.atBoundary (c : Core) (run : Bool) (old : Nat) : Core :=
  { c with
    queue := [], fetchIdx := 0, fetching := run, issuedAt := none, arrayFree := 0, attFree := 0, wideFree := 0, portFree := 0
    slots := [{}, {}, {}, {}], send := none, outFlits := [], inj := [], quiet := [], commitSets := 0, halted := false
    err := none, late := none, skew := false, cache := [], cacheCnt := 0
    appends := c.appends.filter (fun d => d.stamp = old)
    sems := c.semPend
    semPend := [], wins := Table.mapVals {} (fun w => { w with openedIn := false }) c.wins }

/-- The boundary at one core. -/
def State.coreBoundary (s : State) (g : Nat) : State :=
  let c := s.core g
  let run : Bool := c.alive && !c.gated && s.roleOf g = 0
  let s := s.updCore g (fun c => c.atBoundary run ((s.tickOf g + 255) % 256))
  (((s.wr (.core g) core.SEQ_STATE (b2n run)).wr (.core g) core.QFILL 0).wr (.core g) core.PC_IDX 0)

/-- MEM_CHANNEL_FAILED_STATE (R193) at the sites of a partition, with the record of each channel, and for one that fails a tick what R318 shows
of its hold (R290, R294). -/
def State.siteBoundary (s : State) (p m : Nat) : State :=
  let failing := (List.range 32).filter (fun ch => (s.chan m ch).failNext)
  let cut := (s.site m).siteErr.isSome
  let s := (s.failChannels m).expireLost p
  let s := s.updSite m (fun x => { x with chans := Table.mapVals {} (fun c => { c with started := [], buffer := [] }) x.chans })
  let pt := s.part p
  let len := tickLen (s.periodOf p) pt.stretch
  let s := if cut ∧ failing ≠ [] then s.noteHold p 3 640 (652 + len) else s
  failing.foldl (fun s ch => s.record { cls := 3, path := 7, part := p, outcome := if cut then 0 else 2, loc := m, unit := ch
                                        tick := pt.tick, hold := if cut then 640 else 0
                                        intr := if cut then 652 + len else 0 } [(3, m * 32 + ch, 1)] [p]) s

/-- The step errors that arose after the commit reports of the tick reach the generator before its finality, which they so fail (R75, R32;
log 88). -/
def State.gatherErrs (s : State) (p : Nat) : State :=
  let gs := (s.usedCores p).filter (fun g => (s.core g).unsent)
  let s := if gs = [] then s else s.showErrs gs
  gs.foldl (fun s g => match (s.core g).err with
    | some e => (s.updCore g (fun c => { c with err := some { e with sent := true } })).reportErr p g e
    | none => s) s

/-- The first late flit of the tick at each core goes up the status tree with its source and stamp (R145), and with it what is left of its
step errors. -/
def State.gatherLate (s : State) (p : Nat) : State :=
  let l := (s.usedCores p).filterMap (fun g => if (s.core g).alive && !(s.core g).gated then (s.core g).late else none)
  let s := s.updPart p (fun x => { x with lateRep := x.lateRep ++ l })
  ((s.usedCores p).foldl (fun s g => s.updCore g (fun c => { c with late := none })) s).gatherErrs p

/-- What a router forgets at a boundary: the routes displaced in the tick, and the reduction contexts with their operands (R158, R166;
log 66). -/
def Router.atBoundary (r : Router) : Router := { r with dispRoutes := [], red := [], redCtx := [] }

/-- The ceiling that a boundary puts into force where it is lower (R41): STRETCH_CEIL, or a lower one under which a GUARANTEED request
was admitted that still runs. -/
def State.ceilLow (s : State) (p : Nat) : Nat :=
  (s.reqsOf p (fun r => !r.elastic && r.state.running)).foldl (fun k e => min k e.2.ceil) (s.rd (.tickgen p) tickgen.STRETCH_CEIL)

/-- Begins tick `n` of a partition, with the boundary skew observed: the counter, the stretch, the cores, sites and rail monitors.  A replay tick
runs at the previous stretch, since the latch of a new one is at the end of a tick (R35, R334). -/
def State.openTick (s : State) (p n skew : Nat) (replay : Bool) : State :=
  let pg := Page.tickgen p
  let ceil := s.ceilLow p
  let s := if ceil < s.rd pg tickgen.STRETCH_CEIL_EFF then s.wr pg tickgen.STRETCH_CEIL_EFF ceil else s
  let s := if s.rd pg tickgen.STRETCH_CEIL_EFF < s.rd pg tickgen.STRETCH_REQ then s.err pg 3 else s
  let k := if replay then (s.part p).stretch else s.stretchNow p
  let s := if replay then s else s.gatherLate p
  let s := s.updPart p (fun x => { x with
    tick := n % 2 ^ 48, cyc := 0, wall := 0, stretch := k, phase := .running, wasReplay := x.replay, replay := replay, roleKeep := [], commitDone := false, bodyDone := false
    finalDone := false, deadCause := 0, holdReq := false, clean := false, lenSum := x.lenSum + tickLen (s.periodOf p) k, lenN := x.lenN + 1 })
  let s := ((s.wr pg tickgen.STRETCH k).wr pg tickgen.LEN (tickLen (s.periodOf p) k)).setFlag pg
    tickgen.REPLAY replay
  let s := (s.setFlag pg tickgen.HOLD false).raise pg tickgen.SKEW_MAX (min skew 15)
  let s := if 6 < skew then s.err pg 4 else s
  let s := (s.usedCores p).foldl State.coreBoundary s
  let s := (s.partCores p).foldl (fun s g => if s.router g = {} then s else s.updRouter g Router.atBoundary) s
  let s := (List.range 16).foldl (fun s m => if s.sitePart m = some p then s.siteBoundary p m else s) s
  s.tickStarts p

/-- A restore that has not ended when its term is over (R248, R265). -/
def State.restoreSlow (s : State) (p n : Nat) : State :=
  if (s.reqsOf p (fun r => !r.elastic && r.state.running && r.scree ≠ [] && r.notBefore = n)).any (fun e => !s.xfersDone p e.1)
  then s.err (.adm p) 3 else s

/-- The packer's latch at a boundary (R35, R44): the words of the spur channel take effect (R271), removed positions leave the table, the entry
slots are filled, and the hold table reads as it then stands. -/
def State.latch (s : State) (p n : Nat) : State :=
  let s := (s.takeWords p).restoreSlow p n
  let s := s.updPart p (fun x => { x with
    table := x.table.filter (fun h => !h.removed), entering := x.entering.filter (fun h => !h.removed) })
  let s := s.fill p n
  s.updPart p (fun x => { x with latched := holdTable (s.img p) x.table x.entering })

/-- The hold of a repair cut (R306). -/
def cutHold : Nat := 47734

/-- TICK_BOUNDARY (R29): the next tick begins, unless the boundary is held: for a heat fence (R312), a repair cut (R306) or a saddle
swap (R300).  Inputs that arrive while it is held are latched at its release (DESIGN CHOICE; log 89). -/
def tickBoundary (s : State) (p skew : Nat) : State :=
  let pt := s.part p
  let hold (n : Nat) : State := (s.updPart p (fun x => { x with
    phase := .boundaryHold n, holdReq := s.cutDue p && pt.haltAt.isNone, holdStart := pt.wall })).setFlag (.tickgen p) tickgen.HOLD true
  match pt.phase with
  | .running =>
    if !pt.commitDone || pt.wall < tickLen (s.periodOf p) pt.stretch then s
    else if pt.haltAt.isSome then hold 12
    else if s.cutDue p then hold cutHold
    else if pt.swapPend ≠ [] then hold 128
    else (s.latch p (pt.tick + 1)).openTick p (pt.tick + 1) skew false
  | .boundaryHold 0 =>
    if pt.deadNow ≠ [] then s.startHold p
    else if pt.haltAt.isSome || (pt.holdReq && (s.cutDue p || pt.toDecide)) || pt.swapPend ≠ [] then s
    else (s.latch p (pt.tick + 1)).openTick p (pt.tick + 1) skew false
  | _ => s

/-! ### Replays (R33, R34, R295, R307) -/

/-- The end of a fault hold: the spares stand in for the dead cores, and the event is recorded (R295 to R297, R313). -/
def State.leaveHold (s : State) (p : Nat) : State :=
  let pt := s.part p
  let hold := (pt.wall - pt.holdStart) + (if pt.deadNow = [] then 6000 else 0)
  let intr := hold + pt.lag
  let s := pt.deadNow.foldl (fun s e => s.standIn p e.1) s
  let s := pt.deadNow.foldl (fun s e => s.record { cls := 1, path := e.2, part := p, loc := tileOf e.1, unit := e.1 % 256
                                                   tick := pt.tick, hold := hold, intr := intr } [(1, e.1, 1)] [p]) s
  (s.noteHold p (if pt.deadNow = [] then 5 else 1) hold intr).updPart p (fun x => { x with deadNow := [] })

/-- A replay costs each GUARANTEED request two ticks; WORST allows for the first alone, and each further one lowers SLACK_MIN of its priority
(R248, R251; DEDUCED; log 95). -/
def State.chargeReplay (s : State) (p : Nat) : State :=
  let l := s.reqsOf p (fun r => !r.elastic && r.state.running)
  let s := l.foldl (fun s e => s.updReq e.1 (fun r => { r with replays := r.replays + 1 })) s
  (List.range 8).foldl (fun s q =>
    if l.any (fun e => e.2.prio = q && 1 ≤ e.2.replays) then s.setSlack p q (s.slackMin p q - 2) else s) s

/-- The crags of the dead cores have no delta in flight (R295 step 3). -/
def State.busIdle (s : State) (p : Nat) : Bool := (s.part p).deadNow.all (fun e => (s.crag (cragOf e.1)).deltas = [])

/-- REPLAY_BOUNDARY (R33, R295): after the drain or the fault hold, the schedule of the oldest tick that has not passed runs again, with the
local stores lost (R60); after a hold that began in a held boundary whose tick had passed, that is the next tick, which runs for the first time
(log 85).  `ue` says that the rebuild met an uncorrectable error (R296). -/
def replayBoundary (s : State) (p : Nat) (ue : Bool) : State :=
  let pt := s.part p
  let pg := Page.tickgen p
  let again (s : State) : State := ((((s.chargeReplay p).loseStores p).openTick p (pt.tick + 1) 0 true).inc pg tickgen.REPLAY_CNT 1).err pg 1
  let next (s : State) : State := if pt.clean then (s.latch p (pt.tick + 1)).openTick p (pt.tick + 1) 0 false else again s
  match pt.phase with
  | .drain 0 =>
    if pt.deadNow ≠ [] then s.startHold p
    else if pt.haltAt.isSome then s.halt p 14 10 (pt.haltAt.getD 0) 0 [] else again s
  | .fault 0 =>
    if !s.busIdle p then s
    else if ue && pt.deadNow ≠ [] then
      let g := (pt.deadNow.map (·.1)).headD 0
      s.doubleHalt p (cragOf g) 5 g
    else if pt.haltAt.isSome then s.halt p 14 10 (pt.haltAt.getD 0) 0 []
    else next (s.leaveHold p)
  | _ => s

/-! ### Finality (R32, R43, R139, R146, R252, R291) -/

/-- LATE_SOURCE_REPORT (R146): one report about a source in tick `t`. -/
def State.lateReport (s : State) (p t : Nat) (src : Nat) : State :=
  let pg := Page.tickgen p
  let s := s.updPart p (fun x => { x with lateTbl := x.lateTbl.filter (fun e => decide (t ≤ e.2 + 1000)) })
  let tbl := (s.part p).lateTbl
  let s :=
    if tbl.any (fun e => e.1 = src) then s.declare p src 6 3
    else if tbl.length < 16 then s.updPart p (fun x => { x with lateTbl := x.lateTbl ++ [(src, t)] })
    else
      let old := (sortBy (fun a b => decide (a.2 < b.2)) tbl).head?
      (s.updPart p (fun x => { x with lateTbl := x.lateTbl.filter (fun e => some e ≠ old) ++ [(src, t)] })).setFlag pg
        tickgen.LATE_TBL_OVF true
  s.wr pg tickgen.LATE_TBL_USED (s.part p).lateTbl.length

/-- The windows of tick `t` that are still open are sealed and checked (R139). -/
def State.sealOpen (s : State) (p t : Nat) : State :=
  (s.usedCores p).foldl (fun s g =>
    if !(s.core g).alive || (s.core g).gated then s
    else s.sealWindows p g (fun _ w => w.state = .opened && w.stamp = t % 256) .sealed) s

/-- Every SEALED window returns to IDLE (R139); BASE, LEN, EXPECT, COUNT and STAMP go to 0 with it (DESIGN CHOICE; log 97). -/
def State.idleWindows (s : State) (p : Nat) : State :=
  (s.usedCores p).foldl (fun s g => s.updCore g (fun c => { c with
    wins := (c.wins.filter (fun e => e.2.state = .sealed)).foldl (fun t e =>
      Table.upd {} t e.1 (fun w => ({ early := w.early } : Window))) c.wins })) s

/-- A core whose commit report is missing is declared dead (R291). -/
def State.missingDead (s : State) (p : Nat) : State :=
  let l := (s.part p).missing
  let s := if l = [] then s else s.failWith p 6
  l.foldl (fun s g => s.addDead p g 6 2) s

/-- The sites' step errors of the tick, and the class with which they halt: HOT_FAIL, or a read of what is lost (R191, R193, R202, R308). -/
def State.siteVerdict (s : State) (p : Nat) : State × Option (Nat × Nat) :=
  let ms := (List.range 16).filter (fun m => s.sitePart m = some p)
  let bad := ms.filter (fun m => (s.site m).siteErr.isSome)
  let hot := ms.find? (fun m => s.flag (.msite m) msite.HOT_FAIL)
  let lost := bad.find? (fun m => (s.site m).siteErr = some 2)
  let s := if bad = [] && hot.isNone then s else s.failWith p 5
  let s := ms.foldl (fun s m => s.updSite m (fun x => { x with siteErr := none })) s
  (s, match hot, lost with
    | some m, _ => some (15, m)
    | none, some m => some (12, m)
    | none, none => none)

/-- The tick that is being decided ran as a replay: the last one while the next runs, this one in a held boundary (R34). -/
def State.decidesReplay (s : State) (p : Nat) : Bool :=
  if (s.part p).phase = .running then (s.part p).wasReplay else (s.part p).replay

/-- A tick has failed (R33, R34, R57): halted where it was a replay or where a site demands it, else abandoned and drained, unless a fault
hold takes its place. -/
def State.tickFails (s : State) (p code : Nat) (cls : Option (Nat × Nat)) : State :=
  let pg := Page.tickgen p
  let s := (s.wr pg tickgen.FAIL_CAUSE code).updPart p (fun x => { x with deadCause := 0 })
  match cls with
  | some (c, m) => s.halt p c (if c = 15 then 10 else 7) m 0 []
  | none =>
    if s.decidesReplay p then
      match (s.part p).deadNow with
      | (g, path) :: _ => (s.err pg 2).halt p 13 path (tileOf g) (g % 256) []
      | [] =>
      let (v, s) := s.freePath
      let (l, s) := s.free
      (s.err pg 2).halt p 13 (if code = 6 then 2 else if code = 5 ∨ code = 4 then 5 else v) (l.toNat % 2 ^ 16) (l.toNat / 2 ^ 16) []
    else if (s.part p).deadNow ≠ [] then s.updPart p (fun x => { x with toDecide := false })
    else (s.abandonWork p).updPart p (fun x => { x with phase := .drain 640 })

/-- The verdict on tick `t` (R32): true where it passed.  A replay tick has failed if a core is declared faulty by its reports (R146); one that
the generator has learnt of since starts a hold of its own (R295). -/
def State.verdict (s : State) (p t : Nat) : State × Bool :=
  let known := (s.part p).deadNow
  let s := (s.sealOpen p t).missingDead p
  let s := ((s.part p).lateRep).foldl (fun s e => s.lateReport p t e.1) s
  let s := if (s.part p).routerErrs = [] then s else s.failWith p 4
  let (s, cls) := s.siteVerdict p
  let code := if s.decidesReplay p && (s.part p).deadNow ≠ known then max (s.part p).failCode (s.part p).deadCause else (s.part p).failCode
  let s := s.updPart p (fun x => { x with
    failCode := 0, lateRep := [], routerErrs := [], missing := [], toDecide := false })
  if code = 0 then
    let s := (s.usedCores p).foldl State.commitPtrs s
    ((s.releaseResults p t).idleWindows p, true)
  else (s.tickFails p code cls, false)

/-- The lanes whose positions become EMPTY in tick `t` (R252). -/
def State.emptyLanes (s : State) (p t : Nat) : State :=
  let now := ((s.part p).freed.filter (fun e => decide (e.2 ≤ t))).map (·.1)
  let gone (h : Hold) : Bool := now.contains h.lane
  s.updPart p (fun x => { x with
    table := x.table.filter (fun h => !gone h), entering := x.entering.filter (fun h => !gone h)
    freed := x.freed.filter (fun e => decide (t < e.2)) })

/-- The tokens that the packer's entries carry. -/
def State.nameTokens (s : State) (p : Nat) : State :=
  let draft := (s.mainOf p).isSome
  s.updPart p (fun x => { x with entering := x.entering.map (fun h =>
    if h.isExtra then h else { h with token := ((if draft then (s.lane p h.lane).toks else (s.req h.handle).toks)).getD h.pos 0 }) })

/-- Exports, lane setups and restores that the tick's start lets go on (R249, R252, R258, R260). -/
def State.laneWork (s : State) (p t : Nat) : State :=
  let busy (l : Nat) : Bool := (s.part p).freed.any (fun e => e.1 = l)
  let s := (s.reqsOf p (fun r => r.state = .paused && r.toExport && !busy r.lane)).foldl (fun s e => s.beginExport p e.1) s
  let s := (s.reqsOf p (fun r => r.state.running && r.setupAt ≠ 0 && r.setupAt ≤ t)).foldl (fun s e => s.setupLane p e.1) s
  (s.reqsOf p (fun r => r.state.running && r.setupAt = 0 && r.scree ≠ [])).foldl (fun s e =>
    if s.xfersDone p e.1 then (s.dropXfers p e.1).updReq e.1 (fun r => { r with scree := [] }) else s) s

/-- Cycle 11 of a tick, once the verdict on the tick before stands: the table of this tick, the hold mask and the swap of the input
halves (R43, R45).  A replay tick keeps the table and the halves. -/
def State.startTable (s : State) (p : Nat) : State :=
  let pt := s.part p
  if pt.replay then s.sendMask p else
  let s := (((s.emptyLanes p pt.tick).nameTokens p).decideTick p).swapInputs p
  ((s.sendMask p).laneWork p pt.tick).retryDrafts p

/-- Finality is due: at the end of cycle 11 of a tick, or in a boundary that is held for a heat fence, a repair cut or a role swap.  A heat fence
that comes in a hold whose tick has been decided already has nothing to wait for. -/
def State.finalityDue (s : State) (p : Nat) : Bool :=
  let pt := s.part p
  match pt.phase with
  | .running => 12 ≤ pt.cyc && !pt.finalDone
  | .boundaryHold left => (pt.haltAt.isSome && (left = 0 || !pt.toDecide)) || (pt.toDecide && pt.holdReq && pt.holdStart + 12 ≤ pt.wall)
  | _ => false

/-- TICK_FINALITY (R32): the verdict on the last tick; then this tick's table, or the halt of a heat fence (R312). -/
def tickFinality (s : State) (p : Nat) : State :=
  if !s.finalityDue p then s else
  let pt := s.part p
  let held := pt.phase ≠ .running
  let s := if held && pt.toDecide then s.gatherLate p else s
  let (s, pass) := if pt.toDecide then s.verdict p (if held then pt.tick else pt.tick - 1) else (s, true)
  let s := s.updPart p (fun x => { x with finalDone := true })
  if held then
    let s := s.updPart p (fun x => { x with clean := pass })
    (match pt.haltAt with
    | some t => s.halt p 14 10 t 0 []
    | none => s.startHold p)
  else
    let s := if pass then s.startTable p else s
    s.startHold p

/-! ### The generator's registers (R26, R41, R57) -/

/-- PERIOD (R26): ignored while STATE is not OFF. -/
def period (s : State) (p v : Nat) : State :=
  if s.pstate p ≠ 0 then s.err (.tickgen p) 0 else s.wr (.tickgen p) tickgen.PERIOD v

/-- STRETCH_CEIL (R41): admission uses the value at once; one that raises the ceiling waits for the GUARANTEED requests admitted so far. -/
def stretchCeil (s : State) (p v : Nat) : State :=
  let v := v % 128
  let s := s.wr (.tickgen p) tickgen.STRETCH_CEIL v
  s.updPart p (fun x => { x with ceilPend := x.ceilPend.filter (fun e => decide (e.1 < v)) ++ [(v, s.order)] })

/-- STRETCH_CEIL_RAISE_APPLY (R41): each raise takes effect once no GUARANTEED request that was admitted before it under a lower value is
left. -/
def stretchCeilRaiseApply (s : State) (p : Nat) : State :=
  let pg := Page.tickgen p
  let live (e : Nat × Nat) : Bool := (s.reqsOf p (fun r => !r.elastic && r.state.running && r.order < e.2 && r.ceil < e.1)) ≠ []
  let pend := (s.part p).ceilPend
  let s := pend.foldl (fun s e =>
    if !live e && s.rd pg tickgen.STRETCH_CEIL_EFF < e.1 && e.1 ≤ s.rd pg tickgen.STRETCH_CEIL
    then s.wr pg tickgen.STRETCH_CEIL_EFF e.1 else s) s
  s.updPart p (fun x => { x with ceilPend := x.ceilPend.filter live })

/-- TICK_LO (R57): a read latches TICK_HI. -/
def tickLo (s : State) (p : Nat) : State :=
  let t := (s.part p).tick
  (s.wr (.tickgen p) tickgen.TICK_HI (t / 2 ^ 32)).emit (.readBack (Page.tickgen p).id 0x048 (t % 2 ^ 32))

/-- TICK_BOUNDARY. -/
def execTickBoundary (p skew : Nat) (s : State) : Out := .next (tickBoundary s p skew)
/-- TICK_FINALITY. -/
def execTickFinality (p : Nat) (s : State) : Out := .next (tickFinality s p)
/-- REPLAY_BOUNDARY. -/
def execReplayBoundary (p : Nat) (ue : Bool) (s : State) : Out := .next (replayBoundary s p ue)
/-- PERIOD. -/
def execPeriod (p v : Nat) (s : State) : Out := .next (period s p v)
/-- STRETCH_CEIL. -/
def execStretchCeil (p v : Nat) (s : State) : Out := .next (stretchCeil s p v)
/-- STRETCH_CEIL_RAISE_APPLY. -/
def execStretchCeilRaiseApply (p : Nat) (s : State) : Out := .next (stretchCeilRaiseApply s p)
/-- TICK_LO. -/
def execTickLo (p : Nat) (s : State) : Out := .next (tickLo s p)

end Sys2Proof.Machine
end

