-- ==== Sys2Proof/Machine/Security.lean ====
section
/-! DEFINITION. Trust: signed objects and firmware slots, the compatibility check, the device key and attestation, key delivery, updates
in service, and the port configuration record (R387 to R407, R413, R414, R438). -/

namespace Sys2Proof.Machine

/-! ### Signed objects and firmware slots (R387 to R389, R392 to R394) -/

/-- Where the fuses keep a kind's minimum SVN: MANIFEST at 0 (R389, R413). -/
def svnIndex (kind : Nat) : Nat := if kind = 8 then 0 else kind

/-- The numbers that `w` bytes each give, `n` of them. -/
def nums (w n : Nat) (bs : List Byte) : List Nat := (List.range n).map (fun i => leNat ((bs.drop (w * i)).take w))

/-- IFGEN (R387): 16 pairs of interface code and generation; code 0 ends the list. -/
def objIfgen (bs : List Byte) : List (Nat × Nat) := ((nums 2 16 bs).map (fun x => (x % 256, x / 256))).takeWhile (fun e => e.1 ≠ 0)

/-- A signed object (R387). -/
def signedObjOf (bs : List Byte) : SignedObj :=
  let f (i n : Nat) : Nat := leNat ((bs.drop i).take n)
  let n := 64 + f 12 4
  let t := f 4 1
  { magic := f 0 4, type := t, key := f 5 1, svn := f 6 1, version := f 8 4
    ifgen := if 1 ≤ t ∧ t ≤ 5 then objIfgen ((bs.drop 24).take 32) else []
    payload := (bs.take n).drop 64, body := f 0 n, bodyLen := n, signed := f 0 (n + 56), pub := f n 56, sig := f (n + 56) 1772 }

/-- The digest of an object (R387). -/
def SignedObj.digest (o : SignedObj) : Nat := Config.sha256 o.body o.bodyLen

/-- The entries of a MANIFEST payload (R393): VERSION_LO and VERSION_HI of four kinds, then sixteen masks. -/
def manifestRows (bs : List Byte) : List (List Nat) :=
  (List.range (leNat (bs.take 4))).map (fun i => let e := bs.drop (4 + 64 * i); nums 4 8 e ++ nums 2 16 (e.drop 32))

/-- An OVERRIDE payload (R393): serial number, four digests, masks. -/
def overrideOf (o : SignedObj) : Override :=
  { serial := leNat (o.payload.take 8), digests := nums 32 4 (o.payload.drop 8), masks := nums 2 16 (o.payload.drop 136), digest := o.digest }

/-- VERSION as a number that grows with the version: major, minor, patch, build (R387). -/
def versionRank (v : Nat) : Nat := leNat (leBytes 4 v).reverse

/-- R388 but for its last condition: MAGIC, key not revoked, key hash, signature. -/
def State.genuine (s : State) (o : SignedObj) : Bool :=
  o.magic = 0x4F53584B && o.key < 4 && !bit s.fuses.revoked o.key &&
    Config.sha256 o.pub 56 = s.fuses.hashes.getD o.key 0 && Config.lmsVerify o.signed o.pub o.sig

/-- The last condition of R388: SVN is at least the fused minimum of its type, for types 1 to 4 and 8. -/
def State.svnOk (s : State) (kind svn : Nat) : Bool :=
  !([1, 2, 3, 4, 8].contains kind) || s.fuses.svn.getD (svnIndex kind) 0 ≤ svn

/-- Slot `i` (0 A, 1 B) of a kind. -/
def State.fwSlot (s : State) (kind i : Nat) : FwSlot := Table.get {} s.nor.slots (2 * kind + i)

/-- Puts a slot in a state, with its cairn (R394, R409). -/
def State.setSlot (s : State) (kind i : Nat) (f : FwSlot → FwSlot) : State :=
  let s := s.updNor (fun n => { n with slots := Table.upd {} n.slots (2 * kind + i) f })
  s.journal (s.norHolder.getD 0) (.slot kind i (s.fwSlot kind i).st)

/-- The slot of a kind that is in a state. -/
def State.slotIn (s : State) (kind : Nat) (st : SlotSt) : Option Nat := [0, 1].find? (fun i => (s.fwSlot kind i).st = st)

/-- The image of a kind that runs: a TRIAL MCF, TSQ or MSF in service, and the ACTIVE slot otherwise (R394, R405). -/
def State.running' (s : State) (kind : Nat) : Option FwSlot :=
  let i := if kind = 1 then s.slotIn kind .active else (s.slotIn kind .trial).or (s.slotIn kind .active)
  i.map (s.fwSlot kind)

/-- The newest valid MANIFEST slot, by SVN and then VERSION (R393). -/
def State.manifest (s : State) : Option FwSlot :=
  let l := ([0, 1].map (s.fwSlot 8)).filter (fun x => x.st = .active || x.st = .trial)
  (sortBy (fun a b => decide (b.svn < a.svn) || (a.svn = b.svn && decide (versionRank b.version < versionRank a.version))) l).head?

/-- A manifest entry lists a version of a kind, at its LO or HI (R393). -/
def entryHas (e : List Nat) (kind v : Nat) : Bool := v = e.getD (2 * (kind - 1)) 0 || v = e.getD (2 * kind - 1) 0

/-- The versions that run, by kind. -/
def State.versions (s : State) : List (Nat × Nat) :=
  [1, 2, 3, 4].filterMap (fun k => (s.running' k).map (fun x => (k, x.version)))

/-- A combination of versions is in a manifest: one entry matches all of it. -/
def inManifest (rows : List (List Nat)) (vs : List (Nat × Nat)) : Bool := rows.any (fun e => vs.all (fun x => entryHas e x.1 x.2))

/-- Two running images declare different generations for an interface that both speak, other than 0x0A (R393). -/
def State.ifgenClash (s : State) : Bool :=
  let l := ([1, 2, 3, 4].filterMap s.running').flatMap (·.ifgen)
  l.any (fun a => a.1 ≠ 0x0A && l.any (fun b => a.1 = b.1 && a.2 ≠ b.2))

/-- An override names this module and exactly the running firmware (R393). -/
def State.overrideOk (s : State) : Bool :=
  match s.nor.override with
  | some o => o.serial = s.fuses.serial && o.digests = [1, 2, 3, 4].filterMap (fun k => (s.running' k).map (·.digest))
  | none => false

/-- The masks for massif images: those of the override in force, or of the manifest entries that match the running firmware. -/
def State.imageMasks (s : State) : List (List Nat) :=
  if s.flag (.ssb (s.norHolder.getD 0)) ssb.OVERRIDE then (s.nor.override.map (·.masks)).toList
  else
    match s.manifest with
    | none => []
    | some m => (m.payload.filter (fun e => s.versions.all (fun x => entryHas e x.1 x.2))).map (·.drop 8)

/-- A massif image's IFGEN list and the running firmware form a combination in the manifest (R393, R395). -/
def State.ifgenOk (s : State) (p : Nat) (l : List (Nat × Nat)) : Bool :=
  s.rd (.ssb (s.primary p)) ssb.BOOT_STATE = 1 &&
    s.imageMasks.any (fun m => l.all (fun x => 1 ≤ x.1 && x.1 ≤ 16 && bit (m.getD (x.1 - 1) 0) x.2))

/-- An error event of the verifying SSB. -/
def State.ssbErr (s : State) (b : Nat) : State := s.err (.ssb (s.norHolder.getD 0)) b

/-- Blows the revocation bit of key `i` (R389). -/
def State.burnKey (s : State) (i : Nat) : State := { s with fuses := { s.fuses with revoked := Nat.lor s.fuses.revoked (2 ^ i) } }

/-- Raises the fused minimum SVN of a kind to `v`; it never falls (R388, R413). -/
def State.burnSvn (s : State) (kind v : Nat) : State :=
  { s with fuses := { s.fuses with svn := setAt s.fuses.svn (svnIndex kind) (max (s.fuses.svn.getD (svnIndex kind) 0) v) } }

/-- REVOKE (R389): blows a revocation bit where another unrevoked key signed it and another key stays. -/
def State.revoke (s : State) (o : SignedObj) : State :=
  let i := (o.payload.headD 0).toNat
  let left := (List.range 4).any (fun k => k ≠ i && !bit s.fuses.revoked k)
  if 4 ≤ i || o.key = i || !left then s else
  let s := s.burnKey i
  [0, 1].foldl (fun s c => s.wr (.ssb c) ssb.KEY_REVOKED s.fuses.revoked) s

/-- FIRMWARE_OBJECT_STAGE (R405, R388, R390): an object that PLDM delivers is verified and put in its inactive slot as STAGED, in the
override area, or carried out. -/
def firmwareObjectStage (s : State) (bytes : List Byte) : State :=
  let o := signedObjOf bytes
  let k := o.type
  let c := s.norHolder.getD 0
  if !([1, 2, 3, 4, 8, 9, 10].contains k) then s
  else if s.rd (.ssb c) ssb.BOOT_STATE = 3 ∧ k ≠ 1 then s
  else if !s.genuine o then s.ssbErr 0
  else if !s.svnOk k o.svn then (s.ssbErr 0).ssbErr 4
  else if k = 10 then s.revoke o
  else if k = 9 then s.updNor (fun n => { n with override := some (overrideOf o) })
  else
    let i := if (s.fwSlot k 0).st = .active ∨ ((s.fwSlot k 0).st = .trial ∧ (s.fwSlot k 1).st ≠ .active) then 1 else 0
    s.setSlot k i (fun _ => { st := .staged, key := o.key, svn := o.svn, version := o.version, ifgen := o.ifgen, digest := o.digest
                              payload := if k = 8 then manifestRows o.payload else [] })

/-- The combinations that an activation passes through are in the manifest (R405): all old, mixed, all new. -/
def State.combosOk (s : State) (kind v : Nat) : Bool :=
  match s.manifest with
  | none => false
  | some m =>
    let vs := s.versions
    let new := vs.map (fun x => if x.1 = kind then (kind, v) else x)
    inManifest m.payload vs && inManifest m.payload new && (kind = 1 || kind = 8 || inManifest m.payload (vs ++ new))

/-- A TRIAL slot is found good: it is ACTIVE, and its predecessor STAGED (R394). -/
def State.trialGood (s : State) (kind i : Nat) : State :=
  let s := match s.slotIn kind .active with
    | some j => s.setSlot kind j (fun x => { x with st := .staged })
    | none => s
  s.setSlot kind i (fun x => { x with st := .active })

/-- ACTIVATE_FIRMWARE (R405): the STAGED slot of a kind becomes TRIAL, unless a combination is not in the manifest: the
PLDM command then fails with code COMBO, and PLDM_ERR sets (R469).  `healthy` says that the
restarted MCF, TSQ or MSF reports a healthy start. -/
def activateFirmware (s : State) (kind : Nat) (healthy : Bool) : State :=
  match s.slotIn kind .staged with
  | none => s
  | some i =>
    if !([1, 2, 3, 4, 8].contains kind) then s
    else if !s.combosOk kind (s.fwSlot kind i).version then (s.err (.smc (s.norHolder.getD 0)) 2).emit (.combo kind) else
    let s := s.setSlot kind i (fun x => { x with st := .trial })
    if healthy && (kind = 2 || kind = 3 || kind = 4) then
      let s := s.trialGood kind i
      if kind = 2 then [0, 1].foldl (fun s c => s.wr (.smc c) smc.MCF_VERSION (s.fwSlot 2 i).version) s else s
    else s

/-- HEALTHY_START_TIMEOUT (R405): a TRIAL MCF, TSQ or MSF without a healthy start becomes FAILED and its predecessor runs again. -/
def healthyStartTimeout (s : State) (kind : Nat) : State :=
  match s.slotIn kind .trial with
  | none => s
  | some i =>
    if kind = 2 ∨ kind = 3 ∨ kind = 4 then (s.setSlot kind i (fun x => { x with st := .failed })).ssbErr 5 else s

/-- SVN_COMMIT (R413): raises the fused minimum of SVN_KIND to the ACTIVE slot's SVN. -/
def svnCommit (s : State) (c : Nat) : State :=
  let v := s.rd (.ssb c) ssb.SVN_KIND
  let kind := if v = 0 then 8 else v
  if 4 < v then s else
  match s.slotIn kind .active with
  | none => s
  | some i => s.burnSvn kind (s.fwSlot kind i).svn

/-! ### Role swaps and site updates (R406, R407, R452) -/

/-- The hold of a role swap (R406). -/
def swapHold : Nat := 78000

/-- ROLE_SWAP (R406): the mirror generator becomes primary, at once in a partition that is OFF and in a held boundary otherwise.  A swap
that R406 refuses waits. -/
def roleSwap (s : State) (p : Nat) : State :=
  let pg := Page.tickgen p
  let pt := s.part p
  let d := 1 - s.primary p
  let port := (List.range 4).map (· + 4 * d) |>.find? (fun n => s.portActive n && bit (s.rd (.vlport n) vlport.PORT_PARTS) p &&
    s.rd (.vlport n) vlport.PORT_COMP = s.rd (.cohc p) cohc.COMP)
  let unprot := (s.part p).tiles.any (fun t => (List.range 16).any (fun y => s.flag (.crag t y) crag.UNPROT))
  let due : Bool := s.pstate p = 0 || (pt.phase = .running && pt.commitDone && tickLen (s.periodOf p) pt.stretch ≤ pt.wall)
  match port with
  | none => s
  | some n =>
    if !s.flag pg tickgen.CREATED || !(s.ctl d).up || pt.job.isSome || unprot || !due then s else
    let s := s.setFlag pg tickgen.MIRROR_ACT (!s.flag pg tickgen.MIRROR_ACT)
    let s := if s.pstate p = 0 then s else
      (s.updPart p (fun x => { x with phase := .boundaryHold swapHold, holdReq := true, holdStart := pt.wall })).setFlag pg tickgen.HOLD true
    let (v, s) := s.free
    s.postCpl p { event := 14, code := (s.ordPort p).getD n, cookie := v.toNat, handle := 0x1FFFF }

/-- SITE_UPDATE_DRAIN (R407): the site's page mover accepts no further command; once its queue has ended, the MSF restarts. -/
def siteUpdateDrain (s : State) (m : Nat) : State :=
  if (s.slotIn 4 .trial).isNone && (s.slotIn 4 .active).isNone then s else
  (s.updSite m (fun x => { x with draining := true })).pmDrained m

/-- MSF_READY (R452): the site's MSF reports ready; the MSITE page is ON and the page mover goes on. -/
def msfReady (s : State) (m : Nat) : State :=
  if s.rd (.msite m) page.STATE ≠ 1 then s else
  ((s.wr (.msite m) page.STATE 2).updSite m (fun x => { x with draining := false })).pmRun m

/-! ### The device key (R396, R397) -/

/-- The blocks that reservations have named. -/
def State.lmsReserved (s : State) : List Nat :=
  (s.nor.snap ++ s.nor.log ++ s.nor.waiting ++ s.nor.writing.toList).filterMap (fun r => match r.body with
    | .lmsRes b _ _ => some b
    | _ => none)

/-- LMS_RES_SUBMIT (R397): SSB `c` reserves a block from a leaf on; none is left at 1,024. -/
def State.reserveBlock (s : State) (c b leaf : Nat) : State :=
  if 1024 ≤ b then [0, 1].foldl (fun s k => s.setFlag (.ssb k) ssb.LMS_EXHAUSTED true) s else
  let s := s.updSsb c (fun x => { x with nextBlock := some b, durable := false })
  let s := s.journal c (.lmsRes b leaf c)
  if 922 ≤ b + 1 then s.err (.ssb c) 2 else s

/-- The next fresh block. -/
def State.freshBlock (s : State) : Nat :=
  match s.lmsReserved with
  | [] => 0
  | l => maxOf l + 1

/-- SSB `c` goes over to the block it has reserved, once that is durable. -/
def State.adoptBlock (s : State) (c : Nat) : State :=
  let x := s.ssb c
  match x.hasBlock, x.nextBlock, x.durable with
  | false, some b, true => s.updSsb c (fun x => { x with block := b, hasBlock := true, nextBlock := none, durable := false })
  | _, _, _ => s

/-- Takes the next one-time index of SSB `c` (R397); none while it waits for a block, has stopped, or has none. -/
def State.takeLeaf (s : State) (c : Nat) : Option Nat × State :=
  let s := s.adoptBlock c
  let x := s.ssb c
  if x.stopped || !x.hasBlock then (none, s) else
  let last : Bool := x.leaf + 1 = 1024
  let s := s.updSsb c (fun x => { x with leaf := if last then 0 else x.leaf + 1, hasBlock := !last })
  let s := if x.leaf = 896 then s.reserveBlock c s.freshBlock 0 else s
  let s := s.adoptBlock c
  (some (x.block * 1024 + x.leaf),
    (s.wr (.ssb c) ssb.LMS_BLOCK (s.ssb c).block).wr (.ssb c) ssb.LMS_LEAF (s.ssb c).leaf)

/-- The digest of the firmware of a kind that runs. -/
def State.fwDigest (s : State) (kind : Nat) : Nat := ((s.running' kind).map (·.digest)).getD 0

/-- Bytes 0 to 3,455 of an attestation report (R399). -/
def State.reportBody (s : State) (p c q : Nat) (nonce : List Byte) : List Byte :=
  let pt := s.part p
  let ovr := s.flag (.ssb c) ssb.OVERRIDE
  let msf := (List.replicate 16 (leBytes 32 (s.fwDigest 4))).flatten
  let man := if ovr then (s.nor.override.map (·.digest)).getD 0 else (s.manifest.map (·.digest)).getD 0
  let keys := ((List.range 16).filter (fun m => s.sitePart m = some p)).foldl (fun a m => Nat.lor a (s.rd (.xts m) xts.KEY_VALID)) 0
  [0x4B, 0x58, 0x41, 0x52] ++ leBytes 2 1 ++ leBytes 1 p ++ leBytes 1 c ++ leBytes 8 s.fuses.serial ++ leBytes 1 s.fuses.grade ++
    leBytes 1 (b2n s.fuses.suffixT) ++ leBytes 2 s.fuses.revoked ++ leBytes 4 (s.rd (.ssb c) ssb.BOOT_CNT) ++ nonce ++ leBytes 8 pt.tick ++
    leBytes 32 (s.fwDigest 1) ++ leBytes 32 (s.fwDigest 2) ++ leBytes 32 (s.fwDigest 3) ++ leBytes 32 (s.fwDigest 3) ++
    leBytes 32 (Config.sha256 (leNat msf) 512) ++ leBytes 32 man ++ leBytes 4 (if s.fuses.suffixT then s.tally.checksum else 0) ++
    leBytes 4 (b2n (s.rd (.ssb c) ssb.BOOT_STATE = 2) + 2 * b2n ovr) ++ leBytes 8 ((pt.image.map (·.id)).getD 0) ++ leBytes 32 pt.meas ++
    leBytes 4 keys ++ leBytes 4 s.faultGen ++ leBytes 8 q ++ leBytes 1568 (Config.kemPublic 0 (s.ssb 0).boots) ++
    leBytes 1568 (Config.kemPublic 1 (s.ssb 1).boots)

/-- A ring command's bytes that are reserved are 0: FLAGS, KIND, PRIO and all from byte `i` (R238). -/
def ringOk (c : CmdIn) (i : Nat) : Bool := c.headOk && (c.bytes.drop i).all (· = 0)

/-- The completion of a command that names no request; its HANDLE is a free value (log 9). -/
def State.ringDone (s : State) (p : Nat) (c : CmdIn) (event code : Nat) : State :=
  let (v, s) := s.free
  s.postCpl p { event := event, code := code, cookie := c.cookie, handle := v.toNat % 2 ^ 17 }

/-- ATTEST (R398, R399): the report goes to its buffer, signed by the SSB of the current primary; it waits for a fresh block, and an
exhausted key ends it with EXHAUSTED.  A buffer outside the apertures is answered with APERTURE (log 30). -/
def attest (s : State) (p : Nat) : State :=
  match s.takeCmd p 0x13 with
  | none => s
  | some (c, t) =>
    let k := s.primary p
    let addr := c.field 8 8
    if !ringOk c 48 then t.nackFree p c 0x07
    else if !s.inAperture p addr 6420 true then (t.apertViol p).nackFree p c 0x08
    else
      match t.takeLeaf k with
      | (none, u) => if s.flag (.ssb k) ssb.LMS_EXHAUSTED && (s.ssb k).nextBlock = none then t.ringDone p c 13 0x38 else
          s.updSsb k (fun _ => u.ssb k)
      | (some q, u) =>
        let body := u.reportBody p k q ((c.bytes.drop 16).take 32)
        let sig := leBytes 2964 (Config.hssSign u.fuses.seed q (leNat body))
        ((u.inc (.ssb k) ssb.ATTEST_CNT 1).sendWrite p true addr (body ++ sig)).ringDone p c 13 0

/-! ### Key slots (R400 to R403) -/

/-- The sites whose edge tile belongs to a partition. -/
def State.partSites (s : State) (p : Nat) : List Nat := (List.range 16).filter (fun m => s.sitePart m = some p)

/-- Sets or clears a key slot at the sites of a partition; a key is kept as its value + 1. -/
def State.setKey (s : State) (p slot v : Nat) : State :=
  (s.partSites p).foldl (fun s m =>
    let w := s.rd (.xts m) xts.KEY_VALID
    (s.updSite m (fun x => { x with keys := Table.set 0 x.keys slot v })).wr (.xts m) xts.KEY_VALID
      (if v = 0 then (if bit w slot then w - 2 ^ slot else w) else Nat.lor w (2 ^ slot))) s

/-- The key slot holds a key at a site of the partition. -/
def State.slotBusy (s : State) (p slot : Nat) : Bool := (s.partSites p).any (fun m => bit (s.rd (.xts m) xts.KEY_VALID) slot)

/-- A key delivery record (R401). -/
def keyRecordOf (bs : List Byte) : KeyRecord :=
  let f (i n : Nat) : Nat := leNat ((bs.drop i).take n)
  { magic := f 0 4, part := f 4 1, slot := f 5 1, ssb := f 6 1, nonce := f 8 32, ct := f 40 1568, wrapped := f 1608 72 }

/-- The key that SSB `k` unwraps from a record (R401). -/
def State.unwrapKey (s : State) (k : Nat) (r : KeyRecord) : Option Nat :=
  let info := [0x4B, 0x58, 0x50] ++ leBytes 8 s.fuses.serial ++ leBytes 1 r.part ++ leBytes 1 r.slot
  Config.keyUnwrap (Config.hkdf r.nonce (Config.kemDecap k (s.ssb k).boots r.ct) (leNat info)) r.wrapped

/-- KEY_LOAD (R401, R402): its record is unwrapped by the SSB of the current primary, and the key goes to every site of the partition. -/
def keyLoad (s : State) (p : Nat) (record : List Byte) : State :=
  let r := keyRecordOf record
  match s.takeCmd p 0x11 with
  | none => s
  | some (c, s) =>
    let k := s.primary p
    let pg := Page.ssb k
    if !ringOk c 16 then s.nackFree p c 0x07 else
    let refuse (code : Nat) : State :=
      (((s.inc pg ssb.KEYLOAD_FAIL_CNT 1).wr pg ssb.LAST_KEY_CODE code).err pg 3).ringDone p c 12 code
    if r.magic ≠ 0x444B584B ∨ !s.inAperture p (c.field 8 8) 1680 false ∨ 32 ≤ r.slot then refuse 0x35
    else if r.part ≠ p then refuse 0x34
    else if r.ssb ≠ k then refuse 0x30
    else if s.slotBusy p r.slot then refuse 0x32
    else
      match s.unwrapKey k r with
      | none => refuse 0x31
      | some key => (((s.setKey p r.slot (key + 1)).inc pg ssb.KEYLOAD_CNT 1).wr pg ssb.LAST_KEY_CODE 0).ringDone p c 12 0

/-- A key slot is in use (R403). -/
def State.keyInUse (s : State) (p slot : Nat) : Bool :=
  (s.partSites p).any (fun m => (s.site m).regions.any (fun e => e.2.valid && e.2.owner = p && e.2.weight && e.2.keySlot = slot)) ||
    (s.part p).vents.any (fun e => e.2.bound && e.2.key = slot) || ((s.part p).job.isSome && (s.part p).keysUsed.contains slot)

/-- KEY_CLEAR (R403). -/
def keyClear (s : State) (p : Nat) : State :=
  match s.takeCmd p 0x12 with
  | none => s
  | some (c, s) =>
    let slot := c.field 8 1
    let pg := Page.ssb (s.primary p)
    if !ringOk c 9 || 32 ≤ slot then s.nackFree p c 0x07
    else if s.keyInUse p slot then (s.wr pg ssb.LAST_KEY_CODE 0x33).ringDone p c 12 0x33
    else ((s.setKey p slot 0).wr pg ssb.LAST_KEY_CODE 0).ringDone p c 12 0

/-! ### The port configuration record (R438) -/

/-- PORT_CONFIG_RECORD_WRITE: PLDM writes the record; it takes effect at the next power-on or module reset. -/
def portConfigRecordWrite (s : State) (bytes : List Byte) : State := s.updNor (fun n => { n with portRec := some bytes })

/-- KEY_LOAD. -/
def execKeyLoad (p : Nat) (record : List Byte) (s : State) : Out := .next (keyLoad s p record)
/-- KEY_CLEAR. -/
def execKeyClear (p : Nat) (s : State) : Out := .next (keyClear s p)
/-- ATTEST. -/
def execAttest (p : Nat) (s : State) : Out := .next (attest s p)
/-- FIRMWARE_OBJECT_STAGE. -/
def execFirmwareObjectStage (bytes : List Byte) (s : State) : Out := .next (firmwareObjectStage s bytes)
/-- ACTIVATE_FIRMWARE. -/
def execActivateFirmware (kind : Nat) (healthy : Bool) (s : State) : Out := .next (activateFirmware s kind healthy)
/-- HEALTHY_START_TIMEOUT. -/
def execHealthyStartTimeout (kind : Nat) (s : State) : Out := .next (healthyStartTimeout s kind)
/-- SVN_COMMIT. -/
def execSvnCommit (c : Nat) (s : State) : Out := .next (svnCommit s c)
/-- ROLE_SWAP. -/
def execRoleSwap (p : Nat) (s : State) : Out := .next (roleSwap s p)
/-- SITE_UPDATE_DRAIN. -/
def execSiteUpdateDrain (m : Nat) (s : State) : Out := .next (siteUpdateDrain s m)
/-- MSF_READY. -/
def execMsfReady (m : Nat) (s : State) : Out := .next (msfReady s m)
/-- PORT_CONFIG_RECORD_WRITE. -/
def execPortConfigRecordWrite (bytes : List Byte) (s : State) : Out := .next (portConfigRecordWrite s bytes)

end Sys2Proof.Machine
end

