-- ==== Sys2Proof/Machine/Loader.lean ====
section
/-! DEFINITION. The loader: placement of a massif image, its patches, the checks of a load, the write phase, and repairs (R50, R51, R55,
R206 to R231, R298). -/

namespace Sys2Proof.Machine

/-! ### Placement (R213 to R215) -/

/-- The tile of a logical tile under an origin (R213). -/
def transTile (lw lh ox oy i : Nat) : Option Nat :=
  if lh ≤ i / 9 ∨ lw ≤ i % 9 ∨ 8 < ox + i % 9 ∨ 7 < oy + i / 9 then none else some (i + oy * 9 + ox)

/-- The site of a logical site: west sites need ox = 0, east sites the east edge (R213). -/
def transSite (lw ox oy k : Nat) : Option Nat :=
  if k < 8 then (if ox = 0 ∧ k + oy < 8 then some (k + oy) else none)
  else if k < 16 ∧ ox + lw = 9 ∧ k + oy < 16 then some (k + oy) else none

/-- The core that works for position `g`: itself, or the spare that stands in for it or is free to (R215). -/
def State.coreOr (s : State) (g : Nat) : Option Nat :=
  let sp := spareCore (cragOf g)
  if s.mapped 1 g = 0 then some g
  else if s.rd (cragPage (cragOf g)) crag.STAND_FOR = cragLocal g then (if s.mapped 1 sp = 0 then some sp else none)
  else if s.spareReady (cragOf g) && s.mapped 1 sp = 0 then some sp else none

/-- The position of a logical data core: its translated one (R213), or where a repair has moved it (R230). -/
def posFor (moved : List (Nat × Nat)) (ox oy lc : Nat) : Nat :=
  match moved.find? (fun e => e.1 = lc) with
  | some e => e.2
  | none => lc + (oy * 9 + ox) * 256

/-- The physical core for a logical data core (R215). -/
def State.coreFor (s : State) (moved : List (Nat × Nat)) (ox oy lc : Nat) : Option Nat := s.coreOr (posFor moved ox oy lc)

/-- A core meets the requirement of each array: 1 in service, 2 in service with all 32 columns (R69, R215). -/
def State.arraysMeet (s : State) (g : Nat) (req : List Nat) : Bool :=
  (List.range 4).all (fun a => let r := req.getD a 0
    r = 0 || (bit (s.rd (.core g) core.ARRAY_EN) a && (r = 1 || !bit (s.rd (.core g) core.ARRAY_NARROW) a)))

/-- What a placement depends on: PRESENT, COMPUTE, SITE_MASK, the grid, the requirement entries, the moves, the origin. -/
structure Placing where
  present : List Nat := []
  compute : List Nat := []
  sites : List Nat := []
  reloc : List (Nat × List Nat) := []
  moved : List (Nat × Nat) := []
  lw : Nat := 9
  lh : Nat := 8
  ox : Nat := 0
  oy : Nat := 0
  deriving DecidableEq, Repr

/-- The tile of logical tile `i`. -/
def Placing.tile (x : Placing) (i : Nat) : Option Nat := transTile x.lw x.lh x.ox x.oy i

/-- First condition of R214: PRESENT lands on the partition's tiles and covers them. -/
def State.tilesMatch (s : State) (p : Nat) (x : Placing) : Bool :=
  let ts := x.present.map x.tile
  ts.all (fun t => match t with | some t => (s.part p).tiles.contains t | none => false) &&
    (s.part p).tiles.all (fun t => ts.contains (some t))

/-- The other conditions of R214, and R215. -/
def State.placeFits (s : State) (x : Placing) : Bool :=
  let ts := x.present.map x.tile
  let cs := x.reloc.map (fun e => s.coreFor x.moved x.ox x.oy e.1)
  x.compute.all (fun i => match x.tile i with
    | some t => s.functional t && !s.flag (.therm t) therm.FENCED
    | none => false) &&
  x.sites.all (fun k => match transSite x.lw x.ox x.oy k with
    | some m => ts.contains (some (siteTile m))
    | none => false) &&
  cs.all (·.isSome) && decide cs.Nodup &&
  x.reloc.all (fun e => match s.coreFor x.moved x.ox x.oy e.1 with
    | some g => s.arraysMeet g e.2
    | none => false)

/-- The core that runs a logical data core: none for a reserve core, which has no requirement entry (R215). -/
def State.placed (s : State) (x : Placing) (lc : Nat) : Option Nat :=
  if x.reloc.any (fun e => e.1 = lc) then s.coreFor x.moved x.ox x.oy lc else none

/-- How an image is placed at an origin. -/
def placing (im : Image) (o : Nat × Nat) : Placing :=
  { present := im.present, compute := im.compute, sites := im.sites, lw := im.lw, lh := im.lh, ox := o.1, oy := o.2, reloc := im.reloc }

/-- How a loaded image stands. -/
def Loaded.placing (im : Loaded) : Placing :=
  { present := im.present, compute := im.compute, sites := im.sites, reloc := im.reloc, moved := im.moved, lw := im.lw, lh := im.lh
    ox := im.ox, oy := im.oy }

/-- Entries of `new`, and those of `old` that it has no entry for. -/
def overlay {α : Type} (old new : List (Nat × α)) : List (Nat × α) := old.filter (fun e => !new.any (fun z => z.1 = e.1)) ++ new

/-- The placement as it will stand after the cut of a repair (R227): the running one, with the repair's requirement entries and with the
identities that its migration list moves. -/
def Loaded.afterCut (b : Loaded) (im : Image) : Placing :=
  let delta := (b.oy * 9 + b.ox) * 256
  { b.placing with
    reloc := overlay b.reloc im.reloc
    moved := overlay b.moved (im.migrate.map (fun e => (e.1, e.2.1 + delta))) }

/-- The migration list names reserve cores that are free: data cores of the partition that are not dead and that the running image does not
use (R215, R229). -/
def State.reserveFree (s : State) (p : Nat) (b : Loaded) (im : Image) : Bool :=
  let delta := (b.oy * 9 + b.ox) * 256
  im.migrate.all (fun e =>
    let g := e.2.1 + delta
    cragLocal g ≠ 11 && cragLocal g ≠ 15 && s.mapped 1 g = 0 && s.tilePart (tileOf g) = some p &&
      !b.reloc.any (fun r => s.coreFor b.moved b.ox b.oy r.1 = some g) && (s.placed b.placing e.1).isSome)

/-- The number in `n` bytes of the load descriptor from byte `o` (R221). -/
def descAt (d : LoadData) (o n : Nat) : Nat := leNat ((d.desc.drop o).take n)

/-- SOURCE 1: the blob is staged. -/
def isStaged (d : LoadData) : Bool := descAt d 16 1 = 1

/-- The file as the first reading finds it. -/
def fileOf (d : LoadData) : List Byte := d.image.take (descAt d 8 8)

/-- The origins that a load tries: those that the descriptor leaves open, in ascending oy and then ox (R213, R214). -/
def origins (d : LoadData) (im : Image) : List (Nat × Nat) :=
  ((List.range (9 - im.lh)).flatMap (fun oy => (List.range (10 - im.lw)).map (fun ox => (ox, oy)))).filter (fun o =>
    (descAt d 18 1 = 0xFF || descAt d 18 1 = o.1) && (descAt d 19 1 = 0xFF || descAt d 19 1 = o.2))

/-! ### Patches (R219, R220) -/

/-- The pairs of the binding block (R218). -/
def pairsOf (d : LoadData) : List (Nat × Nat) := ((chunksOf 16 d.binds).take (descAt d 20 4)).map (fun b => (field b 0 2, field b 8 8))

/-- The bound value of a symbol (R218). -/
def boundTo (d : LoadData) (n : Nat) : Option Nat := ((pairsOf d).find? (fun e => e.1 = n)).map (·.2)

/-- The value that a record's field receives (R219); an unbound symbol and a core that is not found leave the field, and so does every
relocation while no placement has been found. -/
def State.patchValue (s : State) (p : Nat) (d : LoadData) (x : Option Placing) (kind v : Nat) : Nat :=
  match kind, x with
  | 1, some x => (s.coreFor x.moved x.ox x.oy v).getD (v + (x.oy * 9 + x.ox) * 256)
  | 2, some x => v + x.oy * 9 + x.ox
  | 3, some x => (transSite x.lw x.ox x.oy v).getD v
  | 4, _ => p
  | 5, _ => (boundTo d v).getD v
  | _, _ => v

/-- Applies one record to the bytes of the sections; none for a value wider than its field. -/
def State.patchOne (s : State) (p : Nat) (d : LoadData) (x : Option Placing) (l : Option (List (List Byte))) (r : PatchRec) :
    Option (List (List Byte)) :=
  match l with
  | none => none
  | some l =>
    match l[r.sect]? with
    | none => none
    | some bs =>
      match patchWindow bs r with
      | none => none
      | some w =>
        let n := s.patchValue p d x r.kind (bits w r.shift r.width)
        if 2 ^ r.width ≤ n then none else some (setAt l r.sect (patchPut bs r n))

/-- The bytes of the sections after the records of the image. -/
def State.patched (s : State) (p : Nat) (d : LoadData) (x : Option Placing) (im : Image) (l : List (List Byte)) : Option (List (List Byte)) :=
  im.patches.foldl (s.patchOne p d x) (some l)

/-- The image with its sections as they are after the records; PATCH itself stands as the file has it. -/
def Image.withBytes (im : Image) (l : List (List Byte)) : Image :=
  { im with ents := (im.ents.zip l).map (fun e => if e.1.kind = 11 then e.1 else { e.1 with bytes := e.2 }) }

/-- The contents of the sections, from their bytes after the records.  The placement is that of RELOC and MIGRATE as the file has them, since
the records need it (log 79). -/
def Image.sects (im : Image) (l : List (List Byte)) : List Sect :=
  (im.withBytes l).ents.map (fun e => e.sect e.bytes)

/-- The directory bases that PMBASE records name, after the records (R219). -/
def pmBases (im : Image) (l : List (List Byte)) : List Nat :=
  im.patches.filterMap (fun r => if r.kind ≠ 6 then none else
    ((l[r.sect]?).bind (fun bs => patchWindow bs r)).map (fun w => bits w r.shift r.width))

/-! ### The budgets (R48 to R51) -/

/-- The rates of R49 in hundredths of a pu for 256 active cycles: an array in MXFP4, MXFP8, MXINT8 or KT3, an array in KT2, a slab stream, the
attention engine, the wide unit, a mesh link direction, a saddle channel direction, a memory saddle channel. -/
def classRates : List Nat := [50, 75, 100, 100, 75, 25, 150, 50]

/-- The cycles of epoch `i` of a tick of `per` cycles: 256, and fewer in the last (R48). -/
def epochLen (per i : Nat) : Nat := min 256 (per - 256 * i)

/-- One epoch of `e` cycles keeps the budget: charges and baseline, rounded up to a whole pu (R49, R50). -/
def epochOk (budget base e : Nat) (active : List Nat) : Bool :=
  let sum := ((classRates.zip active).map (fun z => z.1 * z.2)).sum
  cdiv (sum + 100 * base * e) 25600 * 256 ≤ budget * e

/-- The baseline of a tile: 60 pu for one that computes nothing (R49). -/
def State.baseline (s : State) (compute : List Nat) (t : Nat) : Nat :=
  if compute.contains t && s.functional t && !s.flag (.therm t) therm.FENCED then 160 else 60

/-- The first tile and epoch that break check 0x07, over every tile of the partition (R50, R55). -/
def State.chargeBad (s : State) (p per : Nat) (compute : List Nat) (l : List (Nat × List (List Nat))) : Option (Nat × Nat) :=
  (s.part p).tiles.findSome? (fun t =>
    let es := ((l.find? (fun e => e.1 = t)).map (·.2)).getD []
    ((List.range (cdiv per 256)).find? (fun i =>
      !epochOk (s.rd (.tileGlb t) tileGlb.BUDGET) (s.baseline compute t) (epochLen per i) (es.getD i []))).map (fun i => (t, i)))

/-- Check 0x07. -/
def State.chargesOk (s : State) (p per : Nat) (compute : List Nat) (l : List (Nat × List (List Nat))) : Bool :=
  (s.chargeBad p per compute l).isNone

/-- Check 0x08: the budgets of all 72 tiles, an unassigned one at 60 pu (R51). -/
def State.budgetsOk (s : State) : Bool :=
  ((List.range 72).map (fun t => if (s.tilePart t).isNone then 60 else s.rd (.tileGlb t) tileGlb.BUDGET)).sum ≤ 69120

/-- The PMBASE values of each core's PROGRAM sections, in the order of the records (R219). -/
def pmBasesOf (im : Image) (l : List (List Byte)) : List (Nat × List Nat) :=
  (List.range im.ents.length).filterMap (fun i =>
    let e := im.ents.getD i {}
    if e.kind ≠ 2 then none else
    let mine := im.patches.filterMap (fun r => if r.kind = 6 ∧ r.sect = i then
      (((l[i]?).bind (fun bs => patchWindow bs r)).map (fun w => bits w r.shift r.width)) else none)
    if mine = [] then none else some (e.target, mine))

/-- The charges of the POWER sections by physical tile. -/
def chargesOf (x : Placing) (l : List Sect) : List (Nat × List (List Nat)) :=
  l.filterMap (fun y => match y with | .power t es => (x.tile t).map (fun t => (t, es)) | _ => none)

/-- The tables of an image, after those that stay of a running placement (R227, R228). -/
def State.wiring (s : State) (p : Nat) (x : Placing) (repair : Bool) (l : List Sect) : Wiring :=
  let own := (List.range l.length).flatMap (fun i => match l.getD i (.unknown 0) with
    | .slots t es => (match x.tile t with | some t => es.map (fun e => (i, t * 256 + e.1 % 256, e.2)) | none => [])
    | _ => [])
  let ownR := l.flatMap (fun y => match y with
    | .routes t es _ => (match x.tile t with | some t => es.map (fun e => (t * 256 + e.1 % 256, e.2.1, e.2.2)) | none => [])
    | _ => [])
  if !repair then { slots := own, routes := ownR } else
  let newS := l.filterMap (fun y => match y with | .slots t _ => x.tile t | _ => none)
  let newR := l.filterMap (fun y => match y with | .routes t _ _ => x.tile t | _ => none)
  let kept := (s.partCores p).flatMap (fun g => if newS.contains (tileOf g) then [] else (s.router g).slots.map (fun w => (0xFFFFFFFF, g, w)))
  let keptR := (s.partCores p).flatMap (fun g => if newR.contains (tileOf g) then [] else (s.router g).routes.map (fun e => (g, e.1, e.2)))
  { slots := kept ++ own, routes := keptR ++ ownR }

/-- A slot crosses a watershed: its link leaves the partition's tiles (check 0x04, R177). -/
def overWatershed (tiles : List Nat) (e : Nat × Nat × Nat) : Bool :=
  match hop e.2.1 (slOut e.2.2) with
  | some (dst, _, _, _) => dst < 32768 && !tiles.contains (tileOf dst)
  | none => false

/-- Check 0x0B for one channel's schedule: the first entry that breaks R196. -/
def State.channelBad (s : State) (p m ch per : Nat) (l : List Nat) : Option Nat :=
  let lim := if s.setMutable m (ch / 8) then 224 else 448
  let span (a b : Nat) : Nat := (l.map (fun e => min b (csCycle e + csFlits e) - max a (csCycle e))).sum
  let early (e : Nat) : Nat := csCycle e - 340
  let queued (c : Nat) : Nat := (l.map (fun e => if early e ≤ c ∧ c < csCycle e then csUnits e else 0)).sum
  let held (c : Nat) : Nat := (l.map (fun e => if early e ≤ c then csFlits e - (c - csCycle e) else 0)).sum
  let regionOk (e : Nat) : Bool :=
    let r := s.region m (csRegion e)
    let arg := if csSrc e = 1 then 0 else csArg e
    r.valid && r.owner = p && (!r.single || r.ch = ch) &&
      32 * (arg + csFlits e) ≤ (if csSrc e = 0 then 4096 * r.len else s.regionSize m r)
  let wide (k : Nat) : Bool :=
    let b := min per (640 * (k + 1))
    lim * (b - 640 * k) / 640 < span (640 * k) b
  let windows (e : Nat) : List Nat :=
    (List.range ((csCycle e + csFlits e - 1) / 640 + 1 - csCycle e / 640)).map (· + csCycle e / 640)
  l.find? (fun e => csCycle e < 352 || per < csCycle e + csFlits e + 108 || 24 < queued (early e) || 2048 < held (early e) ||
    !regionOk e || (windows e).any wide)

/-- The channels of the CHANSCHED sections that break a test, as (section, site, channel, entry). -/
def chanFind (x : Placing) (l : List Sect) (f : Nat → Nat → List Nat → Option Nat) : Option (Nat × Nat × Nat × Nat) :=
  (List.range l.length).findSome? (fun i => match l.getD i (.unknown 0) with
    | .chansched k es _ =>
      (match transSite x.lw x.ox x.oy k with
       | some m => (List.range 32).findSome? (fun ch =>
           (f m ch ((es.filter (fun e => e.1 % 32 = ch)).map (·.2))).map (fun e => (i, m, ch, e)))
       | none => none)
    | _ => none)

/-- A channel schedule of more than 4,096 entries, or one not sorted by CYCLE (R194): the entry that shows it. -/
def scheduleBad (l : List Nat) : Option Nat :=
  if 4096 < l.length then l[4096]? else
  ((l.zip (l.drop 1)).find? (fun z => decide (csCycle z.2 < csCycle z.1))).map (·.2)

/-! ### Symbols, keys and staged data (R209 to R212, R217) -/

/-- The channel schedules that name a symbol match the kind of the set it is bound to: DEEP entries a MUTABLE set, others a WEIGHT set
(R217). -/
def State.setMatches (s : State) (im : Image) (m sym v : Nat) : Bool :=
  im.patches.all (fun r => r.kind ≠ 5 ||
    (match im.ents[r.sect]? with
     | some e => (match e.sect e.bytes, patchWindow e.bytes r with
       | .chansched _ l _, some w => bits w r.shift r.width ≠ sym ||
           l.all (fun z => csSrc z.2 = 3 || z.1 % 32 / 8 ≠ v || decide (csSrc z.2 = 1) = s.setMutable m v)
       | _, _ => true)
     | none => true))

/-- Code 0x16 for one symbol: unique, bound once, and its value keeps R217 but for what codes 0x17 to 0x19 name. -/
def State.symbolOk (s : State) (p : Nat) (d : LoadData) (im : Image) (x : Placing) (y : Symbol) : Bool :=
  (im.symbols.countP (fun e => e.sym = y.sym) = 1) && ((pairsOf d).countP (fun e => e.1 = y.sym) = 1) &&
    (match boundTo d y.sym, y.kind with
     | some v, 1 => v % 2 ^ y.align = 0
     | some v, 2 => decide (v < 32)
     | some v, 3 => v < 64 && (match transSite x.lw x.ox x.oy y.site with
         | some m => (s.region m v).valid && (s.region m v).owner = p && s.sitePart m = some p
         | none => false)
     | some v, 4 => v < 4 && (match transSite x.lw x.ox x.oy y.site with
         | some m => s.setMatches im m y.sym v
         | none => false)
     | _, _ => false)

/-- A range of staged units: site, region, first unit, units. -/
structure StagedRun where
  site : Nat := 0
  region : Nat := 0
  unit : Nat := 0
  n : Nat := 0
  deriving DecidableEq, Repr

/-- The unit ranges that the partition's IMAGE regions hold as staged, but for the regions of other entries (R210). -/
def State.stagedRuns (s : State) (p k : Nat) : List StagedRun :=
  let other (m i : Nat) : Bool := (s.part p).staged.any (fun e => e.1 ≠ k && e.2.valid && e.2.parts.any (fun z => z.1 = m && z.2.1 = i))
  (s.partSites p).flatMap (fun m => (s.site m).stagedAt.filterMap (fun e =>
    let r := s.region m e.1
    if s.serves m r && r.owner = p && r.kind = 1 && !s.setLost m r.set && !other m e.1
    then some { site := m, region := e.1, unit := r.tweak + cdiv e.2.1 4096, n := e.2.2 / 4096 - cdiv e.2.1 4096 } else none))

/-- Splits `n` units from unit `u` on at range boundaries (R224): run and first unit, units; none where a unit lies in no range. -/
def splitUnits (runs : List StagedRun) : Nat → Nat → Nat → Option (List (StagedRun × Nat × Nat))
  | 0, _, n => if n = 0 then some [] else none
  | f + 1, u, n =>
    if n = 0 then some [] else
    match runs.find? (fun r => r.unit ≤ u && u < r.unit + r.n) with
    | none => none
    | some r =>
      let k := min n (r.unit + r.n - u)
      (splitUnits runs f (u + k) (n - k)).map (fun l => (r, u, k) :: l)

/-- A staged-image entry as it stands for an image: one that is valid for it, or one made of what is staged beside the other entries, valid
when every unit of the blob lies in some region of it (R210). -/
def State.entryFor (s : State) (p k : Nat) (im : Image) : Staged :=
  let e := Table.get {} (s.part p).staged k
  if e.valid && e.imageId = im.id then e else
  let runs := s.stagedRuns p k
  let n := im.blobLen / 4096
  { valid := k < 4 && (splitUnits runs (n + 1) 0 n).isSome, imageId := im.id, parts := runs.map (fun r => (r.site, r.region, r.unit, r.n)) }

/-- The ranges of a staged-image entry. -/
def Staged.runs (e : Staged) : List StagedRun := e.parts.map (fun z => { site := z.1, region := z.2.1, unit := z.2.2.1, n := z.2.2.2 })

/-- The units that the transient region of a load descriptor holds at a time; 0 where it is missing (R211). -/
def State.transientUnits (s : State) (p : Nat) (d : LoadData) : Nat :=
  let m := descAt d 40 1
  let r := s.region m (descAt d 41 1)
  if m < 16 && descAt d 41 1 < 64 && s.serves m r && r.owner = p && r.kind = 1 then s.regionSize m r / 4096 else 0

/-- The transient region's ranges: the blob goes through it piece by piece (R211). -/
def State.transientRuns (s : State) (p : Nat) (d : LoadData) (im : Image) : List StagedRun :=
  let k := s.transientUnits p d
  if k = 0 then [] else
  let n := im.blobLen / 4096
  (List.range (cdiv n k)).map (fun i => { site := descAt d 40 1, region := descAt d 41 1, unit := k * i, n := min k (n - k * i) })

/-- Where a load reads its units; none where the entry is not valid or the transient region is missing. -/
def State.runsFor (s : State) (p : Nat) (d : LoadData) (im : Image) : Option (List StagedRun) :=
  if isStaged d then (let e := s.entryFor p (descAt d 17 1) im; if e.valid then some e.runs else none)
  else if im.blobLen = 0 then some []
  else if s.transientUnits p d = 0 then none else some (s.transientRuns p d im)

/-- The WEIGHTS sections: logical core, first unit, bytes, destination. -/
def weightsOf (l : List Sect) : List (Nat × Nat × Nat × Nat) :=
  l.filterMap (fun x => match x with | .weights c u n dst => some (c, u, n, dst) | _ => none)

/-- Code 0x19: every unit is staged or can go through the transient region, regions have the declared kind and size, and STACKFED data is
staged in its region, in a partition with a WEIGHT set for its weights (R210 to R212).  A repair has no blob. -/
def State.sitesOk (s : State) (p : Nat) (d : LoadData) (im : Image) (x : Placing) (l : List Sect) : Bool :=
  im.repair ||
  ((s.runsFor p d im).isSome &&
  (weightsOf l = [] || (s.partSites p).any (fun m => (List.range 4).any (fun k => !s.setMutable m k))) &&
  im.symbols.all (fun y => y.kind ≠ 3 || (match transSite x.lw x.ox x.oy y.site, boundTo d y.sym with
    | some m, some v => (s.region m v).kind = y.align && y.size ≤ (s.region m v).len
    | _, _ => false)) &&
  l.all (fun y => match y with
    | .stackfed k _ n sym => (match transSite x.lw x.ox x.oy k, boundTo d sym with
        | some m, some v => (s.region m v).kind = 3 && (s.site m).stagedAt.any (fun e => e.1 = v && e.2.1 = 0 && n ≤ e.2.2)
        | _, _ => false)
    | _ => true))

/-! ### The stages of R222 -/

/-- A code, and the first offending tile, schedule cycle and section (R225). -/
structure LoadErr where
  code : Nat := 0
  tile : Nat := 0xFFFF
  cycle : Nat := 0xFFFFFFFF
  sect : Nat := 0xFFFFFFFF
  deriving DecidableEq, Repr

/-- What the stages find: a refusal, or the placement and the sections to write, with the measurement of this reading and whether the second
differs. -/
inductive LoadPlan where
  | refuse (e : LoadErr)
  | go (x : Placing) (l : List Sect) (meas : Nat) (changed : Bool)
  deriving DecidableEq, Repr

/-- A refusal that names a slot entry. -/
def slotErr (code : Nat) (e : Nat × Nat × Nat) : LoadErr := { code := code, tile := tileOf e.2.1, cycle := slCycle e.2.2, sect := e.1 }

/-- Stage 0x11: the partition is not OFF, or a load or repair runs on it; a repair is for a partition that runs (R222, R228). -/
def State.stateBad (s : State) (p : Nat) (repair : Bool) : Bool :=
  (if repair then s.pstate p ≠ 2 else s.pstate p ≠ 0) || (s.part p).job.isSome || s.flag (.tickgen p) page.PEND ||
    s.flag (.tickgen p) tickgen.TD_BUSY

/-- The image and the binding block lie in the partition's apertures, and the status record in a writable one (R380). -/
def State.loadReach (s : State) (p : Nat) (d : LoadData) : Bool :=
  s.inAperture p (descAt d 0 8) (descAt d 8 8) false && (descAt d 20 4 = 0 || s.inAperture p (descAt d 24 8) (16 * descAt d 20 4) false) &&
    s.inAperture p (descAt d 32 8) 32 true

/-- Stage 0x10: the header, the section bounds, a section (the first of which is named), and the windows of R220. -/
def formatBad (d : LoadData) (im : Image) : Option LoadErr :=
  if !im.headOk || !im.boundsOk (fileOf d).length (!isStaged d) || (im.repair && im.blobLen ≠ 0) then some { code := 0x10 }
  else match (List.range im.ents.length).find? (fun i => !(im.ents.getD i {}).ok im.repair) with
    | some i => some { code := 0x10, sect := i }
    | none => if windowsOk im then none else some { code := 0x10 }

/-- The placement that a load takes, or the code by which none fits (R213 to R215): the running one after the cut for a repair. -/
def State.place (s : State) (p : Nat) (d : LoadData) (im : Image) : Except Nat Placing :=
  let base := s.img p
  let l := if im.repair then [base.afterCut im] else (origins d im).map (placing im)
  let here := l.filter (s.tilesMatch p)
  if here = [] then .error 0x13 else
  match here.find? s.placeFits with
  | none => .error 0x14
  | some x => if im.repair && !s.reserveFree p base im then .error 0x14 else .ok x

/-- Stages 0x1A to 0x12 that need no placement (R222): the first code that applies. -/
def State.loadGate (s : State) (p : Nat) (im : Image) : Option Nat :=
  if !s.ifgenOk p im.ifgen then some 0x1A
  else if im.repair ∧ (im.baseId ≠ (s.img p).id ∨ im.faultGen ≠ s.faultGen) then some 0x1C
  else if s.fuses.grade < im.grade then some 0x12
  else none

/-- Data for a logical core lies within the 8 MiB slab of a data core: neither a parity core nor a spare holds data of its own (R7, R16). -/
def slabFits (core dest len : Nat) : Bool :=
  cragLocal core ≠ 11 && cragLocal core ≠ 15 && 8 * dest + len ≤ 0x800000

/-- A limit of R7 that the image exceeds: vocabulary, head dimension, context, density of its variants, what does not lie within the
data-bearing slab, or a sliding window, which its lane directories give (R110). -/
def State.limitBad (s : State) (x : Placing) (l : List Sect) : Bool :=
  let i := pipeOf l
  l.any (fun y => match y with
    | .weights c _ n dst => !slabFits c dst n
    | .program c dst bs => !slabFits c dst bs.length
    | _ => false) ||
  262144 < i.vocab || i.headDim ≠ 128 || 1048576 < i.context || 100 < i.density ||
    i.regions.any (fun r => r.binds.any (fun b => l.any (fun y => match y with
      | .program c dst bs =>
        let o := b.2.2.2.2.1 - (0x800000 + 8 * dst)
        s.placed x c = some b.1 && 0x800000 + 8 * dst ≤ b.2.2.2.2.1 && o + 4 ≤ bs.length && 256 < field bs (o + 2) 2
      | _ => false)))

/-- The lane directory at byte `o` of a section's bytes, at slab address `a`: SHARDS and the window (R110). -/
def dirIn (a : Nat) (bs : List Byte) (c : Nat) : Option (Nat × Nat × Nat) :=
  if cOp c ≠ 0x11 ∨ cA c < a ∨ a + bs.length < cA c + 4 then none else
  let o := cA c - a
  some (cA c, 64 * field bs (o + 2) 2, field bs o 1)

/-- The step program of a logical core from the PROGRAM sections of an image: at PROG_BASE for a load, at the start of its last section for a
repair, which sets PROG_NEXT (R73, R228); none where a repair brings the core no section. -/
def State.ownProg (s : State) (repair : Bool) (x : Placing) (l : List Sect) (lc g : Nat) : Option Prog :=
  let mine := (List.range l.length).filterMap (fun i => match l.getD i (.unknown 0) with
    | .program c dst bs => if c = lc then some (i, 0x800000 + 8 * dst, bs) else none
    | _ => none)
  let base := 16 * s.rd (.core g) core.PROG_BASE
  let hit := if repair then mine.getLast? else mine.find? (fun e => e.2.1 ≤ base && base < e.2.1 + e.2.2.length)
  match hit with
  | some (i, a, bs) =>
    let ws := progWords (if repair then bs else bs.drop (base - a))
    some { sect := i, rtr := posFor x.moved x.ox x.oy lc, core := g, words := ws
           dirs := ws.filterMap (fun w => mine.findSome? (fun e => dirIn e.2.1 e.2.2 w)) }
  | none => if repair then none else some { sect := 0xFFFFFFFF, rtr := posFor x.moved x.ox x.oy lc, core := g }

/-- The program that a core runs now, from its slab. -/
def State.runningProg (s : State) (x : Placing) (lc g : Nat) : Prog :=
  let base := 16 * s.rd (.core g) core.PROG_BASE
  let c := s.core g
  let ws := upToHalt ((List.range ((0x1000000 - base) / 16)).map (fun i => leNat (c.read (base + 16 * i) 16)))
  { sect := 0xFFFFFFFF, rtr := posFor x.moved x.ox x.oy lc, core := g, words := ws
    dirs := ws.filterMap (fun w => if cOp w = 0x11 then some (cA w, dirWindow c (cA w), dirShards c (cA w)) else none) }

/-- The step programs of a placement: of every logical core that has a requirement entry, those of the image first and for a repair the
running ones of the other cores, whose placement is `old` (R227). -/
def State.programs (s : State) (old : Option Placing) (x : Placing) (l : List Sect) : List Prog :=
  x.reloc.filterMap (fun e => match s.placed x e.1 with
    | some g => (s.ownProg old.isSome x l e.1 g).or ((old.bind (fun b => s.placed b e.1)).map (fun h => { s.runningProg x e.1 h with core := g }))
    | none => none)

/-- The commands of step programs as (section, sender's router, command). -/
def commandsOf (ps : List Prog) : List (Nat × Nat × Nat) := ps.flatMap (fun p => p.words.map (fun w => (p.sect, p.rtr, w)))

/-- A refusal for which no rule gives a code (log 61). -/
def freeErr (k : Nat) (e : LoadErr) : LoadErr := { e with code := 1 + Config.checkCode k % 11 }

/-- The refusals of the checker for which no rule gives a code (R7, R80, R157, R159, R194). -/
def State.checkRest (s : State) (p : Nat) (x : Placing) (w : Wiring) (ps : List Prog) (l : List Sect) : Option LoadErr :=
  let cmds := commandsOf ps
  let at' (e : Nat × Nat × Nat) : LoadErr := { tile := tileOf e.2.1, sect := e.1 }
  if s.limitBad x l then some (freeErr 0 {})
  else match cmds.find? (fun e => cmdFormatBad e.2.2) with
  | some e => some (freeErr 1 (at' e))
  | none =>
    match w.maskBad with
    | some e => some (freeErr 2 (slotErr 0 e))
    | none =>
      match cmds.find? (fun e => w.sendBad e.2.1 e.2.2) with
      | some e => some (freeErr 3 (at' e))
      | none => (chanFind x l (fun _ _ l => scheduleBad l)).map (fun e =>
          freeErr 4 { tile := siteTile e.2.1, cycle := csCycle e.2.2.2, sect := e.1 })

/-- The checker (R55, R196): the first check that fails, on a placement's tables and step programs. -/
def State.checker (s : State) (p : Nat) (im : Image) (x : Placing) (l : List Sect) : Option LoadErr :=
  let w := s.wiring p x im.repair l
  let ps := s.programs (if im.repair then some (s.img p).placing else none) x l
  let context := if im.repair then (s.img p).context else (pipeOf l).context
  let per := 8 * im.period
  let comp := x.compute.filterMap x.tile
  let ch := overlay (if im.repair then (s.img p).charges else []) (chargesOf x l)
  let run (k : Nat) : Option LoadErr := (w.runCheck ps context im.w per k).map (fun z => { code := k, tile := z.2.1, cycle := z.2.2, sect := z.1 })
  let bad : List (Unit → Option LoadErr) := [
    fun _ => if im.period < 250 ∨ 6400 < im.period then some { code := 0x01 } else none,
    fun _ => (w.injections.find? (fun e => slCycle e.2.2 < 12 || per < slCycle e.2.2 + 109)).map (slotErr 0x02),
    fun _ => run 0x02,
    fun _ => w.twice.map (slotErr 0x03),
    fun _ => (w.slots.find? (overWatershed (s.part p).tiles)).map (slotErr 0x04),
    fun _ => w.long.map (slotErr 0x05),
    fun _ => run 0x06,
    fun _ => (s.chargeBad p per comp ch).map (fun z => { code := 0x07, tile := z.1, cycle := 256 * z.2 }),
    fun _ => if s.budgetsOk then none else some { code := 0x08 },
    fun _ => if im.w < 1 ∨ 4 < im.w ∨ 512 < im.w * im.nregions then some { code := 0x09 } else none,
    fun _ => if (pipeOf l).entryCycle < 40 then some { code := 0x0A, cycle := (pipeOf l).entryCycle } else none,
    fun _ => (chanFind x l (fun m ch es => s.channelBad p m ch per es)).map (fun e =>
      { code := 0x0B, tile := siteTile e.2.1, cycle := csCycle e.2.2.2, sect := e.1 }),
    fun _ => s.checkRest p x w ps l]
  bad.findSome? (fun f => f ())

/-- The last stages: symbols, apertures, keys and sites. -/
def State.bindingCheck (s : State) (p : Nat) (d : LoadData) (im : Image) (x : Placing) (l : List Sect) : Option Nat :=
  let ys := im.symbols
  if !ys.all (s.symbolOk p d im x) then some 0x16
  else if ys.any (fun y => y.kind = 1 && !s.inAperture p ((boundTo d y.sym).getD 0) y.size false) then some 0x17
  else if ys.any (fun y => y.kind = 2 && !s.slotBusy p ((boundTo d y.sym).getD 32)) then some 0x18
  else if !s.sitesOk p d im x l then some 0x19
  else none

/-- The bytes of the sections of the second reading (R223), at the places of the first. -/
def Image.secondRead (im : Image) (d : LoadData) : List (List Byte) :=
  im.ents.map (fun e => if blobKind e.kind then [] else ((d.again.take (descAt d 8 8)).drop e.offset).take e.length)

/-- LOAD_CHECK (R222): the stages in their order.  A value wider than its field is an image error of the stage 0x10, under the placement where
there is one (R220). -/
def State.loadPlan (s : State) (p : Nat) (d : LoadData) : LoadPlan :=
  let im := imageOf (fileOf d)
  let refuse (c : Nat) : LoadPlan := .refuse { code := c }
  if s.stateBad p im.repair then refuse 0x11
  else if !s.loadReach p d then refuse 0x17
  else match formatBad d im with
  | some e => .refuse e
  | none =>
    let pl := s.place p d im
    let start := if im.repair then (s.part p).meas else 0
    let x? := match pl with | .ok x => some x | .error _ => none
    match s.patched p d x? im (im.ents.map (·.bytes)) with
    | none => refuse 0x10
    | some bs =>
      match s.loadGate p im, pl with
      | some c, _ => refuse c
      | none, .error c => refuse c
      | none, .ok x =>
        let l := im.sects bs
        match (s.wiring p x im.repair l).full with
        | some e => .refuse (slotErr 0x15 e)
        | none =>
          match s.checker p im x l with
          | some e => .refuse e
          | none =>
            match s.bindingCheck p d (im.withBytes bs) x l with
            | some c => refuse c
            | none =>
              let meas := measureFrom start im bs
              .go x l meas ((s.patched p d (some x) im (im.secondRead d)).map (measureFrom start im) != some meas)

/-! ### Status records (R225) -/

/-- The bytes of a status record. -/
def LoadStatus.bytes (x : LoadStatus) : List Byte :=
  leBytes 1 x.status ++ leBytes 1 x.code ++ leBytes 2 x.tile ++ leBytes 4 x.cycle ++ leBytes 4 x.sect ++ leBytes 1 x.ox ++ leBytes 1 x.oy ++
    leBytes 2 0 ++ leBytes 8 x.imageId ++ leBytes 4 x.micros ++ leBytes 4 x.gen

/-- Writes the status record and the LOADED completion; HANDLE is a free value (log 9). -/
def State.writeStatus (s : State) (p addr cookie : Nat) (x : LoadStatus) : State :=
  let s := if s.inAperture p addr 32 true then s.sendWrite p true addr x.bytes else s.apertViol p
  let (v, s) := s.free
  (s.updPart p (fun y => { y with status := some x })).postCpl p
    { event := 10, code := x.code, cookie := cookie, handle := v.toNat % 2 ^ 17 }

/-! ### The write phase (R216, R224, R228) -/

/-- The bulk direction table of a partition (R173): for each pair of its tiles the edge of a shortest way that stays within it, N, E, S, W in
this order (log 34); `d` holds the distances found so far. -/
def reach (tiles : List Nat) (dst : Nat) : Nat → List (Nat × Nat) → List (Nat × Nat)
  | 0, l => l
  | n + 1, l =>
    let new := tiles.filterMap (fun t =>
      if t = dst ∨ l.any (fun e => e.1 = t) then none else
      ((List.range 4).find? (fun e => match neighbour t e with
        | some u => u = dst || l.any (fun x => x.1 = u)
        | none => false)).map (fun e => (t, e)))
    reach tiles dst n (l ++ new)

/-- Writes the bulk direction tables of the tiles. -/
def State.bulkTables (s : State) (tiles : List Nat) : State :=
  let s := tiles.foldl (fun s t => s.updTile t (fun x => { x with bulkDir := [] })) s
  tiles.foldl (fun s u => (reach tiles u tiles.length []).foldl (fun s e =>
    s.updTile e.1 (fun x => { x with bulkDir := Table.set 0 x.bulkDir u (e.2 + 1) })) s) s

/-- The bulk direction entries of the ROUTES sections, as (tile, destination tile, edge), with physical destinations after their records
(R219): an entry that would lead out of the partition is none (R173, R177, log 34). -/
def bulkOf (x : Placing) (tiles : List Nat) (l : List Sect) : List (Nat × Nat × Nat) :=
  l.flatMap (fun y => match y with
    | .routes t _ b => (match x.tile t with
        | some t => b.filterMap (fun e => match neighbour t (e.2 % 4) with
            | some v => if tiles.contains v then some (t, e.1, e.2 % 4) else none
            | none => none)
        | none => [])
    | _ => [])

/-- Writes bulk direction entries. -/
def State.putBulk (s : State) (l : List (Nat × Nat × Nat)) : State :=
  l.foldl (fun s e => s.updTile e.1 (fun z => { z with bulkDir := Table.set 0 z.bulkDir e.2.1 (e.2.2 + 1) })) s

/-- Clears every slab, table and schedule of the partition (R223, R224). -/
def State.clearLoaded (s : State) (p : Nat) : State :=
  let ts := (s.part p).tiles
  let s := (s.partCores p).foldl (fun s g =>
    (s.updCore g (fun c => { c with mem := c.mem.filter (fun e => decide (e.1 < 0x800000)), binds := [], dirty := [], armed := false, deepAt := []
                                    cache := [], cacheCnt := 0 })).updRouter g
      (fun r => { r with slots := [], routes := [], slotsB := [], routesB := [] })) s
  let s := ts.foldl (fun s t => (List.range 16).foldl (fun s y =>
    (s.updCrag (t * 16 + y) (fun c => { c with deltas := [] })).setFlag (.crag t y) crag.BUS_IDLE true) s) s
  let s := (s.partSites p).foldl (fun s m => s.updSite m (fun x => { x with
    deep := [], chans := Table.mapVals {} (fun c => { c with sched := [] }) x.chans })) s
  s.bulkTables ts

/-- A slot entry in its place: the table is sorted by CYCLE and then OUT, bits [31:13] (R156). -/
def insertSlot (e : Nat) : List Nat → List Nat
  | [] => [e]
  | x :: t => if e / 2 ^ 13 < x / 2 ^ 13 then e :: x :: t else x :: insertSlot e t

/-- Writes a section into its place: active tables of a load, inactive ones of a repair (R224, R228). -/
def State.writeSect (s : State) (x : Placing) (repair : Bool) (y : Sect) : State :=
  match y with
  | .program c dst bs =>
    (match s.placed x c with
     | some g => s.memWrite g (0x800000 + 8 * dst) bs
     | none => s)
  | .slots t l =>
    (match x.tile t with
     | some t => l.foldl (fun s e => s.updRouter (t * 256 + e.1 % 256) (fun r =>
         if repair then { r with slotsB := insertSlot e.2 r.slotsB } else { r with slots := insertSlot e.2 r.slots })) s
     | none => s)
  | .routes t l _ =>
    (match x.tile t with
     | some t => l.foldl (fun s e => s.updRouter (t * 256 + e.1 % 256) (fun r =>
         if repair then { r with routesB := Table.set 0 r.routesB e.2.1 e.2.2 } else { r with routes := Table.set 0 r.routes e.2.1 e.2.2 })) s
     | none => s)
  | .chansched k l q =>
    (match transSite x.lw x.ox x.oy k with
     | some m =>
       let s := l.foldl (fun s e => s.updChan m (e.1 % 32) (fun c => { c with sched := c.sched ++ [e.2] })) s
       s.updSite m (fun z => { z with deep := z.deep ++ q.map (fun e => { layer := e.1, head := e.2.1, shard := e.2.2.1, shards := e.2.2.2 }) })
     | none => s)
  | _ => s

/-- The pieces of the WEIGHTS sections, split at range boundaries (R224): core, slab offset, run, first unit, and length in 32-byte units. -/
def State.weightPieces (s : State) (x : Placing) (runs : List StagedRun) (l : List Sect) : List (Nat × Nat × StagedRun × Nat × Nat) :=
  (weightsOf l).flatMap (fun w =>
    let n := cdiv w.2.2.1 4096
    match s.placed x w.1 with
    | none => []
    | some g => ((splitUnits runs (n + 1) w.2.1 n).getD []).map (fun z =>
        (g, 8 * w.2.2.2 + 4096 * (z.2.1 - w.2.1), z.1, z.2.1, min (128 * z.2.2) (cdiv w.2.2.1 32 - 128 * (z.2.1 - w.2.1)))))

/-- The LOAD of one piece, from where its run holds it. -/
def State.loadCmd (s : State) (p : Nat) (e : Nat × Nat × StagedRun × Nat × Nat) : State × (Nat × PmCmd × List Byte) :=
  let (g, off, r, u, n) := e
  let at' := if (s.region r.site r.region).tweak ≤ r.unit then r.unit - (s.region r.site r.region).tweak else 0
  let (t, s) := s.takeTid p
  (s, (r.site, { op := 3, region := r.region, offset := 128 * (at' + (u - r.unit)), length := n, tid := t, core := g, slab := off / 8 }, []))

/-- The LOADs of pieces. -/
def State.loadCmdList (s : State) (p : Nat) (l : List (Nat × Nat × StagedRun × Nat × Nat)) : State × List (Nat × PmCmd × List Byte) :=
  l.foldl (fun a e => let (s, c) := a.1.loadCmd p e; (s, a.2 ++ [c])) (s, [])

/-- The commands that move one piece of the blob through the transient region (R211): its TWEAK_BASE (an entry with op 0, which waits until
the region's commands have ended), its STAGE_IN at offset 0, and its LOADs. -/
def State.transientCmds (s : State) (p : Nat) (blob : List Byte) (l : List (Nat × Nat × StagedRun × Nat × Nat)) (r : StagedRun) :
    State × List (Nat × PmCmd × List Byte) :=
  let (t, s) := s.takeTid p
  let head : List (Nat × PmCmd × List Byte) :=
    [(r.site, { op := 0, region := r.region, offset := r.unit }, []),
     (r.site, { op := 1, region := r.region, offset := 0, length := 128 * r.n, tid := t }, (blob.drop (4096 * r.unit)).take (4096 * r.n))]
  let (s, cs) := s.loadCmdList p (l.filter (fun e => e.2.2.1 = r))
  (s, head ++ cs.map (fun c => (c.1, { c.2.1 with offset := c.2.1.offset % (128 * max r.n 1) }, c.2.2)))

/-- The page-mover commands of a load (R211, R224): for each WEIGHTS section a LOAD per range, from the staged ranges or through the transient
region. -/
def State.loadCmds (s : State) (p : Nat) (d : LoadData) (im : Image) (x : Placing) (l : List Sect) : State × List (Nat × PmCmd × List Byte) :=
  let runs := (s.runsFor p d im).getD []
  let ps := s.weightPieces x runs l
  if isStaged d then s.loadCmdList p ps
  else runs.foldl (fun a r => let (s, cs) := a.1.transientCmds p im.blob ps r; (s, a.2 ++ cs)) (s, [])

/-- Sends the commands of a load for which the page movers have room; a new TWEAK_BASE waits until no command of its region is left. -/
def pumpList (s : State) : List (Nat × PmCmd × List Byte) → State × List (Nat × PmCmd × List Byte)
  | [] => (s, [])
  | (m, c, bs) :: t =>
    if c.op = 0 then
      if (s.site m).pm.any (fun j => j.cmd.region = c.region) then (s, (m, c, bs) :: t) else
      pumpList (s.updSite m (fun y => { y with regions := Table.upd {} y.regions c.region (fun r => { r with tweak := c.offset }) })) t
    else if 64 ≤ (s.site m).pm.length then (s, (m, c, bs) :: t) else pumpList (s.pmSend m c.op c bs) t

/-- The load of a partition goes on. -/
def State.pumpLoad (s : State) (p : Nat) : State :=
  match (s.part p).job with
  | none => s
  | some j =>
    if j.abort.isSome then s else
    let (s, l) := pumpList s j.todo
    s.updPart p (fun x => { x with job := x.job.map (fun j => { j with todo := l }) })

/-- What the PIPE section and header leave as the loaded image (R207); its records have made the core and site fields of the pipeline tables
physical (R219). -/
def loadedOf (im : Image) (x : Placing) (l : List Sect) : Loaded :=
  let i := pipeOf l
  { id := im.id, kvLayout := im.kvLayout, stackfed := im.stackfed, grade := im.grade, w := im.w, period := im.period
    regions := i.regions.map (fun r => { a4 := r.a4, glob := r.glob, cores := r.cores })
    buckets := i.buckets.map (fun b => { compiled := b.1, mu := b.2.1, deep := b.2.2 }), vocab := i.vocab, width := i.width
    deltaMask := i.deltaMask, deltaSpan := i.deltaSpan, deltaSites := i.deltaSites
    pagesPer64 := i.pagesPer64, primeBytes := i.primeBytes, present := im.present, compute := im.compute, sites := im.sites
    reloc := x.reloc, charges := chargesOf x l, ox := x.ox, oy := x.oy, lw := im.lw, lh := im.lh
    summit := i.summit, sampler := i.sampler, context := i.context }

/-- The directory map of the control tile: the bindings of each core whose directory base a PMBASE record names (R110, R219, log 79). -/
def State.writeBinds (s : State) (p : Nat) (bases : List Nat) (l : List Sect) : State :=
  (pipeOf l).regions.foldl (fun s r => r.binds.foldl (fun s b =>
    let (g, layer, kv, head, dir, heads) := b
    if bases.contains dir ∧ (s.partCores p).contains g then s.updCore g (fun k => { k with
      binds := k.binds ++ [{ layer := layer, kvHead := kv, head := head, dir := dir, heads := heads }] }) else s) s) s

/-- The bases that the PMBASE records of a repair name go into the directory map: the bindings of the core in their order (R219; log 79). -/
def rebase : List Binding → List Nat → List Binding
  | [], _ => []
  | l, [] => l
  | b :: l, v :: t => { b with dir := v } :: rebase l t

/-- The region entries of an image, at their sites. -/
def entsOf (l : List Sect) : List (Nat × Nat × Nat) := (pipeOf l).ents.map (fun e => (e.1, e.2.1 % 64, e.2.2))

/-- The migration list in physical cores (R229): from where a core stands to the core that will stand for it. -/
def State.movesOf (s : State) (b : Loaded) (im : Image) : List Move :=
  im.migrate.filterMap (fun e =>
    let (src, dst, off, len, dstOff) := e
    (s.placed b.placing src).map (fun a => { src := a, dst := dst + (b.oy * 9 + b.ox) * 256, off := off, len := len, dstOff := dstOff }))

/-- The inactive banks begin as the active ones, so that unchanged routers keep their tables (R228); those of the tiles that a repair
changes are written anew. -/
def State.copyBanks (s : State) (p : Nat) (x : Placing) (l : List Sect) : State :=
  let newS := l.filterMap (fun y => match y with | .slots t _ => x.tile t | _ => none)
  let newR := l.filterMap (fun y => match y with | .routes t _ _ => x.tile t | _ => none)
  (s.partCores p).foldl (fun s g => s.updRouter g (fun r => { r with
    slotsB := if newS.contains (tileOf g) then [] else r.slots, routesB := if newR.contains (tileOf g) then [] else r.routes })) s

/-- The runs of consecutive blocks of a move, among the blocks of its source that `want` names: first block and blocks. -/
def Move.runs (m : Move) (want : Nat → Bool) : List (Nat × Nat) :=
  (List.range m.len).foldr (fun i l =>
    let b := m.off + i
    if !want b then l else match l with
      | (c, n) :: t => if c = b + 1 then (b, n + 1) :: t else (b, 1) :: l
      | [] => [(b, 1)]) []

/-- Starts the copy of a run of blocks: bulk flits from the router of the source, which the loader follows as a transfer (R173, R229). -/
def State.startCopy (s : State) (p : Nat) (m : Move) (b n : Nat) : State :=
  let (t, s) := s.takeTid p
  let r : CopyRun := { tid := t, src := 4096 * b, dst := m.dst, off := 4096 * (m.dstOff + (b - m.off)), len := 4096 * n }
  let s := (s.updRouter m.src (fun x => { x with copies := x.copies ++ [r] })).addXfer p
    { cmd := { tid := t }, copy := some (m.src, r), expect := r.flits }
  s.updPart p (fun y => { y with job := y.job.map (fun j => { j with tids := j.tids ++ [t] }) })

/-- The copies of a round (R229): every block that the moves list and `want` names. -/
def State.startCopies (s : State) (p : Nat) (moves : List Move) (want : Move → Nat → Bool) : State :=
  moves.foldl (fun s m => (m.runs (want m)).foldl (fun s e => s.startCopy p m e.1 e.2) s) s

/-- Every copy of a repair has completed. -/
def State.copied (s : State) (p : Nat) (j : LoadJob) : Bool :=
  j.tids.all (fun t => (s.part p).xfers.any (fun x => x.cmd.tid = t && x.got = some (0, x.expect)))

/-- Forgets the copies of a round that has ended. -/
def State.endRound (s : State) (p : Nat) (j : LoadJob) : State :=
  s.updPart p (fun y => { y with xfers := y.xfers.filter (fun x => !j.tids.contains x.cmd.tid), job := y.job.map (fun j => { j with tids := [] }) })

/-- Begins a repair (R227 to R229): the inactive banks and programs are written, PROG_NEXT is set, the dirty maps of the sources are armed,
and round 1 starts its copies of every listed block. -/
def State.beginRepair (s : State) (p : Nat) (im : Image) (x : Placing) (l : List Sect) (j : LoadJob) : State :=
  let mv := s.movesOf (s.img p) im
  let s := l.foldl (fun s y => s.writeSect x true y) (s.copyBanks p x l)
  let progs := l.filterMap (fun y => match y with
    | .program c dst bs => (s.placed x c).map (fun g => (g, 0x800000 + 8 * dst, bs.length))
    | _ => none)
  let s := progs.foldl (fun s e => (s.wr (.core e.1) core.PROG_NEXT (e.2.1 / 16)).setFlag (.core e.1) core.NEXT_VALID true) s
  let s := (s.part p).tiles.foldl (fun s t => s.setFlag (.mesh t) mesh.BANK_NEXT_VALID true) s
  let s := mv.foldl (fun s m => s.updCore m.src (fun c => { c with armed := true, dirty := [] })) s
  let s := s.updPart p (fun y => { y with job := some { j with moves := mv, progs := progs, bulk := bulkOf x (s.part p).tiles l } })
  s.startCopies p mv (fun _ _ => true)

/-- A load refused, or stopped by a read error before anything was changed: its status record (R225), whose origin bytes are free values
(log 9). -/
def State.loadRefuse (s : State) (p : Nat) (d : LoadData) (c : CmdIn) (st : Nat) (e : LoadErr) : State :=
  let (v, s) := s.free
  s.writeStatus p (descAt d 32 8) c.cookie
    { status := st, code := e.code, tile := e.tile, cycle := e.cycle, sect := e.sect, ox := v.toNat % 256, oy := v.toNat / 256 % 256
      imageId := (imageOf (fileOf d)).id, micros := (s.clock - c.clock) / 2500, gen := s.faultGen }

/-- What a load begins with (R222). -/
def State.newJob (s : State) (p : Nat) (d : LoadData) (c : CmdIn) (meas : Nat) (changed : Bool) : LoadJob :=
  { repair := (imageOf (fileOf d)).repair, cookie := c.cookie, meas := meas, statusAddr := descAt d 32 8, startClock := c.clock
    gen := s.faultGen, changed := changed, budgets := (s.part p).tiles.map (fun t => (t, s.rd (.tileGlb t) tileGlb.BUDGET)) }

/-- The key slots that an image's binding block names (R218). -/
def keysOf (d : LoadData) (im : Image) : List Nat := im.symbols.filterMap (fun y => if y.kind = 2 then boundTo d y.sym else none)

/-- A repair that passes its checks begins (R228). -/
def State.startRepair (s : State) (p : Nat) (im : Image) (j : LoadJob) (x : Placing) (l : List Sect) (bases : List (Nat × List Nat)) : State :=
  let b := s.img p
  s.beginRepair p im x l { j with
    bases := bases.filterMap (fun e => (s.placed x e.1).map (fun g => (g, e.2)))
    image := { b with id := im.id, reloc := x.reloc, charges := overlay b.charges (chargesOf x l) } }

/-- The entry that a staged load leaves (R210). -/
def State.noteStaged (s : State) (p : Nat) (d : LoadData) (im : Image) : State :=
  if !isStaged d then s else
  let e := s.entryFor p (descAt d 17 1) im
  s.updPart p (fun y => { y with staged := Table.set {} y.staged (descAt d 17 1) e })

/-- A load that passes its checks begins (R222, R224): the slabs are cleared, tables, programs and bindings are written, and the weights start
to move.  The clear takes 65,536 cycles, while CLEAR_BUSY shows it (R235). -/
def State.startLoad (s : State) (p : Nat) (d : LoadData) (im : Image) (j : LoadJob) (x : Placing) (l : List Sect) (bases : List Nat) : State :=
  let loaded := loadedOf im x l
  let s := (s.clearLoaded p).updPart p (fun y => { y with image := none, status := none, keysUsed := keysOf d im, clearUntil := s.clock + 65536 })
  let s := ((l.foldl (fun s y => s.writeSect x false y) s).putBulk (bulkOf x (s.part p).tiles l)).writeBinds p bases l
  let (s, cmds) := s.loadCmds p d im x l
  let i := pipeOf l
  let runs := (s.runsFor p d im).getD []
  let s := s.noteStaged p d im
  let j : LoadJob :=
    { j with
      image := loaded
      todo := cmds
      tids := (cmds.filter (fun e => e.2.1.op ≠ 0)).map (fun e => e.2.1.tid)
      caps := [i.rings, i.gpages, i.bpt, i.bptT2]
      ents := entsOf l
      regions := if isStaged d then runs.map (fun (r : StagedRun) => (r.site, r.region)) else [] }
  (s.updPart p (fun y => { y with job := some j })).pumpLoad p

/-- A plan carried out: a load or a repair. -/
def State.carryOut (s : State) (p : Nat) (d : LoadData) (c : CmdIn) (x : Placing) (l : List Sect) (meas : Nat) (changed : Bool) : State :=
  let im := imageOf (fileOf d)
  let bs := (s.patched p d (some x) im (im.ents.map (·.bytes))).getD []
  let j := s.newJob p d c meas changed
  if im.repair then s.startRepair p (im.withBytes bs) j x l (pmBasesOf im bs) else
    s.startLoad p d (im.withBytes bs) j x l (pmBases im bs)

/-- LOAD_IMAGE (R221 to R224, R227, R228).  A read that meets an error stops a load that would have been read (R381). -/
def loadImage (s : State) (p : Nat) (d : LoadData) : State :=
  match s.takeCmd p 0x10 with
  | none => s
  | some (c, s) =>
    if !ringOk c 16 then s.nackFree p c 0x07
    else if !s.inAperture p (c.field 8 8) 64 false then (s.apertViol p).nackFree p c 0x08
    else if d.readErr && !s.stateBad p (imageOf (fileOf d)).repair && s.loadReach p d then s.loadRefuse p d c 2 { code := 0x20 } else
    match s.loadPlan p d with
    | .refuse e => s.loadRefuse p d c 1 e
    | .go x l meas changed => s.carryOut p d c x l meas changed

/-! ### The end of a load (R223 to R226) -/

/-- Every transfer of a load has completed. -/
def State.loadDone (s : State) (p : Nat) (j : LoadJob) : Bool :=
  j.todo = [] && j.tids.all (fun t => (s.part p).xfers.any (fun x => x.cmd.tid = t && x.got = some (0, x.expect)))

/-- The dead data cores that the spare of a crag may stand in for: those that a repair has not moved (R215, R216). -/
def State.deadIn (s : State) (im : Loaded) (y : Nat) : List Nat :=
  let delta := (im.oy * 9 + im.ox) * 256
  ((List.range 16).map (cragCore y)).filter (fun g => cragLocal g ≠ 11 && cragLocal g ≠ 15 && s.mapped 1 g ≠ 0 &&
    !im.moved.any (fun e => e.1 + delta = g))

/-- The spare of a crag stands in for core `g`: the crag identity entry and LOGICAL_ID (R216). -/
def State.standFor (s : State) (g id : Nat) : State :=
  let pg := cragPage (cragOf g)
  let s := if s.rd pg crag.STAND_FOR = 15 then (s.wr pg crag.STAND_FOR (cragLocal g)).setFlag pg crag.UNPROT true else s
  s.wr (.core (spareCore (cragOf g))) core.LOGICAL_ID id

/-- LOGICAL_ID of the data cores, and of every spare that stands in for one: first for the cores that the image uses, then for the dead
cores of the other crags (R215, R216). -/
def State.writeIdentity (s : State) (p : Nat) (im : Loaded) : State :=
  let delta := (im.oy * 9 + im.ox) * 256
  let s := (s.partCores p).foldl (fun s g => if cragLocal g = 11 ∨ cragLocal g = 15 then s else
    s.wr (.core g) core.LOGICAL_ID (g - delta)) s
  let s := im.reloc.foldl (fun s e =>
    match s.coreFor im.moved im.ox im.oy e.1 with
    | some k => if k = e.1 + delta then s else s.standFor (e.1 + delta) e.1
    | none => s) s
  (s.partCores p).foldl (fun s k =>
    if cragLocal k ≠ 11 then s else
    let y := cragOf k
    let at' := s.rd (cragPage y) crag.STAND_FOR
    match (s.deadIn im y).find? (fun g => at' = 15 || cragLocal g = at') with
    | some g => if s.mapped 1 k = 0 && (at' ≠ 15 || s.spareReady y) then s.standFor g (g - delta) else s
    | none => s) s

/-- A flit of one of the transfers `l`. -/
def Flit.ofTransfer (f : Flit) (l : List Nat) : Bool := f.op = 8 && l.contains f.tid

/-- Stops the transfers of a load or repair that is interrupted: what waits at the page movers, and the bulk flits on their way (R226). -/
def State.stopTransfers (s : State) (p : Nat) (l : List Nat) : State :=
  let s := (s.partSites p).foldl (fun s m =>
    let pm := (s.site m).pm.filter (fun j => !l.contains j.cmd.tid)
    (s.updSite m (fun x => { x with pm := pm, bulkOut := x.bulkOut.filter (fun f => !f.ofTransfer l) })).wr (.msite m) msite.PM_QFILL pm.length) s
  let s := (s.partCores p).foldl (fun s g => s.updRouter g (fun r => { r with
    bulk := r.bulk.filter (fun f => !f.ofTransfer l), copies := r.copies.filter (fun c => !l.contains c.tid)
    tidCnt := r.tidCnt.filter (fun e => !l.contains e.1) })) s
  s.setLinks (s.links.filter (fun k => !(k.flit.part = p && k.flit.ofTransfer l)))

/-- Ends a load with a status; its transfers are over.  After PWR_FAIL no status record is written (R334). -/
def State.closeLoad (s : State) (p : Nat) (j : LoadJob) (st code : Nat) : State :=
  let s := s.updPart p (fun x => { x with job := none, xfers := x.xfers.filter (fun t => !j.tids.contains t.cmd.tid) })
  if s.sps.state = .failing then s else
  s.writeStatus p j.statusAddr j.cookie
    { status := st, code := code, ox := j.image.ox, oy := j.image.oy, imageId := j.image.id, micros := (s.clock - j.startClock) / 2500
      gen := j.gen }

/-- Abandons a repair: the inactive banks are no longer offered, the programs and copied blocks are cleared, and the dirty maps are
disarmed (R226). -/
def State.dropRepair (s : State) (p : Nat) (j : LoadJob) : State :=
  let s := (s.part p).tiles.foldl (fun s t => s.setFlag (.mesh t) mesh.BANK_NEXT_VALID false) s
  let s := (s.partCores p).foldl (fun s g => s.updRouter g (fun r => { r with slotsB := [], routesB := [] })) s
  let s := j.progs.foldl (fun s e => (s.setFlag (.core e.1) core.NEXT_VALID false).memWrite e.1 e.2.1 (List.replicate e.2.2 0)) s
  let s := j.moves.foldl (fun s m => s.memWrite m.dst (0x800000 + 4096 * m.dstOff) (List.replicate (4096 * m.len) 0)) s
  j.moves.foldl (fun s m => s.updCore m.src (fun c => { c with armed := false, dirty := [] })) s

/-- Writes a region entry of an image (R224 step 4): the slot of its key where nothing else of a valid entry changes, else the whole entry,
where the region table takes it. -/
def State.putEnt (s : State) (p : Nat) (e : Nat × Nat × Nat) : State :=
  let r := regionOfWord e.2.2
  let old := s.region e.1 e.2.1
  if s.sitePart e.1 ≠ some p || r.owner ≠ p || (old.valid && old.owner ≠ p) then s
  else if old = { r with keySlot := old.keySlot } then
    s.updSite e.1 (fun x => { x with regions := Table.upd {} x.regions e.2.1 (fun y => { y with keySlot := r.keySlot }) })
  else if r.valid && !s.regionOk e.1 e.2.1 r then s
  else s.enterRegion e.1 e.2.1 r

/-- A restore rate of the image; on the single spine after a takeover restores run at half rate (R304). -/
def State.restoreRate (s : State) (v : Nat) : Nat := if s.sps.fenced.isSome then v / 2 else v

/-- The write phase's last step (R224 step 4): identities, region entries, PERIOD, the packer's and admission's values, and the tile budgets
that the checks found; the compute switches of tiles outside COMPUTE open (R324). -/
def State.finishLoad (s : State) (p : Nat) (j : LoadJob) : State :=
  let im := j.image
  let s := s.writeIdentity p im
  let s := j.ents.foldl (fun s e => s.putEnt p e) s
  let s := s.wr (.tickgen p) tickgen.PERIOD im.period
  let pk := Page.packer p
  let ad := Page.adm p
  let s := ((s.wr pk packer.W im.w).wr pk packer.REGIONS im.regions.length).wr pk packer.DELTA_SLOTS im.deltaMask
  let s := (((s.wr ad adm.FREE_RINGS (j.caps.getD 0 0)).wr ad adm.FREE_GPAGES (j.caps.getD 1 0)).wr ad adm.RESTORE_BPT
    (s.restoreRate (j.caps.getD 2 0))).wr ad adm.RESTORE_BPT_T2 (s.restoreRate (j.caps.getD 3 0))
  let s := j.budgets.foldl (fun s e => s.wr (.tileGlb e.1) tileGlb.BUDGET e.2) s
  let comp := im.compute.filterMap im.placing.tile
  let s := (s.part p).tiles.foldl (fun s t => if comp.contains t then s else s.setCompute t false) s
  s.updPart p (fun x => { x with image := some im, meas := j.meas })

/-- LOAD_END (R223, R225, R226): an interrupted load is cleared, a load whose second reading differs too; a load that is complete takes
effect.  A repair ends at its cut, and what comes after its commit point does not undo it (R230). -/
def loadEnd (s : State) (p : Nat) : State :=
  let s := s.pumpLoad p
  match (s.part p).job with
  | none => s
  | some j =>
    if j.finished then s.closeLoad p j 0 0 else
    match j.abort with
    | some code =>
      let s := s.stopTransfers p j.tids
      (if j.repair then s.dropRepair p j else s.clearLoaded p).closeLoad p j 2 code
    | none =>
      if j.repair then (if j.changed then ((s.stopTransfers p j.tids).dropRepair p j).closeLoad p j 2 0x1B else s)
      else if !s.loadDone p j then s
      else if j.changed then (s.clearLoaded p).closeLoad p j 2 0x1B
      else (s.finishLoad p j).closeLoad p j 0 0

/-! ### Repairs (R229 to R231) -/

/-- The dirty blocks of the sources that the moves list. -/
def State.dirtyOf (s : State) (moves : List Move) : List (Nat × Nat) :=
  moves.flatMap (fun m => ((s.core m.src).dirty.filter (fun b => m.off ≤ b && b < m.off + m.len)).map (fun b => (m.src, b)))

/-- MIGRATION_ROUND (R229): a round ends once its copies have completed.  With 256 dirty blocks or fewer the cut is requested; with more, after
8 rounds the repair stops, and before that the copies of the next round start.  Where the second reading of the image differs no cut is
requested (R223). -/
def migrationRound (s : State) (p : Nat) : State :=
  match (s.part p).job with
  | none => s
  | some j =>
    if !j.repair || j.cutReq || j.abort.isSome || j.finished || j.changed || !s.copied p j then s else
    let dirty := s.dirtyOf j.moves
    let s := (s.endRound p j).updPart p (fun x => { x with job := x.job.map (fun j => { j with rounds := j.rounds + 1, cutReq := decide (dirty.length ≤ 256) }) })
    if dirty.length ≤ 256 then s
    else if 8 ≤ j.rounds + 1 then s.abortLoad p 0x1F
    else s.startCopies p j.moves (fun m b => dirty.contains (m.src, b))

/-- Step 3 of the cut for one move: LOGICAL_ID, the crag identity entry, and what the control tile keeps of the core go to the destination;
the former spare is a spare again. -/
def State.moveIdentity (s : State) (moves : List Move) (src dst : Nat) : State :=
  let pg := cragPage (cragOf src)
  let at' (a : Nat) : Nat :=
    match moves.find? (fun m => m.src = src && m.off ≤ (a - 0x800000) / 4096 && (a - 0x800000) / 4096 < m.off + m.len) with
    | some m => a + 4096 * m.dstOff - 4096 * m.off
    | none => a
  let c := s.core src
  let s := s.updCore dst (fun k => { k with
    bank0 := c.bank0, bank1 := c.bank1, readB1 := c.readB1, binds := c.binds.map (fun b => { b with dir := at' b.dir }) })
  let s := s.updCore src (fun k => { k with binds := [], armed := false, dirty := [] })
  let s := s.wr (.core dst) core.LOGICAL_ID (s.rd (.core src) core.LOGICAL_ID)
  if cragLocal src = 11 then
    (s.wr pg crag.STAND_FOR 15).setFlag (.slab (tileOf src)) slab.CLEAR_BUSY true
  else s

/-- The saddle spares that the new slot tables no longer need (R305): channel 6 is free again, and a channel that it stood for is no more than
unused.  A loss that a spare has healed no longer counts against the saddle. -/
def State.freeSaddles (s : State) (p : Nat) : State :=
  (s.part p).tiles.foldl (fun s t => [1, 2].foldl (fun s e =>
    match neighbour t e with
    | none => s
    | some u =>
      let c := s.rd (.saddle t e) saddle.SPARE_FOR
      let pos := attachPos c
      let g := if e = 1 then coreAt t 15 pos else coreAt t pos 15
      let h := if e = 1 then coreAt u 0 pos else coreAt u pos 0
      let used := (s.router g).slots.any (fun w => slOut w = e) || (s.router h).slots.any (fun w => slOut w = (e + 2) % 4)
      if 5 < c ∨ used then s else ((s.wr (.saddle t e) saddle.SPARE_FOR 7).wr (.saddle u ((e + 2) % 4)) saddle.SPARE_FOR 7).updSaddle (saddleKey t e) (fun x =>
      { x with failed := x.failed.filter (· ≠ c), unused := addSet x.unused [c] })) s) s

/-- REPAIR_CUT (R230): in the held boundary, once the last tick has passed and no core has been found dead since.  While blocks are dirty it
starts their copies, in which every cycle is a col; once they have completed it makes steps 2 to 4 (log 93). -/
def repairCut (s : State) (p : Nat) : State :=
  let pt := s.part p
  match pt.job, pt.phase with
  | some j, .boundaryHold 0 =>
    if !j.cutReq || !pt.holdReq || pt.toDecide || pt.deadNow ≠ [] || j.abort.isSome || j.finished || j.changed || !s.copied p j then s else
    let dirty := s.dirtyOf j.moves
    if dirty ≠ [] then (s.endRound p j).startCopies p j.moves (fun m b => dirty.contains (m.src, b)) else
    let s := s.endRound p j
    let s := (s.partCores p).foldl (fun s g => s.updRouter g (fun r => { r with
      slots := r.slotsB, slotsB := r.slots, routes := r.routesB, routesB := r.routes })) s
    let s := pt.tiles.foldl (fun s t => (s.setFlag (.mesh t) mesh.BANK_ACT (!s.flag (.mesh t) mesh.BANK_ACT)).setFlag (.mesh t)
      mesh.BANK_NEXT_VALID false) s
    let s := j.progs.foldl (fun s e => (s.wr (.core e.1) core.PROG_BASE (s.rd (.core e.1) core.PROG_NEXT)).setFlag (.core e.1)
      core.NEXT_VALID false) s
    let s := s.putBulk j.bulk
    let pairs := j.moves.foldl (fun l m => if l.any (fun e => e.1 = m.src) then l else l ++ [(m.src, m.dst)]) []
    let ids := pairs.map (fun e => (s.rd (.core e.1) core.LOGICAL_ID, e.2))
    let s := pairs.foldl (fun s e => s.moveIdentity j.moves e.1 e.2) s
    let s := j.bases.foldl (fun s e => s.updCore e.1 (fun k => { k with binds := rebase k.binds e.2 })) (s.freeSaddles p)
    let swap (g : Nat) : Nat := ((pairs.find? (fun e => e.1 = g)).map (·.2)).getD g
    s.updPart p (fun x => { x with
      holdReq := false
      meas := j.meas
      job := x.job.map (fun j => { j with cutReq := false, finished := true, abort := none })
      image := x.image.map (fun im =>
        { j.image with
          regions := im.regions.map (fun r => { r with cores := r.cores.map swap })
          moved := im.moved.filter (fun e => !ids.any (fun i => i.1 = e.1)) ++ ids }) })
  | _, _ => s

/-- A former spare whose slab is still to be cleared: it stands in for none, and the crag is not protected (R231). -/
def State.clearWaits (s : State) (y : Nat) : Bool :=
  let pg := cragPage y
  s.rd pg crag.STAND_FOR = 15 && s.flag pg crag.UNPROT && !s.flag pg crag.SPARE_DEAD

/-- SPARE_CLEAR (R231): the former spare's slab is cleared with XOR deltas, and the crag is protected again; CLEAR_BUSY falls when no
spare of the tile is left to clear. -/
def spareClear (s : State) (y : Nat) : State :=
  if !s.clearWaits y then s else
  let sp := spareCore y
  let s := (slabBytes (s.core sp).mem).foldl (fun s e => s.memWrite sp e.1 [0]) s
  let s := s.setFlag (cragPage y) crag.UNPROT false
  if (List.range 16).any (fun i => s.clearWaits (y / 16 * 16 + i)) then s else s.setFlag (.slab (y / 16)) slab.CLEAR_BUSY false

/-- LOAD_IMAGE. -/
def execLoadImage (p : Nat) (d : LoadData) (s : State) : Out := .next (loadImage s p d)
/-- LOAD_END. -/
def execLoadEnd (p : Nat) (s : State) : Out := .next (loadEnd s p)
/-- MIGRATION_ROUND. -/
def execMigrationRound (p : Nat) (s : State) : Out := .next (migrationRound s p)
/-- REPAIR_CUT. -/
def execRepairCut (p : Nat) (s : State) : Out := .next (repairCut s p)
/-- SPARE_CLEAR. -/
def execSpareClear (y : Nat) (s : State) : Out := .next (spareClear s y)

end Sys2Proof.Machine
end

