-- ==== Sys2Proof/Machine/Partition.lean ====
section
/-! DEFINITION. Partitions: creation, the common enable, starting, draining, teardown, and the block soft reset (R440 to R445, R310, R404,
R407, R452). -/

namespace Sys2Proof.Machine

/-! ### Creation (R441, R442) -/

/-- The tiles that TILES0 to TILES2 name; the last word has bits for tile 71 and no further. -/
def State.namedTiles (s : State) (p : Nat) : List Nat :=
  let pg := Page.tickgen p
  let w := s.rd pg tickgen.TILES0 + 2 ^ 32 * s.rd pg tickgen.TILES1 + 2 ^ 64 * s.rd pg tickgen.TILES2
  (List.range 72).filter (bit w)

/-- The tiles that `l` reaches within `ts` over saddles that are not DOWN, in `n` steps. -/
def State.spread (s : State) (ts : List Nat) : Nat → List Nat → List Nat
  | 0, l => l
  | n + 1, l => s.spread ts n (addSet l (l.flatMap (fun t => (List.range 4).filterMap (fun e =>
      match neighbour t e with
      | some u => if ts.contains u && !s.flag (.saddle t e) saddle.DOWN then some u else none
      | none => none))))

/-- The partitions that exist. -/
def State.created (s : State) (p : Nat) : Bool := s.flag (.tickgen p) tickgen.CREATED

/-- FRAMES of all created partitions. -/
def State.framesUsed (s : State) : Nat :=
  (((List.range 12).filter s.created).map (fun q => s.rd (.tickgen q) tickgen.FRAMES)).sum

/-- CR_CODE of a CREATE; 0 where it is accepted (R441, R479). -/
def State.createCode (s : State) (p : Nat) : Nat :=
  let pg := Page.tickgen p
  let ts := s.namedTiles p
  let n := s.rd pg tickgen.FRAMES
  if s.rd (.smc (s.primary p)) smc.BRINGUP ≠ 4 ∨ s.sps.clkLost then 1
  else if s.created p ∨ s.flag pg tickgen.TD_BUSY then 2
  else if ts = [] then 3
  else if ts.any (fun t => (s.tilePart t).isSome) then 4
  else if ts.any (fun t => s.mapped 5 t ≠ 0 || !(s.tile t).up) then 5
  else if !ts.all (fun t => (s.spread ts 72 (ts.take 1)).contains t) then 6
  else if n = 0 ∨ 64 < s.framesUsed + n then 7
  else 0

/-- PART_ID of the routers of a tile and of the site attached to it; key slots do not outlive a change of PART_ID (R205, R442). -/
def State.assign (s : State) (p : Nat) (t : Nat) : State :=
  let s := s.wr (.mesh t) mesh.PART_ID p
  match tileSite t with
  | none => s
  | some m =>
    if s.rd (.msite m) msite.PART_ID = p then s else
    ((s.wr (.msite m) msite.PART_ID p).wr (.xts m) xts.KEY_VALID 0).updSite m (fun x => { x with keys := [] })

/-- FENCED of the saddles of a tile, as the tiles on both sides belong (R170, R177). -/
def State.fenceSaddles (s : State) (t : Nat) : State :=
  (List.range 4).foldl (fun s e =>
    match neighbour t e with
    | none => s
    | some u =>
      let open' : Bool := (s.tilePart t).isSome && s.tilePart t = s.tilePart u
      (s.setFlag (.saddle t e) saddle.FENCED !open').setFlag (.saddle u ((e + 2) % 4)) saddle.FENCED !open') s

/-- CREATE (R441, R442). -/
def create (s : State) (p : Nat) : State :=
  let pg := Page.tickgen p
  let code := s.createCode p
  if code ≠ 0 then s.wr pg tickgen.CR_CODE code else
  let ts := s.namedTiles p
  let s := ts.foldl (fun s t => s.assign p t) s
  let s := ts.foldl State.fenceSaddles s
  ((s.updPart p (fun _ => { tiles := ts, faultDue := [] })).bulkTables ts).setFlag pg tickgen.CREATED true

/-! ### Starting (R443) -/

/-- LANE_BASE and LANE_CNT name lanes that no other created partition has. -/
def State.lanesGood (s : State) (p : Nat) : Bool :=
  let b (q : Nat) : Nat := s.rd (.adm q) adm.LANE_BASE
  let n (q : Nat) : Nat := s.rd (.adm q) adm.LANE_CNT
  n p ≠ 0 && b p + n p ≤ 256 &&
    (List.range 12).all (fun q => q = p || !s.created q || n q = 0 || b p + n p ≤ b q || b q + n q ≤ b p)

/-- The COMPUTE tiles of a loaded image. -/
def Loaded.computeTiles (im : Loaded) : List Nat := im.compute.filterMap im.placing.tile

/-- START_CODE of an EN = 1 from OFF; 0 where the partition starts (R443). -/
def State.startCode (s : State) (p : Nat) : Nat :=
  let pg := Page.tickgen p
  let per := s.rd pg tickgen.PERIOD
  let db := Page.doorbell p
  let im := s.img p
  if !s.created p then 1
  else if s.rd (.ssb (s.primary p)) ssb.BOOT_STATE ≠ 1 then 2
  else if (s.part p).image.isNone then 3
  else if !s.tilesMatch p im.placing || !s.placeFits im.placing then 4
  else if per < 250 ∨ 6400 < per then 5
  else if !s.ringsGood p then 6
  else if !s.lanesGood p then 7
  else if s.rd (.cohc p) cohc.CMD_CI ≠ s.rd db doorbell.CMD_PI ∨ (s.part p).cmdIn ≠ [] ∨ (s.part p).job.isSome ∨
      s.cplUsed p ≠ 0 ∨ (s.part p).cplHeld ≠ [] then 8
  else if im.computeTiles.any (fun t => !s.flag (.therm t) therm.COMPUTE_ON) then 9
  else if !s.chargesOk p (8 * per) im.computeTiles im.charges || !s.budgetsOk then 10
  else 0

/-- The fields that reset when a generator goes from OFF to STARTING (R57, R150, R265, R318, R378, R467). -/
def State.startFields (s : State) (p : Nat) : State :=
  let tg := Page.tickgen p
  let ad := Page.adm p
  let s := s.clrAll tg [tickgen.REPLAY_CNT, tickgen.SKEW_MAX, tickgen.FAIL_CAUSE, tickgen.HOLD, tickgen.REPLAY, tickgen.DECL_SRC,
    tickgen.DECL_VALID, tickgen.DECL_CNT, tickgen.LATE_TBL_USED, tickgen.LATE_TBL_OVF, tickgen.HOLD_CNT, tickgen.LAST_HOLD,
    tickgen.LAST_CLASS, tickgen.LAST_INTR, tickgen.HALT_CLASS]
  let s := s.clrAll (.packer p) [packer.WIDEN_SUPPRESSED, packer.WIDEN_GRANT_CNT, packer.STALL_CNT, packer.BOOKED_CNT,
    packer.ENTRY_CNT, packer.ENTRY_WAIT_CNT]
  let s := (List.range 8).foldl (fun s q => (s.clr ad (adm.SLACK_MIN q)).clr ad (adm.K q)) s
  let s := s.clrAll (.cohc p) [cohc.CMD_CI, cohc.CPL_PI, cohc.ARMED]
  s.clrAll (.doorbell p) [doorbell.CMD_PI, doorbell.CPL_CI]

/-- A partition's tick machinery, packer and lanes as a start finds them; the image, the rings' settings, scree requests and the late-source
table stay. -/
def Part.fresh (x : Part) : Part :=
  { x with
    tick := 0, cyc := 0, wall := 0, stretch := 0, phase := .stopped, replay := false, commitDone := false, finalDone := true
    bodyDone := false, failCode := 0, routerErrs := [], rmbErrs := [], missing := [], deadNow := [], deadCause := 0, holdReq := false
    table := [], entering := [], block := [], toDecide := false, results := [], lateRep := [], latched := []
    lanes := Table.mapVals {} (fun l => { gen := l.gen }) x.lanes, haltAt := none, swapPend := [], draftWords := [], spurWords := []
    draftIn := [], spurIn := []
    freed := [], intPend := false }

/-- Takes EN = 1 in OFF: the start checks, then STARTING (R440, R443), and in that cycle the resets of R150. -/
def State.startPart (s : State) (p : Nat) : State :=
  let pg := Page.tickgen p
  let s := s.setFlag pg page.PEND false
  match s.startCode p with
  | 0 => ((s.wr pg page.STATE 1).startFields p).updPart p (fun x => { x.fresh with lateTbl := [] })
  | c =>
    let s := s.wr pg tickgen.START_CODE c
    if c = 4 then s.err pg 7 else if c = 6 then s.err (.cohc p) 0 else s

/-- A core that the compute-die test finds dead: its spare takes its place as in a fault hold (R443 step 3). -/
def State.startDead (s : State) (p g : Nat) : State :=
  let s := (s.updCore g (fun c => { c with alive := false })).showDead g
  (s.standIn p g).record { cls := 1, path := 12, part := p, outcome := 2, loc := tileOf g, unit := g % 256 } [(1, g, 1)] [p]

/-- A defective column that the test of a start finds beside those of the defect map: its entry in the fault map (R70, R435). -/
def State.startColumn (s : State) (e : Nat × Nat × Nat) : State :=
  s.record { cls := 1, path := 12, outcome := 2, loc := tileOf e.1, unit := e.1 % 256 } [columnEnt e] []

/-- A finding that ends a start (R443 step 4): the map advances. -/
def State.startFinding (s : State) (g : Nat) : State :=
  let s := (s.updCore g (fun c => { c with alive := false })).showDead g
  s.record { cls := deadClass g, path := 12, outcome := 2, loc := tileOf g, unit := g % 256 } [(1, g, 1)] []

/-- PARTITION_START_DONE (R443): the compute-die tests, the rebuilds and the priming of the lanes end; the generator issues the boundary
of tick 0, or the start fails with NO_FIT. -/
def partitionStartDone (s : State) (p : Nat) (f : StartFindings) : State :=
  let pg := Page.tickgen p
  if s.pstate p ≠ 1 then s else
  let mine := f.dead.filter (fun g => (s.img p).computeTiles.contains (tileOf g))
  let heals (g : Nat) : Bool := cragLocal g ≠ 15 && cragLocal g ≠ 11 && s.spareReady (cragOf g) &&
    mine.countP (fun x => cragOf x = cragOf g) = 1
  let cols := f.columns.filter (fun e => (s.img p).computeTiles.contains (tileOf e.1))
  if f.other || cols ≠ [] || !mine.all heals then (((cols.foldl State.startColumn (mine.foldl State.startFinding s))).wr pg page.STATE 0).err pg 7 else
  let s := mine.foldl (fun s g => s.startDead p g) s
  let s := (s.laneIds p).foldl (fun s l => if (s.lane p l).primed then s else s.prime p l) s
  (s.wr pg page.STATE 2).openTick p 0 0 false

/-! ### Draining (R444) -/

/-- Refuses what waits in QUEUED with PART_OFF (R444). -/
def State.refuseQueued (s : State) (p : Nat) : State :=
  (s.reqsOf p (fun r => r.state = .queued)).foldl (fun s e =>
    let s := (s.updReq e.1 (fun r => { r with state := .rejected })).countReject p 0x0B e.1
    s.postCpl p { event := 2, code := 0x0B, cookie := e.2.cookie, handle := e.1, ends := true }) s

/-- The last steps of a drain: requests that still hold lanes end CANCELLED, and the generator stops. -/
def State.stopPart (s : State) (p : Nat) : State :=
  let pg := Page.tickgen p
  let s := (s.reqsOf p (fun r => r.state.running || r.state = .paused)).foldl (fun s e => s.finish p e.1 2) s
  let s := (s.abandonWork p).draftDown p
  let s := (s.updPart p Part.fresh).wr pg page.STATE 0
  if s.flag pg page.PEND then s.startPart p else s

/-- DRAIN_DONE (R444): the hold table is empty and every result is released. -/
def drainDone (s : State) (p : Nat) : State :=
  let x := s.part p
  if s.pstate p ≠ 3 || x.phase ≠ .running || !x.finalDone || x.table ≠ [] || x.entering ≠ [] || x.results ≠ [] then s
  else s.stopPart p

/-! ### The common enable (R440, R452) -/

/-- EN of a partition (R440, R443 to R445). -/
def State.enPart (s : State) (p : Nat) (v : Bool) : State :=
  let pg := Page.tickgen p
  let s := s.setFlag pg page.EN v
  if s.flag pg tickgen.TD_BUSY then s else
  match s.pstate p, v with
  | 0, true => s.startPart p
  | 1, false => (s.updPart p Part.fresh).wr pg page.STATE 0
  | 2, false => (s.wr pg page.STATE 3).refuseQueued p
  | 3, v => s.setFlag pg page.PEND v
  | 4, false => (s.updPart p Part.fresh).wr pg page.STATE 0
  | _, _ => s

/-- EN of a site's page (R452): EN = 0 drains the page mover, EN = 1 resumes it. -/
def State.enSite (s : State) (m : Nat) (v : Bool) : State :=
  let pg := Page.msite m
  let s := s.setFlag pg page.EN v
  match s.rd pg page.STATE, v with
  | 0, true => s.wr pg page.STATE 1
  | 1, false => s.wr pg page.STATE 0
  | 2, false => ((s.updSite m (fun x => { x with draining := true })).wr pg page.STATE 3).pmDrained m
  | 3, v => s.setFlag pg page.PEND v
  | 4, false => s.wr pg page.STATE 0
  | _, _ => s

/-- EN of a rail monitor's page (R353). -/
def State.enRmb (s : State) (pg : Page) (v : Bool) : State :=
  let s := (s.setFlag pg page.EN v).wr pg page.STATE (if v then 2 else 0)
  if v then s else s.rmbOff pg

/-- EN (R440, R452): only TICKGEN, MSITE and RMB pages have an enable of their own; every other page ignores it. -/
def en (s : State) (pg : Page) (v : Bool) : State :=
  match pg with
  | .tickgen p => s.enPart p v
  | .msite m => s.enSite m v
  | .rmbTile _ => s.enRmb pg v
  | .rmbSite _ => s.enRmb pg v
  | .rmbCtl _ => s.enRmb pg v
  | _ => s

/-- STATE as a page shows it (R452): its own, or 4 for a block that is down in the fault map, 5 for a tile fenced for heat, 2 otherwise. -/
def State.stateOf (s : State) (pg : Page) : Nat :=
  if pg.ownEn then s.rd pg page.STATE else
  let tile (t : Nat) : Nat := if s.mapped 5 t ≠ 0 then 4 else if s.flag (.therm t) therm.FENCED then 5 else 2
  match pg with
  | .tileGlb t | .mesh t | .crag t _ | .coreWin t | .therm t | .slab t => tile t
  | .saddle t e => if s.flag pg saddle.DOWN then 4 else if e = 4 then 2 else tile t
  | .xts m => if s.mapped 6 m ≠ 0 then 4 else 2
  | .mchan m n => if s.mapped 6 m ≠ 0 ∨ s.flag (.mchan m n) mchan.FAILED then 4 else 2
  | _ => 2

/-- The fields that a soft reset returns to their reset values (R440): block-specific RW fields, RWL fields that are not locked, the
error captures and the RO statistics. -/
def resets (locked : Bool) (f : Field) : Bool :=
  f.stat || (0x40 ≤ f.off && (f.acc = .rw || (f.acc = .rwl && !locked))) || (0x10 ≤ f.off && f.off ≤ 0x20 && f.off ≠ 0x14)

/-- SOFT_RESET (R440, R452): accepted in OFF or FAULTED, on pages without an enable of their own in FAULTED alone, and not on a TICKGEN page
with CREATED = 1. -/
def softReset (s : State) (pg : Page) : State :=
  let st := s.stateOf pg
  let made : Bool := match pg with
    | .tickgen p => s.created p
    | .core _ => true
    | .doorbell _ => true
    | _ => false
  if made || !(st = 4 || (st = 0 && pg.ownEn)) then s else
  let s := s.noting pg (fun s => s.clrAll pg (pg.allFields.filter (resets (s.flag pg page.LOCK))))
  if pg.ownEn then (s.wr pg page.STATE 0).setFlag pg page.PEND false else s

/-! ### Teardown (R404, R445) -/

/-- DESTROY (R445): accepted in OFF with CREATED = 1; a load in progress is stopped. -/
def destroy (s : State) (p : Nat) : State :=
  let pg := Page.tickgen p
  if s.pstate p ≠ 0 || !s.created p || s.flag pg tickgen.TD_BUSY then s else
  (s.setFlag pg tickgen.TD_BUSY true).abortLoad p 0x1D

/-- Ends the pairings that a partition is part of (R280, R445). -/
def State.unpair (s : State) (p : Nat) : State :=
  (List.range 12).foldl (fun s q => if q = p ∨ s.draftOf q = some p then
    (s.setFlag (.spur q) spur.PAIR_EN false).setFlag (.spur q) spur.PAIR_ACT false else s) s

/-- Every region that a partition owns becomes invalid at a site, with the zero fills of it (R188). -/
def State.dropRegions (s : State) (m p : Nat) : State :=
  let mine (x : Site) (i : Nat) : Bool := (Table.get {} x.regions i).owner = p
  let s := s.updSite m (fun x => { x with
    regions := x.regions.filter (fun e => e.2.owner ≠ p), stagedAt := x.stagedAt.filter (fun e => !mine x e.1)
    zeroing := x.zeroing.filter (fun i => !mine x i) })
  s.setFlag (.msite m) msite.ZERO_BUSY ((s.site m).zeroing ≠ [])

/-- TEARDOWN_DONE (R404, R445): slabs, key slots, regions and request table entries are cleared, switches open, and the tiles are free. -/
def teardownDone (s : State) (p : Nat) : State :=
  let pg := Page.tickgen p
  if !s.flag pg tickgen.TD_BUSY then s else
  let s := if (s.part p).job.isSome then loadEnd s p else s
  let ts := (s.part p).tiles
  let ms := s.partSites p
  let s := s.clearLoaded p
  let s := ts.foldl (fun s t => (s.setCompute t false).updTile t (fun x => { x with bulkDir := [] })) s
  let s := (List.range 16).foldl (fun s m => s.dropRegions m p) s
  let s := ms.foldl (fun s m => s.updSite m (fun x => { x with deltas := [], laneTbl := [], transfers := [], longs := [] })) s
  let s := s.dropReqs p
  let s := (s.unpair p)
  let s := ts.foldl (fun s t => s.assign 15 t) s
  let s := ts.foldl State.fenceSaddles s
  let s := s.updPart p (fun x => { apers := x.apers, faultDue := x.faultDue, vents := [] })
  (s.setFlag pg tickgen.TD_BUSY false).setFlag pg tickgen.CREATED false

/-- CREATE. -/
def execCreate (p : Nat) (s : State) : Out := .next (create s p)
/-- DESTROY. -/
def execDestroy (p : Nat) (s : State) : Out := .next (destroy s p)
/-- TEARDOWN_DONE. -/
def execTeardownDone (p : Nat) (s : State) : Out := .next (teardownDone s p)
/-- EN. -/
def execEn (pg : Page) (v : Bool) (s : State) : Out := .next (en s pg v)
/-- PARTITION_START_DONE. -/
def execPartitionStartDone (p : Nat) (f : StartFindings) (s : State) : Out := .next (partitionStartDone s p f)
/-- SOFT_RESET. -/
def execSoftReset (pg : Page) (s : State) : Out := .next (softReset s pg)

end Sys2Proof.Machine
end

