-- ==== Sys2Proof/Machine/Power.lean ====
section
/-! DEFINITION. Power: the input, the power-up sequence, the power-fail path, trips, shutdown and module reset, the compute switches,
regulator phases and cartridges, and loss of the reference clock (R319 to R327, R333, R334, R432, R479). -/

namespace Sys2Proof.Machine

/-- Changes the power sequencer. -/
def State.updSps (s : State) (f : Sps → Sps) : State := s.setSps (f s.sps)

/-! ### Power-up (R323) -/

/-- A rail that misses its window: its block stays off and is down in the fault map, with PATH 11. -/
def State.railFail (s : State) (b : RailBlock) : State :=
  let s := s.err .sps 6
  match b with
  | .tile t => (s.updTile t (fun x => { x with up := false })).record { cls := 9, path := 11, outcome := 2, loc := t } [(5, t, 1)] []
  | .site m => (s.updSite m (fun x => { x with up := false })).record { cls := 15, path := 11, outcome := 2, loc := m } [(6, m, 1)] []
  | .ctl c => (s.updCtl c (fun x => { x with up := false })).record { cls := 5, path := 11, outcome := 2, loc := 0x100 + c } [(7, c, 1)] []

/-- The rail monitor of a page is powered: its reference settles after 20 µs (R342). -/
def State.rmbPower (s : State) (pg : Page) : State := s.updRmb pg (fun x => { x with settleAt := some (s.clock + 50000) })

/-- One record's part in it. -/
def State.loadRec (s : State) (r : FaultRec) (l : List (Nat × Nat × Nat)) : State :=
  { s with
    faultMap := l.foldl (fun m e => Table.set 0 m (mapKey e.1 e.2.1) e.2.2) s.faultMap
    faultGen := max s.faultGen r.gen
    faultSeq := max s.faultSeq r.seq }

/-- The fault map: the routing-only tiles of the fuses, and with its generation and record number what the journal holds (R5, R412,
R435). -/
def State.loadMap (s : State) : State :=
  let s := s.loadRec {} (s.fuses.routing.map (fun t => (11, t, 1)))
  s.nor.bodies.foldl (fun s b => match b with
    | .fault r l => s.loadRec r l
    | _ => s) s

/-- Steps 1 to 6 of R323, for a clock that is present or not and the rails that miss their windows: with its rails a block's PLL locks (R22).
Without the clock the SPS waits. -/
def State.powerUp (s : State) (clk : Bool) (fails : List RailBlock) : State :=
  let s := s.updSps (fun x => { x with state := .seq, micros := 0, latched := false, recovered := 0, resetLow := false })
  if !clk then (s.updSps (fun x => { x with state := .clkWait })).err .sps 5 else
  let s := fails.foldl State.railFail s.loadMap
  let s := (List.range 72).foldl (fun s t => if !(s.tile t).up then s else
    (s.setFlag (.tileGlb t) tileGlb.PLL_LOCK true).rmbPower (.rmbTile t)) s
  let s := (List.range 16).foldl (fun s m => if (s.site m).up then (s.updSite m (fun x => { x with pll := true })).rmbPower (.rmbSite m) else s) s
  let s := [0, 1].foldl (fun s c => if (s.ctl c).up then (s.updCtl c (fun x => { x with pll := true })).rmbPower (.rmbCtl c) else s) s
  (s.updSps (fun x => { x with state := .good })).setFlag .sps sps.POWER_GOOD true

/-- The register store without the fields of the SPS page. -/
def State.clearSps (s : State) : State :=
  { s with regs := s.regs.filter (fun e => decide (e.1 / 131072 ≠ Page.sps.id)) }

/-- The regulator stacks stay as their cartridges are; everything else of the sequencer starts anew. -/
def State.freshSps (s : State) : State := s.clearSps.updSps (fun x => { stackTbl := x.stackTbl, samples := [] })

/-- POWER_ON (R319, R323, R432): P48 rises through 45 V from off.  MGT_RST_N held low keeps the SPS at step 1 until it goes high
(R480). -/
def powerOn (s : State) (clk : Bool) (fails : List RailBlock) : State :=
  if s.sps.state ≠ .off ∧ s.sps.state ≠ .down then s
  else if s.sps.resetLow then s.freshSps.updSps (fun x => { x with state := .down, resetLow := true, resetReq := true })
  else s.freshSps.powerUp clk fails

/-- CLK_RETRY (R323): every 10 ms the SPS looks for the clock again. -/
def clkRetry (s : State) (clk : Bool) (fails : List RailBlock) : State :=
  if s.sps.state ≠ .clkWait then s else s.powerUp clk fails

/-- PWR_FAIL_RESTART (R325, R489): P48 has stayed above 45 V for 100 ms after a power-down, and MGT_RST_N is high. -/
def pwrFailRestart (s : State) (clk : Bool) (fails : List RailBlock) : State :=
  let x := s.sps
  if x.state ≠ .down || !x.latched || x.shutdown || x.resetLow || x.recovered < 10000 then s else s.powerUp clk fails

/-- MGT_RST_N_RELEASE (R432): once power-down is complete, R323 runs from step 1.  A release before that lets the sequence start when it
is (log 50). -/
def mgtRstNRelease (s : State) (clk : Bool) (fails : List RailBlock) : State :=
  let x := s.sps
  if !x.resetLow then s else
  let s := s.updSps (fun x => { x with resetLow := false })
  if x.state ≠ .down || !x.resetReq || x.latched || x.shutdown then s else
  (s.freshSps.updSps (fun x => { x with resetReq := true })).powerUp clk fails

/-! ### Power-down (R325, R326, R432) -/

/-- Opens every compute switch. -/
def State.openAll (s : State) : State := (List.range 72).foldl (fun s t => s.setCompute t false) s

/-- Every partition that is not OFF halts with class TILE and PATH 11, without a replay. -/
def State.haltAll (s : State) : State :=
  (List.range 12).foldl (fun s p => if s.pstate p = 1 ∨ s.pstate p = 2 ∨ s.pstate p = 3 then s.halt p 9 11 0 0 [] else s) s

/-- Steps 1 to 3 of R325 with the cause of the PWRFAIL record: the record in progress is completed, the PWRFAIL record is written, after
it the LMS_REL records of a shutdown or reset (R397), and no other record is started. -/
def State.powerFailing (s : State) (cause : Nat) : State :=
  let s := (s.updSps (fun x => { x with state := .failing })).openAll.haltAll
  s.updNor (fun n => Nor.start { n with waiting := { origin := s.norHolder.getD 0, body := .pwrfail cause } :: n.waiting.filter (fun r =>
    match r.body with
    | .lmsRel _ _ _ => cause = 0 ∨ cause = 4
    | _ => false) })

/-- Latches PWR_FAIL with its cause and runs R325. -/
def State.trip (s : State) (cause : Nat) : State :=
  let s := ((s.wr .sps sps.TRIP_CAUSE cause).err .sps 0).updSps (fun x => { x with latched := true })
  s.powerFailing cause

/-- What is left without power: the fuses, the NOR, the Tally, the SPS's own page and latches, and the cartridges.  A record that was being
written is torn.  The last three lines are the model's own bookkeeping. -/
def State.unpowered (s : State) : State :=
  let n := s.nor
  let x := s.sps
  { State.reset with
    regs := if x.resetReq then [] else s.regs.filter (fun e => decide (e.1 / 131072 = Page.sps.id))
    fuses := s.fuses, tally := s.tally
    nor := { n with waiting := [], writing := none, compact := none, torn := n.writing.isSome }
    sps := { state := if x.resetReq && !x.resetLow && !x.latched then .clkWait else .down, samples := x.samples, latched := x.latched
             recovered := x.recovered, shutdown := x.shutdown, resetReq := x.resetReq, resetLow := x.resetLow, stackTbl := x.stackTbl
             underCap := if x.resetReq then 0 else x.underCap, modOver := !x.resetReq && x.modOver }
    clock := s.clock, order := s.order, ms := s.ms
    sent := s.sent, fresh := s.fresh, pending := s.pending }

/-- POWER_DOWN (R325): at 40 V, or as the end of a shutdown or reset, the steps of R323 run in reverse. -/
def powerDown (s : State) : State :=
  if s.sps.state ≠ .failing then s else s.unpowered.setFlag .sps sps.POWER_GOOD false

/-- Each SSB stops signing and submits LMS_REL with the last leaf it used (R397). -/
def State.releaseLeaves (s : State) : State :=
  [0, 1].foldl (fun s c =>
    let x := s.ssb c
    let s := s.updSsb c (fun x => { x with stopped := true })
    if x.hasBlock && x.leaf ≠ 0 then s.journal c (.lmsRel x.block (x.leaf - 1) c) else s) s

/-- Every partition reads OFF. -/
def State.allOff (s : State) : Bool := (List.range 12).all (fun p => s.pstate p = 0)

/-- A shutdown goes on once every partition reads OFF (R326). -/
def State.shutdownCheck (s : State) : State :=
  if s.sps.shutdown && s.sps.state = .good && s.allOff then s.powerFailing 0 else s

/-- SHUTDOWN (R326). -/
def shutdown (s : State) : State :=
  if s.sps.state ≠ .good || s.sps.shutdown then s else
  let s := s.releaseLeaves.updSps (fun x => { x with shutdown := true })
  ((List.range 12).foldl (fun s p => s.enPart p false) s).shutdownCheck

/-- SHUTDOWN_TIMEOUT (R326): 1 s has passed and a partition is still not OFF. -/
def shutdownTimeout (s : State) : State :=
  if s.sps.shutdown && s.sps.state = .good then s.powerFailing 0 else s

/-- MODULE_RESET (R432, R489): MGT_RST_N has been low for 10 µs.  A power-down in progress completes; a shutdown's stays off. -/
def moduleReset (s : State) : State :=
  let s' := s.updSps (fun x => { x with resetLow := true })
  match s.sps.state with
  | .off => s'
  | .down => s'
  | .failing => if s.sps.shutdown then s' else s'.updSps (fun x => { x with resetReq := true })
  | _ => (s'.updSps (fun x => { x with resetReq := true })).releaseLeaves.powerFailing 4

/-! ### The input (R319, R327) -/

/-- The class of an input voltage in units of 10 mV: 1 VIN_LOW, 2 VIN_HIGH, 3 OVP, 4 PWR_FAIL. -/
def vinClass (v : Nat) : Nat := if v < 4400 then 4 else if v < 4600 then 1 else if v ≤ 5600 then 0 else if v ≤ 5800 then 2 else 3

/-- The sum of the newest `n` power samples. -/
def State.powerSum (s : State) (n : Nat) : Nat := (s.sps.samples.take n).foldl (· + ·) 0

/-- 10 W in the units in which power is counted, 10 mV × 10 mA. -/
def tenWatts : Nat := 100000

/-- The cause for which a sample trips, or 0: undervoltage, overvoltage, or overpower (R325, R327, R489). -/
def State.tripCause (s : State) (vin power : Nat) : Nat :=
  if vinClass vin = 4 then 1 else if vinClass vin = 3 then 3
  else if 3000 * tenWatts < power ∨ 2400 * tenWatts * 1000 < s.powerSum 1000 then 2 else 0

/-- VIN_SAMPLE (R319, R325, R327): P48 in units of 10 mV and the input current in units of 10 mA, every 10 µs.  The averages run over the whole
window; samples from before power count as 0.  VIN_LOW and VIN_HIGH set when the input enters their range, and again while it stays there and
they have been cleared (DEDUCED; log 92). -/
def vinSample (s : State) (vin current : Nat) : State :=
  if s.sps.state = .off then s else
  let power := vin * current
  let was := vinClass (s.rd .sps sps.VIN)
  let s := s.updSps (fun x => { x with samples := (power :: x.samples).take 10000, recovered := if 4500 < vin then x.recovered + 1 else 0 })
  let sum := s.powerSum 10000
  let (pin, s) := s.freeQuot sum (10000 * tenWatts)
  let s := (s.wr .sps sps.VIN vin).wr .sps sps.PIN pin
  if s.sps.state ≠ .good ∧ s.sps.state ≠ .clkWait then s else
  let k := vinClass vin
  let shown (b : Nat) : Bool := bit (s.rd .sps page.ERR_STAT) b
  let s := if k = 2 ∧ (was ≠ 2 ∨ !shown 7) then s.err .sps 7 else if k = 1 ∧ (was ≠ 1 ∨ !shown 1) then s.err .sps 1 else s
  match s.tripCause vin power with
  | 0 =>
    let cap := s.rd .sps sps.MOD_CAP * tenWatts
    if cap * 10000 < sum then
      let s := s.updSps (fun x => { x with modOver := true, underCap := 0 })
      if bit (s.rd .sps page.ERR_STAT) 2 then s else s.err .sps 2
    else if !s.sps.modOver then s
    else if cap * 10000 * 95 ≤ sum * 100 then s.updSps (fun x => { x with underCap := 0 })
    else
      let n := s.sps.underCap + 1
      if n < 100000 then s.updSps (fun x => { x with underCap := n }) else
      (s.updSps (fun x => { x with modOver := false, underCap := 0, capNum := 1, capDen := 1 })).wr .sps page.ERR_STAT
        (Nat.land (s.rd .sps page.ERR_STAT) 0xFFFFFFFB)
  | c => s.trip c

/-! ### Compute switches (R324) -/

/-- The conditions of R324 under which the SPS closes the compute switches of a tile. -/
def State.mayClose (s : State) (t : Nat) : Bool :=
  match s.tilePart t with
  | none => false
  | some p => (s.part p).image.isSome && (s.img p).computeTiles.contains t && s.functional t && (s.tile t).up &&
      !s.flag (.therm t) therm.FENCED && s.sps.state = .good

/-- COMPUTE_SWITCH_CLOSE (R324): VDD_C soft-starts; a rail that does not come up is a rail failure of the tile (R308). -/
def computeSwitchClose (s : State) (t : Nat) (ok : Bool) : State :=
  if s.flag (.therm t) therm.COMPUTE_ON || !s.mayClose t then s else
  if ok then s.setCompute t true else s.tileLost t 11

/-! ### Clock loss (R479, R489) -/

/-- CLOCK_LOSS (R479): every PLL loses lock, every partition that is not OFF halts, and loads end ABORTED.  Partitions are created again
only after a module reset. -/
def clockLoss (s : State) : State :=
  if s.sps.state ≠ .good then s else
  let s := (List.range 72).foldl (fun s t => if !(s.tile t).up then s else
    (s.setFlag (.tileGlb t) tileGlb.PLL_LOCK false).err (.tileGlb t) 1) s
  let s := (List.range 16).foldl (fun s m => s.updSite m (fun x => { x with pll := false })) s
  let s := [0, 1].foldl (fun s c => s.updCtl c (fun x => { x with pll := false })) s
  let s := s.haltAll
  let s := (List.range 12).foldl (fun s p => s.abortLoad p 0x1E) s
  s.updSps (fun x => { x with clkLost := true })

/-! ### Phases and cartridges (R300, R301, R305, R321, R322, R333) -/

/-- The number of set bits among the lowest `n`. -/
def popc (n v : Nat) : Nat := (List.range n).countP (bit v)

/-- The phases of a stack that share current: with PH_OFFLINE set, a phase is out of sharing whatever its PH_OK reads (R333). -/
def Stack.sharing (x : Stack) : Nat := Nat.land x.ok (Nat.xor (2 ^ 32 - 1) (x.offline % 2 ^ 32))

/-- The record of a phase loss that the stack can bear: without excursion no interruption, with one the tick fails and is replayed (R294, R300). -/
def State.notePhase (s : State) (q : Option Nat) (loc ph : Nat) (excursion : Bool) (ent : Nat × Nat × Nat) : State :=
  let p := q.getD 0
  let pt := s.part p
  let fails : Bool := q.isSome && excursion && s.running p
  let intr := 652 + tickLen (s.periodOf p) pt.stretch
  let r : FaultRec := { cls := 4, path := 8, part := q.getD 0xFF, outcome := if fails then 0 else 2, loc := loc, unit := ph, tick := pt.tick
                        hold := if fails then 640 else 0, intr := if fails then intr else 0 }
  if q.isNone then s.record r [ent] []
  else if fails ∧ !s.inReplay p then ((s.failWith p 5).noteHold p 4 640 intr).record r [ent] [p]
  else s.eventIn p (if fails then 5 else 0) r [ent] [p]

/-- PHASE_LOSS (R290, R300, R301, R321, R322, R333): phase `ph` of stack `k` is lost.  `excursion` says that the compute rail left its window. -/
def phaseLoss (s : State) (k ph : Nat) (excursion : Bool) : State :=
  let n := stackPhases k
  let x := s.stack k
  if 90 ≤ k || n ≤ ph || !bit x.ok ph then s else
  let s := s.updStack k (fun x => { x with ok := x.ok - 2 ^ ph, bad := Nat.lor x.bad (2 ^ ph), lost := (x.lost + 1) % 2 ^ 32 })
  let s := s.err .sps 3
  let left := popc n (s.stack k).sharing
  let ent := (4, k * 32 + ph, 1)
  if k < 72 then
    let q := s.tilePart k
    let need := if s.rd (.tileGlb k) tileGlb.BUDGET ≤ 1120 then 15 else 16
    if left < need then
      match q with
      | some p => s.halt p 9 8 k ph [ent]
      | none => s.record { cls := 9, path := 8, outcome := 2, loc := k, unit := ph } [ent] []
    else s.notePhase q k ph excursion ent
  else if k < 88 then
    let q := s.sitePart (k - 72)
    if left < 6 then
      match q with
      | some p => s.halt p 15 8 (k - 72) ph [ent]
      | none => s.record { cls := 15, path := 8, outcome := 2, loc := k - 72, unit := ph } [ent] []
    else s.notePhase q (k - 72) ph false ent
  else
    let s := s.notePhase none (0x100 + (k - 88)) ph false ent
    if left < 4 then s.ctlLost (k - 88) else s

/-- PH_OFFLINE (R333): a write that takes a phase out is accepted only if every other phase of the stack reads PH_OK; a phase whose bit is
cleared rejoins unless its cartridge has failed. -/
def phOffline (s : State) (v : Nat) : State :=
  let k := s.rd .sps sps.PH_SEL
  let n := stackPhases k
  let x := s.stack k
  if 90 ≤ k then s else
  let phs := List.range n
  let new := phs.filter (fun i => bit v i && !bit x.offline i)
  let back := phs.filter (fun i => !bit v i && bit x.offline i && !bit x.bad i)
  let fine : Bool := match new with
    | [] => true
    | [b] => phs.all (fun i => i = b || bit x.ok i)
    | _ => false
  if !fine then s.err .sps 4 else
  let ok := back.foldl (fun o i => Nat.lor o (2 ^ i)) x.ok
  let ok := new.foldl (fun o i => if bit o i then o - 2 ^ i else o) ok
  s.updStack k (fun x => { x with ok := ok, offline := v % 2 ^ n })

/-- CARTRIDGE_SELF_TEST (R333): the SPS has tested a newly inserted cartridge and sets its PH_OK; the phase is restored (R305). -/
def cartridgeSelfTest (s : State) (k ph : Nat) : State :=
  let x := s.stack k
  if 90 ≤ k || stackPhases k ≤ ph || !bit x.offline ph then s else
  (s.updStack k (fun x => { x with
    ok := Nat.lor x.ok (2 ^ ph), bad := if bit x.bad ph then x.bad - 2 ^ ph else x.bad })).setMap [(4, k * 32 + ph, 0)]

/-- POWER_ON. -/
def execPowerOn (clk : Bool) (fails : List RailBlock) (s : State) : Out := .next (powerOn s clk fails)
/-- CLK_RETRY. -/
def execClkRetry (clk : Bool) (fails : List RailBlock) (s : State) : Out := .next (clkRetry s clk fails)
/-- PWR_FAIL_RESTART. -/
def execPwrFailRestart (clk : Bool) (fails : List RailBlock) (s : State) : Out := .next (pwrFailRestart s clk fails)
/-- MGT_RST_N_RELEASE. -/
def execMgtRstNRelease (clk : Bool) (fails : List RailBlock) (s : State) : Out := .next (mgtRstNRelease s clk fails)
/-- VIN_SAMPLE. -/
def execVinSample (vin current : Nat) (s : State) : Out := .next (vinSample s vin current)
/-- POWER_DOWN. -/
def execPowerDown (s : State) : Out := .next (powerDown s)
/-- COMPUTE_SWITCH_CLOSE. -/
def execComputeSwitchClose (t : Nat) (ok : Bool) (s : State) : Out := .next (computeSwitchClose s t ok)
/-- SHUTDOWN. -/
def execShutdown (s : State) : Out := .next (shutdown s)
/-- SHUTDOWN_TIMEOUT. -/
def execShutdownTimeout (s : State) : Out := .next (shutdownTimeout s)
/-- MODULE_RESET. -/
def execModuleReset (s : State) : Out := .next (moduleReset s)
/-- CLOCK_LOSS. -/
def execClockLoss (s : State) : Out := .next (clockLoss s)
/-- PHASE_LOSS. -/
def execPhaseLoss (stack phase : Nat) (excursion : Bool) (s : State) : Out := .next (phaseLoss s stack phase excursion)
/-- PH_OFFLINE. -/
def execPhOffline (v : Nat) (s : State) : Out := .next (phOffline s v)
/-- CARTRIDGE_SELF_TEST. -/
def execCartridgeSelfTest (stack phase : Nat) (s : State) : Out := .next (cartridgeSelfTest s stack phase)
/-- DRAIN_DONE. -/
def execDrainDone (p : Nat) (s : State) : Out := .next (drainDone s p).shutdownCheck

end Sys2Proof.Machine
end

