-- ==== Sys2Proof/Machine/Thermal.lean ====
section
/-! DEFINITION. Heat: the thermal resistance estimator, permitted power and stretch, diode readings and fences, and the baseline capture
(R312, R328 to R335). -/

namespace Sys2Proof.Machine

/-- An 8-bit temperature register's contents. -/
def temp8 (t : Int) : Nat := (t % 256).toNat

/-- The temperature that a diode's corrected code gives, in 1/1024 °C: (c − 1,638.4) / 10.24 °C (R339). -/
def diodeTemp (code : Nat) : Int := 100 * (code : Int) - 163840

/-- `t` °C in the units of `diodeTemp`. -/
def celsius (t : Int) : Int := 1024 * t

/-- The hottest die diode of a tile, from the results of entries 1 and 2 of its rail monitor, which R354 has read inputs 10 to 13. -/
def State.dieTemp (s : State) (t : Nat) : Int :=
  let pg := Page.rmbTile t
  diodeTemp (max (max (s.rd pg (rmb.CODE_A 1)) (s.rd pg (rmb.CODE_B 1))) (max (s.rd pg (rmb.CODE_A 2)) (s.rd pg (rmb.CODE_B 2))))

/-- A quotient that no rule rounds, of an integer by a natural number. -/
def State.freeQuotInt (s : State) (n : Int) (d : Nat) : Int × State :=
  let (v, s) := s.freeQuot ((n % d).toNat) d
  (n / d + v, s)

/-- A quotient that fills an unsigned field of `w` bits; outside the field it is a free value (log 9). -/
def State.freeField (s : State) (w : Nat) (n : Int) (d : Nat) : Nat × State :=
  let (v, s) := s.freeQuotInt n d
  let (x, s) := s.free
  if v < 0 ∨ 2 ^ w ≤ v ∨ d = 0 then (x.toNat % 2 ^ w, s) else (v.toNat, s)

/-! ### The estimator (R327 to R329) -/

/-- The cap factor of R327 as the thermal updates take it: MOD_CAP over the 100 ms average while that is above MOD_CAP. -/
def State.capUpdate (s : State) : State :=
  let sum := s.powerSum 10000
  let cap := s.rd .sps sps.MOD_CAP * 10000
  let s := if s.sps.modOver && cap < sum then s.updSps (fun x => { x with capNum := cap, capDen := sum }) else s
  let (v, s) := s.freeQuot (s.sps.capNum * 65535) s.sps.capDen
  s.wr .sps sps.CAP_FACTOR v

/-- What R328 measures at a tile: the sum of the diode readings in 1/1024 °C and their number, and the power as a fraction in pu. -/
structure HeatIn where
  sd : Int
  nd : Nat
  ps : Nat
  pn : Nat

/-- The measurements of the window that ends. -/
def Tile.heatIn (x : Tile) : HeatIn := { sd := x.diodes.foldl (· + ·) 0, nd := x.diodes.length, ps := x.powSum, pn := x.powN * 2 ^ 24 }

/-- P is at least `w` watts. -/
def HeatIn.watts (h : HeatIn) (w : Nat) : Bool := h.pn ≠ 0 && decide (4 * w * h.pn ≤ h.ps)

/-- θ_raw = (T_d − T_in) / P as a fraction in mK/W: numerator and denominator. -/
def HeatIn.raw (h : HeatIn) (tIn : Int) : Int × Nat := (4000 * (h.sd - celsius tIn * h.nd) * h.pn, 1024 * h.nd * h.ps)

/-- P₀ of R329 referred to stretch `k` is within P_perm: each of its three bounds, multiplied out. -/
def fitsPerm (s : State) (t p : Nat) (tIn : Int) (h : HeatIn) (k : Nat) : Bool :=
  let per := s.periodOf p
  let x := s.part p
  let th := s.rd (.therm t) therm.THETA_EST
  let th0 := s.rd (.therm t) therm.THETA_BASE
  let bud := s.rd (.tileGlb t) tileGlb.BUDGET
  let lhs := h.ps * x.lenSum * s.sps.capDen
  let rhs := (per + k * (per / 64)) * s.sps.capNum * h.pn * x.lenN
  decide (lhs ≤ rhs * bud) && decide (lhs * th ≤ rhs * bud * th0) && decide (((lhs * th : Nat) : Int) ≤ (rhs : Int) * 4000 * (85 - tIn))

/-- k_tile of an update (R329, R334). -/
def State.kTile (s : State) (t : Nat) (tIn : Int) (h : HeatIn) : Nat :=
  let pg := Page.therm t
  let prev := s.rd pg therm.K_TILE
  match s.tilePart t with
  | none => 0
  | some p =>
    if s.flag pg therm.FENCED || !s.flag pg therm.COMPUTE_ON then 0 else
    let k := ((List.range 65).find? (fitsPerm s t p tIn h)).getD 64
    let k := if h.nd ≠ 0 && decide (celsius 95 * h.nd ≤ h.sd) then max k (prev + 8) else k
    min 64 (max k (prev - 8))

/-- P_perm in pu: c times the least of its three bounds. -/
def State.permOf (s : State) (t : Nat) (tIn : Int) : Nat × State :=
  let th := s.rd (.therm t) therm.THETA_EST
  let bud := s.rd (.tileGlb t) tileGlb.BUDGET
  let m : Int := min (min ((bud * th : Nat) : Int) ((bud * s.rd (.therm t) therm.THETA_BASE : Nat) : Int)) (4000 * (85 - tIn))
  s.freeField 12 (m * s.sps.capNum) (th * s.sps.capDen)

/-- A capture in progress counts an update (R332); each θ_raw is rounded as a free value says. -/
def State.captureStep (s : State) (t : Nat) (tIn : Int) (h : HeatIn) : State :=
  match (s.tile t).capture with
  | none => s
  | some (0, _, _) => s
  | some (n + 1, q, sum) =>
    if h.watts 120 then
      let (v, s) := s.freeField 16 (h.raw tIn).1 (h.raw tIn).2
      s.updTile t (fun x => { x with capture := some (n, q + 1, sum + v) })
    else s.updTile t (fun x => { x with capture := some (n, q, sum) })

/-- T_DIE_MAX, P_AVG and T_IN of the window (R328). -/
def State.showHeat (s : State) (t : Nat) (tIn : Int) (h : HeatIn) : State :=
  let pg := Page.therm t
  let (td, s) := s.freeQuotInt h.sd (1024 * h.nd)
  let (pavg, s) := if h.pn = 0 then (0, s) else s.freeQuot h.ps h.pn
  ((s.wr pg therm.T_DIE_MAX (temp8 td)).wr pg therm.P_AVG pavg).wr pg therm.T_IN (temp8 tIn)

/-- THETA_EST moves by an eighth, above 40 W (R328). -/
def State.thetaStep (s : State) (t : Nat) (tIn : Int) (h : HeatIn) : State :=
  let pg := Page.therm t
  let (num, den) := h.raw tIn
  if !h.watts 40 then s else
  let (v, s) := s.freeField 16 (((7 * s.rd pg therm.THETA_EST * den : Nat) : Int) + num) (8 * den)
  s.wr pg therm.THETA_EST v

/-- HOT follows T_d: set from 95 °C, cleared below 92 °C (R331). -/
def State.hotStep (s : State) (t : Nat) (h : HeatIn) : State :=
  let pg := Page.therm t
  if h.nd = 0 then s
  else if celsius 95 * h.nd ≤ h.sd then (if s.flag pg therm.HOT then s else (s.setFlag pg therm.HOT true).err pg 0)
  else if h.sd < celsius 92 * h.nd then s.setFlag pg therm.HOT false else s

/-- The update of one tile (R328, R329), with HOT, which follows T_d (R331); its window then begins anew. -/
def State.heatTile (s : State) (tIn : Int) (t : Nat) : State :=
  if !(s.tile t).up then s else
  let pg := Page.therm t
  let h := (s.tile t).heatIn
  let s := (((((s.inc pg therm.UPDATE_CNT 1).showHeat t tIn h).thetaStep t tIn h).hotStep t h).captureStep t tIn h)
  let (perm, s) := s.permOf t tIn
  let k := s.kTile t tIn h
  ((s.wr pg therm.P_PERM perm).wr pg therm.K_TILE k).updTile t (fun x => { x with powSum := 0, powN := 0, diodes := [] })

/-- STRETCH_REQUEST_WRITE (R330). -/
def State.writeStretch (s : State) (p : Nat) : State :=
  if !s.created p then s else
  let ks := (s.part p).tiles.map (fun t => s.rd (.therm t) therm.K_TILE)
  let hot : Bool := (s.partSites p).any (fun m => s.flag (.msite m) msite.HOT)
  (s.wr (.tickgen p) tickgen.STRETCH_REQ (max (maxOf ks) (if hot then 16 else 0))).updPart p (fun x => { x with lenSum := 0, lenN := 0 })

/-- The coolant thresholds (R331): a bit sets as T_in leaves 15 to 35 °C, and clears as it is back inside. -/
def State.coolant (s : State) (tIn : Int) (t : Nat) : State :=
  let pg := Page.therm t
  let st := s.rd pg page.ERR_STAT
  if !(s.tile t).up then s else
  if 35 < tIn then (if bit st 3 then s else s.err pg 3)
  else if tIn < 15 then (if bit st 4 then s else s.err pg 4)
  else s.wr pg page.ERR_STAT (Nat.land st 0xFFFFFFE7)

/-- THERMAL_UPDATE (R327 to R332): every 10 ms. -/
def thermalUpdate (s : State) (tIn : Int) : State :=
  if s.sps.state ≠ .good then s else
  let s := s.capUpdate
  let s := (List.range 72).foldl (fun s t => (s.heatTile tIn t).coolant tIn t) s
  (List.range 12).foldl State.writeStretch s

/-! ### Diode readings and fences (R312, R331) -/

/-- HEAT_FENCE (R312): the partition of the tile halts at its next boundary; where no tick runs, the compute rail goes off at once. -/
def State.heatFence (s : State) (t : Nat) : State :=
  let pg := Page.therm t
  let s := (s.setFlag pg therm.FENCED true).err pg 1
  match s.tilePart t with
  | none => s.setCompute t false
  | some p =>
    if s.pstate p = 1 then s.halt p 14 10 t 0 []
    else if (s.part p).phase = .stopped then s.setCompute t false
    else s.updPart p (fun x => { x with haltAt := some (x.haltAt.getD t) })

/-- FENCE_CLEAR (R312, R324): the tile has cooled; its compute rail is sequenced on where R324 lets it. -/
def State.fenceClear (s : State) (t : Nat) : State :=
  let s := s.setFlag (.therm t) therm.FENCED false
  if s.mayClose t then s.setCompute t true else s

/-- The stretch stands at its ceiling; so it does at a tile whose partition applies none (log 51). -/
def State.atCeiling (s : State) (t : Nat) : Bool :=
  match s.tilePart t with
  | none => true
  | some p => (s.part p).phase = .stopped || s.rd (.tickgen p) tickgen.STRETCH = s.rd (.tickgen p) tickgen.STRETCH_CEIL_EFF

/-- DIODE_READING (R328, R331): the thermal control reads the hottest diode of a tile, every 1 ms.  T_LAST shows whole degrees; how it
is rounded is a free value (log 9). -/
def diodeReading (s : State) (t : Nat) : State :=
  if !(s.tile t).up || s.sps.state ≠ .good then s else
  let pg := Page.therm t
  let temp := s.dieTemp t
  let (shown, s) := s.freeQuotInt temp 1024
  let s := s.wr pg therm.T_LAST (temp8 shown)
  let run := if celsius 105 ≤ temp then min 10 ((s.tile t).hot105 + 1) else 0
  let s := (s.updTile t (fun x => { x with diodes := (temp :: x.diodes).take 10, hot105 := run })).wr pg therm.HOT105_RUN run
  if s.flag pg therm.FENCED then (if temp < celsius 95 then s.fenceClear t else s)
  else if celsius 110 ≤ temp ∨ (run = 10 ∧ s.atCeiling t) then s.heatFence t
  else s

/-! ### The commissioning capture (R332) -/

/-- BASE_CAPTURE (R332): a capture of 6,000 updates begins on the tile. -/
def baseCapture (s : State) (t : Nat) : State :=
  if (s.tile t).capture.isSome || !(s.tile t).up then s else
  (s.updTile t (fun x => { x with capture := some (6000, 0, 0) })).setFlag (.therm t) therm.CAPTURE_BUSY true

/-- CAPTURE_END (R332): after 6,000 updates, of which 3,000 must qualify. -/
def captureEnd (s : State) (t : Nat) : State :=
  let pg := Page.therm t
  match (s.tile t).capture with
  | some (0, q, sum) =>
    let s := (s.updTile t (fun x => { x with capture := none })).setFlag pg therm.CAPTURE_BUSY false
    if q < 3000 then (s.setFlag pg therm.BASE_FAIL true).err pg 2 else
    let (v, s) := s.freeQuot sum q
    ((s.setFlag pg therm.BASE_FAIL false).wr pg therm.THETA_BASE v).journal (s.norHolder.getD 0) (.theta t v)
  | _ => s

/-- THERMAL_UPDATE. -/
def execThermalUpdate (tIn : Int) (s : State) : Out := .next (thermalUpdate s tIn)
/-- DIODE_READING. -/
def execDiodeReading (t : Nat) (s : State) : Out := .next (diodeReading s t)
/-- BASE_CAPTURE. -/
def execBaseCapture (t : Nat) (s : State) : Out := .next (baseCapture s t)
/-- CAPTURE_END. -/
def execCaptureEnd (t : Nat) (s : State) : Out := .next (captureEnd s t)

end Sys2Proof.Machine
end

