-- ==== Sys2Proof/Machine/Link.lean ====
section
/-! DEFINITION. The Vreljo Link: training, the link layer with its acknowledgements and replays, retraining, and the messages that answer
the engine's own (R357 to R375, R381). -/

namespace Sys2Proof.Machine

/-! ### Training (R358 to R360, R373) -/

/-- The lanes of one half. -/
def laneHalf (fail : Nat) (hi : Bool) : Nat := if hi then fail / 256 % 256 else fail % 256

/-- An ACTIVE port of the same companion reported another NODE_ID (R373). -/
def State.compClash (s : State) (n id : Nat) : Bool :=
  (List.range 8).any (fun m => m ≠ n && s.portActive m && s.rd (.vlport m) vlport.PORT_COMP = s.rd (.vlport n) vlport.PORT_COMP &&
    s.rd64 (.vlport m) vlport.NODE_ID_LO vlport.NODE_ID_HI ≠ id)

/-- A failed attempt: the third of a series, or one from DOWN, leaves the port DOWN (R359). -/
def State.trainFail (s : State) (n : Nat) : State :=
  let a := (s.port n).attempts + 1
  if 3 ≤ a ∨ s.rd (.vlport n) vlport.LSTATE = 6 then s.portDown n
  else (s.updPort n (fun x => { x with attempts := a })).wr (.vlport n) vlport.LSTATE 0

/-- A training attempt of a port. -/
def State.trainOnce (s : State) (n : Nat) (d : TrainData) : State :=
  let pg := Page.vlport n
  if !d.active then s.trainFail n else
  let s := s.wr pg vlport.LANE_FAIL d.laneFail
  if laneHalf d.laneFail false ≠ 0 ∧ laneHalf d.laneFail true ≠ 0 then s.portDown n
  else if s.compClash n d.nodeId then (s.err pg 3).trainFail n
  else
    let x8 : Bool := d.laneFail % 65536 ≠ 0
    let s := ((s.wr pg vlport.GEN (min (s.rd pg vlport.GEN_MAX) d.gen)).setFlag pg vlport.WIDTH x8).wr64 pg vlport.NODE_ID_LO
      vlport.NODE_ID_HI d.nodeId
    let s := if x8 then s.err pg 7 else s
    let s := (s.wr pg vlport.LSTATE 4).updPort n (fun _ => { credits := d.credits })
    s.flush.linkCheck

/-- The port takes part in the link: its control tile is up and PORT_EN is 1. -/
def State.portEnabled (s : State) (n : Nat) : Bool := (s.ctl (n / 4)).up && s.flag (.vlport n) vlport.PORT_EN

/-- PORT_TRAIN (R359): an attempt from DETECT. -/
def portTrain (s : State) (n : Nat) (d : TrainData) : State :=
  if s.portEnabled n && s.rd (.vlport n) vlport.LSTATE < 4 then s.trainOnce n d else s

/-- TRAINING_TIMEOUT (R359): the time of R358 passes without ACTIVE. -/
def trainingTimeout (s : State) (n : Nat) : State :=
  if s.portEnabled n && s.rd (.vlport n) vlport.LSTATE < 4 then s.trainFail n else s

/-- DOWN_RETRY (R359): 100 ms after the port last entered DOWN, one attempt. -/
def downRetry (s : State) (n : Nat) (d : TrainData) : State :=
  if s.portEnabled n && s.rd (.vlport n) vlport.LSTATE = 6 && (s.port n).sinceDown + 250000000 ≤ s.clock then s.trainOnce n d else s

/-! ### The link layer (R361 to R364, R366) -/

/-- Retraining starts (R364). -/
def State.startRetrain (s : State) (n : Nat) : State := if s.portActive n then (s.wr (.vlport n) vlport.LSTATE 5).linkCheck else s

/-- The flits of a replay buffer from a sequence number on; all of them where it names none. -/
def fromSeq (q : Nat) (l : List (Nat × Option Msg)) : List (Nat × Option Msg) :=
  match splitFirst (fun e => decide (e.1 = q)) l with
  | some (_, x, t) => x :: t
  | none => l

/-- A replay (R363): the flits go out again, and 16 in a row without an advance of ACKSEQ retrain the port (R364). -/
def State.replayFlits (s : State) (n : Nat) (l : List (Nat × Option Msg)) : State :=
  let s := l.foldl (fun s e => s.emit (.flit n 0 e.1)) s
  let s := (s.inc (.vlport n) vlport.REPLAY_CNT 1).updPort n (fun x => { x with replays := x.replays + 1, ackTime := s.clock })
  if 16 ≤ (s.port n).replays then s.startRetrain n else s

/-- Drops the flits that an acknowledgement covers. -/
def ackTo (q : Nat) (l : List (Nat × Option Msg)) : Option (List (Nat × Option Msg)) :=
  match splitFirst (fun e => decide (e.1 = q)) l with
  | some (_, _, t) => some t
  | none => none

/-- The acknowledgement of a received flit (R362, R363). -/
def State.flitAck (s : State) (n ack : Nat) (ackv : Bool) : State :=
  match ackTo ack (s.port n).replay with
  | some t => if ackv then s.updPort n (fun x => { x with replay := t, replays := 0, ackTime := s.clock }) else s
  | none => s

/-- The credit return of a received flit (R362, R366). -/
def State.flitCredit (s : State) (n vc cr : Nat) : State :=
  (s.updPort n (fun x => { x with credits := setAt x.credits (vc % 4) (x.credits.getD (vc % 4) 0 + cr % 64) })).flush

/-- The header of a received flit. -/
def State.flitHeader (s : State) (n ack vc cr : Nat) (ackv : Bool) : State := (s.flitAck n ack ackv).flitCredit n vc cr

/-- The receiver's NAK, once until the flit it expects arrives good (R363). -/
def State.sendNak (s : State) (n : Nat) : State :=
  if (s.port n).nakSent then s else
  (s.updPort n (fun x => { x with nakSent := true })).emit (.flit n 2 (s.port n).rxSeq)

/-- A gen3 flit that its FEC corrected is counted (R361, R383). -/
def State.corrected (s : State) (n : Nat) (corr : Bool) : State :=
  if corr && s.rd (.vlport n) vlport.GEN = 3 then s.inc (.vlport n) vlport.FEC_CORR_CNT 1 else s

/-- IDLE_FLIT (R362). -/
def idleFlit (s : State) (n ack vc cr : Nat) (ackv corr : Bool) : State :=
  if s.portActive n then (s.corrected n corr).flitHeader n ack vc cr ackv else s

/-- NAK (R362, R363): every flit from the one named goes out again, and then new ones; its header acknowledges and returns credits as
every flit's does. -/
def nak (s : State) (n fseq ack vc cr : Nat) (ackv corr : Bool) : State :=
  if !s.portActive n then s else
  let s := (s.corrected n corr).flitAck n ack ackv
  (s.replayFlits n (fromSeq fseq (s.port n).replay)).flitCredit n vc cr

/-- ACK_TIMEOUT (R363): ACKSEQ has not advanced for 2 µs. -/
def ackTimeout (s : State) (n : Nat) : State :=
  let x := s.port n
  if !s.portActive n || x.replay = [] || s.clock < x.ackTime + 5000 then s else s.replayFlits n x.replay

/-- BLOCK_LOCK_LOSS (R364). -/
def blockLockLoss (s : State) (n : Nat) : State := s.startRetrain n

/-- RETRAIN (R383): software forces a retrain. -/
def retrain (s : State) (n : Nat) : State := s.startRetrain n

/-- RETRAIN_TIMEOUT (R364): a retrain ends, ACTIVE with its buffers kept, or after 1 ms DOWN. -/
def retrainTimeout (s : State) (n : Nat) (active : Bool) : State :=
  if s.rd (.vlport n) vlport.LSTATE ≠ 5 then s else
  if !active then s.portDown n else
  let s := (s.wr (.vlport n) vlport.LSTATE 4).updPort n (fun x => { x with replays := 0, ackTime := s.clock })
  ((s.inc (.vlport n) vlport.RETRAIN_CNT 1).err (.vlport n) 1).flush.linkCheck

/-! ### Messages that the engine receives (R366 to R370, R381) -/

/-- A received message is consumed: its credits go back (R366). -/
def State.returnCredit (s : State) (n vc k : Nat) : State := s.emit (.credit n vc k)

/-- SNP_INV (R370): the line is invalid, a fetch of it in flight reads it again, and SNP_RSP answers. -/
def snpInv (s : State) (n addr : Nat) : State :=
  if !s.portActive n then s else
  let c := n / 4
  let l := addr / 64
  let s := s.updCtl c (fun x => { x with cache := x.cache.filter (· ≠ l) })
  let s := s.setReads (s.reads.map (fun (r : Read) =>
    if r.cached && r.addr / 64 = l && s.primary r.part = c then { r with stale := true } else r))
  ((s.inc (.vlport n) vlport.SNP_CNT 1).returnCredit n 1 1).sendMsg n 2 1 (.snpRsp n addr)

/-- CMP (R368, R381): the write with this tag is done; an error loses it. -/
def cmp (s : State) (n tag status : Nat) : State :=
  if !s.portActive n then s else
  let s := s.returnCredit n 2 1
  match splitFirst (fun w => decide (w.port = some n ∧ w.tag = tag)) s.writes with
  | none => s
  | some (a, _, b) =>
    let s := (s.setWrites (a ++ b)).flush
    if status = 0 then s else (s.inc (.vlport n) vlport.WR_ERR_CNT 1).err (.vlport n) 6

/-- A line enters the cache (R370): 4,096 sets of 16 ways.  Which line of a full set leaves is a free value (log 9). -/
def State.cacheLine (s : State) (c l : Nat) : State :=
  let x := (s.ctl c).cache
  let mates := x.filter (fun m => m % 4096 = l % 4096)
  if x.contains l then s
  else if mates.length < 16 then s.updCtl c (fun k => { k with cache := k.cache ++ [l] })
  else
    let (v, s) := s.free
    let out := mates.getD (v.toNat % 16) 0
    s.updCtl c (fun k => { k with cache := k.cache.filter (· ≠ out) ++ [l] })

/-- DATA (R368, R370, R381): a read is answered.  A line that a snoop hit meanwhile is read again; an error in a command fetch ends in
NACK 0x10. -/
def data (s : State) (n tag status : Nat) (bytes : List Byte) : State :=
  if !s.portActive n then s else
  let s := s.returnCredit n 3 (1 + cdiv bytes.length 16)
  match splitFirst (fun r => decide (r.port = some n ∧ r.tag = tag)) s.reads with
  | none => s
  | some (a, r, b) =>
    if r.stale then (s.setReads (a ++ { r with port := none, stale := false } :: b)).flush else
    let s := (s.setReads (a ++ b)).flush
    if status = 0 then (if r.cached then s.cacheLine (n / 4) (r.addr / 64) else s)
    else if r.what ≠ 1 then s
    else
      match splitFirst (fun c => decide (c.addr = r.addr)) (s.part r.part).cmdIn with
      | none => s
      | some (x, c, y) => ((s.updPart r.part (fun p => { p with cmdIn := x ++ y })).dropEntry c).nackFree r.part c 0x10

/-- PORT_TRAIN. -/
def execPortTrain (n : Nat) (d : TrainData) (s : State) : Out := .next (portTrain s n d)
/-- TRAINING_TIMEOUT. -/
def execTrainingTimeout (n : Nat) (s : State) : Out := .next (trainingTimeout s n)
/-- DOWN_RETRY. -/
def execDownRetry (n : Nat) (d : TrainData) (s : State) : Out := .next (downRetry s n d)
/-- IDLE_FLIT. -/
def execIdleFlit (n ack vc cr : Nat) (ackv corr : Bool) (s : State) : Out := .next (idleFlit s n ack vc cr ackv corr)
/-- NAK. -/
def execNak (n fseq ack vc cr : Nat) (ackv corr : Bool) (s : State) : Out := .next (nak s n fseq ack vc cr ackv corr)
/-- ACK_TIMEOUT. -/
def execAckTimeout (n : Nat) (s : State) : Out := .next (ackTimeout s n)
/-- BLOCK_LOCK_LOSS. -/
def execBlockLockLoss (n : Nat) (s : State) : Out := .next (blockLockLoss s n)
/-- RETRAIN. -/
def execRetrain (n : Nat) (s : State) : Out := .next (retrain s n)
/-- RETRAIN_TIMEOUT. -/
def execRetrainTimeout (n : Nat) (active : Bool) (s : State) : Out := .next (retrainTimeout s n active)
/-- SNP_INV. -/
def execSnpInv (n addr : Nat) (s : State) : Out := .next (snpInv s n addr)
/-- CMP. -/
def execCmp (n tag status : Nat) (s : State) : Out := .next (cmp s n tag status)
/-- DATA. -/
def execData (n tag status : Nat) (bytes : List Byte) (s : State) : Out := .next (data s n tag status bytes)

end Sys2Proof.Machine
end

