-- ==== Sys2Proof/Machine/Tally.lean ====
section
/-! DEFINITION. The Tally metering unit and its link: frames, signing, its journal and seal, and the per-partition shares (R415 to R431). -/

namespace Sys2Proof.Machine

/-- Changes the Tally. -/
def State.updTally (s : State) (f : Tally → Tally) : State := { s with tally := f s.tally }

/-- The module can have a Tally, and one is fitted (R6, R418). -/
def State.hasTally (s : State) : Bool := s.fuses.suffixT && s.tally.fitted

/-- The engine side of the link works: the SMC that holds the NOR grant is powered (R419). -/
def State.tallyLink (s : State) : Bool := s.hasTally && s.norHolder.isSome && s.sps.state = .good

/-! ### The registers and what the Tally shows of them (R415, R416, R423, R424) -/

/-- The clock cycles from the start of one pulse to that of the next at the highest rate: 2 ms on the test LED, 30 ms on the pulse output,
and the time between them (log 73). -/
def pulseSlot (output : Bool) : Nat := (if output then 75000000 else 5000000) + Config.pulseGap output

/-- Energy is measured at clock `c`: the pulses that fall due, one for each `unit` mWh, follow those still owed.  None is dropped. -/
def PulseOut.add (x : PulseOut) (unit slot mwh c : Nat) : PulseOut :=
  let n := (x.rest + mwh) / unit
  { rest := (x.rest + mwh) % unit, total := x.total + n, free := if n = 0 then x.free else max x.free c + n * slot }

/-- The pulses still owed at clock `c`: those that have not begun. -/
def PulseOut.owed (x : PulseOut) (slot c : Nat) : Nat := (x.free - c - 1) / slot

/-- The pulses begun by clock `c`. -/
def PulseOut.given (x : PulseOut) (slot c : Nat) : Nat := x.total - x.owed slot c

/-- Energy in mWh is measured at clock `c` (R416): E_IMP and E_REV advance, and imported energy gives pulses, 10,000 to the kWh on the
test LED and 1,000 on the pulse output. -/
def Tally.measure (x : Tally) (imp rev c : Nat) : Tally :=
  { x with
    eImp := (x.eImp + imp) % 2 ^ 64, eRev := (x.eRev + rev) % 2 ^ 64
    led := x.led.add 100 (pulseSlot false) imp c, pulse := x.pulse.add 1000 (pulseSlot true) imp c }

/-- The lowest `n` digits of a number in base `b`, most significant first. -/
def digits (b : Nat) : Nat → Nat → List Nat
  | 0, _ => []
  | n + 1, v => digits b n (v / b) ++ [v % b]

/-- What the display shows (R423): digits in base 10 with the number of decimals, or in base 16, and whether OPEN stands beside them. -/
structure Display where
  base : Nat
  shown : List Nat
  decimals : Nat
  opened : Bool
  deriving DecidableEq, Repr

/-- The display at clock `c`: E_IMP in kWh to three decimals, the checksum and the firmware version, 5 s each in turn; OPEN while the
cover is open. -/
def Tally.display (x : Tally) (c : Nat) : Display :=
  let wh := x.eImp / 1000 + b2n (x.eImp % 1000 ≠ 0 && Config.displayUp x.eImp)
  match (c - Config.displayStart) / 12500000000 % 3 with
  | 0 => ⟨10, digits 10 20 wh, 3, x.sealOpen⟩
  | 1 => ⟨16, digits 16 4 x.checksum, 0, x.sealOpen⟩
  | _ => ⟨10, digits 10 10 x.version, 0, x.sealOpen⟩

/-! ### Frames (R419, R420) -/

/-- A frame in the layout of R419. -/
def frameBytes (type fseq : Nat) (payload : List Byte) : List Byte :=
  let h : List Byte := [0xA5, BitVec.ofNat 8 type] ++ leBytes 2 payload.length ++ leBytes 2 fseq ++ payload
  h ++ leBytes 4 (crc32 h)

/-- The engine sends a frame. -/
def State.toTally (s : State) (type : Nat) (payload : List Byte) : State :=
  (s.emit (.tallyFrame type s.tally.fseqRx payload)).updTally (fun x => { x with fseqRx := (x.fseqRx + 1) % 65536 })

/-- The Tally sends a frame. -/
def State.fromTally (s : State) (type : Nat) (payload : List Byte) : State :=
  (s.emit (.tallyOut type s.tally.fseqTx payload)).updTally (fun x => { x with fseqTx := (x.fseqTx + 1) % 65536 })

/-- A frame arrives whole: it takes the frame buffer (R430). -/
def State.bufferFrame (s : State) (type : Nat) (f : TallyFrame) : State :=
  let b := frameBytes type f.fseq f.payload
  (((s.updTally (fun x => { x with frame := b })).raiseFlag .tallyIf tallyIf.FRAME_VALID).wr .tallyIf tallyIf.FRAME_TYPE type).wr .tallyIf
    tallyIf.FRAME_LEN b.length

/-- Admits a frame: one with a bad CRC is discarded (R419). -/
def State.goodFrame (s : State) (f : TallyFrame) (k : State → State) : State :=
  if !s.tallyLink then s else if f.crcOk then k s else s.err .tallyIf 1

/-! ### The Tally's journal (R425) -/

/-- Adds a record: 1 interval, 2 power-up, 3 power-down, 4 SEAL_OPEN, 5 SEAL_CLOSED, 6 FW_CHANGE, 7 refused object, 8 PAIRING, 9 tree
reservation, 10 start of an episode, 11 its end. -/
def State.tallyLog (s : State) (kind : Nat) (vals : List Nat) : State :=
  s.updTally (fun x => { x with log := x.log ++ [{ seq := x.logNext, kind := kind, vals := vals }], logNext := x.logNext + 1 })

/-- The registers, as interval, power-up and power-down records hold them. -/
def Tally.regs (x : Tally) : List Nat := [x.eImp, x.eRev, x.tSec]

/-- A journal record as LOG carries it: its index, which is its sequence number, its contents and its CRC-32 (R420, R425). -/
def TallyRec.bytes (r : TallyRec) : List Byte :=
  let b : List Byte := leBytes 4 r.seq ++ [BitVec.ofNat 8 r.kind] ++ r.vals.flatMap (leBytes 8)
  b ++ leBytes 4 (crc32 b)

/-! ### Signing (R422) -/

/-- Every index is spent: 32,768 trees of 32,768 indices. -/
def Tally.spent (x : Tally) : Bool := x.treeLeft = 0 && 32768 ≤ x.trees

/-- Takes the next index; a new tree is reserved in the journal first. -/
def State.takeIndex (s : State) : State :=
  if s.tally.spent then s else
  let s := if s.tally.treeLeft ≠ 0 then s else
    (s.updTally (fun x => { x with trees := x.trees + 1, treeLeft := 32768, q := x.trees * 32768 })).tallyLog 9 [s.tally.trees]
  s.updTally (fun x => { x with q := x.q + 1, treeLeft := x.treeLeft - 1 })

/-- 90 % of the indices are reserved. -/
def Tally.lmsLow (x : Tally) : Bool := 29492 ≤ x.trees

/-- STATUS of R421; OVER_IMAX and V_OUT are as the last READING had them. -/
def Tally.status (x : Tally) : Nat := b2n x.sealOpen + x.quality + 8 * b2n x.unpaired + 16 * b2n x.lmsLow

/-- The 96 bytes that an interval frame signs; its mean voltage, current and power are free values (log 9). -/
def State.signedBody (s : State) : List Byte × State :=
  let x := s.tally
  let (v, s) := s.free
  let (i, s) := s.free
  let (p, s) := s.free
  (leBytes 8 x.eImp ++ leBytes 8 x.eRev ++ leBytes 4 v.toNat ++ leBytes 4 i.toNat ++ leBytes 4 p.toNat ++ leBytes 8 x.tSec ++
    leBytes 2 x.checksum ++ leBytes 2 x.status ++ leBytes 8 x.serial ++ leBytes 8 x.module ++ leBytes 32 0 ++ [0, 0, 0, 0] ++
    leBytes 4 (x.q - 1), s)

/-- INTERVAL_SIGN (R422, R425): T_SEC reaches a multiple of 900; the energy measured since is added, the registers are recorded, and an
interval frame is signed and sent. -/
def intervalSign (s : State) (mwhImp mwhRev : Nat) : State :=
  if !s.hasTally then s else
  let s := s.updTally (fun x => { x.measure mwhImp mwhRev s.clock with tSec := (x.tSec / 900 + 1) * 900 })
  let s := s.tallyLog 1 s.tally.regs
  if s.tally.spent then s else
  let s := s.takeIndex
  let (b, s) := s.signedBody
  s.fromTally 2 (b ++ leBytes 3284 (Config.hssSign s.tally.serial (s.tally.q - 1) (leNat b)))

/-! ### Frames that the engine receives (R421, R422, R430, R431) -/

/-- The generation of interface 0x0A that the running MCF speaks. -/
def State.mcfGen (s : State) : Option Nat := (s.running' 2).bind (fun x => (x.ifgen.find? (fun e => e.1 = 0x0A)).map (·.2))

/-- TLY_GEN and GEN_OK follow the Tally's generation (R429, R430). -/
def State.showGen (s : State) : State :=
  let ok : Bool := s.mcfGen = some s.tally.gen
  let was := s.flag .tallyIf tallyIf.GEN_OK
  let first : Bool := s.rd .tallyIf tallyIf.TLY_GEN ≠ s.tally.gen % 256
  let s := (s.wr .tallyIf tallyIf.TLY_GEN s.tally.gen).setFlag .tallyIf tallyIf.GEN_OK ok
  if !ok && (was || first) then s.err .tallyIf 3 else s

/-- The start or end of a V_OUT or OVER_IMAX episode is recorded (R425). -/
def State.episodes (s : State) (old new : Nat) : State :=
  [1, 2].foldl (fun s b => if bit old b = bit new b then s else s.tallyLog (if bit new b then 10 else 11) [b]) s

/-- READING (R421, R430): every 100 ms; the fields are copied where the MCF speaks the Tally's generation. -/
def reading (s : State) (f : TallyFrame) : State :=
  s.goodFrame f (fun s =>
    let w (i n : Nat) : Nat := leNat ((f.payload.drop i).take n)
    let pg := Page.tallyIf
    let old := s.rd pg tallyIf.STATUS
    let st := w 38 2
    let s := (s.updTally (fun x => { x.measure (w 0 8 - x.eImp) (w 8 8 - x.eRev) s.clock with
      eImp := w 0 8, eRev := w 8 8, tSec := w 28 8, sinceReading := s.clock, quality := 2 * (st / 2 % 4) })).episodes old st
    let s := (s.setFlag pg tallyIf.LINK_UP true).showGen
    if !s.flag pg tallyIf.GEN_OK then
      s.clrAll pg [tallyIf.CHECKSUM, tallyIf.E_IMP_LO, tallyIf.E_IMP_HI, tallyIf.E_REV_LO, tallyIf.E_REV_HI, tallyIf.P_LAST, tallyIf.STATUS]
    else
      let s := ((((s.wr64 pg tallyIf.E_IMP_LO tallyIf.E_IMP_HI (w 0 8)).wr64 pg tallyIf.E_REV_LO tallyIf.E_REV_HI (w 8 8)).wr pg
        tallyIf.P_LAST (w 24 4)).wr pg tallyIf.CHECKSUM (w 36 2)).wr pg tallyIf.STATUS st
      let s := if s.tally.eLast = none then s.updTally (fun x => { x with eLast := some (w 0 8) }) else s
      s.errs pg (([(0, 4), (3, 5), (4, 6)].filter (fun e => bit st e.1 && !bit old e.1)).map (·.2)))

/-- SIGNED (R422): the frame is buffered; one for a request ends it at the Tally and has taken an index. -/
def signed (s : State) (f : TallyFrame) : State :=
  s.goodFrame f (fun s =>
    let s := if f.payload.getD 88 0 = 1 then
        (s.takeIndex).updTally (fun x => { x with queued := none })
      else s
    s.bufferFrame 2 f)

/-- LOG (R420, R430). -/
def log (s : State) (f : TallyFrame) : State := s.goodFrame f (fun s => s.bufferFrame 3 f)

/-- CERT (R420, R430). -/
def cert (s : State) (f : TallyFrame) : State := s.goodFrame f (fun s => s.bufferFrame 4 f)

/-- STATUS (R420, R431): BUSY and EXHAUSTED set their bits. -/
def status (s : State) (f : TallyFrame) : State :=
  s.goodFrame f (fun s =>
    let s := s.bufferFrame 5 f
    if f.payload = [1] then s.err .tallyIf 2 else if f.payload = [3] then s.err .tallyIf 7 else s)

/-- TALLY_LINK_TIMEOUT (R429, R430): no READING for 300 ms. -/
def tallyLinkTimeout (s : State) : State :=
  if !s.flag .tallyIf tallyIf.LINK_UP || s.clock < s.tally.sinceReading + 750000000 then s else
  ((s.setFlag .tallyIf tallyIf.LINK_UP false).err .tallyIf 0).updTally (fun x => { x with eLast := none })

/-! ### Requests of the engine (R420, R422, R425, R429) -/

/-- REQ_SIGNED: the Tally queues the nonce, or answers BUSY or EXHAUSTED. -/
def reqSigned (s : State) : State :=
  if !s.tallyLink then s else
  let nonce := (List.range 8).flatMap (fun i => leBytes 4 (s.rd .tallyIf (tallyIf.NONCE i)))
  let s := s.toTally 0x81 nonce
  if s.tally.spent then s.fromTally 5 [3]
  else if s.tally.queued.isSome then s.fromTally 5 [1]
  else s.updTally (fun x => { x with queued := some (leNat nonce) })

/-- REQ_LOG: the record, or NO_RECORD for an index that has been overwritten or has none. -/
def reqLog (s : State) : State :=
  if !s.tallyLink then s else
  let i := s.rd .tallyIf tallyIf.LOG_IDX
  let s := s.toTally 0x82 (leBytes 4 i)
  match s.tally.log.find? (fun r => r.seq = i) with
  | some r => if s.tally.logNext ≤ i + Config.tallyRing then s.fromTally 3 r.bytes else s.fromTally 5 [2]
  | none => s.fromTally 5 [2]

/-- REQ_CERT. -/
def reqCert (s : State) : State :=
  if !s.tallyLink then s else (s.toTally 0x84 []).fromTally 4 (leBytes 3400 (Config.tallyCert s.tally.serial))

/-- PAIR_INFO (R418, R429): the module's serial number; at a power-up the Tally compares it with the last one. -/
def State.pairInfo (s : State) (powerUp : Bool) : State :=
  if !s.tallyLink then s else
  let n := s.fuses.serial
  let s := s.toTally 0x83 (leBytes 8 n)
  if !powerUp then s.updTally (fun x => { x with module := n }) else
  let s := s.tallyLog 2 s.tally.regs
  if s.tally.module = n then s.updTally (fun x => { x with unpaired := false })
  else (s.updTally (fun x => { x with module := n, unpaired := true })).tallyLog 8 [n]

/-! ### Power, seal and firmware of the Tally (R417, R422, R426, R427) -/

/-- TALLY_HOLDUP_SAVE (R417): P48 has fallen below 20 V; the registers go to the journal, and the rest of the tree is abandoned. -/
def tallyHoldupSave (s : State) : State :=
  if !s.hasTally then s else
  (s.tallyLog 3 s.tally.regs).updTally (fun x => { x with treeLeft := 0, queued := none })

/-- SEAL_OPEN (R427). -/
def sealOpen (s : State) : State :=
  if !s.hasTally || s.tally.sealOpen then s else (s.updTally (fun x => { x with sealOpen := true })).tallyLog 4 []

/-- SEAL_CLOSED (R427). -/
def sealClosed (s : State) : State :=
  if !s.hasTally || !s.tally.sealOpen then s else (s.updTally (fun x => { x with sealOpen := false })).tallyLog 5 []

/-- One bit of CRC-16/CCITT-FALSE: polynomial 0x1021, most significant bit first. -/
def crc16Bit (c : Nat) : Nat := Nat.xor (2 * c % 65536) (if bit c 15 then 0x1021 else 0)

/-- One byte of CRC-16/CCITT-FALSE. -/
def crc16Byte (c : Nat) (b : Byte) : Nat := (List.range 8).foldl (fun c _ => crc16Bit c) (Nat.xor c (256 * b.toNat))

/-- CRC-16/CCITT-FALSE: the checksum of a TLY payload (R426). -/
def crc16 (l : List Byte) : Nat := l.foldl crc16Byte 0xFFFF

/-- The Tally accepts a TLY object (R426): the rules of R388 against the metrology keys in its seal, and its own SVN floor. -/
def Tally.accepts (x : Tally) (o : SignedObj) : Bool :=
  o.magic = 0x4F53584B && o.type = 5 && o.key < 4 && Config.sha256 o.pub 56 = x.metro.getD o.key 0 &&
    Config.lmsVerify o.signed o.pub o.sig && decide (x.svnFloor ≤ o.svn)

/-- FW_CHANGE (R427): a TLY object at the service port, which works only while the cover is open; a refused one is recorded.  The registers keep their
values. -/
def fwChange (s : State) (bytes : List Byte) : State :=
  if !s.hasTally || !s.tally.sealOpen then s else
  let o := signedObjOf bytes
  let x := s.tally
  if !x.accepts o then s.tallyLog 7 [] else
  let sum := crc16 o.payload
  (s.tallyLog 6 [x.checksum, x.version, sum, o.version]).updTally (fun x => { x with
    checksum := sum, version := o.version, gen := ((o.ifgen.find? (fun e => e.1 = 0x0A)).map (·.2)).getD x.gen })

/-! ### Shares (R428) -/

/-- The energy of the last second in mWh and its source: E_IMP differences, or PIN. -/
def State.inputEnergy (s : State) (pinMwh : Nat) : Nat × Bool :=
  match s.tally.eLast with
  | some e => if s.hasTally && s.flag .tallyIf tallyIf.LINK_UP && s.flag .tallyIf tallyIf.GEN_OK then
      ((s.rd64 .tallyIf tallyIf.E_IMP_LO tallyIf.E_IMP_HI + 2 ^ 64 - e) % 2 ^ 64, false) else (pinMwh, true)
  | none => (pinMwh, true)

/-- SHARE_UPDATE (R428): every second; T_p + (E − T) T_p / T is E T_p / T, rounded as a free value says.  `pinMwh` is the integral of PIN. -/
def shareUpdate (s : State) (pinMwh : Nat) : State :=
  if s.sps.state ≠ .good then s else
  let (e, src) := s.inputEnergy pinMwh
  let total := ((List.range 12).map (fun p => (s.part p).tileE)).sum
  let s := s.setFlag .tallyIf tallyIf.SHARE_SRC src
  let s := if src then s else s.updTally (fun x => { x with eLast := some (s.rd64 .tallyIf tallyIf.E_IMP_LO tallyIf.E_IMP_HI) })
  (List.range 12).foldl (fun s p =>
    let (v, s) := s.freeQuot (e * (s.part p).tileE) total
    let v := if total = 0 then 0 else v
    s.updPart p (fun x => { x with shareE := (x.shareE + v) % 2 ^ 64, tileE := 0 })) s

/-- INTERVAL_SIGN. -/
def execIntervalSign (mwhImp mwhRev : Nat) (s : State) : Out := .next (intervalSign s mwhImp mwhRev)
/-- READING. -/
def execReading (f : TallyFrame) (s : State) : Out := .next (reading s f)
/-- SIGNED. -/
def execSigned (f : TallyFrame) (s : State) : Out := .next (signed s f)
/-- LOG. -/
def execLog (f : TallyFrame) (s : State) : Out := .next (log s f)
/-- CERT. -/
def execCert (f : TallyFrame) (s : State) : Out := .next (cert s f)
/-- STATUS. -/
def execStatus (f : TallyFrame) (s : State) : Out := .next (status s f)
/-- TALLY_LINK_TIMEOUT. -/
def execTallyLinkTimeout (s : State) : Out := .next (tallyLinkTimeout s)
/-- REQ_SIGNED. -/
def execReqSigned (s : State) : Out := .next (reqSigned s)
/-- REQ_LOG. -/
def execReqLog (s : State) : Out := .next (reqLog s)
/-- REQ_CERT. -/
def execReqCert (s : State) : Out := .next (reqCert s)
/-- TALLY_HOLDUP_SAVE. -/
def execTallyHoldupSave (s : State) : Out := .next (tallyHoldupSave s)
/-- SEAL_OPEN. -/
def execSealOpen (s : State) : Out := .next (sealOpen s)
/-- SEAL_CLOSED. -/
def execSealClosed (s : State) : Out := .next (sealClosed s)
/-- FW_CHANGE. -/
def execFwChange (bytes : List Byte) (s : State) : Out := .next (fwChange s bytes)
/-- SHARE_UPDATE. -/
def execShareUpdate (pinMwh : Nat) (s : State) : Out := .next (shareUpdate s pinMwh)
/-- HEARTBEAT_TIMEOUT: the survivor of a takeover sends PAIR_INFO (R429). -/
def execHeartbeatTimeout (c : Nat) (s : State) : Out :=
  let t := heartbeatTimeout s c
  .next (if t.sps.fenced = s.sps.fenced then t else t.pairInfo false)

end Sys2Proof.Machine
end

