-- ==== Sys2Proof/Machine/Bringup.lean ====
section
/-! DEFINITION. Bring-up: the state that the NOR holds, the boot chain, the fault map, base-die tests and training, the default programs of
the rail monitors, and the ports (R354, R389 to R397, R412, R418, R433 to R439). -/

namespace Sys2Proof.Machine

/-! ### What the NOR holds (R412) -/

/-- The state of a slot as the durable records give it; a slot that none names is as it left the factory (log 2). -/
def Nor.slotState (n : Nor) (kind i : Nat) : SlotSt :=
  n.bodies.foldl (fun st b => match b with
    | .slot k j x => if k = kind ∧ j = i then x else st
    | _ => st) (if i = 0 ∧ [1, 2, 3, 4, 8].contains kind then .active else .empty)

/-- Boot count, power-on hours and trips of the counters cairn. -/
def Nor.counters (n : Nor) : Nat × Nat × Nat :=
  n.bodies.foldl (fun a b => match b with
    | .counters x y z => (x, y, z)
    | _ => a) (0, 0, 0)

/-- The slot states, spares, calibrations and thermal baselines that the journal holds (R412).  A calibration is loaded where its REF_SEL is the
one after reset. -/
def State.replayNor (s : State) : State :=
  let s := s.updNor (fun n => { n with slots := [1, 2, 3, 4, 8].foldl (fun t k => [0, 1].foldl (fun t i =>
    Table.upd {} t (2 * k + i) (fun x => { x with st := n.slotState k i })) t) n.slots })
  let s := (List.range 72).foldl (fun s t => (s.wr (.therm t) therm.THETA_BASE (s.fuses.theta.getD t 200))) s
  let s := s.nor.bodies.foldl (fun s b => match b with
    | .spare y i => (s.wr (cragPage y) crag.STAND_FOR i).setFlag (cragPage y) crag.UNPROT (i ≠ 15)
    | .theta t v => s.wr (.therm t) therm.THETA_BASE v
    | .cal id ref oa ob ga gb =>
      match rmbAll.find? (fun pg => pg.id = id) with
      | some pg => if ref ≠ 0 then s else
        (((s.wr pg rmb.OFFS_A oa).wr pg rmb.OFFS_B ob).wr pg rmb.GAIN_A ga).wr pg rmb.GAIN_B gb
      | none => s
    | _ => s) s
  let s := (List.range 72).foldl (fun s t => s.wr (.therm t) therm.THETA_EST (s.rd (.therm t) therm.THETA_BASE)) s
  if s.nor.torn then (s.updNor (fun n => { n with torn := false })).err .journal 1 else s

/-! ### The boot chain (R388 to R395) -/

/-- The control tiles that are up. -/
def State.ctlsUp (s : State) : List Nat := [0, 1].filter (fun c => (s.ctl c).up)

/-- A slot's object, whose signature held when it was staged, passes R388: its key is not revoked and its SVN is at least the minimum. -/
def State.slotOk (s : State) (kind i : Nat) : Bool :=
  let x := s.fwSlot kind i
  !bit s.fuses.revoked x.key && s.svnOk kind x.svn

/-- A TRIAL slot that fails R388 becomes FAILED (R394); the failing condition sets its bit. -/
def State.checkTrial (s : State) (kind : Nat) : State :=
  match s.slotIn kind .trial with
  | none => s
  | some i =>
    if s.slotOk kind i then s else
    let s := s.setSlot kind i (fun x => { x with st := .failed })
    let s := (s.ssbErr 0).ssbErr 5
    if s.svnOk kind (s.fwSlot kind i).svn then s else s.ssbErr 4

/-- The running firmware passes R393, by the manifest or by an override. -/
def State.bootOk (s : State) : Bool × Bool :=
  let whole : Bool := [1, 2, 3, 4].all (fun k => match s.slotIn k .active with
    | some i => s.slotOk k i
    | none => false)
  let listed : Bool := match s.manifest with
    | some m => inManifest m.payload s.versions && !s.ifgenClash
    | none => false
  (whole && (listed || s.overrideOk), whole && !listed && s.overrideOk)

/-- The TRIAL slots as they are after a boot that passes, or after one that fails R393 (R394). -/
def State.settleTrials (s : State) (pass : Bool) : State :=
  [1, 2, 3, 4, 8].foldl (fun s k => match s.slotIn k .trial with
    | some i => if pass then s.trialGood k i else (s.setSlot k i (fun x => { x with st := .failed })).ssbErr 5
    | none => s) s

/-- Steps 2 to 6 of R390: the slots of every kind, the compatibility check, and BOOT_STATE of the SSBs. -/
def State.bootChain (s : State) : State :=
  let s := [1, 2, 3, 4, 8].foldl State.checkTrial s
  let hasTrial : Bool := [1, 2, 3, 4, 8].any (fun k => (s.slotIn k .trial).isSome)
  let tried := s.settleTrials true
  let s := if hasTrial then (if tried.bootOk.1 then tried else s.settleTrials false) else s
  let ssbFw : Bool := match s.slotIn 1 .active with
    | some i => s.slotOk 1 i
    | none => false
  let ok := s.bootOk
  let s := if ssbFw then s else s.ssbErr 0
  let st := if !ssbFw then 3 else if ok.1 then 1 else 2
  s.ctlsUp.foldl (fun s c =>
    let pg := Page.ssb c
    let s := ((s.wr pg ssb.BOOT_STATE st).setFlag pg ssb.OVERRIDE ok.2).wr pg ssb.KEY_REVOKED s.fuses.revoked
    let s := s.wr pg ssb.KEY_IN_USE (((s.running' 1).map (·.key)).getD 0)
    let s := s.wr (.smc c) smc.MCF_VERSION (if st = 3 then 0 else ((s.running' 2).map (·.version)).getD 0)
    if st = 2 then s.err pg 1 else s) s

/-- The boot count, and a key pair of this boot for each SSB (R391, R400). -/
def State.countBoot (s : State) : State :=
  let (b, h, t) := s.nor.counters
  let last : Bool := match s.nor.bodies.getLast? with
    | some (.pwrfail c) => c = 2 ∨ c = 3
    | _ => false
  let s := s.journal (s.norHolder.getD 0) (.counters (b + 1) (h + s.ms / 3600000) (if last then t + 1 else t))
  s.ctlsUp.foldl (fun s c => ((s.updSsb c (fun x => { x with boots := s.fresh })).wr (.ssb c) ssb.BOOT_CNT (b + 1)).free.2) s

/-- The last LMS record that names block `b`, of the journal and of this boot. -/
def State.lastLms (s : State) (b : Nat) : Option Cairn :=
  ((s.nor.bodies ++ (s.nor.waiting ++ s.nor.writing.toList).map (·.body)).filter (fun x => match x with
    | .lmsRes k _ _ => k = b
    | .lmsRel k _ _ => k = b
    | _ => false)).getLast?

/-- Each SSB resumes a block that it released with leaves left, or reserves a fresh one (R397). -/
def State.bootLms (s : State) : State :=
  s.ctlsUp.foldl (fun s c =>
    let back := s.lmsReserved.filterMap (fun b => match s.lastLms b with
      | some (.lmsRel _ l k) => if k = c ∧ l < 1023 then some (b, l + 1) else none
      | _ => none)
    match back.getLast? with
    | some (b, l) => (s.updSsb c (fun x => { x with leaf := l })).reserveBlock c b l
    | none => s.reserveBlock c s.freshBlock 0) s

/-! ### The fault map and the tests (R5, R68 to R70, R435 to R437) -/

/-- ARRAY_EN and ARRAY_NARROW of an array from its defect count and policy (R69). -/
def State.applyPolicy (s : State) (g a : Nat) : State :=
  let pg := Page.core g
  let n := s.rd pg (core.DEFECT_CNT a)
  let two : Bool := n = 2 && !bit (s.rd pg core.ARRAY_DEFECT_POLICY) a
  let set (v : Nat) (b : Bool) : Nat := if bit v a = b then v else if b then v + 2 ^ a else v - 2 ^ a
  (s.wr pg core.ARRAY_EN (set (s.rd pg core.ARRAY_EN) (n < 2 || two))).wr pg core.ARRAY_NARROW (set (s.rd pg core.ARRAY_NARROW) two)

/-- The defective columns of an array (R68, R69).  SPARE_FOR shows the first of one or two, and so 32 where the one defective column is the
spare itself (log 69). -/
def State.setDefects (s : State) (e : Nat × Nat × List Nat) : State :=
  let (g, a, l) := e
  let l := sortBy (fun x y => decide (x < y)) (addSet [] l)
  let pg := Page.core g
  let s := s.wr pg (core.DEFECT_CNT a) l.length
  let s := s.wr pg (core.SPARE_FOR a) (if l.length = 1 ∨ l.length = 2 then l.headD 63 else 63)
  (s.wr pg (core.SECOND_DEFECT a) (l.getD 1 63)).applyPolicy g a

/-- The defect map: that of the fuses and that of the fault map, as (core, array, column) (R70). -/
def State.defectMap (s : State) : List (Nat × Nat × Nat) :=
  s.fuses.columns ++ s.faultMap.filterMap (fun e =>
    let i := e.1 - 8 * 2 ^ 20
    if 8 * 2 ^ 20 ≤ e.1 ∧ e.1 < 11 * 2 ^ 20 ∧ e.2 ≠ 0 then some (i / 132, i / 33 % 4, i % 33) else none)

/-- The defect map takes effect on every array that it names (R70). -/
def State.loadDefects (s : State) : State :=
  (addSet [] (s.defectMap.map (fun e => e.1 * 4 + e.2.1))).foldl (fun s i =>
    s.setDefects (i / 4, i % 4, (s.defectMap.filter (fun e => e.1 * 4 + e.2.1 = i)).map (·.2.2))) s

/-- A bring-up finding: its record with PATH 12 and its map entry; one that the map holds already is no finding. -/
def State.finding (s : State) (cls loc unit : Nat) (ent : Nat × Nat × Nat) : State :=
  if s.mapped ent.1 ent.2.1 ≠ 0 then s else
  let s := s.record { cls := cls, path := 12, outcome := 2, loc := loc, unit := unit } [ent] []
  let s := if ent.1 = 1 then s.showDead ent.2.1 else s
  s.ctlsUp.foldl (fun s c => s.inc (.smc c) smc.BRINGUP_FAULTS 1) s

/-- The base-die tests and the training (R436, R437). -/
def State.tests (s : State) (d : BringupData) : State :=
  let s := d.rows.foldl (fun s e =>
    let s := s.ctlsUp.foldl (fun s c => s.inc (.smc c) smc.SLAB_REPAIRS (min e.2 128)) s
    if e.2 ≤ 128 then s else s.finding (deadClass e.1) (tileOf e.1) (e.1 % 256) (1, e.1, 1)) s
  let s := d.tiles.foldl (fun s t => s.finding 9 t 0 (5, t, 1)) s
  let s := d.chans.foldl (fun s (t, e, ch) => s.finding 2 t ch (2, saddleKey t e * 8 + ch, 1)) s
  let s := d.mchans.foldl (fun s (m, ch) => s.finding 3 m ch (3, m * 32 + ch, 1)) s
  s.loadDefects

/-- What the fault map says of a core takes effect. -/
def State.mapCore (s : State) (g : Nat) : State :=
  if s.mapped 1 g = 0 then s else
  let pg := cragPage (cragOf g)
  let s := s.updCore g (fun c => { c with alive := false, gated := true, faulty := true })
  if cragLocal g = 15 then s.setFlag pg crag.PARITY_DEAD true
  else if cragLocal g = 11 then (s.setFlag pg crag.SPARE_DEAD true).setFlag pg crag.UNPROT true
  else s

/-- A saddle after training: FENCED, its locked channels, the spare in place of one failed channel, DOWN for a second. -/
def State.mapSaddle (s : State) (t e : Nat) : State :=
  match neighbour t e with
  | none => s
  | some u =>
    let k := saddleKey t e
    let bad := (List.range 7).filter (fun ch => s.mapped 2 (k * 8 + ch) ≠ 0)
    let mask := bad.foldl (fun v ch => v + 2 ^ ch) 0
    let s := s.updSaddle k (fun x => { x with failed := bad })
    [(t, e), (u, (e + 2) % 4)].foldl (fun s (t, e) =>
      let pg := Page.saddle t e
      let s := ((s.setFlag pg saddle.FENCED true).wr pg saddle.CH_LOCK (127 - mask)).wr pg saddle.CH_FAIL mask
      match bad with
      | [] => s
      | [ch] => if ch = 6 then s else s.wr pg saddle.SPARE_FOR ch
      | _ => (s.setFlag pg saddle.DOWN true).err pg 3) s

/-- A site after training: its memory saddle's channels, and the failed ones as R193 has them. -/
def State.mapSite (s : State) (m : Nat) : State :=
  let pg := Page.saddle (siteTile m) 4
  if s.mapped 6 m ≠ 0 then s.updSite m (fun x => { x with up := false }) else
  let bad := (List.range 32).filter (fun ch => s.mapped 3 (m * 32 + ch) ≠ 0)
  let s := s.wr pg saddle.MCH_LOCK (0xFFFFFFFF - bad.foldl (fun v ch => v + 2 ^ ch) 0)
  let s := bad.foldl (fun s ch => s.updChan m ch (fun c => { c with failNext := true })) s
  let s := s.failChannels m
  if (s.site m).up then (s.setFlag (.msite m) page.EN true).wr (.msite m) page.STATE 2 else s

/-- The fault map takes effect on every block. -/
def State.applyMap (s : State) : State :=
  let cores := s.faultMap.filterMap (fun e => if e.1 / 2 ^ 20 = 1 then some (e.1 % 2 ^ 20) else none)
  let s := cores.foldl State.mapCore s
  let s := (List.range 72).foldl (fun s t => (s.mapSaddle t 1).mapSaddle t 2) s
  (List.range 16).foldl State.mapSite s

/-! ### Rail monitors (R354) -/

/-- One entry of the default program: IN_A, IN_B, LAST, LOOP. -/
def rmbEntries : List (Nat × Nat × Bool × Bool) :=
  [(0, 7, true, true), (10, 11, false, false), (12, 13, false, false), (5, 9, true, false), (0, 1, false, false), (2, 3, true, false),
   (4, 14, true, false), (0, 7, false, false), (6, 8, true, false)]

/-- The default program of R354, without the PWR flag and the step-error action where the block is no tile. -/
def State.defaultProgram (s : State) (pg : Page) (tile : Bool) : State :=
  let v := match pg with
    | .rmbTile t => s.fuses.vnom.getD t 750
    | _ => s.fuses.coreNom
  let s := (List.range rmbEntries.length).foldl (fun s i =>
    let (a, b, last, loop) := rmbEntries.getD i (0, 0, false, false)
    let s := ((s.wr pg (rmb.IN_A i) a).wr pg (rmb.IN_B i) b).setFlag pg (rmb.B_EN i) true
    let s := (s.setFlag pg (rmb.LAST i) last).setFlag pg (rmb.LOOP i) loop
    s.setFlag pg (rmb.PWR i) (tile && i = 0)) s
  let s := [(7, 0, false, true), (5, 1, false, true), (0, 4, true, true), (6, 6, false, true), (4, 7, true, false)].foldl (fun s e =>
    let (src, first, urgent, on) := e
    ((s.wr pg (rmb.START_ENTRY src) first).setFlag pg (rmb.URGENT src) urgent).setFlag pg (rmb.SRC_EN src) on) s
  let s := (s.wr pg rmb.TIMER0_PER 20000).wr pg rmb.TIMER1_PER 2000
  let s := (s.wr pg (rmb.LO 0) ((v * 95 * 4096 + 50000) / 100000)).wr pg (rmb.HI 0) ((v * 105 * 4096 + 50000) / 100000)
  let s := ((s.wr pg (rmb.CONV 0) 1).setFlag pg (rmb.ACT_FLAG 0) true).setFlag pg (rmb.ACT_STEPERR 0) tile
  let s := ((s.setFlag pg page.EN true).wr pg page.STATE 2)
  ((s.armTimer pg 0).armTimer pg 1).startSrc pg 7

/-! ### Ports (R438) -/

/-- The port configuration record is valid. -/
def portRecOk (l : List Byte) : Bool :=
  let w (i n : Nat) : Nat := leNat ((l.drop i).take n)
  l.length = 80 && l.take 4 = [0x4B, 0x58, 0x50, 0x43] && w 4 2 = 1 && w 6 2 = 0 && w 72 4 = crc32 (l.take 72) && w 76 4 = 0 &&
    (List.range 8).all (fun n => let b := w (8 + 8 * n) 1
      bits b 3 1 = 0 && bits b 6 2 = 0 && 2 ≤ bits b 4 2 && w (9 + 8 * n) 1 = 0 && w (10 + 8 * n) 2 < 4096 && w (12 + 8 * n) 4 = 0) &&
    [0, 1].all (fun c => (List.range 8).countP (fun n => bits (w (8 + 8 * n) 1) 2 1 = c && bit (w (8 + 8 * n) 1) 0) ≤ 4)

/-- PORT_CONFIG_APPLY (R438): the fields of every port from the record or the defaults, and LOCK. -/
def State.configPorts (s : State) : State :=
  let l : List Byte := match s.nor.portRec with
    | some l => if portRecOk l then l else []
    | none => []
  (List.range 8).foldl (fun s n =>
    if !(s.ctl (n / 4)).up then s else
    let pg := Page.vlport n
    let w (i k : Nat) : Nat := leNat ((l.drop (8 + 8 * n + i)).take k)
    let b := w 0 1
    let s := if l ≠ [] then
        ((((s.wr pg vlport.PORT_EN b).wr pg vlport.MGMT (b / 2)).wr pg vlport.PORT_COMP (b / 4)).wr pg vlport.GEN_MAX (b / 16)).wr pg
          vlport.PORT_PARTS (w 2 2)
      else if [0, 1, 4, 5].contains n then
        (((s.setFlag pg vlport.PORT_EN true).wr pg vlport.GEN_MAX 3).setFlag pg vlport.MGMT true).wr pg vlport.PORT_PARTS 0xFFF
      else s
    s.setFlag pg page.LOCK true) s

/-! ### The whole (R433, R434, R439, R446) -/

/-- The counts of what is down, and BRINGUP, on the SMCs. -/
def State.reportReady (s : State) (ms : Nat) : State :=
  let tiles := (List.range 72).countP (fun t => s.mapped 5 t ≠ 0)
  let sads := (List.range 72).foldl (fun n t => n + [1, 2].countP (fun e => s.flag (.saddle t e) saddle.DOWN)) 0
  let sites := (List.range 16).foldl (fun v m => v + 2 ^ m * b2n (s.mapped 6 m ≠ 0)) 0
  s.ctlsUp.foldl (fun s c =>
    let pg := Page.smc c
    let s := (((s.wr pg smc.TILES_DOWN tiles).wr pg smc.SADDLES_DOWN sads).wr pg smc.SITES_DOWN sites).wr pg smc.READY_MS ms
    let s := if s.sps.resetReq then s.raiseFlag pg smc.MODRST else s
    (s.wr pg smc.BRINGUP (if s.rd (.ssb c) ssb.BOOT_STATE = 1 then 4 else 5)).updCtl c (fun x => { x with hbSeen := s.clock })) s

/-- BRINGUP (R433): after POWER_GOOD, once.  A module whose SSB firmware fails stays in the ROM (R390). -/
def bringup (s : State) (d : BringupData) : State :=
  if !s.flag .sps sps.POWER_GOOD || [0, 1].any (fun c => s.rd (.ssb c) ssb.BOOT_STATE ≠ 0) || s.ctlsUp = [] then s else
  let s := s.setFlag (.smc (s.ctlsUp.headD 0)) smc.NOR_GRANT true
  let s := s.replayNor.bootChain
  if s.ctlsUp.all (fun c => s.rd (.ssb c) ssb.BOOT_STATE = 3) then s else
  let s := s.countBoot.bootLms
  let s := (s.tests d).applyMap
  let s := (List.range 72).foldl (fun s t => if (s.tile t).up then s.defaultProgram (.rmbTile t) true else s) s
  let s := (List.range 16).foldl (fun s m => if (s.site m).up then s.defaultProgram (.rmbSite m) false else s) s
  let s := s.ctlsUp.foldl (fun s c => s.defaultProgram (.rmbCtl c) false) s
  let s := s.configPorts
  let s := (List.range 12).foldl (fun s p => s.setFlag (.tickgen p) tickgen.MIRROR_ACT (!(s.ctl (if p < 6 then 0 else 1)).up)) s
  let s := (s.setFlag .tallyIf tallyIf.PRESENT s.hasTally).pairInfo true
  s.reportReady d.ms

/-- BRINGUP. -/
def execBringup (d : BringupData) (s : State) : Out := .next (bringup s d)

end Sys2Proof.Machine
end

