-- ==== Sys2Proof/Machine/View.lean ====
section
/-! DEFINITION. What a read of a register shows: the page directory, the fields that show other state, and the words of a page
(R448, R451, R452, R456 to R461). -/

namespace Sys2Proof.Machine

/-! ### The page directory (R456 to R459) -/

/-- A page of a tile's window (R457); a SADDLE page of an edge without a saddle is absent. -/
def tilePage (t o : Nat) : Option Page :=
  if o = 0 then some (.tileGlb t) else if o = 1 then some (.mesh t)
  else if o < 6 then (neighbour t (o - 2)).map (fun _ => .saddle t (o - 2))
  else if o = 6 then (tileSite t).map (fun _ => .saddle t 4)
  else if o = 7 then none
  else if o < 0x18 then some (.crag t (o - 8))
  else if o = 0x18 then some (.coreWin t) else if o = 0x19 then some (.rmbTile t)
  else if o = 0x1A then some (.therm t) else if o = 0x1B then some (.slab t) else none

/-- A page of a site's window (R456). -/
def sitePage (m o : Nat) : Option Page :=
  if o = 0 then some (.msite m) else if o = 1 then some (.xts m)
  else if o < 34 then some (.mchan m (o - 2)) else if o = 34 then some (.rmbSite m) else none

/-- A page of a control tile's window (R458). -/
def ctlPage (c o : Nat) : Option Page :=
  let k := o % 16
  match o / 16 with
  | 0 => if k < 12 then some (.tickgen k) else none
  | 1 => if k < 12 then some (.packer k) else none
  | 2 => if k < 12 then some (.adm k) else none
  | 3 => if k < 12 then some (.spur k) else none
  | 4 => if k < 12 then some (.cohc k) else none
  | 5 => if k < 4 then some (.vlport (4 * c + k)) else none
  | 6 => if k = 0 then some (.reqtab c) else if k = 1 then some (.rmbCtl c) else none
  | _ => none

/-- The page with a page number, and the control tile in whose window it is reached, if it lies in one. -/
def pageOf (n : Nat) : Option (Page × Option Nat) :=
  let out (p : Option Page) (c : Option Nat) : Option (Page × Option Nat) := p.map (fun p => (p, c))
  if n = 0 then some (.modul, none)
  else if 0x1000 ≤ n ∧ n < 0x2200 then out (tilePage ((n - 0x1000) / 64) (n % 64)) none
  else if 0x2400 ≤ n ∧ n < 0x2800 then out (sitePage ((n - 0x2400) / 64) (n % 64)) none
  else if 0x3000 ≤ n ∧ n < 0x3200 then out (ctlPage 0 (n - 0x3000)) (some 0)
  else if 0x3200 ≤ n ∧ n < 0x3400 then out (ctlPage 1 (n - 0x3200)) (some 1)
  else if n = 0x3800 then some (.smc 0, some 0) else if n = 0x3801 then some (.smc 1, some 1)
  else if n = 0x3802 then some (.ssb 0, some 0) else if n = 0x3803 then some (.ssb 1, some 1)
  else if n = 0x3804 then some (.sps, none) else if n = 0x3805 then some (.journal, none)
  else if 0x3E00 ≤ n ∧ n < 0x3E0C then some (.doorbell (n - 0x3E00), none)
  else if n = 0x3F00 then some (.tallyIf, none) else none

/-- The partition of a per-partition page (R57). -/
def Page.ofPart : Page → Option Nat
  | .tickgen p | .packer p | .adm p | .spur p | .cohc p => some p
  | _ => none

/-- The block of a page is fitted and powered (R459). -/
def State.present (s : State) (pg : Page) : Bool :=
  s.flag .sps sps.POWER_GOOD && match pg with
  | .tileGlb t | .mesh t | .saddle t _ | .crag t _ | .coreWin t | .rmbTile t | .therm t | .slab t => (s.tile t).up
  | .core g => (s.tile (tileOf g)).up
  | .msite m | .xts m | .mchan m _ | .rmbSite m => (s.site m).up || s.mapped 6 m = 0
  | .vlport n => (s.ctl (n / 4)).up
  | .reqtab c | .rmbCtl c | .smc c | .ssb c => (s.ctl c).up
  | .tickgen p | .packer p | .adm p | .spur p | .cohc p | .doorbell p => (s.ctl (s.primary p)).up
  | _ => true

/-! ### What the fields of a page show -/

/-- The pages of a tile, as its summary bit takes them (R461). -/
def tilePages (t : Nat) : List Page := (List.range 28).filterMap (tilePage t)
/-- The pages of a site. -/
def sitePages (m : Nat) : List Page := (List.range 35).filterMap (sitePage m)
/-- The pages of a control tile's window. -/
def ctlPages (c : Nat) : List Page := (List.range 112).filterMap (ctlPage c)
/-- The pages shared by both. -/
def sharedPages : List Page := [.smc 0, .smc 1, .ssb 0, .ssb 1, .sps, .journal, .tallyIf]

/-- A page of the list raises its summary. -/
def State.anySummary (s : State) (l : List Page) : Bool := l.any (fun pg => s.present pg && s.summary pg)

/-- The summary bits of `n` tiles from `t` on. -/
def State.tileBits (s : State) (t n : Nat) : Nat :=
  (List.range n).foldl (fun v i => v + 2 ^ i * b2n (s.anySummary (tilePages (t + i)))) 0

/-- MODULE (R461): fuses and summaries. -/
def State.viewModul (s : State) (f : Field) : Nat :=
  if f = modul.SERIAL_LO then s.fuses.serial % 2 ^ 32
  else if f = modul.SERIAL_HI then s.fuses.serial / 2 ^ 32 % 2 ^ 32
  else if f = modul.GRADE then s.fuses.grade
  else if f = modul.SUFFIX_T then b2n s.fuses.suffixT
  else if f = modul.TILE_ERR0 then s.tileBits 0 32
  else if f = modul.TILE_ERR1 then s.tileBits 32 32
  else if f = modul.TILE_ERR2 then s.tileBits 64 8
  else if f = modul.SITE_ERR then (List.range 16).foldl (fun v m => v + 2 ^ m * b2n (s.anySummary (sitePages m))) 0
  else if f = modul.CTLN_ERR then b2n (s.anySummary (ctlPages 0))
  else if f = modul.CTLS_ERR then b2n (s.anySummary (ctlPages 1))
  else b2n (s.anySummary sharedPages)

/-- TILE_GLB (R463). -/
def State.viewTile (s : State) (t : Nat) (f : Field) : Nat :=
  if f = tileGlb.TILE_IDX then t
  else if f = tileGlb.TILE_KIND then (if s.mapped 5 t ≠ 0 then 2 else b2n (s.fuses.routing.contains t))
  else if f = tileGlb.VNOM then s.fuses.vnom.getD t 750
  else s.rd (.tileGlb t) f

/-- MESH (R179, R233): the selected router's tables. -/
def State.viewMesh (s : State) (t : Nat) (f : Field) : Nat :=
  let pg := Page.mesh t
  let r := s.router (t * 256 + s.rd pg mesh.TBL_RTR)
  let other := s.flag pg mesh.TBL_BANK
  let slots := if other then r.slotsB else r.slots
  let i := s.rd pg mesh.TBL_IDX
  let e := if s.flag pg mesh.TBL_KIND then Table.get 0 (if other then r.routesB else r.routes) i else slots.getD i 0 % 2 ^ 32
  if f = mesh.TBL_DATA0 then bits e 0 32
  else if f = mesh.TBL_DATA1 then bits e 32 32
  else if f = mesh.TBL_DATA2 then bits e 64 32
  else if f = mesh.SLOT_USED then slots.length
  else s.rd pg f

/-- CRAG (R316). -/
def State.viewCrag (s : State) (t g : Nat) (f : Field) : Nat :=
  let y := t * 16 + g
  if f = crag.ALIVE then (List.range 16).foldl (fun v i => v + 2 ^ i * b2n (s.core (cragCore y i)).alive) 0
  else if f = crag.DEAD then (List.range 16).foldl (fun v i => v + 2 ^ i * b2n (s.mapped 1 (cragCore y i) ≠ 0)) 0
  else s.rd (.crag t g) f

/-- The number of a window's state (R149). -/
def WinState.num : WinState → Nat
  | .idle => 0 | .opened => 1 | .closed => 2 | .sealed => 3

/-- The core window (R79, R149, R234): the selected window and semaphore as they stand. -/
def State.viewCore (s : State) (g : Nat) (f : Field) : Nat :=
  let pg := Page.core g
  let c := s.core g
  let w : Window := Table.get {} c.wins (s.rd pg core.WIN_SEL)
  if f = core.ROLE then s.roleOf g
  else if f = core.WIN_BASE then w.base
  else if f = core.WIN_LEN then w.len
  else if f = core.WIN_STAMP then w.stamp
  else if f = core.WIN_STATE then w.state.num
  else if f = core.EARLY_FILL then w.early.length
  else if f = core.WIN_EXPECT then w.expect
  else if f = core.WIN_COUNT then w.count
  else if f = core.SEM_VAL then Table.get 0 c.sems (s.rd pg core.SEM_SEL)
  else if f = core.SEM_PEND then Table.get 0 c.semPend (s.rd pg core.SEM_SEL)
  else s.rd pg f

/-- The core that a tile's SLAB page selects. -/
def State.dirtyCore (s : State) (t : Nat) : Nat := t * 256 + s.rd (.slab t) slab.DIRTY_CORE

/-- SLAB (R235): the selected core's dirty map. -/
def State.viewSlab (s : State) (t : Nat) (f : Field) : Nat :=
  let c := s.core (s.dirtyCore t)
  let k := s.rd (.slab t) slab.DIRTY_IDX
  if f = slab.DIRTY_ARM then b2n c.armed
  else if f = slab.DIRTY_DATA then (c.dirty.filter (fun b => b / 32 = k)).foldl (fun v b => v + 2 ^ (b % 32)) 0
  else if f = slab.DIRTY_SUM then c.dirty.length
  else if f = slab.CLEAR_BUSY then b2n (s.flag (.slab t) f || ((s.tilePart t).any (fun p => decide (s.clock < (s.part p).clearUntil))))
  else s.rd (.slab t) f

/-- MSITE (R203, R289): the selected region entry and delta directory entry. -/
def State.viewSite (s : State) (m : Nat) (f : Field) : Nat :=
  let pg := Page.msite m
  let r := (s.region m (s.rd pg msite.REG_SEL)).word
  let d : DeltaDir := Table.get {} (s.site m).deltas (s.rd pg msite.DDIR_SEL)
  if f = msite.DDIR_REGION then d.region
  else if f = msite.DDIR_BASE then d.base
  else if f = msite.DDIR_VALID then b2n d.valid
  else match (List.range 4).find? (fun i => f = msite.REG_DATA i) with
    | some i => bits r (32 * i) 32
    | none => s.rd pg f

/-- A hold-table entry as R46 lays it out. -/
def Hold.word (h : Hold) : Nat :=
  h.region + h.lane * 2 ^ 9 + h.slot * 2 ^ 17 + h.entry % 256 * 2 ^ 19 + h.holds * 2 ^ 27 + h.budget * 2 ^ 34 + h.booked * 2 ^ 41 +
    h.bucket * 2 ^ 46 + b2n h.elastic * 2 ^ 49 + h.kind * 2 ^ 50 + b2n h.held * 2 ^ 52 + b2n h.widen * 2 ^ 53 +
    2 ^ 63

/-- The hold-table entry that HT_IDX selects, as it stood at the most recent latch; an unused one is 0 (R35, R467). -/
def State.htEntry (s : State) (p : Nat) : Nat :=
  match (s.part p).latched[s.rd (.packer p) packer.HT_IDX]? with
  | some h => h.word % 2 ^ 64
  | none => 0

/-- PACKER (R467). -/
def State.viewPacker (s : State) (p : Nat) (f : Field) : Nat :=
  if f = packer.HT_DATA_LO then s.htEntry p % 2 ^ 32
  else if f = packer.HT_USED then (s.part p).table.length
  else s.rd (.packer p) f

/-- ADMIT (R265, R288). -/
def State.viewAdm (s : State) (p : Nat) (f : Field) : Nat :=
  let v := s.vent p (s.rd (.adm p) adm.VENT_SEL)
  if f = adm.LANES_USED then (s.part p).lanes.countP (fun e => e.2.handle.isSome)
  else if f = adm.VENT_IMAGE_LO then v.image % 2 ^ 32
  else if f = adm.VENT_IMAGE_HI then v.image / 2 ^ 32 % 2 ^ 32
  else if f = adm.VENT_KEY then v.key
  else if f = adm.VENT_NUM then v.num
  else if f = adm.VENT_BOUND then b2n v.bound
  else if f = adm.VENT_LANES then v.lanes
  else s.rd (.adm p) f

/-- SPUR (R287): the selected main lane. -/
def State.viewSpur (s : State) (p : Nat) (f : Field) : Nat :=
  let x := s.spurOf p (s.rd (.spur p) spur.LANE_SEL)
  if f = spur.DRAFT_LANE then x.draftLane.getD 0
  else if f = spur.KT then x.kt
  else if f = spur.ZS then x.zs
  else if f = spur.TOK_SINCE then min x.cnt 127
  else if f = spur.EPOCH then x.epoch
  else if f = spur.PROBE_PEND then b2n x.probe
  else if f = spur.SPUR_LANE then b2n x.draftLane.isSome
  else s.rd (.spur p) f

/-- COHC (R385): the ordered port, and the selected aperture entry. -/
def State.viewCohc (s : State) (p : Nat) (f : Field) : Nat :=
  let a : Aper := Table.get {} (s.part p).apers (s.rd (.cohc p) cohc.APER_SEL)
  if f = cohc.ORD_PORT then (s.ordPort p).getD 7
  else if f = cohc.ORD_VALID then b2n (s.ordPort p).isSome
  else if f = cohc.APER_BASE_LO then a.base % 2 ^ 32
  else if f = cohc.APER_BASE_HI then a.base / 2 ^ 32 % 2 ^ 32
  else if f = cohc.APER_LIMIT_LO then a.limit % 2 ^ 32
  else if f = cohc.APER_LIMIT_HI then a.limit / 2 ^ 32 % 2 ^ 32
  else if f = cohc.APER_VALID then b2n a.valid
  else if f = cohc.APER_WRITE then b2n a.canWrite
  else s.rd (.cohc p) f

/-- VL_PORT (R383). -/
def State.viewPort (s : State) (n : Nat) (f : Field) : Nat :=
  if f = vlport.ORDERED then b2n ((List.range 12).any (fun p => s.flag (.tickgen p) tickgen.CREATED && s.ordPort p = some n))
  else s.rd (.vlport n) f

/-- The number of a request's state (R242). -/
def ReqState.num : ReqState → Nat
  | .free => 0 | .queued => 1 | .admitted => 2 | .prefill => 3 | .decode => 4 | .paused => 5 | .scree => 6 | .done => 7
  | .rejected => 8 | .faulted => 9 | .expired => 10

/-- The eight 64-bit words of a request table entry (R242). -/
def Request.words (r : Request) (h : Nat) : List Nat :=
  let flags := b2n r.keep + 2 * b2n r.poolMean + 4 * b2n r.perToken + 8 * b2n r.retLogp
  [h + r.state.num * 2 ^ 17 + r.prio * 2 ^ 21 + r.kind * 2 ^ 24 + b2n r.elastic * 2 ^ 26 + r.part * 2 ^ 27 + b2n r.auto * 2 ^ 31 +
     r.lane * 2 ^ 32 + r.bucket * 2 ^ 40 + r.allow * 2 ^ 43 + b2n r.spurOn * 2 ^ 51 + r.spurK * 2 ^ 52 + r.variant * 2 ^ 54 + flags * 2 ^ 60,
   r.deadline % 2 ^ 40 + r.ttl * 2 ^ 40,
   r.promptLen + r.genCnt * 2 ^ 21 + r.maxNew * 2 ^ 42,
   r.worst % 2 ^ 40 + r.pageRoot * 2 ^ 40,
   r.sampPtr, r.maskPtr, r.cookie + r.ttlExp * 2 ^ 32, r.ksnap]

/-- The table entries of half `c` in one of the states `f`. -/
def State.countReqs (s : State) (c : Nat) (f : ReqState → Bool) : Nat := s.reqs.countP (fun e => e.1 / 65536 = c && f e.2.state)

/-- REQTAB (R264). -/
def State.viewReqtab (s : State) (c : Nat) (f : Field) : Nat :=
  let h := s.rd (.reqtab c) reqtab.ENT_SEL
  if f = reqtab.FREE_CNT then 65536 - s.countReqs c (· ≠ .free)
  else if f = reqtab.QUEUED_CNT then s.countReqs c (· = .queued)
  else if f = reqtab.SCREE_CNT then s.countReqs c (· = .scree)
  else if f = reqtab.MS_CLOCK then s.ms % 2 ^ 32
  else match (List.range 16).find? (fun i => f = reqtab.ENT_W i) with
    | some i => bits (((s.req h).words h).getD (i / 2) 0) (32 * (i % 2)) 32
    | none => s.rd (.reqtab c) f

/-- A fault record's 32 bytes (R314). -/
def FaultRec.bytes (r : FaultRec) : List Byte :=
  leBytes 1 r.cls ++ leBytes 1 r.path ++ leBytes 1 r.part ++ leBytes 1 r.outcome ++ leBytes 2 r.loc ++ leBytes 2 r.unit ++ leBytes 6 r.tick ++
    [0, 0] ++ leBytes 4 r.hold ++ leBytes 4 r.intr ++ leBytes 4 r.gen ++ leBytes 4 r.seq

/-- SMC (R446, R469). -/
def State.viewSmc (s : State) (c : Nat) (f : Field) : Nat :=
  if f = smc.FLOG_CNT then s.faultLog.length
  else if f = smc.FLOG_NEWEST then ((s.faultLog.head?).map (·.seq)).getD 0 % 2 ^ 32
  else s.rd (.smc c) f

/-- The rails are on, so that phases share current (R323, R325). -/
def State.railsOn (s : State) : Bool := match s.sps.state with | .good => true | .failing => true | .seq => true | _ => false

/-- SPS (R336): the selected stack, of 0 to 89.  PH_OK reads 0 while the rails are off: no phase shares. -/
def State.viewSps (s : State) (f : Field) : Nat :=
  let k := s.rd .sps sps.PH_SEL
  let x := if k < 90 then s.stack k else {}
  if f = sps.PH_OK then (if s.railsOn then x.sharing else 0)
  else if f = sps.PH_OFFLINE then x.offline
  else if f = sps.PH_LOST_CNT then x.lost % 2 ^ 32
  else s.rd .sps f

/-- SEQ of the newest durable record. -/
def Nor.seqLast (n : Nor) : Nat := ((n.log.getLast?).map (·.seq)).getD n.snapSeq

/-- JOURNAL (R470): it reads 0 while no SMC holds the NOR grant. -/
def State.viewJournal (s : State) (f : Field) : Nat :=
  let n := s.nor
  if s.norHolder = none then 0
  else if f = journal.SEQ_LAST_LO then n.seqLast % 2 ^ 32
  else if f = journal.WR_SECTOR then n.sector
  else if f = journal.WR_OFFSET then n.off
  else if f = journal.FILL then n.fill
  else if f = journal.SNAP_AREA then n.snapArea
  else if f = journal.COMPACT_BUSY then b2n n.compact.isSome
  else if f = journal.ERASED_AHEAD then min n.erased 255
  else if f = journal.QUEUED then n.waiting.length + b2n n.writing.isSome
  else if f = journal.ABANDON_USED then n.abandon.length
  else s.rd .journal f

/-- TALLY_IF (R430, R459): on an -X module every field reads 0 but the shares, whose source is PIN. -/
def State.viewTally (s : State) (f : Field) : Nat :=
  let x := s.part (s.rd .tallyIf tallyIf.SHARE_SEL)
  if f = tallyIf.SHARE_E_LO then x.shareE % 2 ^ 32
  else if f = tallyIf.SHARE_E_HI then x.shareE / 2 ^ 32 % 2 ^ 32
  else if f = tallyIf.SHARE_TOK_LO then x.shareTok % 2 ^ 32
  else if f = tallyIf.SHARE_TOK_HI then x.shareTok / 2 ^ 32 % 2 ^ 32
  else if s.fuses.suffixT || f = tallyIf.SHARE_SEL then s.rd .tallyIf f
  else b2n (f = tallyIf.SHARE_SRC)

/-- The common fields of a page (R451, R452). -/
def State.viewCommon (s : State) (pg : Page) (f : Field) : Nat :=
  if f = page.LAYOUT then 1
  else if f = page.INSTANCE then pg.inst
  else if f = page.TYPE then pg.typeCode
  else if f = page.EN then (if pg.ownEn then s.rd pg f else 1)
  else if f = page.STATE then s.stateOf pg
  else if f = page.ERR_STAT then s.errStat pg
  else s.rd pg f

/-- The block-specific fields of a page.  FAULT_GEN always shows the current generation (DESIGN CHOICE; log 97). -/
def State.viewBlock (s : State) (pg : Page) (f : Field) : Nat :=
  match pg with
  | .modul => s.viewModul f
  | .tileGlb t => s.viewTile t f
  | .mesh t => s.viewMesh t f
  | .crag t g => s.viewCrag t g f
  | .core g => s.viewCore g f
  | .slab t => s.viewSlab t f
  | .msite m => s.viewSite m f
  | .tickgen p => if f = tickgen.TICK_LO then (s.part p).tick % 2 ^ 32 else if f = tickgen.FAULT_GEN then s.faultGen % 2 ^ 32 else s.rd pg f
  | .packer p => s.viewPacker p f
  | .adm p => s.viewAdm p f
  | .spur p => s.viewSpur p f
  | .cohc p => s.viewCohc p f
  | .vlport n => s.viewPort n f
  | .reqtab c => s.viewReqtab c f
  | .smc c => s.viewSmc c f
  | .ssb _ => if f = ssb.SVN_MIN then s.fuses.svn.getD (s.rd pg ssb.SVN_KIND) 0 else s.rd pg f
  | .sps => s.viewSps f
  | .journal => s.viewJournal f
  | .tallyIf => s.viewTally f
  | _ => s.rd pg f

/-- What a read of a field shows: 0 for a write-only field (R9), and for a page whose block is absent (R459). -/
def State.view (s : State) (pg : Page) (f : Field) : Nat :=
  let dark : Bool := pg = .tallyIf && !s.fuses.suffixT && f.off < 0x40
  if f.acc = .wo || dark || (pg ≠ .sps && !s.present pg) then 0 else
  let v := match pg with
    | .core _ | .doorbell _ => s.viewBlock pg f
    | _ => if f.off < 0x40 then s.viewCommon pg f else s.viewBlock pg f
  v % 2 ^ f.width

/-- The word at an offset of a page (R448): reserved bits and offsets without a field read 0 (R10). -/
def State.viewWord (s : State) (pg : Page) (off : Nat) : Nat :=
  (pg.allFields.filter (fun f => f.off = off)).foldl (fun v f => v + s.view pg f * 2 ^ f.lsb) 0

/-- The page and offset that an access within page `pg` goes to: the upper half of a CORE_WIN page is the selected core's (R462). -/
def State.target (s : State) (pg : Page) (off : Nat) : Page :=
  match pg with
  | .coreWin t => if 0x400 ≤ off ∧ off < 0x800 then .core (t * 256 + s.rd pg coreWin.CORE_SEL) else pg
  | _ => pg

/-- The reads that latch the upper part of a wider field (R57, R467, R469, R470). -/
def State.latchRead (s : State) (pg : Page) (off : Nat) : State :=
  match pg with
  | .tickgen p => if off = 0x048 then s.wr pg tickgen.TICK_HI ((s.part p).tick / 2 ^ 32) else s
  | .packer p => if off = 0x048 then s.wr pg packer.HT_DATA_HI (s.htEntry p / 2 ^ 32) else s
  | .smc _ =>
    if off ≠ 0x064 then s else
    match s.faultLog[s.rd pg smc.FLOG_SEL]? with
    | some r => (List.range 8).foldl (fun s i => s.wr pg (smc.FLOG_DATA i) (leNat ((r.bytes.drop (4 * i)).take 4))) s
    | none => (List.range 8).foldl (fun s i => s.wr pg (smc.FLOG_DATA i) 0) s
  | .journal => if off = 0x040 && s.norHolder.isSome then s.wr pg journal.SEQ_LAST_HI (s.nor.seqLast / 2 ^ 32) else s
  | _ => s

/-- An access to the register address space is answered: its status (0 OK, 1 ADDR), the word, and the state after it (R448, R458). -/
def State.readReg (s : State) (addr : Nat) : Nat × Nat × State :=
  if addr % 4 ≠ 0 then (1, 0, s)
  else if addr / 4096 = 0x3F01 then (0, leNat ((s.tally.frame.drop (addr % 4096)).take 4), s)
  else match pageOf (addr / 4096) with
    | none => (1, 0, s)
    | some (pg, c) =>
      let off := addr % 4096
      let pg := s.target pg off
      let lost : Bool := match c with
        | some c => !(s.ctl c).up
        | none => false
      if lost || (pg ≠ .sps && !s.present pg) then (0, 0, s) else
      let s := s.latchRead pg off
      (0, s.viewWord pg off, s)

end Sys2Proof.Machine
end

