-- ==== Sys2Proof/Machine/Mmio.lean ====
section
/-! DEFINITION. Writes of registers under their access codes, the rows of the common page, and the accesses that arrive over the link
(R9, R361 to R368, R376, R448 to R455). -/

namespace Sys2Proof.Machine

/-! ### The common page (R453 to R455) -/

/-- How many error bits the block of a page defines; they are the lowest. -/
def Page.errBits : Page → Nat
  | .tileGlb _ => 4 | .mesh _ => 6 | .saddle _ _ => 5 | .crag _ _ => 3 | .coreWin _ => 4 | .rmbTile _ => 8 | .rmbSite _ => 8 | .rmbCtl _ => 8
  | .therm _ => 5 | .msite _ => 8 | .tickgen _ => 9 | .packer _ => 2 | .adm _ => 4 | .spur _ => 3 | .vlport _ => 8 | .cohc _ => 4
  | .smc _ => 4 | .ssb _ => 6 | .sps => 8 | .journal => 4 | .tallyIf => 8
  | _ => 0

/-- A page that follows the common layout (R377, R451). -/
def Page.common : Page → Bool
  | .core _ => false
  | .doorbell _ => false
  | _ => true

/-- ERR_INJECT (R454): the bits are set and captured as injected, with no other action. -/
def errInject (s : State) (pg : Page) (v : Nat) : State :=
  if !pg.common || s.flag pg page.INJ_LOCK then s else s.errs pg ((List.range pg.errBits).filter (bit v)) true

/-- FIRST_VALID (R453): the capture is cleared and rearmed, but not one of the same cycle (R11); ERR_TICK stays. -/
def firstValid (s : State) (pg : Page) : State :=
  if pg.common && !s.setNow pg page.FIRST_VALID 0 then s.clrAll pg [page.FIRST_VALID, page.FIRST_INJ, page.FIRST_MORE] else s

/-- LOCK (R455). -/
def lock (s : State) (pg : Page) : State := if pg.common then s.setFlag pg page.LOCK true else s

/-- INJ_LOCK (R455). -/
def injLock (s : State) (pg : Page) : State := if pg.common then s.setFlag pg page.INJ_LOCK true else s

/-! ### Fields with conditions of their own -/

/-- BUDGET (R463). -/
def budget (s : State) (t v : Nat) : State :=
  let pg := Page.tileGlb t
  if s.tileBusy t || 1200 < v || v < 60 then s.setFlag pg tileGlb.BUDGET_LOCKED true
  else (s.wr pg tileGlb.BUDGET v).setFlag pg tileGlb.BUDGET_LOCKED false

/-- ARRAY_DEFECT_POLICY (R69, R70): takes effect at once on each array. -/
def arrayDefectPolicy (s : State) (g v : Nat) : State :=
  let pg := Page.core g
  if s.tileBusy (tileOf g) then s.setFlag pg core.CFG_LOCKED true else
  let s := (s.wr pg core.ARRAY_DEFECT_POLICY v).setFlag pg core.CFG_LOCKED false
  (List.range 4).foldl (fun s a => s.applyPolicy g a) s

/-- PROG_BASE (R79). -/
def progBase (s : State) (g v : Nat) : State :=
  let pg := Page.core g
  if s.tileBusy (tileOf g) then s.setFlag pg core.CFG_LOCKED true
  else (s.wr pg core.PROG_BASE v).setFlag pg core.CFG_LOCKED false

/-- A write under the access code of the field alone (R9); a W1C leaves what the hardware has set in the same cycle (R11). -/
def State.writeCode (s : State) (pg : Page) (f : Field) (v : Nat) : State :=
  match f.acc with
  | .rw => s.wr pg f v
  | .rwl => if s.flag pg page.LOCK then s else s.wr pg f v
  | .w1c =>
    let clear := ((List.range f.width).filter (fun b => bit v b && !s.setNow pg f b)).foldl (fun a b => a + 2 ^ b) 0
    s.wr pg f (s.rd pg f - Nat.land (s.rd pg f) clear)
  | .w1s => s.wr pg f (Nat.lor (s.rd pg f) v)
  | .ro => s
  | .wo => s

/-- PORT_EN (R359, R383): 0 turns the port OFF, 1 lets it train from DETECT. -/
def State.portEn (s : State) (n v : Nat) : State :=
  let pg := Page.vlport n
  let was := s.flag pg vlport.PORT_EN
  let s := s.wr pg vlport.PORT_EN v
  if v % 2 = 0 then (if was then s.portOff n 7 else s)
  else if was then s else (s.wr pg vlport.LSTATE 0).updPort n (fun _ => {})

/-- A field of a TICKGEN page (R26, R41, R441, R445, R447). -/
def State.putTickgen (s : State) (p : Nat) (f : Field) (v : Nat) : State :=
  let pg := Page.tickgen p
  if f = tickgen.PERIOD then period s p v
  else if f = tickgen.STRETCH_CEIL then stretchCeil s p v
  else if f = tickgen.CREATE then create s p
  else if f = tickgen.DESTROY then destroy s p
  else if [tickgen.TILES0, tickgen.TILES1, tickgen.TILES2, tickgen.FRAMES].contains f && s.created p then s
  else s.writeCode pg f v

/-- A field of an ADMIT page (R265, R281, R288): the entry that VENT_SEL names can be restaged only while it has no lanes.  VENT_NUM is the number to
bind: a bound entry keeps its number until a bind. -/
def State.putAdm (s : State) (p : Nat) (f : Field) (v : Nat) : State :=
  let pg := Page.adm p
  let e := s.rd pg adm.VENT_SEL
  let still : Bool := (s.vent p e).lanes ≠ 0
  if f = adm.VENT_CMD then (if v = 1 then ventCmdBind s p else if v = 2 then ventCmdUnbind s p else s)
  else if f = adm.VENT_IMAGE_LO then (if still then s else s.updVent p e (fun x => { x with image := x.image / 2 ^ 32 * 2 ^ 32 + v }))
  else if f = adm.VENT_IMAGE_HI then (if still then s else s.updVent p e (fun x => { x with image := x.image % 2 ^ 32 + v * 2 ^ 32 }))
  else if f = adm.VENT_KEY then (if still then s else s.updVent p e (fun x => { x with key := v }))
  else if f = adm.VENT_NUM then (if still then s else s.updVent p e (fun x => { x with num := v }))
  else if f = adm.DEFAULT_TTL && (v = 0 || 3600 < v) then s
  else s.writeCode pg f v

/-- A field of a COHC page (R378 to R380, R385): rings and apertures take writes only while the partition is OFF. -/
def State.putCohc (s : State) (p : Nat) (f : Field) (v : Nat) : State :=
  let pg := Page.cohc p
  let off : Bool := s.pstate p = 0
  let e := s.rd pg cohc.APER_SEL
  let aper (g : Aper → Aper) : State := if off then s.updPart p (fun x => { x with apers := Table.upd {} x.apers e g }) else s
  if f = cohc.INT_ADDR_HI then intAddr s p v
  else if f = cohc.APER_BASE_LO then aper (fun a => { a with base := a.base / 2 ^ 32 * 2 ^ 32 + v })
  else if f = cohc.APER_BASE_HI then aper (fun a => { a with base := a.base % 2 ^ 32 + v * 2 ^ 32 })
  else if f = cohc.APER_LIMIT_LO then aper (fun a => { a with limit := a.limit / 2 ^ 32 * 2 ^ 32 + v })
  else if f = cohc.APER_LIMIT_HI then aper (fun a => { a with limit := a.limit % 2 ^ 32 + v * 2 ^ 32 })
  else if f = cohc.APER_VALID then aper (fun a => { a with valid := v ≠ 0 })
  else if f = cohc.APER_WRITE then aper (fun a => { a with canWrite := v ≠ 0 })
  else if !off && [cohc.CMD_BASE_LO, cohc.CMD_BASE_HI, cohc.CMD_LOG2, cohc.CPL_BASE_LO, cohc.CPL_BASE_HI, cohc.CPL_LOG2,
    cohc.CI_SHADOW_LO, cohc.CI_SHADOW_HI, cohc.COMP].contains f then s
  else (s.writeCode pg f v).linkCheck

/-- A field of an MSITE page (R184, R188, R281, R289). -/
def State.putSite (s : State) (m : Nat) (f : Field) (v : Nat) : State :=
  let pg := Page.msite m
  let e := s.rd pg msite.DDIR_SEL
  let lanes : Bool := match s.sitePart m with
    | some p => (s.vent p e).lanes ≠ 0
    | none => false
  let dir (g : DeltaDir → DeltaDir) : State :=
    if lanes then s.setFlag pg msite.DDIR_LOCKED true
    else (s.setFlag pg msite.DDIR_LOCKED false).updSite m (fun x => { x with deltas := Table.upd {} x.deltas e g })
  if f = msite.SET_KIND then setKind s m v
  else if f = msite.REG_CMD then (if v = 1 then regCmdWrite s m else if v = 2 then regCmdInvalidate s m else s)
  else if f = msite.DDIR_REGION then dir (fun d => { d with region := v })
  else if f = msite.DDIR_BASE then dir (fun d => { d with base := v })
  else if f = msite.DDIR_VALID then dir (fun d => { d with valid := v ≠ 0 })
  else s.writeCode pg f v

/-- A field of an RMB page (R341, R349, R350). -/
def State.putRmb (s : State) (pg : Page) (f : Field) (v : Nat) : State :=
  if f = rmb.REF_SEL then refSel s pg v
  else if f = rmb.CAL_START then calStart s pg
  else if f = rmb.SW_START then swStart s pg
  else if f = rmb.SRC_EN 5 ∧ v ≠ 0 then (s.writeCode pg f v).armTimer pg 0
  else if f = rmb.SRC_EN 6 ∧ v ≠ 0 then (s.writeCode pg f v).armTimer pg 1
  else s.writeCode pg f v

/-- A field of a VL_PORT page (R383). -/
def State.putPort (s : State) (n : Nat) (f : Field) (v : Nat) : State :=
  if f = vlport.PORT_EN then s.portEn n v
  else if f = vlport.RETRAIN then retrain s n
  else if f = vlport.GEN_MAX ∧ v < 2 then s
  else (s.writeCode (.vlport n) f v).linkCheck

/-- A field of the TALLY_IF page (R430); on an -X module only SHARE_SEL takes a write. -/
def State.putTally (s : State) (f : Field) (v : Nat) : State :=
  if !s.fuses.suffixT ∧ f ≠ tallyIf.SHARE_SEL then s
  else if f = tallyIf.REQ_SIGNED then reqSigned s
  else if f = tallyIf.REQ_LOG then reqLog s
  else if f = tallyIf.REQ_CERT then reqCert s
  else s.writeCode .tallyIf f v

/-- A block-specific field. -/
def State.putBlock (s : State) (pg : Page) (f : Field) (v : Nat) : State :=
  match pg with
  | .tickgen p => s.putTickgen p f v
  | .adm p => s.putAdm p f v
  | .cohc p => s.putCohc p f v
  | .spur p => if f = spur.PAIR_EN then pairEn s p v else if f = spur.DRAFT_PART then s.draftPart p v else s.writeCode pg f v
  | .msite m => s.putSite m f v
  | .rmbTile _ | .rmbSite _ | .rmbCtl _ => s.putRmb pg f v
  | .vlport n => s.putPort n f v
  | .tallyIf => s.putTally f v
  | .tileGlb t => if f = tileGlb.BUDGET then budget s t v else s.writeCode pg f v
  | .therm t => if f = therm.BASE_CAPTURE then baseCapture s t else s.writeCode pg f v
  | .slab t => if f = slab.DIRTY_ARM then s.updCore (s.dirtyCore t) (fun c => { c with armed := v ≠ 0 }) else s.writeCode pg f v
  | .core g =>
    if f = core.PROG_BASE then progBase s g v
    else if f = core.ARRAY_DEFECT_POLICY then arrayDefectPolicy s g v
    else s.writeCode pg f v
  | .ssb c => if f = ssb.SVN_COMMIT then svnCommit s c else s.writeCode pg f v
  | .sps =>
    if f = sps.SHUTDOWN then shutdown s
    else if f = sps.PH_OFFLINE then phOffline s v
    else if f = sps.MOD_CAP ∧ (v < 500 ∨ 2000 < v) then s
    else s.writeCode pg f v
  | .doorbell p =>
    if f = doorbell.CMD_PI then cmdPi s p v
    else if f = doorbell.CPL_CI then cplCi s p v
    else if f = doorbell.ARM then arm s p
    else s
  | _ => s.writeCode pg f v

/-- A common field (R440, R451 to R455).  Clearing FAULT_REC marks the records as read (R469). -/
def State.putCommon (s : State) (pg : Page) (f : Field) (v : Nat) : State :=
  if f = page.EN then en s pg (v ≠ 0)
  else if f = page.SOFT_RESET then softReset s pg
  else if f = page.ERR_STAT then
    let s := s.noting pg (fun s => s.writeCode pg f v)
    match pg with
    | .smc c => if bit v 0 then s.updCtl c (fun x => { x with recSeen := s.faultSeq }) else s
    | _ => s
  else if f = page.ERR_MASK then s.noting pg (fun s => s.writeCode pg f v)
  else if f = page.FIRST_VALID then (if v = 0 then s else firstValid s pg)
  else if f = page.ERR_INJECT then errInject s pg v
  else if f = page.LOCK then (if v = 0 then s else lock s pg)
  else if f = page.INJ_LOCK then (if v = 0 then s else injLock s pg)
  else s.writeCode pg f v

/-- One field of a written word; 0 written to a write-only field has no effect (R9). -/
def State.putField (s : State) (pg : Page) (f : Field) (v : Nat) : State :=
  if f.acc = .wo ∧ v = 0 then s
  else if pg.common && f.off < 0x40 then s.putCommon pg f v
  else s.putBlock pg f v

/-- A word written to a page: its fields from the lowest bit on. -/
def State.putWord (s : State) (pg : Page) (off v : Nat) : State :=
  (sortBy (fun (a b : Field) => decide (a.lsb < b.lsb)) (pg.allFields.filter (fun f => f.off = off))).foldl
    (fun s f => s.putField pg f (bits v f.lsb f.width)) s

/-- The pages that a write within page `pg` goes to: in the core window the selected core's, or with CORE_BCAST every core's (R462). -/
def State.targets (s : State) (pg : Page) (off : Nat) : List Page :=
  match pg with
  | .coreWin t => if 0x400 ≤ off ∧ off < 0x800 ∧ s.flag pg coreWin.CORE_BCAST then (List.range 256).map (fun i => .core (t * 256 + i))
                  else [s.target pg off]
  | _ => [pg]

/-- A word written to the register address space: its status, 0 OK or 1 ADDR, and the state after it (R57, R448, R458, R459). -/
def State.writeReg (s : State) (addr v : Nat) : Nat × State :=
  if addr % 4 ≠ 0 then (1, s)
  else if addr / 4096 = 0x3F01 then (0, s)
  else match pageOf (addr / 4096) with
    | none => (1, s)
    | some (pg, c) =>
      let lost : Bool := match c with
        | some c => !(s.ctl c).up
        | none => false
      let mirror : Bool := match pg.ofPart, c with
        | some p, some c => s.primary p ≠ c
        | _, _ => false
      if lost then (1, s)
      else if mirror || (pg ≠ .sps && !s.present pg) then (0, s)
      else (0, (s.targets pg (addr % 4096)).foldl (fun s pg => s.putWord pg (addr % 4096) v) s)

/-- REGISTER_WRITE (R9, R448): a write of the SMC to any register. -/
def registerWrite (s : State) (addr v : Nat) : State := (s.writeReg addr v).2

/-! ### Reads with rows of their own -/

/-- HT_DATA_LO (R467): the entry as of the most recent latch. -/
def htDataLo (s : State) (p : Nat) : State :=
  (s.latchRead (.packer p) 0x048).emit (.readBack (Page.packer p).id 0x048 (s.view (.packer p) packer.HT_DATA_LO))

/-- FLOG_DATA0 (R469): the record that FLOG_SEL selects. -/
def flogData0 (s : State) (c : Nat) : State :=
  let s := s.latchRead (.smc c) 0x064
  s.emit (.readBack (Page.smc c).id 0x064 (s.view (.smc c) (smc.FLOG_DATA 0)))

/-- SEQ_LAST_LO (R470). -/
def seqLastLo (s : State) : State :=
  (s.latchRead .journal 0x040).emit (.readBack Page.journal.id 0x040 (s.view .journal journal.SEQ_LAST_LO))

/-! ### MMIO over the link (R368, R376) -/

/-- Port `n` may access an address: a doorbell page by PORT_PARTS, any other by MGMT. -/
def State.mmioAllowed (s : State) (n addr : Nat) : Bool :=
  let k := addr / 4096
  if 0x3E00 ≤ k ∧ k < 0x3E0C then bit (s.rd (.vlport n) vlport.PORT_PARTS) (k - 0x3E00) else s.flag (.vlport n) vlport.MGMT

/-- An access that is denied. -/
def State.mmioDeny (s : State) (n tag : Nat) : State :=
  ((s.inc (.vlport n) vlport.MMIO_DENY_CNT 1).err (.vlport n) 4).sendMsg n 2 1 (.mmioRsp n tag 3 0)

/-- MMIO_WR (R376, R448). -/
def mmioWr (s : State) (n tag addr v : Nat) : State :=
  if !s.portActive n then s else
  let s := s.returnCredit n 0 1
  if !s.mmioAllowed n addr then s.mmioDeny n tag else
  let (st, s) := s.writeReg addr v
  s.sendMsg n 2 1 (.mmioRsp n tag st 0)

/-- MMIO_RD (R376, R448). -/
def mmioRd (s : State) (n tag addr : Nat) : State :=
  if !s.portActive n then s else
  let s := s.returnCredit n 0 1
  if !s.mmioAllowed n addr then s.mmioDeny n tag else
  let (st, v, s) := s.readReg addr
  s.sendMsg n 2 1 (.mmioRsp n tag st v)

/-! ### DATA flits (R361, R363, R367, R368) -/

/-- A message that has arrived whole: its header and data. -/
def State.deliver (s : State) (n : Nat) (h body : List Byte) : State :=
  let tag := leNat ((h.drop 2).take 2) % 4096
  let addr := leNat ((h.drop 4).take 8)
  let st := leNat ((h.drop 1).take 1) / 16
  match leNat (h.take 1) with
  | 0x10 => mmioWr s n tag addr (leNat ((h.drop 12).take 4))
  | 0x11 => mmioRd s n tag addr
  | 0x12 => snpInv s n addr
  | 0x18 => cmp s n tag st
  | 0x19 => data s n tag st body
  | _ => (s.inc (.vlport n) vlport.PROTO_ERR_CNT 1).err (.vlport n) 5

/-- Takes whole messages off the byte stream: what is left, and the state.  OPC 0x00 at the start of a message is padding, and the rest
of the flit is skipped; `k` bounds the messages. -/
def State.parse (s : State) (n : Nat) : Nat → List Byte → List Byte × State
  | 0, l => (l, s)
  | k + 1, l =>
    match l with
    | [] => ([], s)
    | b :: _ =>
      if b = 0 then ([], s) else
      let len := if b = 0x19 then 16 + 64 * ((l.getD 1 0).toNat % 4 + 1) else 16
      if l.length < len then (l, s) else
      (s.deliver n (l.take 16) ((l.take len).drop 16)).parse n k (l.drop len)

/-- DATA_FLIT (R361 to R363, R367): a bad flit, or one out of order, is discarded and draws a NAK; a good one acknowledges, returns credits
and delivers the messages that it completes. -/
def dataFlit (s : State) (n fseq ack vc cr : Nat) (ackv good corr : Bool) (bytes : List Byte) : State :=
  if !s.portActive n then s else
  let s := s.corrected n corr
  if !good then (((s.inc (.vlport n) vlport.CRC_ERR_CNT 1).err (.vlport n) 0).sendNak n) else
  if fseq ≠ (s.port n).rxSeq then s.sendNak n else
  let s := s.updPort n (fun x => { x with rxSeq := (x.rxSeq + 1) % 1024, nakSent := false })
  let s := s.flitHeader n ack vc cr ackv
  let l := (s.port n).rxBuf ++ bytes
  let (rest, s) := s.parse n l.length l
  s.updPort n (fun x => { x with rxBuf := rest })

/-- ERR_INJECT. -/
def execErrInject (pg : Page) (v : Nat) (s : State) : Out := .next (errInject s pg v)
/-- FIRST_VALID. -/
def execFirstValid (pg : Page) (s : State) : Out := .next (firstValid s pg)
/-- LOCK. -/
def execLock (pg : Page) (s : State) : Out := .next (lock s pg)
/-- INJ_LOCK. -/
def execInjLock (pg : Page) (s : State) : Out := .next (injLock s pg)
/-- BUDGET. -/
def execBudget (t v : Nat) (s : State) : Out := .next (budget s t v)
/-- ARRAY_DEFECT_POLICY. -/
def execArrayDefectPolicy (g v : Nat) (s : State) : Out := .next (arrayDefectPolicy s g v)
/-- PROG_BASE. -/
def execProgBase (g v : Nat) (s : State) : Out := .next (progBase s g v)
/-- HT_DATA_LO. -/
def execHtDataLo (p : Nat) (s : State) : Out := .next (htDataLo s p)
/-- FLOG_DATA0. -/
def execFlogData0 (c : Nat) (s : State) : Out := .next (flogData0 s c)
/-- SEQ_LAST_LO. -/
def execSeqLastLo (s : State) : Out := .next (seqLastLo s)
/-- REGISTER_WRITE. -/
def execRegisterWrite (addr v : Nat) (s : State) : Out := .next (registerWrite s addr v)
/-- MMIO_WR. -/
def execMmioWr (n tag addr v : Nat) (s : State) : Out := .next (mmioWr s n tag addr v)
/-- MMIO_RD. -/
def execMmioRd (n tag addr : Nat) (s : State) : Out := .next (mmioRd s n tag addr)
/-- DATA_FLIT. -/
def execDataFlit (n fseq ack vc cr : Nat) (ackv good corr : Bool) (bytes : List Byte) (s : State) : Out :=
  .next (dataFlit s n fseq ack vc cr ackv good corr bytes)

end Sys2Proof.Machine
end

