-- ==== Sys2Proof/Machine/Clock.lean ====
section
/-! DEFINITION. One cycle of the 2.5 GHz clock: what passes with time alone, between the commands (R38, R73, R74, R78, R137, R144,
R160, R161, R257; log 40). -/

namespace Sys2Proof.Machine

/-! ### The sequencer and its barriers (R73, R74, R136, R144) -/

/-- SEQUENCER_FETCH (R73): one 16-byte command a cycle while the queue of 64 has room, from the slab.  At an address outside the slab
nothing is fetched (log 65). -/
def State.fetchOne (s : State) (g : Nat) : State :=
  let c := s.core g
  let a := s.rd (.core g) core.PROG_BASE * 16 + 16 * c.fetchIdx
  if !c.fetching || 64 ≤ c.queue.length || a < 0x800000 || 0x1000000 < a + 16 then s else
  let e : CmdEntry := { word := leNat (c.read a 16), idx := c.fetchIdx }
  (s.updCore g (fun c => { c with queue := c.queue ++ [e], fetchIdx := c.fetchIdx + 1 })).wr (.core g) core.QFILL (c.queue.length + 1)

/-- An undefined opcode that would issue is step error ILLEGAL (R78). -/
def State.undefinedOp (s : State) (g : Nat) : State :=
  match s.issuable g with
  | some e => if unitOf (cOp e.word) = none then s.fail g e .illegal else s
  | none => s

/-- A pending barrier completes in the next cycle: FENCE when every earlier command is done, WIN_WAIT when COUNT has reached EXPECT, SEM_WAIT
when the count is not zero, which it decrements.  HALT completes on its retirement (R78). -/
def State.settle (s : State) (g : Nat) : State :=
  let next := s.cycOf g + 1
  match (s.core g).queue.find? (fun e => e.issued && e.barrier && e.doneAt = none) with
  | none => s
  | some e =>
    let c := s.core g
    let op := cOp e.word
    if op = 0x42 then
      let w := c.win (bits e.word 0 6)
      if w.expect ≤ w.count then s.finishAt g e.idx next else s
    else if op = 0x51 then
      let k := bits e.word 0 5
      if c.sem k = 0 then s else (s.updCore g (fun c => c.setSem k (c.sem k - 1))).finishAt g e.idx next
    else if op ≠ 0xF0 ∧ c.earlierDone e.idx next then s.finishAt g e.idx next else s

/-! ### Windows (R137) -/

/-- The COUNT increments that are due, and the windows that close at the end of the cycle. -/
def State.windowCycle (s : State) (g : Nat) : State :=
  let now := s.schedOf g
  s.updCore g (fun c =>
    let due := c.counts.filter (fun e => decide (e.2 ≤ now))
    let wins := due.foldl (fun t e => Table.upd {} t e.1 (fun (w : Window) => { w with count := w.count + 1 })) c.wins
    { c with
      counts := c.counts.filter (fun e => decide (now < e.2))
      wins := Table.mapVals {} (fun w => if w.closing then { w with state := .closed, closing := false } else w) wins })

/-! ### The send unit (R160, R161) -/

/-- The earliest schedule cycle in which a flit that enters the injection queue now may cross; a spare that stands in is 4 cycles away
(R297). -/
def State.injectAt (s : State) (g : Nat) : Nat :=
  s.schedOf g + (if cragLocal g = 11 ∧ s.rd (cragPage (cragOf g)) crag.STAND_FOR ≠ 15 then 5 else 1)

/-- The next flit of a send. -/
def State.sendFlit (s : State) (g : Nat) (j : SendJob) : Flit :=
  { part := (s.corePart g).getD 0, stamp := s.tickOf g % 256, op := j.op, lane := j.lane, route := j.route
    payload := if j.op = 6 then List.replicate 32 0 else (s.core g).read j.addr 32
    last := if j.left = 1 then some j.idx else none }

/-- What is left of a send after one flit or word. -/
def SendJob.rest (j : SendJob) : Option SendJob :=
  if j.left ≤ 1 then none else some { j with left := j.left - 1, addr := j.addr + 32 * j.stride }

/-- The ejection unit, whose port goes first, has taken the bank of a send's read in this clock cycle (R72). -/
def Core.bankTaken (c : Core) (clock : Nat) (j : SendJob) : Bool :=
  (j.op ≠ 6 || j.spineTag.isSome) && areaOf j.addr = .localStore && c.lsAt = some (clock, bankOf j.addr)

/-- One flit enters the injection queue of 8, or one word the tile's spine drop queue of 16 words.  A read that meets a bank conflict waits
for a cycle and is counted (R72). -/
def State.sendCycle (s : State) (g : Nat) : State :=
  let c := s.core g
  match c.outFlits, c.send with
  | f :: t, _ =>
    if 8 ≤ c.inj.length then s else s.updCore g (fun c => { c with outFlits := t, inj := c.inj ++ [(s.injectAt g, f)] })
  | [], none => s
  | [], some j =>
    if c.bankTaken s.clock j then s.inc (.core g) core.LS_CONFLICT_CNT 1 else
    match j.spineTag with
    | none =>
      if 8 ≤ c.inj.length then s else
      s.updCore g (fun c => { c with send := j.rest, inj := c.inj ++ [(s.injectAt g, s.sendFlit g j)] })
    | some tag =>
      let t := tileOf g
      if 16 ≤ (s.tile t).dropQ.length then s else
      let s := (s.updTile t (fun x => { x with dropQ := x.dropQ ++ [⟨(s.corePart g).getD 0, g, tag, c.read j.addr 32⟩] })).updCore g (fun c =>
        { c with send := j.rest })
      if j.left ≤ 1 then s.finishAt g j.idx (s.cycOf g) else s

/-- One schedule cycle of a core. -/
def State.coreCycle (s : State) (g : Nat) : State :=
  ((((s.windowCycle g).undefinedOp g).sendCycle g).settle g).fetchOne g

/-! ### Result words (R257) -/

/-- Places the elements of an EMBED word pair at their offset. -/
def placeVals (l : List F32) (off : Nat) (vs : List F32) : List F32 :=
  let l := l ++ List.replicate (off + vs.length - l.length) 0
  l.take off ++ vs ++ l.drop (off + vs.length)

/-- A result word, with its second half for EMBED, at the control tile: it waits for its tick to become final. -/
def State.resultWord (s : State) (p tag : Nat) (bs : List Byte) : State :=
  let w (i n : Nat) : Nat := leNat ((bs.drop i).take n)
  let lane := w 0 1
  match (s.lane p lane).handle with
  | none => s
  | some h =>
    let pos := w 4 4
    let ke := (s.part p).table.countP (fun x => x.isExtra && x.lane = lane && x.handle = h && x.atSummit (s.img p))
    let r : Result := { handle := h, kind := tag / 4096, lane := lane, pos := pos, ke := ke }
    let add (r : Result) : State := s.updPart p (fun x => { x with results := x.results ++ [r] })
    match tag / 4096 with
    | 1 => add { r with value := w 8 4, logp := BitVec.ofNat 32 (w 12 4), stop := bit (w 16 1) 0 }
    | 2 => add { r with value := (s.req h).toks.getD (pos + 1) 0, logp := BitVec.ofNat 32 (w 8 4) }
    | 3 =>
      let vs : List F32 := (List.range 8).map (fun i => BitVec.ofNat 32 (w (8 + 4 * i) 4))
      let same (x : Result) : Bool := x.kind = 3 && x.handle = h
      if (s.part p).results.any same then
        s.updPart p (fun x => { x with results := x.results.map (fun r => if same r then { r with vals := placeVals r.vals (w 1 3) vs } else r) })
      else add { r with vals := placeVals [] (w 1 3) vs }
    | 4 => add r
    | _ => s

/-- A tile's drop queue: its oldest word, with the second word of an EMBED pair, leaves for the control tile (R161; log 41).  A word whose
partition ID is not that of the tile's partition is discarded (R19). -/
def State.dropCycle (s : State) (t : Nat) : State :=
  match (s.tile t).dropQ with
  | [] => s
  | w :: rest =>
    if s.tilePart t ≠ some w.part then s.updTile t (fun x => { x with dropQ := rest })
    else if w.tag / 4096 ≠ 3 then (s.updTile t (fun x => { x with dropQ := rest })).resultWord w.part w.tag w.bytes else
    match splitFirst (fun (e : SpineWord) => decide (e.core = w.core)) rest with
    | some (a, e, b) => (s.updTile t (fun x => { x with dropQ := a ++ b })).resultWord w.part w.tag (w.bytes ++ e.bytes)
    | none => s

/-! ### Partitions (R27, R28, R38) -/

/-- The schedule of a running tick waits: at cycle 12 for finality, at the end of the body for its reports, at its end for the boundary
(log 40). -/
def State.waits (s : State) (p : Nat) : Bool :=
  let x := s.part p
  (x.cyc = 12 && !x.finalDone) || (x.cyc + 108 = s.periodOf p && !(x.bodyDone && x.commitDone)) ||
    tickLen (s.periodOf p) x.stretch ≤ x.wall

/-- One schedule cycle at the cores of a partition. -/
def State.partCores' (s : State) (p : Nat) : State :=
  (s.cores.map (·.1)).foldl (fun s g => if s.corePart g = some p then s.coreCycle g else s) s

/-- One cycle at the drop queues of a partition: the spines run in hold cycles and holds too (R38). -/
def State.spineCycle (s : State) (p : Nat) : State := (s.part p).tiles.foldl State.dropCycle s

/-- One clock cycle of a partition: a schedule cycle or a hold cycle of its tick, or one cycle of a drain or a hold. -/
def State.partCycle (s : State) (p : Nat) : State :=
  let count (left : Nat) (k : Nat → GenPhase) : State :=
    s.updPart p (fun x => { x with phase := k (left - 1), wall := x.wall + 1, sched := x.sched + 1 })
  match (s.part p).phase with
  | .stopped => s.updPart p (fun x => { x with sched := x.sched + 1 })
  | .drain left => count left .drain
  | .fault left => count left .fault
  | .boundaryHold left => (count left .boundaryHold).spineCycle p
  | .running =>
    if s.waits p then s
    else if !s.steps p then (s.spineCycle p).updPart p (fun x => { x with wall := x.wall + 1 })
    else ((s.partCores' p).spineCycle p).updPart p (fun x => { x with cyc := x.cyc + 1, wall := x.wall + 1, sched := x.sched + 1 })

/-- What a partition's loader and the generator do in one cycle; a hold for dead cores that is due starts with it (R295). -/
def State.cycleOf (s : State) (p : Nat) : State :=
  let s := if (s.part p).job.isSome then s.pumpLoad p else s
  if s.holdDue p then s.startHold p else s.partCycle p

/-- One cycle of the main clock has passed. -/
def State.countClock (s : State) : State := { s with clock := s.clock + 1 }

/-- One millisecond has passed. -/
def State.countMs (s : State) : State := { s with ms := s.ms + 1 }

/-- The microseconds since POWER_GOOD and the millisecond clock (R242, R453). -/
def State.timeCycle (s : State) : State :=
  let s := s.countClock
  let s := if s.clock % 2500 = 0 ∧ s.flag .sps sps.POWER_GOOD then s.updSps (fun x => { x with micros := x.micros + 1 }) else s
  if s.clock % 2500000 = 0 then s.countMs else s

/-- One cycle of the main clock, with no command in it. -/
def clockCycle (s : State) : State :=
  (rmbAll.foldl State.rmbCycle ((List.range 12).foldl State.cycleOf s)).shutdownCheck.timeCycle

end Sys2Proof.Machine
end

