-- ==== Sys2Proof/Machine/Dispatch.lean ====
section
/-! DEFINITION. What each command does: one arm per constructor of Instr. -/

namespace Sys2Proof.Machine

/-- The effect of a command on everything but the queue. -/
def exec (i : Instr) (s : State) : Host.Outcome State Fault Refusal :=
  match i with
  | .tickBoundary p skew => Sys2Proof.Machine.execTickBoundary p skew s
  | .tickFinality p => Sys2Proof.Machine.execTickFinality p s
  | .replayBoundary p ue => Sys2Proof.Machine.execReplayBoundary p ue s
  | .commitPhase p logits lost => Sys2Proof.Machine.execCommitPhase p logits lost s
  | .bodyEnd p => Sys2Proof.Machine.execBodyEnd p s
  | .period p v => Sys2Proof.Machine.execPeriod p v s
  | .stretchCeil p v => Sys2Proof.Machine.execStretchCeil p v s
  | .stretchCeilRaiseApply p => Sys2Proof.Machine.execStretchCeilRaiseApply p s
  | .tickLo p => Sys2Proof.Machine.execTickLo p s
  | .retireWithoutEffect g => Sys2Proof.Machine.execRetireWithoutEffect g s
  | .commandRetire g => Sys2Proof.Machine.execCommandRetire g s
  | .slabReadPortStart g => Sys2Proof.Machine.execSlabReadPortStart g s
  | .apassTree g u => Sys2Proof.Machine.execApassTree g u s
  | .apassSkew g u => Sys2Proof.Machine.execApassSkew g u s
  | .accDrain g u => Sys2Proof.Machine.execAccDrain g u s
  | .accBase g => Sys2Proof.Machine.execAccBase g s
  | .edgeCfg g => Sys2Proof.Machine.execEdgeCfg g s
  | .attQload g u => Sys2Proof.Machine.execAttQload g u s
  | .attStream g u => Sys2Proof.Machine.execAttStream g u s
  | .attFinish g => Sys2Proof.Machine.execAttFinish g s
  | .wuAdd g f u => Sys2Proof.Machine.execWuAdd g f u s
  | .wuMul g f u => Sys2Proof.Machine.execWuMul g f u s
  | .wuFma g f u => Sys2Proof.Machine.execWuFma g f u s
  | .wuMax g f u => Sys2Proof.Machine.execWuMax g f u s
  | .wuExp g f u => Sys2Proof.Machine.execWuExp g f u s
  | .wuRsqrt g f u => Sys2Proof.Machine.execWuRsqrt g f u s
  | .wuRecip g f u => Sys2Proof.Machine.execWuRecip g f u s
  | .wuSilu g f u => Sys2Proof.Machine.execWuSilu g f u s
  | .wuRope g f half u => Sys2Proof.Machine.execWuRope g f half u s
  | .wuReduce g f u => Sys2Proof.Machine.execWuReduce g f u s
  | .wuCvt g u => Sys2Proof.Machine.execWuCvt g u s
  | .wuSpdelta g xlen u => Sys2Proof.Machine.execWuSpdelta g xlen u s
  | .wuCopy g u => Sys2Proof.Machine.execWuCopy g u s
  | .send g u => Sys2Proof.Machine.execSend g u s
  | .sendMc g u => Sys2Proof.Machine.execSendMc g u s
  | .sendRed g u => Sys2Proof.Machine.execSendRed g u s
  | .sendSpine g u => Sys2Proof.Machine.execSendSpine g u s
  | .winOpen g => Sys2Proof.Machine.execWinOpen g s
  | .winClose g => Sys2Proof.Machine.execWinClose g s
  | .winWait g => Sys2Proof.Machine.execWinWait g s
  | .semSignal g => Sys2Proof.Machine.execSemSignal g s
  | .semWait g => Sys2Proof.Machine.execSemWait g s
  | .kvSetup g => Sys2Proof.Machine.execKvSetup g s
  | .kvMapload g u => Sys2Proof.Machine.execKvMapload g u s
  | .kvSpec g => Sys2Proof.Machine.execKvSpec g s
  | .commit g => Sys2Proof.Machine.execCommit g s
  | .commitKv g => Sys2Proof.Machine.execCommitKv g s
  | .fence g => Sys2Proof.Machine.execFence g s
  | .nop g => Sys2Proof.Machine.execNop g s
  | .mark g => Sys2Proof.Machine.execMark g s
  | .halt g => Sys2Proof.Machine.execHalt g s
  | .slotInjection g => Sys2Proof.Machine.execSlotInjection g s
  | .xorDeltaApply y => Sys2Proof.Machine.execXorDeltaApply y s
  | .flitArrival g port crcBad => Sys2Proof.Machine.execFlitArrival g port crcBad s
  | .displacedForward g => Sys2Proof.Machine.execDisplacedForward g s
  | .displacedTimeout g => Sys2Proof.Machine.execDisplacedTimeout g s
  | .reductionResult g rctx => Sys2Proof.Machine.execReductionResult g rctx s
  | .reductionIncomplete g rctx => Sys2Proof.Machine.execReductionIncomplete g rctx s
  | .write g => Sys2Proof.Machine.execWrite g s
  | .addInt32 g => Sys2Proof.Machine.execAddInt32 g s
  | .xor g => Sys2Proof.Machine.execXor g s
  | .addFp32 g => Sys2Proof.Machine.execAddFp32 g s
  | .maxFp32 g => Sys2Proof.Machine.execMaxFp32 g s
  | .lseMerge g => Sys2Proof.Machine.execLseMerge g s
  | .signal g => Sys2Proof.Machine.execSignal g s
  | .append g => Sys2Proof.Machine.execAppend g s
  | .bulk g => Sys2Proof.Machine.execBulk g s
  | .memReq m crcBad => Sys2Proof.Machine.execMemReq m crcBad s
  | .memData m crcBad u => Sys2Proof.Machine.execMemData m crcBad u s
  | .earlyFlitRelease g => Sys2Proof.Machine.execEarlyFlitRelease g s
  | .bulkRetry p tid => Sys2Proof.Machine.execBulkRetry p tid s
  | .saddleChannelFail t e ch lock => Sys2Proof.Machine.execSaddleChannelFail t e ch lock s
  | .saddleSpareSwap t e => Sys2Proof.Machine.execSaddleSpareSwap t e s
  | .scheduleReadStart m ch u => Sys2Proof.Machine.execScheduleReadStart m ch u s
  | .scheduleRelease m ch => Sys2Proof.Machine.execScheduleRelease m ch s
  | .memChannelFail m ch lock => Sys2Proof.Machine.execMemChannelFail m ch lock s
  | .stackRefresh m ch => Sys2Proof.Machine.execStackRefresh m ch s
  | .regCmdWrite m => Sys2Proof.Machine.execRegCmdWrite m s
  | .regCmdInvalidate m => Sys2Proof.Machine.execRegCmdInvalidate m s
  | .zeroFillDone m => Sys2Proof.Machine.execZeroFillDone m s
  | .setKind m v => Sys2Proof.Machine.execSetKind m v s
  | .exportDescriptor t d => Sys2Proof.Machine.execExportDescriptor t d s
  | .stageIn m cmd bytes u => Sys2Proof.Machine.execStageIn m cmd bytes u s
  | .stageOut m cmd u => Sys2Proof.Machine.execStageOut m cmd u s
  | .load m cmd u => Sys2Proof.Machine.execLoad m cmd u s
  | .importRange m cmd u => Sys2Proof.Machine.execImportRange m cmd u s
  | .copy m cmd u => Sys2Proof.Machine.execCopy m cmd u s
  | .zero m cmd u => Sys2Proof.Machine.execZero m cmd u s
  | .pageMoverDone m u => Sys2Proof.Machine.execPageMoverDone m u s
  | .stackTempReading m temp => Sys2Proof.Machine.execStackTempReading m temp s
  | .deepPageMove m g page tid region offset record => Sys2Proof.Machine.execDeepPageMove m g page tid region offset record s
  | .deepPageLive m g entry record => Sys2Proof.Machine.execDeepPageLive m g entry record s
  | .loadImage p d => Sys2Proof.Machine.execLoadImage p d s
  | .loadEnd p => Sys2Proof.Machine.execLoadEnd p s
  | .migrationRound p => Sys2Proof.Machine.execMigrationRound p s
  | .repairCut p => Sys2Proof.Machine.execRepairCut p s
  | .spareClear y => Sys2Proof.Machine.execSpareClear y s
  | .cmdPi p v => Sys2Proof.Machine.execCmdPi p v s
  | .cplCi p v => Sys2Proof.Machine.execCplCi p v s
  | .arm p => Sys2Proof.Machine.execArm p s
  | .intAddr p v => Sys2Proof.Machine.execIntAddr p v s
  | .commandFetch p entry => Sys2Proof.Machine.execCommandFetch p entry s
  | .submit p d => Sys2Proof.Machine.execSubmit p d s
  | .pause p => Sys2Proof.Machine.execPause p s
  | .resume p d => Sys2Proof.Machine.execResume p d s
  | .cancel p => Sys2Proof.Machine.execCancel p s
  | .release p => Sys2Proof.Machine.execRelease p s
  | .keyLoad p record => Sys2Proof.Machine.execKeyLoad p record s
  | .keyClear p => Sys2Proof.Machine.execKeyClear p s
  | .attest p => Sys2Proof.Machine.execAttest p s
  | .heldCompletionWrite p => Sys2Proof.Machine.execHeldCompletionWrite p s
  | .elasticScan p spill => Sys2Proof.Machine.execElasticScan p spill s
  | .lanePrime p lane => Sys2Proof.Machine.execLanePrime p lane s
  | .outputRecordWrite p => Sys2Proof.Machine.execOutputRecordWrite p s
  | .kvExportDone p h => Sys2Proof.Machine.execKvExportDone p h s
  | .ttlExpire p h => Sys2Proof.Machine.execTtlExpire p h s
  | .slackSweep p => Sys2Proof.Machine.execSlackSweep p s
  | .pairEn p v => Sys2Proof.Machine.execPairEn p v s
  | .draft p => Sys2Proof.Machine.execDraft p s
  | .spur p => Sys2Proof.Machine.execSpur p s
  | .ventCmdBind p => Sys2Proof.Machine.execVentCmdBind p s
  | .ventCmdUnbind p => Sys2Proof.Machine.execVentCmdUnbind p s
  | .aliveLoss g => Sys2Proof.Machine.execAliveLoss g s
  | .phaseLoss stack phase excursion => Sys2Proof.Machine.execPhaseLoss stack phase excursion s
  | .heartbeat c => Sys2Proof.Machine.execHeartbeat c s
  | .heartbeatTimeout c => Sys2Proof.Machine.execHeartbeatTimeout c s
  | .faultCompletion p => Sys2Proof.Machine.execFaultCompletion p s
  | .powerOn clk fails => Sys2Proof.Machine.execPowerOn clk fails s
  | .clkRetry clk fails => Sys2Proof.Machine.execClkRetry clk fails s
  | .vinSample vin current => Sys2Proof.Machine.execVinSample vin current s
  | .powerDown => Sys2Proof.Machine.execPowerDown s
  | .computeSwitchClose t ok => Sys2Proof.Machine.execComputeSwitchClose t ok s
  | .shutdown => Sys2Proof.Machine.execShutdown s
  | .thermalUpdate tIn => Sys2Proof.Machine.execThermalUpdate tIn s
  | .diodeReading t => Sys2Proof.Machine.execDiodeReading t s
  | .baseCapture t => Sys2Proof.Machine.execBaseCapture t s
  | .captureEnd t => Sys2Proof.Machine.execCaptureEnd t s
  | .phOffline v => Sys2Proof.Machine.execPhOffline v s
  | .cartridgeSelfTest stack phase => Sys2Proof.Machine.execCartridgeSelfTest stack phase s
  | .conversionResult pg rawA rawB => Sys2Proof.Machine.execConversionResult pg rawA rawB s
  | .refSel pg v => Sys2Proof.Machine.execRefSel pg v s
  | .refRdy pg => Sys2Proof.Machine.execRefRdy pg s
  | .swStart pg => Sys2Proof.Machine.execSwStart pg s
  | .calStart pg => Sys2Proof.Machine.execCalStart pg s
  | .rmbTimer pg k => Sys2Proof.Machine.execRmbTimer pg k s
  | .snapshotStart p => Sys2Proof.Machine.execSnapshotStart p s
  | .epochEnd t => Sys2Proof.Machine.execEpochEnd t s
  | .portTrain n d => Sys2Proof.Machine.execPortTrain n d s
  | .trainingTimeout n => Sys2Proof.Machine.execTrainingTimeout n s
  | .downRetry n d => Sys2Proof.Machine.execDownRetry n d s
  | .dataFlit n fseq ack vc cr ackv good corr bytes => Sys2Proof.Machine.execDataFlit n fseq ack vc cr ackv good corr bytes s
  | .idleFlit n ack vc cr ackv corr => Sys2Proof.Machine.execIdleFlit n ack vc cr ackv corr s
  | .nak n fseq ack vc cr ackv corr => Sys2Proof.Machine.execNak n fseq ack vc cr ackv corr s
  | .ackTimeout n => Sys2Proof.Machine.execAckTimeout n s
  | .blockLockLoss n => Sys2Proof.Machine.execBlockLockLoss n s
  | .retrain n => Sys2Proof.Machine.execRetrain n s
  | .retrainTimeout n active => Sys2Proof.Machine.execRetrainTimeout n active s
  | .mmioWr n tag addr v => Sys2Proof.Machine.execMmioWr n tag addr v s
  | .mmioRd n tag addr => Sys2Proof.Machine.execMmioRd n tag addr s
  | .snpInv n addr => Sys2Proof.Machine.execSnpInv n addr s
  | .cmp n tag status => Sys2Proof.Machine.execCmp n tag status s
  | .data n tag status bytes => Sys2Proof.Machine.execData n tag status bytes s
  | .intHoldoffExpire p => Sys2Proof.Machine.execIntHoldoffExpire p s
  | .bringup d => Sys2Proof.Machine.execBringup d s
  | .firmwareObjectStage bytes => Sys2Proof.Machine.execFirmwareObjectStage bytes s
  | .activateFirmware kind healthy => Sys2Proof.Machine.execActivateFirmware kind healthy s
  | .roleSwap p => Sys2Proof.Machine.execRoleSwap p s
  | .siteUpdateDrain m => Sys2Proof.Machine.execSiteUpdateDrain m s
  | .svnCommit c => Sys2Proof.Machine.execSvnCommit c s
  | .journalRecordDurable ok => Sys2Proof.Machine.execJournalRecordDurable ok s
  | .compaction => Sys2Proof.Machine.execCompaction s
  | .reading f => Sys2Proof.Machine.execReading f s
  | .signed f => Sys2Proof.Machine.execSigned f s
  | .log f => Sys2Proof.Machine.execLog f s
  | .cert f => Sys2Proof.Machine.execCert f s
  | .status f => Sys2Proof.Machine.execStatus f s
  | .reqSigned => Sys2Proof.Machine.execReqSigned s
  | .reqLog => Sys2Proof.Machine.execReqLog s
  | .reqCert => Sys2Proof.Machine.execReqCert s
  | .intervalSign mwhImp mwhRev => Sys2Proof.Machine.execIntervalSign mwhImp mwhRev s
  | .tallyHoldupSave => Sys2Proof.Machine.execTallyHoldupSave s
  | .sealOpen => Sys2Proof.Machine.execSealOpen s
  | .sealClosed => Sys2Proof.Machine.execSealClosed s
  | .fwChange bytes => Sys2Proof.Machine.execFwChange bytes s
  | .shareUpdate pinMwh => Sys2Proof.Machine.execShareUpdate pinMwh s
  | .moduleReset => Sys2Proof.Machine.execModuleReset s
  | .clockLoss => Sys2Proof.Machine.execClockLoss s
  | .create p => Sys2Proof.Machine.execCreate p s
  | .destroy p => Sys2Proof.Machine.execDestroy p s
  | .teardownDone p => Sys2Proof.Machine.execTeardownDone p s
  | .en pg v => Sys2Proof.Machine.execEn pg v s
  | .partitionStartDone p f => Sys2Proof.Machine.execPartitionStartDone p f s
  | .drainDone p => Sys2Proof.Machine.execDrainDone p s
  | .softReset pg => Sys2Proof.Machine.execSoftReset pg s
  | .budget t v => Sys2Proof.Machine.execBudget t v s
  | .arrayDefectPolicy g v => Sys2Proof.Machine.execArrayDefectPolicy g v s
  | .progBase g v => Sys2Proof.Machine.execProgBase g v s
  | .errInject pg v => Sys2Proof.Machine.execErrInject pg v s
  | .firstValid pg => Sys2Proof.Machine.execFirstValid pg s
  | .lock pg => Sys2Proof.Machine.execLock pg s
  | .injLock pg => Sys2Proof.Machine.execInjLock pg s
  | .htDataLo p => Sys2Proof.Machine.execHtDataLo p s
  | .flogData0 c => Sys2Proof.Machine.execFlogData0 c s
  | .seqLastLo => Sys2Proof.Machine.execSeqLastLo s
  | .registerWrite addr v => Sys2Proof.Machine.execRegisterWrite addr v s
  | .tileFault t cause => Sys2Proof.Machine.execTileFault t cause s
  | .routerParityFailure g => Sys2Proof.Machine.execRouterParityFailure g s
  | .siteControllerFailure m => Sys2Proof.Machine.execSiteControllerFailure m s
  | .mgtRstNRelease clk fails => Sys2Proof.Machine.execMgtRstNRelease clk fails s
  | .pwrFailRestart clk fails => Sys2Proof.Machine.execPwrFailRestart clk fails s
  | .shutdownTimeout => Sys2Proof.Machine.execShutdownTimeout s
  | .tallyLinkTimeout => Sys2Proof.Machine.execTallyLinkTimeout s
  | .healthyStartTimeout kind => Sys2Proof.Machine.execHealthyStartTimeout kind s
  | .msfReady m => Sys2Proof.Machine.execMsfReady m s
  | .portConfigRecordWrite bytes => Sys2Proof.Machine.execPortConfigRecordWrite bytes s

end Sys2Proof.Machine
end

