-- ==== Sys2Proof/Safety.lean ====
section
/-! DEFINITION. The notions in which statements about the engine are made: canonical tables, fuses that only burn, frames, and a
core's command as it is taken and done. -/

namespace Sys2Proof.Machine

/-! ### Invariants -/

/-- The three memories of a core are canonical. -/
def Core.memWf (c : Core) : Bool := Memory.wf c.mem && Memory.wf c.bank0 && Memory.wf c.bank1

/-- The fuses of `g` are those of `f`, but for revoked keys added and minimum SVNs raised (R389, R413). -/
structure Fuses.Burnt (f g : Fuses) : Prop where
  serial : g.serial = f.serial
  grade : g.grade = f.grade
  suffixT : g.suffixT = f.suffixT
  routing : g.routing = f.routing
  columns : g.columns = f.columns
  hashes : g.hashes = f.hashes
  theta : g.theta = f.theta
  vnom : g.vnom = f.vnom
  seed : g.seed = f.seed
  revoked : ∀ i, f.revoked.testBit i = true → g.revoked.testBit i = true
  svn : ∀ i, f.svn.getD i 0 ≤ g.svn.getD i 0

/-- The tables of the state are canonical, and the memories of every core listed. -/
structure State.Canon (s : State) : Prop where
  regs : Table.wf 0 s.regs = true
  cores : Table.wf {} s.cores = true
  mems : ∀ g, (s.core g).memWf = true
  routers : Table.wf {} s.routers = true
  tiles : Table.wf {} s.tiles = true
  crags : Table.wf {} s.crags = true
  saddles : Table.wf {} s.saddles = true
  sites : Table.wf {} s.sites = true
  parts : Table.wf {} s.parts = true
  reqs : Table.wf {} s.reqs = true
  rmbs : Table.wf {} s.rmbs = true
  ports : Table.wf {} s.ports = true
  ctls : Table.wf {} s.ctls = true
  ssbs : Table.wf {} s.ssbs = true
  faultMap : Table.wf 0 s.faultMap = true

/-! ### Frames -/

/-- `t` differs from `s` in the record of core `g` alone, which is now `c`. -/
structure State.CoreTo (s : State) (g : Nat) (c : Core) (t : State) : Prop where
  here : t.core g = c
  others : ∀ h, h ≠ g → t.core h = s.core h
  rest : { t with cores := s.cores } = s

/-- The pages that show core `g`: its window, the core windows of its tile, and its crag. -/
def ownPage (g : Nat) (p : Page) : Prop := p = .core g ∨ p = .coreWin (tileOf g) ∨ p = cragPage (cragOf g)

/-- `t` differs from `s` at most in core `g`: its record, its crag's bus, the pages that show it, events reported and free values used. -/
structure State.LocalTo (g : Nat) (s t : State) : Prop where
  cores : ∀ h, h ≠ g → t.core h = s.core h
  crags : ∀ y, y ≠ cragOf g → t.crag y = s.crag y
  regs : ∀ (q : Page) (f : Field), (∀ p, ownPage g p → q.id ≠ p.id) → f.off < 4096 → f.lsb < 32 → t.rd q f = s.rd q f
  rest : { t with regs := s.regs, cores := s.cores, crags := s.crags, sent := s.sent, fresh := s.fresh } = s

/-! ### Commands of a core (R74, R75) -/

/-- Core `g` issues its oldest command `e`, of opcode `op` and unit `un`, in this cycle. -/
structure State.Takes (s : State) (g op : Nat) (un : Unit4) (e : CmdEntry) : Prop where
  oldest : s.issuable g = some e
  opcode : cOp e.word = op
  unit : unitOf op = some un
  accepts : (s.core g).accepts un (s.cycOf g) = true

/-- The core with the cycle's issue place taken. -/
def Core.issuedIn (c : Core) (cyc : Nat) : Core := { c with issuedAt := some cyc }

/-- The core with command `idx` issued and done at schedule cycle `d`. -/
def Core.doneIn (c : Core) (idx d : Nat) : Core :=
  { c with queue := c.queue.map (fun e => if e.idx = idx then { e with issued := true, wait := false, doneAt := some d } else e) }

/-- The core with command `idx` issued and not done: as a barrier, or waiting for the slab read port. -/
def Core.openIn (c : Core) (idx : Nat) (barrier wait : Bool) : Core :=
  { c with queue := c.queue.map (fun e =>
      if e.idx = idx then { e with issued := true, barrier := barrier, wait := wait, upset := .none } else e) }

/-- The core of a command that the sequencer of one core takes, retires or starts (R73 to R78); none for every other command. -/
def coreOf : Instr → Option Nat
  | .retireWithoutEffect g | .commandRetire g | .slabReadPortStart g | .accBase g | .edgeCfg g | .attFinish g | .winOpen g | .winClose g
  | .winWait g | .semSignal g | .semWait g | .kvSetup g | .kvSpec g | .commit g | .commitKv g | .fence g | .nop g | .mark g | .halt g => some g
  | .apassTree g _ | .apassSkew g _ | .accDrain g _ | .attQload g _ | .attStream g _ | .wuCopy g _ | .send g _ | .sendMc g _ | .sendRed g _
  | .sendSpine g _ | .kvMapload g _ => some g
  | .wuAdd g _ _ | .wuMul g _ _ | .wuFma g _ _ | .wuMax g _ _ | .wuExp g _ _ | .wuRsqrt g _ _ | .wuRecip g _ _ | .wuSilu g _ _
  | .wuReduce g _ _ | .wuSpdelta g _ _ => some g
  | .wuRope g _ _ _ | .wuCvt g _ => some g
  | _ => none

/-- The byte ranges of its core's memory, as (address, bytes), that a core's command stores to when it has its effect: those of its
destination operand (R77, R78, R115, R285); none for a command that stores nothing. -/
def storesTo (s : State) (c : Instr) : List (Nat × Nat) :=
  let of (g : Nat) (f : Nat → List (Nat × Nat)) : List (Nat × Nat) :=
    match s.issuable g with
    | some e => f e.word
    | none => []
  match c with
  | .accDrain g _ => of g (fun w => if cLow w then [] else (List.range (cNv w)).map (fun v =>
      (cA w + v * cStride w * 16, (arraysOf (cArrays w)).length * drainSize (cFmt w))))
  | .attFinish g => of g (fun w => [(cA w, ((s.core g).heads.map (fun h => (if bit w 0 then 32 else 0) + 2 * h.o.length)).sum)])
  | .wuAdd g f _ | .wuMul g f _ | .wuFma g f _ | .wuMax g f _ | .wuExp g f _ | .wuRsqrt g f _ | .wuRecip g f _ | .wuSilu g f _ =>
    of g (fun w => [(cDst w, vecBytes f.dBf (cLen w))])
  | .wuRope g f _ _ => of g (fun w => [(cDst w, vecBytes f.dBf (cLen w))])
  | .wuReduce g _ _ => of g (fun w => [(cDst w, 4)])
  | .wuCvt g _ => of g (fun w => [(cDst w, cvtBytes (cvtFmts w).2 (cLen w))])
  | .wuSpdelta g _ _ => of g (fun w => [(cDst w, 512)])
  | .wuCopy g _ => of g (fun w => [(cB w, 32 * cLen w)])
  | .slabReadPortStart g =>
    match (s.core g).queue.find? (fun e => e.wait) with
    | some e => if unitOf (cOp e.word) = some .wide then [(cB e.word, 32 * cLen e.word)] else []
    | none => []
  | _ => []

/-! ### Frames of the commands -/

/-- A field of the state: every one of State but the queue of commands. -/
inductive StateField where
  | regs | clock | cores | routers | links | tiles | crags | saddles | sites | parts | reqs | rmbs | sps | ports | writes
  | reads | ctls | ssbs | nor | fuses | tally | faultMap | faultGen | faultLog | faultSeq | order | ms | sent | fresh
  deriving DecidableEq, Repr

/-- Field `k` is the same in both states. -/
def State.kept (s t : State) : StateField → Prop
  | .regs => t.regs = s.regs
  | .clock => t.clock = s.clock
  | .cores => t.cores = s.cores
  | .routers => t.routers = s.routers
  | .links => t.links = s.links
  | .tiles => t.tiles = s.tiles
  | .crags => t.crags = s.crags
  | .saddles => t.saddles = s.saddles
  | .sites => t.sites = s.sites
  | .parts => t.parts = s.parts
  | .reqs => t.reqs = s.reqs
  | .rmbs => t.rmbs = s.rmbs
  | .sps => t.sps = s.sps
  | .ports => t.ports = s.ports
  | .writes => t.writes = s.writes
  | .reads => t.reads = s.reads
  | .ctls => t.ctls = s.ctls
  | .ssbs => t.ssbs = s.ssbs
  | .nor => t.nor = s.nor
  | .fuses => t.fuses = s.fuses
  | .tally => t.tally = s.tally
  | .faultMap => t.faultMap = s.faultMap
  | .faultGen => t.faultGen = s.faultGen
  | .faultLog => t.faultLog = s.faultLog
  | .faultSeq => t.faultSeq = s.faultSeq
  | .order => t.order = s.order
  | .ms => t.ms = s.ms
  | .sent => t.sent = s.sent
  | .fresh => t.fresh = s.fresh

/-- What serving a ring entry may change beside the registers. -/
def StateField.served : List StateField := [.parts, .reqs, .ports, .writes, .reads, .sent]
/-- What a fault record may change. -/
def StateField.recorded : List StateField := [.nor, .faultMap, .faultGen, .faultLog, .faultSeq]
/-- What a fault that ends or holds a partition may change beside the registers. -/
def StateField.faulted : List StateField := [.cores, .routers, .links, .tiles, .crags, .sites, .fresh] ++ StateField.served ++ StateField.recorded

/-- The fields of the state that a command may change; it keeps every other (with the queue, which no command's meaning changes). -/
def mayChange : Instr → List StateField
  | .tickFinality .. | .aliveLoss .. | .computeSwitchClose .. | .tileFault .. | .routerParityFailure ..
  | .siteControllerFailure .. => [.regs] ++ StateField.faulted
  | .tickBoundary .. | .replayBoundary .. => [.regs, .rmbs] ++ StateField.faulted
  | .commitPhase .. | .bodyEnd .. => [.regs, .cores, .parts, .sent]
  | .period .. | .tickLo .. | .slackSweep .. | .pairEn .. | .softReset .. | .errInject .. => [.regs, .sent]
  | .stretchCeil .. | .stretchCeilRaiseApply .. | .intAddr .. | .ventCmdBind .. | .destroy .. => [.regs, .parts]
  | .retireWithoutEffect .. | .commandRetire .. => [.regs, .cores]
  | .slabReadPortStart .. | .xorDeltaApply .. | .spareClear .. => [.regs, .cores, .crags]
  | .apassTree .. | .apassSkew .. | .accBase .. | .edgeCfg .. | .attQload .. | .attStream .. | .send .. | .sendMc ..
  | .sendRed .. | .sendSpine .. | .winOpen .. | .winClose .. | .winWait .. | .semSignal .. | .semWait .. | .kvSetup ..
  | .kvMapload .. | .kvSpec .. | .commit .. | .commitKv .. | .fence .. | .nop .. | .mark .. | .halt .. => [.regs, .cores, .sent]
  | .accDrain .. | .attFinish .. | .wuAdd .. | .wuMul .. | .wuFma .. | .wuMax .. | .wuExp .. | .wuRsqrt .. | .wuRecip ..
  | .wuSilu .. | .wuRope .. | .wuReduce .. | .wuCvt .. | .wuSpdelta .. | .wuCopy .. | .earlyFlitRelease .. => [.regs, .cores, .crags, .sent]
  | .slotInjection .. => [.regs, .cores, .routers, .links, .parts, .sent]
  | .flitArrival .. => [.regs, .cores, .routers, .links, .saddles, .sites, .parts, .sent]
  | .displacedForward .. | .reductionResult .. => [.regs, .cores, .routers, .links, .sent]
  | .displacedTimeout .. => [.regs, .routers, .sent]
  | .reductionIncomplete .. => [.regs, .routers, .parts, .sent]
  | .write .. | .addInt32 .. | .xor .. | .addFp32 .. | .maxFp32 .. | .lseMerge .. | .signal .. | .append .. | .draft .. =>
    [.regs, .cores, .crags, .parts, .sent]
  | .bulk .. => [.regs, .cores, .routers, .links, .crags, .sites, .parts, .sent]
  | .scheduleRelease .. => [.regs, .links, .sites, .sent]
  | .memReq .. => [.regs, .links, .saddles, .sites, .sent]
  | .memData .. => [.regs, .links, .saddles, .sites, .parts, .sent]
  | .bulkRetry .. => [.regs, .routers, .sites, .parts]
  | .saddleChannelFail .. => [.regs, .saddles] ++ StateField.faulted
  | .saddleSpareSwap .. => [.regs, .saddles, .parts, .sent, .fresh] ++ StateField.recorded
  | .scheduleReadStart .. | .stackTempReading .. => [.regs, .sites, .sent]
  | .memChannelFail .. => [.regs, .sites, .parts, .sent]
  | .stackRefresh .. => [.regs, .sites]
  | .regCmdWrite .. | .regCmdInvalidate .. => [.regs, .sites, .parts]
  | .zeroFillDone .. | .siteUpdateDrain .. => [.regs, .sites]
  | .setKind .. => [.regs, .sent]
  | .cplCi .. | .budget .. | .arrayDefectPolicy .. | .progBase .. | .firstValid .. | .lock .. | .injLock .. => [.regs]
  | .exportDescriptor .. => [.routers, .parts]
  | .stageIn .. | .stageOut .. | .load .. | .importRange .. | .copy .. | .zero .. => [.regs, .sites, .parts, .sent]
  | .pageMoverDone .. => [.regs, .cores, .sites, .parts, .sent]
  | .deepPageMove .. => [.routers, .sites, .parts]
  | .deepPageLive .. => [.regs, .cores, .crags, .sites, .reqs]
  | .loadEnd .. | .teardownDone .. => [.regs, .cores, .routers, .links, .tiles, .crags, .sites, .fresh] ++ StateField.served
  | .loadImage .. => [.regs, .cores, .routers, .tiles, .crags, .sites, .fresh] ++ StateField.served
  | .migrationRound .. => [.routers, .parts]
  | .lanePrime .. => [.regs, .cores, .crags, .parts]
  | .repairCut .. => [.regs, .cores, .routers, .tiles, .saddles, .parts]
  | .arm .. | .portTrain .. | .trainingTimeout .. | .downRetry .. | .retrainTimeout .. | .intHoldoffExpire .. =>
    [.regs, .parts, .ports, .writes, .reads, .sent]
  | .commandFetch .. | .kvExportDone .. | .roleSwap .. => [.regs, .fresh] ++ StateField.served
  | .submit .. => [.regs, .cores, .crags, .sites, .order, .fresh] ++ StateField.served
  | .pause .. | .cancel .. | .release .. | .heldCompletionWrite .. | .outputRecordWrite .. | .ttlExpire .. | .faultCompletion .. =>
    [.regs] ++ StateField.served
  | .resume .. | .elasticScan .. => [.regs, .cores, .crags, .sites, .order, .fresh] ++ StateField.served
  | .keyLoad .. | .keyClear .. => [.regs, .sites, .fresh] ++ StateField.served
  | .attest .. => [.regs, .ssbs, .nor, .fresh] ++ StateField.served
  | .cmdPi .. | .spur .. | .blockLockLoss .. | .retrain .. => [.regs, .parts, .sent]
  | .ventCmdUnbind .. => [.parts]
  | .phaseLoss .. => [.regs, .sps, .ctls] ++ StateField.faulted
  | .heartbeat .. => [.ctls]
  | .heartbeatTimeout .. => [.regs, .tiles, .rmbs, .sps, .ctls, .tally] ++ StateField.faulted
  | .powerOn .. | .clkRetry .. | .mgtRstNRelease .. | .pwrFailRestart .. =>
    [.regs, .tiles, .sites, .parts, .rmbs, .sps, .ctls, .sent, .fresh] ++ StateField.recorded
  | .clockLoss .. => [.regs, .sps, .ctls] ++ StateField.faulted
  | .vinSample .. => [.regs, .sps] ++ StateField.faulted
  | .powerDown .. =>
    [.regs, .cores, .routers, .links, .tiles, .crags, .saddles, .sites, .parts, .reqs, .rmbs, .sps, .ports, .writes, .reads, .ctls, .ssbs] ++ StateField.recorded
  | .drainDone .. | .shutdown .. | .moduleReset .. | .shutdownTimeout .. => [.regs, .sps, .ssbs] ++ StateField.faulted
  | .thermalUpdate .. => [.regs, .tiles, .parts, .sps, .sent, .fresh]
  | .diodeReading .. => [.regs, .tiles] ++ StateField.faulted
  | .baseCapture .. => [.regs, .tiles]
  | .captureEnd .. => [.regs, .tiles, .nor, .sent, .fresh]
  | .phOffline .. => [.regs, .sps, .sent]
  | .cartridgeSelfTest .. => [.sps, .faultMap, .faultGen]
  | .conversionResult .. => [.regs, .tiles, .parts, .rmbs, .nor, .sent, .fresh]
  | .refSel .. => [.regs, .rmbs]
  | .calStart .. => [.regs, .rmbs, .nor]
  | .refRdy .. | .swStart .. | .rmbTimer .. | .snapshotStart .. => [.regs, .parts, .rmbs, .nor, .sent, .fresh]
  | .epochEnd .. => [.regs, .parts, .rmbs, .sent, .fresh]
  | .dataFlit .. | .mmioWr .. | .registerWrite .. => [.regs, .tiles, .rmbs, .sps, .ctls, .ssbs, .fuses, .tally] ++ StateField.faulted
  | .idleFlit .. | .cmp .. => [.regs, .ports, .writes, .reads, .sent]
  | .nak .. => [.regs, .parts, .ports, .writes, .reads, .sent]
  | .ackTimeout .. => [.regs, .parts, .ports, .sent]
  | .mmioRd .. => [.regs, .ports, .nor, .sent]
  | .snpInv .. => [.regs, .ports, .reads, .ctls, .sent]
  | .data .. => [.regs, .ctls, .fresh] ++ StateField.served
  | .bringup .. => [.regs, .cores, .tiles, .saddles, .sites, .parts, .rmbs, .sps, .ctls, .ssbs, .tally, .sent, .fresh] ++ StateField.recorded
  | .firmwareObjectStage .. => [.regs, .nor, .fuses, .sent]
  | .activateFirmware .. => [.regs, .nor, .sent]
  | .svnCommit .. => [.fuses]
  | .journalRecordDurable .. => [.regs, .ssbs, .nor, .sent]
  | .compaction .. | .portConfigRecordWrite .. => [.nor]
  | .reading .. => [.regs, .tally, .sent]
  | .signed .. | .log .. | .cert .. | .status .. | .tallyLinkTimeout .. => [.regs, .tally, .sent]
  | .reqSigned .. | .reqLog .. | .reqCert .. => [.tally, .sent]
  | .intervalSign .. => [.tally, .sent, .fresh]
  | .tallyHoldupSave .. | .sealOpen .. | .sealClosed .. | .fwChange .. => [.tally]
  | .shareUpdate .. => [.regs, .parts, .tally, .fresh]
  | .create .. => [.regs, .tiles, .sites, .parts]
  | .en .. => [.regs, .sites, .rmbs] ++ StateField.served
  | .partitionStartDone .. => [.regs, .cores, .routers, .crags, .sites, .rmbs, .fresh] ++ StateField.served ++ StateField.recorded
  | .htDataLo .. | .flogData0 .. | .seqLastLo .. | .healthyStartTimeout .. => [.regs, .nor, .sent]
  | .msfReady .. => [.regs, .sites, .parts, .sent]

end Sys2Proof.Machine
end

