-- ==== Sys2Proof/Certificates/Slice0/Obligations.lean ====
section
/-! DEFINITION. The statements about the engine: what each command does, what it leaves, and what every step keeps. -/

open Sys2Proof Sys2Proof.Machine

/-- For every command c, state s and queue l: a step of s with c in front of l is the execution of c on s with the queue l. Each row of the table is one
whole, indivisible step.
Rules: 95_what_each_step_holds.md. -/
def Obligations.StepRunsFrontCommand : Prop :=
  ∀ (c : Instr) (s : State) (l : List Instr), step { s with pending := c :: l } = exec c { s with pending := l }

/-- The model's choice (log entry 40): when the queue is empty, a step answers a next state in which the queue is still empty and one more cycle of the
2.5 GHz clock has passed; the fuses, the saddles, the order of admission, the control tiles, the SSBs and the Tally are as before.
Rules: R23, R38. -/
def Obligations.EmptyQueueLetsAClockCyclePass : Prop :=
  ∀ s : State, s.pending = [] → ∃ t, step s = .next t ∧ t.clock = s.clock + 1 ∧ t.pending = [] ∧ t.fuses = s.fuses ∧
    t.saddles = s.saddles ∧ t.order = s.order ∧ t.ctls = s.ctls ∧ t.ssbs = s.ssbs ∧ t.tally = s.tally

/-- In the state after reset the field of any page reads the reset value that its table gives (a value the manual states none for is the model's, as the
log names it), the tables are canonical, no request, lane, link, write or read is in flight, nothing waits in the queue, and no power is good.
Rules: R9, R432, R451. -/
def Obligations.ResetHoldsTheManualsValues : Prop :=
  (∀ (p : Page) (f : Field), f.width ≤ 32 → f.reset < 2 ^ f.width → State.reset.rd p f = f.reset) ∧ State.reset.Canon ∧
  State.reset.pending = [] ∧ State.reset.reqs = [] ∧ State.reset.links = [] ∧ State.reset.writes = [] ∧ State.reset.reads = [] ∧
  State.reset.sent = [] ∧ State.reset.flag .sps sps.POWER_GOOD = false ∧ State.reset.sps.state = .off

/-- From every state whose tables are canonical (keys strictly rising, no entry equal to what an unlisted key reads as: the registers, the local store,
slab and both halves of the input double-buffer of every core, routers, tiles, crags, saddles, sites, partitions, requests, rail monitors, ports,
control tiles, SSBs and the fault map), a step that answers a next state leaves them canonical, whatever commands wait: equal contents are equal data.
Rules: R9, R59, R79, R155, R185, R234, R243, R314. -/
def Obligations.StepKeepsTablesCanonical : Prop :=
  ∀ s t : State, s.Canon → step s = .next t → t.Canon

/-- Whatever the state and the waiting commands, a step that answers a next state keeps the serial number, grade, suffix, routing-only tiles, key hashes,
array columns, thermal baseline, VDD_T trim and device seed of the fuses; a key once revoked stays revoked, and the fused minimum SVN of no kind falls: fuse writes
are irreversible.
Rules: R2, R5, R389, R404. -/
def Obligations.FusesOnlyBurn : Prop :=
  ∀ s t : State, step s = .next t → Fuses.Burnt s.fuses t.fuses

/-- Frame. A command of core g (issued, skipped, retired or started at the slab read port; with its effect, with a step error, or not issuing at all)
leaves every other core's record (memories, accumulators, queues, windows, semaphores) as it was, every other crag's bus, every register field outside
the three pages that show core g (its own window, the core windows of its tile, its crag), and the routers, links, sites, partitions, requests, ports
and every other part of the engine.
Rules: R15, R59, R61, R74, R75, R77, R78, R125. -/
def Obligations.CoreCommandsStayInTheirCore : Prop :=
  ∀ (c : Instr) (g : Nat) (s t : State), coreOf c = some g → exec c s = .next t → s.LocalTo g t

/-- When core g issues it: NOP is done one cycle after issue and does nothing else; COMMIT records its window set [7:0] and is done one cycle after issue;
MARK writes its tag [31:0] and the cycle to the trace registers and is done one cycle after issue, every other register field of the page keeping its
value; FENCE is done in the issue cycle when every earlier command has completed, and otherwise stays open as a barrier; HALT stays open as a barrier, for
it is done on its retirement. Nothing else of the core changes but the issue place of the cycle.
Rules: R74, R75, R78, R79, R139. -/
def Obligations.SequencerCommandsComplete : Prop :=
  (∀ (s : State) g e, s.Takes g 0x81 .sequencer e → ∃ t, exec (.nop g) s = .next t ∧
    s.CoreTo g (((s.core g).issuedIn (s.cycOf g)).doneIn e.idx (s.cycOf g + 1)) t) ∧
  (∀ (s : State) g e, s.Takes g 0x70 .sequencer e → ∃ t, exec (.commit g) s = .next t ∧
    s.CoreTo g (({ (s.core g).issuedIn (s.cycOf g) with commitSets := bits e.word 0 8 } : Core).doneIn e.idx (s.cycOf g + 1)) t) ∧
  (∀ (s : State) g e, s.Takes g 0x82 .sequencer e → ∃ t, exec (.mark g) s = .next t ∧
    t.core g = ((s.core g).issuedIn (s.cycOf g)).doneIn e.idx (s.cycOf g + 1) ∧
    t.rd (.core g) core.TRACE_TAG = bits e.word 0 32 ∧ t.rd (.core g) core.TRACE_CYCLE = s.cycOf g % 2 ^ 16 ∧
    ∀ f, f ≠ core.TRACE_TAG → f ≠ core.TRACE_CYCLE → f ∈ core.fields → t.rd (.core g) f = s.rd (.core g) f) ∧
  (∀ (s : State) g e, s.Takes g 0x80 .sequencer e → ∃ t, exec (.fence g) s = .next t ∧
    s.CoreTo g (let c := ((s.core g).issuedIn (s.cycOf g)).openIn e.idx true false
      if (s.core g).earlierDone e.idx (s.cycOf g) then c.doneIn e.idx (s.cycOf g) else c) t) ∧
  (∀ (s : State) g e, s.Takes g 0xF0 .sequencer e → ∃ t, exec (.halt g) s = .next t ∧
    s.CoreTo g (((s.core g).issuedIn (s.cycOf g)).openIn e.idx true false) t)

/-- When the oldest unissued command of a running core is not selected by its COND bits, and the cycle's issue place is free, it leaves the queue and
takes that place; a send so skipped carries no flits in this tick (its route joins the quiet ones). In the body, when the command at the head of the
queue has issued and completed, or is HALT, it leaves the queue. QFILL then counts the rest and PC_IDX shows the oldest of it. When that command is
HALT the step program ends: nothing more is fetched, and SEQ_STATE reads 2.
Rules: R45, R73, R74, R75, R79. -/
def Obligations.CommandsLeaveTheQueueInOrder : Prop :=
  (∀ (s : State) g e, (s.core g).oldest = some e → s.coreRuns g = true → (s.core g).issuedAt ≠ some (s.cycOf g) →
    (s.core g).selected e.word = false → ∃ t, exec (.retireWithoutEffect g) s = .next t ∧
      (t.core g).queue = (s.core g).queue.filter (fun x => x.idx ≠ e.idx) ∧ (t.core g).issuedAt = some (s.cycOf g) ∧
      (∀ a, (t.core g).byte a = (s.core g).byte a) ∧
      (cOp e.word = 0x30 ∨ cOp e.word = 0x31 ∨ cOp e.word = 0x32 → (t.core g).quiet = addSet (s.core g).quiet [bits e.word 0 8]) ∧
      t.rd (.core g) core.QFILL = (t.core g).queue.length % 128 ∧ t.rd (.core g) core.PC_IDX = (t.core g).pcIdx % 2 ^ core.PC_IDX.width) ∧
  (∀ (s : State) g e l, (s.core g).queue = e :: l → s.coreBody g = true → e.issued = true → (e.done (s.cycOf g) = true ∨ cOp e.word = 0xF0) →
    ∃ t, exec (.commandRetire g) s = .next t ∧ (t.core g).queue = l ∧ t.rd (.core g) core.QFILL = l.length % 128 ∧
      t.rd (.core g) core.PC_IDX = (t.core g).pcIdx % 2 ^ core.PC_IDX.width ∧
      (∀ a, (t.core g).byte a = (s.core g).byte a) ∧
      (cOp e.word = 0xF0 → (t.core g).halted = true ∧ (t.core g).fetching = false ∧ t.rd (.core g) core.SEQ_STATE = 2) ∧
      (cOp e.word ≠ 0xF0 → t.core g = { s.core g with queue := l } ∧
        t.rd (.core g) core.SEQ_STATE = s.rd (.core g) core.SEQ_STATE))

/-- When core g issues it with its reserved bits 0: ACC_BASE sets the window base to its signed [15:0]; EDGE_CFG sets the clip threshold [15:0] and the
widen marking enable [16]; KV_SETUP (SCALE neither 0 nor 255) binds scale, head, K or V, layer and route; KV_SPEC marks the slots it names, and what an
earlier COMMIT_KV of the step proposed for such a slot of a verification pass is nothing; each holds
the array unit for 1 cycle and is done with it. KV_MAPLOAD without AUTO loads LEN entries of 8 bytes from the slab range at A into the page-map cache,
2 cycles each. COMMIT_KV proposes for each binding of the core the current write pointer of its slot's lane, or nothing where SRC is 1 or KV_SPEC
named the slot of a verification pass.
Rules: R78, R89, R96, R115, R120, R122, R124, R277. -/
def Obligations.ArrayConfigurationCommands : Prop :=
  (∀ (s : State) g e, s.Takes g 0x03 .array e → ∃ t, exec (.accBase g) s = .next t ∧
    s.CoreTo g (({ (s.core g).issuedIn (s.cycOf g) with base := sgn 16 (bits e.word 0 16), arrayFree := s.cycOf g + 1 } : Core).doneIn
      e.idx (s.cycOf g + 1)) t) ∧
  (∀ (s : State) g e, s.Takes g 0x04 .array e → ∃ t, exec (.edgeCfg g) s = .next t ∧
    s.CoreTo g (({ (s.core g).issuedIn (s.cycOf g) with clipT := bits e.word 0 16, clipEn := bit e.word 16, arrayFree := s.cycOf g + 1 }
      : Core).doneIn e.idx (s.cycOf g + 1)) t) ∧
  (∀ (s : State) g e, s.Takes g 0x60 .array e → bits e.word 29 3 = 0 → bits e.word 32 64 = 0 → bits e.word 0 8 ≠ 0 → bits e.word 0 8 ≠ 255 →
    ∃ t, exec (.kvSetup g) s = .next t ∧ s.CoreTo g (({ (s.core g).issuedIn (s.cycOf g) with
      kv := some { scale := bits e.word 0 8, head := bits e.word 8 3, isV := bit e.word 11, layer := bits e.word 12 9, route := bits e.word 21 8 },
      arrayFree := s.cycOf g + 1 } : Core).doneIn e.idx (s.cycOf g + 1)) t) ∧
  (∀ (s : State) g e, s.Takes g 0x62 .array e → bits e.word 4 28 = 0 → ∃ t, exec (.kvSpec g) s = .next t ∧
    s.CoreTo g (({ (s.core g).issuedIn (s.cycOf g) with
      slots := (List.range 4).map (fun i => let sl := (s.core g).slots.getD i {}; { sl with spec := sl.spec || bit e.word i }),
      props := (s.core g).props.map (fun x => if bit e.word x.slot && ((s.core g).slots.getD x.slot {}).spurPass then { x with cp := none } else x),
      arrayFree := s.cycOf g + 1 } : Core).doneIn e.idx (s.cycOf g + 1)) t) ∧
  (∀ (s : State) g e, s.Takes g 0x61 .array e → bits e.word 0 32 = 0 → rangeOk [.slabArea] (cA e.word) (8 * cLen e.word) = true →
    ∃ t, exec (.kvMapload g .none) s = .next t ∧
    s.CoreTo g (({ (List.range (cLen e.word)).foldl (fun c i => c.cachePut (leNat (c.read (cA e.word + 8 * i) 8)))
        ((s.core g).issuedIn (s.cycOf g)) with arrayFree := s.cycOf g + 2 * cLen e.word } : Core).doneIn
      e.idx (s.cycOf g + 2 * cLen e.word)) t) ∧
  (∀ (s : State) g e, s.Takes g 0x71 .sequencer e → bits e.word 1 31 = 0 → ∃ t, exec (.commitKv g) s = .next t ∧
    s.CoreTo g (({ (s.core g).issuedIn (s.cycOf g) with props := (s.core g).props ++ (List.range (s.core g).binds.length).map (fun b =>
      { bind := b, slot := cSlot e.word, lane := ((s.core g).slotOf e.word).lane,
        cp := if bit e.word 0 || (((s.core g).slotOf e.word).spurPass && ((s.core g).slotOf e.word).spec) then none
          else some (dirWp (s.core g) (((s.core g).binds.getD b {}).dir) ((s.core g).slotOf e.word).lane) }) } : Core).doneIn
        e.idx (s.cycOf g + 1)) t)

/-- Frame. For each of the 42 commands of core g that answers a next state, with its effect or with a step error: every byte of the core's memory that
lies outside the ranges the command stores to (storesTo: the vectors of ACC_DRAIN at DST + v × OSTRIDE × 16, the output of ATT_FINISH, the destination
of each wide-unit command in its own format, the LEN 32-byte units of WU_COPY) reads after it what it read before; a command that stores nothing
(passes, configuration, sends, windows, semaphores, sequencer commands) changes no byte.
Rules: R59, R71, R77, R78, R96, R106, R115, R118, R285. -/
def Obligations.CommandsStoreOnlyAtTheirDestination : Prop :=
  ∀ (c : Instr) (g : Nat) (s t : State) (a : Nat), coreOf c = some g → exec c s = .next t →
    (∀ r ∈ storesTo s c, a < r.1 ∨ r.1 + r.2 ≤ a) → (t.core g).byte a = (s.core g).byte a

/-- When core g issues it with LEN not 0 and its operand ranges whole in the local store, WU_ADD, WU_MUL and WU_MAX write the elementwise sum, product and
maximum of A and B to the destination, WU_FMA writes a × b + d over its accumulator, and WU_EXP, WU_RSQRT, WU_RECIP and WU_SILU write the function of
A; operands and result are FP32 or BF16 (widened on read, rounded on write). The unit is busy for LEN / 32 cycles, rounded up, and the command is done
3, 3, 3, 4, 8, 12, 10 or 14 cycles later. Nothing else changes.
Rules: R59, R71, R78, R91, R94. -/
def Obligations.WideElementwiseResults : Prop :=
  let done (s : State) (g : Nat) (e : CmdEntry) (lat : Nat) (bs : List Byte) : Core :=
    ({ ((s.core g).issuedIn (s.cycOf g)).write (cDst e.word) bs with wideFree := s.cycOf g + cdiv (cLen e.word) 32 } : Core).doneIn
      e.idx (s.cycOf g + cdiv (cLen e.word) 32 + lat)
  let fits (m : WuFmt) (two : Bool) (w : Nat) : Prop := cLen w ≠ 0 ∧ rangeOk [.localStore] (cA w) (vecBytes m.aBf (cLen w)) = true ∧
    (two = true → rangeOk [.localStore] (cB w) (vecBytes m.bBf (cLen w)) = true) ∧
    rangeOk [.localStore] (cDst w) (vecBytes m.dBf (cLen w)) = true
  let binary (c : Nat → WuFmt → Upset → Instr) (op : Nat) (f : F32 → F32 → F32) : Prop :=
    ∀ (s : State) g e m, s.Takes g op .wide e → fits m true e.word → ∃ t, exec (c g m .none) s = .next t ∧
      s.CoreTo g (done s g e 3 (vecOut m.dBf (List.zipWith f (((s.core g).issuedIn (s.cycOf g)).vec m.aBf (cA e.word) (cLen e.word))
        (((s.core g).issuedIn (s.cycOf g)).vec m.bBf (cB e.word) (cLen e.word))))) t
  let unary (c : Nat → WuFmt → Upset → Instr) (op : Nat) (f : F32 → F32) (lat : Nat) : Prop :=
    ∀ (s : State) g e m, s.Takes g op .wide e → fits m false e.word → ∃ t, exec (c g m .none) s = .next t ∧
      s.CoreTo g (done s g e lat (vecOut m.dBf ((((s.core g).issuedIn (s.cycOf g)).vec m.aBf (cA e.word) (cLen e.word)).map f))) t
  binary .wuAdd 0x20 fadd ∧ binary .wuMul 0x21 fmul ∧ binary .wuMax 0x23 fmax ∧
  unary .wuExp 0x24 fexp 8 ∧ unary .wuRsqrt 0x25 frsqrt 12 ∧ unary .wuRecip 0x26 frecip 10 ∧ unary .wuSilu 0x27 fsilu 14 ∧
  (∀ (s : State) g e m, s.Takes g 0x22 .wide e → fits m true e.word → ∃ t, exec (.wuFma g m .none) s = .next t ∧
    s.CoreTo g (let c := (s.core g).issuedIn (s.cycOf g)
      done s g e 4 (vecOut m.dBf (List.zipWith (fun (x : F32 × F32) d => ffma x.1 x.2 d)
        ((c.vec m.aBf (cA e.word) (cLen e.word)).zip (c.vec m.bBf (cB e.word) (cLen e.word))) (c.vec m.dBf (cDst e.word) (cLen e.word))))) t)

/-- When core g issues it with legal fields and ranges: WU_REDUCE writes the sum or the maximum of LEN elements as one FP32 value; WU_ROPE writes
the rotated pairs (the last element of an odd LEN, which has no partner, is a free value, log entry 9); WU_CVT writes LEN elements in the target format (which
formats its bits [3:0] name is a free value, log entry 10), counts its NaNs and clips, and adds MXFP4 clips to its slot; WU_SPDELTA
adds the sparse product to the 128 destination values, takes the busy cycles of its records, and counts NaNs and a format error; WU_COPY with the slab
read port free moves LEN 32-byte units from the slab to the local store and holds the port for ⌈bytes / 640⌉ cycles. Latencies 9, 6, 4, 6 and 2.
Nothing else changes.
Rules: R59, R71, R78, R81, R91, R93, R96, R103, R284, R285. -/
def Obligations.WideOtherResults : Prop :=
  let done (c : Core) (s : State) (g : Nat) (e : CmdEntry) (busy lat : Nat) : Core :=
    ({ c with wideFree := s.cycOf g + busy } : Core).doneIn e.idx (s.cycOf g + busy + lat)
  let now (s : State) (g : Nat) : Core := (s.core g).issuedIn (s.cycOf g)
  (∀ (s : State) g e m, s.Takes g 0x29 .wide e → cLen e.word ≠ 0 → rangeOk [.localStore] (cA e.word) (vecBytes m.aBf (cLen e.word)) = true →
    rangeOk [.localStore] (cDst e.word) 4 = true → ∃ t, exec (.wuReduce g m .none) s = .next t ∧
    s.CoreTo g (done ((now s g).write (cDst e.word)
      (leBytes 4 (reduceVec (bit e.word 0) ((now s g).vec m.aBf (cA e.word) (cLen e.word))).toNat)) s g e (cdiv (cLen e.word) 32) 9) t) ∧
  (∀ (s : State) g e m h, s.Takes g 0x28 .wide e → cLen e.word ≠ 0 →
    rangeOk [.localStore] (cA e.word) (vecBytes m.aBf (cLen e.word)) = true →
    rangeOk [.localStore] (cB e.word) (vecBytes m.bBf (2 * (cLen e.word / 2))) = true →
    rangeOk [.localStore] (cDst e.word) (vecBytes m.dBf (cLen e.word)) = true → ∃ t, exec (.wuRope g m h .none) s = .next t ∧
    s.CoreTo g (done ((now s g).write (cDst e.word) (vecOut m.dBf (ropeVec h ((now s g).vec m.aBf (cA e.word) (cLen e.word))
      ((now s g).vec m.bBf (cB e.word) (2 * (cLen e.word / 2)))))) s g e (cdiv (cLen e.word) 32) 6) t) ∧
  (∀ (s : State) g e a b, s.Takes g 0x2A .wide e → cvtFmts e.word = (a, b) → cLen e.word ≠ 0 →
    rangeOk [.localStore] (cA e.word) (cvtBytes a (cLen e.word)) = true →
    rangeOk [.localStore] (cDst e.word) (cvtBytes b (cLen e.word)) = true → ∃ t, exec (.wuCvt g .none) s = .next t ∧
    s.CoreTo g (let x := cvtSource (now s g) a (cA e.word) (cLen e.word)
      let y := cvtTarget b x.1
      let k := (s.core g).cnt
      let c : Core := { now s g with cnt := { k with nanIn := k.nanIn + x.2, clip := k.clip + y.2.1, nanOut := k.nanOut + y.2.2 } }
      done ((if b = .mxfp4 then c.addClips (cSlot e.word) y.2.1 false else c).write (cDst e.word) y.1) s g e (cdiv (cLen e.word) 32) 4) t) ∧
  (∀ (s : State) g e x, s.Takes g 0x2B .wide e → cLen e.word ≠ 0 → bits e.word 1 7 = 0 →
    rangeOk [.localStore] (cA e.word) (32 * cLen e.word) = true → rangeOk lsOrBuf (cB e.word) (x * actBytes (bit e.word 0)) = true →
    rangeOk [.localStore] (cDst e.word) 512 = true → ∃ t, exec (.wuSpdelta g x .none) s = .next t ∧
    s.CoreTo g (
      let r := spStream (now s g) (cB e.word) x (bit e.word 0) (4 * cLen e.word) ((now s g).read (cA e.word) (32 * cLen e.word))
        { vals := (now s g).vec false (cDst e.word) 128 }
      let k := (s.core g).cnt
      let c : Core := { now s g with cnt := { k with nanIn := k.nanIn + r.nans, deltaFmt := k.deltaFmt + b2n r.bad } }
      done (c.write (cDst e.word) (vecOut false r.vals)) s g e (max r.cycles 1) 6) t) ∧
  (∀ (s : State) g e, s.Takes g 0x2C .wide e → cLen e.word ≠ 0 → rangeOk [.slabArea] (cA e.word) (32 * cLen e.word) = true →
    rangeOk [.localStore] (cB e.word) (32 * cLen e.word) = true → (s.core g).portReady (s.cycOf g) = true →
    ∃ t, exec (.wuCopy g .none) s = .next t ∧
    s.CoreTo g (done ({ (now s g).write (cB e.word) ((now s g).read (cA e.word) (32 * cLen e.word)) with
      portFree := s.cycOf g + cdiv (32 * cLen e.word) 640 }) s g e (cdiv (32 * cLen e.word) 640) 2) t)

/-- When core g issues a pass whose fields, addresses and arrays pass the checks of R59, R66 and R70: from the local store, or from the slab with the read
port free, it starts at once: every block of the weight stream, every selected array and every vector adds its exact terms to the accumulators (from 0
at the first block with ACC = 0); the array unit is held and the command done T cycles later, T by R65 with Z = 4 in tree mode and 36 in skew mode,
and a slab source holds the read port until the stream has left it; while the port is not free the command waits for it, issued and open. Nothing else
changes.
Rules: R62, R63, R65, R67, R77, R83, R87, R88, R90. -/
def Obligations.ArrayPassesAccumulate : Prop :=
  let starts (c : Nat → Upset → Instr) (op z : Nat) (skew : Bool) : Prop :=
    ∀ (s : State) g e wf, s.Takes g op .array e → weightFmt (cFmt e.word) = some wf → passCheck s g e.word = none →
      let w := e.word
      let a8 : Bool := cAfmt w = 1
      let now : Core := { (s.core g).issuedIn (s.cycOf g) with skew := skew }
      let time := passTime wf a8 (cNblk w) (cNv w) (if cLow w then 512 else 640) z
      (cLow w = true ∨ (s.core g).portReady (s.cycOf g) = true → ∃ t, exec (c g .none) s = .next t ∧
        s.CoreTo g (
          let c := passEffect wf a8 (!cF w) (cA w) (cB w) (cNblk w) (cNv w) (cStride w) (cLfa0 w) ((arraysOf (cArrays w)).map (fun a => (a, s.columns g a))) now
          let port := if cLow w then c.portFree else s.cycOf g + passFill wf 640 + cdiv (cNblk w * streamBytes wf) 640
          ({ c with arrayFree := s.cycOf g + time, portFree := port } : Core).doneIn e.idx (s.cycOf g + time)) t) ∧
      (cLow w = false → (s.core g).portReady (s.cycOf g) = false → ∃ t, exec (c g .none) s = .next t ∧
        s.CoreTo g (now.openIn e.idx false true) t)
  starts .apassTree 0 4 false ∧ starts .apassSkew 1 36 true

/-- NV, a field of 8 bits plus 1, is always 1 to 256. A skew-mode pass with LFA0 + NV above 256, and a tree-mode pass with NV above 4, issues and ends in
step error ILLEGAL (code 3) with the command's index: it is the core's recorded error when the tick had none before, the sequencer stops (SEQ_STATE
3), and no accumulator changes.
Rules: R66. -/
def Obligations.PassOutsideItsRangesIsIllegal : Prop :=
  (∀ w, 1 ≤ cNv w ∧ cNv w ≤ 256) ∧
  (∀ (s : State) g e, (s.Takes g 1 .array e ∧ 256 < cLfa0 e.word + cNv e.word → ∃ t, exec (.apassSkew g .none) s = .next t ∧
      (t.core g).lfa = (s.core g).lfa ∧ ((s.core g).err = none → (∃ x, (t.core g).err = some x ∧ x.code = 3 ∧ x.cmd = e.idx) ∧
        t.rd (.core g) core.SEQ_STATE = 3)) ∧
    (s.Takes g 0 .array e ∧ 4 < cNv e.word → ∃ t, exec (.apassTree g .none) s = .next t ∧
      (t.core g).lfa = (s.core g).lfa ∧ ((s.core g).err = none → (∃ x, (t.core g).err = some x ∧ x.code = 3 ∧ x.cmd = e.idx) ∧
        t.rd (.core g) core.SEQ_STATE = 3)))

/-- When core g issues a drain that passes its checks (fields, addresses, arrays, and a KV_SETUP for a KV drain), it is done and the array unit free 6 + n
× NV cycles after issue, n the arrays selected. Of one vector to the local store, the converted bytes of the selected arrays in ascending order stand
from DST on, accumulators cleared with CLEAR; with KV = 1 the vector leaves as five append flits (descriptor and 128 codes) for the lane and position
of its slot instead, and no byte of memory changes.
Rules: R69, R77, R89, R91, R92, R96, R106, R121, R163. -/
def Obligations.DrainsConvertAndStore : Prop :=
  (∀ (s : State) g e, s.Takes g 2 .array e → drainCheck s g e.word = none → ∃ t, exec (.accDrain g .none) s = .next t ∧
    (t.core g).arrayFree = s.cycOf g + (6 + (arraysOf (cArrays e.word)).length * cNv e.word) ∧
    ∀ x ∈ (t.core g).queue, x.idx = e.idx → x.issued = true ∧
      x.doneAt = some (s.cycOf g + (6 + (arraysOf (cArrays e.word)).length * cNv e.word))) ∧
  (∀ (s : State) g e, s.Takes g 2 .array e → drainCheck s g e.word = none → cNv e.word = 1 → cLow e.word = false →
    areaOf (cA e.word) = .localStore → ∃ t, exec (.accDrain g .none) s = .next t ∧
    s.CoreTo g (
      let n := (arraysOf (cArrays e.word)).length
      let r := drainVector e.word ((s.core g).kv.getD {}).scale ((arraysOf (cArrays e.word)).map (fun a => (a, s.columns g a))) 0
        ((s.core g).issuedIn (s.cycOf g))
      ({ r.1.write (cA e.word) r.2 with arrayFree := s.cycOf g + (6 + n) } : Core).doneIn e.idx (s.cycOf g + (6 + n))) t) ∧
  (∀ (s : State) g e k, s.Takes g 2 .array e → drainCheck s g e.word = none → cNv e.word = 1 → cLow e.word = true →
    (s.core g).kv = some k → ∃ t, exec (.accDrain g .none) s = .next t ∧
    s.CoreTo g (
      let n := (arraysOf (cArrays e.word)).length
      let r := drainVector e.word k.scale ((arraysOf (cArrays e.word)).map (fun a => (a, s.columns g a))) 0 ((s.core g).issuedIn (s.cycOf g))
      let p := (s.corePart g).getD 0
      let sl := r.1.slots.getD (cLfa0 e.word % 4) {}
      let fs := r.1.outFlits ++ appendFlits p ((s.part p).tick % 256) sl.lane sl.pos k r.2
      ({ r.1 with outFlits := fs, arrayFree := s.cycOf g + (6 + n) } : Core).doneIn e.idx (s.cycOf g + (6 + n))) t) ∧
  (∀ p st lane pos k codes, (appendFlits p st lane pos k codes).length = 5)

/-- When core g issues it with legal fields and ranges: ATT_QLOAD loads LEN query heads of 128 BF16 elements with m = −∞, l = 0 and o = 0 and is done 2 +
4 LEN cycles later; ATT_STREAM whose selection is staged, empty, or in the slab with the read port free folds the selected positions tile by tile into
every head, is done 4 cycles after issue for an empty selection and otherwise 7 + max(n × heads, ⌈4096 n / rate⌉) + 12 after it, and else waits for
the port; ATT_FINISH to the local store writes each head's output o / l (256 bytes) or partial triple (288 bytes) and is done 12 + 8 or 9 cycles per
head later. Nothing else changes.
Rules: R109, R114, R115, R116, R117, R118. -/
def Obligations.AttentionEngineCommands : Prop :=
  (∀ (s : State) g e, s.Takes g 0x10 .attention e → bits e.word 16 16 = 0 → 1 ≤ cLen e.word → cLen e.word ≤ 16 →
    rangeOk [.localStore] (cA e.word) (256 * cLen e.word) = true → ∃ t, exec (.attQload g .none) s = .next t ∧
    s.CoreTo g (
      let c := (s.core g).issuedIn (s.cycOf g)
      let d := s.cycOf g + 2 + 4 * cLen e.word
      let q (i : Nat) : List B16 := (List.range 128).map (fun j => BitVec.ofNat 16 (leNat (c.read (cA e.word + 256 * i + 2 * j) 2)))
      let hs : List AttHead := (List.range (cLen e.word)).map (fun i => { q := q i, m := negInf, l := 0, o := List.replicate 128 0 })
      ({ c with tau := BitVec.ofNat 16 (bits e.word 0 16), heads := hs, attFree := d } : Core).doneIn e.idx d) t) ∧
  (∀ (s : State) g e, s.Takes g 0x11 .attention e → bits e.word 24 4 = 0 → rangeOk [.slabArea] (cA e.word) 8224 = true →
    (((s.core g).issuedIn (s.cycOf g)).selection e.word).all (fun k =>
      rangeOk [if bit e.word 31 then .localStore else .slabArea] k.page (pageStride k.heads)) = true →
    let l := ((s.core g).issuedIn (s.cycOf g)).selection e.word
    let n := (tilesOf l).length
    let d := if n = 0 then s.cycOf g + 4
      else s.cycOf g + 7 + max (n * (s.core g).heads.length) (cdiv (n * 4096) (if bit e.word 31 then 512 else 640)) + 12
    ∃ t, exec (.attStream g .none) s = .next t ∧
      ((bit e.word 31 = true ∨ l = [] ∨ (s.core g).portReady (s.cycOf g) = true) → s.CoreTo g (
        let c := streamEffect e.word l ((s.core g).issuedIn (s.cycOf g))
        ({ c with attFree := d, portFree := if bit e.word 31 ∨ n = 0 then c.portFree else s.cycOf g + 7 + cdiv (n * 4096) 640 }
          : Core).doneIn e.idx d) t) ∧
      (bit e.word 31 = false → l ≠ [] → (s.core g).portReady (s.cycOf g) = false →
        s.CoreTo g (((s.core g).issuedIn (s.cycOf g)).openIn e.idx false true) t)) ∧
  (∀ (s : State) g e, s.Takes g 0x12 .attention e → bits e.word 1 31 = 0 →
    rangeOk [.localStore] (cA e.word) ((s.core g).heads.length * (if bit e.word 0 then 288 else 256)) = true →
    ∃ t, exec (.attFinish g) s = .next t ∧ s.CoreTo g (
      let d := s.cycOf g + 12 + (if bit e.word 0 then 9 else 8) * (s.core g).heads.length
      ({ ((s.core g).issuedIn (s.cycOf g)).write (cA e.word) ((s.core g).heads.flatMap (fun h =>
        if bit e.word 0 then tripleBytes h else outBytes h)) with attFree := d } : Core).doneIn e.idx d) t)

/-- When the core runs and the read port is free, the earliest command of its queue that waits for the port starts: a slab copy moves its LEN 32-byte
units to the local store, holds the port for ⌈bytes / 640⌉ cycles and is done 2 cycles after; a pass and a stream start as they do at issue with the
port free, done T cycles (R65) or 7 + max(n × heads, ⌈4096 n / 640⌉) + 12 cycles from now. Nothing else changes.
Rules: R65, R71, R117. -/
def Obligations.SlabReadPortStartsTheEarliestWaiter : Prop :=
  (∀ (s : State) g e, (s.core g).queue.find? (fun e => e.wait) = some e → s.coreRuns g = true → (s.core g).portFree ≤ s.cycOf g →
    (cOp e.word = 0x2C → rangeOk [.localStore] (cB e.word) (32 * cLen e.word) = true → ∃ t, exec (.slabReadPortStart g) s = .next t ∧
      s.CoreTo g (
        let busy := cdiv (32 * cLen e.word) 640
        let c := (s.core g).write (cB e.word) ((s.core g).read (cA e.word) (32 * cLen e.word))
        ({ c with portFree := s.cycOf g + busy, wideFree := s.cycOf g + busy } : Core).doneIn e.idx (s.cycOf g + busy + 2)) t) ∧
    (∀ wf, cOp e.word = 0 ∨ cOp e.word = 1 → cLow e.word = false → weightFmt (cFmt e.word) = some wf → ∃ t, exec (.slabReadPortStart g) s = .next t ∧
      s.CoreTo g (
        let w := e.word
        let a8 : Bool := cAfmt w = 1
        let d := s.cycOf g + passTime wf a8 (cNblk w) (cNv w) 640 (if cOp w = 1 then 36 else 4)
        let c := passEffect wf a8 (!cF w) (cA w) (cB w) (cNblk w) (cNv w) (cStride w) (cLfa0 w)
          ((arraysOf (cArrays w)).map (fun a => (a, s.columns g a))) (s.core g)
        ({ c with arrayFree := d, portFree := s.cycOf g + passFill wf 640 + cdiv (cNblk w * streamBytes wf) 640 } : Core).doneIn e.idx d) t) ∧
    (cOp e.word = 0x11 → bit e.word 31 = false → ∃ t, exec (.slabReadPortStart g) s = .next t ∧
      s.CoreTo g (
        let l := (s.core g).selection e.word
        let n := (tilesOf l).length
        let d := if n = 0 then s.cycOf g + 4 else s.cycOf g + 7 + max (n * (s.core g).heads.length) (cdiv (n * 4096) 640) + 12
        let c := streamEffect e.word l (s.core g)
        ({ c with attFree := d, portFree := if n = 0 then c.portFree else s.cycOf g + 7 + cdiv (n * 4096) 640 } : Core).doneIn e.idx d) t))

/-- When core g issues it with legal fields: WIN_OPEN makes its window OPENED in this tick with base, length, EXPECT and this tick's stamp, COUNT 0,
releases the early flits held under that stamp, drops the due counts of the window and starts the flit counts of its route entries again; WIN_CLOSE marks an open window to close at the end of the
cycle; WIN_WAIT completes in its issue cycle when COUNT has reached EXPECT and else stays open as a barrier; SEM_SIGNAL raises its semaphore by one
below 65,535 and at 65,535 is step error QUEUE; SEM_WAIT stays open as a barrier. WIN_OPEN, WIN_CLOSE and SEM_SIGNAL are done one cycle after issue.
Rules: R59, R74, R78, R135, R136, R137, R141, R144, R162. -/
def Obligations.WindowsAndSemaphores : Prop :=
  (∀ (s : State) g e, s.Takes g 0x40 .sync e → bits e.word 6 2 = 0 → bits e.word 28 4 = 0 → cLen e.word ≠ 0 → cA e.word % 32 = 0 →
    ((s.core g).win (bits e.word 0 6)).openedIn = false → rangeOk [.localStore, .inputBuf, .slabArea] (cA e.word) (32 * cLen e.word) = true →
    ∃ t, exec (.winOpen g) s = .next t ∧
      (let early := ((s.core g).win (bits e.word 0 6)).early.filter (fun f => f.flit.stamp ≠ s.tickOf g % 256)
       (t.core g).win (bits e.word 0 6) = ⟨cA e.word, cLen e.word, bits e.word 8 20, 0, s.tickOf g % 256, .opened, true, false, early⟩) ∧
      (∀ k, k ≠ bits e.word 0 6 → (t.core g).win k = (s.core g).win k) ∧
      (t.core g).rel = (s.core g).rel ++ (((s.core g).win (bits e.word 0 6)).early.filter (fun f => f.flit.stamp = s.tickOf g % 256)).map
        (fun f => { f with since := s.clock + 1 }) ∧
      (t.core g).counts = (s.core g).counts.filter (fun x => x.1 ≠ bits e.word 0 6) ∧
      (t.core g).applied = (s.core g).applied.filter (fun x => rtWid (Table.get 0 (s.router (s.routerOf g)).routes x.1) ≠ bits e.word 0 6) ∧
      ∀ x ∈ (t.core g).queue, x.idx = e.idx → x.doneAt = some (s.cycOf g + 1)) ∧
  (∀ (s : State) g e, s.Takes g 0x41 .sync e → bits e.word 6 26 = 0 → cA e.word = 0 → cLen e.word = 0 →
    ((s.core g).win (bits e.word 0 6)).state = .opened → ((s.core g).win (bits e.word 0 6)).closing = false →
    ∃ t, exec (.winClose g) s = .next t ∧ s.CoreTo g ((((s.core g).issuedIn (s.cycOf g)).updWin (bits e.word 0 6)
      (fun v => { v with closing := true })).doneIn e.idx (s.cycOf g + 1)) t) ∧
  (∀ (s : State) g e, s.Takes g 0x42 .sync e → bits e.word 6 26 = 0 → cA e.word = 0 → cLen e.word = 0 →
    ((s.core g).win (bits e.word 0 6)).openedIn = true → ∃ t, exec (.winWait g) s = .next t ∧ s.CoreTo g (
      let v := (s.core g).win (bits e.word 0 6)
      let c := ((s.core g).issuedIn (s.cycOf g)).openIn e.idx true false
      if v.expect ≤ v.count then c.doneIn e.idx (s.cycOf g) else c) t) ∧
  (∀ (s : State) g e, s.Takes g 0x50 .sync e →
    ((s.core g).sem (bits e.word 0 5) < 65535 → ∃ t, exec (.semSignal g) s = .next t ∧ s.CoreTo g ((((s.core g).issuedIn (s.cycOf g)).setSem
      (bits e.word 0 5) ((s.core g).sem (bits e.word 0 5) + 1)).doneIn e.idx (s.cycOf g + 1)) t) ∧
    (65535 ≤ (s.core g).sem (bits e.word 0 5) → (s.core g).err = none → ∃ t, exec (.semSignal g) s = .next t ∧
      (t.core g).sems = (s.core g).sems ∧ ∃ x, (t.core g).err = some x ∧ x.code = 9)) ∧
  (∀ (s : State) g e, s.Takes g 0x51 .sync e → ∃ t, exec (.semWait g) s = .next t ∧
    s.CoreTo g (((s.core g).issuedIn (s.cycOf g)).openIn e.idx true false) t)

/-- When core g issues it with legal fields and its source range whole in the local store or the input double-buffer, SEND, SEND_MC and SEND_RED give the
send unit LEN flits of the named operation and route, for the lane of the slot (0 with ALL), 32 bytes each from A on at STRIDE × 32 bytes; SEND_SPINE
gives it LEN words with their TAG. The command stays open until its last flit has crossed or its last word is accepted, and the send unit accepts no
other command meanwhile.
Rules: R59, R78, R159, R160, R161. -/
def Obligations.SendsOccupyTheSendUnit : Prop :=
  let flits (c : Nat → Upset → Instr) (op : Nat) : Prop :=
    ∀ (s : State) g e, s.Takes g op .send e → sendCheck e.word = none → ∃ t, exec (c g .none) s = .next t ∧
      (t.core g).accepts .send (s.cycOf g) = false ∧
      s.CoreTo g (
        let lane := if cAll e.word then 0 else ((s.core g).slotOf e.word).lane
        let job : SendJob := ⟨e.idx, cA e.word, max (bits e.word 16 8) 1, cLen e.word, bits e.word 8 4, bits e.word 0 8, lane, none⟩
        ({ (s.core g).issuedIn (s.cycOf g) with send := some job } : Core).openIn e.idx false false) t
  flits .send 0x30 ∧ flits .sendMc 0x31 ∧ flits .sendRed 0x32 ∧
  (∀ (s : State) g e, s.Takes g 0x33 .send e → cLen e.word ≠ 0 → rangeOk lsOrBuf (cA e.word) (32 * cLen e.word) = true →
    ∃ t, exec (.sendSpine g .none) s = .next t ∧
      s.CoreTo g (
        let job : SendJob := ⟨e.idx, cA e.word, 1, cLen e.word, 0, 0, ((s.core g).slotOf e.word).lane, some (bits e.word 0 16)⟩
        ({ (s.core g).issuedIn (s.cycOf g) with send := some job } : Core).openIn e.idx false false) t)

/-- When core g issues a WU_ADD (a wide command), a pass or a send and the hardware finds a weight register parity mismatch, an uncorrectable local store
error or an uncorrectable slab error, the command has none of its effect: the core records step error WREG_PARITY (6), LS_UE (7) or SLAB_UE (8) with
the command's index if it is the first of the tick, SEQ_STATE becomes 3, and no byte of its memory and no accumulator changes. A corrected local store
error adds one to LS_ECC_CORR.
Rules: R62, R72, R75, R79. -/
def Obligations.ACommandThatMeetsAnErrorHasNoEffect : Prop :=
  (∀ (s : State) g e u un code (op : Nat) (c : Instr), s.Takes g op un e → (s.core g).err = none →
    (op, c) ∈ [(0x00, .apassTree g u), (0x01, .apassSkew g u), (0x20, .wuAdd g {} u), (0x30, Instr.send g u)] →
    (u, code) ∈ [(Upset.wregParity, 6), (Upset.lsUe, 7), (Upset.slabUe, 8)] → ∃ t, exec c s = .next t ∧
      (∃ x, (t.core g).err = some x ∧ x.code = code ∧ x.cmd = e.idx) ∧ t.rd (.core g) core.SEQ_STATE = 3 ∧
      (∀ a, (t.core g).byte a = (s.core g).byte a) ∧ (t.core g).lfa = (s.core g).lfa ∧ (t.core g).send = (s.core g).send) ∧
  (∀ (s : State) g e m, s.Takes g 0x20 .wide e → ∃ t, exec (.wuAdd g m .lsCorr) s = .next t ∧
      t.rd (.core g) core.LS_ECC_CORR = (s.rd (.core g) core.LS_ECC_CORR + 1) % 2 ^ 32)

/-- When the oldest flit of core g's ejection queue may be accepted in this clock cycle, carries the operation, and its window is OPENED for this tick
(or, in the grace of cycles 0 to 11, for the tick before) with its offset OFF0 + STRIDE × n inside the window, and the tile is not routing-only (such a
tile's slab holds no data): its payload is written, added, xored or
maximised into the 32 bytes at BASE + 32 × offset; no other byte of the core changes; the flit leaves the queue and takes the cycle's place; the route
entry's count rises by one, and the window's COUNT is due 1, 2, 3, 2 and 3 schedule cycles later. A write in the slab puts its XOR delta on the crag's
bus.
Rules: R125, R137, R138, R140, R142, R162. -/
def Obligations.EjectedWritesAccumulate : Prop :=
  ∀ (s : State) g x rest (op d : Nat) (c : Instr), (s.core g).ej = x :: rest → x.flit.op = op → s.ejectFree g = true → x.since ≤ s.clock →
    (op, d, c) ∈ [(0, 1, .write g), (1, 2, .addInt32 g), (2, 3, .addFp32 g), (3, 2, Instr.xor g), (4, 3, .maxFp32 g)] →
    handling ((s.core g).win (rtWid (s.entryOf x))) x.flit.stamp (s.tickOf g) (s.cycOf g) ∈ [Handling.apply, Handling.applyGrace] →
    let off := rtOff0 (s.entryOf x) + rtStride (s.entryOf x) * (s.core g).appliedN x.key
    let a := ((s.core g).win (rtWid (s.entryOf x))).base + 32 * off
    off < ((s.core g).win (rtWid (s.entryOf x))).len → s.slabDead g = false → ∃ t, exec c s = .next t ∧
      (∀ b, (t.core g).byte b = ((s.core g).write a (accumulate op ((s.core g).recv a 32) x.flit.payload)).byte b) ∧
      (t.core g).ej = rest ∧ (t.core g).ejAt = some s.clock ∧ (t.core g).appliedN x.key = (s.core g).appliedN x.key + 1 ∧
      (t.core g).counts = (s.core g).counts ++ [(rtWid (s.entryOf x), s.schedOf g + d)] ∧
      (areaOf a = .slabArea → cragLocal g ≠ 15 → accumulate op ((s.core g).recv a 32) x.flit.payload ≠ [] →
        (t.crag (cragOf g)).deltas = (s.crag (cragOf g)).deltas ++ [⟨g, a, xorBytes ((s.core g).recv a
          (accumulate op ((s.core g).recv a 32) x.flit.payload).length) (accumulate op ((s.core g).recv a 32) x.flit.payload), s.clock⟩])

/-- For the oldest flit of core g's ejection queue when it may be accepted, in a tile that is not routing-only. LSE_MERGE at an open window: payload 0 with no merge of the window open stores
m and l of the merged triple at the window address and opens a context there with the two factors, COUNT due 12 cycles later; payload f of 1 to 8,
from 12 cycles after, stores its sixteen merged elements at the context's address + f, COUNT due 3 later, and payload 8 closes the context. SIGNAL on
time raises its semaphore by one; a grace or late one is late; an early one raises the pending count, and the third is a fault of the source. APPEND
at an open window: a descriptor that is not refused is taken in; flits 1 to 3 of an append that is to be written or rewritten store their 32 bytes at
their place; flit 4 stores its own, then the trailer entry where the position is the first of its page and, of a written one, the raised write
pointer. Each is due one count later. EARLY_FLIT_RELEASE, when no flit of the queue can be accepted, applies the first released flit at a window still
open for its tick, and takes it as late at any other. XOR_DELTA_APPLY XORs the crag bus's oldest delta
into the parity slab and counts it; the bus is idle after the last.
Rules: R107, R119, R123, R125, R140, R141, R143, R144, R145, R162, R163, R465. -/
def Obligations.MergesSignalsAppendsAndReleases : Prop :=
  (∀ (s : State) g x rest, (s.core g).ej = x :: rest → s.ejectFree g = true → x.since ≤ s.clock → s.slabDead g = false →
    (let s1 := s.updCore g (fun c => { c with ej := rest, ejAt := some s.clock })
     let c := s.core g
     let ent := s.entryOf x
     let w := c.win (rtWid ent)
     let n := c.appliedN x.key
     (handling w x.flit.stamp (s.tickOf g) (s.cycOf g) = .apply →
      (x.flit.op = 5 → n % 9 = 0 → c.merges.find? (fun m => m.wid = rtWid ent) = none → rtOff0 ent + rtStride ent * n < w.len →
        ∃ t, exec (.lseMerge g) s = .next t ∧
          (let a := w.base + 32 * (rtOff0 ent + rtStride ent * n)
           let h := lseHead0 (c.recv a 32) x.flit.payload
           (∀ b, (t.core g).byte b = (c.write a (leBytes 4 h.m.toNat ++ leBytes 4 h.l.toNat)).byte b) ∧ (t.core g).ej = rest ∧
           (t.core g).merges = c.merges ++ [⟨rtWid ent, a, h.m, h.a1, h.a2, s.schedOf g⟩] ∧
           (t.core g).appliedN x.key = n + 1 ∧ (t.core g).counts = c.counts ++ [(rtWid ent, s.schedOf g + 12)])) ∧
      (∀ m, x.flit.op = 5 → n % 9 ≠ 0 → c.merges.find? (fun m => m.wid = rtWid ent) = some m → s.lseWaits g x = false →
        m.addr + 32 * (n % 9) < w.base + 32 * w.len → ∃ t, exec (.lseMerge g) s = .next t ∧
          (let a := m.addr + 32 * (n % 9)
           (∀ b, (t.core g).byte b = (c.write a (lseElems ⟨m.m, 0, m.a1, m.a2⟩ (c.recv a 32) x.flit.payload)).byte b) ∧
           (t.core g).ej = rest ∧
           (t.core g).merges = (if n % 9 = 8 then c.merges.filter (fun y => y.wid ≠ rtWid ent) else c.merges) ∧
           (t.core g).appliedN x.key = n + 1 ∧ (t.core g).counts = c.counts ++ [(rtWid ent, s.schedOf g + 3)])) ∧
      (x.flit.op = 7 → x.flit.nth = 0 → (c.openAppend x).act ≠ .refuse → ∃ t, exec (.append g) s = .next t ∧
        s.CoreTo g (({ c with ej := rest, ejAt := some s.clock, applied := Table.upd 0 c.applied x.key (· + 1),
                              counts := c.counts ++ [(rtWid ent, s.schedOf g + 1)] } : Core).setAppend x (some (c.openAppend x))) t) ∧
      (∀ d, x.flit.op = 7 → c.appendOf x = some d → d.act.stores = true → 1 ≤ x.flit.nth → x.flit.nth ≤ 4 → ∃ t, exec (.append g) s = .next t ∧
        (let c1 := c.write (d.addr + 32 * (x.flit.nth - 1)) x.flit.payload
         let c2 := if d.trailer ≠ 0 then c1.write d.trailer (leBytes 2 (d.scale * 128)) else c1
         let c3 := if d.act = .write then c2.write (dirEntry d.dir d.lane + 4) (leBytes 4 (max (dirWp c2 d.dir d.lane) (d.pos + 1))) else c2
         ∀ b, (t.core g).byte b = (if x.flit.nth = 4 then c3 else c1).byte b) ∧ (t.core g).ej = rest ∧
        (t.core g).counts = c.counts ++ [(rtWid ent, s.schedOf g + 1)])) ∧
     (x.flit.op = 6 →
      (classify x.flit.stamp (s.tickOf g) (s.cycOf g) = .onTime → exec (.signal g) s = .next (s1.raiseSem g (rtSid ent) 0)) ∧
      (classify x.flit.stamp (s.tickOf g) (s.cycOf g) = .grace ∨ classify x.flit.stamp (s.tickOf g) (s.cycOf g) = .late →
        exec (.signal g) s = .next (s1.lateFlit g x)) ∧
      (classify x.flit.stamp (s.tickOf g) (s.cycOf g) = .early →
        (Table.get 0 c.semPend (rtSid ent) < 2 → ∃ t, exec (.signal g) s = .next t ∧ t.rd (.core g) core.EARLY_CNT = (s.rd (.core g) core.EARLY_CNT + 1) % 2 ^ 32 ∧
          t.core g = { c with ej := rest, ejAt := some s.clock,
                              semPend := Table.set 0 c.semPend (rtSid ent) (Table.get 0 c.semPend (rtSid ent) + 1) }) ∧
        (2 ≤ Table.get 0 c.semPend (rtSid ent) → exec (.signal g) s = .next (s1.sourceFault g x 6)))))) ∧
  (∀ (s : State) g x rest, (s.core g).rel = x :: rest → s.ejectFree g = true → x.since ≤ s.clock →
    (∀ y ∈ (s.core g).ej, s.clock < y.since) → s.lseWaits g x = false →
    (let s1 := s.updCore g (fun c => { c with rel := rest, ejAt := some s.clock })
     let v := (s.core g).win (rtWid (s.entryOf x))
     (v.state = .opened ∧ v.stamp = x.flit.stamp → exec (.earlyFlitRelease g) s = .next (s1.applyFlit g x)) ∧
     (¬ (v.state = .opened ∧ v.stamp = x.flit.stamp) → exec (.earlyFlitRelease g) s = .next (s1.lateFlit g x)))) ∧
  (∀ (s : State) y d rest, (s.crag y).deltas = d :: rest → ∃ t, exec (.xorDeltaApply y) s = .next t ∧
    t.core (parityCore y) = (s.core (parityCore y)).write d.addr (xorBytes ((s.core (parityCore y)).recv d.addr d.bytes.length) d.bytes) ∧
    (∀ k, k ≠ parityCore y → t.core k = s.core k) ∧ (t.crag y).deltas = rest ∧
    t.rd (cragPage y) crag.DELTA_CNT = (s.rd (cragPage y) crag.DELTA_CNT + 1) % 2 ^ 32 ∧
    (rest = [] → t.flag (cragPage y) crag.BUS_IDLE = true))

/-- In the body, once a cycle, at the slot entries of this cycle with IN = L (and no reduction) whose LABEL is the ROUTE of the flit at the head of the
injection queue, that flit crosses to every OUT named, with the route entry's OUT_LABEL, and leaves the queue; under an invalid route entry it is
counted as misrouted and goes nowhere; an empty queue at an entry of a route on which no send was skipped is step error SEND_MISS (ERR_CMD by log
entry 76). In a hold cycle no flit is taken from an input port. A flit due at an input port of a router of its partition outside a drain and a hold
cycle: one of a valid entry that is no reduction crosses to every OUT of
its slot entries of this cycle when it has some, comes in time, carries no displaced marker and its route has not been displaced in this tick;
otherwise it is displaced. A reduction operand of the tick, so in time, joins the reduction buffer. A BULK flit joins the bulk buffer; a flit without
a valid entry is counted as misrouted and goes nowhere; one with a CRC error at an edge is counted at its saddle. In a drain a flit is discarded. A
flit that crosses to a neighbour in its tile is at the neighbour's input one cycle later; one that crosses to L joins the ejection queue without the
displaced marker. All this of the state in which the phase FIFO of a saddle's input has taken what is due (at any other input: of the state itself).
Rules: R31, R38, R47, R152, R155, R157, R158, R160, R162, R164, R168, R169. -/
def Obligations.SlotInjectionsAndArrivals : Prop :=
  (∀ (s : State) g p t f rest, s.corePart g = some p → s.inBody p = true → s.usedPort g 16 = false →
    (s.core (s.ejectCore g)).inj = (t, f) :: rest → t ≤ (s.part p).sched → rtRedK ((s.router g).route portL f.route) = 0 →
    let m := ((s.router g).injSlots (s.part p).cyc).filter (fun e => slLabel e = f.route)
    m ≠ [] →
    (rtValid ((s.router g).route portL f.route) = true → exec (.slotInjection g) s = .next (((s.usePorts g (16 :: m.map slOut)).crossAll g
      (m.map slOut) portL f.route (rtOutLabel ((s.router g).route portL f.route)) f).popInj (s.ejectCore g))) ∧
    (rtValid ((s.router g).route portL f.route) = false → exec (.slotInjection g) s =
      .next (((s.usePorts g [16]).meshCount g mesh.MISROUTE_CNT 3).popInj (s.ejectCore g)))) ∧
  (∀ (s : State) g p e, s.corePart g = some p → s.inBody p = true → s.usedPort g 16 = false → (s.core (s.ejectCore g)).inj = [] →
    e ∈ (s.router g).injSlots (s.part p).cyc → (s.core (s.ejectCore g)).quiet.contains (slLabel e) = false →
    exec (.slotInjection g) s = .next (s.stepErr (s.ejectCore g) .sendMiss
      ((s.core (s.ejectCore g)).missCmd (((s.router g).injSlots (s.part p).cyc).map slLabel)))) ∧
  (∀ (s : State) g port bad, s.inHoldCycle ((s.corePart g).getD 0) = true → exec (.flitArrival g port bad) s = .next s) ∧
  (∀ (s s1 : State) g port f late, s.inHoldCycle ((s.corePart g).getD 0) = false →
    let s0 := s.atInput g port
    s0.takeDue g port = some (f, late, s1) → s.rd (.mesh (tileOf g)) mesh.PART_ID = f.part →
    let p := f.part
    let ent := (s.router g).route port f.route
    (s.draining p = true → exec (.flitArrival g port false) s = .next s1) ∧
    (s.draining p = false →
    (f.op = 8 → (s.router g).bulk.length < 4 → ∃ t, exec (.flitArrival g port false) s = .next t ∧
      (t.router g).bulk = (s.router g).bulk ++ [f] ∧ t.links = s1.links) ∧
    (f.op < 8 → f.site = none →
      (rtValid ent = false → ∃ t, exec (.flitArrival g port false) s = .next t ∧ t.links = s1.links ∧ t.routers = s.routers ∧ t.cores = s.cores ∧
        t.rd (.mesh (tileOf g)) mesh.MISROUTE_CNT = (s.rd (.mesh (tileOf g)) mesh.MISROUTE_CNT + 1) % 2 ^ 32) ∧
      (rtValid ent = true → f.part < 12 →
        let moved := late || f.displaced || (s.router g).dispRoutes.contains (port * 256 + f.route)
        (rtRedK ent ≠ 0 → moved = false → f.stamp = (s.part p).tick % 256 → 1 ≤ f.op → f.op ≤ 5 → (s.router g).red.length < 16 →
          ∃ t, exec (.flitArrival g port false) s = .next t ∧ t.links = s1.links ∧ t.cores = s.cores ∧
            (t.router g).red = (s.router g).red ++ [⟨rtRctx ent, port, f, (s.part p).sched⟩]) ∧
        (rtRedK ent = 0 → moved = false → (s.router g).hits (s.part p).cyc port f.route ≠ [] → s.steps p = true →
          exec (.flitArrival g port false) s =
            .next (s1.crossAll g (((s.router g).hits (s.part p).cyc port f.route).map slOut) port f.route (rtOutLabel ent) f)) ∧
        (rtRedK ent = 0 → (moved = true ∨ (s.router g).hits (s.part p).cyc port f.route = []) → (s.router g).disp.length < 8 →
          ∃ t, exec (.flitArrival g port false) s = .next t ∧ t.links = s1.links ∧ t.cores = s.cores ∧
            (t.router g).disp = (s.router g).disp ++ [⟨{ f with displaced := true }, port, (s.part p).sched, portsOf (rtMask ent)⟩] ∧
            (t.router g).dispRoutes.contains (port * 256 + f.route) = true ∧
            t.rd (.mesh (tileOf g)) mesh.DISP_CNT = (s.rd (.mesh (tileOf g)) mesh.DISP_CNT + 1) % 2 ^ 32))))) ∧
  (∀ (s s1 : State) g port f late e, s.inHoldCycle ((s.corePart g).getD 0) = false → inEdge g port = some e → (s.atInput g port).takeDue g port = some (f, late, s1) →
    ∃ t, exec (.flitArrival g port true) s = .next t ∧ t.links = s1.links ∧ t.routers = s.routers ∧ t.cores = s.cores ∧
      t.rd (.saddle (tileOf g) e) saddle.CRC_ERR_CNT = (s.rd (.saddle (tileOf g) e) saddle.CRC_ERR_CNT + 1) % 2 ^ 32) ∧
  (∀ (s : State) g port label out f,
    (∀ o dst pt d, o ≠ portL → hop g o = some (dst, pt, d, none) → (s.cross g o port label out f).links =
      s.links ++ [⟨dst, pt, (s.part f.part).sched + d, { f with route := out }⟩]) ∧
    (cxOf g < 15 → hop g 1 = some (g + 1, 3, 1, none)) ∧ (0 < cyOf g → hop g 0 = some (g - 16, 2, 1, none)) ∧
    (s.ejectCore g = g → (s.core g).ej.length < 8 → ((s.cross g portL port label out f).core g).ej =
      (s.core g).ej ++ [⟨{ f with displaced := false }, g, port, label, s.clock + 1⟩]))

/-- At every router the PART of the flit due at an input port, outside a hold cycle, in which no flit is taken, is compared with PART_ID of its tile. When they differ the flit is discarded there: it
leaves the link, WS_DROP_CNT rises by one, WS_DROP_RTR, WS_DROP_PORT and WS_DROP_PART record it and WS_DROP_VALID is 1; no link, router, core, crag,
site, saddle or partition takes anything, so it is never forwarded, applied or counted. A tile of no partition (PART_ID 15) so discards the flit of
every partition. (All this of the state in which the phase FIFO of a saddle's input has taken what is due; at any other input, of the state itself.)
Rules: R176. -/
def Obligations.WatershedDiscardsForeignFlits : Prop :=
  ∀ (s s1 : State) g port f late, s.inHoldCycle ((s.corePart g).getD 0) = false →
    let s0 := s.atInput g port
    s0.takeDue g port = some (f, late, s1) → s.rd (.mesh (tileOf g)) mesh.PART_ID ≠ f.part →
    ∃ t, exec (.flitArrival g port false) s = .next t ∧ t.links = s1.links ∧ t.routers = s.routers ∧ t.cores = s.cores ∧ t.crags = s.crags ∧
      t.sites = s.sites ∧ t.parts = s0.parts ∧ t.saddles = s.saddles ∧
      (let pg := Page.mesh (tileOf g)
       t.rd pg mesh.WS_DROP_CNT = (s.rd pg mesh.WS_DROP_CNT + 1) % 2 ^ 32 ∧ t.rd pg mesh.WS_DROP_RTR = g % 256 ∧
       t.rd pg mesh.WS_DROP_PORT = port % 8 ∧ t.rd pg mesh.WS_DROP_PART = f.part % 16 ∧ t.flag pg mesh.WS_DROP_VALID = true)

/-- The oldest displaced flit of a router leaves by those of its ports that are free cols in this cycle, with its route entry's OUT_LABEL, and stays for
the others; it leaves the buffer when none is left. A displaced flit that has waited 256 cycles is taken out of the buffer and counted in
DISP_DROP_CNT. When the slot of a reduction's lowest-numbered operand is in this cycle and every operand is there and old enough, the operands leave
the buffer and one flit of their OP and STAMP with the folded payload crosses to the slot's OUTs, one in that cycle; an ADD_INT32 of two operands is their words' sum one
cycle after the later of them. When not every operand is there in that slot, they are discarded, nothing crosses, RED_MISS_CNT rises, and the tick is
failed by the router with code 4. A slot that has been used, or has passed so, does nothing more in that cycle.
Rules: R142, R152, R158, R164, R165, R166, R174. -/
def Obligations.DisplacedFlitsAndReductions : Prop :=
  (∀ (s : State) g d rest, (s.router g).disp = d :: rest → d.outs.filter (s.freePort g) ≠ [] →
    (s.running ((s.corePart g).getD 0) = true → s.steps ((s.corePart g).getD 0) = true) →
    let os := d.outs.filter (s.freePort g)
    let left := d.outs.filter (fun o => !os.contains o)
    exec (.displacedForward g) s = .next (((s.updRouter g (fun r => { r with disp := if left = [] then rest else { d with outs := left } :: rest })).usePorts
      g os).crossAll g os d.port d.flit.route (rtOutLabel ((s.router g).route d.port d.flit.route)) d.flit)) ∧
  (∀ (s : State) g a d b, (s.router g).disp = a ++ d :: b → (∀ x ∈ a, (s.part ((s.corePart g).getD 0)).sched < x.since + 256) →
    d.since + 256 ≤ (s.part ((s.corePart g).getD 0)).sched → ∃ t, exec (.displacedTimeout g) s = .next t ∧ (t.router g).disp = a ++ b ∧
      t.links = s.links ∧ t.cores = s.cores ∧
      t.rd (.mesh (tileOf g)) mesh.DISP_DROP_CNT = (s.rd (.mesh (tileOf g)) mesh.DISP_DROP_CNT + 1) % 2 ^ 32) ∧
  (∀ (s : State) g rctx port label os f fs res cx, s.redSlots g rctx ≠ [] → (s.router g).operands rctx = (port, label) :: os →
    s.redReady g rctx = some (f :: fs, res, cx) → s.redDone g rctx = false → f.flit.op ≠ 5 →
    exec (.reductionResult g rctx) s = .next (((s.markRed g rctx).updRouter g (fun r => { r with
        red := (f :: fs).foldl (fun l x => dropFirst rctx x.port l) r.red, redCtx := r.redCtx.filter (fun c => c.rctx ≠ rctx) })).crossAll g
      ((s.redSlots g rctx).map slOut) port label (rtOutLabel ((s.router g).route port label)) { f.flit with payload := res })) ∧
  (∀ (s : State) g rctx x y, ((s.router g).have rctx) = [some x, some y] → (s.router g).redCtx = [] → x.flit.op = 1 →
    max x.arr y.arr + 1 ≤ (s.part ((s.corePart g).getD 0)).sched →
    s.redReady g rctx = some ([x, y], bytes8 (List.zipWith (fun a b => a + b) (words8 x.flit.payload) (words8 y.flit.payload)), { rctx := rctx, n := 1 })) ∧
  (∀ (s : State) g rctx, s.redSlots g rctx ≠ [] → s.redReady g rctx = none → s.redDone g rctx = false →
    ∃ t, exec (.reductionIncomplete g rctx) s = .next t ∧
    (t.router g).red = (((s.router g).operands rctx).map (·.1)).foldl (fun l o => dropFirst rctx o l) (s.router g).red ∧ t.links = s.links ∧
    t.cores = s.cores ∧ t.rd (.mesh (tileOf g)) mesh.RED_MISS_CNT = (s.rd (.mesh (tileOf g)) mesh.RED_MISS_CNT + 1) % 2 ^ 32 ∧
    (let p := (s.corePart g).getD 0
     (t.part p).routerErrs.contains g = true ∧ (t.part p).failCode = max (s.part p).failCode 4)) ∧
  (∀ (s : State) g rctx, s.redDone g rctx = true → exec (.reductionResult g rctx) s = .next s ∧ exec (.reductionIncomplete g rctx) s = .next s)

/-- Outside a drain, with no displaced flit for a free col, the oldest bulk flit of a router moves on by its port when that is a col, the channel there is
up and the next bulk buffer has a credit: at its destination, in a cycle without another slab write, its 24 bytes go to the slab offset it names and,
with LAST, the completion word goes out; elsewhere it is on the link. With no bulk flit, the next flit of the oldest export so moves, its data read in
a cycle with the slab read port idle; with no export the next flit of the oldest migration copy; and with neither the site's first flit for this router
goes onto its channel in a col with a credit, with the stamp of its injection. A
transfer without a completion 2^20 cycles after it was sent starts again as a whole, a page-mover command once its queue has room. A MEM_REQ flit that a site takes (its stack below 95 °C, not
draining, no zero fill) opens its transfer, with the status it has from the start. A MEM_DATA flit of a transfer of status 0 that the site still serves is written at its place in
the region; the last ends the transfer, with the completion word of its TID, status and count; one of no transfer is counted as misrouted. A flit
that fails its CRC on the way to a site is counted at its channel.
Rules: R33, R169, R171, R172, R173, R174, R188, R197, R200, R202. -/
def Obligations.BulkAndExportTraffic : Prop :=
  (∀ (s : State) g f rest, (s.router g).bulk = f :: rest → (s.running ((s.corePart g).getD 0) = true → s.steps ((s.corePart g).getD 0) = true) →
    (s.router g).disp.any (fun d => d.outs.any (s.freePort g)) = false → s.draining f.part = false →
    let move (o : Nat) := (s.usePorts g [o]).updRouter g (fun r => { r with bulk := rest })
    (s.bulkPort g f = some portL → s.freePort g portL = true → (s.core (s.ejectCore g)).slabAt ≠ some s.clock →
      exec (.bulk g) s = .next ((move portL).bulkWrite g f)) ∧
    (∀ o dst pt d sd, s.bulkPort g f = some o → o ≠ portL → hop g o = some (dst, pt, d, sd) →
      (∀ t e c, sd = some (t, e, c) → s.channelUp t e c = true) → s.freePort g o = true →
      s.bulkCredit dst = true → exec (.bulk g) s = .next ((move o).launch f.part dst pt d f))) ∧
  (∀ (s : State) g x i rest o dst pt d, (s.router g).bulk = [] → (s.router g).exports = (x, i) :: rest →
    (s.running ((s.corePart g).getD 0) = true → s.steps ((s.corePart g).getD 0) = true ∧
      (s.core (s.ejectCore g)).portFree ≤ (s.part ((s.corePart g).getD 0)).cyc) →
    (s.router g).disp.any (fun d => d.outs.any (s.freePort g)) = false →
    let f := exportFlit s g x i
    s.draining f.part = false → s.bulkPort g f = some o → o ≠ portL → hop g o = some (dst, pt, d, none) → s.freePort g o = true →
    s.bulkCredit dst = true →
    exec (.bulk g) s = .next (((s.usePorts g [o]).updRouter g (fun r =>
      { r with exports := if i = x.nflit then rest else (x, i + 1) :: rest })).launch f.part dst pt d f)) ∧
  (∀ (s : State) g c rest o dst pt d, (s.router g).bulk = [] → (s.router g).exports = [] → (s.router g).copies = c :: rest →
    (s.running ((s.corePart g).getD 0) = true → s.steps ((s.corePart g).getD 0) = true ∧
      (s.core (s.ejectCore g)).portFree ≤ (s.part ((s.corePart g).getD 0)).cyc) →
    (s.router g).disp.any (fun d => d.outs.any (s.freePort g)) = false →
    let f := s.copyFlit g c
    s.draining f.part = false → s.bulkPort g f = some o → o ≠ portL → hop g o = some (dst, pt, d, none) → s.freePort g o = true →
    s.bulkCredit dst = true → exec (.bulk g) s = .next (((s.usePorts g [o]).copyNext g c rest).launch f.part dst pt d f)) ∧
  (∀ (s : State) g m a f b, (s.router g).bulk = [] → (s.router g).exports = [] → (s.router g).copies = [] →
    (s.running ((s.corePart g).getD 0) = true → s.steps ((s.corePart g).getD 0) = true) →
    (s.router g).disp.any (fun d => d.outs.any (s.freePort g)) = false → memRouter g = some m →
    (s.site m).bulkOut = a ++ f :: b → (∀ y ∈ a, y.tid % 32 / 2 ≠ cyOf g) → f.tid % 32 / 2 = cyOf g →
    s.siteCol m (f.tid % 32) g f.part = true →
    exec (.bulk g) s = .next ((s.updSite m (fun x => { x with bulkOut := a ++ b })).launch f.part g (5 + f.tid % 2) 11
      { f with stamp := (s.part f.part).tick % 256 })) ∧
  (∀ (s : State) g f, f.bulkOff + 24 ≤ 0x800000 → s.slabDead (s.ejectCore g) = false →
    let t := s.bulkWrite g f
    (∀ b, (t.core (s.ejectCore g)).byte b = ((s.core (s.ejectCore g)).write (0x800000 + f.bulkOff) (f.payload.take 24)).byte b) ∧
    (f.bulkLast = true → t.sent = s.sent ++ [.spineDone (t.primary f.part) f.tid 0 (Table.get 0 (s.router g).tidCnt f.tid + 1)])) ∧
  (∀ (s : State) p a x b, (s.part p).xfers = a ++ x :: b → (∀ y ∈ a, y.cmd.tid ≠ x.cmd.tid) → x.got = none → x.sent + 2 ^ 20 ≤ s.clock →
    (∀ d, x.desc = some d → ∃ t, exec (.bulkRetry p x.cmd.tid) s = .next t ∧ (t.router d.core).exports = (s.router d.core).exports ++ [(d, 0)] ∧
      (t.part p).xfers = a ++ { x with sent := s.clock, got := none } :: b) ∧
    (∀ g c, x.desc = none → x.copy = some (g, c) → ∃ t, exec (.bulkRetry p x.cmd.tid) s = .next t ∧
      (t.router g).copies = (s.router g).copies ++ [c] ∧ (t.part p).xfers = a ++ { x with sent := s.clock, got := none } :: b) ∧
    (x.desc = none → x.copy = none → 64 ≤ (s.site x.site).pm.length → exec (.bulkRetry p x.cmd.tid) s = .next s) ∧
    (x.desc = none → x.copy = none → (s.site x.site).pm.length < 64 → ∃ t, exec (.bulkRetry p x.cmd.tid) s = .next t ∧
      (t.site x.site).pm = (s.site x.site).pm ++ [{ cmd := x.cmd, bytes := x.bytes, inner := true }] ∧
      t.rd (.msite x.site) msite.PM_QFILL = ((s.site x.site).pm.length + 1) % 128 ∧
      (t.part p).xfers = a ++ { x with sent := s.clock, got := none } :: b)) ∧
  (∀ (s s1 : State) m ch f, (s.site m).up = true →
    (s.flag (.msite m) msite.HOT = false → (s.site m).draining = false → (s.site m).zeroing = [] → s.takeSite m 9 = some (ch, f, s1) →
      exec (.memReq m true) s = .next (s1.siteCrc m ch) ∧
      let i := bits (f.payload.getD 3 0).toNat 0 6
      let off := leNat ((f.payload.drop 4).take 4)
      let n := bits (leNat ((f.payload.drop 8).take 2)) 0 12 + 1
      ∃ t, exec (.memReq m false) s = .next t ∧ t.links = s1.links ∧ (t.site m).transfers =
        (s.site m).transfers.filter (fun t => t.tid ≠ f.tid) ++ [⟨f.tid, i, off, n, n, 0, s1.exportStatus m i off n⟩]) ∧
    (s.takeSite m 10 = some (ch, f, s1) →
      (∀ u, exec (.memData m true u) s = .next (s1.siteCrc m ch)) ∧
      (∀ a x b, (s.site m).transfers = a ++ x :: b → (∀ y ∈ a, y.tid ≠ f.tid) → x.tid = f.tid → x.status = 0 →
        s1.exportStatus m x.region x.offset x.nflit = 0 →
        let w := s1.regionWrite m (s1.region m x.region) (32 * (x.offset + (x.nflit - x.left))) f.payload
        (2 ≤ x.left → exec (.memData m false .none) s = .next (w.updSite m (fun y => { y with
          transfers := a ++ { x with left := x.left - 1, written := x.written + 1 } :: b }))) ∧
        (x.left = 1 → exec (.memData m false .none) s = .next (((w.updSite m (fun y => { y with transfers := a ++ b })).storeRecord m x.region x.offset
          x.nflit).spineDone
          f.part f.tid 0 (x.written + 1)))) ∧
      ((∀ y ∈ (s.site m).transfers, y.tid ≠ f.tid) → ∀ u, exec (.memData m false u) s = .next (s1.meshCount (chRouter m 0) mesh.MISROUTE_CNT 3))))

/-- A saddle channel 0 to 5 that loses its lock, or has 3 CRC errors within 2^20 cycles, is declared failed once; as the first of its saddle, and outside
a replay tick, it waits for
the spare, and between two tiles of one partition the swap joins those its generator does at its next drain or boundary hold. In a hold of the
partition the spare takes the channel over: nothing waits any more, and the event is recorded unless it is already, at both ends SPARE_FOR, SWAP_CNT
and error 2 changing first. A stack channel that loses its lock, or had 3 uncorrectable errors or 3 CRC errors within 2^20 cycles, is declared for the next boundary: the
flits in its buffer are lost, and a read so cut short is SITE_UE in this tick. A refresh is one more performed, and of the registers only QMAX of its
channel can rise.
Rules: R169, R191, R193, R199, R300, R307. -/
def Obligations.FailedChannels : Prop :=
  (∀ (s : State) t e ch lock u p, neighbour t e = some u → ch < 6 → (s.saddle (saddleKey t e)).failed = [] →
    (lock = true ∨ 3 ≤ ((s.saddle (saddleKey t e)).crc.filter (fun c => c.1 = ch && decide (s.clock < c.2 + 2 ^ 20))).length) →
    s.tilePart t = some p → s.tilePart u = some p → (s.saddle (saddleKey t e)).unused.contains ch = false → s.inReplay p = false →
    ∃ t', exec (.saddleChannelFail t e ch lock) s = .next t' ∧
      t'.saddle (saddleKey t e) = { s.saddle (saddleKey t e) with failed := [ch], pending := some (ch, (s.part p).tick) } ∧
      t'.part p = { (s.abandonCut (some p)).part p with swapPend := (s.part p).swapPend ++ [(t, e, ch)] }) ∧
  (∀ (s : State) t e c tick u p, (s.saddle (saddleKey t e)).pending = some (c, tick) → neighbour t e = some u → s.tilePart t = some p →
    s.tilePart u = some p → (∃ n, (s.part p).phase = .boundaryHold n) →
    let s1 := (s.updSaddle (saddleKey t e) (fun x => { x with pending := none })).updPart p (fun x => { x with
      swapPend := x.swapPend.filter (fun w => !(saddleKey w.1 w.2.1 = saddleKey t e)) })
    let swap (s : State) (t e : Nat) := ((s.wr (.saddle t e) saddle.SPARE_FOR c).inc (.saddle t e) saddle.SWAP_CNT 1).err (.saddle t e) 2
    (s.mapped 2 (saddleKey t e * 8 + c) = 0 → exec (.saddleSpareSwap t e) s = .next (((swap (swap s1 t e) u ((e + 2) % 4)).noteHold p 2 128 128).record
      { cls := 2, path := 6, part := p, outcome := 0, loc := t, unit := c, tick := tick, hold := 128, intr := 128 }
      [(2, saddleKey t e * 8 + c, 1)] [p])) ∧
    (s.mapped 2 (saddleKey t e * 8 + c) ≠ 0 → exec (.saddleSpareSwap t e) s = .next (swap (swap s1 t e) u ((e + 2) % 4)))) ∧
  (∀ (s : State) m ch lock, (s.chan m ch).failNext = false → s.chFailed m ch = false →
    (lock = true ∨ 3 ≤ ((s.chan m ch).ueTimes.filter (fun t => decide (s.clock < t + 2 ^ 20))).length ∨
      3 ≤ ((s.chan m ch).crcTimes.filter (fun t => decide (s.clock < t + 2 ^ 20))).length) →
    ∃ t, exec (.memChannelFail m ch lock) s = .next t ∧
      t.chan m ch = { s.chan m ch with failNext := true, noLock := (s.chan m ch).noLock || lock, buffer := (s.chan m ch).buffer.map (fun x => (x.1, { x.2 with payload := [] })) } ∧
      ((s.chan m ch).buffer ≠ [] → (t.site m).siteErr = some (max ((s.site m).siteErr.getD 0) 1)) ∧
      ((s.chan m ch).buffer = [] → (t.site m).siteErr = (s.site m).siteErr)) ∧
  (∀ (s : State) m ch, ∃ t, exec (.stackRefresh m ch) s = .next t ∧
    t.chan m ch = { s.chan m ch with refreshes := (s.chan m ch).refreshes + 1 } ∧ (∀ pg f, pg ≠ .mchan m ch → t.rd pg f = s.rd pg f) ∧
    s.rd (.mchan m ch) mchan.QMAX ≤ t.rd (.mchan m ch) mchan.QMAX)

/-- At a site of a running partition, from cycle 12, the first entry of a channel's schedule not yet started whose CYCLE is at most 340 ahead starts while
its flits fit the buffer of 2,048 and no channel that its reads go to then has more than 24 requests of scheduled reads: its flits, one per cycle from CYCLE on, with the entry's LABEL, the tick's stamp and the data of its region, join
the buffer, but for those whose cycle has passed; an entry of an EMPTY or STALL slot sends none. Data of a served region of a whole set, without a key,
without an error and of channels that have their lock, is what the stack holds there. In the cycle of a flit in the buffer, it is on the edge router's input and SCHED_FLITS rises by
one; when a failed channel has lost it, or an entry is due and nothing of it is there, SCHED_LATE_CNT rises.
Rules: R186, R187, R193, R194, R195, R199. -/
def Obligations.SiteStreams : Prop :=
  (∀ (s : State) m ch u p i, s.sitePart m = some p → s.running p = true → (s.site m).up = true → 12 ≤ (s.part p).cyc →
    (List.range (s.chan m ch).sched.length).find? (fun i => (s.chan m ch).waiting i &&
      decide (csCycle ((s.chan m ch).sched.getD i 0) ≤ (s.part p).cyc + 340)) = some i →
    let e := (s.chan m ch).sched.getD i 0
    let sl := s.csDescr m ch e
    (sl.state = .empty ∨ sl.state = .stall → ∃ t, exec (.scheduleReadStart m ch u) s = .next t ∧
      t.chan m ch = { s.chan m ch with started := (s.chan m ch).started ++ [i] }) ∧
    (sl.state ≠ .empty → sl.state ≠ .stall → (s.chan m ch).held + csFlits e ≤ 2048 → 
      (s.readChans m ch).any (fun k => 24 < s.schedReqs m k (s.part p).cyc + csUnits e) = false →
      ∃ t, exec (.scheduleReadStart m ch u) s = .next t ∧
      (t.chan m ch).started = (s.chan m ch).started ++ [i] ∧
      (t.chan m ch).buffer = (s.chan m ch).buffer ++ ((List.range (csFlits e)).map (fun j => (csCycle e + j,
        ({ part := p, stamp := (s.part p).tick % 256, op := 10, lane := if csSrc e = 0 then 0 else sl.lane, route := csLabel e,
           payload := (s.csData m ch e sl u).2.getD j [] } : Flit)))).filter (fun x => (s.part p).cyc ≤ x.1))) ∧
  (∀ (s : State) m ch e sl ri x, s.csWhere m ch e sl = some (ri, x) → s.serves m (s.region m ri) = true →
    (s.site m).zeroing.contains ri = false → s.regionLost m (s.region m ri) = false → (s.region m ri).weight = false →
    (∀ i, i < csFlits e → (s.chan m (s.locate m (s.region m ri) (s.csStep m e x (32 * i))).1).noLock = false) →
    s.csData m ch e sl .none = (s, (List.range (csFlits e)).map (fun i => s.regionRead m (s.region m ri) (s.csStep m e x (32 * i)) 32))) ∧
  (∀ (s : State) m ch p, s.sitePart m = some p → s.steps p = true → (s.site m).up = true →
    (∀ a x b, (s.chan m ch).buffer = a ++ x :: b → (∀ y ∈ a, y.1 ≠ (s.part p).cyc) → x.1 = (s.part p).cyc →
      (x.2.payload = [] → ∃ t, exec (.scheduleRelease m ch) s = .next t ∧ t.chan m ch = { s.chan m ch with buffer := a ++ b } ∧ t.links = s.links ∧
        t.rd (.msite m) msite.SCHED_LATE_CNT = (s.rd (.msite m) msite.SCHED_LATE_CNT + 1) % 2 ^ 32) ∧
      (x.2.payload ≠ [] → ∃ t, exec (.scheduleRelease m ch) s = .next t ∧ t.chan m ch = { s.chan m ch with buffer := a ++ b } ∧
        t.links = s.links ++ [⟨chRouter m ch, chPort ch, (s.part p).sched, x.2⟩] ∧
        t.rd (.mchan m ch) mchan.SCHED_FLITS = (s.rd (.mchan m ch) mchan.SCHED_FLITS + 1) % 2 ^ 32)) ∧
    (∀ i, (∀ y ∈ (s.chan m ch).buffer, y.1 ≠ (s.part p).cyc) → i < (s.chan m ch).sched.length → (s.chan m ch).waiting i = true →
      csCycle ((s.chan m ch).sched.getD i 0) ≤ (s.part p).cyc →
      (s.part p).cyc < csCycle ((s.chan m ch).sched.getD i 0) + csFlits ((s.chan m ch).sched.getD i 0) →
      ∃ t, exec (.scheduleRelease m ch) s = .next t ∧ t.links = s.links ∧ t.sites = s.sites ∧
        t.rd (.msite m) msite.SCHED_LATE_CNT = (s.rd (.msite m) msite.SCHED_LATE_CNT + 1) % 2 ^ 32))

/-- A write of the region table puts REG_DATA into the entry REG_SEL and no other, when neither the old nor the new entry is a DEEP or STACKFED region of
a partition that is not OFF and a VALID one keeps the rules of R185; a VALID region of a MUTABLE set then starts its zero fill with ZERO_BUSY 1. A
locked entry is left, with CFG_LOCKED 1; one that breaks R185 is left, with CFG_REJECT 1. An invalidation clears VALID of an entry that is not locked.
At the end of the oldest zero fill, every byte of a STRIPED region reads 0 and ZERO_BUSY shows whether another is left. SET_KIND takes, for each set
without a VALID region, the bit written. An export descriptor of the tile's partition for a core of its tile is the core's newest export, and is kept for its
retry; one of another partition is discarded.
Rules: R19, R173, R184, R185, R188, R200, R203. -/
def Obligations.RegionTableCommands : Prop :=
  (∀ (s : State) m i, m < 16 → s.rd (.msite m) msite.REG_SEL = i →
    let r := regionOfWord ((List.range 4).foldl (fun a j => a + 2 ^ (32 * j) * s.rd (.msite m) (msite.REG_DATA j)) 0)
    (s.regionLocked (s.region m i) = false → s.regionLocked r = false → (r.valid = true → s.regionOk m i r = true) →
      ∃ t, exec (.regCmdWrite m) s = .next t ∧ t.region m i = r ∧ (∀ k, k ≠ i → t.region m k = s.region m k) ∧
        (r.valid = true → s.setMutable m r.set = true → (t.site m).zeroing = (s.site m).zeroing.filter (· ≠ i) ++ [i] ∧
          t.flag (.msite m) msite.ZERO_BUSY = true)) ∧
    (s.regionLocked (s.region m i) = true ∨ s.regionLocked r = true →
      ∃ t, exec (.regCmdWrite m) s = .next t ∧ t.sites = s.sites ∧ t.flag (.msite m) msite.CFG_LOCKED = true) ∧
    (s.regionLocked (s.region m i) = false → s.regionLocked r = false → r.valid = true → s.regionOk m i r = false →
      ∃ t, exec (.regCmdWrite m) s = .next t ∧ t.sites = s.sites ∧ t.flag (.msite m) msite.CFG_REJECT = true) ∧
    (s.regionLocked (s.region m i) = false → ∃ t, exec (.regCmdInvalidate m) s = .next t ∧
      t.region m i = { s.region m i with valid := false } ∧ ∀ k, k ≠ i → t.region m k = s.region m k)) ∧
  (∀ (s : State) m i rest, (s.site m).zeroing = i :: rest → (s.region m i).single = false → ∃ t, exec (.zeroFillDone m) s = .next t ∧
    (t.site m).zeroing = rest ∧ t.flag (.msite m) msite.ZERO_BUSY = (rest ≠ [] : Bool) ∧ t.region m i = s.region m i ∧
    ∀ ch ∈ s.regionChans m (s.region m i), ∀ o, (s.region m i).base * 4096 ≤ o → o < ((s.region m i).base + (s.region m i).len) * 4096 →
      t.rawByte m ch o = 0) ∧
  (∀ (s : State) m v, s.flag (.msite m) page.LOCK = false → ∃ t, exec (.setKind m v) s = .next t ∧ t.sites = s.sites ∧
    ∀ k, k < 4 → t.setMutable m k = (if (s.site m).regions.any (fun e => e.2.valid && e.2.set = k) then s.setMutable m k else bit v k)) ∧
  (∀ (s : State) t d p, s.tilePart t = some p → d.part ≠ p → exec (.exportDescriptor t d) s = .next s) ∧
  (∀ (s : State) t d p, s.tilePart t = some p → d.part = p → tileOf d.core = t → d.nflit ≠ 0 → (s.part p).xfers.any (fun x => x.cmd.tid = d.tid) = false →
    ∃ s', exec (.exportDescriptor t d) s = .next s' ∧ (s'.router d.core).exports = (s.router d.core).exports ++ [(d, 0)] ∧
      (s'.part p).xfers.getLast? = some { site := d.site, cmd := { tid := d.tid }, desc := some d, expect := d.nflit, sent := s.clock })

/-- A command that comes to a page mover that may run, with an empty queue, is kept by its initiator for its retry and runs at once. With a served range
of the right kind, a loaded key for LOAD, no lost set and no read error: STAGE_IN writes the spine data as delivered; STAGE_OUT sends the range as stored; LOAD sends
the decrypted range, and IMPORT the range in plain form, as BULK flits for the core and slab offset, COPY writes the source's bytes at the
destination, and ZERO writes zeros; the units moved are its count. A source line that cannot be read is status 5, and nothing is counted. A range not valid is status 2, of another owner 1, and nothing moves. The oldest
command that has run leaves the queue and its completion word goes out with its TID, status and count.
Rules: R172, R173, R187, R189, R190, R191, R193, R201. -/
def Obligations.PageMoverCommands : Prop :=
  (∀ (s : State) m p (c : PmCmd) bytes u op i, (op, i) ∈ [(1, Instr.stageIn m c bytes u), (2, .stageOut m c u), (3, .load m c u), (4, .importRange m c u),
      (5, .copy m c u), (6, .zero m c u)] → (s.site m).pm = [] → (s.site m).draining = false → s.sitePart m = some p → s.pmFree m = true →
    (s.part p).xfers.any (fun x => x.cmd.tid = c.tid) = false →
    let d : PmCmd := { c with op := op }
    let j : PmJob := { cmd := d, bytes := if op = 1 then bytes else [], upset := u }
    let k := if op = 3 ∨ op = 4 then (32 * c.length + 23) / 24 else c.length
    let s0 := s.addXfer p { site := m, cmd := d, bytes := if op = 1 then bytes else [], expect := k }
    let s1 := ((s0.updSite m (fun x => { x with pm := x.pm ++ [j] })).wr (.msite m) msite.PM_QFILL 1).noteQueue m (s0.writeChans m (s0.region m c.region)) 0
    exec i s = .next ((s1.pmExec m j).1.updSite m (fun x => { x with pm := [(s1.pmExec m j).2] }))) ∧
  (∀ (s : State) m (j : PmJob),
    let c := j.cmd
    let r := s.region m c.region
    let n := 32 * c.length
    let done (st k : Nat) : PmJob := { j with ran := true, status := st, count := k }
    let p := (s.sitePart m).getD 0
    let run := bulkRun p ((s.part p).tick % 256) c.tid c.core (8 * c.slab)
    let out (s : State) (fs : List Flit) := s.updSite m (fun y => { y with bulkOut := y.bulkOut ++ fs })
    let unit (i : Nat) : Nat := 32 * c.offset + 32 * i
    (s.pmStatus m c = 0 → 2 ≤ c.op → c.op ≤ 5 → (s.sourceLines m r c.length unit j.upset).2 ≠ [] → (s.pmExec m j).2 = done 5 0) ∧
    (s.pmStatus m c = 0 → j.upset = .none → (s.sourceLines m r c.length unit .none).2 = [] →
      (c.op = 1 → s.pmExec m j = (((s.touchRegion m c.region).regionWrite m r (32 * c.offset) (j.bytes.take n)).updSite m (fun y => { y with
        stagedAt := addRange y.stagedAt c.region (32 * c.offset) (32 * c.offset + min n j.bytes.length) }), done 0 c.length)) ∧
      (c.op = 2 → s.pmExec m j = (s.emit (.spineData (s.primary p) c.tid (s.regionRead m r (32 * c.offset) n)), done 0 c.length)) ∧
      (c.op = 3 → s.pmExec m j = (out (s.inc (.xts m) xts.DEC_UNITS (unitsOf (32 * c.offset) n).length)
        (run (s.regionPlain m r ((s.siteKey m r.keySlot).getD 0) (32 * c.offset) n)), done 0 (run (s.regionPlain m r ((s.siteKey m
          r.keySlot).getD 0) (32 * c.offset) n)).length)) ∧
      (c.op = 4 → s.pmExec m j = (out s (run (s.regionRead m r (32 * c.offset) n)), done 0 (run (s.regionRead m r
        (32 * c.offset) n)).length)) ∧
      (c.op = 5 → s.pmExec m j = (s.regionWrite m (s.region m c.dstRegion) (32 * c.dstOffset) (s.regionRead m r (32 * c.offset) n), done 0 c.length)) ∧
      (c.op = 6 → s.pmExec m j = (s.regionWrite m r (32 * c.offset) (List.replicate n 0), done 0 c.length))) ∧
    (r.valid = false → s.pmExec m j = (s, done 2 0)) ∧
    (r.valid = true → s.serves m r = false → s.pmExec m j = (s.ownerMiss m, done 1 0))) ∧
  (∀ (s : State) m u j rest, (s.site m).pm = j :: rest → j.ran = true → (s.site m).draining = false → s.pmFree m = false →
    (s.part ((s.sitePart m).getD 0)).job = none → ∃ t, exec (.pageMoverDone m u) s = .next t ∧ (t.site m).pm = rest ∧
      t.sent = s.sent ++ [.spineDone (t.primary ((t.sitePart m).getD 0)) j.cmd.tid j.status j.count] ∧ t.rd (.msite m) msite.PM_QFILL = rest.length % 128)

/-- A reading shows in STACK_TEMP. REFRESH_X2 is 1 from 85 °C on and 0 below 82, HOT 1 from 95 on and 0 below 92, and between the two each keeps its
value; HOT_FAIL is 1 from the tenth reading in a row of 105 or more, and 0 below 95. A committed page of the slab that goes to the stack is exported,
as one transfer or two of at most 4,096 flits, its record is VALID with its region and offset, and its deep directory entry names the record from which
its lane's list starts. At a boundary a STORED record becomes LIVE, the page-list entry holds the record's index, and one page more is free.
Rules: R131, R197, R198, R200, R202. -/
def Obligations.StackTemperatureAndDeepPages : Prop :=
  (∀ (s : State) m (temp : Int), ∃ t, exec (.stackTempReading m temp) s = .next t ∧
    t.rd (.msite m) msite.STACK_TEMP = (temp % 256).toNat ∧
    t.flag (.msite m) msite.REFRESH_X2 = (if 85 ≤ temp then true else if temp < 82 then false else s.flag (.msite m) msite.REFRESH_X2) ∧
    t.flag (.msite m) msite.HOT = (if 95 ≤ temp then true else if temp < 92 then false else s.flag (.msite m) msite.HOT) ∧
    (105 ≤ temp → 9 ≤ (s.site m).hotCnt → t.flag (.msite m) msite.HOT_FAIL = true) ∧
    (temp < 95 → t.flag (.msite m) msite.HOT_FAIL = false) ∧ (temp < 105 → (t.site m).hotCnt = 0)) ∧
  (∀ (s : State) m g page tid region offset rec0 p b, s.corePart g = some p →
    let ent := leNat ((s.core g).read page 8)
    let n := pageStride (pmHeads ent) / 32
    bit ent 63 = true → bit ent 28 = false → (s.core g).pageBinding ent = some b → (s.core g).deepAt.contains page = false → (s.region m region).single = true →
    (s.region m region).kind = 4 → ∃ t, exec (.deepPageMove m g page tid region offset rec0) s = .next t ∧
      Table.get 0 (t.site m).records rec0 = recordWord region offset ∧
      (∀ (k : Nat) (x : DeepDir), (s.site m).deep[k]? = some x → x.layer = b.layer → x.head = b.kvHead → x.shard = dirIdx (s.core g) b.dir →
        ∃ x' : DeepDir, (t.site m).deep[k]? = some x' ∧ Table.get 0 x'.first (bits ent 55 8) = rec0 - bits ent 32 14 + 1) ∧
      (let d : ExportDesc := ⟨p, g, pmAddr ent - 0x800000, min n 4096, tid, m, region, 2 * offset⟩
       (t.router g).exports = (s.router g).exports ++ [(d, 0)] ++
         (if 4096 < n then [(⟨p, g, d.slab + 131072, n - 4096, tid + 32, m, region, d.offset + 4096⟩, 0)] else []))) ∧
  (∀ (s : State) m g entry rec0 p, s.corePart g = some p → bit (Table.get 0 (s.site m).records rec0) 63 = true →
    bit (Table.get 0 (s.site m).records rec0) 61 = true → bit (Table.get 0 (s.site m).records rec0) 62 = false → (s.part p).cyc ≤ 11 → s.slabDead g = false →
    ∃ t, exec (.deepPageLive m g entry rec0) s = .next t ∧
      Table.get 0 (t.site m).records rec0 = Table.get 0 (s.site m).records rec0 + 2 ^ 62 ∧
      (∀ b, (t.core g).byte b = ((s.core g).write entry (leBytes 8 (leNat ((s.core g).read entry 8) / 2 ^ 17 * 2 ^ 17 + rec0 % 2 ^ 17))).byte b) ∧
      (p < 12 → t.rd (.adm p) adm.FREE_GPAGES = (s.rd (.adm p) adm.FREE_GPAGES + 1) % 2 ^ 32))

/-- CMD_PI takes the index modulo twice the ring size; one that would place more entries ahead of CMD_CI than the ring holds leaves it and sets PI_RANGE.
CPL_CI takes its index the same way. ARM arms the interrupt; with entries beyond CPL_CI, INT_EN = 1 and no holdoff left it fires at once, and so does
an armed one that waited when its holdoff ends. A firing disarms, and sends INT_DATA to INT_ADDR as an ordered write of 4 bytes, or counts an aperture
violation. A write of the high word of INT_ADDR makes both words the address that firings use.
Rules: R377, R378, R379, R380. -/
def Obligations.DoorbellsAndInterrupts : Prop :=
  (∀ (s : State) p v, (s.flag (.tickgen p) tickgen.CREATED && s.pstate p = 0 && !s.ringsGood p) = false →
    (let n := s.cmdN p
     let v' := v % (2 * n)
     ((v' + 2 * n - s.rd (.cohc p) cohc.CMD_CI) % (2 * n) ≤ n → ∃ t, exec (.cmdPi p v) s = .next t ∧
       t.rd (.doorbell p) doorbell.CMD_PI = v' % 2 ^ 17 ∧ (t.part p).bells = (s.part p).bells ++ [(v', s.clock)]) ∧
     (n < (v' + 2 * n - s.rd (.cohc p) cohc.CMD_CI) % (2 * n) → ∃ t, exec (.cmdPi p v) s = .next t ∧
       t.rd (.doorbell p) doorbell.CMD_PI = s.rd (.doorbell p) doorbell.CMD_PI ∧ bit (t.rd (.cohc p) page.ERR_STAT) 1 = true))) ∧
  (∀ (s : State) p v, ∃ t, exec (.cplCi p v) s = .next t ∧ t.rd (.doorbell p) doorbell.CPL_CI = v % (2 * s.cplN p) % 2 ^ 17) ∧
  (∀ (s : State) p, (s.cplUsed p = 0 → ∃ t, exec (.arm p) s = .next t ∧ t.flag (.cohc p) cohc.ARMED = true ∧ t.parts = s.parts) ∧
    (s.cplUsed p ≠ 0 → s.flag (.cohc p) cohc.INT_EN = true → s.holdoffOver p = true →
      exec (.arm p) s = .next ((s.setFlag (.cohc p) cohc.ARMED true).fire p))) ∧
  (∀ (s : State) p v, ∃ t, exec (.intAddr p v) s = .next t ∧
    (t.part p).intAddr = s.rd (.cohc p) cohc.INT_ADDR_LO + 2 ^ 32 * (v % 2 ^ 32)) ∧
  (∀ (s : State) p, (s.part p).intPend = true → s.holdoffOver p = true → s.flag (.cohc p) cohc.ARMED = true →
    s.flag (.cohc p) cohc.INT_EN = true → exec (.intHoldoffExpire p) s = .next (s.fire p)) ∧
  (∀ (s : State) p,
    let s1 := (s.setFlag (.cohc p) cohc.ARMED false).updPart p (fun x => { x with intPend := false, lastFire := s.clock + 1 })
    let a := (s.part p).intAddr / 4 * 4
    (s.fire p).flag (.cohc p) cohc.ARMED = false ∧
    (s.inAperture p a 4 true = true → s.fire p = (s1.setWrites (s.writes ++ [⟨p, true, a, leBytes 4 (s.rd (.cohc p) cohc.INT_DATA), 0, none⟩])).flush) ∧
    (s.inAperture p a 4 true = false → (s.fire p).writes = s.writes ∧
      (s.fire p).rd (.cohc p) cohc.APERT_VIOL_CNT = (s.rd (.cohc p) cohc.APERT_VIOL_CNT + 1) % 2 ^ 32))

/-- COMMAND_FETCH of a partition that may fetch (the ring not empty, the completion ring not full, no stored entry held, fewer than 64 commands not
completed, not link-lost) moves CMD_CI on by one modulo twice the ring size, and an entry with a known opcode waits for its decision behind the
others, a SUBMIT with a free entry of its half of the table, if one is left, in QUEUED. HELD_COMPLETION_WRITE takes the oldest held entry, when it does not wait for its STATUS, and writes it. The oldest command, with its opcode, no reserved bit set and a
HANDLE of its partition: PAUSE puts a request in DECODE into PAUSED with its TTL and takes its lane out of the hold mask, or restarts the timer of one
in SCREE; RELEASE ends one in SCREE with RELEASED; CANCEL ends one that runs or waits with status 2; RESUME of one in SCREE whose KV has the image's layout is decided, and on a draft
ring refused with PARAM; SUBMIT of an ELASTIC request with good fields waits in QUEUED at its entry, and a GUARANTEED one is decided at once: admitted by its plan, or
refused with its code. PAUSE, RELEASE, CANCEL and RESUME of a request in another state (RESUME of another layout too, log entry 80) are answered with NACK 0x0D.
Rules: R236, R237, R238, R243, R246, R252, R258, R260, R267, R377, R378. -/
def Obligations.RingEntriesAndRequestCommands : Prop :=
  (∀ (s : State) p e, s.flag (.tickgen p) tickgen.CREATED = true → s.rd (.cohc p) cohc.CMD_CI ≠ s.rd (.doorbell p) doorbell.CMD_PI →
    s.cplFull p = false → s.storeHolds p = false → (s.part p).cmdIn.length + b2n (s.part p).job.isSome < 64 → s.linkLost p = false →
    s.inAperture p (s.rd64 (.cohc p) cohc.CMD_BASE_LO cohc.CMD_BASE_HI / 64 * 64 + 64 * (s.rd (.cohc p) cohc.CMD_CI % s.cmdN p)) 64 false = true →
    let c : CmdIn := { bytes := e, addr := s.rd64 (.cohc p) cohc.CMD_BASE_LO cohc.CMD_BASE_HI / 64 * 64 + 64 * (s.rd (.cohc p) cohc.CMD_CI % s.cmdN p)
                       tick := (s.part p).tick, clock := s.clock, ms := s.ms
                       bell := ((s.part p).bellOf (s.rd (.cohc p) cohc.CMD_CI) (s.cmdN p)).getD s.clock }
    knownOpc c.opc = true → ∃ t h, exec (.commandFetch p e) s = .next t ∧
      (s.inAperture p (s.rd64 (.cohc p) cohc.CI_SHADOW_LO cohc.CI_SHADOW_HI / 4 * 4) 4 true = true →
        t.rd (.cohc p) cohc.CMD_CI = (s.rd (.cohc p) cohc.CMD_CI + 1) % (2 * s.cmdN p) % 2 ^ 17) ∧ (t.part p).cmdIn = (s.part p).cmdIn ++ [{ c with ent := h }] ∧
      (c.opc ≠ 1 → h = none) ∧ ∀ k, h = some k → halfBase p ≤ k ∧ k < halfBase p + 65536 ∧
        t.req k = { state := .queued, part := p, prio := c.field 3 1, kind := c.field 2 1, cookie := c.cookie }) ∧
  (∀ (s : State) p c l, (s.part p).cplHeld = c :: l → s.cplFull p = false → c.waits = false →
    exec (.heldCompletionWrite p) s = .next ((s.updPart p (fun x => { x with cplHeld := l })).writeCpl p c)) ∧
  (∀ (s u : State) p c, s.takeCmd p 2 = some (c, u) → shortBad c 2 = false → c.field 12 2 ≠ 0 → c.field 12 2 ≤ 3600 → (u.req c.handle).part = p →
    ((u.req c.handle).state = .decode → ∃ t, exec (.pause p) s = .next t ∧
      t.req c.handle = { u.req c.handle with state := .paused, ttl := c.field 12 2, toExport := true, ready := false } ∧
      (t.part p).freed = (u.part p).freed ++ [((u.req c.handle).lane, (u.part p).tick + 2)]) ∧
    ((u.req c.handle).state = .scree → ∃ t, exec (.pause p) s = .next t ∧
      t.req c.handle = { u.req c.handle with ttl := c.field 12 2, ttlExp := (u.ms + c.field 12 2 * 1000) % 2 ^ 32, auto := false } ∧ t.parts = u.parts) ∧
    ((u.req c.handle).state ≠ .decode → (u.req c.handle).state ≠ .scree → exec (.pause p) s = .next (u.nack p c 0x0D c.handle))) ∧
  (∀ (s u : State) p c, s.takeCmd p 5 = some (c, u) → shortBad c 0 = false →
    ((u.req c.handle).part = p → (u.req c.handle).state = .scree →
      let r := u.req c.handle
      exec (.release p) s = .next ((u.updReq c.handle (fun r => { r with state := .done, scree := [], inT2 := false })).postCpl p
        { event := 6, cookie := r.cookie, handle := c.handle, produced := r.genCnt, ends := true })) ∧
    ((u.req c.handle).part ≠ p ∨ (u.req c.handle).state ≠ .scree → exec (.release p) s = .next (u.nack p c 0x0D c.handle))) ∧
  (∀ (s u : State) p c, s.takeCmd p 4 = some (c, u) → shortBad c 0 = false → (u.req c.handle).part = p →
    ((u.req c.handle).state ∈ [ReqState.queued, .admitted, .prefill, .decode, .paused, .scree] → exec (.cancel p) s = .next (u.finish p c.handle 2)) ∧
    ((u.req c.handle).state ∈ [ReqState.free, .rejected, .done, .expired, .faulted] → exec (.cancel p) s = .next (u.nack p c 0x0D c.handle))) ∧
  (∀ (s u : State) p d c, s.takeCmd p 3 = some (c, u) → (u.mainOf p).isSome = true → exec (.resume p d) s = .next (u.rejectResume p (c.field 12 3 % 2 ^ 17) c 7)) ∧
  (∀ (s u : State) p d c, s.takeCmd p 3 = some (c, u) → u.mainOf p = none →
    let h := c.field 12 3 % 2 ^ 17
    ((u.req h).state = .scree → (u.req h).part = p → (u.req h).kvLayout = (u.img p).kvLayout → exec (.resume p d) s = .next (u.resumeCmd p h c d)) ∧
    ((u.req h).state ≠ .scree ∨ (u.req h).part ≠ p ∨ (u.req h).kvLayout ≠ (u.img p).kvLayout → exec (.resume p d) s = .next (u.nack p c 0x0D h))) ∧
  (∀ (s u : State) p d c im b h, s.takeCmd p 1 = some (c, u) → (u.part p).image = some im → paramBad c (some im) false = false → u.mainOf p = none →
    d.readErr = false →
    let r := u.asked p c d im none
    u.refusal p c d r (some im) = none → c.ent = some h →
    (r.elastic = true → bucketOf im r.lmax = some b → ∃ t, exec (.submit p d) s = .next t ∧
      t.req h = { r with state := .queued, bucket := b, order := u.order } ∧ t.order = u.order + 1 ∧ t.regs = u.regs) ∧
    (r.elastic = false → (∀ pl, u.decideGuaranteed p im r = .ok pl → exec (.submit p d) s = .next (u.admitPlan p h r pl)) ∧
      ∀ code, u.decideGuaranteed p im r = .error code → exec (.submit p d) s = .next (u.rejectNew p c code)))

/-- A KEY_LOAD with its reserved bytes 0, whose record lies in an aperture, has the magic and names a slot of 0 to 31, the partition, its SSB and a slot
that no site uses, is unwrapped: the key goes into the slot of every site of the partition and KEYLOAD_CNT counts it, or the record is refused with
code 0x31. Otherwise it is refused with 0x35, 0x34, 0x30 or 0x32, in this order, counted and noted. KEY_CLEAR of a slot in use is refused with 0x33
and clears the slot at every site otherwise. ATTEST takes the next one-time index of the primary's SSB, writes the report and its signature into the
buffer, counts it and completes with code 0. Setting a key puts it into that slot at each site of the partition.
Rules: R396, R397, R398, R399, R400, R401, R402, R403. -/
def Obligations.KeySlotCommands : Prop :=
  (∀ (s u : State) p record c, s.takeCmd p 0x11 = some (c, u) → ringOk c 16 = true →
    let r := keyRecordOf record
    let k := u.primary p
    let pg := Page.ssb k
    let refuse (code : Nat) : State := (((u.inc pg ssb.KEYLOAD_FAIL_CNT 1).wr pg ssb.LAST_KEY_CODE code).err pg 3).ringDone p c 12 code
    let ap := u.inAperture p (c.field 8 8) 1680 false
    (r.magic = 0x444B584B → ap = true → r.slot < 32 → r.part = p → r.ssb = k → u.slotBusy p r.slot = false →
      exec (.keyLoad p record) s = .next (match u.unwrapKey k r with
        | none => refuse 0x31
        | some key => (((u.setKey p r.slot (key + 1)).inc pg ssb.KEYLOAD_CNT 1).wr pg ssb.LAST_KEY_CODE 0).ringDone p c 12 0)) ∧
    (r.magic ≠ 0x444B584B ∨ ap = false ∨ 32 ≤ r.slot → exec (.keyLoad p record) s = .next (refuse 0x35)) ∧
    (r.magic = 0x444B584B → ap = true → r.slot < 32 → (r.part ≠ p → exec (.keyLoad p record) s = .next (refuse 0x34)) ∧
      (r.part = p → r.ssb ≠ k → exec (.keyLoad p record) s = .next (refuse 0x30)) ∧
      (r.part = p → r.ssb = k → u.slotBusy p r.slot = true → exec (.keyLoad p record) s = .next (refuse 0x32)))) ∧
  (∀ (s u : State) p c, s.takeCmd p 0x12 = some (c, u) → ringOk c 9 = true → c.field 8 1 < 32 →
    (u.keyInUse p (c.field 8 1) = true → exec (.keyClear p) s = .next ((u.wr (.ssb (u.primary p)) ssb.LAST_KEY_CODE 0x33).ringDone p c 12 0x33)) ∧
    (u.keyInUse p (c.field 8 1) = false →
      exec (.keyClear p) s = .next (((u.setKey p (c.field 8 1) 0).wr (.ssb (u.primary p)) ssb.LAST_KEY_CODE 0).ringDone p c 12 0))) ∧
  (∀ (s u v : State) p c q, s.takeCmd p 0x13 = some (c, u) → ringOk c 48 = true → s.inAperture p (c.field 8 8) 6420 true = true →
    u.takeLeaf (s.primary p) = (some q, v) →
    let body := v.reportBody p (s.primary p) q ((c.bytes.drop 16).take 32)
    exec (.attest p) s = .next (((v.inc (.ssb (s.primary p)) ssb.ATTEST_CNT 1).sendWrite p true (c.field 8 8)
      (body ++ leBytes 2964 (Config.hssSign v.fuses.seed q (leNat body)))).ringDone p c 13 0)) ∧
  (∀ (s : State) p k v m, m ∈ s.partSites p → Table.get 0 ((s.setKey p k v).site m).keys k = v)

/-- An object of SSB_FW, MCF, TSQ, MSF or MANIFEST whose SVN reaches the fused minimum goes into the slot that does not run as STAGED if its magic, key,
hash and signature are good, and is an error of the verifying SSB otherwise; one below the minimum raises SVN_ROLLBACK too and changes no slot.
ACTIVATE_FIRMWARE makes the STAGED slot TRIAL where every combination is in the manifest, and at once ACTIVE when a TSQ or MSF reports a healthy
start; otherwise the slot stays STAGED, the command is answered with COMBO and PLDM_ERR sets. A TRIAL MCF, TSQ or MSF without a healthy start becomes FAILED. SVN_COMMIT raises the fused minimum of
SVN_KIND to the SVN of the ACTIVE slot and lowers it never. The port configuration record is kept for the next start.
Rules: R387, R388, R389, R393, R394, R405, R413, R438, R469. -/
def Obligations.FirmwareSlots : Prop :=
  (∀ (s : State) (bytes : List Byte),
    let o := signedObjOf bytes
    o.type ∈ [1, 2, 3, 4, 8] → (s.rd (.ssb (s.norHolder.getD 0)) ssb.BOOT_STATE ≠ 3 ∨ o.type = 1) →
    let i := if (s.fwSlot o.type 0).st = .active ∨ ((s.fwSlot o.type 0).st = .trial ∧ (s.fwSlot o.type 1).st ≠ .active) then 1 else 0
    (s.svnOk o.type o.svn = true → exec (.firmwareObjectStage bytes) s = .next (if s.genuine o then s.setSlot o.type i (fun _ =>
        { st := .staged, key := o.key, svn := o.svn, version := o.version, ifgen := o.ifgen, digest := o.digest,
          payload := if o.type = 8 then manifestRows o.payload else [] })
      else s.ssbErr 0)) ∧
    (s.svnOk o.type o.svn = false → ∃ t, exec (.firmwareObjectStage bytes) s = .next t ∧ t.nor = s.nor ∧ t.fuses = s.fuses)) ∧
  (∀ (s : State) kind h i, s.slotIn kind .staged = some i → kind ∈ [1, 2, 3, 4, 8] →
    let s1 := s.setSlot kind i (fun x => { x with st := .trial })
    (s.combosOk kind (s.fwSlot kind i).version = true →
      (h = false ∨ kind = 1 ∨ kind = 8 → exec (.activateFirmware kind h) s = .next s1) ∧
      (h = true → kind = 3 ∨ kind = 4 → exec (.activateFirmware kind h) s = .next (s1.trialGood kind i))) ∧
    (s.combosOk kind (s.fwSlot kind i).version = false →
      exec (.activateFirmware kind h) s = .next ((s.err (.smc (s.norHolder.getD 0)) 2).emit (.combo kind)))) ∧
  (∀ (s : State) kind i, s.slotIn kind .trial = some i → kind = 2 ∨ kind = 3 ∨ kind = 4 →
    exec (.healthyStartTimeout kind) s = .next ((s.setSlot kind i (fun x => { x with st := .failed })).ssbErr 5)) ∧
  (∀ (s : State) c v i, s.rd (.ssb c) ssb.SVN_KIND = v → v ≤ 4 → s.slotIn (if v = 0 then 8 else v) .active = some i → 4 < s.fuses.svn.length →
    ∃ t, exec (.svnCommit c) s = .next t ∧ t.fuses.svn.getD v 0 = max (s.fuses.svn.getD v 0) (s.fwSlot (if v = 0 then 8 else v) i).svn ∧
      (∀ k, k ≠ v → t.fuses.svn.getD k 0 = s.fuses.svn.getD k 0) ∧ t.fuses.revoked = s.fuses.revoked ∧ t.regs = s.regs ∧ t.nor = s.nor) ∧
  (∀ (s : State) bs, ∃ t, exec (.portConfigRecordWrite bs) s = .next t ∧ t.nor.portRec = some bs ∧ t.nor.slots = s.nor.slots ∧ t.regs = s.regs ∧
    t.ports = s.ports)

/-- ROLE_SWAP of a partition whose mirror is up and has an ACTIVE port to its companion, with no load or repair and no UNPROT crag, changes MIRROR_ACT and
writes a ROLE_SWAP entry with the port that the partition's ordered writes now use: at once when the partition is OFF, and at a due boundary with a hold of 78,000 cycles when it runs; while a
condition fails it waits and nothing changes. SITE_UPDATE_DRAIN makes the page mover accept no command; with an empty queue an ON page goes to
STARTING, and with commands left it stays ON. MSF_READY of a page in STARTING makes it ON and lets the page mover accept commands; in any other state
it changes nothing.
Rules: R406, R407, R452. -/
def Obligations.SwapsAndSiteUpdates : Prop :=
  (∀ (s : State) p n, ((List.range 4).map (· + 4 * (1 - s.primary p))).find? (fun n => s.portActive n && bit (s.rd (.vlport n) vlport.PORT_PARTS) p &&
      s.rd (.vlport n) vlport.PORT_COMP = s.rd (.cohc p) cohc.COMP) = some n →
    let unprot := (s.part p).tiles.any (fun t => (List.range 16).any (fun y => s.flag (.crag t y) crag.UNPROT))
    let due : Bool := s.pstate p = 0 || ((s.part p).phase = .running && (s.part p).commitDone && tickLen (s.periodOf p) (s.part p).stretch ≤ (s.part p).wall)
    let s1 := s.setFlag (.tickgen p) tickgen.MIRROR_ACT (!s.flag (.tickgen p) tickgen.MIRROR_ACT)
    let s2 := (s1.updPart p (fun x => { x with phase := .boundaryHold 78000, holdReq := true, holdStart := (s.part p).wall })).setFlag (.tickgen p) tickgen.HOLD true
    let done (z : State) := z.free.2.postCpl p { event := 14, code := (z.free.2.ordPort p).getD n, cookie := z.free.1.toNat, handle := 0x1FFFF }
    (s.flag (.tickgen p) tickgen.CREATED = true → (s.ctl (1 - s.primary p)).up = true → (s.part p).job = none → unprot = false →
      (s.pstate p = 0 → exec (.roleSwap p) s = .next (done s1)) ∧
      (s.pstate p ≠ 0 → due = true → exec (.roleSwap p) s = .next (done s2))) ∧
    (s.flag (.tickgen p) tickgen.CREATED = false ∨ (s.ctl (1 - s.primary p)).up = false ∨ (s.part p).job ≠ none ∨ unprot = true ∨ due = false →
      exec (.roleSwap p) s = .next s)) ∧
  (∀ (s : State) m, s.slotIn 4 .active ≠ none →
    ((s.site m).pm = [] → s.rd (.msite m) page.STATE = 2 → ∃ t, exec (.siteUpdateDrain m) s = .next t ∧ (t.site m).draining = true ∧
      t.rd (.msite m) page.STATE = 1) ∧
    ((s.site m).pm ≠ [] → exec (.siteUpdateDrain m) s = .next (s.updSite m (fun x => { x with draining := true })))) ∧
  (∀ (s : State) m, (s.rd (.msite m) page.STATE = 1 → (s.site m).pm = [] → ∃ t, exec (.msfReady m) s = .next t ∧ t.rd (.msite m) page.STATE = 2 ∧
      (t.site m).draining = false ∧ (t.site m).pm = []) ∧
    (s.rd (.msite m) page.STATE ≠ 1 → exec (.msfReady m) s = .next s))

/-- With the commit done and the length of the tick run, TICK_BOUNDARY begins the next tick, whose number is one higher, with the packer's latch; before
that it changes nothing, and a halt in waiting, a repair cut or a saddle swap holds the boundary for 12, 47,734 or 128 cycles. When finality is due,
TICK_FINALITY gives the verdict on the tick before, marks finality done, and then starts the tick's table where the verdict was good. BODY_END, from
cycle P - 108 on, empties the queue of a core or leaves the core as it is, and ends the body. COMMIT_PHASE after the body waits while an XOR delta of the partition
is in flight, and otherwise marks the commit done and a decision due. REPLAY_BOUNDARY after a drain, or after a fault hold whose crags have no delta in flight, loses the local stores, runs the schedule
again under the next number, counts it and raises REPLAY; an uncorrectable error in a rebuild halts with class 8.
Rules: R28, R29, R32, R33, R35, R60, R75, R295, R300, R306, R312. -/
def Obligations.TickMachine : Prop :=
  (∀ (s : State) p sk, (s.part p).phase = .running →
    let due : Bool := (s.part p).commitDone && tickLen (s.periodOf p) (s.part p).stretch ≤ (s.part p).wall
    let held (n : Nat) (t : State) : Prop := (t.part p).phase = .boundaryHold n ∧ (t.part p).tick = (s.part p).tick ∧ t.flag (.tickgen p) tickgen.HOLD = true
    (due = false → exec (.tickBoundary p sk) s = .next s) ∧
    (due = true → (s.part p).haltAt ≠ none → ∃ t, exec (.tickBoundary p sk) s = .next t ∧ held 12 t) ∧
    (due = true → (s.part p).haltAt = none → s.cutDue p = true → ∃ t, exec (.tickBoundary p sk) s = .next t ∧ held 47734 t) ∧
    (due = true → (s.part p).haltAt = none → s.cutDue p = false → (s.part p).swapPend ≠ [] → ∃ t, exec (.tickBoundary p sk) s = .next t ∧ held 128 t) ∧
    (due = true → (s.part p).haltAt = none → s.cutDue p = false → (s.part p).swapPend = [] →
      exec (.tickBoundary p sk) s = .next ((s.latch p ((s.part p).tick + 1)).openTick p ((s.part p).tick + 1) sk false))) ∧
  (∀ (s : State) p, (s.part p).phase = .running →
    let fin (z : State) := z.updPart p (fun x => { x with finalDone := true })
    (s.finalityDue p = false → exec (.tickFinality p) s = .next s) ∧
    (s.finalityDue p = true → (s.part p).toDecide = false → exec (.tickFinality p) s = .next (((fin s).startTable p).startHold p)) ∧
    (s.finalityDue p = true → (s.part p).toDecide = true →
      let v := s.verdict p ((s.part p).tick - 1)
      exec (.tickFinality p) s = .next ((if v.2 = true then (fin v.1).startTable p else fin v.1).startHold p))) ∧
  (∀ (s : State) p, (s.part p).phase = .running → (s.part p).bodyDone = false → s.periodOf p ≤ (s.part p).cyc + 108 →
    ∃ t, exec (.bodyEnd p) s = .next t ∧ (t.part p).bodyDone = true ∧ ∀ g, (t.core g = s.core g ∨ ((t.core g).queue = [] ∧ (t.core g).fetching = false)) ∧
      (g ∉ s.usedCores p → t.core g = s.core g)) ∧
  (∀ (s : State) p l m, (s.part p).phase = .running → (s.part p).bodyDone = true → (s.part p).commitDone = false →
    (s.deltaInFlight p = true → exec (.commitPhase p l m) s = .next s) ∧
    (s.deltaInFlight p = false → ∃ t, exec (.commitPhase p l m) s = .next t ∧ (t.part p).commitDone = true ∧ (t.part p).toDecide = true)) ∧
  (∀ (s : State) p ue, (s.part p).haltAt = none →
    let again (z : State) := ((((z.chargeReplay p).loseStores p).openTick p ((s.part p).tick + 1) 0 true).inc (.tickgen p) tickgen.REPLAY_CNT 1).err (.tickgen p) 1
    ((s.part p).phase = .drain 0 → (s.part p).deadNow = [] → exec (.replayBoundary p ue) s = .next (again s)) ∧
    ((s.part p).phase = .fault 0 → (s.busIdle p = false → exec (.replayBoundary p ue) s = .next s) ∧
      (s.busIdle p = true → (ue = false → ((s.part p).clean = false → exec (.replayBoundary p ue) s = .next (again (s.leaveHold p))) ∧
          ((s.part p).clean = true → exec (.replayBoundary p ue) s =
            .next (((s.leaveHold p).latch p ((s.part p).tick + 1)).openTick p ((s.part p).tick + 1) 0 false))) ∧
        ∀ g k l, (s.part p).deadNow = (g, k) :: l → ue = true → exec (.replayBoundary p ue) s =
          .next (((s.setFlag (cragPage (cragOf g)) crag.DOUBLE true).err (cragPage (cragOf g)) 2).halt p 8 5 (tileOf g) (g % 256) []))))

/-- A write of PERIOD takes effect while the partition is OFF; in any other state the field keeps its value and ILLEGAL is set. STRETCH_CEIL is taken
modulo 128 at once, and a raise is noted with the number of requests admitted so far, the ceiling in force unchanged. STRETCH_CEIL_RAISE_APPLY puts a
raise that waits alone into force once no GUARANTEED request admitted before it under a lower ceiling runs, and drops it; while one runs, the raise
waits and the ceiling in force stays. A read of TICK_LO shows the low 32 bits of the tick number and latches the high ones in TICK_HI.
Rules: R26, R41, R57. -/
def Obligations.GeneratorRegisters : Prop :=
  (∀ (s : State) p v, (s.pstate p = 0 → ∃ t, exec (.period p v) s = .next t ∧ t.rd (.tickgen p) tickgen.PERIOD = v % 2 ^ 13) ∧
    (s.pstate p ≠ 0 → ∃ t, exec (.period p v) s = .next t ∧ t.rd (.tickgen p) tickgen.PERIOD = s.rd (.tickgen p) tickgen.PERIOD ∧
      bit (t.rd (.tickgen p) page.ERR_STAT) 0 = true)) ∧
  (∀ (s : State) p v, ∃ t, exec (.stretchCeil p v) s = .next t ∧ t.rd (.tickgen p) tickgen.STRETCH_CEIL = v % 128 ∧
    t.rd (.tickgen p) tickgen.STRETCH_CEIL_EFF = s.rd (.tickgen p) tickgen.STRETCH_CEIL_EFF ∧ (v % 128, s.order) ∈ (t.part p).ceilPend) ∧
  (∀ (s : State) p v o, (s.part p).ceilPend = [(v, o)] → v < 128 →
    let before := s.reqsOf p (fun r => !r.elastic && r.state.running && r.order < o && r.ceil < v)
    (before = [] → s.rd (.tickgen p) tickgen.STRETCH_CEIL_EFF < v → v ≤ s.rd (.tickgen p) tickgen.STRETCH_CEIL →
      ∃ t, exec (.stretchCeilRaiseApply p) s = .next t ∧ t.rd (.tickgen p) tickgen.STRETCH_CEIL_EFF = v ∧ (t.part p).ceilPend = []) ∧
    (before ≠ [] → ∃ t, exec (.stretchCeilRaiseApply p) s = .next t ∧ (t.part p).ceilPend = [(v, o)] ∧
      t.rd (.tickgen p) tickgen.STRETCH_CEIL_EFF = s.rd (.tickgen p) tickgen.STRETCH_CEIL_EFF)) ∧
  (∀ (s : State) p, ∃ t, exec (.tickLo p) s = .next t ∧ t.rd (.tickgen p) tickgen.TICK_HI = (s.part p).tick / 2 ^ 32 % 2 ^ 16 ∧
    t.sent = s.sent ++ [.readBack (Page.tickgen p).id 0x048 ((s.part p).tick % 2 ^ 32)] ∧ t.parts = s.parts)

/-- CREATE sets CREATED where no check of R441 fails, and otherwise leaves CREATED and shows the first code. EN = 1 of an OFF partition runs the start
checks: STARTING where they pass, OFF with START_CODE otherwise. EN = 0 stops one in STARTING or FAULTED at OFF and drains one in ON, whose waiting
requests are refused; EN of one in DRAINING is kept in PEND, and during a teardown it has no effect beyond EN. A page without an enable of its own
ignores EN. The end of a start without findings makes the partition ON and issues the boundary of tick 0; another finding ends the start at OFF with
NO_FIT. DRAIN_DONE of an empty DRAINING partition stops it. SOFT_RESET in OFF or FAULTED resets the fields of the page and leaves STATE OFF, and in
any other state changes nothing. DESTROY of an OFF partition sets TD_BUSY, and TEARDOWN_DONE clears it and CREATED.
Rules: R404, R440, R441, R442, R443, R444, R445, R452. -/
def Obligations.PartitionLife : Prop :=
  (∀ (s : State) p, (s.createCode p = 0 → ∃ t, exec (.create p) s = .next t ∧ t.flag (.tickgen p) tickgen.CREATED = true) ∧
    (s.createCode p ≠ 0 → ∃ t, exec (.create p) s = .next t ∧ t.rd (.tickgen p) tickgen.CR_CODE = s.createCode p % 2 ^ 8 ∧
      t.flag (.tickgen p) tickgen.CREATED = s.flag (.tickgen p) tickgen.CREATED ∧ t.parts = s.parts)) ∧
  (∀ (s : State) p, s.flag (.tickgen p) tickgen.TD_BUSY = false →
    let s1 := s.setFlag (.tickgen p) page.EN true
    let s0 := s.setFlag (.tickgen p) page.EN false
    let s2 := s1.setFlag (.tickgen p) page.PEND false
    (s.pstate p = 0 → (s2.startCode p = 0 → exec (.en (.tickgen p) true) s = 
        .next (((s2.wr (.tickgen p) page.STATE 1).startFields p).updPart p (fun x => { x.fresh with lateTbl := [] }))) ∧
      (s2.startCode p ≠ 0 → ∃ t, exec (.en (.tickgen p) true) s = .next t ∧ t.pstate p = 0 ∧
        t.rd (.tickgen p) tickgen.START_CODE = s2.startCode p % 2 ^ 8)) ∧
    (s.pstate p = 1 ∨ s.pstate p = 4 → exec (.en (.tickgen p) false) s = .next ((s0.updPart p Part.fresh).wr (.tickgen p) page.STATE 0)) ∧
    (s.pstate p = 2 → exec (.en (.tickgen p) false) s = .next ((s0.wr (.tickgen p) page.STATE 3).refuseQueued p)) ∧
    (s.pstate p = 3 → ∀ v, ∃ t, exec (.en (.tickgen p) v) s = .next t ∧ t.flag (.tickgen p) page.PEND = v ∧ t.pstate p = 3)) ∧
  (∀ (s : State) p v, s.flag (.tickgen p) tickgen.TD_BUSY = true → exec (.en (.tickgen p) v) s = .next (s.setFlag (.tickgen p) page.EN v)) ∧
  (∀ (s : State) pg v, pg.ownEn = false → exec (.en pg v) s = .next s) ∧
  (∀ (s : State) p, s.pstate p = 1 → (∀ l ∈ s.laneIds p, (s.lane p l).primed = true) →
    exec (.partitionStartDone p {}) s = .next ((s.wr (.tickgen p) page.STATE 2).openTick p 0 0 false) ∧
    ∃ t, exec (.partitionStartDone p { other := true }) s = .next t ∧ bit (t.rd (.tickgen p) page.ERR_STAT) 7 = true) ∧
  (∀ (s : State) p, s.pstate p = 3 → (s.part p).phase = .running → (s.part p).finalDone = true → (s.part p).table = [] → (s.part p).entering = [] →
    (s.part p).results = [] → exec (.drainDone p) s = .next (s.stopPart p).shutdownCheck) ∧
  (∀ (s : State) m, let fs := (Page.msite m).allFields.filter (resets (s.flag (.msite m) page.LOCK))
    (s.rd (.msite m) page.STATE = 0 ∨ s.rd (.msite m) page.STATE = 4 → ∃ t, exec (.softReset (.msite m)) s = .next t ∧
      t = ((s.noting (.msite m) (fun z => z.clrAll (.msite m) fs)).wr (.msite m) page.STATE 0).setFlag (.msite m) page.PEND false ∧
      t.rd (.msite m) page.STATE = 0) ∧
    (s.rd (.msite m) page.STATE ≠ 0 → s.rd (.msite m) page.STATE ≠ 4 → exec (.softReset (.msite m)) s = .next s)) ∧
  (∀ (s : State) p, s.created p = true → exec (.softReset (.tickgen p)) s = .next s) ∧
  (∀ (s : State) p, s.pstate p = 0 → s.created p = true → s.flag (.tickgen p) tickgen.TD_BUSY = false →
    ∃ t, exec (.destroy p) s = .next t ∧ t.flag (.tickgen p) tickgen.TD_BUSY = true ∧
      (t.part p).job = (s.part p).job.map (fun j => if j.finished then j else { j with abort := j.abort.or (some 0x1D) })) ∧
  (∀ (s : State) p, s.flag (.tickgen p) tickgen.TD_BUSY = true → ∃ t, exec (.teardownDone p) s = .next t ∧
    t.flag (.tickgen p) tickgen.TD_BUSY = false ∧ t.flag (.tickgen p) tickgen.CREATED = false)

/-- A LOAD_IMAGE whose reserved bytes are 0 and whose argument block lies in an aperture is carried out where no check fails and is answered with the code
of the first check that fails otherwise; a refusal changes no core, router, tile, crag or site. LOAD_END clears a load that was interrupted, stops its
transfers and closes it with its code, and a load or repair whose second reading differs with 0x1B; it finishes one whose transfers are all complete,
closes a repair that is past its cut, and leaves one that still moves weights as it is. MIGRATION_ROUND waits for the copies of its round; then it
requests the cut with 256 dirty blocks or fewer, starts the copies of the next round with more, and stops the repair with code 0x1F after 8 rounds.
REPAIR_CUT in the held boundary with no core found dead copies what is still dirty; with nothing dirty left it ends the repair and the hold and sets
the measurement, and it waits otherwise. SPARE_CLEAR clears the slab of a former spare and protects its crag again; CLEAR_BUSY falls when no other spare of
the tile waits.
Rules: R221, R222, R223, R224, R225, R226, R228, R229, R230, R231. -/
def Obligations.LoadsAndRepairs : Prop :=
  (∀ (s u : State) p d c, s.takeCmd p 0x10 = some (c, u) → ringOk c 16 = true → u.inAperture p (c.field 8 8) 64 false = true → d.readErr = false →
    exec (.loadImage p d) s = .next (match u.loadPlan p d with
      | .refuse code => u.loadRefuse p d c 1 code
      | .go x l meas changed => u.carryOut p d c x l meas changed) ∧
    (∀ code, u.loadPlan p d = .refuse code → ∃ t, exec (.loadImage p d) s = .next t ∧ t.cores = s.cores ∧ t.routers = s.routers ∧ t.tiles = s.tiles ∧
      t.crags = s.crags ∧ t.sites = s.sites)) ∧
  (∀ (s : State) p, ((s.part p).job = none → exec (.loadEnd p) s = .next s) ∧
    (∀ j, (s.part p).job = some j → j.finished = true → j.abort ≠ none → exec (.loadEnd p) s = .next (s.closeLoad p j 0 0)) ∧
    (∀ j code, (s.part p).job = some j → j.abort = some code → j.repair = false → j.finished = false →
      exec (.loadEnd p) s = .next (((s.stopTransfers p j.tids).clearLoaded p).closeLoad p j 2 code)) ∧
    (∀ j, (s.part p).job = some j → j.abort = none → j.repair = true → j.changed = true → j.finished = false →
      exec (.loadEnd p) s = .next ((((s.pumpLoad p).stopTransfers p j.tids).dropRepair p j).closeLoad p j 2 0x1B)) ∧
    (∀ j, ((s.pumpLoad p).part p).job = some j → j.abort = none → j.repair = false → j.finished = false →
      ((s.pumpLoad p).loadDone p j = false → exec (.loadEnd p) s = .next (s.pumpLoad p)) ∧
      ((s.pumpLoad p).loadDone p j = true → j.changed = true →
        exec (.loadEnd p) s = .next (((s.pumpLoad p).clearLoaded p).closeLoad p j 2 0x1B)) ∧
      ((s.pumpLoad p).loadDone p j = true → j.changed = false →
        exec (.loadEnd p) s = .next (((s.pumpLoad p).finishLoad p j).closeLoad p j 0 0)))) ∧
  (∀ (s : State) p j, (s.part p).job = some j → j.repair = true → j.cutReq = false → j.abort = none → j.finished = false → j.changed = false →
    (s.copied p j = false → exec (.migrationRound p) s = .next s) ∧
    (s.copied p j = true →
      let dirty := s.dirtyOf j.moves
      let z := s.endRound p j
      let next : LoadJob := { j with rounds := j.rounds + 1, tids := [] }
      (dirty.length ≤ 256 → ∃ t, exec (.migrationRound p) s = .next t ∧ (t.part p).job = some { next with cutReq := true } ∧ t.cores = s.cores) ∧
      (256 < dirty.length → j.rounds < 7 → exec (.migrationRound p) s =
        .next ((z.updPart p (fun x => { x with job := some next })).startCopies p j.moves (fun m b => dirty.contains (m.src, b)))) ∧
      (256 < dirty.length → 7 ≤ j.rounds → ∃ t, exec (.migrationRound p) s = .next t ∧ (t.part p).job = some { next with abort := some 0x1F }))) ∧
  (∀ (s : State) p j, (s.part p).job = some j →
    ((s.part p).phase = .boundaryHold 0 → j.cutReq = true → (s.part p).holdReq = true → (s.part p).toDecide = false → (s.part p).deadNow = [] →
      j.abort = none → j.finished = false → j.changed = false → s.copied p j = true →
      let dirty := s.dirtyOf j.moves
      (dirty = [] → ∃ t, exec (.repairCut p) s = .next t ∧ (t.part p).holdReq = false ∧ (t.part p).meas = j.meas) ∧
      (dirty ≠ [] → exec (.repairCut p) s = .next ((s.endRound p j).startCopies p j.moves (fun m b => dirty.contains (m.src, b))))) ∧
    ((s.part p).phase = .running ∨ (s.part p).toDecide = true ∨ (s.part p).deadNow ≠ [] ∨ j.cutReq = false ∨ s.copied p j = false →
      exec (.repairCut p) s = .next s)) ∧
  (∀ (s : State) y, s.rd (cragPage y) crag.STAND_FOR = 15 → s.flag (cragPage y) crag.UNPROT = true →
    s.flag (cragPage y) crag.SPARE_DEAD = false →
    let s1 := ((slabBytes (s.core (spareCore y)).mem).foldl (fun z e => z.memWrite (spareCore y) e.1 [0]) s).setFlag (cragPage y) crag.UNPROT false
    let others := (List.range 16).any (fun i => s1.clearWaits (y / 16 * 16 + i))
    (others = true → exec (.spareClear y) s = .next s1) ∧
    (others = false → exec (.spareClear y) s = .next (s1.setFlag (.slab (y / 16)) slab.CLEAR_BUSY false)))

/-- LANE_PRIME makes a free lane of a partition with an image primed. ELASTIC_SCAN admits the first request in rank order that fits, with a free lane and
its bucket, and nothing while the store holds completions. OUTPUT_RECORD_WRITE takes the oldest record and writes it, SEQ and the count, in this order; an
end that is due closes the output. KV_EXPORT_DONE of a paused request whose transfers are all done puts it into SCREE and frees its lane, pages and
transfers. TTL_EXPIRE of a request in SCREE whose timer has run out puts it into EXPIRED and completes it; before that, and while a
RESUME that was fetched in time waits, it changes nothing.
SLACK_SWEEP sets each SLACK_MIN to the least of the slacks of the admitted GUARANTEED requests of that priority, 0x7FFFFFFF where there is none.
Rules: R241, R243, R249, R251, R252, R258, R261, R311, R443. -/
def Obligations.LanesScreeAndOutput : Prop :=
  (∀ (s : State) p l, l ∈ s.laneIds p → s.laneFree p l = true → (s.lane p l).primed = false → (s.part p).image ≠ none → s.pstate p = 1 ∨ s.pstate p = 2 →
    ∃ t, exec (.lanePrime p l) s = .next t ∧ (t.lane p l).primed = true ∧ (t.lane p l).handle = none ∧ ∀ k, k ≠ l → t.lane p k = s.lane p k) ∧
  (∀ (s : State) p bs, (s.storeHolds p = true ∨ s.pstate p ≠ 2 → exec (.elasticScan p bs) s = .next s) ∧
    (∀ l h r b, s.storeHolds p = false → s.pstate p = 2 → s.freeLane p = some l →
      (sortBy (fun a b => decide (a.2.prio < b.2.prio) || (a.2.prio = b.2.prio && decide (a.2.order < b.2.order)))
        (s.reqsOf p (fun r => r.elastic && (r.state = .queued || (r.state = .scree && r.auto && r.kvLayout = (s.img p).kvLayout))))).find?
          (fun e => s.fitsElastic p (lanePages (s.img p) e.2.lmax)) = some (h, r) → (s.req h).inT2 = false → bucketOf (s.img p) (s.req h).lmax = some b →
      s.fitsElastic p (lanePages (s.img p) (s.req h).lmax) = true →
      exec (.elasticScan p bs) s = .next (s.admitPlan p h (s.req h) (s.planFor p (s.img p) (s.req h) l b none)))) ∧
  (∀ (s : State) p o l, (s.part p).outQ = o :: l →
    let s1 := s.updPart p (fun x => { x with outQ := l })
    (∀ st c, o.fin = some (st, c) → exec (.outputRecordWrite p) s = .next (s1.closeOut p o.base st c)) ∧
    (o.fin = none → s.inAperture p (o.base + o.offset) o.bytes.length true = true → l = [] →
      exec (.outputRecordWrite p) s = .next (((s1.sendWrite p true (o.base + o.offset) o.bytes).sendWrite p true o.base
        (leBytes 4 o.seq ++ leBytes 4 o.cnt)).updPart p (fun x => { x with shareTok := (x.shareTok + 1) % 2 ^ 64 })))) ∧
  (∀ (s : State) p h, (s.req h).part = p → (s.req h).state = .paused → (s.req h).toExport = false → s.xfersDone p h = true →
    let ttl := if (s.req h).ttl = 0 then s.rd (.adm p) adm.DEFAULT_TTL else (s.req h).ttl
    let z := ((s.free.2.leaveLane p h).freePages p h).dropXfers p h
    exec (.kvExportDone p h) s = .next ((z.updReq h (fun r => { r with
      state := .scree, ttl := ttl, ttlExp := (z.ms + ttl * 1000) % 2 ^ 32, pageRoot := s.free.1.toNat % 2 ^ 24,
      kvLayout := (z.img p).kvLayout })).postCpl p
        { event := 4, cookie := (s.req h).cookie, handle := h, produced := (s.req h).genCnt })) ∧
  (∀ (s : State) p h, (s.req h).part = p → (s.req h).state = .scree →
    let left (ms : Nat) := (ms % 2 ^ 32 + 2 ^ 32 - (s.req h).ttlExp) % 2 ^ 32
    let asked := (s.part p).cmdIn.any (fun c => c.opc = 3 && c.field 12 3 % 2 ^ 17 = h && decide (2 ^ 31 ≤ left c.ms))
    (left s.ms < 2 ^ 31 → asked = false → exec (.ttlExpire p h) s = .next ((s.updReq h (fun r => { r with state := .expired, scree := [], inT2 := false })).postCpl p
      { event := 5, cookie := (s.req h).cookie, handle := h, produced := (s.req h).genCnt, ends := true })) ∧
    (2 ^ 31 ≤ left s.ms ∨ asked = true → exec (.ttlExpire p h) s = .next s)) ∧
  (∀ (s : State) p, ∃ t, exec (.slackSweep p) s = .next t ∧ t.reqs = s.reqs ∧ ∀ q, q < 8 →
    let m := ((s.reqsOf p (fun r => !r.elastic && r.state.running && r.prio = q)).map (fun e => s.slackOf p e.2)).foldl min 0x7FFFFFFF
    t.rd (.adm p) (adm.SLACK_MIN q) = ((min m 0x7FFFFFFF) % 2 ^ 32).toNat % 2 ^ 32)

/-- PAIR_EN = 1 with both partitions OFF, another partition named, neither of them in another pairing and equal vocabularies makes the pairing active;
where one of these fails it sets PAIR_REJECT; PAIR_EN = 0 ends the pairing; with a partition not OFF nothing changes. DRAFT takes the oldest word: one
with another partition's ID is discarded, one that names a lane without a request is dropped and counted, and any other waits for the draft
partition's next latch. SPUR takes the oldest word: one with another partition's ID is discarded, one of another EPOCH is counted as stale, and one of
the lane's own waits for the main partition's next latch. At its latch a DRAFT word with KEEP = 0 gives the lane its EPOCH and puts its tokens from its
position on, and a SPUR word adds its draft tokens. VENT_CMD 1 binds the selected entry
where R281 holds, and sets VENT_REJECT otherwise; VENT_CMD 2 unbinds it unless a lane is admitted with it.
Rules: R19, R266, R269, R270, R271, R272, R280, R281. -/
def Obligations.PairingsAndVariants : Prop :=
  (∀ (s : State) p v, s.pstate p = 0 → (s.rd (.spur p) spur.DRAFT_PART < 12 → s.pstate (s.rd (.spur p) spur.DRAFT_PART) = 0) →
    let d := s.rd (.spur p) spur.DRAFT_PART
    let s1 := (s.wr (.spur p) spur.PAIR_EN v).setFlag (.spur p) spur.PAIR_REJECT false
    (v % 2 = 0 → ∃ t, exec (.pairEn p v) s = .next t ∧ t.flag (.spur p) spur.PAIR_ACT = false) ∧
    (∀ a b, v % 2 = 1 → (s.part p).image = some a → (s.part d).image = some b → a.vocab = b.vocab → d ≠ p → d < 12 → s1.pairedElse p p = false →
      s1.pairedElse p d = false → ∃ t, exec (.pairEn p v) s = .next t ∧ t.flag (.spur p) spur.PAIR_ACT = true ∧ t.flag (.spur p) spur.PAIR_REJECT = false) ∧
    (v % 2 = 1 → d = p ∨ 12 ≤ d ∨ (s.part p).image = none → ∃ t, exec (.pairEn p v) s = .next t ∧ t.flag (.spur p) spur.PAIR_ACT = false ∧
      t.flag (.spur p) spur.PAIR_REJECT = true)) ∧
  (∀ (s : State) p v, s.pstate p ≠ 0 → exec (.pairEn p v) s = .next s) ∧
  (∀ (s : State) d p w l, (s.part d).draftWords = w :: l → s.mainOf d = some p →
    let s1 := s.updPart d (fun x => { x with draftWords := l })
    let x := draftWordOf w.bytes
    (w.part ≠ d → exec (.draft d) s = .next s1) ∧
    (w.part = d → (s.lane d x.lane).handle = none → exec (.draft d) s = .next (s1.chanDrop p)) ∧
    (w.part = d → (s.lane d x.lane).handle ≠ none →
      exec (.draft d) s = .next (s1.updPart d (fun y => { y with draftIn := y.draftIn ++ [x] })))) ∧
  (∀ (s : State) d (w : DraftWord), (s.lane d w.lane).handle ≠ none → w.keep = false →
    let t := s.applyDraft d w
    (t.lane d w.lane).epoch = w.epoch ∧ (t.lane d w.lane).next = min (s.lane d w.lane).next w.v ∧ (t.lane d w.lane).draftV = w.v ∧
      (t.lane d w.lane).kd = w.kd ∧
      (t.lane d w.lane).toks = (s.lane d w.lane).toks.take w.v ++ List.replicate (w.v - (s.lane d w.lane).toks.length) 0 ++ w.toks) ∧
  (∀ (s : State) p w l n, (s.part p).spurWords = w :: l →
    let s1 := s.updPart p (fun x => { x with spurWords := l })
    let x := spurWordOf w.bytes
    (w.part ≠ p → exec (.spur p) s = .next s1) ∧
    (w.part = p → s1.mainLane p x.lane = some n →
      (x.epoch ≠ (s1.spurOf p n).epoch → exec (.spur p) s = .next (s1.inc (.spur p) spur.SPUR_STALE_CNT 1)) ∧
      (x.epoch = (s1.spurOf p n).epoch → exec (.spur p) s = .next (s1.updPart p (fun y => { y with spurIn := y.spurIn ++ [x] }))))) ∧
  (∀ (s : State) p (w : SpurWord) n, s.mainLane p w.lane = some n → w.epoch = (s.spurOf p n).epoch →
    ((s.applySpur p w).spurOf p n).drafts = (s.spurOf p n).drafts ++
      (List.range w.toks.length).map (fun i => (w.pos + i, (w.toks.getD i (0, 0)).1, (w.toks.getD i (0, 0)).2))) ∧
  (∀ (s : State) p, let e := s.rd (.adm p) adm.VENT_SEL
    (s.ventOk p e = true → ∃ t, exec (.ventCmdBind p) s = .next t ∧ (t.vent p e).bound = true ∧ (t.vent p e).bnd = (s.vent p e).num ∧
      (t.vent p e).num = (s.vent p e).num ∧ t.flag (.adm p) adm.VENT_REJECT = false) ∧
    (s.ventOk p e = false → ∃ t, exec (.ventCmdBind p) s = .next t ∧ t.flag (.adm p) adm.VENT_REJECT = true ∧ t.parts = s.parts) ∧
    ((s.vent p e).lanes = 0 → ∃ t, exec (.ventCmdUnbind p) s = .next t ∧ (t.vent p e).bound = false ∧ t.regs = s.regs) ∧
    ((s.vent p e).lanes ≠ 0 → exec (.ventCmdUnbind p) s = .next s))

/-- ALIVE_LOSS of a live data core of an ON partition makes it dead, gives it to the generator once with cause 6, and sets an error of its crag; of a core
in no partition it is recorded with the map entry of the core. FAULT_COMPLETION posts the oldest FAULT entry that the partition is due. A tile that
fails halts its partition with class 9 and PATH 11 and its map entry, a router with class 10, a site controller, whose page then reads FAULTED, with
class 15; with no partition the event is recorded alone. A heartbeat is noted by the peer while both control tiles are up. A control tile that has
seen none for 6,000 cycles and is granted the request fences its peer, and then tells the Tally the module again; a tile that the peer has fenced
switches itself off; before that nothing changes.
Rules: R290, R291, R302, R303, R304, R308, R313. -/
def Obligations.CoreAndUnitFaults : Prop :=
  (∀ (s : State) g p, (s.core g).alive = true → (s.core g).gated = false → (s.core g).faulty = false → s.corePart g = some p → s.pstate p = 2 →
    cragLocal g < 11 → (s.part p).phase = .running → (s.part p).deadNow.any (fun e => e.1 = g) = false →
    ∃ t, exec (.aliveLoss g) s = .next t ∧ (t.core g).alive = false ∧ (t.part p).deadNow = (s.part p).deadNow ++ [(g, 1)] ∧
      (t.part p).deadCause = max (s.part p).deadCause 6 ∧ bit (t.rd (cragPage (cragOf g)) page.ERR_STAT) 0 = true) ∧
  (∀ (s : State) g, (s.core g).alive = true → (s.core g).gated = false → (s.core g).faulty = false → s.corePart g = none → cragLocal g < 11 →
    exec (.aliveLoss g) s = .next (((s.updCore g (fun c => { c with alive := false })).showDead g).record
      { cls := 1, path := 1, outcome := 2, loc := tileOf g, unit := g % 256 } [(1, g, 1)] [])) ∧
  (∀ (s : State) g, (s.core g).alive = false → s.corePart g = none → exec (.aliveLoss g) s = .next s) ∧
  (∀ (s : State) p c l, (s.part p).faultDue = c :: l →
    exec (.faultCompletion p) s = .next ((s.updPart p (fun x => { x with faultDue := l })).postCplAt p c)) ∧
  (∀ (s : State) t p, s.tilePart t = some p → exec (.tileFault t .rail) s = .next (s.halt p 9 11 t 0 [(5, t, 1)])) ∧
  (∀ (s : State) t, s.tilePart t = none → exec (.tileFault t .rail) s = .next (s.record { cls := 9, path := 11, outcome := 2, loc := t } [(5, t, 1)] []) ∧
    exec (.tileFault t .statusTree) s = .next (s.freePath.2.record { cls := 9, path := s.freePath.1, outcome := 2, loc := t } [(5, t, 1)] [])) ∧
  (∀ (s : State) g, (∀ p, s.corePart g = some p → exec (.routerParityFailure g) s = .next (s.freePath.2.halt p 10 s.freePath.1 (tileOf g) (g % 256) [])) ∧
    (s.corePart g = none →
      exec (.routerParityFailure g) s = .next (s.freePath.2.record { cls := 10, path := s.freePath.1, outcome := 2, loc := tileOf g, unit := g % 256 } [] []))) ∧
  (∀ (s : State) m, 12 ≤ s.rd (.msite m) msite.PART_ID → ∃ t, exec (.siteControllerFailure m) s = .next t ∧ (t.site m).up = false ∧
    t.faultSeq = s.faultSeq + 1) ∧
  (∀ (s : State) m p, s.sitePart m = some p → let s1 := (s.updSite m (fun x => { x with up := false })).wr (.msite m) page.STATE 4
    exec (.siteControllerFailure m) s = .next (s1.freePath.2.halt p 15 s1.freePath.1 m 0 [])) ∧
  (∀ (s : State) c, ((s.ctl c).up = true → (s.ctl (1 - c)).up = true → ∃ t, exec (.heartbeat c) s = .next t ∧ (t.ctl (1 - c)).hbSeen = s.clock ∧
      t.regs = s.regs) ∧
    ((s.ctl c).up = false ∨ (s.ctl (1 - c)).up = false → exec (.heartbeat c) s = .next s)) ∧
  (∀ (s : State) c, (s.ctl c).up = true → 4 ≤ s.rd (.smc c) smc.BRINGUP →
    (s.clock < (s.ctl c).hbSeen + 6000 → exec (.heartbeatTimeout c) s = .next s) ∧
    ((s.ctl c).hbSeen + 6000 ≤ s.clock → (s.sps.fenced = some c → ∃ t, exec (.heartbeatTimeout c) s = .next t ∧ t.sps.fenced = some c ∧
        t = (s.updCtl c (fun x => { x with up := false })).losePorts c) ∧
      (s.sps.fenced = none → (heartbeatTimeout s c).sps.fenced = some (1 - c) ∧
        exec (.heartbeatTimeout c) s = .next ((heartbeatTimeout s c).pairInfo false))))

/-- With the clock present, POWER_ON from off or down, CLK_RETRY of a sequencer that waits for the clock, PWR_FAIL_RESTART once P48 has stayed above 45 V
for 100 ms with the fail latched, and MGT_RST_N_RELEASE of a module that a reset took down end with POWER_GOOD; without the clock the sequencer waits
for it, and a POWER_ON with MGT_RST_N low waits for its release; in other states the first three change nothing. POWER_DOWN of a failing module clears
POWER_GOOD and every partition, core and request, and leaves the fuses, the Tally and the records of the NOR. SHUTDOWN of a module in service takes
note of it once; SHUTDOWN_TIMEOUT and MODULE_RESET lead a module in service to the power-fail path, the reset with its request. CLOCK_LOSS in service
is latched until a module reset.
Rules: R319, R323, R325, R326, R397, R432, R479, R480, R489. -/
def Obligations.PowerSequence : Prop :=
  (∀ (s : State) fails i, (i = .powerOn true fails ∧ (s.sps.state = .off ∨ s.sps.state = .down) ∧ s.sps.resetLow = false) ∨ (i = .clkRetry true fails ∧ s.sps.state = .clkWait) ∨
      (i = .pwrFailRestart true fails ∧ s.sps.state = .down ∧ s.sps.latched = true ∧ s.sps.shutdown = false ∧ s.sps.resetLow = false ∧ 10000 ≤ s.sps.recovered) ∨
      (i = .mgtRstNRelease true fails ∧ s.sps.resetLow = true ∧ s.sps.state = .down ∧ s.sps.resetReq = true ∧ s.sps.latched = false ∧ s.sps.shutdown = false) →
    ∃ t, exec i s = .next t ∧ t.sps.state = .good ∧ t.flag .sps sps.POWER_GOOD = true ∧ t.fuses = s.fuses ∧ t.tally = s.tally) ∧
  (∀ (s : State) fails, s.sps.state = .off ∨ s.sps.state = .down →
    (s.sps.resetLow = false → ∃ t, exec (.powerOn false fails) s = .next t ∧ t.sps.state = .clkWait) ∧
    (s.sps.resetLow = true → ∀ clk, ∃ t, exec (.powerOn clk fails) s = .next t ∧ t.sps.state = .down ∧
      ∃ u, exec (.mgtRstNRelease true fails) t = .next u ∧ u.sps.state = .good)) ∧
  (∀ (s : State) clk fails, s.sps.state = .good → exec (.powerOn clk fails) s = .next s ∧ exec (.clkRetry clk fails) s = .next s ∧
    exec (.pwrFailRestart clk fails) s = .next s) ∧
  (∀ s : State, s.sps.state = .failing → ∃ t, exec .powerDown s = .next t ∧ (t.sps.state = .down ∨ t.sps.state = .clkWait) ∧
    t.flag .sps sps.POWER_GOOD = false ∧ t.parts = [] ∧ t.cores = [] ∧ t.reqs = [] ∧ t.fuses = s.fuses ∧ t.tally = s.tally ∧ t.nor.log = s.nor.log ∧
    t.nor.snap = s.nor.snap ∧ t.nor.waiting = []) ∧
  (∀ s : State, s.sps.state = .good → (s.sps.shutdown = false → ∃ t, exec .shutdown s = .next t ∧ t.sps.shutdown = true) ∧
    (s.sps.shutdown = true → exec .shutdown s = .next s ∧ ∃ t, exec .shutdownTimeout s = .next t ∧ t.sps.state = .failing) ∧
    (∃ t, exec .moduleReset s = .next t ∧ t.sps.state = .failing ∧ t.sps.resetReq = true ∧ t.sps.resetLow = true) ∧
    (∃ t, exec .clockLoss s = .next t ∧ t.sps.clkLost = true ∧ t.sps.state = .good)) ∧
  (∀ s : State, s.sps.state ≠ .good → exec .shutdown s = .next s ∧ exec .clockLoss s = .next s)

/-- A sample of the input voltage and current, whose product is the power, that trips a module in service latches the fail and leads to the power-fail path; one within the window, with neither the module
over its cap nor the average above it, is kept with the newest 10,000 and shown in VIN; with the input off nothing is sampled. A compute switch that
may close closes when VDD_C comes up, is a rail failure of the tile when it does not, and stays as it is when it may not. A lost phase leaves PH_OK
and is noted and counted once. PH_OFFLINE may take out one phase when every other one reads PH_OK; a write that takes out two is refused. A cartridge
that passes its test is OK again, with its map entry clear.
Rules: R300, R305, R319, R321, R322, R324, R325, R327, R333. -/
def Obligations.InputAndPhases : Prop :=
  (∀ (s : State) v a, let w := v * a
    let s1 := s.updSps (fun x => { x with samples := (w :: x.samples).take 10000, recovered := if 4500 < v then x.recovered + 1 else 0 })
    (s.sps.state = .off → exec (.vinSample v a) s = .next s) ∧
    (s.sps.state = .good → s1.tripCause v w ≠ 0 → ∃ t, exec (.vinSample v a) s = .next t ∧ t.sps.state = .failing ∧ t.sps.latched = true) ∧
    (s.sps.state = .good → s1.tripCause v w = 0 → vinClass v = 0 → s.sps.modOver = false →
      s1.powerSum 10000 ≤ s.rd .sps sps.MOD_CAP * tenWatts * 10000 → ∃ t, exec (.vinSample v a) s = .next t ∧ t.sps = s1.sps ∧ t.rd .sps sps.VIN = v % 2 ^ 16 ∧
        t.parts = s.parts)) ∧
  (∀ (s : State) t, s.flag (.therm t) therm.COMPUTE_ON = false →
    (s.mayClose t = true → (∃ u, exec (.computeSwitchClose t true) s = .next u ∧ u.flag (.therm t) therm.COMPUTE_ON = true) ∧
      exec (.computeSwitchClose t false) s = .next (s.tileLost t 11)) ∧
    (s.mayClose t = false → ∀ ok, exec (.computeSwitchClose t ok) s = .next s)) ∧
  (∀ (s : State) k ph e, k < 90 → ph < stackPhases k →
    (bit (s.stack k).ok ph = true → ∃ t, exec (.phaseLoss k ph e) s = .next t ∧ t.stack k = { s.stack k with
      ok := (s.stack k).ok - 2 ^ ph, bad := Nat.lor (s.stack k).bad (2 ^ ph), lost := ((s.stack k).lost + 1) % 2 ^ 32 }) ∧
    (bit (s.stack k).ok ph = false → exec (.phaseLoss k ph e) s = .next s)) ∧
  (∀ (s : State) v k, s.rd .sps sps.PH_SEL = k → k < 90 →
    let phs := List.range (stackPhases k)
    let new := phs.filter (fun i => bit v i && !bit (s.stack k).offline i)
    let back := phs.filter (fun i => !bit v i && bit (s.stack k).offline i && !bit (s.stack k).bad i)
    (∀ b, new = [b] → phs.all (fun i => i = b || bit (s.stack k).ok i) = true → back = [] → bit (s.stack k).ok b = true →
      ∃ t, exec (.phOffline v) s = .next t ∧ t.stack k = { s.stack k with ok := (s.stack k).ok - 2 ^ b, offline := v % 2 ^ stackPhases k }) ∧
    (∀ a b l, new = a :: b :: l → ∃ t, exec (.phOffline v) s = .next t ∧ t.sps = s.sps ∧ bit (t.rd .sps page.ERR_STAT) 4 = true)) ∧
  (∀ (s : State) k ph, k < 90 → ph < stackPhases k → bit (s.stack k).offline ph = true → ∃ t, exec (.cartridgeSelfTest k ph) s = .next t ∧
    (t.stack k).ok = Nat.lor (s.stack k).ok (2 ^ ph) ∧ (t.stack k).offline = (s.stack k).offline ∧ t.mapped 4 (k * 32 + ph) = 0 ∧ t.regs = s.regs)

/-- THERMAL_UPDATE of a module in service ends by writing into STRETCH_REQ of every created partition the largest K_TILE of its tiles, and 16 at least
where a site of it is HOT. A diode reading takes the hottest of the tile's four die diodes from the results of its rail monitor, is shown in T_LAST in
whole degrees, rounded up or down, and kept with the newest ten; one of 110 °C or more on a tile of a running partition fences the tile and has the
partition halt at its next boundary, one below 95 on a fenced tile clears the fence, and one below 105 ends the run of HOT105.
BASE_CAPTURE of a tile that is not captured begins a capture of 6,000 updates; CAPTURE_END after them fails with fewer than 3,000 that qualified, and
else makes their mean, rounded up or down, the baseline.
Rules: R312, R328, R330, R331, R332, R339. -/
def Obligations.HeatCommands : Prop :=
  (∀ (s : State) tIn, (s.sps.state ≠ .good → exec (.thermalUpdate tIn) s = .next s) ∧
    (s.sps.state = .good → ∃ t, exec (.thermalUpdate tIn) s = .next t ∧ ∀ p, p < 12 →
      let u := (List.range 72).foldl (fun s t => (s.heatTile tIn t).coolant tIn t) s.capUpdate
      u.created p = true → t.rd (.tickgen p) tickgen.STRETCH_REQ = max (maxOf ((u.part p).tiles.map (fun t => u.rd (.therm t) therm.K_TILE)))
        (if (u.partSites p).any (fun m => u.flag (.msite m) msite.HOT) then 16 else 0) % 2 ^ 7)) ∧
  (∀ (s : State) t, t < 72 → (s.tile t).up = true → s.sps.state = .good →
    let pg := Page.rmbTile t
    let temp := s.dieTemp t
    (temp = 100 * ((max (max (s.rd pg (rmb.CODE_A 1)) (s.rd pg (rmb.CODE_B 1))) (max (s.rd pg (rmb.CODE_A 2)) (s.rd pg (rmb.CODE_B 2))) : Nat) : Int) -
      163840) ∧
    (∀ p, s.flag (.therm t) therm.FENCED = false → celsius 110 ≤ temp → s.tilePart t = some p → s.pstate p = 2 → (s.part p).phase = .running →
      ∃ u, exec (.diodeReading t) s = .next u ∧ u.flag (.therm t) therm.FENCED = true ∧ (u.part p).haltAt = some ((s.part p).haltAt.getD t) ∧
        (u.tile t).diodes = (temp :: (s.tile t).diodes).take 10) ∧
    (s.flag (.therm t) therm.FENCED = true → temp < celsius 95 → ∃ u, exec (.diodeReading t) s = .next u ∧ u.flag (.therm t) therm.FENCED = false) ∧
    (s.flag (.therm t) therm.FENCED = false → temp < celsius 105 → ∃ u v, exec (.diodeReading t) s = .next u ∧ (u.tile t).hot105 = 0 ∧
      (u.tile t).diodes = (temp :: (s.tile t).diodes).take 10 ∧ u.rd (.therm t) therm.T_LAST = temp8 v % 2 ^ 8 ∧ (v = temp / 1024 ∨ v = temp / 1024 + 1) ∧
      u.parts = s.parts)) ∧
  (∀ (s : State) t, (s.tile t).up = true → ((s.tile t).capture = none → ∃ u, exec (.baseCapture t) s = .next u ∧ (u.tile t).capture = some (6000, 0, 0) ∧
      u.flag (.therm t) therm.CAPTURE_BUSY = true) ∧
    ((s.tile t).capture ≠ none → exec (.baseCapture t) s = .next s)) ∧
  (∀ (s : State) t q m, (s.tile t).capture = some (0, q, m) →
    (q < 3000 → ∃ u, exec (.captureEnd t) s = .next u ∧ (u.tile t).capture = none ∧ u.flag (.therm t) therm.BASE_FAIL = true ∧
      bit (u.rd (.therm t) page.ERR_STAT) 2 = true) ∧
    (3000 ≤ q → ∃ u v, exec (.captureEnd t) s = .next u ∧ (u.tile t).capture = none ∧ u.flag (.therm t) therm.BASE_FAIL = false ∧
      u.rd (.therm t) therm.THETA_BASE = v % 2 ^ 16 ∧ (v = m / q ∨ v = m / q + 1)))

/-- The result of a slot of the RMB writes A's corrected code into the result register of its entry, B's where the slot began with B_EN, with VALID and
the sequence number of its start, and OVR where VALID stood; a calibration slot is counted. REF_SEL 3 is ignored; another value is kept while a slot runs, and with none it takes effect, REF_RDY
falls and results are UNCAL until a calibration ends. REF_RDY rises once the reference has settled. SW_START and a timer that reaches its period start
the entry of an enabled source on an idle sequencer with the next cycle; a start whose source waits already is lost and counted, and an URGENT one
abandons a normal slot, which is kept. CAL_START sets CAL_BUSY. SNAPSHOT_START in cycle SNAP_CYC − 50 of a page that is due shows the tick in SNAP_TICK. EPOCH_END at the end of a power epoch (after every 256
schedule cycles of the tick and at its end) stores the mean of the epoch's products in P_EPOCH_LAST, or counts an epoch without samples; with a sample
of the epoch still being converted it keeps the epoch for that result; at another
time, or a second time, it changes nothing.
Rules: R48, R52, R340, R341, R344, R345, R346, R348, R349, R350, R352. -/
def Obligations.RailMonitors : Prop :=
  (∀ (s : State) pg a b k, (s.rmbOf pg).done = some k → k.began + 127 ≤ s.clock → s.flag pg page.EN = true →
    (k.kind ≠ .cal → k.entry < 16 → ∃ t, exec (.conversionResult pg a b) s = .next t ∧
      t.rd pg (rmb.CODE_A k.entry) = corrected a (s.rd pg rmb.OFFS_A) (s.rd pg rmb.GAIN_A) % 2 ^ 12 ∧
      (k.bEn = true → t.rd pg (rmb.CODE_B k.entry) = corrected b (s.rd pg rmb.OFFS_B) (s.rd pg rmb.GAIN_B) % 2 ^ 12) ∧
      t.flag pg (rmb.VALID k.entry) = true ∧ t.rd pg (rmb.SEQ_NUM k.entry) = k.seq % 2 ^ 5 ∧ (t.rmbOf pg).done = none ∧
      t.flag pg (rmb.UNCAL_R k.entry) = s.flag pg rmb.UNCAL ∧ (s.flag pg (rmb.VALID k.entry) = true → t.flag pg (rmb.OVR k.entry) = true)) ∧
    (k.kind = .cal → ∃ t, exec (.conversionResult pg a b) s = .next t ∧ (t.rmbOf pg).calN = (s.rmbOf pg).calN + 1)) ∧
  (∀ (s : State) pg a b, (s.rmbOf pg).done = none → exec (.conversionResult pg a b) s = .next s) ∧
  (∀ (s : State) pg v, (v % 4 = 3 → exec (.refSel pg v) s = .next s) ∧
    (v % 4 ≠ 3 → ∃ t, exec (.refSel pg v) s = .next t ∧
      ((s.rmbOf pg).cur = none → t.rd pg rmb.REF_SEL = v % 4 ∧ t.flag pg rmb.REF_RDY = false ∧ t.flag pg rmb.UNCAL = true ∧
        (t.rmbOf pg).settleAt = some (s.clock + 2500 * (if v % 4 = 0 then 20 else if v % 4 = 1 then 50 else 5))) ∧
      ((s.rmbOf pg).cur ≠ none → t.regs = s.regs ∧ (t.rmbOf pg).refNext = some (v % 4) ∧ (t.rmbOf pg).cur = (s.rmbOf pg).cur))) ∧
  (∀ (s : State) pg c, (s.rmbOf pg).settleAt = some c → (s.rmbOf pg).refNext = none → (c ≤ s.clock → ∃ t, exec (.refRdy pg) s = .next t ∧ t.flag pg rmb.REF_RDY = true) ∧
    (s.clock < c → exec (.refRdy pg) s = .next s)) ∧
  (∀ (s : State) pg i n, (i = .swStart pg ∧ n = 7) ∨ ((∃ k, i = .rmbTimer pg k ∧ k ≤ 1 ∧ n = 5 + k ∧ 0 < s.timerPer pg k ∧ Table.get 0 (s.rmbOf pg).timers k ≤ s.clock)) →
    s.flag pg page.EN = true → s.flag pg (rmb.SRC_EN n) = true →
    ((s.rmbOf pg).pend = [] → (s.rmbOf pg).held = none → (s.rmbOf pg).refNext = none → s.flag pg rmb.REF_RDY = true → ∃ t, exec i s = .next t ∧
      (let e := s.rd pg (rmb.START_ENTRY n)
        let x : RmbSlot := { kind := if s.urgent pg n then .urgent else .normal, entry := e, first := e, began := s.clock + 1, seq := s.rd pg rmb.SEQ_CNT,
                             inA := s.rd pg (rmb.IN_A e), inB := s.rd pg (rmb.IN_B e), bEn := s.flag pg (rmb.B_EN e), last := s.flag pg (rmb.LAST e),
                             loop := s.flag pg (rmb.LOOP e), pwr := s.flag pg (rmb.PWR e) }
        ((s.rmbOf pg).cur = none → (s.urgent pg n = true ∨ (s.rmbOf pg).intr = none) → (t.rmbOf pg).cur = some x) ∧
        (∀ k, (s.rmbOf pg).cur = some k → k.kind ≠ .urgent → (s.rmbOf pg).intr = none → s.urgent pg n = true → (t.rmbOf pg).cur = some x ∧ (t.rmbOf pg).intr = some k))) ∧
    ((s.rmbOf pg).pend.contains n = true → ∃ t, exec i s = .next t ∧ t.rd pg rmb.START_LOST_CNT = (s.rd pg rmb.START_LOST_CNT + 1) % 2 ^ 32 ∧
      bit (t.rd pg page.ERR_STAT) 7 = true ∧ (t.rmbOf pg).pend = (s.rmbOf pg).pend)) ∧
  (∀ (s : State) pg, s.flag pg (rmb.SRC_EN 7) = false → exec (.swStart pg) s = .next s) ∧
  (∀ (s : State) pg, (s.flag pg rmb.CAL_BUSY = true → exec (.calStart pg) s = .next s) ∧
    (s.flag pg rmb.CAL_BUSY = false → ∃ t, exec (.calStart pg) s = .next t ∧ t.flag pg rmb.CAL_BUSY = true ∧ (t.rmbOf pg).calN = 0)) ∧
  (∀ (s : State) p, ∃ t, exec (.snapshotStart p) s = .next t ∧
    ∀ pg ∈ s.rmbPages p, s.snapNow p pg = true →
      (t.rmbOf pg).snapDue = false ∧ t.rd pg rmb.SNAP_TICK = (s.part p).tick % 2 ^ 16) ∧
  (∀ (s : State) t, (s.flag (.rmbTile t) page.EN = false ∨ s.epochOver t = false → exec (.epochEnd t) s = .next s) ∧
    (s.flag (.rmbTile t) page.EN = true → s.epochOver t = true → ∃ u, exec (.epochEnd t) s = .next u ∧ (u.rmbOf (.rmbTile t)).powN = 0 ∧ (u.rmbOf (.rmbTile t)).epochAt = s.clock ∧
      ((s.rmbOf (.rmbTile t)).sampled s.clock = true → u.regs = s.regs ∧ ∃ e, (u.rmbOf (.rmbTile t)).closing = some e ∧ e.sum = (s.rmbOf (.rmbTile t)).powSum ∧
        e.n = (s.rmbOf (.rmbTile t)).powN ∧ e.start = (s.rmbOf (.rmbTile t)).epochAt ∧ e.stop = s.clock) ∧
      ((s.rmbOf (.rmbTile t)).sampled s.clock = false → (s.rmbOf (.rmbTile t)).powN = 0 → u.rd (.rmbTile t) rmb.EPOCH_NOSAMP_CNT = (s.rd (.rmbTile t) rmb.EPOCH_NOSAMP_CNT + 1) % 2 ^ 32) ∧
      ((s.rmbOf (.rmbTile t)).sampled s.clock = false → (s.rmbOf (.rmbTile t)).powN ≠ 0 → ∃ v, u.rd (.rmbTile t) rmb.P_EPOCH_LAST = v % 2 ^ 16 ∧
        (v = (s.rmbOf (.rmbTile t)).powSum * 500 * 4 / ((s.rmbOf (.rmbTile t)).powN * 2 ^ 24) ∨
         v = (s.rmbOf (.rmbTile t)).powSum * 500 * 4 / ((s.rmbOf (.rmbTile t)).powN * 2 ^ 24) + 1))))

/-- PORT_TRAIN of an enabled port before ACTIVE, and DOWN_RETRY 100 ms after it entered DOWN, that reach ACTIVE with a half of sixteen lanes good and no
other NODE_ID of the companion, leave the port ACTIVE at the lower of GEN_MAX and the generation reached, x8 where a lane failed, with the node's id;
with a failed lane in both halves the port is DOWN. An attempt that fails, and TRAINING_TIMEOUT, count it and lead back to DETECT, and the third of a
series, or one from DOWN, leaves the port DOWN. RETRAIN and BLOCK_LOCK_LOSS of an ACTIVE port begin a retrain; RETRAIN_TIMEOUT ends it in ACTIVE,
counted in RETRAIN_CNT, or in DOWN, counted in DOWN_CNT. In other states they change nothing.
Rules: R358, R359, R360, R364, R373, R383. -/
def Obligations.PortTraining : Prop :=
  (∀ (s : State) n d i, n < 8 → s.portEnabled n = true → ((i = .portTrain n d ∧ s.rd (.vlport n) vlport.LSTATE < 4) ∨
      (i = .downRetry n d ∧ s.rd (.vlport n) vlport.LSTATE = 6 ∧ (s.port n).sinceDown + 250000000 ≤ s.clock)) →
    (d.active = true → (laneHalf d.laneFail false = 0 ∨ laneHalf d.laneFail true = 0) → s.compClash n d.nodeId = false → ∃ t, exec i s = .next t ∧
      t.rd (.vlport n) vlport.LSTATE = 4 ∧ t.rd (.vlport n) vlport.GEN = min (s.rd (.vlport n) vlport.GEN_MAX) d.gen % 2 ^ 2 ∧
      t.flag (.vlport n) vlport.WIDTH = decide (d.laneFail % 65536 ≠ 0) ∧ t.rd (.vlport n) vlport.LANE_FAIL = d.laneFail % 2 ^ 16 ∧
      t.rd64 (.vlport n) vlport.NODE_ID_LO vlport.NODE_ID_HI = d.nodeId % 2 ^ 64) ∧
    (d.active = true → laneHalf d.laneFail false ≠ 0 → laneHalf d.laneFail true ≠ 0 → ∃ t, exec i s = .next t ∧ t.rd (.vlport n) vlport.LSTATE = 6) ∧
    (d.active = false → ∃ t, exec i s = .next t ∧ t.rd (.vlport n) vlport.LSTATE = if 2 ≤ (s.port n).attempts ∨ s.rd (.vlport n) vlport.LSTATE = 6 then 6 else 0)) ∧
  (∀ (s : State) n, n < 8 → s.portEnabled n = true → s.rd (.vlport n) vlport.LSTATE < 4 →
    ((s.port n).attempts < 2 → ∃ t, exec (.trainingTimeout n) s = .next t ∧ t.rd (.vlport n) vlport.LSTATE = 0 ∧ (t.port n).attempts = (s.port n).attempts + 1) ∧
    (2 ≤ (s.port n).attempts → ∃ t, exec (.trainingTimeout n) s = .next t ∧ t.rd (.vlport n) vlport.LSTATE = 6 ∧
      t.rd (.vlport n) vlport.DOWN_CNT = (s.rd (.vlport n) vlport.DOWN_CNT + 1) % 2 ^ 32 ∧ bit (t.rd (.vlport n) page.ERR_STAT) 2 = true)) ∧
  (∀ (s : State) n d, s.portEnabled n = false → exec (.portTrain n d) s = .next s ∧ exec (.trainingTimeout n) s = .next s ∧ exec (.downRetry n d) s = .next s) ∧
  (∀ (s : State) n i, n < 8 → i = .retrain n ∨ i = .blockLockLoss n → (s.portActive n = true → ∃ t, exec i s = .next t ∧ t.rd (.vlport n) vlport.LSTATE = 5 ∧
      t.ports = s.ports) ∧ (s.portActive n = false → exec i s = .next s)) ∧
  (∀ (s : State) n b, n < 8 → (s.rd (.vlport n) vlport.LSTATE = 5 → ∃ t, exec (.retrainTimeout n b) s = .next t ∧ t.rd (.vlport n) vlport.LSTATE = (if b then 4 else 6) ∧
      (b = true → t.rd (.vlport n) vlport.RETRAIN_CNT = (s.rd (.vlport n) vlport.RETRAIN_CNT + 1) % 2 ^ 32 ∧ bit (t.rd (.vlport n) page.ERR_STAT) 1 = true) ∧
      (b = false → t.rd (.vlport n) vlport.DOWN_CNT = (s.rd (.vlport n) vlport.DOWN_CNT + 1) % 2 ^ 32 ∧ bit (t.rd (.vlport n) page.ERR_STAT) 2 = true)) ∧
    (s.rd (.vlport n) vlport.LSTATE ≠ 5 → exec (.retrainTimeout n b) s = .next s))

/-- On a port that is not ACTIVE these commands change nothing. A data flit that is not good is counted and draws a NAK, one out of order draws a NAK; a
good one in order is taken, and one that carries a whole message acts as that message's command, an unknown opcode as a protocol error. An idle flit
returns credits and acknowledges. NAK acknowledges and returns credits too; it and ACK_TIMEOUT send the flits of the replay buffer again, NAK from the
one it names on, counted in REPLAY_CNT; the sixteenth replay without
an advance retrains the port. MMIO_WR and MMIO_RD that PORT_PARTS or MGMT does not allow are denied and counted; an allowed write has the effect of
the register write, an allowed read that of the read. SNP_INV drops the line from the cache. CMP and DATA with a tag that waits end that write or
read, an error of a write is counted, and a stale read stays; with another tag they only return the credits.
Rules: R361, R362, R363, R364, R366, R368, R370, R376, R381. -/
def Obligations.LinkMessages : Prop :=
  (∀ (s : State) n i, s.portActive n = false → ((∃ fseq ack vc cr ackv good corr bytes, i = .dataFlit n fseq ack vc cr ackv good corr bytes) ∨ (∃ ack vc cr ackv corr, i = .idleFlit n ack vc cr ackv corr) ∨
      (∃ q ack vc cr ackv corr, i = .nak n q ack vc cr ackv corr) ∨ i = .ackTimeout n ∨ (∃ tag a v, i = .mmioWr n tag a v) ∨ (∃ tag a, i = .mmioRd n tag a) ∨ (∃ a, i = .snpInv n a) ∨ (∃ tag st, i = .cmp n tag st) ∨
      (∃ tag st l, i = .data n tag st l)) → exec i s = .next s) ∧
  (∀ (s : State) n fseq ack vc cr ackv good corr bytes, s.portActive n = true →
    (good = false → ∃ t, exec (.dataFlit n fseq ack vc cr ackv good corr bytes) s = .next t ∧ t.rd (.vlport n) vlport.CRC_ERR_CNT = (s.rd (.vlport n) vlport.CRC_ERR_CNT + 1) % 2 ^ 32 ∧
      bit (t.rd (.vlport n) page.ERR_STAT) 0 = true ∧ (t.port n).nakSent = true ∧ (t.port n).rxSeq = (s.port n).rxSeq) ∧
    (good = true → fseq ≠ (s.port n).rxSeq → ∃ t, exec (.dataFlit n fseq ack vc cr ackv good corr bytes) s = .next t ∧ (t.port n).nakSent = true ∧ (t.port n).rxSeq = (s.port n).rxSeq) ∧
    (good = true → fseq = (s.port n).rxSeq → (s.port n).rxBuf = [] → ∃ u : State, u.regs = (s.corrected n corr).regs ∧ (u.port n).rxSeq = ((s.port n).rxSeq + 1) % 1024 ∧ (u.port n).nakSent = false ∧
      ((bytes = [] ∨ bytes.head? = some 0) → exec (.dataFlit n fseq ack vc cr ackv good corr bytes) s = .next (u.updPort n (fun x => { x with rxBuf := [] }))) ∧
      (∀ h i, bytes = h ++ [0] → h.length = 16 → ((h.head? = some 0x10 ∧ i = .mmioWr n (leNat ((h.drop 2).take 2) % 4096) (leNat ((h.drop 4).take 8)) (leNat ((h.drop 12).take 4))) ∨
          (h.head? = some 0x11 ∧ i = .mmioRd n (leNat ((h.drop 2).take 2) % 4096) (leNat ((h.drop 4).take 8))) ∨ (h.head? = some 0x12 ∧ i = .snpInv n (leNat ((h.drop 4).take 8))) ∨
          (h.head? = some 0x18 ∧ i = .cmp n (leNat ((h.drop 2).take 2) % 4096) (leNat ((h.drop 1).take 1) / 16))) →
        ∃ t, exec i u = .next t ∧ exec (.dataFlit n fseq ack vc cr ackv good corr bytes) s = .next (t.updPort n (fun x => { x with rxBuf := [] }))) ∧
      (∀ h, bytes = h ++ [0] → h.length = 16 → h.head? = some 0x1A → ∃ t, exec (.dataFlit n fseq ack vc cr ackv good corr bytes) s = .next t ∧
        t.rd (.vlport n) vlport.PROTO_ERR_CNT = ((s.corrected n corr).rd (.vlport n) vlport.PROTO_ERR_CNT + 1) % 2 ^ 32 ∧ bit (t.rd (.vlport n) page.ERR_STAT) 5 = true))) ∧
  (∀ (s : State) n ack vc cr ackv corr, s.portActive n = true → s.writes = [] → s.reads = [] → (∀ m, m < 8 → (s.port m).txWait = []) →
    ∃ t, exec (.idleFlit n ack vc cr ackv corr) s = .next t ∧ (t.port n).credits = setAt (s.port n).credits (vc % 4) ((s.port n).credits.getD (vc % 4) 0 + cr % 64) ∧
      (t.port n).replay = (if ackv then (ackTo ack (s.port n).replay).getD (s.port n).replay else (s.port n).replay) ∧ t.sent = s.sent) ∧
  (∀ (s : State) n q ack vc cr ackv corr, n < 8 → s.portActive n = true → s.writes = [] → s.reads = [] → (∀ m, m < 8 → (s.port m).txWait = []) →
    let x := ((s.corrected n corr).flitAck n ack ackv).port n
    (x.replay = (if ackv then (ackTo ack (s.port n).replay).getD (s.port n).replay else (s.port n).replay)) ∧
    (x.replays < 15 → ∃ t, exec (.nak n q ack vc cr ackv corr) s = .next t ∧ t.rd (.vlport n) vlport.REPLAY_CNT = (s.rd (.vlport n) vlport.REPLAY_CNT + 1) % 2 ^ 32 ∧
      t.sent = s.sent ++ (fromSeq q x.replay).map (fun e => .flit n 0 e.1) ∧ (t.port n).replay = x.replay ∧ (t.port n).replays = x.replays + 1 ∧
      (t.port n).credits = setAt (s.port n).credits (vc % 4) ((s.port n).credits.getD (vc % 4) 0 + cr % 64) ∧ t.portActive n = true) ∧
    (15 ≤ x.replays → ∃ t, exec (.nak n q ack vc cr ackv corr) s = .next t ∧ t.rd (.vlport n) vlport.LSTATE = 5)) ∧
  (∀ (s : State) n i l, n < 8 → s.portActive n = true →
      (i = .ackTimeout n ∧ l = (s.port n).replay ∧ (s.port n).replay ≠ [] ∧ (s.port n).ackTime + 5000 ≤ s.clock) →
    ((s.port n).replays < 15 → ∃ t, exec i s = .next t ∧ t.rd (.vlport n) vlport.REPLAY_CNT = (s.rd (.vlport n) vlport.REPLAY_CNT + 1) % 2 ^ 32 ∧ t.sent = s.sent ++ l.map (fun e => .flit n 0 e.1) ∧
      (t.port n).replay = (s.port n).replay ∧ (t.port n).replays = (s.port n).replays + 1 ∧ t.portActive n = true) ∧
    (15 ≤ (s.port n).replays → ∃ t, exec i s = .next t ∧ t.rd (.vlport n) vlport.LSTATE = 5)) ∧
  (∀ (s : State) n tag addr v i, s.portActive n = true → (i = .mmioWr n tag addr v ∨ i = .mmioRd n tag addr) → (s.emit (.credit n 0 1)).mmioAllowed n addr = false →
    ∃ t, exec i s = .next t ∧ t.rd (.vlport n) vlport.MMIO_DENY_CNT = (s.rd (.vlport n) vlport.MMIO_DENY_CNT + 1) % 2 ^ 32 ∧ bit (t.rd (.vlport n) page.ERR_STAT) 4 = true ∧ t.parts = s.parts) ∧
  (∀ (s : State) n tag addr v, s.portActive n = true → (s.emit (.credit n 0 1)).mmioAllowed n addr = true →
    (∃ t u, exec (.mmioWr n tag addr v) s = .next t ∧ exec (.registerWrite addr v) (s.emit (.credit n 0 1)) = .next u ∧ t.regs = u.regs ∧ t.parts = u.parts ∧ t.cores = u.cores ∧ t.sites = u.sites ∧
      t.reqs = u.reqs) ∧
    (∃ t, exec (.mmioRd n tag addr) s = .next t ∧ t.regs = ((s.emit (.credit n 0 1)).readReg addr).2.2.regs ∧ t.parts = s.parts ∧ t.cores = s.cores ∧ t.sites = s.sites)) ∧
  (∀ (s : State) n addr, s.portActive n = true → ∃ t, exec (.snpInv n addr) s = .next t ∧ addr / 64 ∉ (t.ctl (n / 4)).cache ∧
    t.rd (.vlport n) vlport.SNP_CNT = (s.rd (.vlport n) vlport.SNP_CNT + 1) % 2 ^ 32 ∧ t.reads.length = s.reads.length) ∧
  (∀ (s : State) n tag status, s.portActive n = true → (splitFirst (fun w => decide (w.port = some n ∧ w.tag = tag)) s.writes = none → exec (.cmp n tag status) s = .next (s.emit (.credit n 2 1))) ∧
    (∀ a w b, splitFirst (fun w => decide (w.port = some n ∧ w.tag = tag)) s.writes = some (a, w, b) → ∃ t, exec (.cmp n tag status) s = .next t ∧ t.writes.length = a.length + b.length ∧
      (status = 0 → t.regs = s.regs) ∧
      (status ≠ 0 → t.rd (.vlport n) vlport.WR_ERR_CNT = (s.rd (.vlport n) vlport.WR_ERR_CNT + 1) % 2 ^ 32 ∧ bit (t.rd (.vlport n) page.ERR_STAT) 6 = true))) ∧
  (∀ (s : State) n tag status l, s.portActive n = true → (splitFirst (fun r => decide (r.port = some n ∧ r.tag = tag)) s.reads = none →
      exec (.data n tag status l) s = .next (s.emit (.credit n 3 (1 + cdiv l.length 16)))) ∧
    (∀ a r b, splitFirst (fun r => decide (r.port = some n ∧ r.tag = tag)) s.reads = some (a, r, b) →
      (r.stale = true → ∃ t, exec (.data n tag status l) s = .next t ∧ t.reads.length = a.length + 1 + b.length ∧ t.regs = s.regs) ∧
      (r.stale = false → status = 0 ∨ r.what ≠ 1 → ∃ t, exec (.data n tag status l) s = .next t ∧ t.reads.length = a.length + b.length ∧ t.regs = s.regs ∧
        (status = 0 → r.cached = true → r.addr / 64 ∈ (t.ctl (n / 4)).cache))))

/-- BRINGUP runs once, after POWER_GOOD, with a control tile that is up. Where the SSBs of all of them end in the ROM it stops there; else it ends with
BRINGUP READY on each where its BOOT_STATE is RUN, and MAINT elsewhere, and the time in READY_MS. JOURNAL_RECORD_DURABLE of a record in hand, with
room for it, adds it to the log and counts it; where its program failed, the error is shown and its place abandoned while the table of 64 has room,
and with a full table the journal is FULL. COMPACTION makes the snapshot in hand the newest, erases the records that it covers, and ends FULL.
Rules: R390, R410, R411, R412, R433, R438, R439, R471. -/
def Obligations.BringupAndJournal : Prop :=
  (∀ (s : State) d, (s.flag .sps sps.POWER_GOOD = false ∨ s.rd (.ssb 0) ssb.BOOT_STATE ≠ 0 ∨ s.rd (.ssb 1) ssb.BOOT_STATE ≠ 0 ∨ s.ctlsUp = []) → exec (.bringup d) s = .next s) ∧
  (∀ (s : State) d, s.flag .sps sps.POWER_GOOD = true → s.rd (.ssb 0) ssb.BOOT_STATE = 0 → s.rd (.ssb 1) ssb.BOOT_STATE = 0 → s.ctlsUp ≠ [] →
    ∃ t, exec (.bringup d) s = .next t ∧
      (let u := (s.setFlag (.smc (s.ctlsUp.headD 0)) smc.NOR_GRANT true).replayNor.bootChain
       if u.ctlsUp.all (fun c => u.rd (.ssb c) ssb.BOOT_STATE = 3) then t = u
       else ∀ c ∈ t.ctlsUp, t.rd (.smc c) smc.READY_MS = d.ms % 2 ^ 32 ∧ t.rd (.smc c) smc.BRINGUP = (if t.rd (.ssb c) ssb.BOOT_STATE = 1 then 4 else 5))) ∧
  (∀ (s : State) ok, s.norHolder = none → exec (.journalRecordDurable ok) s = .next s) ∧
  (∀ (s : State) r, s.norHolder ≠ none → s.nor.writing = some r →
    (s.nor.erased ≠ 0 ∨ s.nor.off + r.body.units ≤ 4096 →
      (∃ t, exec (.journalRecordDurable true) s = .next t ∧ t.nor.log = s.nor.log ++ [{ r with sector := (s.nor.place r.body.units).sector }] ∧
        t.rd .journal journal.RECORD_CNT = (s.rd .journal journal.RECORD_CNT + 1) % 2 ^ 32) ∧
      (s.nor.abandon.length < 64 → ∃ t, exec (.journalRecordDurable false) s = .next t ∧ bit (t.rd .journal page.ERR_STAT) 0 = true ∧ t.nor.log = s.nor.log ∧ t.nor.writing = some r ∧
        t.nor.abandon = s.nor.abandon ++ [((s.nor.place r.body.units).sector, (s.nor.place r.body.units).off)] ∧ t.nor.full = s.nor.full) ∧
      (64 ≤ s.nor.abandon.length → ∃ t, exec (.journalRecordDurable false) s = .next t ∧ bit (t.rd .journal page.ERR_STAT) 2 = true ∧ t.nor.log = s.nor.log ∧ t.nor.full = true)) ∧
    (s.nor.erased = 0 → 4096 < s.nor.off + r.body.units → ∀ ok, ∃ t, exec (.journalRecordDurable ok) s = .next t ∧ bit (t.rd .journal page.ERR_STAT) 3 = true ∧ t.nor = s.nor)) ∧
  (∀ s : State, s.nor.compact = none → exec .compaction s = .next s) ∧
  (∀ (s : State) l q, s.nor.compact = some (l, q) → ∃ t, exec .compaction s = .next t ∧ t.nor.snap = l ∧ t.nor.snapSeq = q ∧ t.nor.compact = none ∧ t.nor.full = false ∧
    t.nor.log = s.nor.log.filter (fun r => q < r.seq) ∧ t.regs = s.regs)

/-- A frame of the Tally on a link that is not powered changes nothing, and one with a bad CRC only raises its error. A good READING brings the link up
and sets GEN_OK where the MCF speaks the Tally's generation; then E_IMP, E_REV, P_LAST, CHECKSUM and STATUS are its fields, and else they show zero. A
good SIGNED, LOG, CERT or STATUS is held in the frame buffer with its type and length; SIGNED of a request frees the request and takes one signature
index; STATUS BUSY and EXHAUSTED set their bits. INTERVAL_SIGN adds the energy of the interval, of which no pulse is lost (the pulses due and the
rest below one pulse rise together by the energy imported), moves T_SEC to the next multiple of 900 and sends an interval frame while indices are
left. TALLY_LINK_TIMEOUT, 300 ms after the last READING, takes the link down.
Rules: R417, R419, R420, R421, R422, R424, R425, R429, R430, R431. -/
def Obligations.TallyFrames : Prop :=
  (∀ (s : State) f i, i = .reading f ∨ i = .signed f ∨ i = .log f ∨ i = .cert f ∨ i = .status f → (s.tallyLink = false → exec i s = .next s) ∧
    (s.tallyLink = true → f.crcOk = false → ∃ t, exec i s = .next t ∧ bit (t.rd .tallyIf page.ERR_STAT) 1 = true ∧ t.tally = s.tally)) ∧
  (∀ (s : State) f, s.tallyLink = true → f.crcOk = true → ∃ t, exec (.reading f) s = .next t ∧
    (let w (i n : Nat) : Nat := leNat ((f.payload.drop i).take n)
     t.flag .tallyIf tallyIf.LINK_UP = true ∧ t.flag .tallyIf tallyIf.GEN_OK = decide (s.mcfGen = some s.tally.gen) ∧ t.tally.sinceReading = s.clock ∧
     t.tally.eImp = w 0 8 ∧ t.tally.tSec = w 28 8 ∧
     (s.mcfGen = some s.tally.gen → t.rd64 .tallyIf tallyIf.E_IMP_LO tallyIf.E_IMP_HI = w 0 8 % 2 ^ 64 ∧ t.rd64 .tallyIf tallyIf.E_REV_LO tallyIf.E_REV_HI = w 8 8 % 2 ^ 64 ∧
       t.rd .tallyIf tallyIf.P_LAST = w 24 4 % 2 ^ 32 ∧ t.rd .tallyIf tallyIf.CHECKSUM = w 36 2 % 2 ^ 16 ∧ t.rd .tallyIf tallyIf.STATUS = w 38 2 % 2 ^ 16) ∧
     (s.mcfGen ≠ some s.tally.gen → t.rd64 .tallyIf tallyIf.E_IMP_LO tallyIf.E_IMP_HI = 0 ∧ t.rd .tallyIf tallyIf.STATUS = 0))) ∧
  (∀ (s : State) f i k, s.tallyLink = true → f.crcOk = true → ((i = .signed f ∧ k = 2) ∨ (i = .log f ∧ k = 3) ∨ (i = .cert f ∧ k = 4) ∨ (i = .status f ∧ k = 5)) →
    ∃ t, exec i s = .next t ∧ t.tally.frame = frameBytes k f.fseq f.payload ∧ t.flag .tallyIf tallyIf.FRAME_VALID = true ∧ t.rd .tallyIf tallyIf.FRAME_TYPE = k ∧
      t.rd .tallyIf tallyIf.FRAME_LEN = (frameBytes k f.fseq f.payload).length % 2 ^ 16 ∧
      (k = 2 → f.payload.getD 88 0 = 1 → t.tally.queued = none ∧ (s.tally.spent = false → t.tally.q = (if s.tally.treeLeft ≠ 0 then s.tally.q else s.tally.trees * 32768) + 1)) ∧
      (k = 5 → f.payload = [1] → bit (t.rd .tallyIf page.ERR_STAT) 2 = true) ∧ (k = 5 → f.payload = [3] → bit (t.rd .tallyIf page.ERR_STAT) 7 = true)) ∧
  (∀ (s : State) a b, (s.hasTally = false → exec (.intervalSign a b) s = .next s) ∧
    (s.hasTally = true → ∃ t, exec (.intervalSign a b) s = .next t ∧ t.tally.eImp = (s.tally.eImp + a) % 2 ^ 64 ∧ t.tally.eRev = (s.tally.eRev + b) % 2 ^ 64 ∧ t.tally.tSec = (s.tally.tSec / 900 + 1) * 900 ∧
      t.tally.led.total * 100 + t.tally.led.rest = s.tally.led.total * 100 + s.tally.led.rest + a ∧
      t.tally.pulse.total * 1000 + t.tally.pulse.rest = s.tally.pulse.total * 1000 + s.tally.pulse.rest + a ∧
      (s.tally.spent = true → t.sent = s.sent) ∧ (s.tally.spent = false → ∃ l, t.sent = s.sent ++ [.tallyOut 2 s.tally.fseqTx l] ∧ t.tally.fseqTx = (s.tally.fseqTx + 1) % 65536))) ∧
  (∀ s : State, (s.flag .tallyIf tallyIf.LINK_UP = false ∨ s.clock < s.tally.sinceReading + 750000000 → exec .tallyLinkTimeout s = .next s) ∧
    (s.flag .tallyIf tallyIf.LINK_UP = true → s.tally.sinceReading + 750000000 ≤ s.clock → ∃ t, exec .tallyLinkTimeout s = .next t ∧ t.flag .tallyIf tallyIf.LINK_UP = false ∧
      bit (t.rd .tallyIf page.ERR_STAT) 0 = true ∧ t.tally.eLast = none))

/-- Requests on a link that is not powered change nothing. REQ_SIGNED sends the nonce, which the Tally queues, or answers EXHAUSTED or BUSY; REQ_LOG is
answered with the record that LOG_IDX names, or NO_RECORD where there is none or the ring has overwritten it; REQ_CERT with the certificate.
TALLY_HOLDUP_SAVE records the registers and abandons the rest of the tree. SEAL_OPEN and SEAL_CLOSED record a change of the seal. FW_CHANGE, which
works only while the cover is open, records a refused object, or the old and new checksums and versions, takes the new firmware and keeps the energy
registers. SHARE_UPDATE of a
module in service adds to every partition its part of the energy of the second, in the ratio of the tiles' energies and rounded up or down, and starts
the next second.
Rules: R417, R420, R422, R425, R426, R427, R428, R429. -/
def Obligations.TallyServices : Prop :=
  (∀ (s : State) i, s.tallyLink = false → i = .reqSigned ∨ i = .reqLog ∨ i = .reqCert → exec i s = .next s) ∧
  (∀ s : State, s.tallyLink = true →
    (let nonce := (List.range 8).flatMap (fun i => leBytes 4 (s.rd .tallyIf (tallyIf.NONCE i)))
     ∃ t, exec .reqSigned s = .next t ∧ t.sent = s.sent ++ [.tallyFrame 0x81 s.tally.fseqRx nonce] ++
       (if s.tally.spent then [.tallyOut 5 s.tally.fseqTx [3]] else if s.tally.queued.isSome then [.tallyOut 5 s.tally.fseqTx [1]] else []) ∧
       t.tally.queued = if s.tally.spent = false ∧ s.tally.queued = none then some (leNat nonce) else s.tally.queued) ∧
    (∃ t, exec .reqLog s = .next t ∧ t.sent = s.sent ++ [.tallyFrame 0x82 s.tally.fseqRx (leBytes 4 (s.rd .tallyIf tallyIf.LOG_IDX))] ++
      (match s.tally.log.find? (fun r => r.seq = s.rd .tallyIf tallyIf.LOG_IDX) with
        | some r => if s.tally.logNext ≤ s.rd .tallyIf tallyIf.LOG_IDX + Config.tallyRing then [.tallyOut 3 s.tally.fseqTx r.bytes] else [.tallyOut 5 s.tally.fseqTx [2]]
        | none => [.tallyOut 5 s.tally.fseqTx [2]])) ∧
    (∃ t l, exec .reqCert s = .next t ∧ t.sent = s.sent ++ [.tallyFrame 0x84 s.tally.fseqRx [], .tallyOut 4 s.tally.fseqTx l] ∧ l.length = 3400)) ∧
  (∀ (s : State), s.hasTally = true → ∃ t, exec .tallyHoldupSave s = .next t ∧ t.tally.treeLeft = 0 ∧ t.tally.queued = none ∧
    t.tally.log = s.tally.log ++ [{ seq := s.tally.logNext, kind := 3, vals := [s.tally.eImp, s.tally.eRev, s.tally.tSec] }]) ∧
  (∀ (s : State) i, s.hasTally = false → (i = .tallyHoldupSave ∨ i = .sealOpen ∨ i = .sealClosed ∨ ∃ b, i = .fwChange b) → exec i s = .next s) ∧
  (∀ (s : State), s.hasTally = true →
    (s.tally.sealOpen = false → (∃ t, exec .sealOpen s = .next t ∧ t.tally.sealOpen = true ∧ t.tally.log = s.tally.log ++ [{ seq := s.tally.logNext, kind := 4, vals := [] }]) ∧ exec .sealClosed s = .next s ∧
      ∀ b, exec (.fwChange b) s = .next s) ∧
    (s.tally.sealOpen = true → (∃ t, exec .sealClosed s = .next t ∧ t.tally.sealOpen = false ∧ t.tally.log = s.tally.log ++ [{ seq := s.tally.logNext, kind := 5, vals := [] }]) ∧ exec .sealOpen s = .next s ∧
      ∀ b, let o := signedObjOf b
        let sum := crc16 o.payload
        let ok := s.tally.accepts o
        ∃ t, exec (.fwChange b) s = .next t ∧ t.tally.checksum = (if ok then sum else s.tally.checksum) ∧
          t.tally.version = (if ok then o.version else s.tally.version) ∧ t.tally.eImp = s.tally.eImp ∧ t.tally.eRev = s.tally.eRev ∧
          t.tally.log = s.tally.log ++ [if ok then { seq := s.tally.logNext, kind := 6, vals := [s.tally.checksum, s.tally.version, sum, o.version] }
            else { seq := s.tally.logNext, kind := 7, vals := [] }])) ∧
  (∀ (s : State) pin, (s.sps.state ≠ .good → exec (.shareUpdate pin) s = .next s) ∧
    (s.sps.state = .good → ∃ t, exec (.shareUpdate pin) s = .next t ∧ t.flag .tallyIf tallyIf.SHARE_SRC = (s.inputEnergy pin).2 ∧
      (let total := ((List.range 12).map (fun p => (s.part p).tileE)).sum
       ∀ p, p < 12 → ∃ v, t.part p = { s.part p with shareE := ((s.part p).shareE + v) % 2 ^ 64, tileE := 0 } ∧ (total = 0 → v = 0) ∧
         (total ≠ 0 → v = (s.inputEnergy pin).1 * (s.part p).tileE / total ∨ v = (s.inputEnergy pin).1 * (s.part p).tileE / total + 1))))

/-- BUDGET takes a value of 60 to 1,200 while the tile's partition is OFF, and PROG_BASE and ARRAY_DEFECT_POLICY any; a write that they ignore leaves the
value and shows BUDGET_LOCKED or CFG_LOCKED, and one that they take clears it. A new policy takes effect at once: an array is enabled with fewer than
two defects, or with two where its policy bit is 0. ERR_INJECT on a common page that INJ_LOCK does not close sets every named bit that the block has,
and nothing but that page's registers changes; with INJ_LOCK it changes nothing. FIRST_VALID clears the capture and its counter and keeps ERR_TICK, but for a capture of the same clock cycle, which stands.
LOCK and INJ_LOCK set their bits. Pages without the common layout ignore the common commands.
Rules: R11, R69, R70, R79, R453, R454, R455, R463. -/
def Obligations.RegisterCommands : Prop :=
  (∀ (s : State) t v, ∃ u, exec (.budget t v) s = .next u ∧
    (s.tileBusy t = true ∨ 1200 < v ∨ v < 60 → u.flag (.tileGlb t) tileGlb.BUDGET_LOCKED = true ∧ u.rd (.tileGlb t) tileGlb.BUDGET = s.rd (.tileGlb t) tileGlb.BUDGET) ∧
    (s.tileBusy t = false → 60 ≤ v → v ≤ 1200 → u.flag (.tileGlb t) tileGlb.BUDGET_LOCKED = false ∧ u.rd (.tileGlb t) tileGlb.BUDGET = v)) ∧
  (∀ (s : State) g v, ∃ u, exec (.progBase g v) s = .next u ∧
    (s.tileBusy (tileOf g) = true → u.flag (.core g) core.CFG_LOCKED = true ∧ u.rd (.core g) core.PROG_BASE = s.rd (.core g) core.PROG_BASE) ∧
    (s.tileBusy (tileOf g) = false → u.flag (.core g) core.CFG_LOCKED = false ∧ u.rd (.core g) core.PROG_BASE = v % 2 ^ 20)) ∧
  (∀ (s : State) g v, ∃ u, exec (.arrayDefectPolicy g v) s = .next u ∧
    (s.tileBusy (tileOf g) = true → u.flag (.core g) core.CFG_LOCKED = true ∧ u.rd (.core g) core.ARRAY_DEFECT_POLICY = s.rd (.core g) core.ARRAY_DEFECT_POLICY ∧
      u.rd (.core g) core.ARRAY_EN = s.rd (.core g) core.ARRAY_EN) ∧
    (s.tileBusy (tileOf g) = false → u.flag (.core g) core.CFG_LOCKED = false ∧ u.rd (.core g) core.ARRAY_DEFECT_POLICY = v % 2 ^ 4 ∧
      ∀ a, a < 4 → bit (u.rd (.core g) core.ARRAY_EN) a = (decide (s.rd (.core g) (core.DEFECT_CNT a) < 2) || (decide (s.rd (.core g) (core.DEFECT_CNT a) = 2) && !bit (v % 2 ^ 4) a)) ∧
        bit (u.rd (.core g) core.ARRAY_NARROW) a = (decide (s.rd (.core g) (core.DEFECT_CNT a) = 2) && !bit (v % 2 ^ 4) a))) ∧
  (∀ (s : State) pg v, pg.common = true → (s.flag pg page.INJ_LOCK = true → exec (.errInject pg v) s = .next s) ∧
    (s.flag pg page.INJ_LOCK = false → ∃ u, exec (.errInject pg v) s = .next u ∧ (∀ b, b < pg.errBits → bit v b = true → bit (u.rd pg page.ERR_STAT) b = true) ∧
      u.parts = s.parts ∧ u.cores = s.cores ∧ u.sites = s.sites ∧ u.sps = s.sps ∧ u.nor = s.nor ∧ ∀ (q : Page) k, q.id ≠ pg.id → k.off * 32 + k.lsb < 131072 → u.rd q k = s.rd q k)) ∧
  (∀ (s : State) pg, pg.common = true →
    (s.setNow pg page.FIRST_VALID 0 = true → exec (.firstValid pg) s = .next s) ∧
    (s.setNow pg page.FIRST_VALID 0 = false → ∃ u, exec (.firstValid pg) s = .next u ∧ u.flag pg page.FIRST_VALID = false ∧ u.rd pg page.FIRST_MORE = 0 ∧ u.rd pg page.ERR_STAT = s.rd pg page.ERR_STAT ∧
      u.rd pg page.ERR_TICK_LO = s.rd pg page.ERR_TICK_LO ∧ u.rd pg page.ERR_TICK_HI = s.rd pg page.ERR_TICK_HI) ∧
    (∃ u, exec (.lock pg) s = .next u ∧ u.flag pg page.LOCK = true) ∧ (∃ u, exec (.injLock pg) s = .next u ∧ u.flag pg page.INJ_LOCK = true)) ∧
  (∀ (s : State) pg i, pg.common = false → (∃ v, i = .errInject pg v) ∨ i = .firstValid pg ∨ i = .lock pg ∨ i = .injLock pg → exec i s = .next s)

/-- A read of HT_DATA_LO latches the upper part of the selected hold-table entry in HT_DATA_HI, one of FLOG_DATA0 the record that FLOG_SEL selects in
FLOG_DATA 0 to 7, and one of SEQ_LAST_LO the upper part of SEQ_LAST in SEQ_LAST_HI; what the register shows is reported. A register write at an
address that is no multiple of 4, or where no page lies, or where the block is absent, changes nothing. A write of BUDGET of a present tile, of CMD_PI
of a present partition's doorbell page, and of SCRATCH of a present page is the BUDGET command, the CMD_PI command, and the stored word.
Rules: R57, R448, R458, R459, R462, R463, R467, R469, R470, R472. -/
def Obligations.RegisterAccess : Prop :=
  (∀ (s : State) p, ∃ t, exec (.htDataLo p) s = .next t ∧ t.rd (.packer p) packer.HT_DATA_HI = s.htEntry p / 2 ^ 32 % 2 ^ 32 ∧
    t.sent = s.sent ++ [.readBack (Page.packer p).id 0x048 (if s.present (.packer p) then s.htEntry p % 2 ^ 32 else 0)] ∧ t.parts = s.parts) ∧
  (∀ (s : State) c, ∃ t, exec (.flogData0 c) s = .next t ∧ t.faultLog = s.faultLog ∧ ∀ i, i < 8 →
    t.rd (.smc c) (smc.FLOG_DATA i) = (match s.faultLog[s.rd (.smc c) smc.FLOG_SEL]? with
      | some r => leNat ((r.bytes.drop (4 * i)).take 4) % 2 ^ 32
      | none => 0)) ∧
  (∀ s : State, ∃ t, exec .seqLastLo s = .next t ∧ (s.norHolder ≠ none → t.rd .journal journal.SEQ_LAST_HI = s.nor.seqLast / 2 ^ 32 % 2 ^ 32) ∧ (s.norHolder = none → t.regs = s.regs) ∧
    t.sent = s.sent ++ [.readBack Page.journal.id 0x040 (s.view .journal journal.SEQ_LAST_LO)] ∧ t.nor = s.nor) ∧
  (∀ (s : State) addr v, addr % 4 ≠ 0 ∨ pageOf (addr / 4096) = none ∨ (∃ pg c, pageOf (addr / 4096) = some (pg, c) ∧ pg ≠ .sps ∧ s.present pg = false) → exec (.registerWrite addr v) s = .next s) ∧
  (∀ (s : State) t v, t < 72 → s.present (.tileGlb t) = true → exec (.registerWrite ((0x1000 + t * 64) * 4096 + 0x44) v) s = exec (.budget t (v % 2 ^ 11)) s) ∧
  (∀ (s : State) p v, p < 12 → s.present (.doorbell p) = true → exec (.registerWrite ((0x3E00 + p) * 4096) v) s = exec (.cmdPi p (v % 2 ^ 17)) s) ∧
  (∀ (s : State) t v, t < 72 → s.present (.tileGlb t) = true → ∃ u, exec (.registerWrite ((0x1000 + t * 64) * 4096 + 0x2C) v) s = .next u ∧
    u.rd (.tileGlb t) page.SCRATCH = v % 2 ^ 32 ∧ ∀ q k, regKey q k ≠ regKey (.tileGlb t) page.SCRATCH → u.rd q k = s.rd q k)

/-- Whatever the state and the operands, a command that answers a next state leaves the queue of commands as it was and changes no field of the state but
those that mayChange lists for it. A command of a core changes cores, its crag's bus and registers; a command of the power sequencer, the Tally, the
journal, a rail monitor or a port changes its own unit and the registers, and what it says it changes beside; only SVN_COMMIT, a revocation that is
staged and a register write change fuses, and no command changes the clock, which the empty queue moves.
Rules: R3, R5, R74, R176, R289, R306, R389, R410, R415, R453. -/
def Obligations.CommandsChangeOnlyTheirFields : Prop :=
  ∀ (i : Instr) (s t : State), exec i s = .next t → t.pending = s.pending ∧ ∀ k : StateField, k ∉ mayChange i → State.kept s t k

/-- On a page of the common layout ERR_INJECT is ignored while INJ_LOCK is 1. Otherwise it sets exactly the ERR_STAT bits that the value holds and the
block defines. With FIRST_VALID at 0 the lowest of them that ERR_MASK leaves unmasked is captured, with FIRST_VALID and FIRST_INJ set and ERR_TICK
stamped by the partition's tick or by the microseconds since POWER_GOOD, and the other unmasked ones are counted in FIRST_MORE; with FIRST_VALID at 1
the capture stands and all are counted. A change of the page's summary is reported once. Nothing but registers of that page and the events reported
changes.
Rules: R454. -/
def Obligations.ErrorInjection : Prop :=
  ∀ (s : State) pg v, pg.common = true → (s.flag pg page.INJ_LOCK = true → exec (.errInject pg v) s = .next s) ∧
    (s.flag pg page.INJ_LOCK = false → ∃ u, exec (.errInject pg v) s = .next u ∧
      { u with regs := s.regs, sent := s.sent } = s ∧ (∀ (q : Page) k, q.id ≠ pg.id → k.off * 32 + k.lsb < 131072 → u.rd q k = s.rd q k) ∧
      (∀ b, b < 32 → bit (u.rd pg page.ERR_STAT) b = (bit (s.rd pg page.ERR_STAT) b || (decide (b < pg.errBits) && bit v b))) ∧
      u.sent = s.sent ++ (if u.summary pg = s.summary pg then [] else [.event pg.id (b2n (u.summary pg))]) ∧
      ((List.range pg.errBits).filter (fun b => bit v b && !bit (s.rd pg page.ERR_MASK) b) = [] →
        u.rd pg page.FIRST_BIT = s.rd pg page.FIRST_BIT ∧ u.flag pg page.FIRST_VALID = s.flag pg page.FIRST_VALID ∧ u.flag pg page.FIRST_INJ = s.flag pg page.FIRST_INJ ∧
        u.rd pg page.FIRST_MORE = s.rd pg page.FIRST_MORE) ∧
      ∀ b l, (List.range pg.errBits).filter (fun b => bit v b && !bit (s.rd pg page.ERR_MASK) b) = b :: l → u.flag pg page.FIRST_VALID = true ∧
        (s.flag pg page.FIRST_VALID = true → u.rd pg page.FIRST_BIT = s.rd pg page.FIRST_BIT ∧ u.flag pg page.FIRST_INJ = s.flag pg page.FIRST_INJ ∧
          u.rd pg page.FIRST_MORE = min (s.rd pg page.FIRST_MORE + l.length + 1) 0xFFFF) ∧
        (s.flag pg page.FIRST_VALID = false → u.rd pg page.FIRST_BIT = b ∧ u.flag pg page.FIRST_INJ = true ∧ u.rd pg page.FIRST_MORE = min (s.rd pg page.FIRST_MORE + l.length) 0xFFFF ∧
          u.flag pg page.TICK_SRC = (s.pagePart pg).isNone ∧
          u.rd pg page.ERR_TICK_LO = (match s.pagePart pg with | some q => (s.part q).tick | none => s.sps.micros) % 2 ^ 32))

/-- A core (cx,cy) of a tile lies in the crag of index gy × 4 + gx of that tile exactly when cx is 4gx to 4gx + 3 and cy is 4gy to 4gy + 3. The crag's
parity core is (4gx + 3, 4gy + 3) and its hot spare (4gx + 3, 4gy + 2). On a powered, functional tile without a fault at the core, with no
stand-in or one due in the crag and no role kept until the boundary, the role of the core is parity for the first, spare for the second and data for the other 14.
Rules: R16. -/
def Obligations.GeometryOfCrags : Prop :=
  ∀ t gx gy cx cy, gx < 4 → gy < 4 → cx < 16 → cy < 16 →
    (cragOf (coreAt t cx cy) = t * 16 + (gy * 4 + gx) ↔ (4 * gx ≤ cx ∧ cx ≤ 4 * gx + 3 ∧ 4 * gy ≤ cy ∧ cy ≤ 4 * gy + 3)) ∧
    parityCore (t * 16 + (gy * 4 + gx)) = coreAt t (4 * gx + 3) (4 * gy + 3) ∧ spareCore (t * 16 + (gy * 4 + gx)) = coreAt t (4 * gx + 3) (4 * gy + 2) ∧
    ∀ (s : State) g, g = coreAt t cx cy → cragOf g = t * 16 + (gy * 4 + gx) → s.flag .sps sps.POWER_GOOD = true → s.functional t = true → s.mapped 1 g = 0 →
      (s.core g).faulty = false → s.rd (cragPage (cragOf g)) crag.STAND_FOR = 15 → s.spareDue (cragOf g) = false → s.keptRole g = none →
      s.roleOf g = if g = coreAt t (4 * gx + 3) (4 * gy + 3) then 1 else if g = coreAt t (4 * gx + 3) (4 * gy + 2) then 2 else 0

/-- Where the commands of the mesh, the slabs' parity and the memory sites complete, each named, with the main thing each does. The oldest flit of a core's ejection
queue, with its window open for its tick: WRITE, ADD_INT32, ADD_FP32, XOR and MAX_FP32 inside the window, LSE_MERGE of a payload 0 with no merge open,
and APPEND of a descriptor that is not refused take it from the queue and count it on its route; SIGNAL on time raises the semaphore that is below
65,535. EARLY_FLIT_RELEASE applies the first released flit. XOR_DELTA_APPLY takes the oldest delta of the bus. BULK at its destination router hands
the oldest bulk flit to the slab. BULK_RETRY starts a transfer again. MEM_REQ and MEM_DATA are taken by the site. SEND, SEND_MC and SEND_RED whose
fields pass the checks take the send unit.
Rules: R119, R123, R125, R141, R142, R144, R159, R162, R173, R174, R200. -/
def Obligations.MeshAndSiteCommandsComplete : Prop :=
  (∀ (s : State) g x rest, (s.core g).ej = x :: rest → s.ejectFree g = true → x.since ≤ s.clock → s.slabDead g = false →
    let c := s.core g
    let ent := s.entryOf x
    let n := c.appliedN x.key
    let taken (t : State) : Prop := (t.core g).ej = rest ∧ (t.core g).appliedN x.key = n + 1
    (handling (c.win (rtWid ent)) x.flit.stamp (s.tickOf g) (s.cycOf g) = .apply → rtOff0 ent + rtStride ent * n < (c.win (rtWid ent)).len →
      (x.flit.op = 0 → ∃ t, exec (.write g) s = .next t ∧ taken t) ∧
      (x.flit.op = 1 → ∃ t, exec (.addInt32 g) s = .next t ∧ taken t) ∧
      (x.flit.op = 2 → ∃ t, exec (.addFp32 g) s = .next t ∧ taken t) ∧
      (x.flit.op = 3 → ∃ t, exec (Instr.xor g) s = .next t ∧ taken t) ∧
      (x.flit.op = 4 → ∃ t, exec (.maxFp32 g) s = .next t ∧ taken t) ∧
      (x.flit.op = 5 → n % 9 = 0 → (∀ m ∈ c.merges, m.wid ≠ rtWid ent) → ∃ t, exec (.lseMerge g) s = .next t ∧ taken t ∧
        (t.core g).merges.length = c.merges.length + 1) ∧
      (x.flit.op = 7 → x.flit.nth = 0 → (c.openAppend x).act ≠ .refuse → ∃ t, exec (.append g) s = .next t ∧ taken t ∧
        (t.core g).appendOf x = some (c.openAppend x))) ∧
    (x.flit.op = 6 → classify x.flit.stamp (s.tickOf g) (s.cycOf g) = .onTime → c.sem (rtSid ent) < 65535 → ∃ t, exec (.signal g) s = .next t ∧
      (t.core g).ej = rest ∧ (t.core g).sem (rtSid ent) = c.sem (rtSid ent) + 1)) ∧
  (∀ (s : State) g x rest, (s.core g).rel = x :: rest → s.ejectFree g = true → x.since ≤ s.clock → (∀ y ∈ (s.core g).ej, s.clock < y.since) →
    x.flit.op = 0 → ((s.core g).win (rtWid (s.entryOf x))).state = .opened → ((s.core g).win (rtWid (s.entryOf x))).stamp = x.flit.stamp →
    rtOff0 (s.entryOf x) + rtStride (s.entryOf x) * (s.core g).appliedN x.key < ((s.core g).win (rtWid (s.entryOf x))).len → s.slabDead g = false →
    ∃ t, exec (.earlyFlitRelease g) s = .next t ∧ (t.core g).rel = rest ∧ (t.core g).appliedN x.key = (s.core g).appliedN x.key + 1) ∧
  (∀ (s : State) y d rest, (s.crag y).deltas = d :: rest → ∃ t, exec (.xorDeltaApply y) s = .next t ∧ (t.crag y).deltas = rest ∧
    t.core (parityCore y) = (s.core (parityCore y)).write d.addr (xorBytes ((s.core (parityCore y)).recv d.addr d.bytes.length) d.bytes)) ∧
  (∀ (s : State) g p f rest, (s.router g).bulk = f :: rest → s.corePart g = some p → s.steps p = true → (s.router g).disp = [] →
    s.draining f.part = false → s.bulkPort g f = some portL → s.freePort g portL = true → (s.core (s.ejectCore g)).slabAt ≠ some s.clock →
    f.bulkOff + 24 ≤ 0x800000 → s.slabDead (s.ejectCore g) = false → ∃ t, exec (.bulk g) s = .next t ∧ (t.router g).bulk = rest ∧
      ∀ b, (t.core (s.ejectCore g)).byte b = ((s.core (s.ejectCore g)).write (0x800000 + f.bulkOff) (f.payload.take 24)).byte b) ∧
  (∀ (s : State) p x rest d, (s.part p).xfers = x :: rest → x.desc = some d → x.got = none → x.sent + 2 ^ 20 ≤ s.clock →
    ∃ t, exec (.bulkRetry p x.cmd.tid) s = .next t ∧ (t.router d.core).exports = (s.router d.core).exports ++ [(d, 0)]) ∧
  (∀ (s s1 : State) m ch f, (s.site m).up = true → s.flag (.msite m) msite.HOT = false → (s.site m).draining = false → (s.site m).zeroing = [] →
    s.takeSite m 9 = some (ch, f, s1) → ∃ t, exec (.memReq m false) s = .next t ∧
      (t.site m).transfers.length = ((s.site m).transfers.filter (fun t => t.tid ≠ f.tid)).length + 1) ∧
  (∀ (s s1 : State) m ch f x rest, (s.site m).up = true → s.takeSite m 10 = some (ch, f, s1) → (s.site m).transfers = x :: rest → x.tid = f.tid →
    x.status = 0 → s1.exportStatus m x.region x.offset x.nflit = 0 → 2 ≤ x.left → ∃ t, exec (.memData m false .none) s = .next t ∧
      (t.site m).transfers = { x with left := x.left - 1, written := x.written + 1 } :: rest) ∧
  (∀ (s : State) g e, sendCheck e.word = none →
    (s.Takes g 0x30 .send e → ∃ t, exec (.send g .none) s = .next t ∧ ∃ j, (t.core g).send = some j ∧ j.idx = e.idx) ∧
    (s.Takes g 0x31 .send e → ∃ t, exec (.sendMc g .none) s = .next t ∧ ∃ j, (t.core g).send = some j ∧ j.idx = e.idx) ∧
    (s.Takes g 0x32 .send e → ∃ t, exec (.sendRed g .none) s = .next t ∧ ∃ j, (t.core g).send = some j ∧ j.idx = e.idx))

/-- Where the elementwise commands and the page mover's commands complete, each named. When core g issues WU_MUL, WU_MAX, WU_EXP, WU_RSQRT, WU_RECIP or
WU_SILU with LEN not 0 and its operand ranges whole in the local store, its result is in the destination. A command that comes to a page mover that may run,
with an empty queue and a range it serves and can read, runs at once with status 0: STAGE_IN, STAGE_OUT, LOAD, IMPORT, COPY and ZERO. PAGE_MOVER_DONE hands
its completion word out.
Rules: R59, R71, R78, R94, R172, R189, R201. -/
def Obligations.WideAndPageMoverCommandsComplete : Prop :=
  (∀ (s : State) g e m, cLen e.word ≠ 0 → rangeOk [.localStore] (cA e.word) (vecBytes m.aBf (cLen e.word)) = true →
    rangeOk [.localStore] (cDst e.word) (vecBytes m.dBf (cLen e.word)) = true →
    let c := (s.core g).issuedIn (s.cycOf g)
    let a := c.vec m.aBf (cA e.word) (cLen e.word)
    let b := c.vec m.bBf (cB e.word) (cLen e.word)
    let stores (l : List F32) (t : State) : Prop := ∀ i, (t.core g).byte i = ((s.core g).write (cDst e.word) (vecOut m.dBf l)).byte i
    (rangeOk [.localStore] (cB e.word) (vecBytes m.bBf (cLen e.word)) = true →
      (s.Takes g 0x21 .wide e → ∃ t, exec (.wuMul g m .none) s = .next t ∧ stores (List.zipWith fmul a b) t) ∧
      (s.Takes g 0x23 .wide e → ∃ t, exec (.wuMax g m .none) s = .next t ∧ stores (List.zipWith fmax a b) t)) ∧
    (s.Takes g 0x24 .wide e → ∃ t, exec (.wuExp g m .none) s = .next t ∧ stores (a.map fexp) t) ∧
    (s.Takes g 0x25 .wide e → ∃ t, exec (.wuRsqrt g m .none) s = .next t ∧ stores (a.map frsqrt) t) ∧
    (s.Takes g 0x26 .wide e → ∃ t, exec (.wuRecip g m .none) s = .next t ∧ stores (a.map frecip) t) ∧
    (s.Takes g 0x27 .wide e → ∃ t, exec (.wuSilu g m .none) s = .next t ∧ stores (a.map fsilu) t)) ∧
  (∀ (s : State) m p (c : PmCmd) bytes, (s.site m).pm = [] → (s.site m).draining = false → s.sitePart m = some p → s.pmFree m = true →
    (s.part p).xfers.any (fun x => x.cmd.tid = c.tid) = false →
    (s.sourceLines m (s.region m c.region) c.length (fun i => 32 * c.offset + 32 * i) .none).2 = [] →
    let ran (op : Nat) (t : State) : Prop := ∃ j, (t.site m).pm = [j] ∧ j.ran = true ∧ j.status = 0 ∧ j.cmd = { c with op := op }
    (s.pmStatus m { c with op := 1 } = 0 → ∃ t, exec (.stageIn m c bytes .none) s = .next t ∧ ran 1 t) ∧
    (s.pmStatus m { c with op := 2 } = 0 → ∃ t, exec (.stageOut m c .none) s = .next t ∧ ran 2 t) ∧
    (s.pmStatus m { c with op := 3 } = 0 → ∃ t, exec (.load m c .none) s = .next t ∧ ran 3 t) ∧
    (s.pmStatus m { c with op := 4 } = 0 → ∃ t, exec (.importRange m c .none) s = .next t ∧ ran 4 t) ∧
    (s.pmStatus m { c with op := 5 } = 0 → ∃ t, exec (.copy m c .none) s = .next t ∧ ran 5 t) ∧
    (s.pmStatus m { c with op := 6 } = 0 → ∃ t, exec (.zero m c .none) s = .next t ∧ ran 6 t)) ∧
  (∀ (s : State) m u j rest, (s.site m).pm = j :: rest → j.ran = true → (s.site m).draining = false → s.pmFree m = false →
    (s.part ((s.sitePart m).getD 0)).job = none → ∃ t, exec (.pageMoverDone m u) s = .next t ∧ (t.site m).pm = rest)

/-- Where the commands of the Tally, the Verglas Links, the power sequencer, the rail monitors' timers and the journal complete, each named, with the main
thing each does: a good SIGNED, LOG, CERT or STATUS frame is held with its type; REQ_SIGNED, REQ_LOG and REQ_CERT send their frames; TALLY_HOLDUP_SAVE
records the registers; SEAL_OPEN and SEAL_CLOSED change the seal; TALLY_LINK_TIMEOUT takes the link down; NAK and ACK_TIMEOUT count a replay;
BLOCK_LOCK_LOSS and RETRAIN begin a retrain; POWER_DOWN, SHUTDOWN, SHUTDOWN_TIMEOUT, MODULE_RESET and CLOCK_LOSS act on the sequencer; a timer of a
rail monitor starts its entry; COMPACTION makes its snapshot; a read of SEQ_LAST_LO latches SEQ_LAST_HI.
Rules: R323, R326, R344, R359, R364, R411, R417, R420, R425, R426, R427, R432. -/
def Obligations.UnitCommandsComplete : Prop :=
  (∀ (s : State) f, s.tallyLink = true → f.crcOk = true →
    let held (k : Nat) (t : State) : Prop := t.flag .tallyIf tallyIf.FRAME_VALID = true ∧ t.rd .tallyIf tallyIf.FRAME_TYPE = k
    (∃ t, exec (.signed f) s = .next t ∧ held 2 t) ∧ (∃ t, exec (.log f) s = .next t ∧ held 3 t) ∧
    (∃ t, exec (.cert f) s = .next t ∧ held 4 t) ∧ (∃ t, exec (.status f) s = .next t ∧ held 5 t)) ∧
  (∀ s : State, s.tallyLink = true →
    (s.tally.spent = false → s.tally.queued = none → ∃ t, exec .reqSigned s = .next t ∧ t.tally.queued ≠ none) ∧
    (∃ t, exec .reqLog s = .next t ∧ s.sent.length + 2 = t.sent.length) ∧ (∃ t, exec .reqCert s = .next t ∧ s.sent.length + 2 = t.sent.length)) ∧
  (∀ s : State, s.hasTally = true →
    (∃ t, exec .tallyHoldupSave s = .next t ∧ t.tally.log.length = s.tally.log.length + 1) ∧
    (s.tally.sealOpen = false → ∃ t, exec .sealOpen s = .next t ∧ t.tally.sealOpen = true) ∧
    (s.tally.sealOpen = true → ∃ t, exec .sealClosed s = .next t ∧ t.tally.sealOpen = false)) ∧
  (∀ s : State, s.flag .tallyIf tallyIf.LINK_UP = true → s.tally.sinceReading + 750000000 ≤ s.clock →
    ∃ t, exec .tallyLinkTimeout s = .next t ∧ t.flag .tallyIf tallyIf.LINK_UP = false) ∧
  (∀ (s : State) n, n < 8 → s.portActive n = true →
    ((s.port n).replays < 15 →
      (∀ q ack vc cr ackv corr, ∃ t, exec (.nak n q ack vc cr ackv corr) s = .next t ∧ t.rd (.vlport n) vlport.REPLAY_CNT = (s.rd (.vlport n) vlport.REPLAY_CNT + 1) % 2 ^ 32) ∧
      ((s.port n).replay ≠ [] → (s.port n).ackTime + 5000 ≤ s.clock →
        ∃ t, exec (.ackTimeout n) s = .next t ∧ t.rd (.vlport n) vlport.REPLAY_CNT = (s.rd (.vlport n) vlport.REPLAY_CNT + 1) % 2 ^ 32)) ∧
    (∃ t, exec (.blockLockLoss n) s = .next t ∧ t.rd (.vlport n) vlport.LSTATE = 5) ∧
    (∃ t, exec (.retrain n) s = .next t ∧ t.rd (.vlport n) vlport.LSTATE = 5)) ∧
  (∀ s : State,
    (s.sps.state = .failing → ∃ t, exec .powerDown s = .next t ∧ t.flag .sps sps.POWER_GOOD = false) ∧
    (s.sps.state = .good → (s.sps.shutdown = false → ∃ t, exec .shutdown s = .next t ∧ t.sps.shutdown = true) ∧
      (s.sps.shutdown = true → ∃ t, exec .shutdownTimeout s = .next t ∧ t.sps.state = .failing) ∧
      (∃ t, exec .moduleReset s = .next t ∧ t.sps.state = .failing) ∧ (∃ t, exec .clockLoss s = .next t ∧ t.sps.clkLost = true))) ∧
  (∀ (s : State) pg k, k ≤ 1 → 0 < s.timerPer pg k → Table.get 0 (s.rmbOf pg).timers k ≤ s.clock → s.flag pg page.EN = true →
    s.flag pg (rmb.SRC_EN (5 + k)) = true → (s.rmbOf pg).pend = [] → (s.rmbOf pg).cur = none → (s.rmbOf pg).intr = none → (s.rmbOf pg).held = none →
    s.flag pg rmb.REF_RDY = true → ∃ t x, exec (.rmbTimer pg k) s = .next t ∧ (t.rmbOf pg).cur = some x ∧ x.entry = s.rd pg (rmb.START_ENTRY (5 + k)) ∧ x.began = s.clock + 1) ∧
  (∀ (s : State) l q, s.nor.compact = some (l, q) → ∃ t, exec .compaction s = .next t ∧ t.nor.snap = l ∧ t.nor.compact = none) ∧
  (∀ s : State, s.norHolder ≠ none → ∃ t, exec .seqLastLo s = .next t ∧ t.rd .journal journal.SEQ_LAST_HI = s.nor.seqLast / 2 ^ 32 % 2 ^ 32)
end

