-- ==== Sys2Proof/Laws/State.lean ====
section
/-! SUPPORT. What each update of the state leaves: one lemma per field and update. -/

namespace Sys2Proof.Machine.State

variable (s : State)

/-! ### wr -/

@[simp] theorem wr_clock (p : Page) (f : Field) (v : Nat) : (s.wr p f v).clock = s.clock := rfl
@[simp] theorem wr_cores (p : Page) (f : Field) (v : Nat) : (s.wr p f v).cores = s.cores := rfl
@[simp] theorem wr_routers (p : Page) (f : Field) (v : Nat) : (s.wr p f v).routers = s.routers := rfl
@[simp] theorem wr_links (p : Page) (f : Field) (v : Nat) : (s.wr p f v).links = s.links := rfl
@[simp] theorem wr_tiles (p : Page) (f : Field) (v : Nat) : (s.wr p f v).tiles = s.tiles := rfl
@[simp] theorem wr_crags (p : Page) (f : Field) (v : Nat) : (s.wr p f v).crags = s.crags := rfl
@[simp] theorem wr_saddles (p : Page) (f : Field) (v : Nat) : (s.wr p f v).saddles = s.saddles := rfl
@[simp] theorem wr_sites (p : Page) (f : Field) (v : Nat) : (s.wr p f v).sites = s.sites := rfl
@[simp] theorem wr_parts (p : Page) (f : Field) (v : Nat) : (s.wr p f v).parts = s.parts := rfl
@[simp] theorem wr_reqs (p : Page) (f : Field) (v : Nat) : (s.wr p f v).reqs = s.reqs := rfl
@[simp] theorem wr_rmbs (p : Page) (f : Field) (v : Nat) : (s.wr p f v).rmbs = s.rmbs := rfl
@[simp] theorem wr_sps (p : Page) (f : Field) (v : Nat) : (s.wr p f v).sps = s.sps := rfl
@[simp] theorem wr_ports (p : Page) (f : Field) (v : Nat) : (s.wr p f v).ports = s.ports := rfl
@[simp] theorem wr_writes (p : Page) (f : Field) (v : Nat) : (s.wr p f v).writes = s.writes := rfl
@[simp] theorem wr_reads (p : Page) (f : Field) (v : Nat) : (s.wr p f v).reads = s.reads := rfl
@[simp] theorem wr_ctls (p : Page) (f : Field) (v : Nat) : (s.wr p f v).ctls = s.ctls := rfl
@[simp] theorem wr_ssbs (p : Page) (f : Field) (v : Nat) : (s.wr p f v).ssbs = s.ssbs := rfl
@[simp] theorem wr_nor (p : Page) (f : Field) (v : Nat) : (s.wr p f v).nor = s.nor := rfl
@[simp] theorem wr_fuses (p : Page) (f : Field) (v : Nat) : (s.wr p f v).fuses = s.fuses := rfl
@[simp] theorem wr_tally (p : Page) (f : Field) (v : Nat) : (s.wr p f v).tally = s.tally := rfl
@[simp] theorem wr_faultMap (p : Page) (f : Field) (v : Nat) : (s.wr p f v).faultMap = s.faultMap := rfl
@[simp] theorem wr_faultGen (p : Page) (f : Field) (v : Nat) : (s.wr p f v).faultGen = s.faultGen := rfl
@[simp] theorem wr_faultLog (p : Page) (f : Field) (v : Nat) : (s.wr p f v).faultLog = s.faultLog := rfl
@[simp] theorem wr_faultSeq (p : Page) (f : Field) (v : Nat) : (s.wr p f v).faultSeq = s.faultSeq := rfl
@[simp] theorem wr_order (p : Page) (f : Field) (v : Nat) : (s.wr p f v).order = s.order := rfl
@[simp] theorem wr_ms (p : Page) (f : Field) (v : Nat) : (s.wr p f v).ms = s.ms := rfl
@[simp] theorem wr_sent (p : Page) (f : Field) (v : Nat) : (s.wr p f v).sent = s.sent := rfl
@[simp] theorem wr_fresh (p : Page) (f : Field) (v : Nat) : (s.wr p f v).fresh = s.fresh := rfl
@[simp] theorem wr_pending (p : Page) (f : Field) (v : Nat) : (s.wr p f v).pending = s.pending := rfl

/-! ### setFlag -/

@[simp] theorem setFlag_clock (p : Page) (f : Field) (b : Bool) : (s.setFlag p f b).clock = s.clock := rfl
@[simp] theorem setFlag_cores (p : Page) (f : Field) (b : Bool) : (s.setFlag p f b).cores = s.cores := rfl
@[simp] theorem setFlag_routers (p : Page) (f : Field) (b : Bool) : (s.setFlag p f b).routers = s.routers := rfl
@[simp] theorem setFlag_links (p : Page) (f : Field) (b : Bool) : (s.setFlag p f b).links = s.links := rfl
@[simp] theorem setFlag_tiles (p : Page) (f : Field) (b : Bool) : (s.setFlag p f b).tiles = s.tiles := rfl
@[simp] theorem setFlag_crags (p : Page) (f : Field) (b : Bool) : (s.setFlag p f b).crags = s.crags := rfl
@[simp] theorem setFlag_saddles (p : Page) (f : Field) (b : Bool) : (s.setFlag p f b).saddles = s.saddles := rfl
@[simp] theorem setFlag_sites (p : Page) (f : Field) (b : Bool) : (s.setFlag p f b).sites = s.sites := rfl
@[simp] theorem setFlag_parts (p : Page) (f : Field) (b : Bool) : (s.setFlag p f b).parts = s.parts := rfl
@[simp] theorem setFlag_reqs (p : Page) (f : Field) (b : Bool) : (s.setFlag p f b).reqs = s.reqs := rfl
@[simp] theorem setFlag_rmbs (p : Page) (f : Field) (b : Bool) : (s.setFlag p f b).rmbs = s.rmbs := rfl
@[simp] theorem setFlag_sps (p : Page) (f : Field) (b : Bool) : (s.setFlag p f b).sps = s.sps := rfl
@[simp] theorem setFlag_ports (p : Page) (f : Field) (b : Bool) : (s.setFlag p f b).ports = s.ports := rfl
@[simp] theorem setFlag_writes (p : Page) (f : Field) (b : Bool) : (s.setFlag p f b).writes = s.writes := rfl
@[simp] theorem setFlag_reads (p : Page) (f : Field) (b : Bool) : (s.setFlag p f b).reads = s.reads := rfl
@[simp] theorem setFlag_ctls (p : Page) (f : Field) (b : Bool) : (s.setFlag p f b).ctls = s.ctls := rfl
@[simp] theorem setFlag_ssbs (p : Page) (f : Field) (b : Bool) : (s.setFlag p f b).ssbs = s.ssbs := rfl
@[simp] theorem setFlag_nor (p : Page) (f : Field) (b : Bool) : (s.setFlag p f b).nor = s.nor := rfl
@[simp] theorem setFlag_fuses (p : Page) (f : Field) (b : Bool) : (s.setFlag p f b).fuses = s.fuses := rfl
@[simp] theorem setFlag_tally (p : Page) (f : Field) (b : Bool) : (s.setFlag p f b).tally = s.tally := rfl
@[simp] theorem setFlag_faultMap (p : Page) (f : Field) (b : Bool) : (s.setFlag p f b).faultMap = s.faultMap := rfl
@[simp] theorem setFlag_faultGen (p : Page) (f : Field) (b : Bool) : (s.setFlag p f b).faultGen = s.faultGen := rfl
@[simp] theorem setFlag_faultLog (p : Page) (f : Field) (b : Bool) : (s.setFlag p f b).faultLog = s.faultLog := rfl
@[simp] theorem setFlag_faultSeq (p : Page) (f : Field) (b : Bool) : (s.setFlag p f b).faultSeq = s.faultSeq := rfl
@[simp] theorem setFlag_order (p : Page) (f : Field) (b : Bool) : (s.setFlag p f b).order = s.order := rfl
@[simp] theorem setFlag_ms (p : Page) (f : Field) (b : Bool) : (s.setFlag p f b).ms = s.ms := rfl
@[simp] theorem setFlag_sent (p : Page) (f : Field) (b : Bool) : (s.setFlag p f b).sent = s.sent := rfl
@[simp] theorem setFlag_fresh (p : Page) (f : Field) (b : Bool) : (s.setFlag p f b).fresh = s.fresh := rfl
@[simp] theorem setFlag_pending (p : Page) (f : Field) (b : Bool) : (s.setFlag p f b).pending = s.pending := rfl

/-! ### inc -/

@[simp] theorem inc_clock (p : Page) (f : Field) (n : Nat) : (s.inc p f n).clock = s.clock := rfl
@[simp] theorem inc_cores (p : Page) (f : Field) (n : Nat) : (s.inc p f n).cores = s.cores := rfl
@[simp] theorem inc_routers (p : Page) (f : Field) (n : Nat) : (s.inc p f n).routers = s.routers := rfl
@[simp] theorem inc_links (p : Page) (f : Field) (n : Nat) : (s.inc p f n).links = s.links := rfl
@[simp] theorem inc_tiles (p : Page) (f : Field) (n : Nat) : (s.inc p f n).tiles = s.tiles := rfl
@[simp] theorem inc_crags (p : Page) (f : Field) (n : Nat) : (s.inc p f n).crags = s.crags := rfl
@[simp] theorem inc_saddles (p : Page) (f : Field) (n : Nat) : (s.inc p f n).saddles = s.saddles := rfl
@[simp] theorem inc_sites (p : Page) (f : Field) (n : Nat) : (s.inc p f n).sites = s.sites := rfl
@[simp] theorem inc_parts (p : Page) (f : Field) (n : Nat) : (s.inc p f n).parts = s.parts := rfl
@[simp] theorem inc_reqs (p : Page) (f : Field) (n : Nat) : (s.inc p f n).reqs = s.reqs := rfl
@[simp] theorem inc_rmbs (p : Page) (f : Field) (n : Nat) : (s.inc p f n).rmbs = s.rmbs := rfl
@[simp] theorem inc_sps (p : Page) (f : Field) (n : Nat) : (s.inc p f n).sps = s.sps := rfl
@[simp] theorem inc_ports (p : Page) (f : Field) (n : Nat) : (s.inc p f n).ports = s.ports := rfl
@[simp] theorem inc_writes (p : Page) (f : Field) (n : Nat) : (s.inc p f n).writes = s.writes := rfl
@[simp] theorem inc_reads (p : Page) (f : Field) (n : Nat) : (s.inc p f n).reads = s.reads := rfl
@[simp] theorem inc_ctls (p : Page) (f : Field) (n : Nat) : (s.inc p f n).ctls = s.ctls := rfl
@[simp] theorem inc_ssbs (p : Page) (f : Field) (n : Nat) : (s.inc p f n).ssbs = s.ssbs := rfl
@[simp] theorem inc_nor (p : Page) (f : Field) (n : Nat) : (s.inc p f n).nor = s.nor := rfl
@[simp] theorem inc_fuses (p : Page) (f : Field) (n : Nat) : (s.inc p f n).fuses = s.fuses := rfl
@[simp] theorem inc_tally (p : Page) (f : Field) (n : Nat) : (s.inc p f n).tally = s.tally := rfl
@[simp] theorem inc_faultMap (p : Page) (f : Field) (n : Nat) : (s.inc p f n).faultMap = s.faultMap := rfl
@[simp] theorem inc_faultGen (p : Page) (f : Field) (n : Nat) : (s.inc p f n).faultGen = s.faultGen := rfl
@[simp] theorem inc_faultLog (p : Page) (f : Field) (n : Nat) : (s.inc p f n).faultLog = s.faultLog := rfl
@[simp] theorem inc_faultSeq (p : Page) (f : Field) (n : Nat) : (s.inc p f n).faultSeq = s.faultSeq := rfl
@[simp] theorem inc_order (p : Page) (f : Field) (n : Nat) : (s.inc p f n).order = s.order := rfl
@[simp] theorem inc_ms (p : Page) (f : Field) (n : Nat) : (s.inc p f n).ms = s.ms := rfl
@[simp] theorem inc_sent (p : Page) (f : Field) (n : Nat) : (s.inc p f n).sent = s.sent := rfl
@[simp] theorem inc_fresh (p : Page) (f : Field) (n : Nat) : (s.inc p f n).fresh = s.fresh := rfl
@[simp] theorem inc_pending (p : Page) (f : Field) (n : Nat) : (s.inc p f n).pending = s.pending := rfl

/-! ### clr -/

@[simp] theorem clr_clock (p : Page) (f : Field) : (s.clr p f).clock = s.clock := rfl
@[simp] theorem clr_cores (p : Page) (f : Field) : (s.clr p f).cores = s.cores := rfl
@[simp] theorem clr_routers (p : Page) (f : Field) : (s.clr p f).routers = s.routers := rfl
@[simp] theorem clr_links (p : Page) (f : Field) : (s.clr p f).links = s.links := rfl
@[simp] theorem clr_tiles (p : Page) (f : Field) : (s.clr p f).tiles = s.tiles := rfl
@[simp] theorem clr_crags (p : Page) (f : Field) : (s.clr p f).crags = s.crags := rfl
@[simp] theorem clr_saddles (p : Page) (f : Field) : (s.clr p f).saddles = s.saddles := rfl
@[simp] theorem clr_sites (p : Page) (f : Field) : (s.clr p f).sites = s.sites := rfl
@[simp] theorem clr_parts (p : Page) (f : Field) : (s.clr p f).parts = s.parts := rfl
@[simp] theorem clr_reqs (p : Page) (f : Field) : (s.clr p f).reqs = s.reqs := rfl
@[simp] theorem clr_rmbs (p : Page) (f : Field) : (s.clr p f).rmbs = s.rmbs := rfl
@[simp] theorem clr_sps (p : Page) (f : Field) : (s.clr p f).sps = s.sps := rfl
@[simp] theorem clr_ports (p : Page) (f : Field) : (s.clr p f).ports = s.ports := rfl
@[simp] theorem clr_writes (p : Page) (f : Field) : (s.clr p f).writes = s.writes := rfl
@[simp] theorem clr_reads (p : Page) (f : Field) : (s.clr p f).reads = s.reads := rfl
@[simp] theorem clr_ctls (p : Page) (f : Field) : (s.clr p f).ctls = s.ctls := rfl
@[simp] theorem clr_ssbs (p : Page) (f : Field) : (s.clr p f).ssbs = s.ssbs := rfl
@[simp] theorem clr_nor (p : Page) (f : Field) : (s.clr p f).nor = s.nor := rfl
@[simp] theorem clr_fuses (p : Page) (f : Field) : (s.clr p f).fuses = s.fuses := rfl
@[simp] theorem clr_tally (p : Page) (f : Field) : (s.clr p f).tally = s.tally := rfl
@[simp] theorem clr_faultMap (p : Page) (f : Field) : (s.clr p f).faultMap = s.faultMap := rfl
@[simp] theorem clr_faultGen (p : Page) (f : Field) : (s.clr p f).faultGen = s.faultGen := rfl
@[simp] theorem clr_faultLog (p : Page) (f : Field) : (s.clr p f).faultLog = s.faultLog := rfl
@[simp] theorem clr_faultSeq (p : Page) (f : Field) : (s.clr p f).faultSeq = s.faultSeq := rfl
@[simp] theorem clr_order (p : Page) (f : Field) : (s.clr p f).order = s.order := rfl
@[simp] theorem clr_ms (p : Page) (f : Field) : (s.clr p f).ms = s.ms := rfl
@[simp] theorem clr_sent (p : Page) (f : Field) : (s.clr p f).sent = s.sent := rfl
@[simp] theorem clr_fresh (p : Page) (f : Field) : (s.clr p f).fresh = s.fresh := rfl
@[simp] theorem clr_pending (p : Page) (f : Field) : (s.clr p f).pending = s.pending := rfl

/-! ### wr64 -/

@[simp] theorem wr64_clock (p : Page) (lo hi : Field) (v : Nat) : (s.wr64 p lo hi v).clock = s.clock := rfl
@[simp] theorem wr64_cores (p : Page) (lo hi : Field) (v : Nat) : (s.wr64 p lo hi v).cores = s.cores := rfl
@[simp] theorem wr64_routers (p : Page) (lo hi : Field) (v : Nat) : (s.wr64 p lo hi v).routers = s.routers := rfl
@[simp] theorem wr64_links (p : Page) (lo hi : Field) (v : Nat) : (s.wr64 p lo hi v).links = s.links := rfl
@[simp] theorem wr64_tiles (p : Page) (lo hi : Field) (v : Nat) : (s.wr64 p lo hi v).tiles = s.tiles := rfl
@[simp] theorem wr64_crags (p : Page) (lo hi : Field) (v : Nat) : (s.wr64 p lo hi v).crags = s.crags := rfl
@[simp] theorem wr64_saddles (p : Page) (lo hi : Field) (v : Nat) : (s.wr64 p lo hi v).saddles = s.saddles := rfl
@[simp] theorem wr64_sites (p : Page) (lo hi : Field) (v : Nat) : (s.wr64 p lo hi v).sites = s.sites := rfl
@[simp] theorem wr64_parts (p : Page) (lo hi : Field) (v : Nat) : (s.wr64 p lo hi v).parts = s.parts := rfl
@[simp] theorem wr64_reqs (p : Page) (lo hi : Field) (v : Nat) : (s.wr64 p lo hi v).reqs = s.reqs := rfl
@[simp] theorem wr64_rmbs (p : Page) (lo hi : Field) (v : Nat) : (s.wr64 p lo hi v).rmbs = s.rmbs := rfl
@[simp] theorem wr64_sps (p : Page) (lo hi : Field) (v : Nat) : (s.wr64 p lo hi v).sps = s.sps := rfl
@[simp] theorem wr64_ports (p : Page) (lo hi : Field) (v : Nat) : (s.wr64 p lo hi v).ports = s.ports := rfl
@[simp] theorem wr64_writes (p : Page) (lo hi : Field) (v : Nat) : (s.wr64 p lo hi v).writes = s.writes := rfl
@[simp] theorem wr64_reads (p : Page) (lo hi : Field) (v : Nat) : (s.wr64 p lo hi v).reads = s.reads := rfl
@[simp] theorem wr64_ctls (p : Page) (lo hi : Field) (v : Nat) : (s.wr64 p lo hi v).ctls = s.ctls := rfl
@[simp] theorem wr64_ssbs (p : Page) (lo hi : Field) (v : Nat) : (s.wr64 p lo hi v).ssbs = s.ssbs := rfl
@[simp] theorem wr64_nor (p : Page) (lo hi : Field) (v : Nat) : (s.wr64 p lo hi v).nor = s.nor := rfl
@[simp] theorem wr64_fuses (p : Page) (lo hi : Field) (v : Nat) : (s.wr64 p lo hi v).fuses = s.fuses := rfl
@[simp] theorem wr64_tally (p : Page) (lo hi : Field) (v : Nat) : (s.wr64 p lo hi v).tally = s.tally := rfl
@[simp] theorem wr64_faultMap (p : Page) (lo hi : Field) (v : Nat) : (s.wr64 p lo hi v).faultMap = s.faultMap := rfl
@[simp] theorem wr64_faultGen (p : Page) (lo hi : Field) (v : Nat) : (s.wr64 p lo hi v).faultGen = s.faultGen := rfl
@[simp] theorem wr64_faultLog (p : Page) (lo hi : Field) (v : Nat) : (s.wr64 p lo hi v).faultLog = s.faultLog := rfl
@[simp] theorem wr64_faultSeq (p : Page) (lo hi : Field) (v : Nat) : (s.wr64 p lo hi v).faultSeq = s.faultSeq := rfl
@[simp] theorem wr64_order (p : Page) (lo hi : Field) (v : Nat) : (s.wr64 p lo hi v).order = s.order := rfl
@[simp] theorem wr64_ms (p : Page) (lo hi : Field) (v : Nat) : (s.wr64 p lo hi v).ms = s.ms := rfl
@[simp] theorem wr64_sent (p : Page) (lo hi : Field) (v : Nat) : (s.wr64 p lo hi v).sent = s.sent := rfl
@[simp] theorem wr64_fresh (p : Page) (lo hi : Field) (v : Nat) : (s.wr64 p lo hi v).fresh = s.fresh := rfl
@[simp] theorem wr64_pending (p : Page) (lo hi : Field) (v : Nat) : (s.wr64 p lo hi v).pending = s.pending := rfl

/-! ### updCore -/

@[simp] theorem updCore_regs (g : Nat) (f : Core → Core) : (s.updCore g f).regs = s.regs := rfl
@[simp] theorem updCore_clock (g : Nat) (f : Core → Core) : (s.updCore g f).clock = s.clock := rfl
@[simp] theorem updCore_routers (g : Nat) (f : Core → Core) : (s.updCore g f).routers = s.routers := rfl
@[simp] theorem updCore_links (g : Nat) (f : Core → Core) : (s.updCore g f).links = s.links := rfl
@[simp] theorem updCore_tiles (g : Nat) (f : Core → Core) : (s.updCore g f).tiles = s.tiles := rfl
@[simp] theorem updCore_crags (g : Nat) (f : Core → Core) : (s.updCore g f).crags = s.crags := rfl
@[simp] theorem updCore_saddles (g : Nat) (f : Core → Core) : (s.updCore g f).saddles = s.saddles := rfl
@[simp] theorem updCore_sites (g : Nat) (f : Core → Core) : (s.updCore g f).sites = s.sites := rfl
@[simp] theorem updCore_parts (g : Nat) (f : Core → Core) : (s.updCore g f).parts = s.parts := rfl
@[simp] theorem updCore_reqs (g : Nat) (f : Core → Core) : (s.updCore g f).reqs = s.reqs := rfl
@[simp] theorem updCore_rmbs (g : Nat) (f : Core → Core) : (s.updCore g f).rmbs = s.rmbs := rfl
@[simp] theorem updCore_sps (g : Nat) (f : Core → Core) : (s.updCore g f).sps = s.sps := rfl
@[simp] theorem updCore_ports (g : Nat) (f : Core → Core) : (s.updCore g f).ports = s.ports := rfl
@[simp] theorem updCore_writes (g : Nat) (f : Core → Core) : (s.updCore g f).writes = s.writes := rfl
@[simp] theorem updCore_reads (g : Nat) (f : Core → Core) : (s.updCore g f).reads = s.reads := rfl
@[simp] theorem updCore_ctls (g : Nat) (f : Core → Core) : (s.updCore g f).ctls = s.ctls := rfl
@[simp] theorem updCore_ssbs (g : Nat) (f : Core → Core) : (s.updCore g f).ssbs = s.ssbs := rfl
@[simp] theorem updCore_nor (g : Nat) (f : Core → Core) : (s.updCore g f).nor = s.nor := rfl
@[simp] theorem updCore_fuses (g : Nat) (f : Core → Core) : (s.updCore g f).fuses = s.fuses := rfl
@[simp] theorem updCore_tally (g : Nat) (f : Core → Core) : (s.updCore g f).tally = s.tally := rfl
@[simp] theorem updCore_faultMap (g : Nat) (f : Core → Core) : (s.updCore g f).faultMap = s.faultMap := rfl
@[simp] theorem updCore_faultGen (g : Nat) (f : Core → Core) : (s.updCore g f).faultGen = s.faultGen := rfl
@[simp] theorem updCore_faultLog (g : Nat) (f : Core → Core) : (s.updCore g f).faultLog = s.faultLog := rfl
@[simp] theorem updCore_faultSeq (g : Nat) (f : Core → Core) : (s.updCore g f).faultSeq = s.faultSeq := rfl
@[simp] theorem updCore_order (g : Nat) (f : Core → Core) : (s.updCore g f).order = s.order := rfl
@[simp] theorem updCore_ms (g : Nat) (f : Core → Core) : (s.updCore g f).ms = s.ms := rfl
@[simp] theorem updCore_sent (g : Nat) (f : Core → Core) : (s.updCore g f).sent = s.sent := rfl
@[simp] theorem updCore_fresh (g : Nat) (f : Core → Core) : (s.updCore g f).fresh = s.fresh := rfl
@[simp] theorem updCore_pending (g : Nat) (f : Core → Core) : (s.updCore g f).pending = s.pending := rfl

/-! ### updRouter -/

@[simp] theorem updRouter_regs (g : Nat) (f : Router → Router) : (s.updRouter g f).regs = s.regs := rfl
@[simp] theorem updRouter_clock (g : Nat) (f : Router → Router) : (s.updRouter g f).clock = s.clock := rfl
@[simp] theorem updRouter_cores (g : Nat) (f : Router → Router) : (s.updRouter g f).cores = s.cores := rfl
@[simp] theorem updRouter_links (g : Nat) (f : Router → Router) : (s.updRouter g f).links = s.links := rfl
@[simp] theorem updRouter_tiles (g : Nat) (f : Router → Router) : (s.updRouter g f).tiles = s.tiles := rfl
@[simp] theorem updRouter_crags (g : Nat) (f : Router → Router) : (s.updRouter g f).crags = s.crags := rfl
@[simp] theorem updRouter_saddles (g : Nat) (f : Router → Router) : (s.updRouter g f).saddles = s.saddles := rfl
@[simp] theorem updRouter_sites (g : Nat) (f : Router → Router) : (s.updRouter g f).sites = s.sites := rfl
@[simp] theorem updRouter_parts (g : Nat) (f : Router → Router) : (s.updRouter g f).parts = s.parts := rfl
@[simp] theorem updRouter_reqs (g : Nat) (f : Router → Router) : (s.updRouter g f).reqs = s.reqs := rfl
@[simp] theorem updRouter_rmbs (g : Nat) (f : Router → Router) : (s.updRouter g f).rmbs = s.rmbs := rfl
@[simp] theorem updRouter_sps (g : Nat) (f : Router → Router) : (s.updRouter g f).sps = s.sps := rfl
@[simp] theorem updRouter_ports (g : Nat) (f : Router → Router) : (s.updRouter g f).ports = s.ports := rfl
@[simp] theorem updRouter_writes (g : Nat) (f : Router → Router) : (s.updRouter g f).writes = s.writes := rfl
@[simp] theorem updRouter_reads (g : Nat) (f : Router → Router) : (s.updRouter g f).reads = s.reads := rfl
@[simp] theorem updRouter_ctls (g : Nat) (f : Router → Router) : (s.updRouter g f).ctls = s.ctls := rfl
@[simp] theorem updRouter_ssbs (g : Nat) (f : Router → Router) : (s.updRouter g f).ssbs = s.ssbs := rfl
@[simp] theorem updRouter_nor (g : Nat) (f : Router → Router) : (s.updRouter g f).nor = s.nor := rfl
@[simp] theorem updRouter_fuses (g : Nat) (f : Router → Router) : (s.updRouter g f).fuses = s.fuses := rfl
@[simp] theorem updRouter_tally (g : Nat) (f : Router → Router) : (s.updRouter g f).tally = s.tally := rfl
@[simp] theorem updRouter_faultMap (g : Nat) (f : Router → Router) : (s.updRouter g f).faultMap = s.faultMap := rfl
@[simp] theorem updRouter_faultGen (g : Nat) (f : Router → Router) : (s.updRouter g f).faultGen = s.faultGen := rfl
@[simp] theorem updRouter_faultLog (g : Nat) (f : Router → Router) : (s.updRouter g f).faultLog = s.faultLog := rfl
@[simp] theorem updRouter_faultSeq (g : Nat) (f : Router → Router) : (s.updRouter g f).faultSeq = s.faultSeq := rfl
@[simp] theorem updRouter_order (g : Nat) (f : Router → Router) : (s.updRouter g f).order = s.order := rfl
@[simp] theorem updRouter_ms (g : Nat) (f : Router → Router) : (s.updRouter g f).ms = s.ms := rfl
@[simp] theorem updRouter_sent (g : Nat) (f : Router → Router) : (s.updRouter g f).sent = s.sent := rfl
@[simp] theorem updRouter_fresh (g : Nat) (f : Router → Router) : (s.updRouter g f).fresh = s.fresh := rfl
@[simp] theorem updRouter_pending (g : Nat) (f : Router → Router) : (s.updRouter g f).pending = s.pending := rfl

/-! ### updTile -/

@[simp] theorem updTile_regs (t : Nat) (f : Tile → Tile) : (s.updTile t f).regs = s.regs := rfl
@[simp] theorem updTile_clock (t : Nat) (f : Tile → Tile) : (s.updTile t f).clock = s.clock := rfl
@[simp] theorem updTile_cores (t : Nat) (f : Tile → Tile) : (s.updTile t f).cores = s.cores := rfl
@[simp] theorem updTile_routers (t : Nat) (f : Tile → Tile) : (s.updTile t f).routers = s.routers := rfl
@[simp] theorem updTile_links (t : Nat) (f : Tile → Tile) : (s.updTile t f).links = s.links := rfl
@[simp] theorem updTile_crags (t : Nat) (f : Tile → Tile) : (s.updTile t f).crags = s.crags := rfl
@[simp] theorem updTile_saddles (t : Nat) (f : Tile → Tile) : (s.updTile t f).saddles = s.saddles := rfl
@[simp] theorem updTile_sites (t : Nat) (f : Tile → Tile) : (s.updTile t f).sites = s.sites := rfl
@[simp] theorem updTile_parts (t : Nat) (f : Tile → Tile) : (s.updTile t f).parts = s.parts := rfl
@[simp] theorem updTile_reqs (t : Nat) (f : Tile → Tile) : (s.updTile t f).reqs = s.reqs := rfl
@[simp] theorem updTile_rmbs (t : Nat) (f : Tile → Tile) : (s.updTile t f).rmbs = s.rmbs := rfl
@[simp] theorem updTile_sps (t : Nat) (f : Tile → Tile) : (s.updTile t f).sps = s.sps := rfl
@[simp] theorem updTile_ports (t : Nat) (f : Tile → Tile) : (s.updTile t f).ports = s.ports := rfl
@[simp] theorem updTile_writes (t : Nat) (f : Tile → Tile) : (s.updTile t f).writes = s.writes := rfl
@[simp] theorem updTile_reads (t : Nat) (f : Tile → Tile) : (s.updTile t f).reads = s.reads := rfl
@[simp] theorem updTile_ctls (t : Nat) (f : Tile → Tile) : (s.updTile t f).ctls = s.ctls := rfl
@[simp] theorem updTile_ssbs (t : Nat) (f : Tile → Tile) : (s.updTile t f).ssbs = s.ssbs := rfl
@[simp] theorem updTile_nor (t : Nat) (f : Tile → Tile) : (s.updTile t f).nor = s.nor := rfl
@[simp] theorem updTile_fuses (t : Nat) (f : Tile → Tile) : (s.updTile t f).fuses = s.fuses := rfl
@[simp] theorem updTile_tally (t : Nat) (f : Tile → Tile) : (s.updTile t f).tally = s.tally := rfl
@[simp] theorem updTile_faultMap (t : Nat) (f : Tile → Tile) : (s.updTile t f).faultMap = s.faultMap := rfl
@[simp] theorem updTile_faultGen (t : Nat) (f : Tile → Tile) : (s.updTile t f).faultGen = s.faultGen := rfl
@[simp] theorem updTile_faultLog (t : Nat) (f : Tile → Tile) : (s.updTile t f).faultLog = s.faultLog := rfl
@[simp] theorem updTile_faultSeq (t : Nat) (f : Tile → Tile) : (s.updTile t f).faultSeq = s.faultSeq := rfl
@[simp] theorem updTile_order (t : Nat) (f : Tile → Tile) : (s.updTile t f).order = s.order := rfl
@[simp] theorem updTile_ms (t : Nat) (f : Tile → Tile) : (s.updTile t f).ms = s.ms := rfl
@[simp] theorem updTile_sent (t : Nat) (f : Tile → Tile) : (s.updTile t f).sent = s.sent := rfl
@[simp] theorem updTile_fresh (t : Nat) (f : Tile → Tile) : (s.updTile t f).fresh = s.fresh := rfl
@[simp] theorem updTile_pending (t : Nat) (f : Tile → Tile) : (s.updTile t f).pending = s.pending := rfl

/-! ### updCrag -/

@[simp] theorem updCrag_regs (y : Nat) (f : Crag → Crag) : (s.updCrag y f).regs = s.regs := rfl
@[simp] theorem updCrag_clock (y : Nat) (f : Crag → Crag) : (s.updCrag y f).clock = s.clock := rfl
@[simp] theorem updCrag_cores (y : Nat) (f : Crag → Crag) : (s.updCrag y f).cores = s.cores := rfl
@[simp] theorem updCrag_routers (y : Nat) (f : Crag → Crag) : (s.updCrag y f).routers = s.routers := rfl
@[simp] theorem updCrag_links (y : Nat) (f : Crag → Crag) : (s.updCrag y f).links = s.links := rfl
@[simp] theorem updCrag_tiles (y : Nat) (f : Crag → Crag) : (s.updCrag y f).tiles = s.tiles := rfl
@[simp] theorem updCrag_saddles (y : Nat) (f : Crag → Crag) : (s.updCrag y f).saddles = s.saddles := rfl
@[simp] theorem updCrag_sites (y : Nat) (f : Crag → Crag) : (s.updCrag y f).sites = s.sites := rfl
@[simp] theorem updCrag_parts (y : Nat) (f : Crag → Crag) : (s.updCrag y f).parts = s.parts := rfl
@[simp] theorem updCrag_reqs (y : Nat) (f : Crag → Crag) : (s.updCrag y f).reqs = s.reqs := rfl
@[simp] theorem updCrag_rmbs (y : Nat) (f : Crag → Crag) : (s.updCrag y f).rmbs = s.rmbs := rfl
@[simp] theorem updCrag_sps (y : Nat) (f : Crag → Crag) : (s.updCrag y f).sps = s.sps := rfl
@[simp] theorem updCrag_ports (y : Nat) (f : Crag → Crag) : (s.updCrag y f).ports = s.ports := rfl
@[simp] theorem updCrag_writes (y : Nat) (f : Crag → Crag) : (s.updCrag y f).writes = s.writes := rfl
@[simp] theorem updCrag_reads (y : Nat) (f : Crag → Crag) : (s.updCrag y f).reads = s.reads := rfl
@[simp] theorem updCrag_ctls (y : Nat) (f : Crag → Crag) : (s.updCrag y f).ctls = s.ctls := rfl
@[simp] theorem updCrag_ssbs (y : Nat) (f : Crag → Crag) : (s.updCrag y f).ssbs = s.ssbs := rfl
@[simp] theorem updCrag_nor (y : Nat) (f : Crag → Crag) : (s.updCrag y f).nor = s.nor := rfl
@[simp] theorem updCrag_fuses (y : Nat) (f : Crag → Crag) : (s.updCrag y f).fuses = s.fuses := rfl
@[simp] theorem updCrag_tally (y : Nat) (f : Crag → Crag) : (s.updCrag y f).tally = s.tally := rfl
@[simp] theorem updCrag_faultMap (y : Nat) (f : Crag → Crag) : (s.updCrag y f).faultMap = s.faultMap := rfl
@[simp] theorem updCrag_faultGen (y : Nat) (f : Crag → Crag) : (s.updCrag y f).faultGen = s.faultGen := rfl
@[simp] theorem updCrag_faultLog (y : Nat) (f : Crag → Crag) : (s.updCrag y f).faultLog = s.faultLog := rfl
@[simp] theorem updCrag_faultSeq (y : Nat) (f : Crag → Crag) : (s.updCrag y f).faultSeq = s.faultSeq := rfl
@[simp] theorem updCrag_order (y : Nat) (f : Crag → Crag) : (s.updCrag y f).order = s.order := rfl
@[simp] theorem updCrag_ms (y : Nat) (f : Crag → Crag) : (s.updCrag y f).ms = s.ms := rfl
@[simp] theorem updCrag_sent (y : Nat) (f : Crag → Crag) : (s.updCrag y f).sent = s.sent := rfl
@[simp] theorem updCrag_fresh (y : Nat) (f : Crag → Crag) : (s.updCrag y f).fresh = s.fresh := rfl
@[simp] theorem updCrag_pending (y : Nat) (f : Crag → Crag) : (s.updCrag y f).pending = s.pending := rfl

/-! ### updSaddle -/

@[simp] theorem updSaddle_regs (k : Nat) (f : Saddle → Saddle) : (s.updSaddle k f).regs = s.regs := rfl
@[simp] theorem updSaddle_clock (k : Nat) (f : Saddle → Saddle) : (s.updSaddle k f).clock = s.clock := rfl
@[simp] theorem updSaddle_cores (k : Nat) (f : Saddle → Saddle) : (s.updSaddle k f).cores = s.cores := rfl
@[simp] theorem updSaddle_routers (k : Nat) (f : Saddle → Saddle) : (s.updSaddle k f).routers = s.routers := rfl
@[simp] theorem updSaddle_links (k : Nat) (f : Saddle → Saddle) : (s.updSaddle k f).links = s.links := rfl
@[simp] theorem updSaddle_tiles (k : Nat) (f : Saddle → Saddle) : (s.updSaddle k f).tiles = s.tiles := rfl
@[simp] theorem updSaddle_crags (k : Nat) (f : Saddle → Saddle) : (s.updSaddle k f).crags = s.crags := rfl
@[simp] theorem updSaddle_sites (k : Nat) (f : Saddle → Saddle) : (s.updSaddle k f).sites = s.sites := rfl
@[simp] theorem updSaddle_parts (k : Nat) (f : Saddle → Saddle) : (s.updSaddle k f).parts = s.parts := rfl
@[simp] theorem updSaddle_reqs (k : Nat) (f : Saddle → Saddle) : (s.updSaddle k f).reqs = s.reqs := rfl
@[simp] theorem updSaddle_rmbs (k : Nat) (f : Saddle → Saddle) : (s.updSaddle k f).rmbs = s.rmbs := rfl
@[simp] theorem updSaddle_sps (k : Nat) (f : Saddle → Saddle) : (s.updSaddle k f).sps = s.sps := rfl
@[simp] theorem updSaddle_ports (k : Nat) (f : Saddle → Saddle) : (s.updSaddle k f).ports = s.ports := rfl
@[simp] theorem updSaddle_writes (k : Nat) (f : Saddle → Saddle) : (s.updSaddle k f).writes = s.writes := rfl
@[simp] theorem updSaddle_reads (k : Nat) (f : Saddle → Saddle) : (s.updSaddle k f).reads = s.reads := rfl
@[simp] theorem updSaddle_ctls (k : Nat) (f : Saddle → Saddle) : (s.updSaddle k f).ctls = s.ctls := rfl
@[simp] theorem updSaddle_ssbs (k : Nat) (f : Saddle → Saddle) : (s.updSaddle k f).ssbs = s.ssbs := rfl
@[simp] theorem updSaddle_nor (k : Nat) (f : Saddle → Saddle) : (s.updSaddle k f).nor = s.nor := rfl
@[simp] theorem updSaddle_fuses (k : Nat) (f : Saddle → Saddle) : (s.updSaddle k f).fuses = s.fuses := rfl
@[simp] theorem updSaddle_tally (k : Nat) (f : Saddle → Saddle) : (s.updSaddle k f).tally = s.tally := rfl
@[simp] theorem updSaddle_faultMap (k : Nat) (f : Saddle → Saddle) : (s.updSaddle k f).faultMap = s.faultMap := rfl
@[simp] theorem updSaddle_faultGen (k : Nat) (f : Saddle → Saddle) : (s.updSaddle k f).faultGen = s.faultGen := rfl
@[simp] theorem updSaddle_faultLog (k : Nat) (f : Saddle → Saddle) : (s.updSaddle k f).faultLog = s.faultLog := rfl
@[simp] theorem updSaddle_faultSeq (k : Nat) (f : Saddle → Saddle) : (s.updSaddle k f).faultSeq = s.faultSeq := rfl
@[simp] theorem updSaddle_order (k : Nat) (f : Saddle → Saddle) : (s.updSaddle k f).order = s.order := rfl
@[simp] theorem updSaddle_ms (k : Nat) (f : Saddle → Saddle) : (s.updSaddle k f).ms = s.ms := rfl
@[simp] theorem updSaddle_sent (k : Nat) (f : Saddle → Saddle) : (s.updSaddle k f).sent = s.sent := rfl
@[simp] theorem updSaddle_fresh (k : Nat) (f : Saddle → Saddle) : (s.updSaddle k f).fresh = s.fresh := rfl
@[simp] theorem updSaddle_pending (k : Nat) (f : Saddle → Saddle) : (s.updSaddle k f).pending = s.pending := rfl

/-! ### updSite -/

@[simp] theorem updSite_regs (m : Nat) (f : Site → Site) : (s.updSite m f).regs = s.regs := rfl
@[simp] theorem updSite_clock (m : Nat) (f : Site → Site) : (s.updSite m f).clock = s.clock := rfl
@[simp] theorem updSite_cores (m : Nat) (f : Site → Site) : (s.updSite m f).cores = s.cores := rfl
@[simp] theorem updSite_routers (m : Nat) (f : Site → Site) : (s.updSite m f).routers = s.routers := rfl
@[simp] theorem updSite_links (m : Nat) (f : Site → Site) : (s.updSite m f).links = s.links := rfl
@[simp] theorem updSite_tiles (m : Nat) (f : Site → Site) : (s.updSite m f).tiles = s.tiles := rfl
@[simp] theorem updSite_crags (m : Nat) (f : Site → Site) : (s.updSite m f).crags = s.crags := rfl
@[simp] theorem updSite_saddles (m : Nat) (f : Site → Site) : (s.updSite m f).saddles = s.saddles := rfl
@[simp] theorem updSite_parts (m : Nat) (f : Site → Site) : (s.updSite m f).parts = s.parts := rfl
@[simp] theorem updSite_reqs (m : Nat) (f : Site → Site) : (s.updSite m f).reqs = s.reqs := rfl
@[simp] theorem updSite_rmbs (m : Nat) (f : Site → Site) : (s.updSite m f).rmbs = s.rmbs := rfl
@[simp] theorem updSite_sps (m : Nat) (f : Site → Site) : (s.updSite m f).sps = s.sps := rfl
@[simp] theorem updSite_ports (m : Nat) (f : Site → Site) : (s.updSite m f).ports = s.ports := rfl
@[simp] theorem updSite_writes (m : Nat) (f : Site → Site) : (s.updSite m f).writes = s.writes := rfl
@[simp] theorem updSite_reads (m : Nat) (f : Site → Site) : (s.updSite m f).reads = s.reads := rfl
@[simp] theorem updSite_ctls (m : Nat) (f : Site → Site) : (s.updSite m f).ctls = s.ctls := rfl
@[simp] theorem updSite_ssbs (m : Nat) (f : Site → Site) : (s.updSite m f).ssbs = s.ssbs := rfl
@[simp] theorem updSite_nor (m : Nat) (f : Site → Site) : (s.updSite m f).nor = s.nor := rfl
@[simp] theorem updSite_fuses (m : Nat) (f : Site → Site) : (s.updSite m f).fuses = s.fuses := rfl
@[simp] theorem updSite_tally (m : Nat) (f : Site → Site) : (s.updSite m f).tally = s.tally := rfl
@[simp] theorem updSite_faultMap (m : Nat) (f : Site → Site) : (s.updSite m f).faultMap = s.faultMap := rfl
@[simp] theorem updSite_faultGen (m : Nat) (f : Site → Site) : (s.updSite m f).faultGen = s.faultGen := rfl
@[simp] theorem updSite_faultLog (m : Nat) (f : Site → Site) : (s.updSite m f).faultLog = s.faultLog := rfl
@[simp] theorem updSite_faultSeq (m : Nat) (f : Site → Site) : (s.updSite m f).faultSeq = s.faultSeq := rfl
@[simp] theorem updSite_order (m : Nat) (f : Site → Site) : (s.updSite m f).order = s.order := rfl
@[simp] theorem updSite_ms (m : Nat) (f : Site → Site) : (s.updSite m f).ms = s.ms := rfl
@[simp] theorem updSite_sent (m : Nat) (f : Site → Site) : (s.updSite m f).sent = s.sent := rfl
@[simp] theorem updSite_fresh (m : Nat) (f : Site → Site) : (s.updSite m f).fresh = s.fresh := rfl
@[simp] theorem updSite_pending (m : Nat) (f : Site → Site) : (s.updSite m f).pending = s.pending := rfl

/-! ### updPart -/

@[simp] theorem updPart_regs (p : Nat) (f : Part → Part) : (s.updPart p f).regs = s.regs := rfl
@[simp] theorem updPart_clock (p : Nat) (f : Part → Part) : (s.updPart p f).clock = s.clock := rfl
@[simp] theorem updPart_cores (p : Nat) (f : Part → Part) : (s.updPart p f).cores = s.cores := rfl
@[simp] theorem updPart_routers (p : Nat) (f : Part → Part) : (s.updPart p f).routers = s.routers := rfl
@[simp] theorem updPart_links (p : Nat) (f : Part → Part) : (s.updPart p f).links = s.links := rfl
@[simp] theorem updPart_tiles (p : Nat) (f : Part → Part) : (s.updPart p f).tiles = s.tiles := rfl
@[simp] theorem updPart_crags (p : Nat) (f : Part → Part) : (s.updPart p f).crags = s.crags := rfl
@[simp] theorem updPart_saddles (p : Nat) (f : Part → Part) : (s.updPart p f).saddles = s.saddles := rfl
@[simp] theorem updPart_sites (p : Nat) (f : Part → Part) : (s.updPart p f).sites = s.sites := rfl
@[simp] theorem updPart_reqs (p : Nat) (f : Part → Part) : (s.updPart p f).reqs = s.reqs := rfl
@[simp] theorem updPart_rmbs (p : Nat) (f : Part → Part) : (s.updPart p f).rmbs = s.rmbs := rfl
@[simp] theorem updPart_sps (p : Nat) (f : Part → Part) : (s.updPart p f).sps = s.sps := rfl
@[simp] theorem updPart_ports (p : Nat) (f : Part → Part) : (s.updPart p f).ports = s.ports := rfl
@[simp] theorem updPart_writes (p : Nat) (f : Part → Part) : (s.updPart p f).writes = s.writes := rfl
@[simp] theorem updPart_reads (p : Nat) (f : Part → Part) : (s.updPart p f).reads = s.reads := rfl
@[simp] theorem updPart_ctls (p : Nat) (f : Part → Part) : (s.updPart p f).ctls = s.ctls := rfl
@[simp] theorem updPart_ssbs (p : Nat) (f : Part → Part) : (s.updPart p f).ssbs = s.ssbs := rfl
@[simp] theorem updPart_nor (p : Nat) (f : Part → Part) : (s.updPart p f).nor = s.nor := rfl
@[simp] theorem updPart_fuses (p : Nat) (f : Part → Part) : (s.updPart p f).fuses = s.fuses := rfl
@[simp] theorem updPart_tally (p : Nat) (f : Part → Part) : (s.updPart p f).tally = s.tally := rfl
@[simp] theorem updPart_faultMap (p : Nat) (f : Part → Part) : (s.updPart p f).faultMap = s.faultMap := rfl
@[simp] theorem updPart_faultGen (p : Nat) (f : Part → Part) : (s.updPart p f).faultGen = s.faultGen := rfl
@[simp] theorem updPart_faultLog (p : Nat) (f : Part → Part) : (s.updPart p f).faultLog = s.faultLog := rfl
@[simp] theorem updPart_faultSeq (p : Nat) (f : Part → Part) : (s.updPart p f).faultSeq = s.faultSeq := rfl
@[simp] theorem updPart_order (p : Nat) (f : Part → Part) : (s.updPart p f).order = s.order := rfl
@[simp] theorem updPart_ms (p : Nat) (f : Part → Part) : (s.updPart p f).ms = s.ms := rfl
@[simp] theorem updPart_sent (p : Nat) (f : Part → Part) : (s.updPart p f).sent = s.sent := rfl
@[simp] theorem updPart_fresh (p : Nat) (f : Part → Part) : (s.updPart p f).fresh = s.fresh := rfl
@[simp] theorem updPart_pending (p : Nat) (f : Part → Part) : (s.updPart p f).pending = s.pending := rfl

/-! ### updReq -/

@[simp] theorem updReq_regs (h : Nat) (f : Request → Request) : (s.updReq h f).regs = s.regs := rfl
@[simp] theorem updReq_clock (h : Nat) (f : Request → Request) : (s.updReq h f).clock = s.clock := rfl
@[simp] theorem updReq_cores (h : Nat) (f : Request → Request) : (s.updReq h f).cores = s.cores := rfl
@[simp] theorem updReq_routers (h : Nat) (f : Request → Request) : (s.updReq h f).routers = s.routers := rfl
@[simp] theorem updReq_links (h : Nat) (f : Request → Request) : (s.updReq h f).links = s.links := rfl
@[simp] theorem updReq_tiles (h : Nat) (f : Request → Request) : (s.updReq h f).tiles = s.tiles := rfl
@[simp] theorem updReq_crags (h : Nat) (f : Request → Request) : (s.updReq h f).crags = s.crags := rfl
@[simp] theorem updReq_saddles (h : Nat) (f : Request → Request) : (s.updReq h f).saddles = s.saddles := rfl
@[simp] theorem updReq_sites (h : Nat) (f : Request → Request) : (s.updReq h f).sites = s.sites := rfl
@[simp] theorem updReq_parts (h : Nat) (f : Request → Request) : (s.updReq h f).parts = s.parts := rfl
@[simp] theorem updReq_rmbs (h : Nat) (f : Request → Request) : (s.updReq h f).rmbs = s.rmbs := rfl
@[simp] theorem updReq_sps (h : Nat) (f : Request → Request) : (s.updReq h f).sps = s.sps := rfl
@[simp] theorem updReq_ports (h : Nat) (f : Request → Request) : (s.updReq h f).ports = s.ports := rfl
@[simp] theorem updReq_writes (h : Nat) (f : Request → Request) : (s.updReq h f).writes = s.writes := rfl
@[simp] theorem updReq_reads (h : Nat) (f : Request → Request) : (s.updReq h f).reads = s.reads := rfl
@[simp] theorem updReq_ctls (h : Nat) (f : Request → Request) : (s.updReq h f).ctls = s.ctls := rfl
@[simp] theorem updReq_ssbs (h : Nat) (f : Request → Request) : (s.updReq h f).ssbs = s.ssbs := rfl
@[simp] theorem updReq_nor (h : Nat) (f : Request → Request) : (s.updReq h f).nor = s.nor := rfl
@[simp] theorem updReq_fuses (h : Nat) (f : Request → Request) : (s.updReq h f).fuses = s.fuses := rfl
@[simp] theorem updReq_tally (h : Nat) (f : Request → Request) : (s.updReq h f).tally = s.tally := rfl
@[simp] theorem updReq_faultMap (h : Nat) (f : Request → Request) : (s.updReq h f).faultMap = s.faultMap := rfl
@[simp] theorem updReq_faultGen (h : Nat) (f : Request → Request) : (s.updReq h f).faultGen = s.faultGen := rfl
@[simp] theorem updReq_faultLog (h : Nat) (f : Request → Request) : (s.updReq h f).faultLog = s.faultLog := rfl
@[simp] theorem updReq_faultSeq (h : Nat) (f : Request → Request) : (s.updReq h f).faultSeq = s.faultSeq := rfl
@[simp] theorem updReq_order (h : Nat) (f : Request → Request) : (s.updReq h f).order = s.order := rfl
@[simp] theorem updReq_ms (h : Nat) (f : Request → Request) : (s.updReq h f).ms = s.ms := rfl
@[simp] theorem updReq_sent (h : Nat) (f : Request → Request) : (s.updReq h f).sent = s.sent := rfl
@[simp] theorem updReq_fresh (h : Nat) (f : Request → Request) : (s.updReq h f).fresh = s.fresh := rfl
@[simp] theorem updReq_pending (h : Nat) (f : Request → Request) : (s.updReq h f).pending = s.pending := rfl

/-! ### updPort -/

@[simp] theorem updPort_regs (n : Nat) (f : Port → Port) : (s.updPort n f).regs = s.regs := rfl
@[simp] theorem updPort_clock (n : Nat) (f : Port → Port) : (s.updPort n f).clock = s.clock := rfl
@[simp] theorem updPort_cores (n : Nat) (f : Port → Port) : (s.updPort n f).cores = s.cores := rfl
@[simp] theorem updPort_routers (n : Nat) (f : Port → Port) : (s.updPort n f).routers = s.routers := rfl
@[simp] theorem updPort_links (n : Nat) (f : Port → Port) : (s.updPort n f).links = s.links := rfl
@[simp] theorem updPort_tiles (n : Nat) (f : Port → Port) : (s.updPort n f).tiles = s.tiles := rfl
@[simp] theorem updPort_crags (n : Nat) (f : Port → Port) : (s.updPort n f).crags = s.crags := rfl
@[simp] theorem updPort_saddles (n : Nat) (f : Port → Port) : (s.updPort n f).saddles = s.saddles := rfl
@[simp] theorem updPort_sites (n : Nat) (f : Port → Port) : (s.updPort n f).sites = s.sites := rfl
@[simp] theorem updPort_parts (n : Nat) (f : Port → Port) : (s.updPort n f).parts = s.parts := rfl
@[simp] theorem updPort_reqs (n : Nat) (f : Port → Port) : (s.updPort n f).reqs = s.reqs := rfl
@[simp] theorem updPort_rmbs (n : Nat) (f : Port → Port) : (s.updPort n f).rmbs = s.rmbs := rfl
@[simp] theorem updPort_sps (n : Nat) (f : Port → Port) : (s.updPort n f).sps = s.sps := rfl
@[simp] theorem updPort_writes (n : Nat) (f : Port → Port) : (s.updPort n f).writes = s.writes := rfl
@[simp] theorem updPort_reads (n : Nat) (f : Port → Port) : (s.updPort n f).reads = s.reads := rfl
@[simp] theorem updPort_ctls (n : Nat) (f : Port → Port) : (s.updPort n f).ctls = s.ctls := rfl
@[simp] theorem updPort_ssbs (n : Nat) (f : Port → Port) : (s.updPort n f).ssbs = s.ssbs := rfl
@[simp] theorem updPort_nor (n : Nat) (f : Port → Port) : (s.updPort n f).nor = s.nor := rfl
@[simp] theorem updPort_fuses (n : Nat) (f : Port → Port) : (s.updPort n f).fuses = s.fuses := rfl
@[simp] theorem updPort_tally (n : Nat) (f : Port → Port) : (s.updPort n f).tally = s.tally := rfl
@[simp] theorem updPort_faultMap (n : Nat) (f : Port → Port) : (s.updPort n f).faultMap = s.faultMap := rfl
@[simp] theorem updPort_faultGen (n : Nat) (f : Port → Port) : (s.updPort n f).faultGen = s.faultGen := rfl
@[simp] theorem updPort_faultLog (n : Nat) (f : Port → Port) : (s.updPort n f).faultLog = s.faultLog := rfl
@[simp] theorem updPort_faultSeq (n : Nat) (f : Port → Port) : (s.updPort n f).faultSeq = s.faultSeq := rfl
@[simp] theorem updPort_order (n : Nat) (f : Port → Port) : (s.updPort n f).order = s.order := rfl
@[simp] theorem updPort_ms (n : Nat) (f : Port → Port) : (s.updPort n f).ms = s.ms := rfl
@[simp] theorem updPort_sent (n : Nat) (f : Port → Port) : (s.updPort n f).sent = s.sent := rfl
@[simp] theorem updPort_fresh (n : Nat) (f : Port → Port) : (s.updPort n f).fresh = s.fresh := rfl
@[simp] theorem updPort_pending (n : Nat) (f : Port → Port) : (s.updPort n f).pending = s.pending := rfl

/-! ### updCtl -/

@[simp] theorem updCtl_regs (c : Nat) (f : Ctl → Ctl) : (s.updCtl c f).regs = s.regs := rfl
@[simp] theorem updCtl_clock (c : Nat) (f : Ctl → Ctl) : (s.updCtl c f).clock = s.clock := rfl
@[simp] theorem updCtl_cores (c : Nat) (f : Ctl → Ctl) : (s.updCtl c f).cores = s.cores := rfl
@[simp] theorem updCtl_routers (c : Nat) (f : Ctl → Ctl) : (s.updCtl c f).routers = s.routers := rfl
@[simp] theorem updCtl_links (c : Nat) (f : Ctl → Ctl) : (s.updCtl c f).links = s.links := rfl
@[simp] theorem updCtl_tiles (c : Nat) (f : Ctl → Ctl) : (s.updCtl c f).tiles = s.tiles := rfl
@[simp] theorem updCtl_crags (c : Nat) (f : Ctl → Ctl) : (s.updCtl c f).crags = s.crags := rfl
@[simp] theorem updCtl_saddles (c : Nat) (f : Ctl → Ctl) : (s.updCtl c f).saddles = s.saddles := rfl
@[simp] theorem updCtl_sites (c : Nat) (f : Ctl → Ctl) : (s.updCtl c f).sites = s.sites := rfl
@[simp] theorem updCtl_parts (c : Nat) (f : Ctl → Ctl) : (s.updCtl c f).parts = s.parts := rfl
@[simp] theorem updCtl_reqs (c : Nat) (f : Ctl → Ctl) : (s.updCtl c f).reqs = s.reqs := rfl
@[simp] theorem updCtl_rmbs (c : Nat) (f : Ctl → Ctl) : (s.updCtl c f).rmbs = s.rmbs := rfl
@[simp] theorem updCtl_sps (c : Nat) (f : Ctl → Ctl) : (s.updCtl c f).sps = s.sps := rfl
@[simp] theorem updCtl_ports (c : Nat) (f : Ctl → Ctl) : (s.updCtl c f).ports = s.ports := rfl
@[simp] theorem updCtl_writes (c : Nat) (f : Ctl → Ctl) : (s.updCtl c f).writes = s.writes := rfl
@[simp] theorem updCtl_reads (c : Nat) (f : Ctl → Ctl) : (s.updCtl c f).reads = s.reads := rfl
@[simp] theorem updCtl_ssbs (c : Nat) (f : Ctl → Ctl) : (s.updCtl c f).ssbs = s.ssbs := rfl
@[simp] theorem updCtl_nor (c : Nat) (f : Ctl → Ctl) : (s.updCtl c f).nor = s.nor := rfl
@[simp] theorem updCtl_fuses (c : Nat) (f : Ctl → Ctl) : (s.updCtl c f).fuses = s.fuses := rfl
@[simp] theorem updCtl_tally (c : Nat) (f : Ctl → Ctl) : (s.updCtl c f).tally = s.tally := rfl
@[simp] theorem updCtl_faultMap (c : Nat) (f : Ctl → Ctl) : (s.updCtl c f).faultMap = s.faultMap := rfl
@[simp] theorem updCtl_faultGen (c : Nat) (f : Ctl → Ctl) : (s.updCtl c f).faultGen = s.faultGen := rfl
@[simp] theorem updCtl_faultLog (c : Nat) (f : Ctl → Ctl) : (s.updCtl c f).faultLog = s.faultLog := rfl
@[simp] theorem updCtl_faultSeq (c : Nat) (f : Ctl → Ctl) : (s.updCtl c f).faultSeq = s.faultSeq := rfl
@[simp] theorem updCtl_order (c : Nat) (f : Ctl → Ctl) : (s.updCtl c f).order = s.order := rfl
@[simp] theorem updCtl_ms (c : Nat) (f : Ctl → Ctl) : (s.updCtl c f).ms = s.ms := rfl
@[simp] theorem updCtl_sent (c : Nat) (f : Ctl → Ctl) : (s.updCtl c f).sent = s.sent := rfl
@[simp] theorem updCtl_fresh (c : Nat) (f : Ctl → Ctl) : (s.updCtl c f).fresh = s.fresh := rfl
@[simp] theorem updCtl_pending (c : Nat) (f : Ctl → Ctl) : (s.updCtl c f).pending = s.pending := rfl

/-! ### updSsb -/

@[simp] theorem updSsb_regs (c : Nat) (f : Ssb → Ssb) : (s.updSsb c f).regs = s.regs := rfl
@[simp] theorem updSsb_clock (c : Nat) (f : Ssb → Ssb) : (s.updSsb c f).clock = s.clock := rfl
@[simp] theorem updSsb_cores (c : Nat) (f : Ssb → Ssb) : (s.updSsb c f).cores = s.cores := rfl
@[simp] theorem updSsb_routers (c : Nat) (f : Ssb → Ssb) : (s.updSsb c f).routers = s.routers := rfl
@[simp] theorem updSsb_links (c : Nat) (f : Ssb → Ssb) : (s.updSsb c f).links = s.links := rfl
@[simp] theorem updSsb_tiles (c : Nat) (f : Ssb → Ssb) : (s.updSsb c f).tiles = s.tiles := rfl
@[simp] theorem updSsb_crags (c : Nat) (f : Ssb → Ssb) : (s.updSsb c f).crags = s.crags := rfl
@[simp] theorem updSsb_saddles (c : Nat) (f : Ssb → Ssb) : (s.updSsb c f).saddles = s.saddles := rfl
@[simp] theorem updSsb_sites (c : Nat) (f : Ssb → Ssb) : (s.updSsb c f).sites = s.sites := rfl
@[simp] theorem updSsb_parts (c : Nat) (f : Ssb → Ssb) : (s.updSsb c f).parts = s.parts := rfl
@[simp] theorem updSsb_reqs (c : Nat) (f : Ssb → Ssb) : (s.updSsb c f).reqs = s.reqs := rfl
@[simp] theorem updSsb_rmbs (c : Nat) (f : Ssb → Ssb) : (s.updSsb c f).rmbs = s.rmbs := rfl
@[simp] theorem updSsb_sps (c : Nat) (f : Ssb → Ssb) : (s.updSsb c f).sps = s.sps := rfl
@[simp] theorem updSsb_ports (c : Nat) (f : Ssb → Ssb) : (s.updSsb c f).ports = s.ports := rfl
@[simp] theorem updSsb_writes (c : Nat) (f : Ssb → Ssb) : (s.updSsb c f).writes = s.writes := rfl
@[simp] theorem updSsb_reads (c : Nat) (f : Ssb → Ssb) : (s.updSsb c f).reads = s.reads := rfl
@[simp] theorem updSsb_ctls (c : Nat) (f : Ssb → Ssb) : (s.updSsb c f).ctls = s.ctls := rfl
@[simp] theorem updSsb_nor (c : Nat) (f : Ssb → Ssb) : (s.updSsb c f).nor = s.nor := rfl
@[simp] theorem updSsb_fuses (c : Nat) (f : Ssb → Ssb) : (s.updSsb c f).fuses = s.fuses := rfl
@[simp] theorem updSsb_tally (c : Nat) (f : Ssb → Ssb) : (s.updSsb c f).tally = s.tally := rfl
@[simp] theorem updSsb_faultMap (c : Nat) (f : Ssb → Ssb) : (s.updSsb c f).faultMap = s.faultMap := rfl
@[simp] theorem updSsb_faultGen (c : Nat) (f : Ssb → Ssb) : (s.updSsb c f).faultGen = s.faultGen := rfl
@[simp] theorem updSsb_faultLog (c : Nat) (f : Ssb → Ssb) : (s.updSsb c f).faultLog = s.faultLog := rfl
@[simp] theorem updSsb_faultSeq (c : Nat) (f : Ssb → Ssb) : (s.updSsb c f).faultSeq = s.faultSeq := rfl
@[simp] theorem updSsb_order (c : Nat) (f : Ssb → Ssb) : (s.updSsb c f).order = s.order := rfl
@[simp] theorem updSsb_ms (c : Nat) (f : Ssb → Ssb) : (s.updSsb c f).ms = s.ms := rfl
@[simp] theorem updSsb_sent (c : Nat) (f : Ssb → Ssb) : (s.updSsb c f).sent = s.sent := rfl
@[simp] theorem updSsb_fresh (c : Nat) (f : Ssb → Ssb) : (s.updSsb c f).fresh = s.fresh := rfl
@[simp] theorem updSsb_pending (c : Nat) (f : Ssb → Ssb) : (s.updSsb c f).pending = s.pending := rfl

/-! ### updRmb -/

@[simp] theorem updRmb_regs (pg : Page) (f : Rmb → Rmb) : (s.updRmb pg f).regs = s.regs := rfl
@[simp] theorem updRmb_clock (pg : Page) (f : Rmb → Rmb) : (s.updRmb pg f).clock = s.clock := rfl
@[simp] theorem updRmb_cores (pg : Page) (f : Rmb → Rmb) : (s.updRmb pg f).cores = s.cores := rfl
@[simp] theorem updRmb_routers (pg : Page) (f : Rmb → Rmb) : (s.updRmb pg f).routers = s.routers := rfl
@[simp] theorem updRmb_links (pg : Page) (f : Rmb → Rmb) : (s.updRmb pg f).links = s.links := rfl
@[simp] theorem updRmb_tiles (pg : Page) (f : Rmb → Rmb) : (s.updRmb pg f).tiles = s.tiles := rfl
@[simp] theorem updRmb_crags (pg : Page) (f : Rmb → Rmb) : (s.updRmb pg f).crags = s.crags := rfl
@[simp] theorem updRmb_saddles (pg : Page) (f : Rmb → Rmb) : (s.updRmb pg f).saddles = s.saddles := rfl
@[simp] theorem updRmb_sites (pg : Page) (f : Rmb → Rmb) : (s.updRmb pg f).sites = s.sites := rfl
@[simp] theorem updRmb_parts (pg : Page) (f : Rmb → Rmb) : (s.updRmb pg f).parts = s.parts := rfl
@[simp] theorem updRmb_reqs (pg : Page) (f : Rmb → Rmb) : (s.updRmb pg f).reqs = s.reqs := rfl
@[simp] theorem updRmb_sps (pg : Page) (f : Rmb → Rmb) : (s.updRmb pg f).sps = s.sps := rfl
@[simp] theorem updRmb_ports (pg : Page) (f : Rmb → Rmb) : (s.updRmb pg f).ports = s.ports := rfl
@[simp] theorem updRmb_writes (pg : Page) (f : Rmb → Rmb) : (s.updRmb pg f).writes = s.writes := rfl
@[simp] theorem updRmb_reads (pg : Page) (f : Rmb → Rmb) : (s.updRmb pg f).reads = s.reads := rfl
@[simp] theorem updRmb_ctls (pg : Page) (f : Rmb → Rmb) : (s.updRmb pg f).ctls = s.ctls := rfl
@[simp] theorem updRmb_ssbs (pg : Page) (f : Rmb → Rmb) : (s.updRmb pg f).ssbs = s.ssbs := rfl
@[simp] theorem updRmb_nor (pg : Page) (f : Rmb → Rmb) : (s.updRmb pg f).nor = s.nor := rfl
@[simp] theorem updRmb_fuses (pg : Page) (f : Rmb → Rmb) : (s.updRmb pg f).fuses = s.fuses := rfl
@[simp] theorem updRmb_tally (pg : Page) (f : Rmb → Rmb) : (s.updRmb pg f).tally = s.tally := rfl
@[simp] theorem updRmb_faultMap (pg : Page) (f : Rmb → Rmb) : (s.updRmb pg f).faultMap = s.faultMap := rfl
@[simp] theorem updRmb_faultGen (pg : Page) (f : Rmb → Rmb) : (s.updRmb pg f).faultGen = s.faultGen := rfl
@[simp] theorem updRmb_faultLog (pg : Page) (f : Rmb → Rmb) : (s.updRmb pg f).faultLog = s.faultLog := rfl
@[simp] theorem updRmb_faultSeq (pg : Page) (f : Rmb → Rmb) : (s.updRmb pg f).faultSeq = s.faultSeq := rfl
@[simp] theorem updRmb_order (pg : Page) (f : Rmb → Rmb) : (s.updRmb pg f).order = s.order := rfl
@[simp] theorem updRmb_ms (pg : Page) (f : Rmb → Rmb) : (s.updRmb pg f).ms = s.ms := rfl
@[simp] theorem updRmb_sent (pg : Page) (f : Rmb → Rmb) : (s.updRmb pg f).sent = s.sent := rfl
@[simp] theorem updRmb_fresh (pg : Page) (f : Rmb → Rmb) : (s.updRmb pg f).fresh = s.fresh := rfl
@[simp] theorem updRmb_pending (pg : Page) (f : Rmb → Rmb) : (s.updRmb pg f).pending = s.pending := rfl

/-! ### updStack -/

@[simp] theorem updStack_regs (k : Nat) (f : Stack → Stack) : (s.updStack k f).regs = s.regs := rfl
@[simp] theorem updStack_clock (k : Nat) (f : Stack → Stack) : (s.updStack k f).clock = s.clock := rfl
@[simp] theorem updStack_cores (k : Nat) (f : Stack → Stack) : (s.updStack k f).cores = s.cores := rfl
@[simp] theorem updStack_routers (k : Nat) (f : Stack → Stack) : (s.updStack k f).routers = s.routers := rfl
@[simp] theorem updStack_links (k : Nat) (f : Stack → Stack) : (s.updStack k f).links = s.links := rfl
@[simp] theorem updStack_tiles (k : Nat) (f : Stack → Stack) : (s.updStack k f).tiles = s.tiles := rfl
@[simp] theorem updStack_crags (k : Nat) (f : Stack → Stack) : (s.updStack k f).crags = s.crags := rfl
@[simp] theorem updStack_saddles (k : Nat) (f : Stack → Stack) : (s.updStack k f).saddles = s.saddles := rfl
@[simp] theorem updStack_sites (k : Nat) (f : Stack → Stack) : (s.updStack k f).sites = s.sites := rfl
@[simp] theorem updStack_parts (k : Nat) (f : Stack → Stack) : (s.updStack k f).parts = s.parts := rfl
@[simp] theorem updStack_reqs (k : Nat) (f : Stack → Stack) : (s.updStack k f).reqs = s.reqs := rfl
@[simp] theorem updStack_rmbs (k : Nat) (f : Stack → Stack) : (s.updStack k f).rmbs = s.rmbs := rfl
@[simp] theorem updStack_ports (k : Nat) (f : Stack → Stack) : (s.updStack k f).ports = s.ports := rfl
@[simp] theorem updStack_writes (k : Nat) (f : Stack → Stack) : (s.updStack k f).writes = s.writes := rfl
@[simp] theorem updStack_reads (k : Nat) (f : Stack → Stack) : (s.updStack k f).reads = s.reads := rfl
@[simp] theorem updStack_ctls (k : Nat) (f : Stack → Stack) : (s.updStack k f).ctls = s.ctls := rfl
@[simp] theorem updStack_ssbs (k : Nat) (f : Stack → Stack) : (s.updStack k f).ssbs = s.ssbs := rfl
@[simp] theorem updStack_nor (k : Nat) (f : Stack → Stack) : (s.updStack k f).nor = s.nor := rfl
@[simp] theorem updStack_fuses (k : Nat) (f : Stack → Stack) : (s.updStack k f).fuses = s.fuses := rfl
@[simp] theorem updStack_tally (k : Nat) (f : Stack → Stack) : (s.updStack k f).tally = s.tally := rfl
@[simp] theorem updStack_faultMap (k : Nat) (f : Stack → Stack) : (s.updStack k f).faultMap = s.faultMap := rfl
@[simp] theorem updStack_faultGen (k : Nat) (f : Stack → Stack) : (s.updStack k f).faultGen = s.faultGen := rfl
@[simp] theorem updStack_faultLog (k : Nat) (f : Stack → Stack) : (s.updStack k f).faultLog = s.faultLog := rfl
@[simp] theorem updStack_faultSeq (k : Nat) (f : Stack → Stack) : (s.updStack k f).faultSeq = s.faultSeq := rfl
@[simp] theorem updStack_order (k : Nat) (f : Stack → Stack) : (s.updStack k f).order = s.order := rfl
@[simp] theorem updStack_ms (k : Nat) (f : Stack → Stack) : (s.updStack k f).ms = s.ms := rfl
@[simp] theorem updStack_sent (k : Nat) (f : Stack → Stack) : (s.updStack k f).sent = s.sent := rfl
@[simp] theorem updStack_fresh (k : Nat) (f : Stack → Stack) : (s.updStack k f).fresh = s.fresh := rfl
@[simp] theorem updStack_pending (k : Nat) (f : Stack → Stack) : (s.updStack k f).pending = s.pending := rfl

/-! ### emit -/

@[simp] theorem emit_regs (m : Msg) : (s.emit m).regs = s.regs := rfl
@[simp] theorem emit_clock (m : Msg) : (s.emit m).clock = s.clock := rfl
@[simp] theorem emit_cores (m : Msg) : (s.emit m).cores = s.cores := rfl
@[simp] theorem emit_routers (m : Msg) : (s.emit m).routers = s.routers := rfl
@[simp] theorem emit_links (m : Msg) : (s.emit m).links = s.links := rfl
@[simp] theorem emit_tiles (m : Msg) : (s.emit m).tiles = s.tiles := rfl
@[simp] theorem emit_crags (m : Msg) : (s.emit m).crags = s.crags := rfl
@[simp] theorem emit_saddles (m : Msg) : (s.emit m).saddles = s.saddles := rfl
@[simp] theorem emit_sites (m : Msg) : (s.emit m).sites = s.sites := rfl
@[simp] theorem emit_parts (m : Msg) : (s.emit m).parts = s.parts := rfl
@[simp] theorem emit_reqs (m : Msg) : (s.emit m).reqs = s.reqs := rfl
@[simp] theorem emit_rmbs (m : Msg) : (s.emit m).rmbs = s.rmbs := rfl
@[simp] theorem emit_sps (m : Msg) : (s.emit m).sps = s.sps := rfl
@[simp] theorem emit_ports (m : Msg) : (s.emit m).ports = s.ports := rfl
@[simp] theorem emit_writes (m : Msg) : (s.emit m).writes = s.writes := rfl
@[simp] theorem emit_reads (m : Msg) : (s.emit m).reads = s.reads := rfl
@[simp] theorem emit_ctls (m : Msg) : (s.emit m).ctls = s.ctls := rfl
@[simp] theorem emit_ssbs (m : Msg) : (s.emit m).ssbs = s.ssbs := rfl
@[simp] theorem emit_nor (m : Msg) : (s.emit m).nor = s.nor := rfl
@[simp] theorem emit_fuses (m : Msg) : (s.emit m).fuses = s.fuses := rfl
@[simp] theorem emit_tally (m : Msg) : (s.emit m).tally = s.tally := rfl
@[simp] theorem emit_faultMap (m : Msg) : (s.emit m).faultMap = s.faultMap := rfl
@[simp] theorem emit_faultGen (m : Msg) : (s.emit m).faultGen = s.faultGen := rfl
@[simp] theorem emit_faultLog (m : Msg) : (s.emit m).faultLog = s.faultLog := rfl
@[simp] theorem emit_faultSeq (m : Msg) : (s.emit m).faultSeq = s.faultSeq := rfl
@[simp] theorem emit_order (m : Msg) : (s.emit m).order = s.order := rfl
@[simp] theorem emit_ms (m : Msg) : (s.emit m).ms = s.ms := rfl
@[simp] theorem emit_fresh (m : Msg) : (s.emit m).fresh = s.fresh := rfl
@[simp] theorem emit_pending (m : Msg) : (s.emit m).pending = s.pending := rfl

/-! ### setSps -/

@[simp] theorem setSps_regs (x : Sps) : (s.setSps x).regs = s.regs := rfl
@[simp] theorem setSps_clock (x : Sps) : (s.setSps x).clock = s.clock := rfl
@[simp] theorem setSps_cores (x : Sps) : (s.setSps x).cores = s.cores := rfl
@[simp] theorem setSps_routers (x : Sps) : (s.setSps x).routers = s.routers := rfl
@[simp] theorem setSps_links (x : Sps) : (s.setSps x).links = s.links := rfl
@[simp] theorem setSps_tiles (x : Sps) : (s.setSps x).tiles = s.tiles := rfl
@[simp] theorem setSps_crags (x : Sps) : (s.setSps x).crags = s.crags := rfl
@[simp] theorem setSps_saddles (x : Sps) : (s.setSps x).saddles = s.saddles := rfl
@[simp] theorem setSps_sites (x : Sps) : (s.setSps x).sites = s.sites := rfl
@[simp] theorem setSps_parts (x : Sps) : (s.setSps x).parts = s.parts := rfl
@[simp] theorem setSps_reqs (x : Sps) : (s.setSps x).reqs = s.reqs := rfl
@[simp] theorem setSps_rmbs (x : Sps) : (s.setSps x).rmbs = s.rmbs := rfl
@[simp] theorem setSps_ports (x : Sps) : (s.setSps x).ports = s.ports := rfl
@[simp] theorem setSps_writes (x : Sps) : (s.setSps x).writes = s.writes := rfl
@[simp] theorem setSps_reads (x : Sps) : (s.setSps x).reads = s.reads := rfl
@[simp] theorem setSps_ctls (x : Sps) : (s.setSps x).ctls = s.ctls := rfl
@[simp] theorem setSps_ssbs (x : Sps) : (s.setSps x).ssbs = s.ssbs := rfl
@[simp] theorem setSps_nor (x : Sps) : (s.setSps x).nor = s.nor := rfl
@[simp] theorem setSps_fuses (x : Sps) : (s.setSps x).fuses = s.fuses := rfl
@[simp] theorem setSps_tally (x : Sps) : (s.setSps x).tally = s.tally := rfl
@[simp] theorem setSps_faultMap (x : Sps) : (s.setSps x).faultMap = s.faultMap := rfl
@[simp] theorem setSps_faultGen (x : Sps) : (s.setSps x).faultGen = s.faultGen := rfl
@[simp] theorem setSps_faultLog (x : Sps) : (s.setSps x).faultLog = s.faultLog := rfl
@[simp] theorem setSps_faultSeq (x : Sps) : (s.setSps x).faultSeq = s.faultSeq := rfl
@[simp] theorem setSps_order (x : Sps) : (s.setSps x).order = s.order := rfl
@[simp] theorem setSps_ms (x : Sps) : (s.setSps x).ms = s.ms := rfl
@[simp] theorem setSps_sent (x : Sps) : (s.setSps x).sent = s.sent := rfl
@[simp] theorem setSps_fresh (x : Sps) : (s.setSps x).fresh = s.fresh := rfl
@[simp] theorem setSps_pending (x : Sps) : (s.setSps x).pending = s.pending := rfl

/-! ### setWrites -/

@[simp] theorem setWrites_regs (l : List Write) : (s.setWrites l).regs = s.regs := rfl
@[simp] theorem setWrites_clock (l : List Write) : (s.setWrites l).clock = s.clock := rfl
@[simp] theorem setWrites_cores (l : List Write) : (s.setWrites l).cores = s.cores := rfl
@[simp] theorem setWrites_routers (l : List Write) : (s.setWrites l).routers = s.routers := rfl
@[simp] theorem setWrites_links (l : List Write) : (s.setWrites l).links = s.links := rfl
@[simp] theorem setWrites_tiles (l : List Write) : (s.setWrites l).tiles = s.tiles := rfl
@[simp] theorem setWrites_crags (l : List Write) : (s.setWrites l).crags = s.crags := rfl
@[simp] theorem setWrites_saddles (l : List Write) : (s.setWrites l).saddles = s.saddles := rfl
@[simp] theorem setWrites_sites (l : List Write) : (s.setWrites l).sites = s.sites := rfl
@[simp] theorem setWrites_parts (l : List Write) : (s.setWrites l).parts = s.parts := rfl
@[simp] theorem setWrites_reqs (l : List Write) : (s.setWrites l).reqs = s.reqs := rfl
@[simp] theorem setWrites_rmbs (l : List Write) : (s.setWrites l).rmbs = s.rmbs := rfl
@[simp] theorem setWrites_sps (l : List Write) : (s.setWrites l).sps = s.sps := rfl
@[simp] theorem setWrites_ports (l : List Write) : (s.setWrites l).ports = s.ports := rfl
@[simp] theorem setWrites_reads (l : List Write) : (s.setWrites l).reads = s.reads := rfl
@[simp] theorem setWrites_ctls (l : List Write) : (s.setWrites l).ctls = s.ctls := rfl
@[simp] theorem setWrites_ssbs (l : List Write) : (s.setWrites l).ssbs = s.ssbs := rfl
@[simp] theorem setWrites_nor (l : List Write) : (s.setWrites l).nor = s.nor := rfl
@[simp] theorem setWrites_fuses (l : List Write) : (s.setWrites l).fuses = s.fuses := rfl
@[simp] theorem setWrites_tally (l : List Write) : (s.setWrites l).tally = s.tally := rfl
@[simp] theorem setWrites_faultMap (l : List Write) : (s.setWrites l).faultMap = s.faultMap := rfl
@[simp] theorem setWrites_faultGen (l : List Write) : (s.setWrites l).faultGen = s.faultGen := rfl
@[simp] theorem setWrites_faultLog (l : List Write) : (s.setWrites l).faultLog = s.faultLog := rfl
@[simp] theorem setWrites_faultSeq (l : List Write) : (s.setWrites l).faultSeq = s.faultSeq := rfl
@[simp] theorem setWrites_order (l : List Write) : (s.setWrites l).order = s.order := rfl
@[simp] theorem setWrites_ms (l : List Write) : (s.setWrites l).ms = s.ms := rfl
@[simp] theorem setWrites_sent (l : List Write) : (s.setWrites l).sent = s.sent := rfl
@[simp] theorem setWrites_fresh (l : List Write) : (s.setWrites l).fresh = s.fresh := rfl
@[simp] theorem setWrites_pending (l : List Write) : (s.setWrites l).pending = s.pending := rfl

/-! ### setReads -/

@[simp] theorem setReads_regs (l : List Read) : (s.setReads l).regs = s.regs := rfl
@[simp] theorem setReads_clock (l : List Read) : (s.setReads l).clock = s.clock := rfl
@[simp] theorem setReads_cores (l : List Read) : (s.setReads l).cores = s.cores := rfl
@[simp] theorem setReads_routers (l : List Read) : (s.setReads l).routers = s.routers := rfl
@[simp] theorem setReads_links (l : List Read) : (s.setReads l).links = s.links := rfl
@[simp] theorem setReads_tiles (l : List Read) : (s.setReads l).tiles = s.tiles := rfl
@[simp] theorem setReads_crags (l : List Read) : (s.setReads l).crags = s.crags := rfl
@[simp] theorem setReads_saddles (l : List Read) : (s.setReads l).saddles = s.saddles := rfl
@[simp] theorem setReads_sites (l : List Read) : (s.setReads l).sites = s.sites := rfl
@[simp] theorem setReads_parts (l : List Read) : (s.setReads l).parts = s.parts := rfl
@[simp] theorem setReads_reqs (l : List Read) : (s.setReads l).reqs = s.reqs := rfl
@[simp] theorem setReads_rmbs (l : List Read) : (s.setReads l).rmbs = s.rmbs := rfl
@[simp] theorem setReads_sps (l : List Read) : (s.setReads l).sps = s.sps := rfl
@[simp] theorem setReads_ports (l : List Read) : (s.setReads l).ports = s.ports := rfl
@[simp] theorem setReads_writes (l : List Read) : (s.setReads l).writes = s.writes := rfl
@[simp] theorem setReads_ctls (l : List Read) : (s.setReads l).ctls = s.ctls := rfl
@[simp] theorem setReads_ssbs (l : List Read) : (s.setReads l).ssbs = s.ssbs := rfl
@[simp] theorem setReads_nor (l : List Read) : (s.setReads l).nor = s.nor := rfl
@[simp] theorem setReads_fuses (l : List Read) : (s.setReads l).fuses = s.fuses := rfl
@[simp] theorem setReads_tally (l : List Read) : (s.setReads l).tally = s.tally := rfl
@[simp] theorem setReads_faultMap (l : List Read) : (s.setReads l).faultMap = s.faultMap := rfl
@[simp] theorem setReads_faultGen (l : List Read) : (s.setReads l).faultGen = s.faultGen := rfl
@[simp] theorem setReads_faultLog (l : List Read) : (s.setReads l).faultLog = s.faultLog := rfl
@[simp] theorem setReads_faultSeq (l : List Read) : (s.setReads l).faultSeq = s.faultSeq := rfl
@[simp] theorem setReads_order (l : List Read) : (s.setReads l).order = s.order := rfl
@[simp] theorem setReads_ms (l : List Read) : (s.setReads l).ms = s.ms := rfl
@[simp] theorem setReads_sent (l : List Read) : (s.setReads l).sent = s.sent := rfl
@[simp] theorem setReads_fresh (l : List Read) : (s.setReads l).fresh = s.fresh := rfl
@[simp] theorem setReads_pending (l : List Read) : (s.setReads l).pending = s.pending := rfl

/-! ### setLinks -/

@[simp] theorem setLinks_regs (l : List LinkFlit) : (s.setLinks l).regs = s.regs := rfl
@[simp] theorem setLinks_clock (l : List LinkFlit) : (s.setLinks l).clock = s.clock := rfl
@[simp] theorem setLinks_cores (l : List LinkFlit) : (s.setLinks l).cores = s.cores := rfl
@[simp] theorem setLinks_routers (l : List LinkFlit) : (s.setLinks l).routers = s.routers := rfl
@[simp] theorem setLinks_tiles (l : List LinkFlit) : (s.setLinks l).tiles = s.tiles := rfl
@[simp] theorem setLinks_crags (l : List LinkFlit) : (s.setLinks l).crags = s.crags := rfl
@[simp] theorem setLinks_saddles (l : List LinkFlit) : (s.setLinks l).saddles = s.saddles := rfl
@[simp] theorem setLinks_sites (l : List LinkFlit) : (s.setLinks l).sites = s.sites := rfl
@[simp] theorem setLinks_parts (l : List LinkFlit) : (s.setLinks l).parts = s.parts := rfl
@[simp] theorem setLinks_reqs (l : List LinkFlit) : (s.setLinks l).reqs = s.reqs := rfl
@[simp] theorem setLinks_rmbs (l : List LinkFlit) : (s.setLinks l).rmbs = s.rmbs := rfl
@[simp] theorem setLinks_sps (l : List LinkFlit) : (s.setLinks l).sps = s.sps := rfl
@[simp] theorem setLinks_ports (l : List LinkFlit) : (s.setLinks l).ports = s.ports := rfl
@[simp] theorem setLinks_writes (l : List LinkFlit) : (s.setLinks l).writes = s.writes := rfl
@[simp] theorem setLinks_reads (l : List LinkFlit) : (s.setLinks l).reads = s.reads := rfl
@[simp] theorem setLinks_ctls (l : List LinkFlit) : (s.setLinks l).ctls = s.ctls := rfl
@[simp] theorem setLinks_ssbs (l : List LinkFlit) : (s.setLinks l).ssbs = s.ssbs := rfl
@[simp] theorem setLinks_nor (l : List LinkFlit) : (s.setLinks l).nor = s.nor := rfl
@[simp] theorem setLinks_fuses (l : List LinkFlit) : (s.setLinks l).fuses = s.fuses := rfl
@[simp] theorem setLinks_tally (l : List LinkFlit) : (s.setLinks l).tally = s.tally := rfl
@[simp] theorem setLinks_faultMap (l : List LinkFlit) : (s.setLinks l).faultMap = s.faultMap := rfl
@[simp] theorem setLinks_faultGen (l : List LinkFlit) : (s.setLinks l).faultGen = s.faultGen := rfl
@[simp] theorem setLinks_faultLog (l : List LinkFlit) : (s.setLinks l).faultLog = s.faultLog := rfl
@[simp] theorem setLinks_faultSeq (l : List LinkFlit) : (s.setLinks l).faultSeq = s.faultSeq := rfl
@[simp] theorem setLinks_order (l : List LinkFlit) : (s.setLinks l).order = s.order := rfl
@[simp] theorem setLinks_ms (l : List LinkFlit) : (s.setLinks l).ms = s.ms := rfl
@[simp] theorem setLinks_sent (l : List LinkFlit) : (s.setLinks l).sent = s.sent := rfl
@[simp] theorem setLinks_fresh (l : List LinkFlit) : (s.setLinks l).fresh = s.fresh := rfl
@[simp] theorem setLinks_pending (l : List LinkFlit) : (s.setLinks l).pending = s.pending := rfl

/-! ### dropReqs -/

@[simp] theorem dropReqs_regs (p : Nat) : (s.dropReqs p).regs = s.regs := rfl
@[simp] theorem dropReqs_clock (p : Nat) : (s.dropReqs p).clock = s.clock := rfl
@[simp] theorem dropReqs_cores (p : Nat) : (s.dropReqs p).cores = s.cores := rfl
@[simp] theorem dropReqs_routers (p : Nat) : (s.dropReqs p).routers = s.routers := rfl
@[simp] theorem dropReqs_links (p : Nat) : (s.dropReqs p).links = s.links := rfl
@[simp] theorem dropReqs_tiles (p : Nat) : (s.dropReqs p).tiles = s.tiles := rfl
@[simp] theorem dropReqs_crags (p : Nat) : (s.dropReqs p).crags = s.crags := rfl
@[simp] theorem dropReqs_saddles (p : Nat) : (s.dropReqs p).saddles = s.saddles := rfl
@[simp] theorem dropReqs_sites (p : Nat) : (s.dropReqs p).sites = s.sites := rfl
@[simp] theorem dropReqs_parts (p : Nat) : (s.dropReqs p).parts = s.parts := rfl
@[simp] theorem dropReqs_rmbs (p : Nat) : (s.dropReqs p).rmbs = s.rmbs := rfl
@[simp] theorem dropReqs_sps (p : Nat) : (s.dropReqs p).sps = s.sps := rfl
@[simp] theorem dropReqs_ports (p : Nat) : (s.dropReqs p).ports = s.ports := rfl
@[simp] theorem dropReqs_writes (p : Nat) : (s.dropReqs p).writes = s.writes := rfl
@[simp] theorem dropReqs_reads (p : Nat) : (s.dropReqs p).reads = s.reads := rfl
@[simp] theorem dropReqs_ctls (p : Nat) : (s.dropReqs p).ctls = s.ctls := rfl
@[simp] theorem dropReqs_ssbs (p : Nat) : (s.dropReqs p).ssbs = s.ssbs := rfl
@[simp] theorem dropReqs_nor (p : Nat) : (s.dropReqs p).nor = s.nor := rfl
@[simp] theorem dropReqs_fuses (p : Nat) : (s.dropReqs p).fuses = s.fuses := rfl
@[simp] theorem dropReqs_tally (p : Nat) : (s.dropReqs p).tally = s.tally := rfl
@[simp] theorem dropReqs_faultMap (p : Nat) : (s.dropReqs p).faultMap = s.faultMap := rfl
@[simp] theorem dropReqs_faultGen (p : Nat) : (s.dropReqs p).faultGen = s.faultGen := rfl
@[simp] theorem dropReqs_faultLog (p : Nat) : (s.dropReqs p).faultLog = s.faultLog := rfl
@[simp] theorem dropReqs_faultSeq (p : Nat) : (s.dropReqs p).faultSeq = s.faultSeq := rfl
@[simp] theorem dropReqs_order (p : Nat) : (s.dropReqs p).order = s.order := rfl
@[simp] theorem dropReqs_ms (p : Nat) : (s.dropReqs p).ms = s.ms := rfl
@[simp] theorem dropReqs_sent (p : Nat) : (s.dropReqs p).sent = s.sent := rfl
@[simp] theorem dropReqs_fresh (p : Nat) : (s.dropReqs p).fresh = s.fresh := rfl
@[simp] theorem dropReqs_pending (p : Nat) : (s.dropReqs p).pending = s.pending := rfl

/-! ### nextOrder -/

@[simp] theorem nextOrder_regs : s.nextOrder.regs = s.regs := rfl
@[simp] theorem nextOrder_clock : s.nextOrder.clock = s.clock := rfl
@[simp] theorem nextOrder_cores : s.nextOrder.cores = s.cores := rfl
@[simp] theorem nextOrder_routers : s.nextOrder.routers = s.routers := rfl
@[simp] theorem nextOrder_links : s.nextOrder.links = s.links := rfl
@[simp] theorem nextOrder_tiles : s.nextOrder.tiles = s.tiles := rfl
@[simp] theorem nextOrder_crags : s.nextOrder.crags = s.crags := rfl
@[simp] theorem nextOrder_saddles : s.nextOrder.saddles = s.saddles := rfl
@[simp] theorem nextOrder_sites : s.nextOrder.sites = s.sites := rfl
@[simp] theorem nextOrder_parts : s.nextOrder.parts = s.parts := rfl
@[simp] theorem nextOrder_reqs : s.nextOrder.reqs = s.reqs := rfl
@[simp] theorem nextOrder_rmbs : s.nextOrder.rmbs = s.rmbs := rfl
@[simp] theorem nextOrder_sps : s.nextOrder.sps = s.sps := rfl
@[simp] theorem nextOrder_ports : s.nextOrder.ports = s.ports := rfl
@[simp] theorem nextOrder_writes : s.nextOrder.writes = s.writes := rfl
@[simp] theorem nextOrder_reads : s.nextOrder.reads = s.reads := rfl
@[simp] theorem nextOrder_ctls : s.nextOrder.ctls = s.ctls := rfl
@[simp] theorem nextOrder_ssbs : s.nextOrder.ssbs = s.ssbs := rfl
@[simp] theorem nextOrder_nor : s.nextOrder.nor = s.nor := rfl
@[simp] theorem nextOrder_fuses : s.nextOrder.fuses = s.fuses := rfl
@[simp] theorem nextOrder_tally : s.nextOrder.tally = s.tally := rfl
@[simp] theorem nextOrder_faultMap : s.nextOrder.faultMap = s.faultMap := rfl
@[simp] theorem nextOrder_faultGen : s.nextOrder.faultGen = s.faultGen := rfl
@[simp] theorem nextOrder_faultLog : s.nextOrder.faultLog = s.faultLog := rfl
@[simp] theorem nextOrder_faultSeq : s.nextOrder.faultSeq = s.faultSeq := rfl
@[simp] theorem nextOrder_ms : s.nextOrder.ms = s.ms := rfl
@[simp] theorem nextOrder_sent : s.nextOrder.sent = s.sent := rfl
@[simp] theorem nextOrder_fresh : s.nextOrder.fresh = s.fresh := rfl
@[simp] theorem nextOrder_pending : s.nextOrder.pending = s.pending := rfl

end Sys2Proof.Machine.State
end

