-- ==== Sys2Proof/Laws/Table.lean ====
section
/-! SUPPORT. Tables and memories: a read after a write, and the canonical form that every operation keeps. -/

namespace Sys2Proof.Machine

variable {α : Type} (d : α)

@[simp] theorem Table.get_nil (k : Nat) : Table.get d ([] : Table α) k = d := rfl

theorem Table.above_cons (b : Nat) (e : Nat × α) (t : Table α) :
    Table.above (some b) (e :: t) = true ↔ b < e.1 ∧ Table.above (some e.1) t = true := by
  simp [Table.above]

theorem Table.above_none_cons (e : Nat × α) (t : Table α) :
    Table.above none (e :: t) = true ↔ Table.above (some e.1) t = true := by
  simp [Table.above]

theorem Table.above_none_of_some {b : Nat} {t : Table α} (h : Table.above (some b) t = true) : Table.above none t = true := by
  cases t with
  | nil => rfl
  | cons e t => rw [above_cons] at h; rw [above_none_cons]; exact h.2

theorem Table.above_mono {b c : Nat} {t : Table α} (h : Table.above (some c) t = true) (hb : b ≤ c) :
    Table.above (some b) t = true := by
  cases t with
  | nil => rfl
  | cons e t => rw [above_cons] at *; exact ⟨by omega, h.2⟩

theorem Table.above_dropWhile {b k : Nat} {t : Table α} (h : Table.above (some b) t = true) :
    Table.above (some b) (t.dropWhile (fun e => decide (e.1 ≤ k))) = true := by
  induction t generalizing b with
  | nil => rfl
  | cons e t ih =>
    rw [above_cons] at h
    rw [List.dropWhile_cons]
    split
    · exact above_mono (ih h.2) (by omega)
    · rw [above_cons]; exact h

/-- A read of a list from which the keys up to `k` were dropped at its front. -/
theorem Table.get_dropWhile (t : Table α) (k j : Nat) :
    Table.get d (t.dropWhile (fun e => decide (e.1 ≤ k))) j = if j ≤ k then d else Table.get d t j := by
  induction t with
  | nil => simp
  | cons e t ih =>
    obtain ⟨i, w⟩ := e
    rw [List.dropWhile_cons]
    by_cases hi : i ≤ k
    · rw [if_pos (by simpa using hi), ih]
      by_cases hj : j ≤ k
      · rw [if_pos hj, if_pos hj]
      · rw [if_neg hj, if_neg hj, Table.get, if_neg (by omega), if_neg (by omega)]
    · rw [if_neg (by simpa using hi)]
      by_cases hj : j ≤ k
      · rw [if_pos hj, Table.get, if_pos (by omega)]
      · rw [if_neg hj]

variable [DecidableEq α]

/-- A read after a write, of any list. -/
theorem Table.get_set (t : Table α) (k j : Nat) (v : α) :
    Table.get d (Table.set d t k v) j = if j = k then v else Table.get d t j := by
  induction t with
  | nil =>
    unfold Table.set
    by_cases hv : v = d
    · simp [hv]
    · by_cases hj : j = k
      · simp [Table.get, hv, hj]
      · simp [Table.get, hv, hj]
  | cons e t ih =>
    obtain ⟨i, w⟩ := e
    unfold Table.set
    split
    · by_cases hv : v = d
      · rw [if_pos hv]
        by_cases hj : j = k
        · rw [if_pos hj, Table.get, if_pos (by omega), hv]
        · rw [if_neg hj]
      · rw [if_neg hv]
        by_cases hj : j = k
        · rw [if_pos hj, Table.get, if_neg (by omega), if_pos hj]
        · rw [if_neg hj, Table.get]
          by_cases hl : j < k
          · rw [if_pos hl, Table.get, if_pos (by omega)]
          · rw [if_neg hl, if_neg hj]
    · split
      · rename_i hki
        subst hki
        by_cases hv : v = d
        · rw [if_pos hv, get_dropWhile]
          by_cases hj : j = k
          · rw [if_pos hj, if_pos (by omega), hv]
          · rw [if_neg hj, Table.get]
            by_cases hl : j < k
            · rw [if_pos hl, if_pos (by omega)]
            · rw [if_neg hl, if_neg hj, if_neg (by omega)]
        · rw [if_neg hv]
          by_cases hj : j = k
          · rw [if_pos hj, Table.get, if_neg (by omega), if_pos hj]
          · rw [if_neg hj, Table.get, Table.get, if_neg hj, if_neg hj]
      · rw [Table.get, Table.get]
        by_cases hl : j < i
        · rw [if_pos hl, if_pos hl, if_neg (by omega)]
        · rw [if_neg hl, if_neg hl]
          by_cases hi : j = i
          · rw [if_pos hi, if_pos hi, if_neg (by omega)]
          · rw [if_neg hi, if_neg hi, ih]

/-- A read after a change, of any list. -/
theorem Table.get_upd (t : Table α) (k j : Nat) (f : α → α) :
    Table.get d (Table.upd d t k f) j = if j = k then f (Table.get d t k) else Table.get d t j :=
  get_set d t k j _

/-- Table.set keeps the keys' order. -/
theorem Table.above_set {b k : Nat} {t : Table α} (v : α) (h : Table.above (some b) t = true) (hk : b < k) :
    Table.above (some b) (Table.set d t k v) = true := by
  induction t generalizing b with
  | nil => unfold Table.set; split <;> simp [Table.above, hk]
  | cons e t ih =>
    obtain ⟨i, w⟩ := e
    rw [above_cons] at h
    obtain ⟨h1, h2⟩ := h
    dsimp only at h1 h2
    unfold Table.set
    split
    · rename_i hki
      split
      · rw [above_cons]; exact ⟨h1, h2⟩
      · rw [above_cons, above_cons]; exact ⟨hk, hki, h2⟩
    · split
      · rename_i hki
        split
        · exact above_mono (above_dropWhile h2) (by omega)
        · rw [above_cons]; exact ⟨hk, by subst hki; exact h2⟩
      · rw [above_cons]; exact ⟨h1, ih h2 (by omega)⟩

theorem Table.mem_set {t : Table α} {k : Nat} {v : α} {e : Nat × α} (h : e ∈ Table.set d t k v) :
    e ∈ t ∨ (e = (k, v) ∧ v ≠ d) := by
  induction t with
  | nil =>
    unfold Table.set at h
    split at h
    · cases h
    · exact .inr ⟨by simpa using h, by assumption⟩
  | cons x t ih =>
    unfold Table.set at h
    split at h
    · split at h
      · exact .inl h
      · rcases List.mem_cons.1 h with rfl | h
        · exact .inr ⟨rfl, by assumption⟩
        · exact .inl h
    · split at h
      · split at h
        · exact .inl (List.mem_cons_of_mem _ ((List.dropWhile_sublist _).subset h))
        · rcases List.mem_cons.1 h with rfl | h
          · exact .inr ⟨rfl, by assumption⟩
          · exact .inl (List.mem_cons_of_mem _ h)
      · rcases List.mem_cons.1 h with rfl | h
        · exact .inl (List.mem_cons_self ..)
        · rcases ih h with h | h
          · exact .inl (List.mem_cons_of_mem _ h)
          · exact .inr h

theorem Table.wf_iff (t : Table α) :
    Table.wf d t = true ↔ Table.above none t = true ∧ ∀ e ∈ t, e.2 ≠ d := by
  simp [Table.wf]

/-- Table.set keeps the canonical form. -/
theorem Table.wf_set {t : Table α} (k : Nat) (v : α) (h : Table.wf d t = true) : Table.wf d (Table.set d t k v) = true := by
  rw [wf_iff] at *
  refine ⟨?_, fun e he => ?_⟩
  · obtain ⟨h, -⟩ := h
    cases t with
    | nil => unfold Table.set; split <;> rfl
    | cons e t =>
      obtain ⟨i, w⟩ := e
      rw [above_none_cons] at h
      dsimp only at h
      unfold Table.set
      split
      · split
        · rw [above_none_cons]; exact h
        · rw [above_none_cons, above_cons]; exact ⟨by assumption, h⟩
      · split
        · rename_i hk
          split
          · exact above_none_of_some (above_dropWhile h)
          · rw [above_none_cons]; subst hk; exact h
        · rw [above_none_cons]; exact above_set d v h (by dsimp only; omega)
  · rcases mem_set d he with he | ⟨rfl, hv⟩
    · exact h.2 e he
    · exact hv

theorem Table.wf_upd {t : Table α} (k : Nat) (f : α → α) (h : Table.wf d t = true) : Table.wf d (Table.upd d t k f) = true :=
  wf_set d k _ h

omit [DecidableEq α] in
theorem Table.above_filter {b : Nat} {t : Table α} (p : Nat × α → Bool) (h : Table.above (some b) t = true) :
    Table.above (some b) (t.filter p) = true := by
  induction t generalizing b with
  | nil => rfl
  | cons e t ih =>
    rw [above_cons] at h
    rw [List.filter_cons]
    split
    · rw [above_cons]; exact ⟨h.1, ih h.2⟩
    · exact above_mono (ih h.2) (by omega)

/-- A filter keeps the canonical form. -/
theorem Table.wf_filter {t : Table α} (p : Nat × α → Bool) (h : Table.wf d t = true) : Table.wf d (t.filter p) = true := by
  rw [wf_iff] at *
  refine ⟨?_, fun e he => h.2 e ((List.mem_filter.1 he).1)⟩
  obtain ⟨h, -⟩ := h
  induction t with
  | nil => rfl
  | cons e t ih =>
    rw [above_none_cons] at h
    rw [List.filter_cons]
    split
    · rw [above_none_cons]; exact above_filter p h
    · exact ih (above_none_of_some h)

theorem Table.above_mapVals {b : Nat} {t : Table α} (f : α → α) (h : Table.above (some b) t = true) :
    Table.above (some b) (Table.mapVals d f t) = true := by
  induction t generalizing b with
  | nil => rfl
  | cons e t ih =>
    rw [above_cons] at h
    unfold Table.mapVals
    split
    · exact above_mono (ih h.2) (by omega)
    · rw [above_cons]; exact ⟨h.1, ih h.2⟩

/-- Table.mapVals keeps the canonical form. -/
theorem Table.wf_mapVals {t : Table α} (f : α → α) (h : Table.above none t = true) : Table.wf d (Table.mapVals d f t) = true := by
  rw [wf_iff]
  constructor
  · induction t with
    | nil => rfl
    | cons e t ih =>
      rw [above_none_cons] at h
      unfold Table.mapVals
      split
      · exact ih (above_none_of_some h)
      · rw [above_none_cons]; exact above_mapVals d f h
  · clear h
    induction t with
    | nil => intro e h; cases h
    | cons e t ih =>
      unfold Table.mapVals
      split
      · exact ih
      · intro x hx
        rcases List.mem_cons.1 hx with rfl | hx
        · assumption
        · exact ih x hx

/-! ### Byte memories -/

theorem Mem.wf_setByte {m : Mem} (a : Nat) (b : Byte) (h : Memory.wf m = true) : Memory.wf (Mem.setByte m a b) = true :=
  Table.wf_set 0 a b h

theorem Mem.wf_write {m : Mem} (a : Nat) (bs : List Byte) (h : Memory.wf m = true) : Memory.wf (Mem.write m a bs) = true := by
  induction bs generalizing m a with
  | nil => exact h
  | cons b bs ih => exact ih (a + 1) (Mem.wf_setByte a b h)

/-- The byte just written, and every other byte as it was. -/
theorem Mem.byte_setByte (m : Mem) (a x : Nat) (b : Byte) :
    Mem.byte (Mem.setByte m a b) x = if x = a then b else Mem.byte m x :=
  Table.get_set 0 m a x b

/-- A byte of the range written reads as written; every other byte as it was. -/
theorem Mem.byte_write (m : Mem) (a x : Nat) (bs : List Byte) :
    Mem.byte (Mem.write m a bs) x = if a ≤ x ∧ x < a + bs.length then bs.getD (x - a) 0 else Mem.byte m x := by
  induction bs generalizing m a with
  | nil => rw [if_neg (by rw [List.length_nil]; omega)]; rfl
  | cons b bs ih =>
    rw [Mem.write, ih, Mem.byte_setByte, List.length_cons]
    by_cases hx : x = a
    · subst hx
      rw [if_neg (by omega), if_pos rfl, if_pos (by omega), Nat.sub_self]; rfl
    · by_cases hl : a ≤ x ∧ x < a + (bs.length + 1)
      · rw [if_pos hl, if_pos (by omega)]
        have : x - a = (x - (a + 1)) + 1 := by omega
        rw [this, List.getD_cons_succ]
      · rw [if_neg hl, if_neg (by omega), if_neg hx]

/-! ### Core memories -/
theorem Core.memWf_iff (c : Core) : c.memWf = true ↔ Memory.wf c.mem = true ∧ Memory.wf c.bank0 = true ∧ Memory.wf c.bank1 = true := by
  simp [Core.memWf, and_assoc]

theorem Core.memWf_of {c d : Core} (h : d.memWf = true) (h1 : c.mem = d.mem) (h2 : c.bank0 = d.bank0) (h3 : c.bank1 = d.bank1) :
    c.memWf = true := by
  rw [memWf_iff] at *; rw [h1, h2, h3]; exact h

theorem Core.memWf_foldl {α : Type} (f : Core → α → Core) (l : List α) (c : Core) (h : c.memWf = true)
    (hf : ∀ c x, c.memWf = true → (f c x).memWf = true) : (l.foldl f c).memWf = true := by
  induction l generalizing c with
  | nil => exact h
  | cons x l ih => exact ih _ (hf c x h)

theorem Core.memWf_setByte {c : Core} (a : Nat) (b : Byte) (h : c.memWf = true) : (c.setByte a b).memWf = true := by
  rw [memWf_iff] at *
  unfold Core.setByte
  split
  · split
    · exact ⟨h.1, Mem.wf_setByte _ _ h.2.1, h.2.2⟩
    · exact ⟨h.1, h.2.1, Mem.wf_setByte _ _ h.2.2⟩
  · exact ⟨Mem.wf_setByte _ _ h.1, h.2.1, h.2.2⟩

theorem Core.memWf_write {c : Core} (a : Nat) (bs : List Byte) (h : c.memWf = true) : (c.write a bs).memWf = true := by
  induction bs generalizing c a with
  | nil => exact h
  | cons b bs ih => exact ih (a + 1) (Core.memWf_setByte a b h)

end Sys2Proof.Machine
end

