-- ==== Sys2Proof/Laws/Registers.lean ====
section
/-! SUPPORT. Registers and typed parts: a read after a write. -/

namespace Sys2Proof.Machine

/-! ### Registers -/

/-- A field holds the low bits of what was written to it. -/
theorem State.rd_wr_self (s : State) (p : Page) (f : Field) (v : Nat) (h : f.width ≤ 32) :
    (s.wr p f v).rd p f = v % 2 ^ f.width := by
  have hp : 2 ^ f.width ≤ 2 ^ 32 := Nat.pow_le_pow_right (by decide) h
  have hv : v % 2 ^ f.width < 2 ^ f.width := Nat.mod_lt _ (Nat.two_pow_pos _)
  simp only [State.rd, State.wr, Table.get_set, if_true]
  rw [BitVec.xor_assoc, BitVec.xor_self, BitVec.xor_zero, BitVec.toNat_ofNat, Nat.mod_eq_of_lt (a := v % 2 ^ f.width) (by omega),
    Nat.mod_eq_of_lt hv]

/-- A field at another place keeps its value. -/
theorem State.rd_wr_ne (s : State) (p q : Page) (f g : Field) (v : Nat) (h : regKey q g ≠ regKey p f) :
    (s.wr p f v).rd q g = s.rd q g := by
  simp only [State.rd, State.wr, Table.get_set, if_neg h]

/-- A field at another bit of the same page keeps its value. -/
theorem State.rd_wr_field (s : State) (p : Page) (f g : Field) (v : Nat) (h : g.off * 32 + g.lsb ≠ f.off * 32 + f.lsb) :
    (s.wr p f v).rd p g = s.rd p g := by
  apply State.rd_wr_ne; simp only [regKey]; omega

/-- A field of another page keeps its value. -/
theorem State.rd_wr_page (s : State) (p q : Page) (f g : Field) (v : Nat) (h : q.id ≠ p.id) (hf : f.off * 32 + f.lsb < 131072)
    (hg : g.off * 32 + g.lsb < 131072) : (s.wr p f v).rd q g = s.rd q g := by
  apply State.rd_wr_ne; simp only [regKey]; omega

/-- A field never exceeds its width. -/
theorem State.rd_lt (s : State) (p : Page) (f : Field) : s.rd p f < 2 ^ f.width := Nat.mod_lt _ (Nat.two_pow_pos _)

/-- What a state's registers read depends on the register store alone. -/
theorem State.rd_congr {s t : State} (h : s.regs = t.regs) (p : Page) (f : Field) : s.rd p f = t.rd p f := by
  simp only [State.rd, h]

theorem b2n_mod (b : Bool) (w : Nat) (h : 0 < w) : b2n b % 2 ^ w = b2n b := by
  have : 2 ^ 1 ≤ 2 ^ w := Nat.pow_le_pow_right (by decide) h
  apply Nat.mod_eq_of_lt; unfold b2n; split <;> omega

@[simp] theorem b2n_ne_zero (b : Bool) : (b2n b ≠ 0) = (b = true) := by cases b <;> simp [b2n]
@[simp] theorem b2n_eq_zero (b : Bool) : (b2n b = 0) = (b = false) := by cases b <;> simp [b2n]

/-- A flag just set. -/
theorem State.flag_setFlag_self (s : State) (p : Page) (f : Field) (b : Bool) (h : f.width ≤ 32) (h' : 0 < f.width) :
    (s.setFlag p f b).flag p f = b := by
  simp only [State.flag, State.setFlag, State.rd_wr_self s p f _ h, b2n_mod _ _ h']; cases b <;> simp [b2n]

/-- A recorded maximum is at least what it was raised to. -/
theorem State.rd_raise_self (s : State) (p : Page) (f : Field) (v : Nat) (h : f.width ≤ 32) (hv : v < 2 ^ f.width) :
    (s.raise p f v).rd p f = max (s.rd p f) v := by
  unfold State.raise
  split
  · rw [State.rd_wr_self _ _ _ _ h, Nat.mod_eq_of_lt hv]; omega
  · omega

/-! ### What the other updates leave of the registers -/

@[simp] theorem State.rd_updCore (s : State) (g : Nat) (fn : Core → Core) (q : Page) (fd : Field) : (s.updCore g fn).rd q fd = s.rd q fd := rfl
@[simp] theorem State.flag_updCore (s : State) (g : Nat) (fn : Core → Core) (q : Page) (fd : Field) : (s.updCore g fn).flag q fd = s.flag q fd := rfl
@[simp] theorem State.rd_updRouter (s : State) (g : Nat) (fn : Router → Router) (q : Page) (fd : Field) : (s.updRouter g fn).rd q fd = s.rd q fd := rfl
@[simp] theorem State.flag_updRouter (s : State) (g : Nat) (fn : Router → Router) (q : Page) (fd : Field) : (s.updRouter g fn).flag q fd = s.flag q fd := rfl
@[simp] theorem State.rd_updTile (s : State) (t : Nat) (fn : Tile → Tile) (q : Page) (fd : Field) : (s.updTile t fn).rd q fd = s.rd q fd := rfl
@[simp] theorem State.flag_updTile (s : State) (t : Nat) (fn : Tile → Tile) (q : Page) (fd : Field) : (s.updTile t fn).flag q fd = s.flag q fd := rfl
@[simp] theorem State.rd_updCrag (s : State) (y : Nat) (fn : Crag → Crag) (q : Page) (fd : Field) : (s.updCrag y fn).rd q fd = s.rd q fd := rfl
@[simp] theorem State.flag_updCrag (s : State) (y : Nat) (fn : Crag → Crag) (q : Page) (fd : Field) : (s.updCrag y fn).flag q fd = s.flag q fd := rfl
@[simp] theorem State.rd_updSaddle (s : State) (k : Nat) (fn : Saddle → Saddle) (q : Page) (fd : Field) : (s.updSaddle k fn).rd q fd = s.rd q fd := rfl
@[simp] theorem State.flag_updSaddle (s : State) (k : Nat) (fn : Saddle → Saddle) (q : Page) (fd : Field) : (s.updSaddle k fn).flag q fd = s.flag q fd := rfl
@[simp] theorem State.rd_updSite (s : State) (m : Nat) (fn : Site → Site) (q : Page) (fd : Field) : (s.updSite m fn).rd q fd = s.rd q fd := rfl
@[simp] theorem State.flag_updSite (s : State) (m : Nat) (fn : Site → Site) (q : Page) (fd : Field) : (s.updSite m fn).flag q fd = s.flag q fd := rfl
@[simp] theorem State.rd_updPart (s : State) (p : Nat) (fn : Part → Part) (q : Page) (fd : Field) : (s.updPart p fn).rd q fd = s.rd q fd := rfl
@[simp] theorem State.flag_updPart (s : State) (p : Nat) (fn : Part → Part) (q : Page) (fd : Field) : (s.updPart p fn).flag q fd = s.flag q fd := rfl
@[simp] theorem State.rd_updReq (s : State) (h : Nat) (fn : Request → Request) (q : Page) (fd : Field) : (s.updReq h fn).rd q fd = s.rd q fd := rfl
@[simp] theorem State.flag_updReq (s : State) (h : Nat) (fn : Request → Request) (q : Page) (fd : Field) : (s.updReq h fn).flag q fd = s.flag q fd := rfl
@[simp] theorem State.rd_updPort (s : State) (n : Nat) (fn : Port → Port) (q : Page) (fd : Field) : (s.updPort n fn).rd q fd = s.rd q fd := rfl
@[simp] theorem State.flag_updPort (s : State) (n : Nat) (fn : Port → Port) (q : Page) (fd : Field) : (s.updPort n fn).flag q fd = s.flag q fd := rfl
@[simp] theorem State.rd_updCtl (s : State) (c : Nat) (fn : Ctl → Ctl) (q : Page) (fd : Field) : (s.updCtl c fn).rd q fd = s.rd q fd := rfl
@[simp] theorem State.flag_updCtl (s : State) (c : Nat) (fn : Ctl → Ctl) (q : Page) (fd : Field) : (s.updCtl c fn).flag q fd = s.flag q fd := rfl
@[simp] theorem State.rd_updSsb (s : State) (c : Nat) (fn : Ssb → Ssb) (q : Page) (fd : Field) : (s.updSsb c fn).rd q fd = s.rd q fd := rfl
@[simp] theorem State.flag_updSsb (s : State) (c : Nat) (fn : Ssb → Ssb) (q : Page) (fd : Field) : (s.updSsb c fn).flag q fd = s.flag q fd := rfl
@[simp] theorem State.rd_updRmb (s : State) (pg : Page) (fn : Rmb → Rmb) (q : Page) (fd : Field) : (s.updRmb pg fn).rd q fd = s.rd q fd := rfl
@[simp] theorem State.flag_updRmb (s : State) (pg : Page) (fn : Rmb → Rmb) (q : Page) (fd : Field) : (s.updRmb pg fn).flag q fd = s.flag q fd := rfl
@[simp] theorem State.rd_updStack (s : State) (k : Nat) (fn : Stack → Stack) (q : Page) (fd : Field) : (s.updStack k fn).rd q fd = s.rd q fd := rfl
@[simp] theorem State.flag_updStack (s : State) (k : Nat) (fn : Stack → Stack) (q : Page) (fd : Field) : (s.updStack k fn).flag q fd = s.flag q fd := rfl
@[simp] theorem State.rd_emit (s : State) (x : Msg) (q : Page) (fd : Field) : (s.emit x).rd q fd = s.rd q fd := rfl
@[simp] theorem State.flag_emit (s : State) (x : Msg) (q : Page) (fd : Field) : (s.emit x).flag q fd = s.flag q fd := rfl

/-! ### Typed parts -/

/-- The part after a change. -/
theorem State.core_updCore (s : State) (i j : Nat) (fn : Core → Core) : (s.updCore i fn).core j = if j = i then fn (s.core i) else s.core j :=
  Table.get_upd _ _ _ _ _

@[simp] theorem State.core_updCore_self (s : State) (i : Nat) (fn : Core → Core) : (s.updCore i fn).core i = fn (s.core i) := by
  rw [State.core_updCore, if_pos rfl]

@[simp] theorem State.core_wr (s : State) (p : Page) (f : Field) (v : Nat) (i : Nat) : (s.wr p f v).core i = s.core i := rfl
@[simp] theorem State.core_setFlag (s : State) (p : Page) (f : Field) (b : Bool) (i : Nat) : (s.setFlag p f b).core i = s.core i := rfl
@[simp] theorem State.core_inc (s : State) (p : Page) (f : Field) (n : Nat) (i : Nat) : (s.inc p f n).core i = s.core i := rfl
@[simp] theorem State.core_emit (s : State) (x : Msg) (i : Nat) : (s.emit x).core i = s.core i := rfl
@[simp] theorem State.core_updRouter (s : State) (j : Nat) (fn : Router → Router) (i : Nat) : (s.updRouter j fn).core i = s.core i := rfl
@[simp] theorem State.core_updTile (s : State) (j : Nat) (fn : Tile → Tile) (i : Nat) : (s.updTile j fn).core i = s.core i := rfl
@[simp] theorem State.core_updCrag (s : State) (j : Nat) (fn : Crag → Crag) (i : Nat) : (s.updCrag j fn).core i = s.core i := rfl
@[simp] theorem State.core_updSaddle (s : State) (j : Nat) (fn : Saddle → Saddle) (i : Nat) : (s.updSaddle j fn).core i = s.core i := rfl
@[simp] theorem State.core_updSite (s : State) (j : Nat) (fn : Site → Site) (i : Nat) : (s.updSite j fn).core i = s.core i := rfl
@[simp] theorem State.core_updPart (s : State) (j : Nat) (fn : Part → Part) (i : Nat) : (s.updPart j fn).core i = s.core i := rfl
@[simp] theorem State.core_updReq (s : State) (j : Nat) (fn : Request → Request) (i : Nat) : (s.updReq j fn).core i = s.core i := rfl
@[simp] theorem State.core_updPort (s : State) (j : Nat) (fn : Port → Port) (i : Nat) : (s.updPort j fn).core i = s.core i := rfl
@[simp] theorem State.core_updCtl (s : State) (j : Nat) (fn : Ctl → Ctl) (i : Nat) : (s.updCtl j fn).core i = s.core i := rfl
@[simp] theorem State.core_updSsb (s : State) (j : Nat) (fn : Ssb → Ssb) (i : Nat) : (s.updSsb j fn).core i = s.core i := rfl

/-- The part after a change. -/
theorem State.router_updRouter (s : State) (i j : Nat) (fn : Router → Router) : (s.updRouter i fn).router j = if j = i then fn (s.router i) else s.router j :=
  Table.get_upd _ _ _ _ _

@[simp] theorem State.router_updRouter_self (s : State) (i : Nat) (fn : Router → Router) : (s.updRouter i fn).router i = fn (s.router i) := by
  rw [State.router_updRouter, if_pos rfl]

@[simp] theorem State.router_wr (s : State) (p : Page) (f : Field) (v : Nat) (i : Nat) : (s.wr p f v).router i = s.router i := rfl
@[simp] theorem State.router_setFlag (s : State) (p : Page) (f : Field) (b : Bool) (i : Nat) : (s.setFlag p f b).router i = s.router i := rfl
@[simp] theorem State.router_inc (s : State) (p : Page) (f : Field) (n : Nat) (i : Nat) : (s.inc p f n).router i = s.router i := rfl
@[simp] theorem State.router_emit (s : State) (x : Msg) (i : Nat) : (s.emit x).router i = s.router i := rfl
@[simp] theorem State.router_updCore (s : State) (j : Nat) (fn : Core → Core) (i : Nat) : (s.updCore j fn).router i = s.router i := rfl
@[simp] theorem State.router_updTile (s : State) (j : Nat) (fn : Tile → Tile) (i : Nat) : (s.updTile j fn).router i = s.router i := rfl
@[simp] theorem State.router_updCrag (s : State) (j : Nat) (fn : Crag → Crag) (i : Nat) : (s.updCrag j fn).router i = s.router i := rfl
@[simp] theorem State.router_updSaddle (s : State) (j : Nat) (fn : Saddle → Saddle) (i : Nat) : (s.updSaddle j fn).router i = s.router i := rfl
@[simp] theorem State.router_updSite (s : State) (j : Nat) (fn : Site → Site) (i : Nat) : (s.updSite j fn).router i = s.router i := rfl
@[simp] theorem State.router_updPart (s : State) (j : Nat) (fn : Part → Part) (i : Nat) : (s.updPart j fn).router i = s.router i := rfl
@[simp] theorem State.router_updReq (s : State) (j : Nat) (fn : Request → Request) (i : Nat) : (s.updReq j fn).router i = s.router i := rfl
@[simp] theorem State.router_updPort (s : State) (j : Nat) (fn : Port → Port) (i : Nat) : (s.updPort j fn).router i = s.router i := rfl
@[simp] theorem State.router_updCtl (s : State) (j : Nat) (fn : Ctl → Ctl) (i : Nat) : (s.updCtl j fn).router i = s.router i := rfl
@[simp] theorem State.router_updSsb (s : State) (j : Nat) (fn : Ssb → Ssb) (i : Nat) : (s.updSsb j fn).router i = s.router i := rfl

/-- The part after a change. -/
theorem State.tile_updTile (s : State) (i j : Nat) (fn : Tile → Tile) : (s.updTile i fn).tile j = if j = i then fn (s.tile i) else s.tile j :=
  Table.get_upd _ _ _ _ _

@[simp] theorem State.tile_updTile_self (s : State) (i : Nat) (fn : Tile → Tile) : (s.updTile i fn).tile i = fn (s.tile i) := by
  rw [State.tile_updTile, if_pos rfl]

@[simp] theorem State.tile_wr (s : State) (p : Page) (f : Field) (v : Nat) (i : Nat) : (s.wr p f v).tile i = s.tile i := rfl
@[simp] theorem State.tile_setFlag (s : State) (p : Page) (f : Field) (b : Bool) (i : Nat) : (s.setFlag p f b).tile i = s.tile i := rfl
@[simp] theorem State.tile_inc (s : State) (p : Page) (f : Field) (n : Nat) (i : Nat) : (s.inc p f n).tile i = s.tile i := rfl
@[simp] theorem State.tile_emit (s : State) (x : Msg) (i : Nat) : (s.emit x).tile i = s.tile i := rfl
@[simp] theorem State.tile_updCore (s : State) (j : Nat) (fn : Core → Core) (i : Nat) : (s.updCore j fn).tile i = s.tile i := rfl
@[simp] theorem State.tile_updRouter (s : State) (j : Nat) (fn : Router → Router) (i : Nat) : (s.updRouter j fn).tile i = s.tile i := rfl
@[simp] theorem State.tile_updCrag (s : State) (j : Nat) (fn : Crag → Crag) (i : Nat) : (s.updCrag j fn).tile i = s.tile i := rfl
@[simp] theorem State.tile_updSaddle (s : State) (j : Nat) (fn : Saddle → Saddle) (i : Nat) : (s.updSaddle j fn).tile i = s.tile i := rfl
@[simp] theorem State.tile_updSite (s : State) (j : Nat) (fn : Site → Site) (i : Nat) : (s.updSite j fn).tile i = s.tile i := rfl
@[simp] theorem State.tile_updPart (s : State) (j : Nat) (fn : Part → Part) (i : Nat) : (s.updPart j fn).tile i = s.tile i := rfl
@[simp] theorem State.tile_updReq (s : State) (j : Nat) (fn : Request → Request) (i : Nat) : (s.updReq j fn).tile i = s.tile i := rfl
@[simp] theorem State.tile_updPort (s : State) (j : Nat) (fn : Port → Port) (i : Nat) : (s.updPort j fn).tile i = s.tile i := rfl
@[simp] theorem State.tile_updCtl (s : State) (j : Nat) (fn : Ctl → Ctl) (i : Nat) : (s.updCtl j fn).tile i = s.tile i := rfl
@[simp] theorem State.tile_updSsb (s : State) (j : Nat) (fn : Ssb → Ssb) (i : Nat) : (s.updSsb j fn).tile i = s.tile i := rfl

/-- The part after a change. -/
theorem State.crag_updCrag (s : State) (i j : Nat) (fn : Crag → Crag) : (s.updCrag i fn).crag j = if j = i then fn (s.crag i) else s.crag j :=
  Table.get_upd _ _ _ _ _

@[simp] theorem State.crag_updCrag_self (s : State) (i : Nat) (fn : Crag → Crag) : (s.updCrag i fn).crag i = fn (s.crag i) := by
  rw [State.crag_updCrag, if_pos rfl]

@[simp] theorem State.crag_wr (s : State) (p : Page) (f : Field) (v : Nat) (i : Nat) : (s.wr p f v).crag i = s.crag i := rfl
@[simp] theorem State.crag_setFlag (s : State) (p : Page) (f : Field) (b : Bool) (i : Nat) : (s.setFlag p f b).crag i = s.crag i := rfl
@[simp] theorem State.crag_inc (s : State) (p : Page) (f : Field) (n : Nat) (i : Nat) : (s.inc p f n).crag i = s.crag i := rfl
@[simp] theorem State.crag_emit (s : State) (x : Msg) (i : Nat) : (s.emit x).crag i = s.crag i := rfl
@[simp] theorem State.crag_updCore (s : State) (j : Nat) (fn : Core → Core) (i : Nat) : (s.updCore j fn).crag i = s.crag i := rfl
@[simp] theorem State.crag_updRouter (s : State) (j : Nat) (fn : Router → Router) (i : Nat) : (s.updRouter j fn).crag i = s.crag i := rfl
@[simp] theorem State.crag_updTile (s : State) (j : Nat) (fn : Tile → Tile) (i : Nat) : (s.updTile j fn).crag i = s.crag i := rfl
@[simp] theorem State.crag_updSaddle (s : State) (j : Nat) (fn : Saddle → Saddle) (i : Nat) : (s.updSaddle j fn).crag i = s.crag i := rfl
@[simp] theorem State.crag_updSite (s : State) (j : Nat) (fn : Site → Site) (i : Nat) : (s.updSite j fn).crag i = s.crag i := rfl
@[simp] theorem State.crag_updPart (s : State) (j : Nat) (fn : Part → Part) (i : Nat) : (s.updPart j fn).crag i = s.crag i := rfl
@[simp] theorem State.crag_updReq (s : State) (j : Nat) (fn : Request → Request) (i : Nat) : (s.updReq j fn).crag i = s.crag i := rfl
@[simp] theorem State.crag_updPort (s : State) (j : Nat) (fn : Port → Port) (i : Nat) : (s.updPort j fn).crag i = s.crag i := rfl
@[simp] theorem State.crag_updCtl (s : State) (j : Nat) (fn : Ctl → Ctl) (i : Nat) : (s.updCtl j fn).crag i = s.crag i := rfl
@[simp] theorem State.crag_updSsb (s : State) (j : Nat) (fn : Ssb → Ssb) (i : Nat) : (s.updSsb j fn).crag i = s.crag i := rfl

/-- The part after a change. -/
theorem State.saddle_updSaddle (s : State) (i j : Nat) (fn : Saddle → Saddle) : (s.updSaddle i fn).saddle j = if j = i then fn (s.saddle i) else s.saddle j :=
  Table.get_upd _ _ _ _ _

@[simp] theorem State.saddle_updSaddle_self (s : State) (i : Nat) (fn : Saddle → Saddle) : (s.updSaddle i fn).saddle i = fn (s.saddle i) := by
  rw [State.saddle_updSaddle, if_pos rfl]

@[simp] theorem State.saddle_wr (s : State) (p : Page) (f : Field) (v : Nat) (i : Nat) : (s.wr p f v).saddle i = s.saddle i := rfl
@[simp] theorem State.saddle_setFlag (s : State) (p : Page) (f : Field) (b : Bool) (i : Nat) : (s.setFlag p f b).saddle i = s.saddle i := rfl
@[simp] theorem State.saddle_inc (s : State) (p : Page) (f : Field) (n : Nat) (i : Nat) : (s.inc p f n).saddle i = s.saddle i := rfl
@[simp] theorem State.saddle_emit (s : State) (x : Msg) (i : Nat) : (s.emit x).saddle i = s.saddle i := rfl
@[simp] theorem State.saddle_updCore (s : State) (j : Nat) (fn : Core → Core) (i : Nat) : (s.updCore j fn).saddle i = s.saddle i := rfl
@[simp] theorem State.saddle_updRouter (s : State) (j : Nat) (fn : Router → Router) (i : Nat) : (s.updRouter j fn).saddle i = s.saddle i := rfl
@[simp] theorem State.saddle_updTile (s : State) (j : Nat) (fn : Tile → Tile) (i : Nat) : (s.updTile j fn).saddle i = s.saddle i := rfl
@[simp] theorem State.saddle_updCrag (s : State) (j : Nat) (fn : Crag → Crag) (i : Nat) : (s.updCrag j fn).saddle i = s.saddle i := rfl
@[simp] theorem State.saddle_updSite (s : State) (j : Nat) (fn : Site → Site) (i : Nat) : (s.updSite j fn).saddle i = s.saddle i := rfl
@[simp] theorem State.saddle_updPart (s : State) (j : Nat) (fn : Part → Part) (i : Nat) : (s.updPart j fn).saddle i = s.saddle i := rfl
@[simp] theorem State.saddle_updReq (s : State) (j : Nat) (fn : Request → Request) (i : Nat) : (s.updReq j fn).saddle i = s.saddle i := rfl
@[simp] theorem State.saddle_updPort (s : State) (j : Nat) (fn : Port → Port) (i : Nat) : (s.updPort j fn).saddle i = s.saddle i := rfl
@[simp] theorem State.saddle_updCtl (s : State) (j : Nat) (fn : Ctl → Ctl) (i : Nat) : (s.updCtl j fn).saddle i = s.saddle i := rfl
@[simp] theorem State.saddle_updSsb (s : State) (j : Nat) (fn : Ssb → Ssb) (i : Nat) : (s.updSsb j fn).saddle i = s.saddle i := rfl

/-- The part after a change. -/
theorem State.site_updSite (s : State) (i j : Nat) (fn : Site → Site) : (s.updSite i fn).site j = if j = i then fn (s.site i) else s.site j :=
  Table.get_upd _ _ _ _ _

@[simp] theorem State.site_updSite_self (s : State) (i : Nat) (fn : Site → Site) : (s.updSite i fn).site i = fn (s.site i) := by
  rw [State.site_updSite, if_pos rfl]

@[simp] theorem State.site_wr (s : State) (p : Page) (f : Field) (v : Nat) (i : Nat) : (s.wr p f v).site i = s.site i := rfl
@[simp] theorem State.site_setFlag (s : State) (p : Page) (f : Field) (b : Bool) (i : Nat) : (s.setFlag p f b).site i = s.site i := rfl
@[simp] theorem State.site_inc (s : State) (p : Page) (f : Field) (n : Nat) (i : Nat) : (s.inc p f n).site i = s.site i := rfl
@[simp] theorem State.site_emit (s : State) (x : Msg) (i : Nat) : (s.emit x).site i = s.site i := rfl
@[simp] theorem State.site_updCore (s : State) (j : Nat) (fn : Core → Core) (i : Nat) : (s.updCore j fn).site i = s.site i := rfl
@[simp] theorem State.site_updRouter (s : State) (j : Nat) (fn : Router → Router) (i : Nat) : (s.updRouter j fn).site i = s.site i := rfl
@[simp] theorem State.site_updTile (s : State) (j : Nat) (fn : Tile → Tile) (i : Nat) : (s.updTile j fn).site i = s.site i := rfl
@[simp] theorem State.site_updCrag (s : State) (j : Nat) (fn : Crag → Crag) (i : Nat) : (s.updCrag j fn).site i = s.site i := rfl
@[simp] theorem State.site_updSaddle (s : State) (j : Nat) (fn : Saddle → Saddle) (i : Nat) : (s.updSaddle j fn).site i = s.site i := rfl
@[simp] theorem State.site_updPart (s : State) (j : Nat) (fn : Part → Part) (i : Nat) : (s.updPart j fn).site i = s.site i := rfl
@[simp] theorem State.site_updReq (s : State) (j : Nat) (fn : Request → Request) (i : Nat) : (s.updReq j fn).site i = s.site i := rfl
@[simp] theorem State.site_updPort (s : State) (j : Nat) (fn : Port → Port) (i : Nat) : (s.updPort j fn).site i = s.site i := rfl
@[simp] theorem State.site_updCtl (s : State) (j : Nat) (fn : Ctl → Ctl) (i : Nat) : (s.updCtl j fn).site i = s.site i := rfl
@[simp] theorem State.site_updSsb (s : State) (j : Nat) (fn : Ssb → Ssb) (i : Nat) : (s.updSsb j fn).site i = s.site i := rfl

/-- The part after a change. -/
theorem State.part_updPart (s : State) (i j : Nat) (fn : Part → Part) : (s.updPart i fn).part j = if j = i then fn (s.part i) else s.part j :=
  Table.get_upd _ _ _ _ _

@[simp] theorem State.part_updPart_self (s : State) (i : Nat) (fn : Part → Part) : (s.updPart i fn).part i = fn (s.part i) := by
  rw [State.part_updPart, if_pos rfl]

@[simp] theorem State.part_wr (s : State) (p : Page) (f : Field) (v : Nat) (i : Nat) : (s.wr p f v).part i = s.part i := rfl
@[simp] theorem State.part_setFlag (s : State) (p : Page) (f : Field) (b : Bool) (i : Nat) : (s.setFlag p f b).part i = s.part i := rfl
@[simp] theorem State.part_inc (s : State) (p : Page) (f : Field) (n : Nat) (i : Nat) : (s.inc p f n).part i = s.part i := rfl
@[simp] theorem State.part_emit (s : State) (x : Msg) (i : Nat) : (s.emit x).part i = s.part i := rfl
@[simp] theorem State.part_updCore (s : State) (j : Nat) (fn : Core → Core) (i : Nat) : (s.updCore j fn).part i = s.part i := rfl
@[simp] theorem State.part_updRouter (s : State) (j : Nat) (fn : Router → Router) (i : Nat) : (s.updRouter j fn).part i = s.part i := rfl
@[simp] theorem State.part_updTile (s : State) (j : Nat) (fn : Tile → Tile) (i : Nat) : (s.updTile j fn).part i = s.part i := rfl
@[simp] theorem State.part_updCrag (s : State) (j : Nat) (fn : Crag → Crag) (i : Nat) : (s.updCrag j fn).part i = s.part i := rfl
@[simp] theorem State.part_updSaddle (s : State) (j : Nat) (fn : Saddle → Saddle) (i : Nat) : (s.updSaddle j fn).part i = s.part i := rfl
@[simp] theorem State.part_updSite (s : State) (j : Nat) (fn : Site → Site) (i : Nat) : (s.updSite j fn).part i = s.part i := rfl
@[simp] theorem State.part_updReq (s : State) (j : Nat) (fn : Request → Request) (i : Nat) : (s.updReq j fn).part i = s.part i := rfl
@[simp] theorem State.part_updPort (s : State) (j : Nat) (fn : Port → Port) (i : Nat) : (s.updPort j fn).part i = s.part i := rfl
@[simp] theorem State.part_updCtl (s : State) (j : Nat) (fn : Ctl → Ctl) (i : Nat) : (s.updCtl j fn).part i = s.part i := rfl
@[simp] theorem State.part_updSsb (s : State) (j : Nat) (fn : Ssb → Ssb) (i : Nat) : (s.updSsb j fn).part i = s.part i := rfl

/-- The part after a change. -/
theorem State.req_updReq (s : State) (i j : Nat) (fn : Request → Request) : (s.updReq i fn).req j = if j = i then fn (s.req i) else s.req j :=
  Table.get_upd _ _ _ _ _

@[simp] theorem State.req_updReq_self (s : State) (i : Nat) (fn : Request → Request) : (s.updReq i fn).req i = fn (s.req i) := by
  rw [State.req_updReq, if_pos rfl]

@[simp] theorem State.req_wr (s : State) (p : Page) (f : Field) (v : Nat) (i : Nat) : (s.wr p f v).req i = s.req i := rfl
@[simp] theorem State.req_setFlag (s : State) (p : Page) (f : Field) (b : Bool) (i : Nat) : (s.setFlag p f b).req i = s.req i := rfl
@[simp] theorem State.req_inc (s : State) (p : Page) (f : Field) (n : Nat) (i : Nat) : (s.inc p f n).req i = s.req i := rfl
@[simp] theorem State.req_emit (s : State) (x : Msg) (i : Nat) : (s.emit x).req i = s.req i := rfl
@[simp] theorem State.req_updCore (s : State) (j : Nat) (fn : Core → Core) (i : Nat) : (s.updCore j fn).req i = s.req i := rfl
@[simp] theorem State.req_updRouter (s : State) (j : Nat) (fn : Router → Router) (i : Nat) : (s.updRouter j fn).req i = s.req i := rfl
@[simp] theorem State.req_updTile (s : State) (j : Nat) (fn : Tile → Tile) (i : Nat) : (s.updTile j fn).req i = s.req i := rfl
@[simp] theorem State.req_updCrag (s : State) (j : Nat) (fn : Crag → Crag) (i : Nat) : (s.updCrag j fn).req i = s.req i := rfl
@[simp] theorem State.req_updSaddle (s : State) (j : Nat) (fn : Saddle → Saddle) (i : Nat) : (s.updSaddle j fn).req i = s.req i := rfl
@[simp] theorem State.req_updSite (s : State) (j : Nat) (fn : Site → Site) (i : Nat) : (s.updSite j fn).req i = s.req i := rfl
@[simp] theorem State.req_updPart (s : State) (j : Nat) (fn : Part → Part) (i : Nat) : (s.updPart j fn).req i = s.req i := rfl
@[simp] theorem State.req_updPort (s : State) (j : Nat) (fn : Port → Port) (i : Nat) : (s.updPort j fn).req i = s.req i := rfl
@[simp] theorem State.req_updCtl (s : State) (j : Nat) (fn : Ctl → Ctl) (i : Nat) : (s.updCtl j fn).req i = s.req i := rfl
@[simp] theorem State.req_updSsb (s : State) (j : Nat) (fn : Ssb → Ssb) (i : Nat) : (s.updSsb j fn).req i = s.req i := rfl

/-- The part after a change. -/
theorem State.port_updPort (s : State) (i j : Nat) (fn : Port → Port) : (s.updPort i fn).port j = if j = i then fn (s.port i) else s.port j :=
  Table.get_upd _ _ _ _ _

@[simp] theorem State.port_updPort_self (s : State) (i : Nat) (fn : Port → Port) : (s.updPort i fn).port i = fn (s.port i) := by
  rw [State.port_updPort, if_pos rfl]

@[simp] theorem State.port_wr (s : State) (p : Page) (f : Field) (v : Nat) (i : Nat) : (s.wr p f v).port i = s.port i := rfl
@[simp] theorem State.port_setFlag (s : State) (p : Page) (f : Field) (b : Bool) (i : Nat) : (s.setFlag p f b).port i = s.port i := rfl
@[simp] theorem State.port_inc (s : State) (p : Page) (f : Field) (n : Nat) (i : Nat) : (s.inc p f n).port i = s.port i := rfl
@[simp] theorem State.port_emit (s : State) (x : Msg) (i : Nat) : (s.emit x).port i = s.port i := rfl
@[simp] theorem State.port_updCore (s : State) (j : Nat) (fn : Core → Core) (i : Nat) : (s.updCore j fn).port i = s.port i := rfl
@[simp] theorem State.port_updRouter (s : State) (j : Nat) (fn : Router → Router) (i : Nat) : (s.updRouter j fn).port i = s.port i := rfl
@[simp] theorem State.port_updTile (s : State) (j : Nat) (fn : Tile → Tile) (i : Nat) : (s.updTile j fn).port i = s.port i := rfl
@[simp] theorem State.port_updCrag (s : State) (j : Nat) (fn : Crag → Crag) (i : Nat) : (s.updCrag j fn).port i = s.port i := rfl
@[simp] theorem State.port_updSaddle (s : State) (j : Nat) (fn : Saddle → Saddle) (i : Nat) : (s.updSaddle j fn).port i = s.port i := rfl
@[simp] theorem State.port_updSite (s : State) (j : Nat) (fn : Site → Site) (i : Nat) : (s.updSite j fn).port i = s.port i := rfl
@[simp] theorem State.port_updPart (s : State) (j : Nat) (fn : Part → Part) (i : Nat) : (s.updPart j fn).port i = s.port i := rfl
@[simp] theorem State.port_updReq (s : State) (j : Nat) (fn : Request → Request) (i : Nat) : (s.updReq j fn).port i = s.port i := rfl
@[simp] theorem State.port_updCtl (s : State) (j : Nat) (fn : Ctl → Ctl) (i : Nat) : (s.updCtl j fn).port i = s.port i := rfl
@[simp] theorem State.port_updSsb (s : State) (j : Nat) (fn : Ssb → Ssb) (i : Nat) : (s.updSsb j fn).port i = s.port i := rfl

/-- The part after a change. -/
theorem State.ctl_updCtl (s : State) (i j : Nat) (fn : Ctl → Ctl) : (s.updCtl i fn).ctl j = if j = i then fn (s.ctl i) else s.ctl j :=
  Table.get_upd _ _ _ _ _

@[simp] theorem State.ctl_updCtl_self (s : State) (i : Nat) (fn : Ctl → Ctl) : (s.updCtl i fn).ctl i = fn (s.ctl i) := by
  rw [State.ctl_updCtl, if_pos rfl]

@[simp] theorem State.ctl_wr (s : State) (p : Page) (f : Field) (v : Nat) (i : Nat) : (s.wr p f v).ctl i = s.ctl i := rfl
@[simp] theorem State.ctl_setFlag (s : State) (p : Page) (f : Field) (b : Bool) (i : Nat) : (s.setFlag p f b).ctl i = s.ctl i := rfl
@[simp] theorem State.ctl_inc (s : State) (p : Page) (f : Field) (n : Nat) (i : Nat) : (s.inc p f n).ctl i = s.ctl i := rfl
@[simp] theorem State.ctl_emit (s : State) (x : Msg) (i : Nat) : (s.emit x).ctl i = s.ctl i := rfl
@[simp] theorem State.ctl_updCore (s : State) (j : Nat) (fn : Core → Core) (i : Nat) : (s.updCore j fn).ctl i = s.ctl i := rfl
@[simp] theorem State.ctl_updRouter (s : State) (j : Nat) (fn : Router → Router) (i : Nat) : (s.updRouter j fn).ctl i = s.ctl i := rfl
@[simp] theorem State.ctl_updTile (s : State) (j : Nat) (fn : Tile → Tile) (i : Nat) : (s.updTile j fn).ctl i = s.ctl i := rfl
@[simp] theorem State.ctl_updCrag (s : State) (j : Nat) (fn : Crag → Crag) (i : Nat) : (s.updCrag j fn).ctl i = s.ctl i := rfl
@[simp] theorem State.ctl_updSaddle (s : State) (j : Nat) (fn : Saddle → Saddle) (i : Nat) : (s.updSaddle j fn).ctl i = s.ctl i := rfl
@[simp] theorem State.ctl_updSite (s : State) (j : Nat) (fn : Site → Site) (i : Nat) : (s.updSite j fn).ctl i = s.ctl i := rfl
@[simp] theorem State.ctl_updPart (s : State) (j : Nat) (fn : Part → Part) (i : Nat) : (s.updPart j fn).ctl i = s.ctl i := rfl
@[simp] theorem State.ctl_updReq (s : State) (j : Nat) (fn : Request → Request) (i : Nat) : (s.updReq j fn).ctl i = s.ctl i := rfl
@[simp] theorem State.ctl_updPort (s : State) (j : Nat) (fn : Port → Port) (i : Nat) : (s.updPort j fn).ctl i = s.ctl i := rfl
@[simp] theorem State.ctl_updSsb (s : State) (j : Nat) (fn : Ssb → Ssb) (i : Nat) : (s.updSsb j fn).ctl i = s.ctl i := rfl

/-- The part after a change. -/
theorem State.ssb_updSsb (s : State) (i j : Nat) (fn : Ssb → Ssb) : (s.updSsb i fn).ssb j = if j = i then fn (s.ssb i) else s.ssb j :=
  Table.get_upd _ _ _ _ _

@[simp] theorem State.ssb_updSsb_self (s : State) (i : Nat) (fn : Ssb → Ssb) : (s.updSsb i fn).ssb i = fn (s.ssb i) := by
  rw [State.ssb_updSsb, if_pos rfl]

@[simp] theorem State.ssb_wr (s : State) (p : Page) (f : Field) (v : Nat) (i : Nat) : (s.wr p f v).ssb i = s.ssb i := rfl
@[simp] theorem State.ssb_setFlag (s : State) (p : Page) (f : Field) (b : Bool) (i : Nat) : (s.setFlag p f b).ssb i = s.ssb i := rfl
@[simp] theorem State.ssb_inc (s : State) (p : Page) (f : Field) (n : Nat) (i : Nat) : (s.inc p f n).ssb i = s.ssb i := rfl
@[simp] theorem State.ssb_emit (s : State) (x : Msg) (i : Nat) : (s.emit x).ssb i = s.ssb i := rfl
@[simp] theorem State.ssb_updCore (s : State) (j : Nat) (fn : Core → Core) (i : Nat) : (s.updCore j fn).ssb i = s.ssb i := rfl
@[simp] theorem State.ssb_updRouter (s : State) (j : Nat) (fn : Router → Router) (i : Nat) : (s.updRouter j fn).ssb i = s.ssb i := rfl
@[simp] theorem State.ssb_updTile (s : State) (j : Nat) (fn : Tile → Tile) (i : Nat) : (s.updTile j fn).ssb i = s.ssb i := rfl
@[simp] theorem State.ssb_updCrag (s : State) (j : Nat) (fn : Crag → Crag) (i : Nat) : (s.updCrag j fn).ssb i = s.ssb i := rfl
@[simp] theorem State.ssb_updSaddle (s : State) (j : Nat) (fn : Saddle → Saddle) (i : Nat) : (s.updSaddle j fn).ssb i = s.ssb i := rfl
@[simp] theorem State.ssb_updSite (s : State) (j : Nat) (fn : Site → Site) (i : Nat) : (s.updSite j fn).ssb i = s.ssb i := rfl
@[simp] theorem State.ssb_updPart (s : State) (j : Nat) (fn : Part → Part) (i : Nat) : (s.updPart j fn).ssb i = s.ssb i := rfl
@[simp] theorem State.ssb_updReq (s : State) (j : Nat) (fn : Request → Request) (i : Nat) : (s.updReq j fn).ssb i = s.ssb i := rfl
@[simp] theorem State.ssb_updPort (s : State) (j : Nat) (fn : Port → Port) (i : Nat) : (s.updPort j fn).ssb i = s.ssb i := rfl
@[simp] theorem State.ssb_updCtl (s : State) (j : Nat) (fn : Ctl → Ctl) (i : Nat) : (s.updCtl j fn).ssb i = s.ssb i := rfl

/-- The rail monitor block after a change. -/
theorem State.rmbOf_updRmb (s : State) (p q : Page) (fn : Rmb → Rmb) :
    (s.updRmb p fn).rmbOf q = if q.id = p.id then fn (s.rmbOf p) else s.rmbOf q :=
  Table.get_upd _ _ _ _ _

@[simp] theorem State.rmbOf_updRmb_self (s : State) (p : Page) (fn : Rmb → Rmb) : (s.updRmb p fn).rmbOf p = fn (s.rmbOf p) := by
  rw [State.rmbOf_updRmb, if_pos rfl]

@[simp] theorem State.rmbOf_wr (s : State) (p : Page) (f : Field) (v : Nat) (q : Page) : (s.wr p f v).rmbOf q = s.rmbOf q := rfl
@[simp] theorem State.rmbOf_setFlag (s : State) (p : Page) (f : Field) (b : Bool) (q : Page) : (s.setFlag p f b).rmbOf q = s.rmbOf q := rfl

/-- The record of a hardware set lies at an offset of its own: a field at an offset that is a multiple of 4 keeps its value. -/
theorem State.rd_hwSet (s : State) (p q : Page) (f k : Field) (b : Nat) (hf : f.off % 4 = 0) (hk : k.off % 4 = 0) (hl : k.lsb < 32)
    (hf' : f.off < 4096) (hk' : k.off < 4096) : (s.hwSet p f b).rd q k = s.rd q k := by
  unfold State.hwSet State.wr64
  rw [State.rd_wr_ne, State.rd_wr_ne] <;> simp only [regKey, Field.setLo, Field.setHi] <;> omega

/-- A raised flag at another place keeps a field. -/
theorem State.rd_raiseFlag_ne (s : State) (p q : Page) (f k : Field) (hn : regKey q k ≠ regKey p f) (hf : f.off % 4 = 0) (hk : k.off % 4 = 0)
    (hl : k.lsb < 32) (hf' : f.off < 4096) (hk' : k.off < 4096) : (s.raiseFlag p f).rd q k = s.rd q k := by
  unfold State.raiseFlag State.setFlag
  rw [State.rd_wr_ne _ _ _ _ _ _ hn, State.rd_hwSet _ _ _ _ _ _ hf hk hl hf' hk']

/-- A raised flag reads 1. -/
@[simp] theorem State.flag_raiseFlag (s : State) (p : Page) (f : Field) (h : f.width = 1) : (s.raiseFlag p f).flag p f = true := by
  unfold State.raiseFlag State.setFlag State.flag
  rw [State.rd_wr_self _ _ _ _ (by omega), h]
  simp [b2n]

/-- An error event changes only the common fields below 0x024 of a page (R453). -/
theorem State.rd_err (s : State) (p : Page) (b : Nat) (inj : Bool) (q : Page) (f : Field) (h : 0x24 * 32 ≤ f.off * 32 + f.lsb)
    (h' : f.off * 32 + f.lsb < 131072) : (s.err p b inj).rd q f = s.rd q f := by
  have w : ∀ (s : State) (g : Field) v, g.off * 32 + g.lsb < 0x24 * 32 → (s.wr p g v).rd q f = s.rd q f := by
    intro s g v hg
    apply State.rd_wr_ne; simp only [regKey]; omega
  have st : ∀ s : State, (s.stamp p).rd q f = s.rd q f := by
    intro s; unfold State.stamp State.setFlag
    split <;> (rw [w _ _ _ (by decide), w _ _ _ (by decide), w _ _ _ (by decide)])
  have hw : ∀ (s : State) (g : Field) (b : Nat), g.off < 0x20 + 1 → (s.hwSet p g b).rd q f = s.rd q f := by
    intro s g b hg; unfold State.hwSet State.wr64
    rw [w _ _ _ (by simp only [Field.setHi]; omega), w _ _ _ (by simp only [Field.setLo]; omega)]
  unfold State.err State.noting State.capture State.raiseFlag State.setFlag
  dsimp only
  repeat' split
  all_goals repeat first
    | rw [st]
    | rw [State.rd_emit]
    | rw [hw _ _ _ (by decide)]
    | rw [w _ _ _ (by decide)]
    | rfl

/-- An error of page `p` keeps every field of another page. -/
theorem State.rd_err' (s : State) (p : Page) (b : Nat) (inj : Bool) (q : Page) (f : Field) (h : q.id ≠ p.id)
    (h' : f.off * 32 + f.lsb < 131072) : (s.err p b inj).rd q f = s.rd q f := by
  have w : ∀ (s : State) (g : Field) v, g.off * 32 + g.lsb < 131072 → (s.wr p g v).rd q f = s.rd q f :=
    fun s g v hg => State.rd_wr_page _ _ _ _ _ _ h hg h'
  have st : ∀ s : State, (s.stamp p).rd q f = s.rd q f := by
    intro s; unfold State.stamp State.setFlag
    split <;> (rw [w _ _ _ (by decide), w _ _ _ (by decide), w _ _ _ (by decide)])
  have hw : ∀ (s : State) (g : Field) (b : Nat), g.off < 0x20 + 1 → (s.hwSet p g b).rd q f = s.rd q f := by
    intro s g b hg; unfold State.hwSet State.wr64
    rw [w _ _ _ (by simp only [Field.setHi]; omega), w _ _ _ (by simp only [Field.setLo]; omega)]
  unfold State.err State.noting State.capture State.raiseFlag State.setFlag
  dsimp only
  repeat' split
  all_goals repeat first
    | rw [st]
    | rw [State.rd_emit]
    | rw [hw _ _ _ (by decide)]
    | rw [w _ _ _ (by decide)]
    | rfl

/-- An error event sets its bit of ERR_STAT (R453). -/
theorem State.stat_err (s : State) (p : Page) (b : Nat) (inj : Bool) (h : b < 32) : bit ((s.err p b inj).rd p page.ERR_STAT) b = true := by
  have w : ∀ (s : State) (g : Field) v, page.ERR_STAT.off * 32 + page.ERR_STAT.lsb ≠ g.off * 32 + g.lsb → (s.wr p g v).rd p page.ERR_STAT = s.rd p page.ERR_STAT :=
    fun s g v hg => State.rd_wr_field _ _ _ _ _ hg
  have st : ∀ s : State, (s.stamp p).rd p page.ERR_STAT = s.rd p page.ERR_STAT := by
    intro s; unfold State.stamp State.setFlag
    split <;> (rw [w _ _ _ (by decide), w _ _ _ (by decide), w _ _ _ (by decide)])
  have cap : ∀ s : State, (s.capture p b inj).rd p page.ERR_STAT = s.rd p page.ERR_STAT := by
    intro s; unfold State.capture State.setFlag
    split
    · exact w _ _ _ (by decide)
    · rw [st, w _ _ _ (by decide), w _ _ _ (by decide), State.rd_raiseFlag_ne] <;> first | decide | (simp only [regKey, page.ERR_STAT, page.FIRST_VALID]; omega)
  have nt : ∀ s : State, bit ((s.noting p (fun x => if bit (s.rd p page.ERR_STAT) b then x else x.wr p page.ERR_STAT (s.rd p page.ERR_STAT + 2 ^ b))).rd p page.ERR_STAT) b = true := by
    intro s
    have base : bit ((if bit (s.rd p page.ERR_STAT) b then s else s.wr p page.ERR_STAT (s.rd p page.ERR_STAT + 2 ^ b)).rd p page.ERR_STAT) b = true := by
      split
      · assumption
      · rename_i hb
        rw [State.rd_wr_self _ _ _ _ (by decide)]
        have hw : page.ERR_STAT.width = 32 := rfl
        rw [hw]
        unfold bit at hb ⊢
        rw [← Nat.testBit_eq_decide_div_mod_eq] at hb ⊢
        rw [Nat.testBit_mod_two_pow, Nat.add_comm, Nat.testBit_two_pow_add_eq]
        simp [h, hb]
    have nr : ∀ f : State → State, (s.noting p f).rd p page.ERR_STAT = (f s).rd p page.ERR_STAT := by
      intro f; unfold State.noting; dsimp only; split <;> rfl
    rw [nr]; exact base
  have fin : ∀ z : State, (if bit (z.rd p page.ERR_MASK) b then z else z.capture p b inj).rd p page.ERR_STAT = z.rd p page.ERR_STAT := by
    intro z; split
    · rfl
    · exact cap z
  unfold State.err
  dsimp only
  rw [fin, ← State.rd_hwSet s p p page.ERR_STAT page.ERR_STAT b rfl rfl (by decide) (by decide) (by decide)]
  exact nt _

/-- A recorded maximum at another place keeps a field. -/
theorem State.rd_raise_ne (s : State) (p q : Page) (f k : Field) (v : Nat) (hn : regKey q k ≠ regKey p f) : (s.raise p f v).rd q k = s.rd q k := by
  unfold State.raise; split
  · exact State.rd_wr_ne _ _ _ _ _ _ hn
  · rfl

end Sys2Proof.Machine
end

