-- ==== Sys2Proof/Laws/Local.lean ====
section
/-! SUPPORT. The commands of a core change that core alone: its record, its crag's bus, and the pages that show it. -/

namespace Sys2Proof.Machine

variable {g : Nat} {p : Page}

theorem State.LocalTo.refl (s : State) : State.LocalTo g s s := ⟨fun _ _ => rfl, fun _ _ => rfl, fun _ _ _ _ _ => rfl, rfl⟩

/-- One more local operation. -/
theorem State.LocalTo.step {a x y : State} (h : State.LocalTo g x y) (h0 : State.LocalTo g a x) : State.LocalTo g a y where
  cores := fun k hk => (h.cores k hk).trans (h0.cores k hk)
  crags := fun k hk => (h.crags k hk).trans (h0.crags k hk)
  regs := fun q f hq ho hl => (h.regs q f hq ho hl).trans (h0.regs q f hq ho hl)
  rest := by
    have e : ({ ({ y with regs := x.regs, cores := x.cores, crags := x.crags, sent := x.sent, fresh := x.fresh } : State) with
        regs := a.regs, cores := a.cores, crags := a.crags, sent := a.sent, fresh := a.fresh } : State) =
        { y with regs := a.regs, cores := a.cores, crags := a.crags, sent := a.sent, fresh := a.fresh } := rfl
    rw [← e, h.rest]; exact h0.rest

/-- A choice between two local operations. -/
theorem State.LocalTo.ite {a x y : State} {c : Prop} [Decidable c] (hx : State.LocalTo g a x) (hy : State.LocalTo g a y) :
    State.LocalTo g a (if c then x else y) := by split <;> assumption

/-- A fold of local operations. -/
theorem State.LocalTo.foldl {α : Type} {a s : State} (f : State → α → State) (l : List α) (h : State.LocalTo g a s)
    (hf : ∀ s x, State.LocalTo g s (f s x)) : State.LocalTo g a (l.foldl f s) := by
  induction l generalizing s with
  | nil => exact h
  | cons x l ih => exact ih ((hf s x).step h)

theorem ownPage_core : ownPage g (.core g) := .inl rfl
theorem ownPage_coreWin : ownPage g (.coreWin (tileOf g)) := .inr (.inl rfl)
theorem ownPage_crag : ownPage g (cragPage (cragOf g)) := .inr (.inr rfl)

theorem State.wr_local (s : State) (p : Page) (f : Field) (v : Nat) (hf : f.off * 32 + f.lsb < 131072) (hp : ownPage g p) :
    State.LocalTo g s (s.wr p f v) where
  cores := fun _ _ => rfl
  crags := fun _ _ => rfl
  regs := fun q f' hq ho hl => State.rd_wr_page s p q f f' v (hq p hp) hf (by omega)
  rest := rfl

theorem State.updCore_local (s : State) (f : Core → Core) : State.LocalTo g s (s.updCore g f) where
  cores := fun k hk => by rw [State.core_updCore]; simp [hk]
  crags := fun _ _ => rfl
  regs := fun _ _ _ _ _ => rfl
  rest := rfl

theorem State.updCrag_local (s : State) (f : Crag → Crag) : State.LocalTo g s (s.updCrag (cragOf g) f) where
  cores := fun _ _ => rfl
  crags := fun k hk => by rw [State.crag_updCrag]; simp [hk]
  regs := fun _ _ _ _ _ => rfl
  rest := rfl

theorem State.emit_local (s : State) (m : Msg) : State.LocalTo g s (s.emit m) :=
  ⟨fun _ _ => rfl, fun _ _ => rfl, fun _ _ _ _ _ => rfl, rfl⟩

theorem State.LocalTo.free_step (s : State) : State.LocalTo g s s.free.2 :=
  ⟨fun _ _ => rfl, fun _ _ => rfl, fun _ _ _ _ _ => rfl, rfl⟩

theorem State.setFlag_local (s : State) (p : Page) (f : Field) (b : Bool) (hf : f.off * 32 + f.lsb < 131072) (hp : ownPage g p) : State.LocalTo g s (s.setFlag p f b) := by
  unfold State.setFlag
  repeat' first
    | with_reducible exact State.LocalTo.refl _
    | (with_reducible apply State.LocalTo.step (State.wr_local _ _ _ _ (by first | assumption | decide) (by first | assumption | exact ownPage_core | exact ownPage_crag | exact ownPage_coreWin)) ?_)
    | (with_reducible apply State.LocalTo.ite ?_ ?_)
    | split
    | (dsimp only; split)

theorem State.inc_local (s : State) (p : Page) (f : Field) (n : Nat) (hf : f.off * 32 + f.lsb < 131072) (hp : ownPage g p) : State.LocalTo g s (s.inc p f n) := by
  unfold State.inc
  repeat' first
    | with_reducible exact State.LocalTo.refl _
    | (with_reducible apply State.LocalTo.step (State.wr_local _ _ _ _ (by first | assumption | decide) (by first | assumption | exact ownPage_core | exact ownPage_crag | exact ownPage_coreWin)) ?_)
    | (with_reducible apply State.LocalTo.ite ?_ ?_)
    | split
    | (dsimp only; split)

theorem State.stamp_local (s : State) (p : Page) (hp : ownPage g p) : State.LocalTo g s (s.stamp p) := by
  unfold State.stamp
  repeat' first
    | with_reducible exact State.LocalTo.refl _
    | (with_reducible apply State.LocalTo.step (State.wr_local _ _ _ _ (by first | assumption | decide) (by first | assumption | exact ownPage_core | exact ownPage_crag | exact ownPage_coreWin)) ?_)
    | (with_reducible apply State.LocalTo.step (State.setFlag_local _ _ _ _ (by first | assumption | decide) (by first | assumption | exact ownPage_core | exact ownPage_crag | exact ownPage_coreWin)) ?_)
    | (with_reducible apply State.LocalTo.ite ?_ ?_)
    | split
    | (dsimp only; split)

theorem State.hwSet_local (s : State) (p : Page) (f : Field) (b : Nat) (hf : f.off < 4094) (hp : ownPage g p) : State.LocalTo g s (s.hwSet p f b) := by
  unfold State.hwSet State.wr64
  have h1 : (f.setLo b).off * 32 + (f.setLo b).lsb < 131072 := by simp only [Field.setLo]; omega
  have h2 : (f.setHi b).off * 32 + (f.setHi b).lsb < 131072 := by simp only [Field.setHi]; omega
  exact State.LocalTo.step (State.wr_local _ _ _ _ h2 hp) (State.LocalTo.step (State.wr_local _ _ _ _ h1 hp) (State.LocalTo.refl _))

theorem State.raiseFlag_local (s : State) (p : Page) (f : Field) (hf : f.off < 4094) (hl : f.lsb < 32) (hp : ownPage g p) : State.LocalTo g s (s.raiseFlag p f) := by
  unfold State.raiseFlag
  exact State.LocalTo.step (State.setFlag_local _ _ _ _ (by omega) hp) (State.LocalTo.step (State.hwSet_local _ _ _ _ hf hp) (State.LocalTo.refl _))

theorem State.capture_local (s : State) (p : Page) (b : Nat) (inj : Bool) (hp : ownPage g p) : State.LocalTo g s (s.capture p b inj) := by
  unfold State.capture
  repeat' first
    | with_reducible exact State.LocalTo.refl _
    | (with_reducible apply State.LocalTo.step (State.raiseFlag_local _ _ _ (by decide) (by decide) (by first | assumption | exact ownPage_core | exact ownPage_crag | exact ownPage_coreWin)) ?_)
    | (with_reducible apply State.LocalTo.step (State.hwSet_local _ _ _ _ (by decide) (by first | assumption | exact ownPage_core | exact ownPage_crag | exact ownPage_coreWin)) ?_)
    | (with_reducible apply State.LocalTo.step (State.wr_local _ _ _ _ (by first | assumption | decide) (by first | assumption | exact ownPage_core | exact ownPage_crag | exact ownPage_coreWin)) ?_)
    | (with_reducible apply State.LocalTo.step (State.setFlag_local _ _ _ _ (by first | assumption | decide) (by first | assumption | exact ownPage_core | exact ownPage_crag | exact ownPage_coreWin)) ?_)
    | (with_reducible apply State.LocalTo.step (State.stamp_local _ _ (by first | assumption | exact ownPage_core | exact ownPage_crag | exact ownPage_coreWin)) ?_)
    | (with_reducible apply State.LocalTo.ite ?_ ?_)
    | split
    | (dsimp only; split)

theorem State.err_local (s : State) (p : Page) (b : Nat) (inj : Bool) (hp : ownPage g p) : State.LocalTo g s (s.err p b inj) := by
  unfold State.err
  unfold State.noting
  dsimp only
  repeat' first
    | with_reducible exact State.LocalTo.refl _
    | (with_reducible apply State.LocalTo.step (State.raiseFlag_local _ _ _ (by decide) (by decide) (by first | assumption | exact ownPage_core | exact ownPage_crag | exact ownPage_coreWin)) ?_)
    | (with_reducible apply State.LocalTo.step (State.hwSet_local _ _ _ _ (by decide) (by first | assumption | exact ownPage_core | exact ownPage_crag | exact ownPage_coreWin)) ?_)
    | (with_reducible apply State.LocalTo.step (State.wr_local _ _ _ _ (by first | assumption | decide) (by first | assumption | exact ownPage_core | exact ownPage_crag | exact ownPage_coreWin)) ?_)
    | (with_reducible apply State.LocalTo.step (State.emit_local ..) ?_)
    | (with_reducible apply State.LocalTo.step (State.capture_local _ _ _ _ (by first | assumption | exact ownPage_core | exact ownPage_crag | exact ownPage_coreWin)) ?_)
    | (with_reducible apply State.LocalTo.ite ?_ ?_)
    | split
    | (dsimp only; split)

theorem State.memWrite_local (s : State) (a : Nat) (bs : List Byte) : State.LocalTo g s (s.memWrite g a bs) := by
  unfold State.memWrite
  repeat' first
    | with_reducible exact State.LocalTo.refl _
    | (with_reducible apply State.LocalTo.step (State.updCore_local ..) ?_)
    | (with_reducible apply State.LocalTo.step (State.updCrag_local ..) ?_)
    | (with_reducible apply State.LocalTo.step (State.setFlag_local _ _ _ _ (by first | assumption | decide) (by first | assumption | exact ownPage_core | exact ownPage_crag | exact ownPage_coreWin)) ?_)
    | (with_reducible apply State.LocalTo.ite ?_ ?_)
    | split
    | (dsimp only; split)

theorem State.stepErr_local (s : State) (code : StepCode) (cmd : Nat) : State.LocalTo g s (s.stepErr g code cmd) := by
  unfold State.stepErr
  repeat' first
    | with_reducible exact State.LocalTo.refl _
    | (with_reducible apply State.LocalTo.step (State.wr_local _ _ _ _ (by first | assumption | decide) (by first | assumption | exact ownPage_core | exact ownPage_crag | exact ownPage_coreWin)) ?_)
    | (with_reducible apply State.LocalTo.step (State.updCore_local ..) ?_)
    | (with_reducible apply State.LocalTo.step (State.inc_local _ _ _ _ (by first | assumption | decide) (by first | assumption | exact ownPage_core | exact ownPage_crag | exact ownPage_coreWin)) ?_)
    | (with_reducible apply State.LocalTo.step (State.err_local _ _ _ _ (by first | assumption | exact ownPage_core | exact ownPage_crag | exact ownPage_coreWin)) ?_)
    | (with_reducible apply State.LocalTo.ite ?_ ?_)
    | split
    | (dsimp only; split)

theorem State.finishAt_local (s : State) (i d : Nat) : State.LocalTo g s (s.finishAt g i d) := by
  unfold State.finishAt
  repeat' first
    | with_reducible exact State.LocalTo.refl _
    | (with_reducible apply State.LocalTo.step (State.updCore_local ..) ?_)
    | (with_reducible apply State.LocalTo.ite ?_ ?_)
    | split
    | (dsimp only; split)

theorem State.issueOpen_local (s : State) (i : Nat) (b w : Bool) (u : Upset) : State.LocalTo g s (s.issueOpen g i b w u) := by
  unfold State.issueOpen
  repeat' first
    | with_reducible exact State.LocalTo.refl _
    | (with_reducible apply State.LocalTo.step (State.updCore_local ..) ?_)
    | (with_reducible apply State.LocalTo.ite ?_ ?_)
    | split
    | (dsimp only; split)

theorem State.fail_local (s : State) (e : CmdEntry) (c : StepCode) : State.LocalTo g s (s.fail g e c) := by
  unfold State.fail
  repeat' first
    | with_reducible exact State.LocalTo.refl _
    | (with_reducible apply State.LocalTo.step (State.stepErr_local ..) ?_)
    | (with_reducible apply State.LocalTo.step (State.issueOpen_local ..) ?_)
    | (with_reducible apply State.LocalTo.ite ?_ ?_)
    | split
    | (dsimp only; split)

theorem State.upset_local (s : State) (i : Nat) (u : Upset) : State.LocalTo g s ((s.upset g i u).1) := by
  cases u <;> dsimp only [State.upset]
  all_goals
    repeat' first
    | with_reducible exact State.LocalTo.refl _
    | (with_reducible apply State.LocalTo.step (State.inc_local _ _ _ _ (by first | assumption | decide) (by first | assumption | exact ownPage_core | exact ownPage_crag | exact ownPage_coreWin)) ?_)
    | (with_reducible apply State.LocalTo.step (State.err_local _ _ _ _ (by first | assumption | exact ownPage_core | exact ownPage_crag | exact ownPage_coreWin)) ?_)
    | (with_reducible apply State.LocalTo.step (State.stepErr_local ..) ?_)
    | (with_reducible apply State.LocalTo.ite ?_ ?_)
    | split
    | (dsimp only; split)

/-- A command that has issued does what its own meaning does. -/
theorem State.issue_local (s : State) (op : Nat) (u : Upset) (run : CmdEntry → State → State)
    (hr : ∀ e s, State.LocalTo g s (run e s)) : State.LocalTo g s (State.issue s g op u run) := by
  unfold State.issue
  split
  · split
    · dsimp only
      split
      · rename_i h
        have hu := congrArg Prod.fst h
        dsimp only at hu
        subst hu
        refine State.LocalTo.step (hr _ _) ?_
        exact (State.upset_local ..).step (State.updCore_local ..)
      · rename_i h
        have hu := congrArg Prod.fst h
        dsimp only at hu
        subst hu
        refine State.LocalTo.step (State.issueOpen_local ..) ?_
        exact (State.upset_local ..).step (State.updCore_local ..)
    · exact State.LocalTo.refl _
  · exact State.LocalTo.refl _

theorem retireWithoutEffect_local (s : State) : State.LocalTo g s (retireWithoutEffect s g) := by
  unfold retireWithoutEffect
  repeat' first
    | with_reducible exact State.LocalTo.refl _
    | (with_reducible apply State.LocalTo.step (State.wr_local _ _ _ _ (by first | assumption | decide) (by first | assumption | exact ownPage_core | exact ownPage_crag | exact ownPage_coreWin)) ?_)
    | (with_reducible apply State.LocalTo.step (State.updCore_local ..) ?_)
    | (with_reducible apply State.LocalTo.ite ?_ ?_)
    | split
    | (dsimp only; split)

theorem commandRetire_local (s : State) : State.LocalTo g s (commandRetire s g) := by
  unfold commandRetire
  repeat' first
    | with_reducible exact State.LocalTo.refl _
    | (with_reducible apply State.LocalTo.step (State.wr_local _ _ _ _ (by first | assumption | decide) (by first | assumption | exact ownPage_core | exact ownPage_crag | exact ownPage_coreWin)) ?_)
    | (with_reducible apply State.LocalTo.step (State.updCore_local ..) ?_)
    | (with_reducible apply State.LocalTo.ite ?_ ?_)
    | split
    | (dsimp only; split)

theorem runFence_local (e : CmdEntry) (s : State) : State.LocalTo g s (runFence g e s) := by
  unfold runFence
  repeat' first
    | with_reducible exact State.LocalTo.refl _
    | (with_reducible apply State.LocalTo.step (State.finishAt_local ..) ?_)
    | (with_reducible apply State.LocalTo.step (State.issueOpen_local ..) ?_)
    | (with_reducible apply State.LocalTo.ite ?_ ?_)
    | split
    | (dsimp only; split)

theorem runNop_local (e : CmdEntry) (s : State) : State.LocalTo g s (runNop g e s) := by
  unfold runNop
  repeat' first
    | with_reducible exact State.LocalTo.refl _
    | (with_reducible apply State.LocalTo.step (State.finishAt_local ..) ?_)
    | (with_reducible apply State.LocalTo.ite ?_ ?_)
    | split
    | (dsimp only; split)

theorem runMark_local (e : CmdEntry) (s : State) : State.LocalTo g s (runMark g e s) := by
  unfold runMark
  repeat' first
    | with_reducible exact State.LocalTo.refl _
    | (with_reducible apply State.LocalTo.step (State.wr_local _ _ _ _ (by first | assumption | decide) (by first | assumption | exact ownPage_core | exact ownPage_crag | exact ownPage_coreWin)) ?_)
    | (with_reducible apply State.LocalTo.step (State.finishAt_local ..) ?_)
    | (with_reducible apply State.LocalTo.ite ?_ ?_)
    | split
    | (dsimp only; split)

theorem runCommit_local (e : CmdEntry) (s : State) : State.LocalTo g s (runCommit g e s) := by
  unfold runCommit
  repeat' first
    | with_reducible exact State.LocalTo.refl _
    | (with_reducible apply State.LocalTo.step (State.updCore_local ..) ?_)
    | (with_reducible apply State.LocalTo.step (State.finishAt_local ..) ?_)
    | (with_reducible apply State.LocalTo.ite ?_ ?_)
    | split
    | (dsimp only; split)

theorem runCommitKv_local (e : CmdEntry) (s : State) : State.LocalTo g s (runCommitKv g e s) := by
  unfold runCommitKv
  repeat' first
    | with_reducible exact State.LocalTo.refl _
    | (with_reducible apply State.LocalTo.step (State.updCore_local ..) ?_)
    | (with_reducible apply State.LocalTo.step (State.finishAt_local ..) ?_)
    | (with_reducible apply State.LocalTo.step (State.fail_local ..) ?_)
    | (with_reducible apply State.LocalTo.ite ?_ ?_)
    | split
    | (dsimp only; split)

theorem startPass_local (s : State) (e : CmdEntry) : State.LocalTo g s (startPass s g e) := by
  unfold startPass
  repeat' first
    | with_reducible exact State.LocalTo.refl _
    | (with_reducible apply State.LocalTo.step (State.updCore_local ..) ?_)
    | (with_reducible apply State.LocalTo.step (State.finishAt_local ..) ?_)
    | (with_reducible apply State.LocalTo.ite ?_ ?_)
    | split
    | (dsimp only; split)

theorem runPass_local (sk : Bool) (e : CmdEntry) (s : State) : State.LocalTo g s (runPass g sk e s) := by
  unfold runPass
  repeat' first
    | with_reducible exact State.LocalTo.refl _
    | (with_reducible apply State.LocalTo.step (State.updCore_local ..) ?_)
    | (with_reducible apply State.LocalTo.step (State.issueOpen_local ..) ?_)
    | (with_reducible apply State.LocalTo.step (State.fail_local ..) ?_)
    | (with_reducible apply State.LocalTo.step (startPass_local ..) ?_)
    | (with_reducible apply State.LocalTo.ite ?_ ?_)
    | split
    | (dsimp only; split)

theorem runDrain_local (e : CmdEntry) (s : State) : State.LocalTo g s (runDrain g e s) := by
  unfold runDrain
  dsimp only
  repeat' first
    | with_reducible exact State.LocalTo.refl _
    | (with_reducible apply State.LocalTo.step (State.updCore_local ..) ?_)
    | (with_reducible apply State.LocalTo.foldl _ _ ?_ (fun s x => ?_))
    | (with_reducible apply State.LocalTo.step (State.memWrite_local ..) ?_)
    | (with_reducible apply State.LocalTo.step (State.finishAt_local ..) ?_)
    | (with_reducible apply State.LocalTo.step (State.fail_local ..) ?_)
    | (with_reducible apply State.LocalTo.ite ?_ ?_)
    | split
    | (dsimp only; split)

theorem State.arrayDone_local (s : State) (e : CmdEntry) (n : Nat) : State.LocalTo g s (s.arrayDone g e n) := by
  unfold State.arrayDone
  repeat' first
    | with_reducible exact State.LocalTo.refl _
    | (with_reducible apply State.LocalTo.step (State.updCore_local ..) ?_)
    | (with_reducible apply State.LocalTo.step (State.finishAt_local ..) ?_)
    | (with_reducible apply State.LocalTo.ite ?_ ?_)
    | split
    | (dsimp only; split)

theorem runAccBase_local (e : CmdEntry) (s : State) : State.LocalTo g s (runAccBase g e s) := by
  unfold runAccBase
  repeat' first
    | with_reducible exact State.LocalTo.refl _
    | (with_reducible apply State.LocalTo.step (State.updCore_local ..) ?_)
    | (with_reducible apply State.LocalTo.step (State.arrayDone_local ..) ?_)
    | (with_reducible apply State.LocalTo.ite ?_ ?_)
    | split
    | (dsimp only; split)

theorem runEdgeCfg_local (e : CmdEntry) (s : State) : State.LocalTo g s (runEdgeCfg g e s) := by
  unfold runEdgeCfg
  repeat' first
    | with_reducible exact State.LocalTo.refl _
    | (with_reducible apply State.LocalTo.step (State.updCore_local ..) ?_)
    | (with_reducible apply State.LocalTo.step (State.arrayDone_local ..) ?_)
    | (with_reducible apply State.LocalTo.ite ?_ ?_)
    | split
    | (dsimp only; split)

theorem runKvSetup_local (e : CmdEntry) (s : State) : State.LocalTo g s (runKvSetup g e s) := by
  unfold runKvSetup
  repeat' first
    | with_reducible exact State.LocalTo.refl _
    | (with_reducible apply State.LocalTo.step (State.updCore_local ..) ?_)
    | (with_reducible apply State.LocalTo.step (State.fail_local ..) ?_)
    | (with_reducible apply State.LocalTo.step (State.arrayDone_local ..) ?_)
    | (with_reducible apply State.LocalTo.ite ?_ ?_)
    | split
    | (dsimp only; split)

theorem runKvSpec_local (e : CmdEntry) (s : State) : State.LocalTo g s (runKvSpec g e s) := by
  unfold runKvSpec
  repeat' first
    | with_reducible exact State.LocalTo.refl _
    | (with_reducible apply State.LocalTo.step (State.updCore_local ..) ?_)
    | (with_reducible apply State.LocalTo.step (State.fail_local ..) ?_)
    | (with_reducible apply State.LocalTo.step (State.arrayDone_local ..) ?_)
    | (with_reducible apply State.LocalTo.ite ?_ ?_)
    | split
    | (dsimp only; split)

theorem runKvMapload_local (e : CmdEntry) (s : State) : State.LocalTo g s (runKvMapload g e s) := by
  unfold runKvMapload
  repeat' first
    | with_reducible exact State.LocalTo.refl _
    | (with_reducible apply State.LocalTo.step (State.updCore_local ..) ?_)
    | (with_reducible apply State.LocalTo.foldl _ _ ?_ (fun s x => ?_))
    | (with_reducible apply State.LocalTo.step (State.fail_local ..) ?_)
    | (with_reducible apply State.LocalTo.step (State.arrayDone_local ..) ?_)
    | (with_reducible apply State.LocalTo.ite ?_ ?_)
    | split
    | (dsimp only; split)

theorem runQload_local (e : CmdEntry) (s : State) : State.LocalTo g s (runQload g e s) := by
  unfold runQload
  repeat' first
    | with_reducible exact State.LocalTo.refl _
    | (with_reducible apply State.LocalTo.step (State.updCore_local ..) ?_)
    | (with_reducible apply State.LocalTo.step (State.finishAt_local ..) ?_)
    | (with_reducible apply State.LocalTo.step (State.fail_local ..) ?_)
    | (with_reducible apply State.LocalTo.ite ?_ ?_)
    | split
    | (dsimp only; split)

theorem startStream_local (s : State) (e : CmdEntry) : State.LocalTo g s (startStream s g e) := by
  unfold startStream
  repeat' first
    | with_reducible exact State.LocalTo.refl _
    | (with_reducible apply State.LocalTo.step (State.updCore_local ..) ?_)
    | (with_reducible apply State.LocalTo.step (State.finishAt_local ..) ?_)
    | (with_reducible apply State.LocalTo.ite ?_ ?_)
    | split
    | (dsimp only; split)

theorem runStream_local (e : CmdEntry) (s : State) : State.LocalTo g s (runStream g e s) := by
  unfold runStream
  repeat' first
    | with_reducible exact State.LocalTo.refl _
    | (with_reducible apply State.LocalTo.step (State.issueOpen_local ..) ?_)
    | (with_reducible apply State.LocalTo.step (State.fail_local ..) ?_)
    | (with_reducible apply State.LocalTo.step (startStream_local ..) ?_)
    | (with_reducible apply State.LocalTo.ite ?_ ?_)
    | split
    | (dsimp only; split)

theorem runFinish_local (e : CmdEntry) (s : State) : State.LocalTo g s (runFinish g e s) := by
  unfold runFinish
  repeat' first
    | with_reducible exact State.LocalTo.refl _
    | (with_reducible apply State.LocalTo.step (State.updCore_local ..) ?_)
    | (with_reducible apply State.LocalTo.step (State.memWrite_local ..) ?_)
    | (with_reducible apply State.LocalTo.step (State.finishAt_local ..) ?_)
    | (with_reducible apply State.LocalTo.step (State.fail_local ..) ?_)
    | (with_reducible apply State.LocalTo.ite ?_ ?_)
    | split
    | (dsimp only; split)

theorem State.wideDone_local (s : State) (e : CmdEntry) (a b : Nat) : State.LocalTo g s (s.wideDone g e a b) := by
  unfold State.wideDone
  repeat' first
    | with_reducible exact State.LocalTo.refl _
    | (with_reducible apply State.LocalTo.step (State.updCore_local ..) ?_)
    | (with_reducible apply State.LocalTo.step (State.finishAt_local ..) ?_)
    | (with_reducible apply State.LocalTo.ite ?_ ?_)
    | split
    | (dsimp only; split)

theorem State.wuRun_local (s : State) (e : CmdEntry) (r : List (Nat × Nat)) (l : Nat) (o : Core → List Byte) : State.LocalTo g s (s.wuRun g e r l o) := by
  unfold State.wuRun
  repeat' first
    | with_reducible exact State.LocalTo.refl _
    | (with_reducible apply State.LocalTo.step (State.memWrite_local ..) ?_)
    | (with_reducible apply State.LocalTo.step (State.fail_local ..) ?_)
    | (with_reducible apply State.LocalTo.step (State.wideDone_local ..) ?_)
    | (with_reducible apply State.LocalTo.ite ?_ ?_)
    | split
    | (dsimp only; split)

theorem runBinary_local (f : F32 → F32 → F32) (l : Nat) (m : WuFmt) (e : CmdEntry) (s : State) : State.LocalTo g s (runBinary f l m g e s) := by
  unfold runBinary
  repeat' first
    | with_reducible exact State.LocalTo.refl _
    | (with_reducible apply State.LocalTo.step (State.wuRun_local ..) ?_)
    | (with_reducible apply State.LocalTo.ite ?_ ?_)
    | split
    | (dsimp only; split)

theorem runUnary_local (f : F32 → F32) (l : Nat) (m : WuFmt) (e : CmdEntry) (s : State) : State.LocalTo g s (runUnary f l m g e s) := by
  unfold runUnary
  repeat' first
    | with_reducible exact State.LocalTo.refl _
    | (with_reducible apply State.LocalTo.step (State.wuRun_local ..) ?_)
    | (with_reducible apply State.LocalTo.ite ?_ ?_)
    | split
    | (dsimp only; split)

theorem runFma_local (m : WuFmt) (e : CmdEntry) (s : State) : State.LocalTo g s (runFma m g e s) := by
  unfold runFma
  repeat' first
    | with_reducible exact State.LocalTo.refl _
    | (with_reducible apply State.LocalTo.step (State.wuRun_local ..) ?_)
    | (with_reducible apply State.LocalTo.ite ?_ ?_)
    | split
    | (dsimp only; split)

theorem runReduce_local (m : WuFmt) (e : CmdEntry) (s : State) : State.LocalTo g s (runReduce m g e s) := by
  unfold runReduce
  repeat' first
    | with_reducible exact State.LocalTo.refl _
    | (with_reducible apply State.LocalTo.step (State.wuRun_local ..) ?_)
    | (with_reducible apply State.LocalTo.ite ?_ ?_)
    | split
    | (dsimp only; split)

theorem runRope_local (m : WuFmt) (h : Bool) (e : CmdEntry) (s : State) : State.LocalTo g s (runRope m h g e s) := by
  unfold runRope
  dsimp only
  repeat' first
    | with_reducible exact State.LocalTo.free_step _
    | with_reducible exact State.LocalTo.refl _
    | (with_reducible apply State.LocalTo.step (State.wuRun_local ..) ?_)
    | (with_reducible apply State.LocalTo.ite ?_ ?_)
    | split
    | (dsimp only; split)

theorem runCvt_local (e : CmdEntry) (s : State) : State.LocalTo g s (runCvt g e s) := by
  unfold runCvt
  repeat' first
    | with_reducible exact State.LocalTo.refl _
    | (with_reducible apply State.LocalTo.step (State.updCore_local ..) ?_)
    | (with_reducible apply State.LocalTo.step (State.memWrite_local ..) ?_)
    | (with_reducible apply State.LocalTo.step (State.fail_local ..) ?_)
    | (with_reducible apply State.LocalTo.step (State.wideDone_local ..) ?_)
    | (with_reducible apply State.LocalTo.ite ?_ ?_)
    | split
    | (dsimp only; split)

theorem runSpdelta_local (x : Nat) (e : CmdEntry) (s : State) : State.LocalTo g s (runSpdelta x g e s) := by
  unfold runSpdelta
  repeat' first
    | with_reducible exact State.LocalTo.refl _
    | (with_reducible apply State.LocalTo.step (State.updCore_local ..) ?_)
    | (with_reducible apply State.LocalTo.step (State.memWrite_local ..) ?_)
    | (with_reducible apply State.LocalTo.step (State.fail_local ..) ?_)
    | (with_reducible apply State.LocalTo.step (State.wideDone_local ..) ?_)
    | (with_reducible apply State.LocalTo.ite ?_ ?_)
    | split
    | (dsimp only; split)

theorem startCopy_local (s : State) (e : CmdEntry) : State.LocalTo g s (startCopy s g e) := by
  unfold startCopy
  repeat' first
    | with_reducible exact State.LocalTo.refl _
    | (with_reducible apply State.LocalTo.step (State.updCore_local ..) ?_)
    | (with_reducible apply State.LocalTo.step (State.memWrite_local ..) ?_)
    | (with_reducible apply State.LocalTo.step (State.wideDone_local ..) ?_)
    | (with_reducible apply State.LocalTo.ite ?_ ?_)
    | split
    | (dsimp only; split)

theorem runCopy_local (e : CmdEntry) (s : State) : State.LocalTo g s (runCopy g e s) := by
  unfold runCopy
  repeat' first
    | with_reducible exact State.LocalTo.refl _
    | (with_reducible apply State.LocalTo.step (State.issueOpen_local ..) ?_)
    | (with_reducible apply State.LocalTo.step (State.fail_local ..) ?_)
    | (with_reducible apply State.LocalTo.step (startCopy_local ..) ?_)
    | (with_reducible apply State.LocalTo.ite ?_ ?_)
    | split
    | (dsimp only; split)

theorem slabReadPortStart_local (s : State) : State.LocalTo g s (slabReadPortStart s g) := by
  unfold slabReadPortStart
  repeat' first
    | with_reducible exact State.LocalTo.refl _
    | (with_reducible apply State.LocalTo.step (startPass_local ..) ?_)
    | (with_reducible apply State.LocalTo.step (startStream_local ..) ?_)
    | (with_reducible apply State.LocalTo.step (startCopy_local ..) ?_)
    | (with_reducible apply State.LocalTo.ite ?_ ?_)
    | split
    | (dsimp only; split)

theorem runWinOpen_local (e : CmdEntry) (s : State) : State.LocalTo g s (runWinOpen g e s) := by
  unfold runWinOpen
  repeat' first
    | with_reducible exact State.LocalTo.refl _
    | (with_reducible apply State.LocalTo.step (State.updCore_local ..) ?_)
    | (with_reducible apply State.LocalTo.step (State.stamp_local _ _ (by first | assumption | exact ownPage_core | exact ownPage_crag | exact ownPage_coreWin)) ?_)
    | (with_reducible apply State.LocalTo.step (State.finishAt_local ..) ?_)
    | (with_reducible apply State.LocalTo.step (State.fail_local ..) ?_)
    | (with_reducible apply State.LocalTo.ite ?_ ?_)
    | split
    | (dsimp only; split)

theorem runWinClose_local (e : CmdEntry) (s : State) : State.LocalTo g s (runWinClose g e s) := by
  unfold runWinClose
  repeat' first
    | with_reducible exact State.LocalTo.refl _
    | (with_reducible apply State.LocalTo.step (State.updCore_local ..) ?_)
    | (with_reducible apply State.LocalTo.step (State.finishAt_local ..) ?_)
    | (with_reducible apply State.LocalTo.step (State.fail_local ..) ?_)
    | (with_reducible apply State.LocalTo.ite ?_ ?_)
    | split
    | (dsimp only; split)

theorem runWinWait_local (e : CmdEntry) (s : State) : State.LocalTo g s (runWinWait g e s) := by
  unfold runWinWait
  repeat' first
    | with_reducible exact State.LocalTo.refl _
    | (with_reducible apply State.LocalTo.step (State.finishAt_local ..) ?_)
    | (with_reducible apply State.LocalTo.step (State.issueOpen_local ..) ?_)
    | (with_reducible apply State.LocalTo.step (State.fail_local ..) ?_)
    | (with_reducible apply State.LocalTo.ite ?_ ?_)
    | split
    | (dsimp only; split)

theorem State.raiseSem_local (s : State) (a b : Nat) : State.LocalTo g s (s.raiseSem g a b) := by
  unfold State.raiseSem
  repeat' first
    | with_reducible exact State.LocalTo.refl _
    | (with_reducible apply State.LocalTo.step (State.updCore_local ..) ?_)
    | (with_reducible apply State.LocalTo.step (State.stepErr_local ..) ?_)
    | (with_reducible apply State.LocalTo.ite ?_ ?_)
    | split
    | (dsimp only; split)

theorem runSemSignal_local (e : CmdEntry) (s : State) : State.LocalTo g s (runSemSignal g e s) := by
  unfold runSemSignal
  repeat' first
    | with_reducible exact State.LocalTo.refl _
    | (with_reducible apply State.LocalTo.step (State.finishAt_local ..) ?_)
    | (with_reducible apply State.LocalTo.step (State.raiseSem_local ..) ?_)
    | (with_reducible apply State.LocalTo.ite ?_ ?_)
    | split
    | (dsimp only; split)

theorem runSemWait_local (e : CmdEntry) (s : State) : State.LocalTo g s (runSemWait g e s) := by
  unfold runSemWait
  repeat' first
    | with_reducible exact State.LocalTo.refl _
    | (with_reducible apply State.LocalTo.step (State.issueOpen_local ..) ?_)
    | (with_reducible apply State.LocalTo.ite ?_ ?_)
    | split
    | (dsimp only; split)

theorem runSend_local (e : CmdEntry) (s : State) : State.LocalTo g s (runSend g e s) := by
  unfold runSend
  repeat' first
    | with_reducible exact State.LocalTo.refl _
    | (with_reducible apply State.LocalTo.step (State.updCore_local ..) ?_)
    | (with_reducible apply State.LocalTo.step (State.issueOpen_local ..) ?_)
    | (with_reducible apply State.LocalTo.step (State.fail_local ..) ?_)
    | (with_reducible apply State.LocalTo.ite ?_ ?_)
    | split
    | (dsimp only; split)

theorem runSendSpine_local (e : CmdEntry) (s : State) : State.LocalTo g s (runSendSpine g e s) := by
  unfold runSendSpine
  repeat' first
    | with_reducible exact State.LocalTo.refl _
    | (with_reducible apply State.LocalTo.step (State.updCore_local ..) ?_)
    | (with_reducible apply State.LocalTo.step (State.issueOpen_local ..) ?_)
    | (with_reducible apply State.LocalTo.step (State.fail_local ..) ?_)
    | (with_reducible apply State.LocalTo.ite ?_ ?_)
    | split
    | (dsimp only; split)

end Sys2Proof.Machine
end

