-- ==== Sys2Proof/Laws/Command.lean ====
section
/-! SUPPORT. A core's command as it is taken, has its effect, and is done: what `State.issue` answers for a command that issues. -/

namespace Sys2Proof.Machine

/-- A command that issues with nothing wrong runs on the core with the cycle's issue place taken. -/
theorem State.issue_takes {s : State} {g op : Nat} {un : Unit4} {e : CmdEntry} (run : CmdEntry → State → State)
    (h : s.Takes g op un e) :
    s.issue g op .none run = run e (s.updCore g (fun c => c.issuedIn (s.cycOf g))) := by
  unfold State.issue
  rw [h.oldest, h.unit]
  dsimp only
  rw [if_pos ⟨h.opcode, h.accepts⟩]
  rfl

/-- Changing a core's record changes that record alone. -/
theorem State.CoreTo.start (s : State) (g : Nat) (f : Core → Core) : s.CoreTo g (f (s.core g)) (s.updCore g f) where
  here := by rw [State.core_updCore, if_pos rfl]
  others := fun k hk => by rw [State.core_updCore, if_neg hk]
  rest := rfl

/-- The record written in another way. -/
theorem State.CoreTo.cast {s t : State} {g : Nat} {c d : Core} (h : s.CoreTo g c t) (e : c = d) : s.CoreTo g d t := e ▸ h

/-- One more change of the same record. -/
theorem State.CoreTo.upd {s t : State} {g : Nat} {c : Core} (h : s.CoreTo g c t) (f : Core → Core) :
    s.CoreTo g (f c) (t.updCore g f) where
  here := by rw [State.core_updCore, if_pos rfl, h.here]
  others := fun k hk => by rw [State.core_updCore, if_neg hk]; exact h.others k hk
  rest := h.rest

/-- The command done at cycle `d`. -/
theorem State.CoreTo.finishAt {s t : State} {g : Nat} {c : Core} (h : s.CoreTo g c t) (i d : Nat) :
    s.CoreTo g (c.doneIn i d) (t.finishAt g i d) :=
  h.upd (fun c => c.doneIn i d)

/-- The command issued and still open. -/
theorem State.CoreTo.issueOpen {s t : State} {g : Nat} {c : Core} (h : s.CoreTo g c t) (i : Nat) (b w : Bool) :
    s.CoreTo g (c.openIn i b w) (t.issueOpen g i b w) :=
  h.upd (fun c => c.openIn i b w)

/-- What depends on the partitions and the registers alone is as before. -/
theorem State.CoreTo.eqv {α : Type} {s t : State} {g : Nat} {c : Core} (h : s.CoreTo g c t) (f : State → α)
    (hf : ∀ (x : State) (y : Table Core), f { x with cores := y } = f x) : f t = f s := by
  rw [← hf t s.cores, h.rest]

/-- The schedule cycle is as before. -/
theorem State.CoreTo.cycOf {s t : State} {g : Nat} {c : Core} (h : s.CoreTo g c t) (k : Nat) : t.cycOf k = s.cycOf k :=
  h.eqv (fun x => x.cycOf k) (fun _ _ => rfl)

/-- A write that stays out of the slab changes the core's record alone. -/
theorem State.CoreTo.memWrite {s t : State} {g : Nat} {c : Core} (h : s.CoreTo g c t) (a : Nat) (bs : List Byte)
    (ha : areaOf a ≠ .slabArea) : s.CoreTo g (c.write a bs) (t.memWrite g a bs) := by
  unfold State.memWrite
  rw [if_neg (fun x => ha x.1)]
  exact h.upd (fun c => c.write a bs)

/-- A wide-unit command done: the unit is busy for `busy` cycles and the result stands `lat` later. -/
theorem State.CoreTo.wideDone {s t : State} {g : Nat} {c : Core} (h : s.CoreTo g c t) (e : CmdEntry) (busy lat : Nat) :
    s.CoreTo g (({ c with wideFree := s.cycOf g + busy } : Core).doneIn e.idx (s.cycOf g + busy + lat)) (t.wideDone g e busy lat) := by
  unfold State.wideDone
  rw [h.cycOf]
  exact (h.upd (fun c => { c with wideFree := s.cycOf g + busy })).finishAt ..

/-- An array-unit command done after `n` cycles. -/
theorem State.CoreTo.arrayDone {s t : State} {g : Nat} {c : Core} (h : s.CoreTo g c t) (e : CmdEntry) (n : Nat) :
    s.CoreTo g (({ c with arrayFree := s.cycOf g + n } : Core).doneIn e.idx (s.cycOf g + n)) (t.arrayDone g e n) := by
  unfold State.arrayDone
  rw [h.cycOf]
  exact (h.upd (fun c => { c with arrayFree := s.cycOf g + n })).finishAt ..

/-- A range of the local store starts in the local store. -/
theorem areaOf_of_rangeOk {ok : List Area} {a n : Nat} (h : rangeOk ok a n = true) : ok.contains (areaOf a) = true := by
  unfold rangeOk at h
  exact (Bool.and_eq_true _ _ ▸ h).1

theorem areaOf_local {a n : Nat} (h : rangeOk [.localStore] a n = true) : areaOf a ≠ .slabArea := by
  have h := areaOf_of_rangeOk h
  intro e
  rw [e] at h
  exact absurd h (by decide)

end Sys2Proof.Machine
end

