-- ==== Sys2Proof/Laws/Frame.lean ====
section
/-! SUPPORT. Frames: which fields of the state an operation may change, with the three rules that hold of all of them: the queue of
commands stays, fuses only burn, and every table keeps its canonical form. -/

namespace Sys2Proof.Machine

theorem Fuses.Burnt.refl (f : Fuses) : Fuses.Burnt f f :=
  ⟨rfl, rfl, rfl, rfl, rfl, rfl, rfl, rfl, rfl, fun _ h => h, fun _ => Nat.le_refl _⟩

theorem Fuses.Burnt.trans {f g h : Fuses} (a : Fuses.Burnt f g) (b : Fuses.Burnt g h) : Fuses.Burnt f h :=
  ⟨b.1.trans a.1, b.2.trans a.2, b.3.trans a.3, b.4.trans a.4, b.5.trans a.5, b.6.trans a.6, b.7.trans a.7, b.8.trans a.8,
    b.9.trans a.9, fun i h => b.10 i (a.10 i h), fun i => Nat.le_trans (a.11 i) (b.11 i)⟩

/-! ### The fields, as bits of a mask -/

/-- The field `regs`. -/
def fp.regs : Nat := 1
/-- The field `clock`. -/
def fp.clock : Nat := 2
/-- The field `cores`. -/
def fp.cores : Nat := 4
/-- The field `routers`. -/
def fp.routers : Nat := 8
/-- The field `links`. -/
def fp.links : Nat := 16
/-- The field `tiles`. -/
def fp.tiles : Nat := 32
/-- The field `crags`. -/
def fp.crags : Nat := 64
/-- The field `saddles`. -/
def fp.saddles : Nat := 128
/-- The field `sites`. -/
def fp.sites : Nat := 256
/-- The field `parts`. -/
def fp.parts : Nat := 512
/-- The field `reqs`. -/
def fp.reqs : Nat := 1024
/-- The field `rmbs`. -/
def fp.rmbs : Nat := 2048
/-- The field `sps`. -/
def fp.sps : Nat := 4096
/-- The field `ports`. -/
def fp.ports : Nat := 8192
/-- The field `writes`. -/
def fp.writes : Nat := 16384
/-- The field `reads`. -/
def fp.reads : Nat := 32768
/-- The field `ctls`. -/
def fp.ctls : Nat := 65536
/-- The field `ssbs`. -/
def fp.ssbs : Nat := 131072
/-- The field `nor`. -/
def fp.nor : Nat := 262144
/-- The field `fuses`. -/
def fp.fuses : Nat := 524288
/-- The field `tally`. -/
def fp.tally : Nat := 1048576
/-- The field `faultMap`. -/
def fp.faultMap : Nat := 2097152
/-- The field `faultGen`. -/
def fp.faultGen : Nat := 4194304
/-- The field `faultLog`. -/
def fp.faultLog : Nat := 8388608
/-- The field `faultSeq`. -/
def fp.faultSeq : Nat := 16777216
/-- The field `order`. -/
def fp.order : Nat := 33554432
/-- The field `ms`. -/
def fp.ms : Nat := 67108864
/-- The field `sent`. -/
def fp.sent : Nat := 134217728
/-- The field `fresh`. -/
def fp.fresh : Nat := 268435456

/-- Every field of mask `a` is one of mask `b`. -/
def fpSub (a b : Nat) : Bool := Nat.lor a b = b

theorem fpSub_bit {a b : Nat} (h : fpSub a b = true) {i : Nat} (hb : b.testBit i = false) : a.testBit i = false := by
  unfold fpSub at h
  have h : a ||| b = b := of_decide_eq_true h
  rw [← h, Nat.testBit_or] at hb
  simp only [Bool.or_eq_false_iff] at hb
  exact hb.1

theorem fpSub_trans {a b c : Nat} (h : fpSub a b = true) (h' : fpSub b c = true) : fpSub a c = true := by
  unfold fpSub at *
  have h : a ||| b = b := of_decide_eq_true h
  have h' : b ||| c = c := of_decide_eq_true h'
  refine decide_eq_true ?_
  show a ||| c = c
  rw [← h', ← Nat.or_assoc, h]

/-- `t` is `s` but for the fields of mask `k`; the queue stays, fuses only burn, and tables stay canonical. -/
structure Frame (k : Nat) (s t : State) : Prop where
  pending : t.pending = s.pending
  burnt : Fuses.Burnt s.fuses t.fuses
  canon : s.Canon → t.Canon
  regs : k.testBit 0 = false → t.regs = s.regs
  clock : k.testBit 1 = false → t.clock = s.clock
  cores : k.testBit 2 = false → t.cores = s.cores
  routers : k.testBit 3 = false → t.routers = s.routers
  links : k.testBit 4 = false → t.links = s.links
  tiles : k.testBit 5 = false → t.tiles = s.tiles
  crags : k.testBit 6 = false → t.crags = s.crags
  saddles : k.testBit 7 = false → t.saddles = s.saddles
  sites : k.testBit 8 = false → t.sites = s.sites
  parts : k.testBit 9 = false → t.parts = s.parts
  reqs : k.testBit 10 = false → t.reqs = s.reqs
  rmbs : k.testBit 11 = false → t.rmbs = s.rmbs
  sps : k.testBit 12 = false → t.sps = s.sps
  ports : k.testBit 13 = false → t.ports = s.ports
  writes : k.testBit 14 = false → t.writes = s.writes
  reads : k.testBit 15 = false → t.reads = s.reads
  ctls : k.testBit 16 = false → t.ctls = s.ctls
  ssbs : k.testBit 17 = false → t.ssbs = s.ssbs
  nor : k.testBit 18 = false → t.nor = s.nor
  fuses : k.testBit 19 = false → t.fuses = s.fuses
  tally : k.testBit 20 = false → t.tally = s.tally
  faultMap : k.testBit 21 = false → t.faultMap = s.faultMap
  faultGen : k.testBit 22 = false → t.faultGen = s.faultGen
  faultLog : k.testBit 23 = false → t.faultLog = s.faultLog
  faultSeq : k.testBit 24 = false → t.faultSeq = s.faultSeq
  order : k.testBit 25 = false → t.order = s.order
  ms : k.testBit 26 = false → t.ms = s.ms
  sent : k.testBit 27 = false → t.sent = s.sent
  fresh : k.testBit 28 = false → t.fresh = s.fresh

theorem Frame.refl (k : Nat) (s : State) : Frame k s s :=
  ⟨rfl, Fuses.Burnt.refl _, id, fun _ => rfl, fun _ => rfl, fun _ => rfl, fun _ => rfl, fun _ => rfl, fun _ => rfl, fun _ => rfl, fun _ => rfl, fun _ => rfl, fun _ => rfl, fun _ => rfl, fun _ => rfl, fun _ => rfl, fun _ => rfl, fun _ => rfl, fun _ => rfl, fun _ => rfl, fun _ => rfl, fun _ => rfl, fun _ => rfl, fun _ => rfl, fun _ => rfl, fun _ => rfl, fun _ => rfl, fun _ => rfl, fun _ => rfl, fun _ => rfl, fun _ => rfl, fun _ => rfl⟩

/-- One more operation of a frame that lies within the frame. -/
theorem Frame.step {k f : Nat} {a x y : State} (h : Frame f x y) (hk : fpSub f k = true) (h0 : Frame k a x) : Frame k a y where
  pending := h.pending.trans h0.pending
  burnt := h0.burnt.trans h.burnt
  canon := fun c => h.canon (h0.canon c)
  regs := fun hb => (h.regs (fpSub_bit hk hb)).trans (h0.regs hb)
  clock := fun hb => (h.clock (fpSub_bit hk hb)).trans (h0.clock hb)
  cores := fun hb => (h.cores (fpSub_bit hk hb)).trans (h0.cores hb)
  routers := fun hb => (h.routers (fpSub_bit hk hb)).trans (h0.routers hb)
  links := fun hb => (h.links (fpSub_bit hk hb)).trans (h0.links hb)
  tiles := fun hb => (h.tiles (fpSub_bit hk hb)).trans (h0.tiles hb)
  crags := fun hb => (h.crags (fpSub_bit hk hb)).trans (h0.crags hb)
  saddles := fun hb => (h.saddles (fpSub_bit hk hb)).trans (h0.saddles hb)
  sites := fun hb => (h.sites (fpSub_bit hk hb)).trans (h0.sites hb)
  parts := fun hb => (h.parts (fpSub_bit hk hb)).trans (h0.parts hb)
  reqs := fun hb => (h.reqs (fpSub_bit hk hb)).trans (h0.reqs hb)
  rmbs := fun hb => (h.rmbs (fpSub_bit hk hb)).trans (h0.rmbs hb)
  sps := fun hb => (h.sps (fpSub_bit hk hb)).trans (h0.sps hb)
  ports := fun hb => (h.ports (fpSub_bit hk hb)).trans (h0.ports hb)
  writes := fun hb => (h.writes (fpSub_bit hk hb)).trans (h0.writes hb)
  reads := fun hb => (h.reads (fpSub_bit hk hb)).trans (h0.reads hb)
  ctls := fun hb => (h.ctls (fpSub_bit hk hb)).trans (h0.ctls hb)
  ssbs := fun hb => (h.ssbs (fpSub_bit hk hb)).trans (h0.ssbs hb)
  nor := fun hb => (h.nor (fpSub_bit hk hb)).trans (h0.nor hb)
  fuses := fun hb => (h.fuses (fpSub_bit hk hb)).trans (h0.fuses hb)
  tally := fun hb => (h.tally (fpSub_bit hk hb)).trans (h0.tally hb)
  faultMap := fun hb => (h.faultMap (fpSub_bit hk hb)).trans (h0.faultMap hb)
  faultGen := fun hb => (h.faultGen (fpSub_bit hk hb)).trans (h0.faultGen hb)
  faultLog := fun hb => (h.faultLog (fpSub_bit hk hb)).trans (h0.faultLog hb)
  faultSeq := fun hb => (h.faultSeq (fpSub_bit hk hb)).trans (h0.faultSeq hb)
  order := fun hb => (h.order (fpSub_bit hk hb)).trans (h0.order hb)
  ms := fun hb => (h.ms (fpSub_bit hk hb)).trans (h0.ms hb)
  sent := fun hb => (h.sent (fpSub_bit hk hb)).trans (h0.sent hb)
  fresh := fun hb => (h.fresh (fpSub_bit hk hb)).trans (h0.fresh hb)

theorem Frame.ite {k : Nat} {a x y : State} {c : Prop} [Decidable c] (hx : Frame k a x) (hy : Frame k a y) :
    Frame k a (if c then x else y) := by
  split <;> assumption

theorem Frame.foldl {α : Type} {k : Nat} {a s : State} (f : State → α → State) (l : List α) (h : Frame k a s)
    (hf : ∀ s x, Frame k s (f s x)) : Frame k a (l.foldl f s) := by
  induction l generalizing s with
  | nil => exact h
  | cons x l ih => exact ih (Frame.step (hf s x) (by simp [fpSub, Nat.or_self]) h)

theorem Frame.foldlFst {α β : Type} {k : Nat} {a : State} (f : State × β → α → State × β) (l : List α) (x : State × β) (h : Frame k a x.1)
    (hf : ∀ x e, Frame k x.1 (f x e).1) : Frame k a (l.foldl f x).1 := by
  induction l generalizing x with
  | nil => exact h
  | cons e l ih => exact ih _ (Frame.step (hf x e) (by simp [fpSub, Nat.or_self]) h)

theorem wf_foldl_set (l : List (Nat × Nat × Nat)) (m : Table Nat) (h : Table.wf 0 m = true) :
    Table.wf 0 (l.foldl (fun m e => Table.set 0 m (mapKey e.1 e.2.1) e.2.2) m) = true := by
  induction l generalizing m with
  | nil => exact h
  | cons e l ih => exact ih _ (Table.wf_set 0 _ _ h)

/-! ### The primitive updates -/

theorem State.wr_frame (s : State) (p : Page) (f : Field) (v : Nat) : Frame (fp.regs) s (s.wr p f v) where
  pending := rfl
  burnt := Fuses.Burnt.refl _
  canon := fun c => ⟨Table.wf_set _ _ _ c.regs, c.cores, c.mems, c.routers, c.tiles, c.crags, c.saddles, c.sites, c.parts, c.reqs, c.rmbs, c.ports, c.ctls, c.ssbs, c.faultMap⟩
  regs := fun h => absurd h (by decide)
  clock := fun _ => rfl
  cores := fun _ => rfl
  routers := fun _ => rfl
  links := fun _ => rfl
  tiles := fun _ => rfl
  crags := fun _ => rfl
  saddles := fun _ => rfl
  sites := fun _ => rfl
  parts := fun _ => rfl
  reqs := fun _ => rfl
  rmbs := fun _ => rfl
  sps := fun _ => rfl
  ports := fun _ => rfl
  writes := fun _ => rfl
  reads := fun _ => rfl
  ctls := fun _ => rfl
  ssbs := fun _ => rfl
  nor := fun _ => rfl
  fuses := fun _ => rfl
  tally := fun _ => rfl
  faultMap := fun _ => rfl
  faultGen := fun _ => rfl
  faultLog := fun _ => rfl
  faultSeq := fun _ => rfl
  order := fun _ => rfl
  ms := fun _ => rfl
  sent := fun _ => rfl
  fresh := fun _ => rfl

theorem State.updRouter_frame (s : State) (g : Nat) (f : Router → Router) : Frame (fp.routers) s (s.updRouter g f) where
  pending := rfl
  burnt := Fuses.Burnt.refl _
  canon := fun c => ⟨c.regs, c.cores, c.mems, Table.wf_upd _ _ _ c.routers, c.tiles, c.crags, c.saddles, c.sites, c.parts, c.reqs, c.rmbs, c.ports, c.ctls, c.ssbs, c.faultMap⟩
  regs := fun _ => rfl
  clock := fun _ => rfl
  cores := fun _ => rfl
  routers := fun h => absurd h (by decide)
  links := fun _ => rfl
  tiles := fun _ => rfl
  crags := fun _ => rfl
  saddles := fun _ => rfl
  sites := fun _ => rfl
  parts := fun _ => rfl
  reqs := fun _ => rfl
  rmbs := fun _ => rfl
  sps := fun _ => rfl
  ports := fun _ => rfl
  writes := fun _ => rfl
  reads := fun _ => rfl
  ctls := fun _ => rfl
  ssbs := fun _ => rfl
  nor := fun _ => rfl
  fuses := fun _ => rfl
  tally := fun _ => rfl
  faultMap := fun _ => rfl
  faultGen := fun _ => rfl
  faultLog := fun _ => rfl
  faultSeq := fun _ => rfl
  order := fun _ => rfl
  ms := fun _ => rfl
  sent := fun _ => rfl
  fresh := fun _ => rfl

theorem State.updTile_frame (s : State) (t : Nat) (f : Tile → Tile) : Frame (fp.tiles) s (s.updTile t f) where
  pending := rfl
  burnt := Fuses.Burnt.refl _
  canon := fun c => ⟨c.regs, c.cores, c.mems, c.routers, Table.wf_upd _ _ _ c.tiles, c.crags, c.saddles, c.sites, c.parts, c.reqs, c.rmbs, c.ports, c.ctls, c.ssbs, c.faultMap⟩
  regs := fun _ => rfl
  clock := fun _ => rfl
  cores := fun _ => rfl
  routers := fun _ => rfl
  links := fun _ => rfl
  tiles := fun h => absurd h (by decide)
  crags := fun _ => rfl
  saddles := fun _ => rfl
  sites := fun _ => rfl
  parts := fun _ => rfl
  reqs := fun _ => rfl
  rmbs := fun _ => rfl
  sps := fun _ => rfl
  ports := fun _ => rfl
  writes := fun _ => rfl
  reads := fun _ => rfl
  ctls := fun _ => rfl
  ssbs := fun _ => rfl
  nor := fun _ => rfl
  fuses := fun _ => rfl
  tally := fun _ => rfl
  faultMap := fun _ => rfl
  faultGen := fun _ => rfl
  faultLog := fun _ => rfl
  faultSeq := fun _ => rfl
  order := fun _ => rfl
  ms := fun _ => rfl
  sent := fun _ => rfl
  fresh := fun _ => rfl

theorem State.updCrag_frame (s : State) (y : Nat) (f : Crag → Crag) : Frame (fp.crags) s (s.updCrag y f) where
  pending := rfl
  burnt := Fuses.Burnt.refl _
  canon := fun c => ⟨c.regs, c.cores, c.mems, c.routers, c.tiles, Table.wf_upd _ _ _ c.crags, c.saddles, c.sites, c.parts, c.reqs, c.rmbs, c.ports, c.ctls, c.ssbs, c.faultMap⟩
  regs := fun _ => rfl
  clock := fun _ => rfl
  cores := fun _ => rfl
  routers := fun _ => rfl
  links := fun _ => rfl
  tiles := fun _ => rfl
  crags := fun h => absurd h (by decide)
  saddles := fun _ => rfl
  sites := fun _ => rfl
  parts := fun _ => rfl
  reqs := fun _ => rfl
  rmbs := fun _ => rfl
  sps := fun _ => rfl
  ports := fun _ => rfl
  writes := fun _ => rfl
  reads := fun _ => rfl
  ctls := fun _ => rfl
  ssbs := fun _ => rfl
  nor := fun _ => rfl
  fuses := fun _ => rfl
  tally := fun _ => rfl
  faultMap := fun _ => rfl
  faultGen := fun _ => rfl
  faultLog := fun _ => rfl
  faultSeq := fun _ => rfl
  order := fun _ => rfl
  ms := fun _ => rfl
  sent := fun _ => rfl
  fresh := fun _ => rfl

theorem State.updSaddle_frame (s : State) (k : Nat) (f : Saddle → Saddle) : Frame (fp.saddles) s (s.updSaddle k f) where
  pending := rfl
  burnt := Fuses.Burnt.refl _
  canon := fun c => ⟨c.regs, c.cores, c.mems, c.routers, c.tiles, c.crags, Table.wf_upd _ _ _ c.saddles, c.sites, c.parts, c.reqs, c.rmbs, c.ports, c.ctls, c.ssbs, c.faultMap⟩
  regs := fun _ => rfl
  clock := fun _ => rfl
  cores := fun _ => rfl
  routers := fun _ => rfl
  links := fun _ => rfl
  tiles := fun _ => rfl
  crags := fun _ => rfl
  saddles := fun h => absurd h (by decide)
  sites := fun _ => rfl
  parts := fun _ => rfl
  reqs := fun _ => rfl
  rmbs := fun _ => rfl
  sps := fun _ => rfl
  ports := fun _ => rfl
  writes := fun _ => rfl
  reads := fun _ => rfl
  ctls := fun _ => rfl
  ssbs := fun _ => rfl
  nor := fun _ => rfl
  fuses := fun _ => rfl
  tally := fun _ => rfl
  faultMap := fun _ => rfl
  faultGen := fun _ => rfl
  faultLog := fun _ => rfl
  faultSeq := fun _ => rfl
  order := fun _ => rfl
  ms := fun _ => rfl
  sent := fun _ => rfl
  fresh := fun _ => rfl

theorem State.updSite_frame (s : State) (m : Nat) (f : Site → Site) : Frame (fp.sites) s (s.updSite m f) where
  pending := rfl
  burnt := Fuses.Burnt.refl _
  canon := fun c => ⟨c.regs, c.cores, c.mems, c.routers, c.tiles, c.crags, c.saddles, Table.wf_upd _ _ _ c.sites, c.parts, c.reqs, c.rmbs, c.ports, c.ctls, c.ssbs, c.faultMap⟩
  regs := fun _ => rfl
  clock := fun _ => rfl
  cores := fun _ => rfl
  routers := fun _ => rfl
  links := fun _ => rfl
  tiles := fun _ => rfl
  crags := fun _ => rfl
  saddles := fun _ => rfl
  sites := fun h => absurd h (by decide)
  parts := fun _ => rfl
  reqs := fun _ => rfl
  rmbs := fun _ => rfl
  sps := fun _ => rfl
  ports := fun _ => rfl
  writes := fun _ => rfl
  reads := fun _ => rfl
  ctls := fun _ => rfl
  ssbs := fun _ => rfl
  nor := fun _ => rfl
  fuses := fun _ => rfl
  tally := fun _ => rfl
  faultMap := fun _ => rfl
  faultGen := fun _ => rfl
  faultLog := fun _ => rfl
  faultSeq := fun _ => rfl
  order := fun _ => rfl
  ms := fun _ => rfl
  sent := fun _ => rfl
  fresh := fun _ => rfl

theorem State.updPart_frame (s : State) (p : Nat) (f : Part → Part) : Frame (fp.parts) s (s.updPart p f) where
  pending := rfl
  burnt := Fuses.Burnt.refl _
  canon := fun c => ⟨c.regs, c.cores, c.mems, c.routers, c.tiles, c.crags, c.saddles, c.sites, Table.wf_upd _ _ _ c.parts, c.reqs, c.rmbs, c.ports, c.ctls, c.ssbs, c.faultMap⟩
  regs := fun _ => rfl
  clock := fun _ => rfl
  cores := fun _ => rfl
  routers := fun _ => rfl
  links := fun _ => rfl
  tiles := fun _ => rfl
  crags := fun _ => rfl
  saddles := fun _ => rfl
  sites := fun _ => rfl
  parts := fun h => absurd h (by decide)
  reqs := fun _ => rfl
  rmbs := fun _ => rfl
  sps := fun _ => rfl
  ports := fun _ => rfl
  writes := fun _ => rfl
  reads := fun _ => rfl
  ctls := fun _ => rfl
  ssbs := fun _ => rfl
  nor := fun _ => rfl
  fuses := fun _ => rfl
  tally := fun _ => rfl
  faultMap := fun _ => rfl
  faultGen := fun _ => rfl
  faultLog := fun _ => rfl
  faultSeq := fun _ => rfl
  order := fun _ => rfl
  ms := fun _ => rfl
  sent := fun _ => rfl
  fresh := fun _ => rfl

theorem State.updReq_frame (s : State) (h : Nat) (f : Request → Request) : Frame (fp.reqs) s (s.updReq h f) where
  pending := rfl
  burnt := Fuses.Burnt.refl _
  canon := fun c => ⟨c.regs, c.cores, c.mems, c.routers, c.tiles, c.crags, c.saddles, c.sites, c.parts, Table.wf_upd _ _ _ c.reqs, c.rmbs, c.ports, c.ctls, c.ssbs, c.faultMap⟩
  regs := fun _ => rfl
  clock := fun _ => rfl
  cores := fun _ => rfl
  routers := fun _ => rfl
  links := fun _ => rfl
  tiles := fun _ => rfl
  crags := fun _ => rfl
  saddles := fun _ => rfl
  sites := fun _ => rfl
  parts := fun _ => rfl
  reqs := fun h => absurd h (by decide)
  rmbs := fun _ => rfl
  sps := fun _ => rfl
  ports := fun _ => rfl
  writes := fun _ => rfl
  reads := fun _ => rfl
  ctls := fun _ => rfl
  ssbs := fun _ => rfl
  nor := fun _ => rfl
  fuses := fun _ => rfl
  tally := fun _ => rfl
  faultMap := fun _ => rfl
  faultGen := fun _ => rfl
  faultLog := fun _ => rfl
  faultSeq := fun _ => rfl
  order := fun _ => rfl
  ms := fun _ => rfl
  sent := fun _ => rfl
  fresh := fun _ => rfl

theorem State.updPort_frame (s : State) (n : Nat) (f : Port → Port) : Frame (fp.ports) s (s.updPort n f) where
  pending := rfl
  burnt := Fuses.Burnt.refl _
  canon := fun c => ⟨c.regs, c.cores, c.mems, c.routers, c.tiles, c.crags, c.saddles, c.sites, c.parts, c.reqs, c.rmbs, Table.wf_upd _ _ _ c.ports, c.ctls, c.ssbs, c.faultMap⟩
  regs := fun _ => rfl
  clock := fun _ => rfl
  cores := fun _ => rfl
  routers := fun _ => rfl
  links := fun _ => rfl
  tiles := fun _ => rfl
  crags := fun _ => rfl
  saddles := fun _ => rfl
  sites := fun _ => rfl
  parts := fun _ => rfl
  reqs := fun _ => rfl
  rmbs := fun _ => rfl
  sps := fun _ => rfl
  ports := fun h => absurd h (by decide)
  writes := fun _ => rfl
  reads := fun _ => rfl
  ctls := fun _ => rfl
  ssbs := fun _ => rfl
  nor := fun _ => rfl
  fuses := fun _ => rfl
  tally := fun _ => rfl
  faultMap := fun _ => rfl
  faultGen := fun _ => rfl
  faultLog := fun _ => rfl
  faultSeq := fun _ => rfl
  order := fun _ => rfl
  ms := fun _ => rfl
  sent := fun _ => rfl
  fresh := fun _ => rfl

theorem State.updCtl_frame (s : State) (c : Nat) (f : Ctl → Ctl) : Frame (fp.ctls) s (s.updCtl c f) where
  pending := rfl
  burnt := Fuses.Burnt.refl _
  canon := fun c => ⟨c.regs, c.cores, c.mems, c.routers, c.tiles, c.crags, c.saddles, c.sites, c.parts, c.reqs, c.rmbs, c.ports, Table.wf_upd _ _ _ c.ctls, c.ssbs, c.faultMap⟩
  regs := fun _ => rfl
  clock := fun _ => rfl
  cores := fun _ => rfl
  routers := fun _ => rfl
  links := fun _ => rfl
  tiles := fun _ => rfl
  crags := fun _ => rfl
  saddles := fun _ => rfl
  sites := fun _ => rfl
  parts := fun _ => rfl
  reqs := fun _ => rfl
  rmbs := fun _ => rfl
  sps := fun _ => rfl
  ports := fun _ => rfl
  writes := fun _ => rfl
  reads := fun _ => rfl
  ctls := fun h => absurd h (by decide)
  ssbs := fun _ => rfl
  nor := fun _ => rfl
  fuses := fun _ => rfl
  tally := fun _ => rfl
  faultMap := fun _ => rfl
  faultGen := fun _ => rfl
  faultLog := fun _ => rfl
  faultSeq := fun _ => rfl
  order := fun _ => rfl
  ms := fun _ => rfl
  sent := fun _ => rfl
  fresh := fun _ => rfl

theorem State.updSsb_frame (s : State) (c : Nat) (f : Ssb → Ssb) : Frame (fp.ssbs) s (s.updSsb c f) where
  pending := rfl
  burnt := Fuses.Burnt.refl _
  canon := fun c => ⟨c.regs, c.cores, c.mems, c.routers, c.tiles, c.crags, c.saddles, c.sites, c.parts, c.reqs, c.rmbs, c.ports, c.ctls, Table.wf_upd _ _ _ c.ssbs, c.faultMap⟩
  regs := fun _ => rfl
  clock := fun _ => rfl
  cores := fun _ => rfl
  routers := fun _ => rfl
  links := fun _ => rfl
  tiles := fun _ => rfl
  crags := fun _ => rfl
  saddles := fun _ => rfl
  sites := fun _ => rfl
  parts := fun _ => rfl
  reqs := fun _ => rfl
  rmbs := fun _ => rfl
  sps := fun _ => rfl
  ports := fun _ => rfl
  writes := fun _ => rfl
  reads := fun _ => rfl
  ctls := fun _ => rfl
  ssbs := fun h => absurd h (by decide)
  nor := fun _ => rfl
  fuses := fun _ => rfl
  tally := fun _ => rfl
  faultMap := fun _ => rfl
  faultGen := fun _ => rfl
  faultLog := fun _ => rfl
  faultSeq := fun _ => rfl
  order := fun _ => rfl
  ms := fun _ => rfl
  sent := fun _ => rfl
  fresh := fun _ => rfl

theorem State.updRmb_frame (s : State) (pg : Page) (f : Rmb → Rmb) : Frame (fp.rmbs) s (s.updRmb pg f) where
  pending := rfl
  burnt := Fuses.Burnt.refl _
  canon := fun c => ⟨c.regs, c.cores, c.mems, c.routers, c.tiles, c.crags, c.saddles, c.sites, c.parts, c.reqs, Table.wf_upd _ _ _ c.rmbs, c.ports, c.ctls, c.ssbs, c.faultMap⟩
  regs := fun _ => rfl
  clock := fun _ => rfl
  cores := fun _ => rfl
  routers := fun _ => rfl
  links := fun _ => rfl
  tiles := fun _ => rfl
  crags := fun _ => rfl
  saddles := fun _ => rfl
  sites := fun _ => rfl
  parts := fun _ => rfl
  reqs := fun _ => rfl
  rmbs := fun h => absurd h (by decide)
  sps := fun _ => rfl
  ports := fun _ => rfl
  writes := fun _ => rfl
  reads := fun _ => rfl
  ctls := fun _ => rfl
  ssbs := fun _ => rfl
  nor := fun _ => rfl
  fuses := fun _ => rfl
  tally := fun _ => rfl
  faultMap := fun _ => rfl
  faultGen := fun _ => rfl
  faultLog := fun _ => rfl
  faultSeq := fun _ => rfl
  order := fun _ => rfl
  ms := fun _ => rfl
  sent := fun _ => rfl
  fresh := fun _ => rfl

theorem State.updStack_frame (s : State) (k : Nat) (f : Stack → Stack) : Frame (fp.sps) s (s.updStack k f) where
  pending := rfl
  burnt := Fuses.Burnt.refl _
  canon := fun c => ⟨c.regs, c.cores, c.mems, c.routers, c.tiles, c.crags, c.saddles, c.sites, c.parts, c.reqs, c.rmbs, c.ports, c.ctls, c.ssbs, c.faultMap⟩
  regs := fun _ => rfl
  clock := fun _ => rfl
  cores := fun _ => rfl
  routers := fun _ => rfl
  links := fun _ => rfl
  tiles := fun _ => rfl
  crags := fun _ => rfl
  saddles := fun _ => rfl
  sites := fun _ => rfl
  parts := fun _ => rfl
  reqs := fun _ => rfl
  rmbs := fun _ => rfl
  sps := fun h => absurd h (by decide)
  ports := fun _ => rfl
  writes := fun _ => rfl
  reads := fun _ => rfl
  ctls := fun _ => rfl
  ssbs := fun _ => rfl
  nor := fun _ => rfl
  fuses := fun _ => rfl
  tally := fun _ => rfl
  faultMap := fun _ => rfl
  faultGen := fun _ => rfl
  faultLog := fun _ => rfl
  faultSeq := fun _ => rfl
  order := fun _ => rfl
  ms := fun _ => rfl
  sent := fun _ => rfl
  fresh := fun _ => rfl

theorem State.setSps_frame (s : State) (x : Sps) : Frame (fp.sps) s (s.setSps x) where
  pending := rfl
  burnt := Fuses.Burnt.refl _
  canon := fun c => ⟨c.regs, c.cores, c.mems, c.routers, c.tiles, c.crags, c.saddles, c.sites, c.parts, c.reqs, c.rmbs, c.ports, c.ctls, c.ssbs, c.faultMap⟩
  regs := fun _ => rfl
  clock := fun _ => rfl
  cores := fun _ => rfl
  routers := fun _ => rfl
  links := fun _ => rfl
  tiles := fun _ => rfl
  crags := fun _ => rfl
  saddles := fun _ => rfl
  sites := fun _ => rfl
  parts := fun _ => rfl
  reqs := fun _ => rfl
  rmbs := fun _ => rfl
  sps := fun h => absurd h (by decide)
  ports := fun _ => rfl
  writes := fun _ => rfl
  reads := fun _ => rfl
  ctls := fun _ => rfl
  ssbs := fun _ => rfl
  nor := fun _ => rfl
  fuses := fun _ => rfl
  tally := fun _ => rfl
  faultMap := fun _ => rfl
  faultGen := fun _ => rfl
  faultLog := fun _ => rfl
  faultSeq := fun _ => rfl
  order := fun _ => rfl
  ms := fun _ => rfl
  sent := fun _ => rfl
  fresh := fun _ => rfl

theorem State.setWrites_frame (s : State) (l : List Write) : Frame (fp.writes) s (s.setWrites l) where
  pending := rfl
  burnt := Fuses.Burnt.refl _
  canon := fun c => ⟨c.regs, c.cores, c.mems, c.routers, c.tiles, c.crags, c.saddles, c.sites, c.parts, c.reqs, c.rmbs, c.ports, c.ctls, c.ssbs, c.faultMap⟩
  regs := fun _ => rfl
  clock := fun _ => rfl
  cores := fun _ => rfl
  routers := fun _ => rfl
  links := fun _ => rfl
  tiles := fun _ => rfl
  crags := fun _ => rfl
  saddles := fun _ => rfl
  sites := fun _ => rfl
  parts := fun _ => rfl
  reqs := fun _ => rfl
  rmbs := fun _ => rfl
  sps := fun _ => rfl
  ports := fun _ => rfl
  writes := fun h => absurd h (by decide)
  reads := fun _ => rfl
  ctls := fun _ => rfl
  ssbs := fun _ => rfl
  nor := fun _ => rfl
  fuses := fun _ => rfl
  tally := fun _ => rfl
  faultMap := fun _ => rfl
  faultGen := fun _ => rfl
  faultLog := fun _ => rfl
  faultSeq := fun _ => rfl
  order := fun _ => rfl
  ms := fun _ => rfl
  sent := fun _ => rfl
  fresh := fun _ => rfl

theorem State.setReads_frame (s : State) (l : List Read) : Frame (fp.reads) s (s.setReads l) where
  pending := rfl
  burnt := Fuses.Burnt.refl _
  canon := fun c => ⟨c.regs, c.cores, c.mems, c.routers, c.tiles, c.crags, c.saddles, c.sites, c.parts, c.reqs, c.rmbs, c.ports, c.ctls, c.ssbs, c.faultMap⟩
  regs := fun _ => rfl
  clock := fun _ => rfl
  cores := fun _ => rfl
  routers := fun _ => rfl
  links := fun _ => rfl
  tiles := fun _ => rfl
  crags := fun _ => rfl
  saddles := fun _ => rfl
  sites := fun _ => rfl
  parts := fun _ => rfl
  reqs := fun _ => rfl
  rmbs := fun _ => rfl
  sps := fun _ => rfl
  ports := fun _ => rfl
  writes := fun _ => rfl
  reads := fun h => absurd h (by decide)
  ctls := fun _ => rfl
  ssbs := fun _ => rfl
  nor := fun _ => rfl
  fuses := fun _ => rfl
  tally := fun _ => rfl
  faultMap := fun _ => rfl
  faultGen := fun _ => rfl
  faultLog := fun _ => rfl
  faultSeq := fun _ => rfl
  order := fun _ => rfl
  ms := fun _ => rfl
  sent := fun _ => rfl
  fresh := fun _ => rfl

theorem State.setLinks_frame (s : State) (l : List LinkFlit) : Frame (fp.links) s (s.setLinks l) where
  pending := rfl
  burnt := Fuses.Burnt.refl _
  canon := fun c => ⟨c.regs, c.cores, c.mems, c.routers, c.tiles, c.crags, c.saddles, c.sites, c.parts, c.reqs, c.rmbs, c.ports, c.ctls, c.ssbs, c.faultMap⟩
  regs := fun _ => rfl
  clock := fun _ => rfl
  cores := fun _ => rfl
  routers := fun _ => rfl
  links := fun h => absurd h (by decide)
  tiles := fun _ => rfl
  crags := fun _ => rfl
  saddles := fun _ => rfl
  sites := fun _ => rfl
  parts := fun _ => rfl
  reqs := fun _ => rfl
  rmbs := fun _ => rfl
  sps := fun _ => rfl
  ports := fun _ => rfl
  writes := fun _ => rfl
  reads := fun _ => rfl
  ctls := fun _ => rfl
  ssbs := fun _ => rfl
  nor := fun _ => rfl
  fuses := fun _ => rfl
  tally := fun _ => rfl
  faultMap := fun _ => rfl
  faultGen := fun _ => rfl
  faultLog := fun _ => rfl
  faultSeq := fun _ => rfl
  order := fun _ => rfl
  ms := fun _ => rfl
  sent := fun _ => rfl
  fresh := fun _ => rfl

theorem State.nextOrder_frame (s : State)  : Frame (fp.order) s (s.nextOrder) where
  pending := rfl
  burnt := Fuses.Burnt.refl _
  canon := fun c => ⟨c.regs, c.cores, c.mems, c.routers, c.tiles, c.crags, c.saddles, c.sites, c.parts, c.reqs, c.rmbs, c.ports, c.ctls, c.ssbs, c.faultMap⟩
  regs := fun _ => rfl
  clock := fun _ => rfl
  cores := fun _ => rfl
  routers := fun _ => rfl
  links := fun _ => rfl
  tiles := fun _ => rfl
  crags := fun _ => rfl
  saddles := fun _ => rfl
  sites := fun _ => rfl
  parts := fun _ => rfl
  reqs := fun _ => rfl
  rmbs := fun _ => rfl
  sps := fun _ => rfl
  ports := fun _ => rfl
  writes := fun _ => rfl
  reads := fun _ => rfl
  ctls := fun _ => rfl
  ssbs := fun _ => rfl
  nor := fun _ => rfl
  fuses := fun _ => rfl
  tally := fun _ => rfl
  faultMap := fun _ => rfl
  faultGen := fun _ => rfl
  faultLog := fun _ => rfl
  faultSeq := fun _ => rfl
  order := fun h => absurd h (by decide)
  ms := fun _ => rfl
  sent := fun _ => rfl
  fresh := fun _ => rfl

theorem State.countRec_frame (s : State)  : Frame (fp.faultSeq) s (s.countRec) where
  pending := rfl
  burnt := Fuses.Burnt.refl _
  canon := fun c => ⟨c.regs, c.cores, c.mems, c.routers, c.tiles, c.crags, c.saddles, c.sites, c.parts, c.reqs, c.rmbs, c.ports, c.ctls, c.ssbs, c.faultMap⟩
  regs := fun _ => rfl
  clock := fun _ => rfl
  cores := fun _ => rfl
  routers := fun _ => rfl
  links := fun _ => rfl
  tiles := fun _ => rfl
  crags := fun _ => rfl
  saddles := fun _ => rfl
  sites := fun _ => rfl
  parts := fun _ => rfl
  reqs := fun _ => rfl
  rmbs := fun _ => rfl
  sps := fun _ => rfl
  ports := fun _ => rfl
  writes := fun _ => rfl
  reads := fun _ => rfl
  ctls := fun _ => rfl
  ssbs := fun _ => rfl
  nor := fun _ => rfl
  fuses := fun _ => rfl
  tally := fun _ => rfl
  faultMap := fun _ => rfl
  faultGen := fun _ => rfl
  faultLog := fun _ => rfl
  faultSeq := fun h => absurd h (by decide)
  order := fun _ => rfl
  ms := fun _ => rfl
  sent := fun _ => rfl
  fresh := fun _ => rfl

theorem State.setLog_frame (s : State) (l : List FaultRec) : Frame (fp.faultLog) s (s.setLog l) where
  pending := rfl
  burnt := Fuses.Burnt.refl _
  canon := fun c => ⟨c.regs, c.cores, c.mems, c.routers, c.tiles, c.crags, c.saddles, c.sites, c.parts, c.reqs, c.rmbs, c.ports, c.ctls, c.ssbs, c.faultMap⟩
  regs := fun _ => rfl
  clock := fun _ => rfl
  cores := fun _ => rfl
  routers := fun _ => rfl
  links := fun _ => rfl
  tiles := fun _ => rfl
  crags := fun _ => rfl
  saddles := fun _ => rfl
  sites := fun _ => rfl
  parts := fun _ => rfl
  reqs := fun _ => rfl
  rmbs := fun _ => rfl
  sps := fun _ => rfl
  ports := fun _ => rfl
  writes := fun _ => rfl
  reads := fun _ => rfl
  ctls := fun _ => rfl
  ssbs := fun _ => rfl
  nor := fun _ => rfl
  fuses := fun _ => rfl
  tally := fun _ => rfl
  faultMap := fun _ => rfl
  faultGen := fun _ => rfl
  faultLog := fun h => absurd h (by decide)
  faultSeq := fun _ => rfl
  order := fun _ => rfl
  ms := fun _ => rfl
  sent := fun _ => rfl
  fresh := fun _ => rfl

theorem State.dropReqs_frame (s : State) (p : Nat) : Frame (fp.reqs) s (s.dropReqs p) where
  pending := rfl
  burnt := Fuses.Burnt.refl _
  canon := fun c => ⟨c.regs, c.cores, c.mems, c.routers, c.tiles, c.crags, c.saddles, c.sites, c.parts, Table.wf_filter _ _ c.reqs, c.rmbs, c.ports, c.ctls, c.ssbs, c.faultMap⟩
  regs := fun _ => rfl
  clock := fun _ => rfl
  cores := fun _ => rfl
  routers := fun _ => rfl
  links := fun _ => rfl
  tiles := fun _ => rfl
  crags := fun _ => rfl
  saddles := fun _ => rfl
  sites := fun _ => rfl
  parts := fun _ => rfl
  reqs := fun h => absurd h (by decide)
  rmbs := fun _ => rfl
  sps := fun _ => rfl
  ports := fun _ => rfl
  writes := fun _ => rfl
  reads := fun _ => rfl
  ctls := fun _ => rfl
  ssbs := fun _ => rfl
  nor := fun _ => rfl
  fuses := fun _ => rfl
  tally := fun _ => rfl
  faultMap := fun _ => rfl
  faultGen := fun _ => rfl
  faultLog := fun _ => rfl
  faultSeq := fun _ => rfl
  order := fun _ => rfl
  ms := fun _ => rfl
  sent := fun _ => rfl
  fresh := fun _ => rfl

theorem State.setMap_frame (s : State) (l : List (Nat × Nat × Nat)) : Frame (fp.faultMap+fp.faultGen) s (s.setMap l) where
  pending := rfl
  burnt := Fuses.Burnt.refl _
  canon := fun c => ⟨c.regs, c.cores, c.mems, c.routers, c.tiles, c.crags, c.saddles, c.sites, c.parts, c.reqs, c.rmbs, c.ports, c.ctls, c.ssbs, wf_foldl_set _ _ c.faultMap⟩
  regs := fun _ => rfl
  clock := fun _ => rfl
  cores := fun _ => rfl
  routers := fun _ => rfl
  links := fun _ => rfl
  tiles := fun _ => rfl
  crags := fun _ => rfl
  saddles := fun _ => rfl
  sites := fun _ => rfl
  parts := fun _ => rfl
  reqs := fun _ => rfl
  rmbs := fun _ => rfl
  sps := fun _ => rfl
  ports := fun _ => rfl
  writes := fun _ => rfl
  reads := fun _ => rfl
  ctls := fun _ => rfl
  ssbs := fun _ => rfl
  nor := fun _ => rfl
  fuses := fun _ => rfl
  tally := fun _ => rfl
  faultMap := fun h => absurd h (by decide)
  faultGen := fun h => absurd h (by decide)
  faultLog := fun _ => rfl
  faultSeq := fun _ => rfl
  order := fun _ => rfl
  ms := fun _ => rfl
  sent := fun _ => rfl
  fresh := fun _ => rfl

theorem State.loadRec_frame (s : State) (r : FaultRec) (l : List (Nat × Nat × Nat)) : Frame (fp.faultMap+fp.faultGen+fp.faultSeq) s (s.loadRec r l) where
  pending := rfl
  burnt := Fuses.Burnt.refl _
  canon := fun c => ⟨c.regs, c.cores, c.mems, c.routers, c.tiles, c.crags, c.saddles, c.sites, c.parts, c.reqs, c.rmbs, c.ports, c.ctls, c.ssbs, wf_foldl_set _ _ c.faultMap⟩
  regs := fun _ => rfl
  clock := fun _ => rfl
  cores := fun _ => rfl
  routers := fun _ => rfl
  links := fun _ => rfl
  tiles := fun _ => rfl
  crags := fun _ => rfl
  saddles := fun _ => rfl
  sites := fun _ => rfl
  parts := fun _ => rfl
  reqs := fun _ => rfl
  rmbs := fun _ => rfl
  sps := fun _ => rfl
  ports := fun _ => rfl
  writes := fun _ => rfl
  reads := fun _ => rfl
  ctls := fun _ => rfl
  ssbs := fun _ => rfl
  nor := fun _ => rfl
  fuses := fun _ => rfl
  tally := fun _ => rfl
  faultMap := fun h => absurd h (by decide)
  faultGen := fun h => absurd h (by decide)
  faultLog := fun _ => rfl
  faultSeq := fun h => absurd h (by decide)
  order := fun _ => rfl
  ms := fun _ => rfl
  sent := fun _ => rfl
  fresh := fun _ => rfl

theorem State.updNor_frame (s : State) (f : Nor → Nor) : Frame (fp.nor) s (s.updNor f) where
  pending := rfl
  burnt := Fuses.Burnt.refl _
  canon := fun c => ⟨c.regs, c.cores, c.mems, c.routers, c.tiles, c.crags, c.saddles, c.sites, c.parts, c.reqs, c.rmbs, c.ports, c.ctls, c.ssbs, c.faultMap⟩
  regs := fun _ => rfl
  clock := fun _ => rfl
  cores := fun _ => rfl
  routers := fun _ => rfl
  links := fun _ => rfl
  tiles := fun _ => rfl
  crags := fun _ => rfl
  saddles := fun _ => rfl
  sites := fun _ => rfl
  parts := fun _ => rfl
  reqs := fun _ => rfl
  rmbs := fun _ => rfl
  sps := fun _ => rfl
  ports := fun _ => rfl
  writes := fun _ => rfl
  reads := fun _ => rfl
  ctls := fun _ => rfl
  ssbs := fun _ => rfl
  nor := fun h => absurd h (by decide)
  fuses := fun _ => rfl
  tally := fun _ => rfl
  faultMap := fun _ => rfl
  faultGen := fun _ => rfl
  faultLog := fun _ => rfl
  faultSeq := fun _ => rfl
  order := fun _ => rfl
  ms := fun _ => rfl
  sent := fun _ => rfl
  fresh := fun _ => rfl

theorem State.updTally_frame (s : State) (f : Tally → Tally) : Frame (fp.tally) s (s.updTally f) where
  pending := rfl
  burnt := Fuses.Burnt.refl _
  canon := fun c => ⟨c.regs, c.cores, c.mems, c.routers, c.tiles, c.crags, c.saddles, c.sites, c.parts, c.reqs, c.rmbs, c.ports, c.ctls, c.ssbs, c.faultMap⟩
  regs := fun _ => rfl
  clock := fun _ => rfl
  cores := fun _ => rfl
  routers := fun _ => rfl
  links := fun _ => rfl
  tiles := fun _ => rfl
  crags := fun _ => rfl
  saddles := fun _ => rfl
  sites := fun _ => rfl
  parts := fun _ => rfl
  reqs := fun _ => rfl
  rmbs := fun _ => rfl
  sps := fun _ => rfl
  ports := fun _ => rfl
  writes := fun _ => rfl
  reads := fun _ => rfl
  ctls := fun _ => rfl
  ssbs := fun _ => rfl
  nor := fun _ => rfl
  fuses := fun _ => rfl
  tally := fun h => absurd h (by decide)
  faultMap := fun _ => rfl
  faultGen := fun _ => rfl
  faultLog := fun _ => rfl
  faultSeq := fun _ => rfl
  order := fun _ => rfl
  ms := fun _ => rfl
  sent := fun _ => rfl
  fresh := fun _ => rfl

theorem State.emit_frame (s : State) (m : Msg) : Frame (fp.sent) s (s.emit m) where
  pending := rfl
  burnt := Fuses.Burnt.refl _
  canon := fun c => ⟨c.regs, c.cores, c.mems, c.routers, c.tiles, c.crags, c.saddles, c.sites, c.parts, c.reqs, c.rmbs, c.ports, c.ctls, c.ssbs, c.faultMap⟩
  regs := fun _ => rfl
  clock := fun _ => rfl
  cores := fun _ => rfl
  routers := fun _ => rfl
  links := fun _ => rfl
  tiles := fun _ => rfl
  crags := fun _ => rfl
  saddles := fun _ => rfl
  sites := fun _ => rfl
  parts := fun _ => rfl
  reqs := fun _ => rfl
  rmbs := fun _ => rfl
  sps := fun _ => rfl
  ports := fun _ => rfl
  writes := fun _ => rfl
  reads := fun _ => rfl
  ctls := fun _ => rfl
  ssbs := fun _ => rfl
  nor := fun _ => rfl
  fuses := fun _ => rfl
  tally := fun _ => rfl
  faultMap := fun _ => rfl
  faultGen := fun _ => rfl
  faultLog := fun _ => rfl
  faultSeq := fun _ => rfl
  order := fun _ => rfl
  ms := fun _ => rfl
  sent := fun h => absurd h (by decide)
  fresh := fun _ => rfl

theorem State.updCore_frame (s : State) (g : Nat) (f : Core → Core) (hf : (∀ j, (s.core j).memWf = true) → (f (s.core g)).memWf = true) :
    Frame fp.cores s (s.updCore g f) where
  pending := rfl
  burnt := Fuses.Burnt.refl _
  canon := fun c => ⟨c.regs, Table.wf_upd _ _ _ c.cores, fun j => by
    rw [State.core_updCore]; split
    · exact hf c.mems
    · exact c.mems j, c.routers, c.tiles, c.crags, c.saddles, c.sites, c.parts, c.reqs, c.rmbs, c.ports, c.ctls, c.ssbs, c.faultMap⟩
  regs := fun _ => rfl
  clock := fun _ => rfl
  cores := fun h => absurd h (by decide)
  routers := fun _ => rfl
  links := fun _ => rfl
  tiles := fun _ => rfl
  crags := fun _ => rfl
  saddles := fun _ => rfl
  sites := fun _ => rfl
  parts := fun _ => rfl
  reqs := fun _ => rfl
  rmbs := fun _ => rfl
  sps := fun _ => rfl
  ports := fun _ => rfl
  writes := fun _ => rfl
  reads := fun _ => rfl
  ctls := fun _ => rfl
  ssbs := fun _ => rfl
  nor := fun _ => rfl
  fuses := fun _ => rfl
  tally := fun _ => rfl
  faultMap := fun _ => rfl
  faultGen := fun _ => rfl
  faultLog := fun _ => rfl
  faultSeq := fun _ => rfl
  order := fun _ => rfl
  ms := fun _ => rfl
  sent := fun _ => rfl
  fresh := fun _ => rfl

theorem State.clock_frame (s : State) (x : Nat) : Frame fp.clock s { s with clock := x } where
  pending := rfl
  burnt := Fuses.Burnt.refl _
  canon := fun c => ⟨c.regs, c.cores, c.mems, c.routers, c.tiles, c.crags, c.saddles, c.sites, c.parts, c.reqs, c.rmbs, c.ports, c.ctls, c.ssbs, c.faultMap⟩
  regs := fun _ => rfl
  clock := fun h => absurd h (by decide)
  cores := fun _ => rfl
  routers := fun _ => rfl
  links := fun _ => rfl
  tiles := fun _ => rfl
  crags := fun _ => rfl
  saddles := fun _ => rfl
  sites := fun _ => rfl
  parts := fun _ => rfl
  reqs := fun _ => rfl
  rmbs := fun _ => rfl
  sps := fun _ => rfl
  ports := fun _ => rfl
  writes := fun _ => rfl
  reads := fun _ => rfl
  ctls := fun _ => rfl
  ssbs := fun _ => rfl
  nor := fun _ => rfl
  fuses := fun _ => rfl
  tally := fun _ => rfl
  faultMap := fun _ => rfl
  faultGen := fun _ => rfl
  faultLog := fun _ => rfl
  faultSeq := fun _ => rfl
  order := fun _ => rfl
  ms := fun _ => rfl
  sent := fun _ => rfl
  fresh := fun _ => rfl

theorem State.ms_frame (s : State) (x : Nat) : Frame fp.ms s { s with ms := x } where
  pending := rfl
  burnt := Fuses.Burnt.refl _
  canon := fun c => ⟨c.regs, c.cores, c.mems, c.routers, c.tiles, c.crags, c.saddles, c.sites, c.parts, c.reqs, c.rmbs, c.ports, c.ctls, c.ssbs, c.faultMap⟩
  regs := fun _ => rfl
  clock := fun _ => rfl
  cores := fun _ => rfl
  routers := fun _ => rfl
  links := fun _ => rfl
  tiles := fun _ => rfl
  crags := fun _ => rfl
  saddles := fun _ => rfl
  sites := fun _ => rfl
  parts := fun _ => rfl
  reqs := fun _ => rfl
  rmbs := fun _ => rfl
  sps := fun _ => rfl
  ports := fun _ => rfl
  writes := fun _ => rfl
  reads := fun _ => rfl
  ctls := fun _ => rfl
  ssbs := fun _ => rfl
  nor := fun _ => rfl
  fuses := fun _ => rfl
  tally := fun _ => rfl
  faultMap := fun _ => rfl
  faultGen := fun _ => rfl
  faultLog := fun _ => rfl
  faultSeq := fun _ => rfl
  order := fun _ => rfl
  ms := fun h => absurd h (by decide)
  sent := fun _ => rfl
  fresh := fun _ => rfl

theorem State.fresh_frame (s : State) (x : Nat) : Frame fp.fresh s { s with fresh := x } where
  pending := rfl
  burnt := Fuses.Burnt.refl _
  canon := fun c => ⟨c.regs, c.cores, c.mems, c.routers, c.tiles, c.crags, c.saddles, c.sites, c.parts, c.reqs, c.rmbs, c.ports, c.ctls, c.ssbs, c.faultMap⟩
  regs := fun _ => rfl
  clock := fun _ => rfl
  cores := fun _ => rfl
  routers := fun _ => rfl
  links := fun _ => rfl
  tiles := fun _ => rfl
  crags := fun _ => rfl
  saddles := fun _ => rfl
  sites := fun _ => rfl
  parts := fun _ => rfl
  reqs := fun _ => rfl
  rmbs := fun _ => rfl
  sps := fun _ => rfl
  ports := fun _ => rfl
  writes := fun _ => rfl
  reads := fun _ => rfl
  ctls := fun _ => rfl
  ssbs := fun _ => rfl
  nor := fun _ => rfl
  fuses := fun _ => rfl
  tally := fun _ => rfl
  faultMap := fun _ => rfl
  faultGen := fun _ => rfl
  faultLog := fun _ => rfl
  faultSeq := fun _ => rfl
  order := fun _ => rfl
  ms := fun _ => rfl
  sent := fun _ => rfl
  fresh := fun h => absurd h (by decide)

end Sys2Proof.Machine
end

