-- ==== Sys2Proof/Laws/FrameOps.lean ====
section
/-! SUPPORT. Frames of the operations of Machine/Ops.lean. -/

namespace Sys2Proof.Machine

theorem State.setFlag_frame (s : State) (p : Page) (f : Field) (b : Bool) : Frame (fp.regs) s (State.setFlag s p f b) := by
  unfold State.setFlag
  repeat' first
    | with_reducible exact Frame.refl _ _
    | (with_reducible apply Frame.step (State.wr_frame ..) rfl ?_)
    | split
    | (dsimp only; split)

theorem State.inc_frame (s : State) (p : Page) (f : Field) (n : Nat) : Frame (fp.regs) s (State.inc s p f n) := by
  unfold State.inc
  repeat' first
    | with_reducible exact Frame.refl _ _
    | (with_reducible apply Frame.step (State.wr_frame ..) rfl ?_)
    | split
    | (dsimp only; split)

theorem State.raise_frame (s : State) (p : Page) (f : Field) (v : Nat) : Frame (fp.regs) s (State.raise s p f v) := by
  unfold State.raise
  repeat' first
    | with_reducible exact Frame.refl _ _
    | (with_reducible apply Frame.step (State.wr_frame ..) rfl ?_)
    | (with_reducible apply Frame.ite ?_ ?_)
    | split
    | (dsimp only; split)

theorem State.clr_frame (s : State) (p : Page) (f : Field) : Frame (fp.regs) s (State.clr s p f) := by
  unfold State.clr
  repeat' first
    | with_reducible exact Frame.refl _ _
    | (with_reducible apply Frame.step (State.wr_frame ..) rfl ?_)
    | split
    | (dsimp only; split)

theorem State.clrAll_frame (s : State) (p : Page) (fs : List Field) : Frame (fp.regs) s (State.clrAll s p fs) := by
  unfold State.clrAll
  repeat' first
    | with_reducible exact Frame.refl _ _
    | (with_reducible apply Frame.step (State.clr_frame ..) rfl ?_)
    | (with_reducible apply Frame.foldl _ _ ?_ (fun s x => ?_))
    | split
    | (dsimp only; split)

theorem State.wr64_frame (s : State) (p : Page) (lo hi : Field) (v : Nat) : Frame (fp.regs) s (State.wr64 s p lo hi v) := by
  unfold State.wr64
  repeat' first
    | with_reducible exact Frame.refl _ _
    | (with_reducible apply Frame.step (State.wr_frame ..) rfl ?_)
    | split
    | (dsimp only; split)

theorem State.free_frame (s : State) : Frame (fp.fresh) s (State.free s).2 := by
  unfold State.free
  repeat' first
    | with_reducible exact Frame.refl _ _
    | (with_reducible apply Frame.step (State.fresh_frame _ _) rfl ?_)
    | split
    | (dsimp only; split)

theorem State.free_pair {s : State} {s' : State} {v0 : Word} (hx : State.free s = (v0, s')) : Frame (fp.fresh) s s' := by
  have := State.free_frame s
  rw [hx] at this; exact this

theorem State.stamp_frame (s : State) (p : Page) : Frame (fp.regs) s (State.stamp s p) := by
  unfold State.stamp
  repeat' first
    | with_reducible exact Frame.refl _ _
    | (with_reducible apply Frame.step (State.wr_frame ..) rfl ?_)
    | (with_reducible apply Frame.step (State.setFlag_frame ..) rfl ?_)
    | split
    | (dsimp only; split)

theorem State.noting_frame {k : Nat} (s : State) (p : Page) (f : State → State) (hk : fpSub fp.sent k = true) (hf : Frame k s (f s)) :
    Frame k s (State.noting s p f) := by
  unfold State.noting
  dsimp only
  split
  · exact hf
  · exact Frame.step (State.emit_frame ..) hk hf

theorem State.hwSet_frame (s : State) (p : Page) (f : Field) (b : Nat) : Frame (fp.regs) s (State.hwSet s p f b) := by
  unfold State.hwSet
  repeat' first
    | with_reducible exact Frame.refl _ _
    | (with_reducible apply Frame.step (State.wr64_frame ..) rfl ?_)
    | split
    | (dsimp only; split)

theorem State.raiseFlag_frame (s : State) (p : Page) (f : Field) : Frame (fp.regs) s (State.raiseFlag s p f) := by
  unfold State.raiseFlag
  repeat' first
    | with_reducible exact Frame.refl _ _
    | (with_reducible apply Frame.step (State.setFlag_frame ..) rfl ?_)
    | (with_reducible apply Frame.step (State.hwSet_frame ..) rfl ?_)
    | split
    | (dsimp only; split)

theorem State.capture_frame (s : State) (p : Page) (b : Nat) (inj : Bool) : Frame (fp.regs) s (State.capture s p b inj) := by
  unfold State.capture
  repeat' first
    | with_reducible exact Frame.refl _ _
    | (with_reducible apply Frame.step (State.setFlag_frame ..) rfl ?_)
    | (with_reducible apply Frame.step (State.stamp_frame ..) rfl ?_)
    | (with_reducible apply Frame.step (State.raiseFlag_frame ..) rfl ?_)
    | (with_reducible apply Frame.step (State.wr_frame ..) rfl ?_)
    | (with_reducible apply Frame.ite ?_ ?_)
    | split
    | (dsimp only; split)

theorem State.err_frame (s : State) (p : Page) (b : Nat) (inj : Bool) : Frame (fp.regs + fp.sent) s (State.err s p b inj) := by
  unfold State.err
  repeat' first
    | with_reducible exact Frame.refl _ _
    | (with_reducible apply Frame.step (State.hwSet_frame ..) rfl ?_)
    | (with_reducible apply Frame.step (State.capture_frame ..) rfl ?_)
    | (with_reducible apply Frame.step (State.wr_frame ..) rfl ?_)
    | (with_reducible apply State.noting_frame _ _ _ rfl ?_)
    | (with_reducible apply Frame.step (State.noting_frame (k := fp.regs + fp.sent) _ _ _ rfl ?_) rfl ?_)
    | (with_reducible apply Frame.ite ?_ ?_)
    | split
    | (dsimp only; split)

theorem State.errs_frame (s : State) (p : Page) (bits : List Nat) (inj : Bool) : Frame (fp.regs + fp.sent) s (State.errs s p bits inj) := by
  unfold State.errs
  repeat' first
    | with_reducible exact Frame.refl _ _
    | (with_reducible apply Frame.step (State.err_frame ..) rfl ?_)
    | (with_reducible apply Frame.foldl _ _ ?_ (fun s x => ?_))
    | split
    | (dsimp only; split)

theorem State.memWrite_frame (s : State) (g a : Nat) (bs : List Byte) : Frame (fp.regs + fp.cores + fp.crags) s (State.memWrite s g a bs) := by
  unfold State.memWrite
  repeat' first
    | with_reducible exact Frame.refl _ _
    | (with_reducible apply Frame.step (State.updCore_frame _ _ _ ?_) rfl ?_)
    | (with_reducible apply Frame.step (State.updCrag_frame ..) rfl ?_)
    | (with_reducible apply Frame.step (State.setFlag_frame ..) rfl ?_)
    | (with_reducible apply Frame.ite ?_ ?_)
    | split
    | (dsimp only; split)
    | (intro h; (try dsimp only); repeat' (first | with_reducible exact h _ | with_reducible apply Core.memWf_write | with_reducible apply Core.memWf_setByte | exact Core.memWf_of (h _) rfl rfl rfl | exact Core.memWf_of (Core.memWf_write _ _ (h _)) rfl rfl rfl | exact (Core.memWf_iff _).2 ⟨Table.wf_filter 0 _ ((Core.memWf_iff _).1 (h _)).1, ((Core.memWf_iff _).1 (h _)).2⟩ | exact (Core.memWf_iff _).2 ⟨((Core.memWf_iff _).1 (h _)).1, ((Core.memWf_iff _).1 (h _)).2⟩ | split))

theorem State.stepErr_frame (s : State) (g : Nat) (code : StepCode) (cmd : Nat) : Frame (fp.regs + fp.cores + fp.sent) s (State.stepErr s g code cmd) := by
  unfold State.stepErr
  repeat' first
    | with_reducible exact Frame.refl _ _
    | (with_reducible apply Frame.step (State.inc_frame ..) rfl ?_)
    | (with_reducible apply Frame.step (State.err_frame ..) rfl ?_)
    | (with_reducible apply Frame.step (State.updCore_frame _ _ _ ?_) rfl ?_)
    | (with_reducible apply Frame.step (State.wr_frame ..) rfl ?_)
    | (with_reducible apply Frame.ite ?_ ?_)
    | split
    | (dsimp only; split)
    | (intro h; (try dsimp only); repeat' (first | with_reducible exact h _ | with_reducible apply Core.memWf_write | with_reducible apply Core.memWf_setByte | exact Core.memWf_of (h _) rfl rfl rfl | exact Core.memWf_of (Core.memWf_write _ _ (h _)) rfl rfl rfl | exact (Core.memWf_iff _).2 ⟨Table.wf_filter 0 _ ((Core.memWf_iff _).1 (h _)).1, ((Core.memWf_iff _).1 (h _)).2⟩ | exact (Core.memWf_iff _).2 ⟨((Core.memWf_iff _).1 (h _)).1, ((Core.memWf_iff _).1 (h _)).2⟩ | split))

theorem State.loseCores_frame (s : State) (l : List Nat) : Frame (fp.cores + fp.fresh) s (State.loseCores s l) := by
  unfold State.loseCores
  repeat' first
    | with_reducible exact Frame.refl _ _
    | (with_reducible apply Frame.step (State.free_frame ..) rfl ?_)
    | (refine Frame.step (State.free_pair (by assumption)) rfl ?_)
    | (with_reducible apply Frame.step (State.updCore_frame _ _ _ ?_) rfl ?_)
    | (with_reducible apply Frame.foldl _ _ ?_ (fun s x => ?_))
    | (with_reducible apply Frame.ite ?_ ?_)
    | split
    | (dsimp only; split)
    | (intro h; (try dsimp only); repeat' (first | with_reducible exact h _ | with_reducible apply Core.memWf_write | with_reducible apply Core.memWf_setByte | exact Core.memWf_of (h _) rfl rfl rfl | exact Core.memWf_of (Core.memWf_write _ _ (h _)) rfl rfl rfl | exact (Core.memWf_iff _).2 ⟨Table.wf_filter 0 _ ((Core.memWf_iff _).1 (h _)).1, ((Core.memWf_iff _).1 (h _)).2⟩ | exact (Core.memWf_iff _).2 ⟨((Core.memWf_iff _).1 (h _)).1, ((Core.memWf_iff _).1 (h _)).2⟩ | split))

theorem State.setCompute_frame (s : State) (t : Nat) (on : Bool) : Frame (fp.regs + fp.cores + fp.fresh) s (State.setCompute s t on) := by
  unfold State.setCompute
  repeat' first
    | with_reducible exact Frame.refl _ _
    | (with_reducible apply Frame.step (State.setFlag_frame ..) rfl ?_)
    | (with_reducible apply Frame.step (State.loseCores_frame ..) rfl ?_)
    | (with_reducible apply Frame.foldl _ _ ?_ (fun s x => ?_))
    | (with_reducible apply Frame.ite ?_ ?_)
    | split
    | (dsimp only; split)

theorem State.keepRole_frame (s : State) (p g : Nat) : Frame (fp.parts) s (State.keepRole s p g) := by
  unfold State.keepRole
  repeat' first
    | with_reducible exact Frame.refl _ _
    | (with_reducible apply Frame.step (State.updPart_frame ..) rfl ?_)
    | split
    | (dsimp only; split)

end Sys2Proof.Machine
end

