-- ==== Sys2Proof/Laws/FrameSequencer.lean ====
section
/-! SUPPORT. Frames of the operations of Machine/Sequencer.lean. -/

namespace Sys2Proof.Machine

theorem Core.setEntry_memWf {c : Core} (idx : Nat) (f : CmdEntry → CmdEntry) (h : c.memWf = true) : (Core.setEntry c idx f).memWf = true := by
  unfold Core.setEntry
  try dsimp only
  repeat' (first | with_reducible exact h | exact Core.memWf_of h rfl rfl rfl | split)

theorem State.finishAt_frame (s : State) (g idx d : Nat) : Frame (fp.cores) s (State.finishAt s g idx d) := by
  unfold State.finishAt
  repeat' first
    | with_reducible exact Frame.refl _ _
    | (with_reducible apply Frame.step (State.updCore_frame _ _ _ ?_) rfl ?_)
    | split
    | (dsimp only; split)
    | (intro h; (try dsimp only); repeat' (first | with_reducible exact h _ | with_reducible apply Core.memWf_write | with_reducible apply Core.memWf_setByte | exact Core.memWf_of (h _) rfl rfl rfl | exact Core.memWf_of (Core.memWf_write _ _ (h _)) rfl rfl rfl | exact (Core.memWf_iff _).2 ⟨Table.wf_filter 0 _ ((Core.memWf_iff _).1 (h _)).1, ((Core.memWf_iff _).1 (h _)).2⟩ | exact (Core.memWf_iff _).2 ⟨((Core.memWf_iff _).1 (h _)).1, ((Core.memWf_iff _).1 (h _)).2⟩ | with_reducible apply Core.setEntry_memWf | exact Core.memWf_of (d := Core.setEntry ..) (Core.setEntry_memWf (h := h _) ..) rfl rfl rfl | exact Core.memWf_foldl _ _ _ (h _) (fun _ _ h => Core.setEntry_memWf (h := h) ..) | split))

theorem State.issueOpen_frame (s : State) (g idx : Nat) (barrier wait : Bool) (u : Upset) : Frame (fp.cores) s (State.issueOpen s g idx barrier wait u) := by
  unfold State.issueOpen
  repeat' first
    | with_reducible exact Frame.refl _ _
    | (with_reducible apply Frame.step (State.updCore_frame _ _ _ ?_) rfl ?_)
    | (with_reducible apply Frame.step (State.upset_frame ..) rfl ?_)
    | split
    | (dsimp only; split)
    | (refine Frame.step (State.upset_pair (by assumption)) rfl ?_)
    | (intro h; (try dsimp only); repeat' (first | with_reducible exact h _ | with_reducible apply Core.memWf_write | with_reducible apply Core.memWf_setByte | exact Core.memWf_of (h _) rfl rfl rfl | exact Core.memWf_of (Core.memWf_write _ _ (h _)) rfl rfl rfl | exact (Core.memWf_iff _).2 ⟨Table.wf_filter 0 _ ((Core.memWf_iff _).1 (h _)).1, ((Core.memWf_iff _).1 (h _)).2⟩ | exact (Core.memWf_iff _).2 ⟨((Core.memWf_iff _).1 (h _)).1, ((Core.memWf_iff _).1 (h _)).2⟩ | with_reducible apply Core.setEntry_memWf | exact Core.memWf_of (d := Core.setEntry ..) (Core.setEntry_memWf (h := h _) ..) rfl rfl rfl | exact Core.memWf_foldl _ _ _ (h _) (fun _ _ h => Core.setEntry_memWf (h := h) ..) | split))

theorem State.upset_frame (s : State) (g idx : Nat) (u : Upset) : Frame (fp.regs + fp.cores + fp.sent) s (State.upset s g idx u).1 := by
  cases u <;> unfold State.upset <;> dsimp only
  · exact Frame.refl _ _
  all_goals repeat' first
    | with_reducible exact Frame.refl _ _
    | (with_reducible apply Frame.step (State.inc_frame ..) rfl ?_)
    | (with_reducible apply Frame.step (State.stepErr_frame ..) rfl ?_)
    | (with_reducible apply Frame.step (State.err_frame ..) rfl ?_)

theorem State.upset_pair {s : State} {g idx : Nat} {u : Upset} {t : State} {v : Bool} (h : State.upset s g idx u = (t, v)) :
    Frame (fp.regs + fp.cores + fp.sent) s t := by
  have := State.upset_frame s g idx u
  rw [h] at this; exact this

theorem State.issue_frame {k : Nat} (s : State) (g op : Nat) (u : Upset) (run : CmdEntry → State → State)
    (hk : fpSub (fp.regs + fp.cores + fp.sent) k = true) (hr : ∀ e s, Frame k s (run e s)) : Frame k s (State.issue s g op u run) := by
  have hc : fpSub fp.cores k = true := fpSub_trans rfl hk
  unfold State.issue
  repeat' first
    | with_reducible exact Frame.refl _ _
    | (with_reducible apply Frame.step (State.issueOpen_frame ..) hc ?_)
    | (with_reducible apply Frame.step (State.updCore_frame _ _ _ ?_) hc ?_)
    | (with_reducible apply Frame.step (hr _ _) (by simp [fpSub]) ?_)
    | (with_reducible apply Frame.ite ?_ ?_)
    | split
    | (dsimp only; split)
    | (refine Frame.step (State.upset_pair (by assumption)) hk ?_)
    | (intro h; exact Core.memWf_of (h _) rfl rfl rfl)

theorem State.fail_frame (s : State) (g : Nat) (e : CmdEntry) (code : StepCode) : Frame (fp.regs + fp.cores + fp.sent) s (State.fail s g e code) := by
  unfold State.fail
  repeat' first
    | with_reducible exact Frame.refl _ _
    | (with_reducible apply Frame.step (State.stepErr_frame ..) rfl ?_)
    | (with_reducible apply Frame.step (State.issueOpen_frame ..) rfl ?_)
    | split
    | (dsimp only; split)

theorem retireWithoutEffect_frame (s : State) (g : Nat) : Frame (fp.regs + fp.cores) s (retireWithoutEffect s g) := by
  unfold retireWithoutEffect
  repeat' first
    | with_reducible exact Frame.refl _ _
    | (with_reducible apply Frame.step (State.updCore_frame _ _ _ ?_) rfl ?_)
    | (with_reducible apply Frame.step (State.wr_frame ..) rfl ?_)
    | (with_reducible apply Frame.ite ?_ ?_)
    | split
    | (dsimp only; split)
    | (intro h; (try dsimp only); repeat' (first | with_reducible exact h _ | with_reducible apply Core.memWf_write | with_reducible apply Core.memWf_setByte | exact Core.memWf_of (h _) rfl rfl rfl | exact Core.memWf_of (Core.memWf_write _ _ (h _)) rfl rfl rfl | exact (Core.memWf_iff _).2 ⟨Table.wf_filter 0 _ ((Core.memWf_iff _).1 (h _)).1, ((Core.memWf_iff _).1 (h _)).2⟩ | exact (Core.memWf_iff _).2 ⟨((Core.memWf_iff _).1 (h _)).1, ((Core.memWf_iff _).1 (h _)).2⟩ | split))

theorem commandRetire_frame (s : State) (g : Nat) : Frame (fp.regs + fp.cores) s (commandRetire s g) := by
  unfold commandRetire
  repeat' first
    | with_reducible exact Frame.refl _ _
    | (with_reducible apply Frame.step (State.updCore_frame _ _ _ ?_) rfl ?_)
    | (with_reducible apply Frame.step (State.wr_frame ..) rfl ?_)
    | (with_reducible apply Frame.ite ?_ ?_)
    | split
    | (dsimp only; split)
    | (intro h; (try dsimp only); repeat' (first | with_reducible exact h _ | with_reducible apply Core.memWf_write | with_reducible apply Core.memWf_setByte | exact Core.memWf_of (h _) rfl rfl rfl | exact Core.memWf_of (Core.memWf_write _ _ (h _)) rfl rfl rfl | exact (Core.memWf_iff _).2 ⟨Table.wf_filter 0 _ ((Core.memWf_iff _).1 (h _)).1, ((Core.memWf_iff _).1 (h _)).2⟩ | exact (Core.memWf_iff _).2 ⟨((Core.memWf_iff _).1 (h _)).1, ((Core.memWf_iff _).1 (h _)).2⟩ | split))

theorem runFence_frame (g : Nat) (e : CmdEntry) (s : State) : Frame (fp.cores) s (runFence g e s) := by
  unfold runFence
  repeat' first
    | with_reducible exact Frame.refl _ _
    | (with_reducible apply Frame.step (State.issueOpen_frame ..) rfl ?_)
    | (with_reducible apply Frame.step (State.finishAt_frame ..) rfl ?_)
    | (with_reducible apply Frame.ite ?_ ?_)
    | split
    | (dsimp only; split)

theorem runHalt_frame (g : Nat) (e : CmdEntry) (s : State) : Frame (fp.cores) s (runHalt g e s) := by
  unfold runHalt
  repeat' first
    | with_reducible exact Frame.refl _ _
    | (with_reducible apply Frame.step (State.issueOpen_frame ..) rfl ?_)
    | split
    | (dsimp only; split)

theorem runNop_frame (g : Nat) (e : CmdEntry) (s : State) : Frame (fp.cores) s (runNop g e s) := by
  unfold runNop
  repeat' first
    | with_reducible exact Frame.refl _ _
    | (with_reducible apply Frame.step (State.finishAt_frame ..) rfl ?_)
    | split
    | (dsimp only; split)

theorem runMark_frame (g : Nat) (e : CmdEntry) (s : State) : Frame (fp.regs + fp.cores) s (runMark g e s) := by
  unfold runMark
  repeat' first
    | with_reducible exact Frame.refl _ _
    | (with_reducible apply Frame.step (State.wr_frame ..) rfl ?_)
    | (with_reducible apply Frame.step (State.finishAt_frame ..) rfl ?_)
    | split
    | (dsimp only; split)

theorem runCommit_frame (g : Nat) (e : CmdEntry) (s : State) : Frame (fp.cores) s (runCommit g e s) := by
  unfold runCommit
  repeat' first
    | with_reducible exact Frame.refl _ _
    | (with_reducible apply Frame.step (State.updCore_frame _ _ _ ?_) rfl ?_)
    | (with_reducible apply Frame.step (State.finishAt_frame ..) rfl ?_)
    | split
    | (dsimp only; split)
    | (intro h; (try dsimp only); repeat' (first | with_reducible exact h _ | with_reducible apply Core.memWf_write | with_reducible apply Core.memWf_setByte | exact Core.memWf_of (h _) rfl rfl rfl | exact Core.memWf_of (Core.memWf_write _ _ (h _)) rfl rfl rfl | exact (Core.memWf_iff _).2 ⟨Table.wf_filter 0 _ ((Core.memWf_iff _).1 (h _)).1, ((Core.memWf_iff _).1 (h _)).2⟩ | exact (Core.memWf_iff _).2 ⟨((Core.memWf_iff _).1 (h _)).1, ((Core.memWf_iff _).1 (h _)).2⟩ | split))

theorem runCommitKv_frame (g : Nat) (e : CmdEntry) (s : State) : Frame (fp.regs + fp.cores + fp.sent) s (runCommitKv g e s) := by
  unfold runCommitKv
  repeat' first
    | with_reducible exact Frame.refl _ _
    | (with_reducible apply Frame.step (State.fail_frame ..) rfl ?_)
    | (with_reducible apply Frame.step (State.updCore_frame _ _ _ ?_) rfl ?_)
    | (with_reducible apply Frame.step (State.finishAt_frame ..) rfl ?_)
    | (with_reducible apply Frame.ite ?_ ?_)
    | split
    | (dsimp only; split)
    | (intro h; (try dsimp only); repeat' (first | with_reducible exact h _ | with_reducible apply Core.memWf_write | with_reducible apply Core.memWf_setByte | exact Core.memWf_of (h _) rfl rfl rfl | exact Core.memWf_of (Core.memWf_write _ _ (h _)) rfl rfl rfl | exact (Core.memWf_iff _).2 ⟨Table.wf_filter 0 _ ((Core.memWf_iff _).1 (h _)).1, ((Core.memWf_iff _).1 (h _)).2⟩ | exact (Core.memWf_iff _).2 ⟨((Core.memWf_iff _).1 (h _)).1, ((Core.memWf_iff _).1 (h _)).2⟩ | split))

end Sys2Proof.Machine
end

