-- ==== Sys2Proof/Laws/FrameArrays.lean ====
section
/-! SUPPORT. Frames of the operations of Machine/Arrays.lean. -/

namespace Sys2Proof.Machine

theorem Core.setAcc_memWf {c : Core} (a col idx : Nat) (v : Int) (h : c.memWf = true) : (Core.setAcc c a col idx v).memWf = true := by
  unfold Core.setAcc
  try dsimp only
  repeat' (first | with_reducible exact h | exact Core.memWf_of h rfl rfl rfl | split)

theorem passBlock_memWf (wf : Fmt) (a8 : Bool) (a idx cols : Nat) (clear : Bool) (ops : List (Nat × List Nat × Nat)) {c : Core}
    (h : c.memWf = true) : (passBlock wf a8 a idx cols clear ops c).memWf = true := by
  unfold passBlock
  refine Core.memWf_foldl _ _ _ h (fun c x h => ?_)
  exact Core.memWf_of h rfl rfl rfl

theorem Core.loadSets_memWf {c : Core} (wf : Fmt) (a : Nat) (bytes : List Byte) (sects : List Nat) (h : c.memWf = true) :
    (c.loadSets wf a bytes sects).memWf = true := by
  unfold Core.loadSets
  exact Core.memWf_foldl _ _ _ h (fun c pl h => Core.memWf_of h rfl rfl rfl)

theorem passEffect_memWf (wf : Fmt) (a8 clear : Bool) (act wgt nblk nv stride lfa0 : Nat) (arrays : List (Nat × Nat)) {c : Core}
    (h : c.memWf = true) : (passEffect wf a8 clear act wgt nblk nv stride lfa0 arrays c).memWf = true := by
  unfold passEffect
  refine Core.memWf_foldl _ _ _ h (fun c b h => ?_)
  refine Core.memWf_foldl _ _ _ (Core.memWf_of h rfl rfl rfl) (fun c x h => ?_)
  obtain ⟨a, cols⟩ := x
  refine Core.memWf_foldl _ _ _ (Core.memWf_of (Core.loadSets_memWf wf a _ _ h) rfl rfl rfl) (fun c v h => ?_)
  exact passBlock_memWf _ _ _ _ _ _ _ h

theorem Core.addClips_memWf {c : Core} (slot n : Nat) (skewed : Bool) (h : c.memWf = true) : (Core.addClips c slot n skewed).memWf = true := by
  unfold Core.addClips
  try dsimp only
  repeat' (first | with_reducible exact h | exact Core.memWf_of h rfl rfl rfl | split)

theorem Core.cachePut_memWf {c : Core} (x : Nat) (h : c.memWf = true) : (Core.cachePut c x).memWf = true := by
  unfold Core.cachePut
  try dsimp only
  repeat' (first | with_reducible exact h | exact Core.memWf_of h rfl rfl rfl | split)

theorem startPass_frame (s : State) (g : Nat) (e : CmdEntry) : Frame (fp.cores) s (startPass s g e) := by
  unfold startPass
  repeat' first
    | with_reducible exact Frame.refl _ _
    | (with_reducible apply Frame.step (State.updCore_frame _ _ _ ?_) rfl ?_)
    | (with_reducible apply Frame.step (State.finishAt_frame ..) rfl ?_)
    | (with_reducible apply Frame.ite ?_ ?_)
    | split
    | (dsimp only; split)
    | (intro h; (try dsimp only); repeat' (first | with_reducible exact h _ | with_reducible apply Core.memWf_write | with_reducible apply Core.memWf_setByte | exact Core.memWf_of (h _) rfl rfl rfl | exact Core.memWf_of (Core.memWf_write _ _ (h _)) rfl rfl rfl | exact (Core.memWf_iff _).2 ⟨Table.wf_filter 0 _ ((Core.memWf_iff _).1 (h _)).1, ((Core.memWf_iff _).1 (h _)).2⟩ | exact (Core.memWf_iff _).2 ⟨((Core.memWf_iff _).1 (h _)).1, ((Core.memWf_iff _).1 (h _)).2⟩ | with_reducible apply passEffect_memWf | exact Core.memWf_of (d := passEffect ..) (passEffect_memWf (h := h _) ..) rfl rfl rfl | exact Core.memWf_foldl _ _ _ (h _) (fun _ _ h => passEffect_memWf (h := h) ..) | split))

theorem runPass_frame (g : Nat) (skew : Bool) (e : CmdEntry) (s : State) : Frame (fp.regs + fp.cores + fp.sent) s (runPass g skew e s) := by
  unfold runPass
  repeat' first
    | with_reducible exact Frame.refl _ _
    | (with_reducible apply Frame.step (State.updCore_frame _ _ _ ?_) rfl ?_)
    | (with_reducible apply Frame.step (State.fail_frame ..) rfl ?_)
    | (with_reducible apply Frame.step (startPass_frame ..) rfl ?_)
    | (with_reducible apply Frame.step (State.issueOpen_frame ..) rfl ?_)
    | (with_reducible apply Frame.ite ?_ ?_)
    | split
    | (dsimp only; split)
    | (intro h; (try dsimp only); repeat' (first | with_reducible exact h _ | with_reducible apply Core.memWf_write | with_reducible apply Core.memWf_setByte | exact Core.memWf_of (h _) rfl rfl rfl | exact Core.memWf_of (Core.memWf_write _ _ (h _)) rfl rfl rfl | exact (Core.memWf_iff _).2 ⟨Table.wf_filter 0 _ ((Core.memWf_iff _).1 (h _)).1, ((Core.memWf_iff _).1 (h _)).2⟩ | exact (Core.memWf_iff _).2 ⟨((Core.memWf_iff _).1 (h _)).1, ((Core.memWf_iff _).1 (h _)).2⟩ | split))

theorem drainVector_memWf (w scale : Nat) (arrays : List (Nat × Nat)) (v : Nat) {c : Core} (h : c.memWf = true) :
    (drainVector w scale arrays v c).1.memWf = true := by
  have clear : ∀ (c : Core) (a i : Nat), c.memWf = true → ((List.range 32).foldl (fun c col => c.setAcc a col i 0) c).memWf = true :=
    fun c a i h => Core.memWf_foldl _ _ _ h (fun c x h => Core.setAcc_memWf _ _ _ _ h)
  have fold : ∀ (l : List (Nat × Nat)) (x : Core × List Byte × Nat), x.1.memWf = true →
      (l.foldl (fun (c, bs, clips) (a, cols) =>
        let (b, sat, cl, nn, kv) := drainBytes (cFmt w) scale (c.drainValues a cols (cLfa0 w + v))
        let c := { c with cnt := { c.cnt with outSat := c.cnt.outSat + sat, clip := c.cnt.clip + cl,
                                              nanOut := c.cnt.nanOut + nn, kvSat := c.cnt.kvSat + kv } }
        let c := if cF w then (List.range 32).foldl (fun c col => c.setAcc a col (cLfa0 w + v) 0) c else c
        (c, bs ++ b, clips + cl)) x).1.memWf = true := by
    intro l
    induction l with
    | nil => exact fun _ h => h
    | cons e l ih =>
      intro x h
      refine ih _ ?_
      obtain ⟨c, bs, clips⟩ := x
      obtain ⟨a, cols⟩ := e
      dsimp only
      split
      · exact clear _ _ _ (Core.memWf_of h rfl rfl rfl)
      · exact Core.memWf_of h rfl rfl rfl
  unfold drainVector
  dsimp only
  split
  · exact Core.addClips_memWf _ _ _ (fold arrays (c, [], 0) h)
  · exact fold arrays (c, [], 0) h

theorem runDrain_frame (g : Nat) (e : CmdEntry) (s : State) : Frame (fp.regs + fp.cores + fp.crags + fp.sent) s (runDrain g e s) := by
  unfold runDrain
  repeat' first
    | with_reducible exact Frame.refl _ _
    | (with_reducible apply Frame.step (State.fail_frame ..) rfl ?_)
    | (with_reducible apply Frame.step (State.memWrite_frame ..) rfl ?_)
    | (with_reducible apply Frame.step (State.finishAt_frame ..) rfl ?_)
    | (with_reducible apply Frame.step (State.updCore_frame _ _ _ ?_) rfl ?_)
    | (with_reducible apply Frame.ite ?_ ?_)
    | (with_reducible apply Frame.foldl _ _ ?_ (fun s x => ?_))
    | split
    | (dsimp only; split)
    | (intro h; first | exact drainVector_memWf _ _ _ _ (h _) | exact Core.memWf_of (h _) rfl rfl rfl)

theorem State.arrayDone_frame (s : State) (g : Nat) (e : CmdEntry) (n : Nat) : Frame (fp.cores) s (State.arrayDone s g e n) := by
  unfold State.arrayDone
  repeat' first
    | with_reducible exact Frame.refl _ _
    | (with_reducible apply Frame.step (State.updCore_frame _ _ _ ?_) rfl ?_)
    | (with_reducible apply Frame.step (State.finishAt_frame ..) rfl ?_)
    | split
    | (dsimp only; split)
    | (intro h; (try dsimp only); repeat' (first | with_reducible exact h _ | with_reducible apply Core.memWf_write | with_reducible apply Core.memWf_setByte | exact Core.memWf_of (h _) rfl rfl rfl | exact Core.memWf_of (Core.memWf_write _ _ (h _)) rfl rfl rfl | exact (Core.memWf_iff _).2 ⟨Table.wf_filter 0 _ ((Core.memWf_iff _).1 (h _)).1, ((Core.memWf_iff _).1 (h _)).2⟩ | exact (Core.memWf_iff _).2 ⟨((Core.memWf_iff _).1 (h _)).1, ((Core.memWf_iff _).1 (h _)).2⟩ | split))

theorem runAccBase_frame (g : Nat) (e : CmdEntry) (s : State) : Frame (fp.cores) s (runAccBase g e s) := by
  unfold runAccBase
  repeat' first
    | with_reducible exact Frame.refl _ _
    | (with_reducible apply Frame.step (State.updCore_frame _ _ _ ?_) rfl ?_)
    | (with_reducible apply Frame.step (State.arrayDone_frame ..) rfl ?_)
    | split
    | (dsimp only; split)
    | (intro h; (try dsimp only); repeat' (first | with_reducible exact h _ | with_reducible apply Core.memWf_write | with_reducible apply Core.memWf_setByte | exact Core.memWf_of (h _) rfl rfl rfl | exact Core.memWf_of (Core.memWf_write _ _ (h _)) rfl rfl rfl | exact (Core.memWf_iff _).2 ⟨Table.wf_filter 0 _ ((Core.memWf_iff _).1 (h _)).1, ((Core.memWf_iff _).1 (h _)).2⟩ | exact (Core.memWf_iff _).2 ⟨((Core.memWf_iff _).1 (h _)).1, ((Core.memWf_iff _).1 (h _)).2⟩ | split))

theorem runEdgeCfg_frame (g : Nat) (e : CmdEntry) (s : State) : Frame (fp.cores) s (runEdgeCfg g e s) := by
  unfold runEdgeCfg
  repeat' first
    | with_reducible exact Frame.refl _ _
    | (with_reducible apply Frame.step (State.updCore_frame _ _ _ ?_) rfl ?_)
    | (with_reducible apply Frame.step (State.arrayDone_frame ..) rfl ?_)
    | split
    | (dsimp only; split)
    | (intro h; (try dsimp only); repeat' (first | with_reducible exact h _ | with_reducible apply Core.memWf_write | with_reducible apply Core.memWf_setByte | exact Core.memWf_of (h _) rfl rfl rfl | exact Core.memWf_of (Core.memWf_write _ _ (h _)) rfl rfl rfl | exact (Core.memWf_iff _).2 ⟨Table.wf_filter 0 _ ((Core.memWf_iff _).1 (h _)).1, ((Core.memWf_iff _).1 (h _)).2⟩ | exact (Core.memWf_iff _).2 ⟨((Core.memWf_iff _).1 (h _)).1, ((Core.memWf_iff _).1 (h _)).2⟩ | split))

theorem runKvSetup_frame (g : Nat) (e : CmdEntry) (s : State) : Frame (fp.regs + fp.cores + fp.sent) s (runKvSetup g e s) := by
  unfold runKvSetup
  repeat' first
    | with_reducible exact Frame.refl _ _
    | (with_reducible apply Frame.step (State.fail_frame ..) rfl ?_)
    | (with_reducible apply Frame.step (State.updCore_frame _ _ _ ?_) rfl ?_)
    | (with_reducible apply Frame.step (State.arrayDone_frame ..) rfl ?_)
    | (with_reducible apply Frame.ite ?_ ?_)
    | split
    | (dsimp only; split)
    | (intro h; (try dsimp only); repeat' (first | with_reducible exact h _ | with_reducible apply Core.memWf_write | with_reducible apply Core.memWf_setByte | exact Core.memWf_of (h _) rfl rfl rfl | exact Core.memWf_of (Core.memWf_write _ _ (h _)) rfl rfl rfl | exact (Core.memWf_iff _).2 ⟨Table.wf_filter 0 _ ((Core.memWf_iff _).1 (h _)).1, ((Core.memWf_iff _).1 (h _)).2⟩ | exact (Core.memWf_iff _).2 ⟨((Core.memWf_iff _).1 (h _)).1, ((Core.memWf_iff _).1 (h _)).2⟩ | split))

theorem runKvSpec_frame (g : Nat) (e : CmdEntry) (s : State) : Frame (fp.regs + fp.cores + fp.sent) s (runKvSpec g e s) := by
  unfold runKvSpec
  repeat' first
    | with_reducible exact Frame.refl _ _
    | (with_reducible apply Frame.step (State.fail_frame ..) rfl ?_)
    | (with_reducible apply Frame.step (State.updCore_frame _ _ _ ?_) rfl ?_)
    | (with_reducible apply Frame.step (State.arrayDone_frame ..) rfl ?_)
    | (with_reducible apply Frame.ite ?_ ?_)
    | split
    | (dsimp only; split)
    | (intro h; (try dsimp only); repeat' (first | with_reducible exact h _ | with_reducible apply Core.memWf_write | with_reducible apply Core.memWf_setByte | exact Core.memWf_of (h _) rfl rfl rfl | exact Core.memWf_of (Core.memWf_write _ _ (h _)) rfl rfl rfl | exact (Core.memWf_iff _).2 ⟨Table.wf_filter 0 _ ((Core.memWf_iff _).1 (h _)).1, ((Core.memWf_iff _).1 (h _)).2⟩ | exact (Core.memWf_iff _).2 ⟨((Core.memWf_iff _).1 (h _)).1, ((Core.memWf_iff _).1 (h _)).2⟩ | split))

theorem runKvMapload_frame (g : Nat) (e : CmdEntry) (s : State) : Frame (fp.regs + fp.cores + fp.sent) s (runKvMapload g e s) := by
  unfold runKvMapload
  repeat' first
    | with_reducible exact Frame.refl _ _
    | (with_reducible apply Frame.step (State.fail_frame ..) rfl ?_)
    | (with_reducible apply Frame.step (State.arrayDone_frame ..) rfl ?_)
    | (with_reducible apply Frame.step (State.updCore_frame _ _ _ ?_) rfl ?_)
    | (with_reducible apply Frame.ite ?_ ?_)
    | (with_reducible apply Frame.foldl _ _ ?_ (fun s x => ?_))
    | split
    | (dsimp only; split)
    | (intro h; (try dsimp only); repeat' (first | with_reducible exact h _ | with_reducible apply Core.memWf_write | with_reducible apply Core.memWf_setByte | exact Core.memWf_of (h _) rfl rfl rfl | exact Core.memWf_of (Core.memWf_write _ _ (h _)) rfl rfl rfl | exact (Core.memWf_iff _).2 ⟨Table.wf_filter 0 _ ((Core.memWf_iff _).1 (h _)).1, ((Core.memWf_iff _).1 (h _)).2⟩ | exact (Core.memWf_iff _).2 ⟨((Core.memWf_iff _).1 (h _)).1, ((Core.memWf_iff _).1 (h _)).2⟩ | with_reducible apply Core.cachePut_memWf | exact Core.memWf_of (d := Core.cachePut ..) (Core.cachePut_memWf (h := h _) ..) rfl rfl rfl | exact Core.memWf_foldl _ _ _ (h _) (fun _ _ h => Core.cachePut_memWf (h := h) ..) | split))

end Sys2Proof.Machine
end

