-- ==== Sys2Proof/Laws/FrameAttention.lean ====
section
/-! SUPPORT. Frames of the operations of Machine/Attention.lean. -/

namespace Sys2Proof.Machine

theorem streamEffect_memWf (w : Nat) (l : List KvPos) {c : Core} (h : c.memWf = true) : (streamEffect w l c).memWf = true := by
  unfold streamEffect
  exact Core.memWf_foldl _ _ _ h (fun c ks h => Core.memWf_of h rfl rfl rfl)

theorem runQload_frame (g : Nat) (e : CmdEntry) (s : State) : Frame (fp.regs + fp.cores + fp.sent) s (runQload g e s) := by
  unfold runQload
  repeat' first
    | with_reducible exact Frame.refl _ _
    | (with_reducible apply Frame.step (State.fail_frame ..) rfl ?_)
    | (with_reducible apply Frame.step (State.updCore_frame _ _ _ ?_) rfl ?_)
    | (with_reducible apply Frame.step (State.finishAt_frame ..) rfl ?_)
    | (with_reducible apply Frame.ite ?_ ?_)
    | split
    | (dsimp only; split)
    | (intro h; (try dsimp only); repeat' (first | with_reducible exact h _ | with_reducible apply Core.memWf_write | with_reducible apply Core.memWf_setByte | exact Core.memWf_of (h _) rfl rfl rfl | exact Core.memWf_of (Core.memWf_write _ _ (h _)) rfl rfl rfl | exact (Core.memWf_iff _).2 ⟨Table.wf_filter 0 _ ((Core.memWf_iff _).1 (h _)).1, ((Core.memWf_iff _).1 (h _)).2⟩ | exact (Core.memWf_iff _).2 ⟨((Core.memWf_iff _).1 (h _)).1, ((Core.memWf_iff _).1 (h _)).2⟩ | split))

theorem startStream_frame (s : State) (g : Nat) (e : CmdEntry) : Frame (fp.cores) s (startStream s g e) := by
  unfold startStream
  repeat' first
    | with_reducible exact Frame.refl _ _
    | (with_reducible apply Frame.step (State.updCore_frame _ _ _ ?_) rfl ?_)
    | (with_reducible apply Frame.step (State.finishAt_frame ..) rfl ?_)
    | (with_reducible apply Frame.ite ?_ ?_)
    | split
    | (dsimp only; split)
    | (intro h; (try dsimp only); repeat' (first | with_reducible exact h _ | with_reducible apply Core.memWf_write | with_reducible apply Core.memWf_setByte | exact Core.memWf_of (h _) rfl rfl rfl | exact Core.memWf_of (Core.memWf_write _ _ (h _)) rfl rfl rfl | exact (Core.memWf_iff _).2 ⟨Table.wf_filter 0 _ ((Core.memWf_iff _).1 (h _)).1, ((Core.memWf_iff _).1 (h _)).2⟩ | exact (Core.memWf_iff _).2 ⟨((Core.memWf_iff _).1 (h _)).1, ((Core.memWf_iff _).1 (h _)).2⟩ | with_reducible apply streamEffect_memWf | exact Core.memWf_of (d := streamEffect ..) (streamEffect_memWf (h := h _) ..) rfl rfl rfl | exact Core.memWf_foldl _ _ _ (h _) (fun _ _ h => streamEffect_memWf (h := h) ..) | split))

theorem runStream_frame (g : Nat) (e : CmdEntry) (s : State) : Frame (fp.regs + fp.cores + fp.sent) s (runStream g e s) := by
  unfold runStream
  repeat' first
    | with_reducible exact Frame.refl _ _
    | (with_reducible apply Frame.step (State.fail_frame ..) rfl ?_)
    | (with_reducible apply Frame.step (startStream_frame ..) rfl ?_)
    | (with_reducible apply Frame.step (State.issueOpen_frame ..) rfl ?_)
    | (with_reducible apply Frame.ite ?_ ?_)
    | split
    | (dsimp only; split)

theorem runFinish_frame (g : Nat) (e : CmdEntry) (s : State) : Frame (fp.regs + fp.cores + fp.crags + fp.sent) s (runFinish g e s) := by
  unfold runFinish
  repeat' first
    | with_reducible exact Frame.refl _ _
    | (with_reducible apply Frame.step (State.fail_frame ..) rfl ?_)
    | (with_reducible apply Frame.step (State.memWrite_frame ..) rfl ?_)
    | (with_reducible apply Frame.step (State.updCore_frame _ _ _ ?_) rfl ?_)
    | (with_reducible apply Frame.step (State.finishAt_frame ..) rfl ?_)
    | (with_reducible apply Frame.ite ?_ ?_)
    | split
    | (dsimp only; split)
    | (intro h; (try dsimp only); repeat' (first | with_reducible exact h _ | with_reducible apply Core.memWf_write | with_reducible apply Core.memWf_setByte | exact Core.memWf_of (h _) rfl rfl rfl | exact Core.memWf_of (Core.memWf_write _ _ (h _)) rfl rfl rfl | exact (Core.memWf_iff _).2 ⟨Table.wf_filter 0 _ ((Core.memWf_iff _).1 (h _)).1, ((Core.memWf_iff _).1 (h _)).2⟩ | exact (Core.memWf_iff _).2 ⟨((Core.memWf_iff _).1 (h _)).1, ((Core.memWf_iff _).1 (h _)).2⟩ | split))

end Sys2Proof.Machine
end

