-- ==== Sys2Proof/Laws/FrameWide.lean ====
section
/-! SUPPORT. Frames of the operations of Machine/Wide.lean. -/

namespace Sys2Proof.Machine

theorem State.wideDone_frame (s : State) (g : Nat) (e : CmdEntry) (busy lat : Nat) : Frame (fp.cores) s (State.wideDone s g e busy lat) := by
  unfold State.wideDone
  repeat' first
    | with_reducible exact Frame.refl _ _
    | (with_reducible apply Frame.step (State.updCore_frame _ _ _ ?_) rfl ?_)
    | (with_reducible apply Frame.step (State.finishAt_frame ..) rfl ?_)
    | split
    | (dsimp only; split)
    | (intro h; (try dsimp only); repeat' (first | with_reducible exact h _ | with_reducible apply Core.memWf_write | with_reducible apply Core.memWf_setByte | exact Core.memWf_of (h _) rfl rfl rfl | exact Core.memWf_of (Core.memWf_write _ _ (h _)) rfl rfl rfl | exact (Core.memWf_iff _).2 ⟨Table.wf_filter 0 _ ((Core.memWf_iff _).1 (h _)).1, ((Core.memWf_iff _).1 (h _)).2⟩ | exact (Core.memWf_iff _).2 ⟨((Core.memWf_iff _).1 (h _)).1, ((Core.memWf_iff _).1 (h _)).2⟩ | split))

theorem State.wuRun_frame (s : State) (g : Nat) (e : CmdEntry) (ranges : List (Nat × Nat)) (lat : Nat) (out : Core → List Byte) : Frame (fp.regs + fp.cores + fp.crags + fp.sent) s (State.wuRun s g e ranges lat out) := by
  unfold State.wuRun
  repeat' first
    | with_reducible exact Frame.refl _ _
    | (with_reducible apply Frame.step (State.fail_frame ..) rfl ?_)
    | (with_reducible apply Frame.step (State.memWrite_frame ..) rfl ?_)
    | (with_reducible apply Frame.step (State.wideDone_frame ..) rfl ?_)
    | (with_reducible apply Frame.ite ?_ ?_)
    | split
    | (dsimp only; split)

theorem runBinary_frame (f : F32 → F32 → F32) (lat : Nat) (m : WuFmt) (g : Nat) (e : CmdEntry) (s : State) : Frame (fp.regs + fp.cores + fp.crags + fp.sent) s (runBinary f lat m g e s) := by
  unfold runBinary
  repeat' first
    | with_reducible exact Frame.refl _ _
    | (with_reducible apply Frame.step (State.wuRun_frame ..) rfl ?_)
    | split
    | (dsimp only; split)

theorem runUnary_frame (f : F32 → F32) (lat : Nat) (m : WuFmt) (g : Nat) (e : CmdEntry) (s : State) : Frame (fp.regs + fp.cores + fp.crags + fp.sent) s (runUnary f lat m g e s) := by
  unfold runUnary
  repeat' first
    | with_reducible exact Frame.refl _ _
    | (with_reducible apply Frame.step (State.wuRun_frame ..) rfl ?_)
    | split
    | (dsimp only; split)

theorem runFma_frame (m : WuFmt) (g : Nat) (e : CmdEntry) (s : State) : Frame (fp.regs + fp.cores + fp.crags + fp.sent) s (runFma m g e s) := by
  unfold runFma
  repeat' first
    | with_reducible exact Frame.refl _ _
    | (with_reducible apply Frame.step (State.wuRun_frame ..) rfl ?_)
    | split
    | (dsimp only; split)

theorem runReduce_frame (m : WuFmt) (g : Nat) (e : CmdEntry) (s : State) : Frame (fp.regs + fp.cores + fp.crags + fp.sent) s (runReduce m g e s) := by
  unfold runReduce
  repeat' first
    | with_reducible exact Frame.refl _ _
    | (with_reducible apply Frame.step (State.wuRun_frame ..) rfl ?_)
    | split
    | (dsimp only; split)

theorem runRope_frame (m : WuFmt) (half : Bool) (g : Nat) (e : CmdEntry) (s : State) : Frame (fp.regs + fp.cores + fp.crags + fp.sent) s (runRope m half g e s) := by
  unfold runRope
  repeat' first
    | with_reducible exact Frame.refl _ _
    | (with_reducible apply Frame.step (State.wuRun_frame ..) rfl ?_)
    | (with_reducible apply Frame.ite ?_ ?_)
    | split
    | (dsimp only; split)

theorem runCvt_frame (g : Nat) (e : CmdEntry) (s : State) : Frame (fp.regs + fp.cores + fp.crags + fp.sent) s (runCvt g e s) := by
  unfold runCvt
  repeat' first
    | with_reducible exact Frame.refl _ _
    | (with_reducible apply Frame.step (State.fail_frame ..) rfl ?_)
    | (with_reducible apply Frame.step (State.updCore_frame _ _ _ ?_) rfl ?_)
    | (with_reducible apply Frame.step (State.memWrite_frame ..) rfl ?_)
    | (with_reducible apply Frame.step (State.wideDone_frame ..) rfl ?_)
    | (with_reducible apply Frame.ite ?_ ?_)
    | split
    | (dsimp only; split)
    | (intro h; (try dsimp only); repeat' (first | with_reducible exact h _ | with_reducible apply Core.memWf_write | with_reducible apply Core.memWf_setByte | exact Core.memWf_of (h _) rfl rfl rfl | exact Core.memWf_of (Core.memWf_write _ _ (h _)) rfl rfl rfl | exact (Core.memWf_iff _).2 ⟨Table.wf_filter 0 _ ((Core.memWf_iff _).1 (h _)).1, ((Core.memWf_iff _).1 (h _)).2⟩ | exact (Core.memWf_iff _).2 ⟨((Core.memWf_iff _).1 (h _)).1, ((Core.memWf_iff _).1 (h _)).2⟩ | with_reducible apply Core.addClips_memWf | exact Core.memWf_of (d := Core.addClips ..) (Core.addClips_memWf (h := h _) ..) rfl rfl rfl | exact Core.memWf_foldl _ _ _ (h _) (fun _ _ h => Core.addClips_memWf (h := h) ..) | split))

theorem runSpdelta_frame (xlen : Nat) (g : Nat) (e : CmdEntry) (s : State) : Frame (fp.regs + fp.cores + fp.crags + fp.sent) s (runSpdelta xlen g e s) := by
  unfold runSpdelta
  repeat' first
    | with_reducible exact Frame.refl _ _
    | (with_reducible apply Frame.step (State.fail_frame ..) rfl ?_)
    | (with_reducible apply Frame.step (State.updCore_frame _ _ _ ?_) rfl ?_)
    | (with_reducible apply Frame.step (State.memWrite_frame ..) rfl ?_)
    | (with_reducible apply Frame.step (State.wideDone_frame ..) rfl ?_)
    | (with_reducible apply Frame.ite ?_ ?_)
    | split
    | (dsimp only; split)
    | (intro h; (try dsimp only); repeat' (first | with_reducible exact h _ | with_reducible apply Core.memWf_write | with_reducible apply Core.memWf_setByte | exact Core.memWf_of (h _) rfl rfl rfl | exact Core.memWf_of (Core.memWf_write _ _ (h _)) rfl rfl rfl | exact (Core.memWf_iff _).2 ⟨Table.wf_filter 0 _ ((Core.memWf_iff _).1 (h _)).1, ((Core.memWf_iff _).1 (h _)).2⟩ | exact (Core.memWf_iff _).2 ⟨((Core.memWf_iff _).1 (h _)).1, ((Core.memWf_iff _).1 (h _)).2⟩ | split))

theorem startCopy_frame (s : State) (g : Nat) (e : CmdEntry) : Frame (fp.regs + fp.cores + fp.crags) s (startCopy s g e) := by
  unfold startCopy
  repeat' first
    | with_reducible exact Frame.refl _ _
    | (with_reducible apply Frame.step (State.memWrite_frame ..) rfl ?_)
    | (with_reducible apply Frame.step (State.updCore_frame _ _ _ ?_) rfl ?_)
    | (with_reducible apply Frame.step (State.wideDone_frame ..) rfl ?_)
    | split
    | (dsimp only; split)
    | (intro h; (try dsimp only); repeat' (first | with_reducible exact h _ | with_reducible apply Core.memWf_write | with_reducible apply Core.memWf_setByte | exact Core.memWf_of (h _) rfl rfl rfl | exact Core.memWf_of (Core.memWf_write _ _ (h _)) rfl rfl rfl | exact (Core.memWf_iff _).2 ⟨Table.wf_filter 0 _ ((Core.memWf_iff _).1 (h _)).1, ((Core.memWf_iff _).1 (h _)).2⟩ | exact (Core.memWf_iff _).2 ⟨((Core.memWf_iff _).1 (h _)).1, ((Core.memWf_iff _).1 (h _)).2⟩ | split))

theorem runCopy_frame (g : Nat) (e : CmdEntry) (s : State) : Frame (fp.regs + fp.cores + fp.crags + fp.sent) s (runCopy g e s) := by
  unfold runCopy
  repeat' first
    | with_reducible exact Frame.refl _ _
    | (with_reducible apply Frame.step (State.fail_frame ..) rfl ?_)
    | (with_reducible apply Frame.step (startCopy_frame ..) rfl ?_)
    | (with_reducible apply Frame.step (State.issueOpen_frame ..) rfl ?_)
    | (with_reducible apply Frame.ite ?_ ?_)
    | split
    | (dsimp only; split)

theorem slabReadPortStart_frame (s : State) (g : Nat) : Frame (fp.regs + fp.cores + fp.crags) s (slabReadPortStart s g) := by
  unfold slabReadPortStart
  repeat' first
    | with_reducible exact Frame.refl _ _
    | (with_reducible apply Frame.step (startPass_frame ..) rfl ?_)
    | (with_reducible apply Frame.step (startStream_frame ..) rfl ?_)
    | (with_reducible apply Frame.step (startCopy_frame ..) rfl ?_)
    | (with_reducible apply Frame.ite ?_ ?_)
    | split
    | (dsimp only; split)

end Sys2Proof.Machine
end

