-- ==== Sys2Proof/Laws/FrameSync.lean ====
section
/-! SUPPORT. Frames of the operations of Machine/Sync.lean. -/

namespace Sys2Proof.Machine

theorem Core.updWin_memWf {c : Core} (wid : Nat) (f : Window → Window) (h : c.memWf = true) : (Core.updWin c wid f).memWf = true := by
  unfold Core.updWin
  try dsimp only
  repeat' (first | with_reducible exact h | exact Core.memWf_of h rfl rfl rfl | split)

theorem Core.setSem_memWf {c : Core} (sid v : Nat) (h : c.memWf = true) : (Core.setSem c sid v).memWf = true := by
  unfold Core.setSem
  try dsimp only
  repeat' (first | with_reducible exact h | exact Core.memWf_of h rfl rfl rfl | split)

theorem runWinOpen_frame (g : Nat) (e : CmdEntry) (s : State) : Frame (fp.regs + fp.cores + fp.sent) s (runWinOpen g e s) := by
  unfold runWinOpen
  repeat' first
    | with_reducible exact Frame.refl _ _
    | (with_reducible apply Frame.step (State.fail_frame ..) rfl ?_)
    | (with_reducible apply Frame.step (State.stamp_frame ..) rfl ?_)
    | (with_reducible apply Frame.step (State.updCore_frame _ _ _ ?_) rfl ?_)
    | (with_reducible apply Frame.step (State.finishAt_frame ..) rfl ?_)
    | (with_reducible apply Frame.ite ?_ ?_)
    | split
    | (dsimp only; split)
    | (intro h; (try dsimp only); repeat' (first | with_reducible exact h _ | with_reducible apply Core.memWf_write | with_reducible apply Core.memWf_setByte | exact Core.memWf_of (h _) rfl rfl rfl | exact Core.memWf_of (Core.memWf_write _ _ (h _)) rfl rfl rfl | exact (Core.memWf_iff _).2 ⟨Table.wf_filter 0 _ ((Core.memWf_iff _).1 (h _)).1, ((Core.memWf_iff _).1 (h _)).2⟩ | exact (Core.memWf_iff _).2 ⟨((Core.memWf_iff _).1 (h _)).1, ((Core.memWf_iff _).1 (h _)).2⟩ | with_reducible apply Core.updWin_memWf | exact Core.memWf_of (d := Core.updWin ..) (Core.updWin_memWf (h := h _) ..) rfl rfl rfl | exact Core.memWf_foldl _ _ _ (h _) (fun _ _ h => Core.updWin_memWf (h := h) ..) | split))

theorem runWinClose_frame (g : Nat) (e : CmdEntry) (s : State) : Frame (fp.regs + fp.cores + fp.sent) s (runWinClose g e s) := by
  unfold runWinClose
  repeat' first
    | with_reducible exact Frame.refl _ _
    | (with_reducible apply Frame.step (State.fail_frame ..) rfl ?_)
    | (with_reducible apply Frame.step (State.updCore_frame _ _ _ ?_) rfl ?_)
    | (with_reducible apply Frame.step (State.finishAt_frame ..) rfl ?_)
    | (with_reducible apply Frame.ite ?_ ?_)
    | split
    | (dsimp only; split)
    | (intro h; (try dsimp only); repeat' (first | with_reducible exact h _ | with_reducible apply Core.memWf_write | with_reducible apply Core.memWf_setByte | exact Core.memWf_of (h _) rfl rfl rfl | exact Core.memWf_of (Core.memWf_write _ _ (h _)) rfl rfl rfl | exact (Core.memWf_iff _).2 ⟨Table.wf_filter 0 _ ((Core.memWf_iff _).1 (h _)).1, ((Core.memWf_iff _).1 (h _)).2⟩ | exact (Core.memWf_iff _).2 ⟨((Core.memWf_iff _).1 (h _)).1, ((Core.memWf_iff _).1 (h _)).2⟩ | with_reducible apply Core.updWin_memWf | exact Core.memWf_of (d := Core.updWin ..) (Core.updWin_memWf (h := h _) ..) rfl rfl rfl | exact Core.memWf_foldl _ _ _ (h _) (fun _ _ h => Core.updWin_memWf (h := h) ..) | split))

theorem runWinWait_frame (g : Nat) (e : CmdEntry) (s : State) : Frame (fp.regs + fp.cores + fp.sent) s (runWinWait g e s) := by
  unfold runWinWait
  repeat' first
    | with_reducible exact Frame.refl _ _
    | (with_reducible apply Frame.step (State.fail_frame ..) rfl ?_)
    | (with_reducible apply Frame.step (State.issueOpen_frame ..) rfl ?_)
    | (with_reducible apply Frame.step (State.finishAt_frame ..) rfl ?_)
    | (with_reducible apply Frame.ite ?_ ?_)
    | split
    | (dsimp only; split)

theorem State.raiseSem_frame (s : State) (g sid idx : Nat) : Frame (fp.regs + fp.cores + fp.sent) s (State.raiseSem s g sid idx) := by
  unfold State.raiseSem
  repeat' first
    | with_reducible exact Frame.refl _ _
    | (with_reducible apply Frame.step (State.stepErr_frame ..) rfl ?_)
    | (with_reducible apply Frame.step (State.updCore_frame _ _ _ ?_) rfl ?_)
    | (with_reducible apply Frame.ite ?_ ?_)
    | split
    | (dsimp only; split)
    | (intro h; (try dsimp only); repeat' (first | with_reducible exact h _ | with_reducible apply Core.memWf_write | with_reducible apply Core.memWf_setByte | exact Core.memWf_of (h _) rfl rfl rfl | exact Core.memWf_of (Core.memWf_write _ _ (h _)) rfl rfl rfl | exact (Core.memWf_iff _).2 ⟨Table.wf_filter 0 _ ((Core.memWf_iff _).1 (h _)).1, ((Core.memWf_iff _).1 (h _)).2⟩ | exact (Core.memWf_iff _).2 ⟨((Core.memWf_iff _).1 (h _)).1, ((Core.memWf_iff _).1 (h _)).2⟩ | with_reducible apply Core.setSem_memWf | exact Core.memWf_of (d := Core.setSem ..) (Core.setSem_memWf (h := h _) ..) rfl rfl rfl | exact Core.memWf_foldl _ _ _ (h _) (fun _ _ h => Core.setSem_memWf (h := h) ..) | split))

theorem runSemSignal_frame (g : Nat) (e : CmdEntry) (s : State) : Frame (fp.regs + fp.cores + fp.sent) s (runSemSignal g e s) := by
  unfold runSemSignal
  repeat' first
    | with_reducible exact Frame.refl _ _
    | (with_reducible apply Frame.step (State.raiseSem_frame ..) rfl ?_)
    | (with_reducible apply Frame.step (State.finishAt_frame ..) rfl ?_)
    | split
    | (dsimp only; split)

theorem runSemWait_frame (g : Nat) (e : CmdEntry) (s : State) : Frame (fp.cores) s (runSemWait g e s) := by
  unfold runSemWait
  repeat' first
    | with_reducible exact Frame.refl _ _
    | (with_reducible apply Frame.step (State.issueOpen_frame ..) rfl ?_)
    | split
    | (dsimp only; split)

theorem State.showDead_frame (s : State) (g : Nat) : Frame (fp.regs + fp.sent) s (State.showDead s g) := by
  unfold State.showDead
  repeat' first
    | with_reducible exact Frame.refl _ _
    | (with_reducible apply Frame.step (State.setFlag_frame ..) rfl ?_)
    | (with_reducible apply Frame.step (State.err_frame ..) rfl ?_)
    | (with_reducible apply Frame.ite ?_ ?_)
    | split
    | (dsimp only; split)

theorem State.addDead_frame (s : State) (p src cause path : Nat) : Frame (fp.regs + fp.parts + fp.sent) s (State.addDead s p src cause path) := by
  unfold State.addDead
  repeat' first
    | with_reducible exact Frame.refl _ _
    | (with_reducible apply Frame.step (State.showDead_frame ..) rfl ?_)
    | (with_reducible apply Frame.step (State.updPart_frame ..) rfl ?_)
    | (with_reducible apply Frame.ite ?_ ?_)
    | split
    | (dsimp only; split)

theorem State.declare_frame (s : State) (p src cause path : Nat) : Frame (fp.regs + fp.cores + fp.parts + fp.sent) s (State.declare s p src cause path) := by
  unfold State.declare
  repeat' first
    | with_reducible exact Frame.refl _ _
    | (with_reducible apply Frame.step (State.setFlag_frame ..) rfl ?_)
    | (with_reducible apply Frame.step (State.inc_frame ..) rfl ?_)
    | (with_reducible apply Frame.step (State.keepRole_frame ..) rfl ?_)
    | (with_reducible apply Frame.step (State.addDead_frame ..) rfl ?_)
    | (with_reducible apply Frame.step (State.wr_frame ..) rfl ?_)
    | (with_reducible apply Frame.step (State.updPart_frame ..) rfl ?_)
    | (with_reducible apply Frame.step (State.updCore_frame _ _ _ ?_) rfl ?_)
    | (with_reducible apply Frame.ite ?_ ?_)
    | split
    | (dsimp only; split)
    | (intro h; (try dsimp only); repeat' (first | with_reducible exact h _ | with_reducible apply Core.memWf_write | with_reducible apply Core.memWf_setByte | exact Core.memWf_of (h _) rfl rfl rfl | exact Core.memWf_of (Core.memWf_write _ _ (h _)) rfl rfl rfl | exact (Core.memWf_iff _).2 ⟨Table.wf_filter 0 _ ((Core.memWf_iff _).1 (h _)).1, ((Core.memWf_iff _).1 (h _)).2⟩ | exact (Core.memWf_iff _).2 ⟨((Core.memWf_iff _).1 (h _)).1, ((Core.memWf_iff _).1 (h _)).2⟩ | split))

end Sys2Proof.Machine
end

