-- ==== Sys2Proof/Laws/FrameMesh.lean ====
section
/-! SUPPORT. Frames of the operations of Machine/Mesh.lean. -/

namespace Sys2Proof.Machine

theorem runSend_frame (g : Nat) (e : CmdEntry) (s : State) : Frame (fp.regs + fp.cores + fp.sent) s (runSend g e s) := by
  unfold runSend
  repeat' first
    | with_reducible exact Frame.refl _ _
    | (with_reducible apply Frame.step (State.fail_frame ..) rfl ?_)
    | (with_reducible apply Frame.step (State.updCore_frame _ _ _ ?_) rfl ?_)
    | (with_reducible apply Frame.step (State.issueOpen_frame ..) rfl ?_)
    | (with_reducible apply Frame.ite ?_ ?_)
    | split
    | (dsimp only; split)
    | (intro h; (try dsimp only); repeat' (first | with_reducible exact h _ | with_reducible apply Core.memWf_write | with_reducible apply Core.memWf_setByte | exact Core.memWf_of (h _) rfl rfl rfl | exact Core.memWf_of (Core.memWf_write _ _ (h _)) rfl rfl rfl | exact (Core.memWf_iff _).2 ⟨Table.wf_filter 0 _ ((Core.memWf_iff _).1 (h _)).1, ((Core.memWf_iff _).1 (h _)).2⟩ | exact (Core.memWf_iff _).2 ⟨((Core.memWf_iff _).1 (h _)).1, ((Core.memWf_iff _).1 (h _)).2⟩ | split))

theorem runSendSpine_frame (g : Nat) (e : CmdEntry) (s : State) : Frame (fp.regs + fp.cores + fp.sent) s (runSendSpine g e s) := by
  unfold runSendSpine
  repeat' first
    | with_reducible exact Frame.refl _ _
    | (with_reducible apply Frame.step (State.fail_frame ..) rfl ?_)
    | (with_reducible apply Frame.step (State.updCore_frame _ _ _ ?_) rfl ?_)
    | (with_reducible apply Frame.step (State.issueOpen_frame ..) rfl ?_)
    | (with_reducible apply Frame.ite ?_ ?_)
    | split
    | (dsimp only; split)
    | (intro h; (try dsimp only); repeat' (first | with_reducible exact h _ | with_reducible apply Core.memWf_write | with_reducible apply Core.memWf_setByte | exact Core.memWf_of (h _) rfl rfl rfl | exact Core.memWf_of (Core.memWf_write _ _ (h _)) rfl rfl rfl | exact (Core.memWf_iff _).2 ⟨Table.wf_filter 0 _ ((Core.memWf_iff _).1 (h _)).1, ((Core.memWf_iff _).1 (h _)).2⟩ | exact (Core.memWf_iff _).2 ⟨((Core.memWf_iff _).1 (h _)).1, ((Core.memWf_iff _).1 (h _)).2⟩ | split))

theorem State.routerQueueErr_frame (s : State) (g : Nat) : Frame (fp.regs + fp.parts + fp.sent) s (State.routerQueueErr s g) := by
  unfold State.routerQueueErr
  repeat' first
    | with_reducible exact Frame.refl _ _
    | (with_reducible apply Frame.step (State.err_frame ..) rfl ?_)
    | (with_reducible apply Frame.step (State.updPart_frame ..) rfl ?_)
    | split
    | (dsimp only; split)

theorem State.meshCount_frame (s : State) (g : Nat) (f : Field) (b : Nat) : Frame (fp.regs + fp.sent) s (State.meshCount s g f b) := by
  unfold State.meshCount
  repeat' first
    | with_reducible exact Frame.refl _ _
    | (with_reducible apply Frame.step (State.inc_frame ..) rfl ?_)
    | (with_reducible apply Frame.step (State.err_frame ..) rfl ?_)
    | split
    | (dsimp only; split)

theorem State.launch_frame (s : State) (p dst port delay : Nat) (f : Flit) : Frame (fp.links) s (State.launch s p dst port delay f) := by
  unfold State.launch
  repeat' first
    | with_reducible exact Frame.refl _ _
    | (with_reducible apply Frame.step (State.setLinks_frame ..) rfl ?_)
    | split
    | (dsimp only; split)

theorem State.cross_frame (s : State) (g o port label out : Nat) (f : Flit) : Frame (fp.regs + fp.cores + fp.links + fp.sent) s (State.cross s g o port label out f) := by
  unfold State.cross
  repeat' first
    | with_reducible exact Frame.refl _ _
    | (with_reducible apply Frame.step (State.err_frame ..) rfl ?_)
    | (with_reducible apply Frame.step (State.stepErr_frame ..) rfl ?_)
    | (with_reducible apply Frame.step (State.launch_frame ..) rfl ?_)
    | (with_reducible apply Frame.step (State.updCore_frame _ _ _ ?_) rfl ?_)
    | (with_reducible apply Frame.ite ?_ ?_)
    | split
    | (dsimp only; split)
    | (intro h; (try dsimp only); repeat' (first | with_reducible exact h _ | with_reducible apply Core.memWf_write | with_reducible apply Core.memWf_setByte | exact Core.memWf_of (h _) rfl rfl rfl | exact Core.memWf_of (Core.memWf_write _ _ (h _)) rfl rfl rfl | exact (Core.memWf_iff _).2 ⟨Table.wf_filter 0 _ ((Core.memWf_iff _).1 (h _)).1, ((Core.memWf_iff _).1 (h _)).2⟩ | exact (Core.memWf_iff _).2 ⟨((Core.memWf_iff _).1 (h _)).1, ((Core.memWf_iff _).1 (h _)).2⟩ | split))

theorem State.crossAll_frame (s : State) (g : Nat) (os : List Nat) (port label out : Nat) (f : Flit) : Frame (fp.regs + fp.cores + fp.links + fp.sent) s (State.crossAll s g os port label out f) := by
  unfold State.crossAll
  repeat' first
    | with_reducible exact Frame.refl _ _
    | (with_reducible apply Frame.step (State.cross_frame ..) rfl ?_)
    | (with_reducible apply Frame.foldl _ _ ?_ (fun s x => ?_))
    | split
    | (dsimp only; split)

theorem State.usePorts_frame (s : State) (g : Nat) (os : List Nat) : Frame (fp.routers) s (State.usePorts s g os) := by
  unfold State.usePorts
  repeat' first
    | with_reducible exact Frame.refl _ _
    | (with_reducible apply Frame.step (State.updRouter_frame ..) rfl ?_)
    | (with_reducible apply Frame.ite ?_ ?_)
    | split
    | (dsimp only; split)

theorem State.popInj_frame (s : State) (k : Nat) : Frame (fp.cores) s (State.popInj s k) := by
  unfold State.popInj
  repeat' first
    | with_reducible exact Frame.refl _ _
    | (with_reducible apply Frame.step (State.updCore_frame _ _ _ ?_) rfl ?_)
    | (with_reducible apply Frame.step (State.finishAt_frame ..) rfl ?_)
    | split
    | (dsimp only; split)
    | (intro h; (try dsimp only); repeat' (first | with_reducible exact h _ | with_reducible apply Core.memWf_write | with_reducible apply Core.memWf_setByte | exact Core.memWf_of (h _) rfl rfl rfl | exact Core.memWf_of (Core.memWf_write _ _ (h _)) rfl rfl rfl | exact (Core.memWf_iff _).2 ⟨Table.wf_filter 0 _ ((Core.memWf_iff _).1 (h _)).1, ((Core.memWf_iff _).1 (h _)).2⟩ | exact (Core.memWf_iff _).2 ⟨((Core.memWf_iff _).1 (h _)).1, ((Core.memWf_iff _).1 (h _)).2⟩ | split))

theorem State.redOperand_frame (s : State) (g port entry : Nat) (f : Flit) : Frame (fp.regs + fp.routers + fp.parts + fp.sent) s (State.redOperand s g port entry f) := by
  unfold State.redOperand
  repeat' first
    | with_reducible exact Frame.refl _ _
    | (with_reducible apply Frame.step (State.stamp_frame ..) rfl ?_)
    | (with_reducible apply Frame.step (State.routerQueueErr_frame ..) rfl ?_)
    | (with_reducible apply Frame.step (State.updRouter_frame ..) rfl ?_)
    | (with_reducible apply Frame.ite ?_ ?_)
    | split
    | (dsimp only; split)

theorem State.slotMissed_frame (s : State) (k : Nat) (es : List Nat) : Frame (fp.regs + fp.cores + fp.sent) s (State.slotMissed s k es) := by
  unfold State.slotMissed
  repeat' first
    | with_reducible exact Frame.refl _ _
    | (with_reducible apply Frame.step (State.stepErr_frame ..) rfl ?_)
    | (with_reducible apply Frame.ite ?_ ?_)
    | split
    | (dsimp only; split)

theorem slotInjection_frame (s : State) (g : Nat) : Frame (fp.regs + fp.cores + fp.routers + fp.links + fp.parts + fp.sent) s (slotInjection s g) := by
  unfold slotInjection
  repeat' first
    | with_reducible exact Frame.refl _ _
    | (with_reducible apply Frame.step (State.crossAll_frame ..) rfl ?_)
    | (with_reducible apply Frame.step (State.usePorts_frame ..) rfl ?_)
    | (with_reducible apply Frame.step (State.popInj_frame ..) rfl ?_)
    | (with_reducible apply Frame.step (State.redOperand_frame ..) rfl ?_)
    | (with_reducible apply Frame.step (State.slotMissed_frame ..) rfl ?_)
    | (with_reducible apply Frame.step (State.meshCount_frame ..) rfl ?_)
    | (with_reducible apply Frame.ite ?_ ?_)
    | split
    | (dsimp only; split)

theorem State.takeDue_frame {s : State} {dst port : Nat} {f : Flit} {late : Bool} {t : State} (h : State.takeDue s dst port = some (f, late, t)) :
    Frame (fp.links) s t := by
  unfold State.takeDue at h
  split at h
  · cases h
  · cases h; exact State.setLinks_frame _ _

theorem State.phaseFifo_frame (s : State) (g port edge : Nat) : Frame (fp.regs + fp.links + fp.parts + fp.sent) s (State.phaseFifo s g port edge) := by
  unfold State.phaseFifo
  repeat' first
    | with_reducible exact Frame.refl _ _
    | (with_reducible apply Frame.step (State.raise_frame ..) rfl ?_)
    | (with_reducible apply Frame.step (State.err_frame ..) rfl ?_)
    | (with_reducible apply Frame.step (State.routerQueueErr_frame ..) rfl ?_)
    | (with_reducible apply Frame.step (State.setLinks_frame ..) rfl ?_)
    | (with_reducible apply Frame.ite ?_ ?_)
    | split
    | (dsimp only; split)

theorem State.watershedDrop_frame (s : State) (g port part : Nat) : Frame (fp.regs + fp.sent) s (State.watershedDrop s g port part) := by
  unfold State.watershedDrop
  repeat' first
    | with_reducible exact Frame.refl _ _
    | (with_reducible apply Frame.step (State.raiseFlag_frame ..) rfl ?_)
    | (with_reducible apply Frame.step (State.meshCount_frame ..) rfl ?_)
    | (with_reducible apply Frame.step (State.wr_frame ..) rfl ?_)
    | split
    | (dsimp only; split)

theorem State.markRoute_frame (s : State) (g port label : Nat) : Frame (fp.regs + fp.routers) s (State.markRoute s g port label) := by
  unfold State.markRoute
  repeat' first
    | with_reducible exact Frame.refl _ _
    | (with_reducible apply Frame.step (State.inc_frame ..) rfl ?_)
    | (with_reducible apply Frame.step (State.updRouter_frame ..) rfl ?_)
    | split
    | (dsimp only; split)

theorem State.displace_frame (s : State) (g port entry : Nat) (f : Flit) : Frame (fp.regs + fp.routers + fp.sent) s (State.displace s g port entry f) := by
  unfold State.displace
  repeat' first
    | with_reducible exact Frame.refl _ _
    | (with_reducible apply Frame.step (State.meshCount_frame ..) rfl ?_)
    | (with_reducible apply Frame.step (State.markRoute_frame ..) rfl ?_)
    | (with_reducible apply Frame.step (State.updRouter_frame ..) rfl ?_)
    | (with_reducible apply Frame.ite ?_ ?_)
    | split
    | (dsimp only; split)

theorem State.arrive_frame (s : State) (g port : Nat) (f : Flit) (late : Bool) : Frame (fp.regs + fp.cores + fp.routers + fp.links + fp.parts + fp.sent) s (State.arrive s g port f late) := by
  unfold State.arrive
  repeat' first
    | with_reducible exact Frame.refl _ _
    | (with_reducible apply Frame.step (State.crossAll_frame ..) rfl ?_)
    | (with_reducible apply Frame.step (State.redOperand_frame ..) rfl ?_)
    | (with_reducible apply Frame.step (State.routerQueueErr_frame ..) rfl ?_)
    | (with_reducible apply Frame.step (State.meshCount_frame ..) rfl ?_)
    | (with_reducible apply Frame.step (State.markRoute_frame ..) rfl ?_)
    | (with_reducible apply Frame.step (State.displace_frame ..) rfl ?_)
    | (with_reducible apply Frame.step (State.updRouter_frame ..) rfl ?_)
    | (with_reducible apply Frame.step (bulk_frame ..) rfl ?_)
    | (with_reducible apply Frame.ite ?_ ?_)
    | split
    | (dsimp only; split)

theorem State.crcError_frame (s : State) (g port edge : Nat) : Frame (fp.regs + fp.saddles + fp.sites + fp.sent) s (State.crcError s g port edge) := by
  unfold State.crcError
  repeat' first
    | with_reducible exact Frame.refl _ _
    | (with_reducible apply Frame.step (State.inc_frame ..) rfl ?_)
    | (with_reducible apply Frame.step (State.err_frame ..) rfl ?_)
    | (with_reducible apply Frame.step (State.updSaddle_frame ..) rfl ?_)
    | (with_reducible apply Frame.step (State.updSite_frame ..) rfl ?_)
    | (with_reducible apply Frame.ite ?_ ?_)
    | split
    | (dsimp only; split)

theorem State.atInput_frame (s : State) (g port : Nat) : Frame (fp.regs + fp.links + fp.parts + fp.sent) s (State.atInput s g port) := by
  unfold State.atInput
  repeat' first
    | with_reducible exact Frame.refl _ _
    | (with_reducible apply Frame.step (State.phaseFifo_frame ..) rfl ?_)
    | split
    | (dsimp only; split)

theorem flitArrival_frame (s : State) (g port : Nat) (crcBad : Bool) : Frame (fp.regs + fp.cores + fp.routers + fp.links + fp.saddles + fp.sites + fp.parts + fp.sent) s (flitArrival s g port crcBad) := by
  unfold flitArrival
  repeat' first
    | with_reducible exact Frame.refl _ _
    | (with_reducible apply Frame.step (State.watershedDrop_frame ..) rfl ?_)
    | (with_reducible apply Frame.step (State.arrive_frame ..) rfl ?_)
    | (with_reducible apply Frame.step (State.crcError_frame ..) rfl ?_)
    | (with_reducible apply Frame.step (State.atInput_frame ..) rfl ?_)
    | (refine Frame.step (State.takeDue_frame (by assumption)) rfl ?_)
    | (with_reducible apply Frame.ite ?_ ?_)
    | split
    | (dsimp only; split)

theorem displacedForward_frame (s : State) (g : Nat) : Frame (fp.regs + fp.cores + fp.routers + fp.links + fp.sent) s (displacedForward s g) := by
  unfold displacedForward
  repeat' first
    | with_reducible exact Frame.refl _ _
    | (with_reducible apply Frame.step (State.updRouter_frame ..) rfl ?_)
    | (with_reducible apply Frame.step (State.usePorts_frame ..) rfl ?_)
    | (with_reducible apply Frame.step (State.crossAll_frame ..) rfl ?_)
    | (with_reducible apply Frame.ite ?_ ?_)
    | split
    | (dsimp only; split)

theorem displacedTimeout_frame (s : State) (g : Nat) : Frame (fp.regs + fp.routers + fp.sent) s (displacedTimeout s g) := by
  unfold displacedTimeout
  repeat' first
    | with_reducible exact Frame.refl _ _
    | (with_reducible apply Frame.step (State.updRouter_frame ..) rfl ?_)
    | (with_reducible apply Frame.step (State.meshCount_frame ..) rfl ?_)
    | split
    | (dsimp only; split)

theorem State.markRed_frame (s : State) (g rctx : Nat) : Frame (fp.routers) s (State.markRed s g rctx) := by
  unfold State.markRed
  repeat' first
    | with_reducible exact Frame.refl _ _
    | (with_reducible apply Frame.step (State.updRouter_frame ..) rfl ?_)
    | split
    | (dsimp only; split)

theorem reductionResult_frame (s : State) (g rctx : Nat) : Frame (fp.regs + fp.cores + fp.routers + fp.links + fp.sent) s (reductionResult s g rctx) := by
  unfold reductionResult
  repeat' first
    | with_reducible exact Frame.refl _ _
    | (with_reducible apply Frame.step (State.crossAll_frame ..) rfl ?_)
    | (with_reducible apply Frame.step (State.markRed_frame ..) rfl ?_)
    | (with_reducible apply Frame.step (State.updRouter_frame ..) rfl ?_)
    | (with_reducible apply Frame.step (State.updCore_frame _ _ _ ?_) rfl ?_)
    | (with_reducible apply Frame.foldl _ _ ?_ (fun s x => ?_))
    | (with_reducible apply Frame.ite ?_ ?_)
    | split
    | (dsimp only; split)
    | (intro h; (try dsimp only); repeat' (first | with_reducible exact h _ | with_reducible apply Core.memWf_write | with_reducible apply Core.memWf_setByte | exact Core.memWf_of (h _) rfl rfl rfl | exact Core.memWf_of (Core.memWf_write _ _ (h _)) rfl rfl rfl | exact (Core.memWf_iff _).2 ⟨Table.wf_filter 0 _ ((Core.memWf_iff _).1 (h _)).1, ((Core.memWf_iff _).1 (h _)).2⟩ | exact (Core.memWf_iff _).2 ⟨((Core.memWf_iff _).1 (h _)).1, ((Core.memWf_iff _).1 (h _)).2⟩ | split))

theorem reductionIncomplete_frame (s : State) (g rctx : Nat) : Frame (fp.regs + fp.routers + fp.parts + fp.sent) s (reductionIncomplete s g rctx) := by
  unfold reductionIncomplete
  repeat' first
    | with_reducible exact Frame.refl _ _
    | (with_reducible apply Frame.step (State.meshCount_frame ..) rfl ?_)
    | (with_reducible apply Frame.step (State.markRed_frame ..) rfl ?_)
    | (with_reducible apply Frame.step (State.updRouter_frame ..) rfl ?_)
    | (with_reducible apply Frame.step (State.updPart_frame ..) rfl ?_)
    | (with_reducible apply Frame.foldl _ _ ?_ (fun s x => ?_))
    | (with_reducible apply Frame.ite ?_ ?_)
    | split
    | (dsimp only; split)

theorem State.spineDone_frame (s : State) (p tid status count : Nat) : Frame (fp.parts + fp.sent) s (State.spineDone s p tid status count) := by
  unfold State.spineDone
  repeat' first
    | with_reducible exact Frame.refl _ _
    | (with_reducible apply Frame.step (State.emit_frame ..) rfl ?_)
    | (with_reducible apply Frame.step (State.updPart_frame ..) rfl ?_)
    | (with_reducible apply Frame.ite ?_ ?_)
    | split
    | (dsimp only; split)

theorem State.bulkWrite_frame (s : State) (g : Nat) (f : Flit) : Frame (fp.regs + fp.cores + fp.routers + fp.crags + fp.parts + fp.sent) s (State.bulkWrite s g f) := by
  unfold State.bulkWrite
  repeat' first
    | with_reducible exact Frame.refl _ _
    | (with_reducible apply Frame.step (State.meshCount_frame ..) rfl ?_)
    | (with_reducible apply Frame.step (State.memWrite_frame ..) rfl ?_)
    | (with_reducible apply Frame.step (State.inc_frame ..) rfl ?_)
    | (with_reducible apply Frame.step (State.updRouter_frame ..) rfl ?_)
    | (with_reducible apply Frame.step (State.spineDone_frame ..) rfl ?_)
    | (with_reducible apply Frame.ite ?_ ?_)
    | split
    | (dsimp only; split)

theorem State.bulkMove_frame (s : State) (g : Nat) (f : Flit) (rest : State → State) (hr : ∀ s, Frame (fp.regs + fp.cores + fp.routers + fp.links + fp.crags + fp.sites + fp.parts + fp.sent) s (rest s)) :
    Frame (fp.regs + fp.cores + fp.routers + fp.links + fp.crags + fp.sites + fp.parts + fp.sent) s (State.bulkMove s g f rest) := by
  unfold State.bulkMove
  repeat' first
    | with_reducible exact Frame.refl _ _
    | (with_reducible apply Frame.step (hr _) rfl ?_)
    | (with_reducible apply Frame.step (State.usePorts_frame ..) rfl ?_)
    | (with_reducible apply Frame.step (State.bulkWrite_frame ..) rfl ?_)
    | (with_reducible apply Frame.step (State.launch_frame ..) rfl ?_)
    | (with_reducible apply Frame.ite ?_ ?_)
    | split
    | (dsimp only; split)

theorem State.copyNext_frame (s : State) (g : Nat) (r : CopyRun) (rest : List CopyRun) : Frame (fp.cores + fp.routers) s (State.copyNext s g r rest) := by
  unfold State.copyNext
  repeat' first
    | with_reducible exact Frame.refl _ _
    | (with_reducible apply Frame.step (State.updRouter_frame ..) rfl ?_)
    | (with_reducible apply Frame.step (State.updCore_frame _ _ _ ?_) rfl ?_)
    | (with_reducible apply Frame.ite ?_ ?_)
    | split
    | (dsimp only; split)
    | (intro h; (try dsimp only); repeat' (first | with_reducible exact h _ | with_reducible apply Core.memWf_write | with_reducible apply Core.memWf_setByte | exact Core.memWf_of (h _) rfl rfl rfl | exact Core.memWf_of (Core.memWf_write _ _ (h _)) rfl rfl rfl | exact (Core.memWf_iff _).2 ⟨Table.wf_filter 0 _ ((Core.memWf_iff _).1 (h _)).1, ((Core.memWf_iff _).1 (h _)).2⟩ | exact (Core.memWf_iff _).2 ⟨((Core.memWf_iff _).1 (h _)).1, ((Core.memWf_iff _).1 (h _)).2⟩ | split))

theorem bulk_frame (s : State) (g : Nat) : Frame (fp.regs + fp.cores + fp.routers + fp.links + fp.crags + fp.sites + fp.parts + fp.sent) s (bulk s g) := by
  unfold bulk
  repeat' first
    | with_reducible exact Frame.refl _ _
    | (with_reducible apply Frame.step (State.launch_frame ..) rfl ?_)
    | (with_reducible apply Frame.step (State.copyNext_frame ..) rfl ?_)
    | (with_reducible apply Frame.step (State.updRouter_frame ..) rfl ?_)
    | (with_reducible apply Frame.step (State.updSite_frame ..) rfl ?_)
    | (with_reducible apply Frame.step (State.bulkMove_frame _ _ _ _ (fun s => ?_)) rfl ?_)
    | (with_reducible apply Frame.ite ?_ ?_)
    | split
    | (dsimp only; split)

theorem bulkRetry_frame (s : State) (p tid : Nat) : Frame (fp.regs + fp.routers + fp.sites + fp.parts) s (bulkRetry s p tid) := by
  unfold bulkRetry
  repeat' first
    | with_reducible exact Frame.refl _ _
    | (with_reducible apply Frame.step (State.wr_frame ..) rfl ?_)
    | (with_reducible apply Frame.step (State.updRouter_frame ..) rfl ?_)
    | (with_reducible apply Frame.step (State.updSite_frame ..) rfl ?_)
    | (with_reducible apply Frame.step (State.updPart_frame ..) rfl ?_)
    | (with_reducible apply Frame.ite ?_ ?_)
    | split
    | (dsimp only; split)

end Sys2Proof.Machine
end

