-- ==== Sys2Proof/Laws/FrameEjection.lean ====
section
/-! SUPPORT. Frames of the operations of Machine/Ejection.lean. -/

namespace Sys2Proof.Machine

theorem Core.setAppend_memWf {c : Core} (x : EjFlit) (d : Option AppendDesc) (h : c.memWf = true) : (Core.setAppend c x d).memWf = true := by
  unfold Core.setAppend
  try dsimp only
  repeat' (first | with_reducible exact h | exact Core.memWf_of h rfl rfl rfl | split)

theorem State.lateFlit_frame (s : State) (g : Nat) (x : EjFlit) : Frame (fp.regs + fp.cores + fp.sent) s (State.lateFlit s g x) := by
  unfold State.lateFlit
  repeat' first
    | with_reducible exact Frame.refl _ _
    | (with_reducible apply Frame.step (State.setFlag_frame ..) rfl ?_)
    | (with_reducible apply Frame.step (State.inc_frame ..) rfl ?_)
    | (with_reducible apply Frame.step (State.stamp_frame ..) rfl ?_)
    | (with_reducible apply Frame.step (State.raiseFlag_frame ..) rfl ?_)
    | (with_reducible apply Frame.step (State.err_frame ..) rfl ?_)
    | (with_reducible apply Frame.step (State.wr_frame ..) rfl ?_)
    | (with_reducible apply Frame.step (State.updCore_frame _ _ _ ?_) rfl ?_)
    | split
    | (dsimp only; split)
    | (intro h; (try dsimp only); repeat' (first | with_reducible exact h _ | with_reducible apply Core.memWf_write | with_reducible apply Core.memWf_setByte | exact Core.memWf_of (h _) rfl rfl rfl | exact Core.memWf_of (Core.memWf_write _ _ (h _)) rfl rfl rfl | exact (Core.memWf_iff _).2 ⟨Table.wf_filter 0 _ ((Core.memWf_iff _).1 (h _)).1, ((Core.memWf_iff _).1 (h _)).2⟩ | exact (Core.memWf_iff _).2 ⟨((Core.memWf_iff _).1 (h _)).1, ((Core.memWf_iff _).1 (h _)).2⟩ | split))

theorem State.sourceFault_frame (s : State) (g : Nat) (x : EjFlit) (cause : Nat) : Frame (fp.regs + fp.cores + fp.parts + fp.sent) s (State.sourceFault s g x cause) := by
  unfold State.sourceFault
  repeat' first
    | with_reducible exact Frame.refl _ _
    | (with_reducible apply Frame.step (State.declare_frame ..) rfl ?_)
    | split
    | (dsimp only; split)

theorem State.ejectWrite_frame (s : State) (g a : Nat) (bs : List Byte) : Frame (fp.regs + fp.cores + fp.crags) s (State.ejectWrite s g a bs) := by
  unfold State.ejectWrite
  repeat' first
    | with_reducible exact Frame.refl _ _
    | (with_reducible apply Frame.step (State.memWrite_frame ..) rfl ?_)
    | (with_reducible apply Frame.step (State.updCore_frame _ _ _ ?_) rfl ?_)
    | (with_reducible apply Frame.ite ?_ ?_)
    | split
    | (dsimp only; split)
    | (intro h; (try dsimp only); repeat' (first | with_reducible exact h _ | with_reducible apply Core.memWf_write | with_reducible apply Core.memWf_setByte | exact Core.memWf_of (h _) rfl rfl rfl | exact Core.memWf_of (Core.memWf_write _ _ (h _)) rfl rfl rfl | exact (Core.memWf_iff _).2 ⟨Table.wf_filter 0 _ ((Core.memWf_iff _).1 (h _)).1, ((Core.memWf_iff _).1 (h _)).2⟩ | exact (Core.memWf_iff _).2 ⟨((Core.memWf_iff _).1 (h _)).1, ((Core.memWf_iff _).1 (h _)).2⟩ | split))

theorem State.countAt_frame (s : State) (g wid d : Nat) : Frame (fp.cores) s (State.countAt s g wid d) := by
  unfold State.countAt
  repeat' first
    | with_reducible exact Frame.refl _ _
    | (with_reducible apply Frame.step (State.updCore_frame _ _ _ ?_) rfl ?_)
    | split
    | (dsimp only; split)
    | (intro h; (try dsimp only); repeat' (first | with_reducible exact h _ | with_reducible apply Core.memWf_write | with_reducible apply Core.memWf_setByte | exact Core.memWf_of (h _) rfl rfl rfl | exact Core.memWf_of (Core.memWf_write _ _ (h _)) rfl rfl rfl | exact (Core.memWf_iff _).2 ⟨Table.wf_filter 0 _ ((Core.memWf_iff _).1 (h _)).1, ((Core.memWf_iff _).1 (h _)).2⟩ | exact (Core.memWf_iff _).2 ⟨((Core.memWf_iff _).1 (h _)).1, ((Core.memWf_iff _).1 (h _)).2⟩ | split))

theorem State.bump_frame (s : State) (g key : Nat) : Frame (fp.cores) s (State.bump s g key) := by
  unfold State.bump
  repeat' first
    | with_reducible exact Frame.refl _ _
    | (with_reducible apply Frame.step (State.updCore_frame _ _ _ ?_) rfl ?_)
    | split
    | (dsimp only; split)
    | (intro h; (try dsimp only); repeat' (first | with_reducible exact h _ | with_reducible apply Core.memWf_write | with_reducible apply Core.memWf_setByte | exact Core.memWf_of (h _) rfl rfl rfl | exact Core.memWf_of (Core.memWf_write _ _ (h _)) rfl rfl rfl | exact (Core.memWf_iff _).2 ⟨Table.wf_filter 0 _ ((Core.memWf_iff _).1 (h _)).1, ((Core.memWf_iff _).1 (h _)).2⟩ | exact (Core.memWf_iff _).2 ⟨((Core.memWf_iff _).1 (h _)).1, ((Core.memWf_iff _).1 (h _)).2⟩ | split))

theorem State.applyWrite_frame (s : State) (g : Nat) (x : EjFlit) : Frame (fp.regs + fp.cores + fp.crags + fp.sent) s (State.applyWrite s g x) := by
  unfold State.applyWrite
  repeat' first
    | with_reducible exact Frame.refl _ _
    | (with_reducible apply Frame.step (State.stepErr_frame ..) rfl ?_)
    | (with_reducible apply Frame.step (State.ejectWrite_frame ..) rfl ?_)
    | (with_reducible apply Frame.step (State.countAt_frame ..) rfl ?_)
    | (with_reducible apply Frame.step (State.bump_frame ..) rfl ?_)
    | (with_reducible apply Frame.ite ?_ ?_)
    | split
    | (dsimp only; split)

theorem State.applyLse_frame (s : State) (g : Nat) (x : EjFlit) : Frame (fp.regs + fp.cores + fp.crags + fp.sent) s (State.applyLse s g x) := by
  unfold State.applyLse
  repeat' first
    | with_reducible exact Frame.refl _ _
    | (with_reducible apply Frame.step (State.stepErr_frame ..) rfl ?_)
    | (with_reducible apply Frame.step (State.ejectWrite_frame ..) rfl ?_)
    | (with_reducible apply Frame.step (State.countAt_frame ..) rfl ?_)
    | (with_reducible apply Frame.step (State.bump_frame ..) rfl ?_)
    | (with_reducible apply Frame.step (State.updCore_frame _ _ _ ?_) rfl ?_)
    | (with_reducible apply Frame.ite ?_ ?_)
    | split
    | (dsimp only; split)
    | (intro h; (try dsimp only); repeat' (first | with_reducible exact h _ | with_reducible apply Core.memWf_write | with_reducible apply Core.memWf_setByte | exact Core.memWf_of (h _) rfl rfl rfl | exact Core.memWf_of (Core.memWf_write _ _ (h _)) rfl rfl rfl | exact (Core.memWf_iff _).2 ⟨Table.wf_filter 0 _ ((Core.memWf_iff _).1 (h _)).1, ((Core.memWf_iff _).1 (h _)).2⟩ | exact (Core.memWf_iff _).2 ⟨((Core.memWf_iff _).1 (h _)).1, ((Core.memWf_iff _).1 (h _)).2⟩ | split))

theorem State.closeAppend_frame (s : State) (g : Nat) (d : AppendDesc) : Frame (fp.regs + fp.cores + fp.crags) s (State.closeAppend s g d) := by
  unfold State.closeAppend
  repeat' first
    | with_reducible exact Frame.refl _ _
    | (with_reducible apply Frame.step (State.memWrite_frame ..) rfl ?_)
    | (with_reducible apply Frame.step (State.updCore_frame _ _ _ ?_) rfl ?_)
    | (with_reducible apply Frame.ite ?_ ?_)
    | split
    | (dsimp only; split)
    | (intro h; (try dsimp only); repeat' (first | with_reducible exact h _ | with_reducible apply Core.memWf_write | with_reducible apply Core.memWf_setByte | exact Core.memWf_of (h _) rfl rfl rfl | exact Core.memWf_of (Core.memWf_write _ _ (h _)) rfl rfl rfl | exact (Core.memWf_iff _).2 ⟨Table.wf_filter 0 _ ((Core.memWf_iff _).1 (h _)).1, ((Core.memWf_iff _).1 (h _)).2⟩ | exact (Core.memWf_iff _).2 ⟨((Core.memWf_iff _).1 (h _)).1, ((Core.memWf_iff _).1 (h _)).2⟩ | split))

theorem State.applyAppend_frame (s : State) (g : Nat) (x : EjFlit) : Frame (fp.regs + fp.cores + fp.crags + fp.sent) s (State.applyAppend s g x) := by
  unfold State.applyAppend
  repeat' first
    | with_reducible exact Frame.refl _ _
    | (with_reducible apply Frame.step (State.bump_frame ..) rfl ?_)
    | (with_reducible apply Frame.step (State.countAt_frame ..) rfl ?_)
    | (with_reducible apply Frame.step (State.updCore_frame _ _ _ ?_) rfl ?_)
    | (with_reducible apply Frame.step (State.err_frame ..) rfl ?_)
    | (with_reducible apply Frame.step (State.stepErr_frame ..) rfl ?_)
    | (with_reducible apply Frame.step (State.skipAppend_frame ..) rfl ?_)
    | (with_reducible apply Frame.step (State.memWrite_frame ..) rfl ?_)
    | (with_reducible apply Frame.step (State.closeAppend_frame ..) rfl ?_)
    | (with_reducible apply Frame.ite ?_ ?_)
    | split
    | (dsimp only; split)
    | (intro h; (try dsimp only); repeat' (first | with_reducible exact h _ | with_reducible apply Core.memWf_write | with_reducible apply Core.memWf_setByte | exact Core.memWf_of (h _) rfl rfl rfl | exact Core.memWf_of (Core.memWf_write _ _ (h _)) rfl rfl rfl | exact (Core.memWf_iff _).2 ⟨Table.wf_filter 0 _ ((Core.memWf_iff _).1 (h _)).1, ((Core.memWf_iff _).1 (h _)).2⟩ | exact (Core.memWf_iff _).2 ⟨((Core.memWf_iff _).1 (h _)).1, ((Core.memWf_iff _).1 (h _)).2⟩ | with_reducible apply Core.setAppend_memWf | exact Core.memWf_of (d := Core.setAppend ..) (Core.setAppend_memWf (h := h _) ..) rfl rfl rfl | exact Core.memWf_foldl _ _ _ (h _) (fun _ _ h => Core.setAppend_memWf (h := h) ..) | split))

theorem State.applyFlit_frame (s : State) (g : Nat) (x : EjFlit) : Frame (fp.regs + fp.cores + fp.crags + fp.sent) s (State.applyFlit s g x) := by
  unfold State.applyFlit
  repeat' first
    | with_reducible exact Frame.refl _ _
    | (with_reducible apply Frame.step (State.applyLse_frame ..) rfl ?_)
    | (with_reducible apply Frame.step (State.applyAppend_frame ..) rfl ?_)
    | (with_reducible apply Frame.step (State.applyWrite_frame ..) rfl ?_)
    | (with_reducible apply Frame.ite ?_ ?_)
    | split
    | (dsimp only; split)

theorem State.holdFlit_frame (s : State) (g : Nat) (x : EjFlit) (early : Bool) : Frame (fp.regs + fp.cores + fp.parts + fp.sent) s (State.holdFlit s g x early) := by
  unfold State.holdFlit
  repeat' first
    | with_reducible exact Frame.refl _ _
    | (with_reducible apply Frame.step (State.skipAppend_frame ..) rfl ?_)
    | (with_reducible apply Frame.step (State.sourceFault_frame ..) rfl ?_)
    | (with_reducible apply Frame.step (State.stepErr_frame ..) rfl ?_)
    | (with_reducible apply Frame.step (State.updCore_frame _ _ _ ?_) rfl ?_)
    | (with_reducible apply Frame.step (State.inc_frame ..) rfl ?_)
    | (with_reducible apply Frame.ite ?_ ?_)
    | split
    | (dsimp only; split)
    | (intro h; (try dsimp only); repeat' (first | with_reducible exact h _ | with_reducible apply Core.memWf_write | with_reducible apply Core.memWf_setByte | exact Core.memWf_of (h _) rfl rfl rfl | exact Core.memWf_of (Core.memWf_write _ _ (h _)) rfl rfl rfl | exact (Core.memWf_iff _).2 ⟨Table.wf_filter 0 _ ((Core.memWf_iff _).1 (h _)).1, ((Core.memWf_iff _).1 (h _)).2⟩ | exact (Core.memWf_iff _).2 ⟨((Core.memWf_iff _).1 (h _)).1, ((Core.memWf_iff _).1 (h _)).2⟩ | with_reducible apply Core.updWin_memWf | exact Core.memWf_of (d := Core.updWin ..) (Core.updWin_memWf (h := h _) ..) rfl rfl rfl | exact Core.memWf_foldl _ _ _ (h _) (fun _ _ h => Core.updWin_memWf (h := h) ..) | split))

theorem State.acceptWindow_frame (s : State) (g : Nat) (x : EjFlit) : Frame (fp.regs + fp.cores + fp.crags + fp.parts + fp.sent) s (State.acceptWindow s g x) := by
  unfold State.acceptWindow
  repeat' first
    | with_reducible exact Frame.refl _ _
    | (with_reducible apply Frame.step (State.stamp_frame ..) rfl ?_)
    | (with_reducible apply Frame.step (State.applyFlit_frame ..) rfl ?_)
    | (with_reducible apply Frame.step (State.inc_frame ..) rfl ?_)
    | (with_reducible apply Frame.step (State.holdFlit_frame ..) rfl ?_)
    | (with_reducible apply Frame.step (State.skipAppend_frame ..) rfl ?_)
    | (with_reducible apply Frame.step (State.lateFlit_frame ..) rfl ?_)
    | (with_reducible apply Frame.step (State.sourceFault_frame ..) rfl ?_)
    | split
    | (dsimp only; split)

theorem State.acceptSignal_frame (s : State) (g : Nat) (x : EjFlit) : Frame (fp.regs + fp.cores + fp.parts + fp.sent) s (State.acceptSignal s g x) := by
  unfold State.acceptSignal
  repeat' first
    | with_reducible exact Frame.refl _ _
    | (with_reducible apply Frame.step (State.stamp_frame ..) rfl ?_)
    | (with_reducible apply Frame.step (State.raiseSem_frame ..) rfl ?_)
    | (with_reducible apply Frame.step (State.sourceFault_frame ..) rfl ?_)
    | (with_reducible apply Frame.step (State.updCore_frame _ _ _ ?_) rfl ?_)
    | (with_reducible apply Frame.step (State.inc_frame ..) rfl ?_)
    | (with_reducible apply Frame.step (State.lateFlit_frame ..) rfl ?_)
    | (with_reducible apply Frame.ite ?_ ?_)
    | split
    | (dsimp only; split)
    | (intro h; (try dsimp only); repeat' (first | with_reducible exact h _ | with_reducible apply Core.memWf_write | with_reducible apply Core.memWf_setByte | exact Core.memWf_of (h _) rfl rfl rfl | exact Core.memWf_of (Core.memWf_write _ _ (h _)) rfl rfl rfl | exact (Core.memWf_iff _).2 ⟨Table.wf_filter 0 _ ((Core.memWf_iff _).1 (h _)).1, ((Core.memWf_iff _).1 (h _)).2⟩ | exact (Core.memWf_iff _).2 ⟨((Core.memWf_iff _).1 (h _)).1, ((Core.memWf_iff _).1 (h _)).2⟩ | split))

theorem State.eject_frame (s : State) (g : Nat) (ops : List Nat) : Frame (fp.regs + fp.cores + fp.crags + fp.parts + fp.sent) s (State.eject s g ops) := by
  unfold State.eject
  repeat' first
    | with_reducible exact Frame.refl _ _
    | (with_reducible apply Frame.step (State.updCore_frame _ _ _ ?_) rfl ?_)
    | (with_reducible apply Frame.step (State.acceptSignal_frame ..) rfl ?_)
    | (with_reducible apply Frame.step (State.acceptWindow_frame ..) rfl ?_)
    | (with_reducible apply Frame.ite ?_ ?_)
    | split
    | (dsimp only; split)
    | (intro h; (try dsimp only); repeat' (first | with_reducible exact h _ | with_reducible apply Core.memWf_write | with_reducible apply Core.memWf_setByte | exact Core.memWf_of (h _) rfl rfl rfl | exact Core.memWf_of (Core.memWf_write _ _ (h _)) rfl rfl rfl | exact (Core.memWf_iff _).2 ⟨Table.wf_filter 0 _ ((Core.memWf_iff _).1 (h _)).1, ((Core.memWf_iff _).1 (h _)).2⟩ | exact (Core.memWf_iff _).2 ⟨((Core.memWf_iff _).1 (h _)).1, ((Core.memWf_iff _).1 (h _)).2⟩ | split))

theorem earlyFlitRelease_frame (s : State) (g : Nat) : Frame (fp.regs + fp.cores + fp.crags + fp.sent) s (earlyFlitRelease s g) := by
  unfold earlyFlitRelease
  repeat' first
    | with_reducible exact Frame.refl _ _
    | (with_reducible apply Frame.step (State.updCore_frame _ _ _ ?_) rfl ?_)
    | (with_reducible apply Frame.step (State.stamp_frame ..) rfl ?_)
    | (with_reducible apply Frame.step (State.applyFlit_frame ..) rfl ?_)
    | (with_reducible apply Frame.step (State.skipAppend_frame ..) rfl ?_)
    | (with_reducible apply Frame.step (State.lateFlit_frame ..) rfl ?_)
    | (with_reducible apply Frame.ite ?_ ?_)
    | split
    | (dsimp only; split)
    | (intro h; (try dsimp only); repeat' (first | with_reducible exact h _ | with_reducible apply Core.memWf_write | with_reducible apply Core.memWf_setByte | exact Core.memWf_of (h _) rfl rfl rfl | exact Core.memWf_of (Core.memWf_write _ _ (h _)) rfl rfl rfl | exact (Core.memWf_iff _).2 ⟨Table.wf_filter 0 _ ((Core.memWf_iff _).1 (h _)).1, ((Core.memWf_iff _).1 (h _)).2⟩ | exact (Core.memWf_iff _).2 ⟨((Core.memWf_iff _).1 (h _)).1, ((Core.memWf_iff _).1 (h _)).2⟩ | split))

theorem xorDeltaApply_frame (s : State) (y : Nat) : Frame (fp.regs + fp.cores + fp.crags) s (xorDeltaApply s y) := by
  unfold xorDeltaApply
  repeat' first
    | with_reducible exact Frame.refl _ _
    | (with_reducible apply Frame.step (State.updCore_frame _ _ _ ?_) rfl ?_)
    | (with_reducible apply Frame.step (State.updCrag_frame ..) rfl ?_)
    | (with_reducible apply Frame.step (State.inc_frame ..) rfl ?_)
    | (with_reducible apply Frame.step (State.raise_frame ..) rfl ?_)
    | (with_reducible apply Frame.step (State.setFlag_frame ..) rfl ?_)
    | (with_reducible apply Frame.ite ?_ ?_)
    | split
    | (dsimp only; split)
    | (intro h; (try dsimp only); repeat' (first | with_reducible exact h _ | with_reducible apply Core.memWf_write | with_reducible apply Core.memWf_setByte | exact Core.memWf_of (h _) rfl rfl rfl | exact Core.memWf_of (Core.memWf_write _ _ (h _)) rfl rfl rfl | exact (Core.memWf_iff _).2 ⟨Table.wf_filter 0 _ ((Core.memWf_iff _).1 (h _)).1, ((Core.memWf_iff _).1 (h _)).2⟩ | exact (Core.memWf_iff _).2 ⟨((Core.memWf_iff _).1 (h _)).1, ((Core.memWf_iff _).1 (h _)).2⟩ | split))

end Sys2Proof.Machine
end

