-- ==== Sys2Proof/Laws/FrameSites.lean ====
section
/-! SUPPORT. Frames of the operations of Machine/Sites.lean. -/

namespace Sys2Proof.Machine

theorem State.updChan_frame (s : State) (m ch : Nat) (f : Chan → Chan) : Frame (fp.sites) s (State.updChan s m ch f) := by
  unfold State.updChan
  repeat' first
    | with_reducible exact Frame.refl _ _
    | (with_reducible apply Frame.step (State.updSite_frame ..) rfl ?_)
    | split
    | (dsimp only; split)

theorem State.rawSet_frame (s : State) (m ch off : Nat) (b : Byte) : Frame (fp.sites) s (State.rawSet s m ch off b) := by
  unfold State.rawSet
  repeat' first
    | with_reducible exact Frame.refl _ _
    | (with_reducible apply Frame.step (State.updChan_frame ..) rfl ?_)
    | split
    | (dsimp only; split)

theorem State.stackSet_frame (s : State) (m ch off : Nat) (b : Byte) : Frame (fp.sites) s (State.stackSet s m ch off b) := by
  unfold State.stackSet
  repeat' first
    | with_reducible exact Frame.refl _ _
    | (with_reducible apply Frame.step (State.rawSet_frame ..) rfl ?_)
    | (with_reducible apply Frame.ite ?_ ?_)
    | split
    | (dsimp only; split)

theorem State.regionWrite_frame (s : State) (m : Nat) (r : Region) (x : Nat) (bs : List Byte) :
    Frame (fp.sites) s (State.regionWrite s m r x bs) := by
  induction bs generalizing s x with
  | nil => exact Frame.refl _ _
  | cons b bs ih =>
    unfold State.regionWrite
    exact Frame.step (ih _ _) rfl (Frame.step (State.stackSet_frame ..) rfl (Frame.refl _ _))

theorem State.keyMiss_frame (s : State) (m slot : Nat) : Frame (fp.regs + fp.sent) s (State.keyMiss s m slot) := by
  unfold State.keyMiss
  repeat' first
    | with_reducible exact Frame.refl _ _
    | (with_reducible apply Frame.step (State.inc_frame ..) rfl ?_)
    | (with_reducible apply Frame.step (State.err_frame ..) rfl ?_)
    | (with_reducible apply Frame.step (State.wr_frame ..) rfl ?_)
    | split
    | (dsimp only; split)

theorem State.ownerMiss_frame (s : State) (m : Nat) : Frame (fp.regs + fp.sent) s (State.ownerMiss s m) := by
  unfold State.ownerMiss
  repeat' first
    | with_reducible exact Frame.refl _ _
    | (with_reducible apply Frame.step (State.inc_frame ..) rfl ?_)
    | (with_reducible apply Frame.step (State.err_frame ..) rfl ?_)
    | split
    | (dsimp only; split)

theorem State.stackCe_frame (s : State) (m ch : Nat) : Frame (fp.regs) s (State.stackCe s m ch) := by
  unfold State.stackCe
  repeat' first
    | with_reducible exact Frame.refl _ _
    | (with_reducible apply Frame.step (State.inc_frame ..) rfl ?_)
    | split
    | (dsimp only; split)

theorem State.stackUe_frame (s : State) (m ch off : Nat) : Frame (fp.regs + fp.sites + fp.sent) s (State.stackUe s m ch off) := by
  unfold State.stackUe
  repeat' first
    | with_reducible exact Frame.refl _ _
    | (with_reducible apply Frame.step (State.inc_frame ..) rfl ?_)
    | (with_reducible apply Frame.step (State.wr_frame ..) rfl ?_)
    | (with_reducible apply Frame.step (State.err_frame ..) rfl ?_)
    | (with_reducible apply Frame.step (State.updChan_frame ..) rfl ?_)
    | split
    | (dsimp only; split)

theorem State.siteError_frame (s : State) (m code : Nat) : Frame (fp.sites) s (State.siteError s m code) := by
  unfold State.siteError
  repeat' first
    | with_reducible exact Frame.refl _ _
    | (with_reducible apply Frame.step (State.updSite_frame ..) rfl ?_)
    | split
    | (dsimp only; split)

theorem State.readUpset_frame (s : State) (m : Nat) (r : Region) (n : Nat) (at_ : Nat → Nat) (u : StackUpset) :
    Frame (fp.regs + fp.sites + fp.sent) s (State.readUpset s m r n at_ u).1 := by
  unfold State.readUpset
  refine Frame.foldl _ _ (Frame.foldl _ _ (Frame.refl _ _) (fun s i => ?_)) (fun s e => State.stackUe_frame ..)
  exact Frame.step (State.stackCe_frame ..) rfl (Frame.refl _ _)

theorem State.readUpset_pair {s : State} {m : Nat} {r : Region} {n : Nat} {at_ : Nat → Nat} {u : StackUpset} {s' : State} {v : List Nat}
    (hx : State.readUpset s m r n at_ u = (s', v)) : Frame (fp.regs + fp.sites + fp.sent) s s' := by
  have := State.readUpset_frame s m r n at_ u
  rw [hx] at this; exact this

theorem State.csData_frame (s : State) (m ch e : Nat) (sl : Slot) (u : StackUpset) : Frame (fp.regs + fp.sites + fp.sent) s (State.csData s m ch e sl u).1 := by
  unfold State.csData
  repeat' first
    | with_reducible exact Frame.refl _ _
    | (with_reducible apply Frame.step (State.inc_frame ..) rfl ?_)
    | (with_reducible apply Frame.step (State.ownerMiss_frame ..) rfl ?_)
    | (with_reducible apply Frame.step (State.siteError_frame ..) rfl ?_)
    | (with_reducible apply Frame.step (State.readUpset_frame ..) rfl ?_)
    | (with_reducible apply Frame.step (State.keyMiss_frame ..) rfl ?_)
    | (with_reducible apply Frame.ite ?_ ?_)
    | split
    | (dsimp only; split)
    | (refine Frame.step (State.readUpset_pair (by assumption)) rfl ?_)

theorem State.csData_pair {s : State} {m ch e : Nat} {sl : Slot} {u : StackUpset} {s' : State} {v : List (List Byte)} (hx : State.csData s m ch e sl u = (s', v)) : Frame (fp.regs + fp.sites + fp.sent) s s' := by
  have := State.csData_frame s m ch e sl u
  rw [hx] at this; exact this

theorem State.noteQueue_frame (s : State) (m : Nat) (l : List Nat) (extra : Nat) : Frame (fp.regs) s (State.noteQueue s m l extra) := by
  unfold State.noteQueue
  repeat' first
    | with_reducible exact Frame.refl _ _
    | (with_reducible apply Frame.step (State.raise_frame ..) rfl ?_)
    | (with_reducible apply Frame.foldl _ _ ?_ (fun s x => ?_))
    | split
    | (dsimp only; split)

theorem scheduleReadStart_frame (s : State) (m ch : Nat) (u : StackUpset) : Frame (fp.regs + fp.sites + fp.sent) s (scheduleReadStart s m ch u) := by
  unfold scheduleReadStart
  repeat' first
    | with_reducible exact Frame.refl _ _
    | (with_reducible apply Frame.step (State.updChan_frame ..) rfl ?_)
    | (with_reducible apply Frame.step (State.csData_frame ..) rfl ?_)
    | (refine Frame.step (State.csData_pair (by assumption)) rfl ?_)
    | (with_reducible apply Frame.step (State.noteQueue_frame ..) rfl ?_)
    | (with_reducible apply Frame.step (State.raise_frame ..) rfl ?_)
    | (with_reducible apply Frame.step (State.stamp_frame ..) rfl ?_)
    | (with_reducible apply Frame.ite ?_ ?_)
    | split
    | (dsimp only; split)

theorem scheduleRelease_frame (s : State) (m ch : Nat) : Frame (fp.regs + fp.links + fp.sites + fp.sent) s (scheduleRelease s m ch) := by
  unfold scheduleRelease
  repeat' first
    | with_reducible exact Frame.refl _ _
    | (with_reducible apply Frame.step (State.updChan_frame ..) rfl ?_)
    | (with_reducible apply Frame.step (State.inc_frame ..) rfl ?_)
    | (with_reducible apply Frame.step (State.launch_frame ..) rfl ?_)
    | (with_reducible apply Frame.step (State.err_frame ..) rfl ?_)
    | (with_reducible apply Frame.ite ?_ ?_)
    | split
    | (dsimp only; split)

theorem State.abortLoad_frame (s : State) (p code : Nat) : Frame (fp.parts) s (State.abortLoad s p code) := by
  unfold State.abortLoad
  repeat' first
    | with_reducible exact Frame.refl _ _
    | (with_reducible apply Frame.step (State.updPart_frame ..) rfl ?_)
    | split
    | (dsimp only; split)

theorem State.abandonCut_frame (s : State) (q : Option Nat) : Frame (fp.parts) s (State.abandonCut s q) := by
  unfold State.abandonCut
  repeat' first
    | with_reducible exact Frame.refl _ _
    | (with_reducible apply Frame.step (State.abortLoad_frame ..) rfl ?_)
    | (with_reducible apply Frame.ite ?_ ?_)
    | split
    | (dsimp only; split)

theorem memChannelFail_frame (s : State) (m ch : Nat) (lock : Bool) : Frame (fp.regs + fp.sites + fp.parts + fp.sent) s (memChannelFail s m ch lock) := by
  unfold memChannelFail
  repeat' first
    | with_reducible exact Frame.refl _ _
    | (with_reducible apply Frame.step (State.updChan_frame ..) rfl ?_)
    | (with_reducible apply Frame.step (State.siteError_frame ..) rfl ?_)
    | (with_reducible apply Frame.step (State.abandonCut_frame ..) rfl ?_)
    | (with_reducible apply Frame.step (State.err_frame ..) rfl ?_)
    | (with_reducible apply Frame.step (State.wr_frame ..) rfl ?_)
    | (with_reducible apply Frame.step (lock_frame ..) rfl ?_)
    | (with_reducible apply Frame.ite ?_ ?_)
    | split
    | (dsimp only; split)

theorem State.touchRegion_frame (s : State) (m i : Nat) : Frame (fp.parts) s (State.touchRegion s m i) := by
  unfold State.touchRegion
  repeat' first
    | with_reducible exact Frame.refl _ _
    | (with_reducible apply Frame.step (State.abortLoad_frame ..) rfl ?_)
    | (with_reducible apply Frame.step (State.updPart_frame ..) rfl ?_)
    | (with_reducible apply Frame.ite ?_ ?_)
    | split
    | (dsimp only; split)

theorem State.unstageSet_frame (s : State) (m k : Nat) : Frame (fp.sites + fp.parts) s (State.unstageSet s m k) := by
  unfold State.unstageSet
  repeat' first
    | with_reducible exact Frame.refl _ _
    | (with_reducible apply Frame.step (State.touchRegion_frame ..) rfl ?_)
    | (with_reducible apply Frame.step (State.updSite_frame ..) rfl ?_)
    | (with_reducible apply Frame.foldl _ _ ?_ (fun s x => ?_))
    | split
    | (dsimp only; split)

theorem State.setFlags_frame (s : State) (m k : Nat) : Frame (fp.regs + fp.sent) s (State.setFlags s m k) := by
  unfold State.setFlags
  repeat' first
    | with_reducible exact Frame.refl _ _
    | (with_reducible apply Frame.step (State.setFlag_frame ..) rfl ?_)
    | (with_reducible apply Frame.step (State.err_frame ..) rfl ?_)
    | (with_reducible apply Frame.step (State.wr_frame ..) rfl ?_)
    | (with_reducible apply Frame.foldl _ _ ?_ (fun s x => ?_))
    | (with_reducible apply Frame.ite ?_ ?_)
    | split
    | (dsimp only; split)

theorem State.failChannel_frame (s : State) (m ch : Nat) : Frame (fp.regs + fp.sites + fp.parts + fp.sent) s (State.failChannel s m ch) := by
  unfold State.failChannel
  repeat' first
    | with_reducible exact Frame.refl _ _
    | (with_reducible apply Frame.step (State.updChan_frame ..) rfl ?_)
    | (with_reducible apply Frame.step (State.unstageSet_frame ..) rfl ?_)
    | (with_reducible apply Frame.step (State.setFlags_frame ..) rfl ?_)
    | (with_reducible apply Frame.step (State.setFlag_frame ..) rfl ?_)
    | (with_reducible apply Frame.step (State.wr_frame ..) rfl ?_)
    | (with_reducible apply Frame.ite ?_ ?_)
    | split
    | (dsimp only; split)

theorem State.failChannels_frame (s : State) (m : Nat) : Frame (fp.regs + fp.sites + fp.parts + fp.sent) s (State.failChannels s m) := by
  unfold State.failChannels
  repeat' first
    | with_reducible exact Frame.refl _ _
    | (with_reducible apply Frame.step (State.failChannel_frame ..) rfl ?_)
    | (with_reducible apply Frame.foldl _ _ ?_ (fun s x => ?_))
    | split
    | (dsimp only; split)

theorem stackRefresh_frame (s : State) (m ch : Nat) : Frame (fp.regs + fp.sites) s (stackRefresh s m ch) := by
  unfold stackRefresh
  repeat' first
    | with_reducible exact Frame.refl _ _
    | (with_reducible apply Frame.step (State.updChan_frame ..) rfl ?_)
    | (with_reducible apply Frame.step (State.noteQueue_frame ..) rfl ?_)
    | split
    | (dsimp only; split)

theorem State.putRegion_frame (s : State) (m i : Nat) (r : Region) : Frame (fp.regs + fp.sites + fp.parts) s (State.putRegion s m i r) := by
  unfold State.putRegion
  repeat' first
    | with_reducible exact Frame.refl _ _
    | (with_reducible apply Frame.step (State.touchRegion_frame ..) rfl ?_)
    | (with_reducible apply Frame.step (State.setFlag_frame ..) rfl ?_)
    | (with_reducible apply Frame.step (State.updSite_frame ..) rfl ?_)
    | split
    | (dsimp only; split)

theorem State.enterRegion_frame (s : State) (m i : Nat) (r : Region) : Frame (fp.regs + fp.sites + fp.parts) s (State.enterRegion s m i r) := by
  unfold State.enterRegion
  repeat' first
    | with_reducible exact Frame.refl _ _
    | (with_reducible apply Frame.step (State.putRegion_frame ..) rfl ?_)
    | (with_reducible apply Frame.step (State.setFlag_frame ..) rfl ?_)
    | (with_reducible apply Frame.step (State.updSite_frame ..) rfl ?_)
    | (with_reducible apply Frame.ite ?_ ?_)
    | split
    | (dsimp only; split)

theorem regCmdWrite_frame (s : State) (m : Nat) : Frame (fp.regs + fp.sites + fp.parts) s (regCmdWrite s m) := by
  unfold regCmdWrite
  repeat' first
    | with_reducible exact Frame.refl _ _
    | (with_reducible apply Frame.step (State.enterRegion_frame ..) rfl ?_)
    | (with_reducible apply Frame.step (State.setFlag_frame ..) rfl ?_)
    | (with_reducible apply Frame.foldl _ _ ?_ (fun s x => ?_))
    | (with_reducible apply Frame.ite ?_ ?_)
    | split
    | (dsimp only; split)

theorem regCmdInvalidate_frame (s : State) (m : Nat) : Frame (fp.regs + fp.sites + fp.parts) s (regCmdInvalidate s m) := by
  unfold regCmdInvalidate
  repeat' first
    | with_reducible exact Frame.refl _ _
    | (with_reducible apply Frame.step (State.setFlag_frame ..) rfl ?_)
    | (with_reducible apply Frame.step (State.putRegion_frame ..) rfl ?_)
    | (with_reducible apply Frame.ite ?_ ?_)
    | split
    | (dsimp only; split)

theorem zeroFillDone_frame (s : State) (m : Nat) : Frame (fp.regs + fp.sites) s (zeroFillDone s m) := by
  unfold zeroFillDone
  repeat' first
    | with_reducible exact Frame.refl _ _
    | (with_reducible apply Frame.step (State.updChan_frame ..) rfl ?_)
    | (with_reducible apply Frame.step (State.rawSet_frame ..) rfl ?_)
    | (with_reducible apply Frame.step (State.updSite_frame ..) rfl ?_)
    | (with_reducible apply Frame.step (State.setFlag_frame ..) rfl ?_)
    | (with_reducible apply Frame.ite ?_ ?_)
    | (with_reducible apply Frame.foldl _ _ ?_ (fun s x => ?_))
    | split
    | (dsimp only; split)

theorem setKind_frame (s : State) (m v : Nat) : Frame (fp.regs + fp.sent) s (setKind s m v) := by
  unfold setKind
  repeat' first
    | with_reducible exact Frame.refl _ _
    | (with_reducible apply Frame.step (State.setFlags_frame ..) rfl ?_)
    | (with_reducible apply Frame.step (State.setFlag_frame ..) rfl ?_)
    | (with_reducible apply Frame.step (State.wr_frame ..) rfl ?_)
    | (with_reducible apply Frame.foldl _ _ ?_ (fun s x => ?_))
    | (with_reducible apply Frame.ite ?_ ?_)
    | split
    | (dsimp only; split)

theorem stackTempReading_frame (s : State) (m : Nat) (temp : Int) : Frame (fp.regs + fp.sites + fp.sent) s (stackTempReading s m temp) := by
  unfold stackTempReading
  repeat' first
    | with_reducible exact Frame.refl _ _
    | (with_reducible apply Frame.step (State.wr_frame ..) rfl ?_)
    | (with_reducible apply Frame.step (State.setFlag_frame ..) rfl ?_)
    | (with_reducible apply Frame.step (State.err_frame ..) rfl ?_)
    | (with_reducible apply Frame.step (State.updSite_frame ..) rfl ?_)
    | (with_reducible apply Frame.ite ?_ ?_)
    | split
    | (dsimp only; split)

theorem State.siteFifos_frame (s : State) (m : Nat) : Frame (fp.links) s (State.siteFifos s m) := by
  unfold State.siteFifos
  repeat' first
    | with_reducible exact Frame.refl _ _
    | (with_reducible apply Frame.step (State.setLinks_frame ..) rfl ?_)
    | (with_reducible apply Frame.foldl _ _ ?_ (fun s x => ?_))
    | split
    | (dsimp only; split)

theorem State.takeSite_frame {s : State} {m op ch : Nat} {f : Flit} {t : State} (h : State.takeSite s m op = some (ch, f, t)) :
    Frame (fp.links) s t := by
  unfold State.takeSite at h
  dsimp only at h
  split at h
  · cases h
  · split at h
    · cases h
    · cases h; exact Frame.step (State.setLinks_frame _ _) rfl (State.siteFifos_frame _ _)

theorem State.siteCrc_frame (s : State) (m ch : Nat) : Frame (fp.regs + fp.saddles + fp.sites + fp.sent) s (State.siteCrc s m ch) := by
  unfold State.siteCrc
  repeat' first
    | with_reducible exact Frame.refl _ _
    | (with_reducible apply Frame.step (State.crcError_frame ..) rfl ?_)
    | split
    | (dsimp only; split)

theorem memReq_frame (s : State) (m : Nat) (crcBad : Bool) : Frame (fp.regs + fp.links + fp.saddles + fp.sites + fp.sent) s (memReq s m crcBad) := by
  unfold memReq
  repeat' first
    | with_reducible exact Frame.refl _ _
    | (with_reducible apply Frame.step (State.ownerMiss_frame ..) rfl ?_)
    | (with_reducible apply Frame.step (State.noteQueue_frame ..) rfl ?_)
    | (with_reducible apply Frame.step (State.siteCrc_frame ..) rfl ?_)
    | (with_reducible apply Frame.step (State.updSite_frame ..) rfl ?_)
    | (with_reducible refine Frame.step (State.takeSite_frame (by assumption)) rfl ?_)
    | (with_reducible apply Frame.ite ?_ ?_)
    | split
    | (dsimp only; split)

theorem State.storeAt_frame (s : State) (m region off : Nat) : Frame (fp.sites) s (State.storeAt s m region off) := by
  unfold State.storeAt
  repeat' first
    | with_reducible exact Frame.refl _ _
    | (with_reducible apply Frame.step (State.updSite_frame ..) rfl ?_)
    | (with_reducible apply Frame.ite ?_ ?_)
    | split
    | (dsimp only; split)

theorem State.storeRecord_frame (s : State) (m region off n : Nat) : Frame (fp.sites) s (State.storeRecord s m region off n) := by
  unfold State.storeRecord
  repeat' first
    | with_reducible exact Frame.refl _ _
    | (with_reducible apply Frame.step (State.storeAt_frame ..) rfl ?_)
    | (with_reducible apply Frame.step (State.updSite_frame ..) rfl ?_)
    | (with_reducible apply Frame.ite ?_ ?_)
    | split
    | (dsimp only; split)

theorem memData_frame (s : State) (m : Nat) (crcBad : Bool) (u : StackUpset) : Frame (fp.regs + fp.links + fp.saddles + fp.sites + fp.parts + fp.sent) s (memData s m crcBad u) := by
  unfold memData
  repeat' first
    | with_reducible exact Frame.refl _ _
    | (with_reducible apply Frame.step (State.ownerMiss_frame ..) rfl ?_)
    | (with_reducible apply Frame.step (State.readUpset_frame ..) rfl ?_)
    | (with_reducible refine Frame.step (State.readUpset_pair (by assumption)) rfl ?_)
    | (with_reducible apply Frame.step (State.siteCrc_frame ..) rfl ?_)
    | (with_reducible apply Frame.step (State.storeRecord_frame ..) rfl ?_)
    | (with_reducible apply Frame.step (State.meshCount_frame ..) rfl ?_)
    | (with_reducible apply Frame.step (State.spineDone_frame ..) rfl ?_)
    | (with_reducible apply Frame.step (State.updSite_frame ..) rfl ?_)
    | (with_reducible apply Frame.step (State.regionWrite_frame ..) rfl ?_)
    | (with_reducible refine Frame.step (State.takeSite_frame (by assumption)) rfl ?_)
    | (with_reducible apply Frame.ite ?_ ?_)
    | split
    | (dsimp only; split)

theorem State.addXfer_frame (s : State) (p : Nat) (x : Xfer) : Frame (fp.parts) s (State.addXfer s p x) := by
  unfold State.addXfer
  repeat' first
    | with_reducible exact Frame.refl _ _
    | (with_reducible apply Frame.step (State.updPart_frame ..) rfl ?_)
    | split
    | (dsimp only; split)

theorem exportDescriptor_frame (s : State) (t : Nat) (d : ExportDesc) : Frame (fp.routers + fp.parts) s (exportDescriptor s t d) := by
  unfold exportDescriptor
  repeat' first
    | with_reducible exact Frame.refl _ _
    | (with_reducible apply Frame.step (State.updRouter_frame ..) rfl ?_)
    | (with_reducible apply Frame.step (State.addXfer_frame ..) rfl ?_)
    | (with_reducible apply Frame.ite ?_ ?_)
    | split
    | (dsimp only; split)

theorem State.deepFirst_frame (s : State) (m : Nat) (b : Binding) (shard lane i record : Nat) : Frame (fp.sites) s (State.deepFirst s m b shard lane i record) := by
  unfold State.deepFirst
  repeat' first
    | with_reducible exact Frame.refl _ _
    | (with_reducible apply Frame.step (State.updSite_frame ..) rfl ?_)
    | (with_reducible apply Frame.ite ?_ ?_)
    | split
    | (dsimp only; split)

theorem deepPageMove_frame (s : State) (m g page tid region offset record : Nat) : Frame (fp.routers + fp.sites + fp.parts) s (deepPageMove s m g page tid region offset record) := by
  unfold deepPageMove
  repeat' first
    | with_reducible exact Frame.refl _ _
    | (with_reducible apply Frame.step (State.addXfer_frame ..) rfl ?_)
    | (with_reducible apply Frame.step (State.deepFirst_frame ..) rfl ?_)
    | (with_reducible apply Frame.step (State.updRouter_frame ..) rfl ?_)
    | (with_reducible apply Frame.step (State.updSite_frame ..) rfl ?_)
    | (with_reducible apply Frame.step (State.record_frame ..) rfl ?_)
    | (with_reducible apply Frame.foldl _ _ ?_ (fun s x => ?_))
    | (with_reducible apply Frame.ite ?_ ?_)
    | split
    | (dsimp only; split)

theorem deepPageLive_frame (s : State) (m g entry record : Nat) : Frame (fp.regs + fp.cores + fp.crags + fp.sites + fp.reqs) s (deepPageLive s m g entry record) := by
  unfold deepPageLive
  repeat' first
    | with_reducible exact Frame.refl _ _
    | (with_reducible apply Frame.step (State.inc_frame ..) rfl ?_)
    | (with_reducible apply Frame.step (State.memWrite_frame ..) rfl ?_)
    | (with_reducible apply Frame.step (State.updSite_frame ..) rfl ?_)
    | (with_reducible apply Frame.step (State.updReq_frame ..) rfl ?_)
    | (with_reducible apply Frame.step (State.updCore_frame _ _ _ ?_) rfl ?_)
    | (with_reducible apply Frame.step (State.record_frame ..) rfl ?_)
    | (with_reducible apply Frame.ite ?_ ?_)
    | split
    | (dsimp only; split)
    | (intro h; (try dsimp only); repeat' (first | with_reducible exact h _ | with_reducible apply Core.memWf_write | with_reducible apply Core.memWf_setByte | exact Core.memWf_of (h _) rfl rfl rfl | exact Core.memWf_of (Core.memWf_write _ _ (h _)) rfl rfl rfl | exact (Core.memWf_iff _).2 ⟨Table.wf_filter 0 _ ((Core.memWf_iff _).1 (h _)).1, ((Core.memWf_iff _).1 (h _)).2⟩ | exact (Core.memWf_iff _).2 ⟨((Core.memWf_iff _).1 (h _)).1, ((Core.memWf_iff _).1 (h _)).2⟩ | split))

end Sys2Proof.Machine
end

