-- ==== Sys2Proof/Laws/FramePageMover.lean ====
section
/-! SUPPORT. Frames of the operations of Machine/PageMover.lean. -/

namespace Sys2Proof.Machine

theorem State.sourceLines_frame (s : State) (m : Nat) (r : Region) (n : Nat) (at_ : Nat → Nat) (u : StackUpset) : Frame (fp.regs + fp.sites + fp.sent) s (State.sourceLines s m r n at_ u).1 := by
  unfold State.sourceLines
  repeat' first
    | with_reducible exact Frame.refl _ _
    | (with_reducible apply Frame.step (State.readUpset_frame ..) rfl ?_)
    | (refine Frame.step (State.readUpset_pair (by assumption)) rfl ?_)
    | split
    | (dsimp only; split)

theorem State.sourceLines_pair {s : State} {m : Nat} {r : Region} {n : Nat} {at_ : Nat → Nat} {u : StackUpset} {s' : State} {v : List Nat} (hx : State.sourceLines s m r n at_ u = (s', v)) : Frame (fp.regs + fp.sites + fp.sent) s s' := by
  have := State.sourceLines_frame s m r n at_ u
  rw [hx] at this; exact this

theorem State.oldLines_frame (s : State) (m : Nat) (r : Region) (n : Nat) (at_ : Nat → Nat) (u : StackUpset) : Frame (fp.regs + fp.sites + fp.sent) s (State.oldLines s m r n at_ u).1 := by
  unfold State.oldLines
  repeat' first
    | with_reducible exact Frame.refl _ _
    | (with_reducible apply Frame.step (State.readUpset_frame ..) rfl ?_)
    | (refine Frame.step (State.readUpset_pair (by assumption)) rfl ?_)
    | (with_reducible apply Frame.ite ?_ ?_)
    | split
    | (dsimp only; split)

theorem State.oldLines_pair {s : State} {m : Nat} {r : Region} {n : Nat} {at_ : Nat → Nat} {u : StackUpset} {s' : State} {v : List Nat} (hx : State.oldLines s m r n at_ u = (s', v)) : Frame (fp.regs + fp.sites + fp.sent) s s' := by
  have := State.oldLines_frame s m r n at_ u
  rw [hx] at this; exact this

theorem State.pmExec_frame (s : State) (m : Nat) (j : PmJob) : Frame (fp.regs + fp.sites + fp.parts + fp.sent) s (State.pmExec s m j).1 := by
  unfold State.pmExec
  repeat' first
    | with_reducible exact Frame.refl _ _
    | (with_reducible apply Frame.step (State.keyMiss_frame ..) rfl ?_)
    | (with_reducible apply Frame.step (State.ownerMiss_frame ..) rfl ?_)
    | (with_reducible apply Frame.step (State.touchRegion_frame ..) rfl ?_)
    | (with_reducible apply Frame.step (State.inc_frame ..) rfl ?_)
    | (with_reducible apply Frame.step (State.sourceLines_frame ..) rfl ?_)
    | (refine Frame.step (State.sourceLines_pair (by assumption)) rfl ?_)
    | (with_reducible apply Frame.step (State.oldLines_frame ..) rfl ?_)
    | (refine Frame.step (State.oldLines_pair (by assumption)) rfl ?_)
    | (with_reducible apply Frame.step (State.updSite_frame ..) rfl ?_)
    | (with_reducible apply Frame.step (State.emit_frame ..) rfl ?_)
    | (refine Frame.step (State.readUpset_pair (by assumption)) rfl ?_)
    | (with_reducible apply Frame.step (State.stamp_frame ..) rfl ?_)
    | (with_reducible apply Frame.step (State.regionWrite_frame ..) rfl ?_)
    | (with_reducible apply Frame.step (State.upset_frame ..) rfl ?_)
    | (refine Frame.step (State.upset_pair (by assumption)) rfl ?_)
    | (with_reducible apply Frame.ite ?_ ?_)
    | split
    | (dsimp only; split)

theorem State.pmExec_pair {s : State} {m : Nat} {j : PmJob} {s' : State} {v : PmJob} (hx : State.pmExec s m j = (s', v)) : Frame (fp.regs + fp.sites + fp.parts + fp.sent) s s' := by
  have := State.pmExec_frame s m j
  rw [hx] at this; exact this

theorem State.pmRunList_frame (s : State) (m : Nat) (l : List PmJob) : Frame (fp.regs + fp.sites + fp.parts + fp.sent) s (State.pmRunList s m l).1 := by
  induction l generalizing s with
  | nil => exact Frame.refl _ _
  | cons j t ih =>
    unfold State.pmRunList
    dsimp only
    split
    · exact Frame.refl _ _
    · refine Frame.step (ih _) rfl ?_
      split
      · exact Frame.refl _ _
      · exact Frame.step (State.pmExec_frame ..) rfl (Frame.refl _ _)

theorem State.pmRun_frame (s : State) (m : Nat) : Frame (fp.regs + fp.sites + fp.parts + fp.sent) s (State.pmRun s m) := by
  unfold State.pmRun
  repeat' first
    | with_reducible exact Frame.refl _ _
    | (with_reducible apply Frame.step (State.pmRunList_frame ..) rfl ?_)
    | (with_reducible apply Frame.step (State.updSite_frame ..) rfl ?_)
    | (with_reducible apply Frame.ite ?_ ?_)
    | split
    | (dsimp only; split)
    | (with_reducible apply Frame.step (State.pmRunList_frame ..) rfl ?_)

theorem State.pmHead_frame (s : State) (m : Nat) (u : StackUpset) : Frame (fp.regs + fp.cores + fp.sites + fp.parts + fp.sent) s (State.pmHead s m u) := by
  unfold State.pmHead
  repeat' first
    | with_reducible exact Frame.refl _ _
    | (with_reducible apply Frame.step (State.pmExec_frame ..) rfl ?_)
    | (refine Frame.step (State.pmExec_pair (by assumption)) rfl ?_)
    | (with_reducible apply Frame.step (State.updSite_frame ..) rfl ?_)
    | (with_reducible apply Frame.ite ?_ ?_)
    | split
    | (dsimp only; split)

theorem State.pmQueue_frame (s : State) (m op : Nat) (c : PmCmd) (bytes : List Byte) (inner : Bool) (u : StackUpset) : Frame (fp.regs + fp.sites + fp.parts + fp.sent) s (State.pmQueue s m op c bytes inner u) := by
  unfold State.pmQueue
  repeat' first
    | with_reducible exact Frame.refl _ _
    | (with_reducible apply Frame.step (State.noteQueue_frame ..) rfl ?_)
    | (with_reducible apply Frame.step (State.addXfer_frame ..) rfl ?_)
    | (with_reducible apply Frame.step (State.pmRun_frame ..) rfl ?_)
    | (with_reducible apply Frame.step (State.wr_frame ..) rfl ?_)
    | (with_reducible apply Frame.step (State.updSite_frame ..) rfl ?_)
    | (with_reducible apply Frame.ite ?_ ?_)
    | split
    | (dsimp only; split)

theorem State.pmCommand_frame (s : State) (m op : Nat) (c : PmCmd) (bytes : List Byte) (u : StackUpset) : Frame (fp.regs + fp.sites + fp.parts + fp.sent) s (State.pmCommand s m op c bytes u) := by
  unfold State.pmCommand
  repeat' first
    | with_reducible exact Frame.refl _ _
    | (with_reducible apply Frame.step (State.pmQueue_frame ..) rfl ?_)
    | (refine Frame.step (State.upset_pair (by assumption)) rfl ?_)
    | split
    | (dsimp only; split)

theorem State.pmSend_frame (s : State) (m op : Nat) (c : PmCmd) (bytes : List Byte) : Frame (fp.regs + fp.sites + fp.parts + fp.sent) s (State.pmSend s m op c bytes) := by
  unfold State.pmSend
  repeat' first
    | with_reducible exact Frame.refl _ _
    | (with_reducible apply Frame.step (State.pmQueue_frame ..) rfl ?_)
    | split
    | (dsimp only; split)

theorem State.pmDrained_frame (s : State) (m : Nat) : Frame (fp.regs) s (State.pmDrained s m) := by
  unfold State.pmDrained
  repeat' first
    | with_reducible exact Frame.refl _ _
    | (with_reducible apply Frame.step (State.wr_frame ..) rfl ?_)
    | (with_reducible apply Frame.step (State.setFlag_frame ..) rfl ?_)
    | (with_reducible apply Frame.ite ?_ ?_)
    | split
    | (dsimp only; split)

theorem pageMoverDone_frame (s : State) (m : Nat) (u : StackUpset) : Frame (fp.regs + fp.cores + fp.sites + fp.parts + fp.sent) s (pageMoverDone s m u) := by
  unfold pageMoverDone
  repeat' first
    | with_reducible exact Frame.refl _ _
    | (with_reducible apply Frame.step (State.abortLoad_frame ..) rfl ?_)
    | (with_reducible apply Frame.step (State.pmRun_frame ..) rfl ?_)
    | (with_reducible apply Frame.step (State.pmHead_frame ..) rfl ?_)
    | (with_reducible apply Frame.step (State.pmDrained_frame ..) rfl ?_)
    | (with_reducible apply Frame.step (State.spineDone_frame ..) rfl ?_)
    | (with_reducible apply Frame.step (State.wr_frame ..) rfl ?_)
    | (with_reducible apply Frame.step (State.updSite_frame ..) rfl ?_)
    | (with_reducible apply Frame.step (State.emit_frame ..) rfl ?_)
    | (with_reducible apply Frame.ite ?_ ?_)
    | split
    | (dsimp only; split)

end Sys2Proof.Machine
end

