-- ==== Sys2Proof/Laws/FrameRings.lean ====
section
/-! SUPPORT. Frames of the operations of Machine/Rings.lean. -/

namespace Sys2Proof.Machine

theorem State.linkCheck_frame (s : State) : Frame (fp.regs + fp.parts + fp.sent) s (State.linkCheck s) := by
  unfold State.linkCheck
  repeat' first
    | with_reducible exact Frame.refl _ _
    | (with_reducible apply Frame.step (State.err_frame ..) rfl ?_)
    | (with_reducible apply Frame.step (State.updPart_frame ..) rfl ?_)
    | (with_reducible apply Frame.ite ?_ ?_)
    | (with_reducible apply Frame.foldl _ _ ?_ (fun s x => ?_))
    | split
    | (dsimp only; split)

theorem State.apertViol_frame (s : State) (p : Nat) : Frame (fp.regs + fp.sent) s (State.apertViol s p) := by
  unfold State.apertViol
  repeat' first
    | with_reducible exact Frame.refl _ _
    | (with_reducible apply Frame.step (State.inc_frame ..) rfl ?_)
    | (with_reducible apply Frame.step (State.err_frame ..) rfl ?_)
    | split
    | (dsimp only; split)

theorem State.transmit_frame (s : State) (n vc k : Nat) (m : Msg) : Frame (fp.ports + fp.sent) s (State.transmit s n vc k m) := by
  unfold State.transmit
  repeat' first
    | with_reducible exact Frame.refl _ _
    | (with_reducible apply Frame.step (State.updPort_frame ..) rfl ?_)
    | (with_reducible apply Frame.step (State.emit_frame ..) rfl ?_)
    | (with_reducible apply Frame.ite ?_ ?_)
    | split
    | (dsimp only; split)

theorem flushWrite_frame (a : State × List Nat × List Write) (w : Write) : Frame (fp.ports + fp.sent) a.1 (flushWrite a w).1 := by
  unfold flushWrite
  dsimp only
  repeat' first
    | with_reducible exact Frame.refl _ _
    | (with_reducible apply Frame.step (State.transmit_frame ..) rfl ?_)
    | split

theorem flushRead_frame (a : State × List Read) (r : Read) : Frame (fp.ports + fp.sent) a.1 (flushRead a r).1 := by
  unfold flushRead
  dsimp only
  repeat' first
    | with_reducible exact Frame.refl _ _
    | (with_reducible apply Frame.step (State.transmit_frame ..) rfl ?_)
    | split

theorem flushMsg_frame (n : Nat) (a : State × List (Msg × Nat × Nat)) (m : Msg × Nat × Nat) : Frame (fp.ports + fp.sent) a.1 (flushMsg n a m).1 := by
  unfold flushMsg
  dsimp only
  repeat' first
    | with_reducible exact Frame.refl _ _
    | (with_reducible apply Frame.step (State.transmit_frame ..) rfl ?_)
    | split

theorem State.flushPort_frame (s : State) (n : Nat) : Frame (fp.ports + fp.sent) s (State.flushPort s n) := by
  unfold State.flushPort
  refine Frame.step (State.updPort_frame ..) rfl ?_
  exact Frame.foldlFst (flushMsg n) _ _ (Frame.refl _ _) (fun x e => Frame.step (flushMsg_frame n x e) rfl (Frame.refl _ _))

theorem State.flushWrites_frame (s : State) : Frame (fp.ports + fp.writes + fp.sent) s (State.flushWrites s) := by
  unfold State.flushWrites
  refine Frame.step (State.setWrites_frame ..) rfl ?_
  exact Frame.foldlFst (flushWrite) _ _ (Frame.refl _ _) (fun x e => Frame.step (flushWrite_frame x e) rfl (Frame.refl _ _))

theorem State.flushReads_frame (s : State) : Frame (fp.ports + fp.reads + fp.sent) s (State.flushReads s) := by
  unfold State.flushReads
  refine Frame.step (State.setReads_frame ..) rfl ?_
  exact Frame.foldlFst (flushRead) _ _ (Frame.refl _ _) (fun x e => Frame.step (flushRead_frame x e) rfl (Frame.refl _ _))

theorem State.flush_frame (s : State) : Frame (fp.ports + fp.writes + fp.reads + fp.sent) s (State.flush s) := by
  unfold State.flush
  repeat' first
    | with_reducible exact Frame.refl _ _
    | (with_reducible apply Frame.step (State.flushPort_frame ..) rfl ?_)
    | (with_reducible apply Frame.step (State.flushWrites_frame ..) rfl ?_)
    | (with_reducible apply Frame.step (State.flushReads_frame ..) rfl ?_)
    | (with_reducible apply Frame.foldl _ _ ?_ (fun s x => ?_))
    | split
    | (dsimp only; split)

theorem State.sendMsg_frame (s : State) (n vc k : Nat) (m : Msg) : Frame (fp.ports + fp.sent) s (State.sendMsg s n vc k m) := by
  unfold State.sendMsg
  repeat' first
    | with_reducible exact Frame.refl _ _
    | (with_reducible apply Frame.step (State.updPort_frame ..) rfl ?_)
    | (with_reducible apply Frame.step (State.flushPort_frame ..) rfl ?_)
    | split
    | (dsimp only; split)

theorem State.portOff_frame (s : State) (n st : Nat) : Frame (fp.regs + fp.parts + fp.ports + fp.writes + fp.reads + fp.sent) s (State.portOff s n st) := by
  unfold State.portOff
  repeat' first
    | with_reducible exact Frame.refl _ _
    | (with_reducible apply Frame.step (State.wr_frame ..) rfl ?_)
    | (with_reducible apply Frame.step (State.updPort_frame ..) rfl ?_)
    | (with_reducible apply Frame.step (State.setWrites_frame ..) rfl ?_)
    | (with_reducible apply Frame.step (State.setReads_frame ..) rfl ?_)
    | (with_reducible apply Frame.step (State.flush_frame ..) rfl ?_)
    | (with_reducible apply Frame.step (State.linkCheck_frame ..) rfl ?_)
    | (with_reducible apply Frame.ite ?_ ?_)
    | split
    | (dsimp only; split)

theorem State.portDown_frame (s : State) (n : Nat) : Frame (fp.regs + fp.parts + fp.ports + fp.writes + fp.reads + fp.sent) s (State.portDown s n) := by
  unfold State.portDown
  repeat' first
    | with_reducible exact Frame.refl _ _
    | (with_reducible apply Frame.step (State.inc_frame ..) rfl ?_)
    | (with_reducible apply Frame.step (State.err_frame ..) rfl ?_)
    | (with_reducible apply Frame.step (State.portOff_frame ..) rfl ?_)
    | split
    | (dsimp only; split)

theorem State.sendWrite_frame (s : State) (p : Nat) (ord : Bool) (addr : Nat) (bs : List Byte) : Frame (fp.regs + fp.ports + fp.writes + fp.reads + fp.sent) s (State.sendWrite s p ord addr bs) := by
  unfold State.sendWrite
  repeat' first
    | with_reducible exact Frame.refl _ _
    | (with_reducible apply Frame.step (State.apertViol_frame ..) rfl ?_)
    | (with_reducible apply Frame.step (State.setWrites_frame ..) rfl ?_)
    | (with_reducible apply Frame.step (State.flush_frame ..) rfl ?_)
    | (with_reducible apply Frame.ite ?_ ?_)
    | split
    | (dsimp only; split)

theorem State.sendRead_frame (s : State) (p addr : Nat) (cached : Bool) (what : Nat) : Frame (fp.ports + fp.writes + fp.reads + fp.sent) s (State.sendRead s p addr cached what) := by
  unfold State.sendRead
  repeat' first
    | with_reducible exact Frame.refl _ _
    | (with_reducible apply Frame.step (State.setReads_frame ..) rfl ?_)
    | (with_reducible apply Frame.step (State.flush_frame ..) rfl ?_)
    | (with_reducible apply Frame.ite ?_ ?_)
    | split
    | (dsimp only; split)

theorem State.fire_frame (s : State) (p : Nat) : Frame (fp.regs + fp.parts + fp.ports + fp.writes + fp.reads + fp.sent) s (State.fire s p) := by
  unfold State.fire
  repeat' first
    | with_reducible exact Frame.refl _ _
    | (with_reducible apply Frame.step (State.setFlag_frame ..) rfl ?_)
    | (with_reducible apply Frame.step (State.updPart_frame ..) rfl ?_)
    | (with_reducible apply Frame.step (State.sendWrite_frame ..) rfl ?_)
    | (with_reducible apply Frame.step (intAddr_frame ..) rfl ?_)
    | split
    | (dsimp only; split)

theorem State.tryFire_frame (s : State) (p : Nat) : Frame (fp.regs + fp.parts + fp.ports + fp.writes + fp.reads + fp.sent) s (State.tryFire s p) := by
  unfold State.tryFire
  repeat' first
    | with_reducible exact Frame.refl _ _
    | (with_reducible apply Frame.step (State.fire_frame ..) rfl ?_)
    | (with_reducible apply Frame.step (State.updPart_frame ..) rfl ?_)
    | (with_reducible apply Frame.ite ?_ ?_)
    | split
    | (dsimp only; split)

theorem State.writeCpl_frame (s : State) (p : Nat) (c : Cpl) : Frame (fp.regs + fp.parts + fp.reqs + fp.ports + fp.writes + fp.reads + fp.sent) s (State.writeCpl s p c) := by
  unfold State.writeCpl
  repeat' first
    | with_reducible exact Frame.refl _ _
    | (with_reducible apply Frame.step (State.sendWrite_frame ..) rfl ?_)
    | (with_reducible apply Frame.step (State.wr_frame ..) rfl ?_)
    | (with_reducible apply Frame.step (State.updReq_frame ..) rfl ?_)
    | (with_reducible apply Frame.step (State.tryFire_frame ..) rfl ?_)
    | (with_reducible apply Frame.ite ?_ ?_)
    | split
    | (dsimp only; split)

theorem State.postCplAt_frame (s : State) (p : Nat) (c : Cpl) : Frame (fp.regs + fp.parts + fp.reqs + fp.ports + fp.writes + fp.reads + fp.sent) s (State.postCplAt s p c) := by
  unfold State.postCplAt
  repeat' first
    | with_reducible exact Frame.refl _ _
    | (with_reducible apply Frame.step (State.updPart_frame ..) rfl ?_)
    | (with_reducible apply Frame.step (State.writeCpl_frame ..) rfl ?_)
    | (with_reducible apply Frame.ite ?_ ?_)
    | split
    | (dsimp only; split)

theorem State.postCpl_frame (s : State) (p : Nat) (c : Cpl) : Frame (fp.regs + fp.parts + fp.reqs + fp.ports + fp.writes + fp.reads + fp.sent) s (State.postCpl s p c) := by
  unfold State.postCpl
  repeat' first
    | with_reducible exact Frame.refl _ _
    | (with_reducible apply Frame.step (State.postCplAt_frame ..) rfl ?_)
    | split
    | (dsimp only; split)

theorem heldCompletionWrite_frame (s : State) (p : Nat) : Frame (fp.regs + fp.parts + fp.reqs + fp.ports + fp.writes + fp.reads + fp.sent) s (heldCompletionWrite s p) := by
  unfold heldCompletionWrite
  repeat' first
    | with_reducible exact Frame.refl _ _
    | (with_reducible apply Frame.step (State.updPart_frame ..) rfl ?_)
    | (with_reducible apply Frame.step (State.writeCpl_frame ..) rfl ?_)
    | (with_reducible apply Frame.ite ?_ ?_)
    | split
    | (dsimp only; split)

theorem cmdPi_frame (s : State) (p v : Nat) : Frame (fp.regs + fp.parts + fp.sent) s (cmdPi s p v) := by
  unfold cmdPi
  repeat' first
    | with_reducible exact Frame.refl _ _
    | (with_reducible apply Frame.step (State.err_frame ..) rfl ?_)
    | (with_reducible apply Frame.step (State.wr_frame ..) rfl ?_)
    | (with_reducible apply Frame.step (State.updPart_frame ..) rfl ?_)
    | (with_reducible apply Frame.ite ?_ ?_)
    | split
    | (dsimp only; split)

theorem cplCi_frame (s : State) (p v : Nat) : Frame (fp.regs) s (cplCi s p v) := by
  unfold cplCi
  repeat' first
    | with_reducible exact Frame.refl _ _
    | (with_reducible apply Frame.step (State.wr_frame ..) rfl ?_)
    | split
    | (dsimp only; split)

theorem arm_frame (s : State) (p : Nat) : Frame (fp.regs + fp.parts + fp.ports + fp.writes + fp.reads + fp.sent) s (arm s p) := by
  unfold arm
  repeat' first
    | with_reducible exact Frame.refl _ _
    | (with_reducible apply Frame.step (State.setFlag_frame ..) rfl ?_)
    | (with_reducible apply Frame.step (State.tryFire_frame ..) rfl ?_)
    | (with_reducible apply Frame.ite ?_ ?_)
    | split
    | (dsimp only; split)

theorem intAddr_frame (s : State) (p v : Nat) : Frame (fp.regs + fp.parts) s (intAddr s p v) := by
  unfold intAddr
  repeat' first
    | with_reducible exact Frame.refl _ _
    | (with_reducible apply Frame.step (State.wr_frame ..) rfl ?_)
    | (with_reducible apply Frame.step (State.updPart_frame ..) rfl ?_)
    | split
    | (dsimp only; split)

theorem intHoldoffExpire_frame (s : State) (p : Nat) : Frame (fp.regs + fp.parts + fp.ports + fp.writes + fp.reads + fp.sent) s (intHoldoffExpire s p) := by
  unfold intHoldoffExpire
  repeat' first
    | with_reducible exact Frame.refl _ _
    | (with_reducible apply Frame.step (State.fire_frame ..) rfl ?_)
    | (with_reducible apply Frame.ite ?_ ?_)
    | split
    | (dsimp only; split)

theorem State.nack_frame (s : State) (p : Nat) (c : CmdIn) (code handle : Nat) : Frame (fp.regs + fp.parts + fp.reqs + fp.ports + fp.writes + fp.reads + fp.sent) s (State.nack s p c code handle) := by
  unfold State.nack
  repeat' first
    | with_reducible exact Frame.refl _ _
    | (with_reducible apply Frame.step (State.postCpl_frame ..) rfl ?_)
    | split
    | (dsimp only; split)

theorem State.nackFree_frame (s : State) (p : Nat) (c : CmdIn) (code : Nat) : Frame (fp.regs + fp.parts + fp.reqs + fp.ports + fp.writes + fp.reads + fp.sent + fp.fresh) s (State.nackFree s p c code) := by
  unfold State.nackFree
  repeat' first
    | with_reducible exact Frame.refl _ _
    | (with_reducible apply Frame.step (State.free_frame ..) rfl ?_)
    | (with_reducible apply Frame.step (State.nack_frame ..) rfl ?_)
    | split
    | (dsimp only; split)
    | (refine Frame.step (State.free_pair (by assumption)) rfl ?_)

theorem State.enterCmd_frame (s : State) (p : Nat) (c : CmdIn) : Frame (fp.parts + fp.reqs) s (State.enterCmd s p c) := by
  unfold State.enterCmd
  repeat' first
    | with_reducible exact Frame.refl _ _
    | (with_reducible apply Frame.step (State.updPart_frame ..) rfl ?_)
    | (with_reducible apply Frame.step (State.updReq_frame ..) rfl ?_)
    | (with_reducible apply Frame.ite ?_ ?_)
    | split
    | (dsimp only; split)

theorem State.dropEntry_frame (s : State) (c : CmdIn) : Frame (fp.reqs) s (State.dropEntry s c) := by
  unfold State.dropEntry
  repeat' first
    | with_reducible exact Frame.refl _ _
    | (with_reducible apply Frame.step (State.updReq_frame ..) rfl ?_)
    | split
    | (dsimp only; split)

theorem commandFetch_frame (s : State) (p : Nat) (entry : List Byte) : Frame (fp.regs + fp.parts + fp.reqs + fp.ports + fp.writes + fp.reads + fp.sent + fp.fresh) s (commandFetch s p entry) := by
  unfold commandFetch
  repeat' first
    | with_reducible exact Frame.refl _ _
    | (with_reducible apply Frame.step (State.apertViol_frame ..) rfl ?_)
    | (with_reducible apply Frame.step (State.sendWrite_frame ..) rfl ?_)
    | (with_reducible apply Frame.step (State.sendRead_frame ..) rfl ?_)
    | (with_reducible apply Frame.step (State.nackFree_frame ..) rfl ?_)
    | (with_reducible apply Frame.step (State.enterCmd_frame ..) rfl ?_)
    | (with_reducible apply Frame.step (State.wr_frame ..) rfl ?_)
    | (with_reducible apply Frame.step (State.updPart_frame ..) rfl ?_)
    | (with_reducible apply Frame.ite ?_ ?_)
    | split
    | (dsimp only; split)

theorem State.takeCmd_frame {s : State} {p opc : Nat} {c : CmdIn} {t : State} (h : State.takeCmd s p opc = some (c, t)) :
    Frame (fp.parts) s t := by
  unfold State.takeCmd at h
  split at h
  · split at h
    · cases h; exact State.updPart_frame ..
    · cases h
  · cases h

end Sys2Proof.Machine
end

