-- ==== Sys2Proof/Laws/FrameLanes.lean ====
section
/-! SUPPORT. Frames of the operations of Machine/Lanes.lean. -/

namespace Sys2Proof.Machine

theorem State.updLane_frame (s : State) (p l : Nat) (f : Lane → Lane) : Frame (fp.parts) s (State.updLane s p l f) := by
  unfold State.updLane
  repeat' first
    | with_reducible exact Frame.refl _ _
    | (with_reducible apply Frame.step (State.updPart_frame ..) rfl ?_)
    | split
    | (dsimp only; split)

theorem State.writeDir_frame (s : State) (p g lane n cp : Nat) (deep : Bool) (b : Binding) : Frame (fp.regs + fp.cores + fp.crags) s (State.writeDir s p g lane n cp deep b) := by
  unfold State.writeDir
  repeat' first
    | with_reducible exact Frame.refl _ _
    | (with_reducible apply Frame.step (State.memWrite_frame ..) rfl ?_)
    | (with_reducible apply Frame.step (State.updCore_frame _ _ _ ?_) rfl ?_)
    | (with_reducible apply Frame.foldl _ _ ?_ (fun s x => ?_))
    | (with_reducible apply Frame.ite ?_ ?_)
    | split
    | (dsimp only; split)
    | (intro h; (try dsimp only); repeat' (first | with_reducible exact h _ | with_reducible apply Core.memWf_write | with_reducible apply Core.memWf_setByte | exact Core.memWf_of (h _) rfl rfl rfl | exact Core.memWf_of (Core.memWf_write _ _ (h _)) rfl rfl rfl | exact (Core.memWf_iff _).2 ⟨Table.wf_filter 0 _ ((Core.memWf_iff _).1 (h _)).1, ((Core.memWf_iff _).1 (h _)).2⟩ | exact (Core.memWf_iff _).2 ⟨((Core.memWf_iff _).1 (h _)).1, ((Core.memWf_iff _).1 (h _)).2⟩ | split))

theorem State.writeDirs_frame (s : State) (p lane n cp : Nat) (deep : Bool) : Frame (fp.regs + fp.cores + fp.crags) s (State.writeDirs s p lane n cp deep) := by
  unfold State.writeDirs
  repeat' first
    | with_reducible exact Frame.refl _ _
    | (with_reducible apply Frame.step (State.writeDir_frame ..) rfl ?_)
    | (with_reducible apply Frame.foldl _ _ ?_ (fun s x => ?_))
    | split
    | (dsimp only; split)

theorem State.writePtrs_frame (s : State) (p lane cp : Nat) (wp : Bool) : Frame (fp.regs + fp.cores + fp.crags) s (State.writePtrs s p lane cp wp) := by
  unfold State.writePtrs
  repeat' first
    | with_reducible exact Frame.refl _ _
    | (with_reducible apply Frame.step (State.memWrite_frame ..) rfl ?_)
    | (with_reducible apply Frame.ite ?_ ?_)
    | (with_reducible apply Frame.foldl _ _ ?_ (fun s x => ?_))
    | split
    | (dsimp only; split)

theorem State.prime_frame (s : State) (p lane : Nat) : Frame (fp.regs + fp.cores + fp.crags + fp.parts) s (State.prime s p lane) := by
  unfold State.prime
  repeat' first
    | with_reducible exact Frame.refl _ _
    | (with_reducible apply Frame.step (State.updLane_frame ..) rfl ?_)
    | (with_reducible apply Frame.step (State.writeDirs_frame ..) rfl ?_)
    | split
    | (dsimp only; split)

theorem lanePrime_frame (s : State) (p lane : Nat) : Frame (fp.regs + fp.cores + fp.crags + fp.parts) s (lanePrime s p lane) := by
  unfold lanePrime
  repeat' first
    | with_reducible exact Frame.refl _ _
    | (with_reducible apply Frame.step (State.prime_frame ..) rfl ?_)
    | (with_reducible apply Frame.ite ?_ ?_)
    | split
    | (dsimp only; split)

theorem State.takeTid_frame (s : State) (p : Nat) : Frame (fp.parts) s (State.takeTid s p).2 := by
  unfold State.takeTid
  repeat' first
    | with_reducible exact Frame.refl _ _
    | (with_reducible apply Frame.step (State.updPart_frame ..) rfl ?_)
    | split
    | (dsimp only; split)

theorem State.takeTid_pair {s : State} {p : Nat} {s' : State} {v0 : Nat} (hx : State.takeTid s p = (v0, s')) : Frame (fp.parts) s s' := by
  have := State.takeTid_frame s p
  rw [hx] at this; exact this

theorem State.addPiece_frame (s : State) (h : Nat) (x : Piece) : Frame (fp.reqs) s (State.addPiece s h x) := by
  unfold State.addPiece
  repeat' first
    | with_reducible exact Frame.refl _ _
    | (with_reducible apply Frame.step (State.updReq_frame ..) rfl ?_)
    | split
    | (dsimp only; split)

theorem State.exportPiece_frame (s : State) (p h : Nat) (x : Piece) (src a : Nat) : Frame (fp.regs + fp.routers + fp.sites + fp.parts + fp.sent) s (State.exportPiece s p h x src a) := by
  unfold State.exportPiece
  repeat' first
    | with_reducible exact Frame.refl _ _
    | (with_reducible apply Frame.step (State.addXfer_frame ..) rfl ?_)
    | (with_reducible apply Frame.step (exportDescriptor_frame ..) rfl ?_)
    | (with_reducible apply Frame.step (State.takeTid_frame ..) rfl ?_)
    | (refine Frame.step (State.takeTid_pair (by assumption)) rfl ?_)
    | (with_reducible apply Frame.step (State.pmSend_frame ..) rfl ?_)
    | (with_reducible apply Frame.ite ?_ ?_)
    | split
    | (dsimp only; split)

theorem State.spillOldest_frame {s : State} {p : Nat} {t : State} (h : State.spillOldest s p = some t) : Frame (fp.regs + fp.cores + fp.sites + fp.parts + fp.reqs + fp.ports + fp.writes + fp.reads + fp.sent) s t := by
  unfold State.spillOldest at h
  dsimp only at h
  split at h
  · cases h
  · split at h
    · cases h
    · cases h
      refine Frame.step (State.updReq_frame ..) rfl ?_
      refine Frame.foldlFst _ _ _ (Frame.refl _ _) (fun x e => ?_)
      dsimp only
      exact Frame.step (State.sendWrite_frame ..) rfl (Frame.step (State.pmSend_frame ..) rfl
        (Frame.step (State.takeTid_frame ..) rfl (Frame.refl _ _)))

theorem State.placeOrSpill_frame (s : State) (p : Nat) (only : Option Nat) (size n : Nat) :
    Frame (fp.regs + fp.cores + fp.sites + fp.parts + fp.reqs + fp.ports + fp.writes + fp.reads + fp.sent) s (State.placeOrSpill s p only size n).1 := by
  induction n generalizing s with
  | zero => exact Frame.refl _ _
  | succ n ih =>
    unfold State.placeOrSpill
    split
    · exact Frame.refl _ _
    · split
      · exact Frame.refl _ _
      · rename_i h
        exact Frame.step (ih _) rfl (Frame.step (State.spillOldest_frame h) rfl (Frame.refl _ _))

theorem State.placeOrSpill_pair {s : State} {p : Nat} {only : Option Nat} {size n : Nat} {t : State} {v : Option (Nat × Nat × Nat)}
    (h : State.placeOrSpill s p only size n = (t, v)) : Frame (fp.regs + fp.cores + fp.sites + fp.parts + fp.reqs + fp.ports + fp.writes + fp.reads + fp.sent) s t := by
  have := State.placeOrSpill_frame s p only size n
  rw [h] at this; exact this

theorem State.exportAll_frame (s : State) (p h lane : Nat) : Frame (fp.regs + fp.cores + fp.routers + fp.sites + fp.parts + fp.reqs + fp.ports + fp.writes + fp.reads + fp.sent) s (State.exportAll s p h lane).1 := by
  unfold State.exportAll
  refine Frame.foldlFst _ _ _ (Frame.refl _ _) (fun x e => ?_)
  repeat' first
    | with_reducible exact Frame.refl _ _
    | (with_reducible apply Frame.step (State.exportPiece_frame ..) rfl ?_)
    | (with_reducible apply Frame.step (State.addPiece_frame ..) rfl ?_)
    | split
    | (refine Frame.step (State.placeOrSpill_pair (by assumption)) rfl ?_)
    | dsimp only

theorem State.exportAll_pair {s : State} {p h lane : Nat} {t : State} {v : Bool} (hs : State.exportAll s p h lane = (t, v)) :
    Frame (fp.regs + fp.cores + fp.routers + fp.sites + fp.parts + fp.reqs + fp.ports + fp.writes + fp.reads + fp.sent) s t := by
  have := State.exportAll_frame s p h lane
  rw [hs] at this; exact this

theorem State.dropXfers_frame (s : State) (p h : Nat) : Frame (fp.parts) s (State.dropXfers s p h) := by
  unfold State.dropXfers
  repeat' first
    | with_reducible exact Frame.refl _ _
    | (with_reducible apply Frame.step (State.updPart_frame ..) rfl ?_)
    | split
    | (dsimp only; split)

theorem State.unspill_frame {s : State} {p h : Nat} {bytes : List Byte} {t : State} (hs : State.unspill s p h bytes = some t) :
    Frame (fp.regs + fp.cores + fp.sites + fp.parts + fp.reqs + fp.ports + fp.writes + fp.reads + fp.sent) s t := by
  unfold State.unspill at hs
  dsimp only at hs
  split at hs
  · cases hs; exact Frame.refl _ _
  · split at hs
    · cases hs
      refine Frame.foldlFst _ _ _ ?_ (fun x e => ?_)
      · exact Frame.step (State.updReq_frame ..) rfl (Frame.refl _ _)
      · repeat' first
          | with_reducible exact Frame.refl _ _
          | (with_reducible apply Frame.step (State.pmSend_frame ..) rfl ?_)
          | (with_reducible apply Frame.step (State.takeTid_frame ..) rfl ?_)
          | (with_reducible apply Frame.step (State.addPiece_frame ..) rfl ?_)
          | split
          | (refine Frame.step (State.placeOrSpill_pair (by assumption)) rfl ?_)
          | dsimp only
    · cases hs

theorem State.restore_frame (s : State) (p h lane : Nat) : Frame (fp.regs + fp.sites + fp.parts + fp.sent) s (State.restore s p h lane) := by
  unfold State.restore
  repeat' first
    | with_reducible exact Frame.refl _ _
    | (with_reducible apply Frame.step (State.addXfer_frame ..) rfl ?_)
    | (with_reducible apply Frame.step (State.takeTid_frame ..) rfl ?_)
    | (refine Frame.step (State.takeTid_pair (by assumption)) rfl ?_)
    | (with_reducible apply Frame.step (State.pmSend_frame ..) rfl ?_)
    | (with_reducible apply Frame.foldl _ _ ?_ (fun s x => ?_))
    | split
    | (dsimp only; split)

end Sys2Proof.Machine
end

