-- ==== Sys2Proof/Laws/FrameSpurs.lean ====
section
/-! SUPPORT. Frames of the operations of Machine/Spurs.lean. -/

namespace Sys2Proof.Machine

theorem State.draftPart_frame (s : State) (p v : Nat) : Frame (fp.regs) s (State.draftPart s p v) := by
  unfold State.draftPart
  repeat' first
    | with_reducible exact Frame.refl _ _
    | (with_reducible apply Frame.step (State.wr_frame ..) rfl ?_)
    | (with_reducible apply Frame.ite ?_ ?_)
    | split
    | (dsimp only; split)

theorem pairEn_frame (s : State) (p v : Nat) : Frame (fp.regs + fp.sent) s (pairEn s p v) := by
  unfold pairEn
  repeat' first
    | with_reducible exact Frame.refl _ _
    | (with_reducible apply Frame.step (State.wr_frame ..) rfl ?_)
    | (with_reducible apply Frame.step (State.setFlag_frame ..) rfl ?_)
    | (with_reducible apply Frame.step (State.err_frame ..) rfl ?_)
    | (with_reducible apply Frame.ite ?_ ?_)
    | split
    | (dsimp only; split)

theorem State.updSpur_frame (s : State) (p lane : Nat) (f : Spur → Spur) : Frame (fp.parts) s (State.updSpur s p lane f) := by
  unfold State.updSpur
  repeat' first
    | with_reducible exact Frame.refl _ _
    | (with_reducible apply Frame.step (State.updLane_frame ..) rfl ?_)
    | split
    | (dsimp only; split)

theorem State.sendDraft_frame (s : State) (p d lane : Nat) (keep : Bool) (kd v : Nat) (toks : List Nat) : Frame (fp.parts + fp.sent) s (State.sendDraft s p d lane keep kd v toks) := by
  unfold State.sendDraft
  repeat' first
    | with_reducible exact Frame.refl _ _
    | (with_reducible apply Frame.step (State.updSpur_frame ..) rfl ?_)
    | (with_reducible apply Frame.step (State.updPart_frame ..) rfl ?_)
    | (with_reducible apply Frame.step (State.emit_frame ..) rfl ?_)
    | (with_reducible apply Frame.step (draft_frame ..) rfl ?_)
    | (with_reducible apply Frame.ite ?_ ?_)
    | split
    | (dsimp only; split)

theorem State.sendDrafts_frame (s : State) (p d lane kd v n : Nat) (toks : List Nat) :
    Frame (fp.parts + fp.sent) s (State.sendDrafts s p d lane kd v n toks) := by
  induction n generalizing s v toks with
  | zero => exact Frame.refl _ _
  | succ n ih =>
    unfold State.sendDrafts
    split
    · exact Frame.refl _ _
    · exact Frame.step (ih _ _ _) rfl (Frame.step (State.sendDraft_frame ..) rfl (Frame.refl _ _))

theorem State.takeDraft_frame (s : State) (p lane h : Nat) : Frame (fp.regs + fp.cores + fp.crags + fp.parts + fp.sent) s (State.takeDraft s p lane h) := by
  unfold State.takeDraft
  repeat' first
    | with_reducible exact Frame.refl _ _
    | (with_reducible apply Frame.step (State.updLane_frame ..) rfl ?_)
    | (with_reducible apply Frame.step (State.writeDirs_frame ..) rfl ?_)
    | (with_reducible apply Frame.step (State.wr_frame ..) rfl ?_)
    | (with_reducible apply Frame.step (State.updSpur_frame ..) rfl ?_)
    | (with_reducible apply Frame.step (State.sendDrafts_frame ..) rfl ?_)
    | (with_reducible apply Frame.ite ?_ ?_)
    | split
    | (dsimp only; split)
    | (with_reducible apply Frame.step (State.sendDrafts_frame ..) rfl ?_)

theorem State.admitSpur_frame (s : State) (p lane h : Nat) : Frame (fp.regs + fp.cores + fp.crags + fp.parts + fp.sent) s (State.admitSpur s p lane h) := by
  unfold State.admitSpur
  repeat' first
    | with_reducible exact Frame.refl _ _
    | (with_reducible apply Frame.step (State.takeDraft_frame ..) rfl ?_)
    | (with_reducible apply Frame.step (State.inc_frame ..) rfl ?_)
    | (with_reducible apply Frame.ite ?_ ?_)
    | split
    | (dsimp only; split)

theorem State.releaseDraft_frame (s : State) (p lane h : Nat) : Frame (fp.regs + fp.parts) s (State.releaseDraft s p lane h) := by
  unfold State.releaseDraft
  repeat' first
    | with_reducible exact Frame.refl _ _
    | (with_reducible apply Frame.step (State.updLane_frame ..) rfl ?_)
    | (with_reducible apply Frame.step (State.updPart_frame ..) rfl ?_)
    | (with_reducible apply Frame.step (State.wr_frame ..) rfl ?_)
    | split
    | (dsimp only; split)

theorem State.retryDrafts_frame (s : State) (p : Nat) : Frame (fp.regs + fp.cores + fp.crags + fp.parts + fp.sent) s (State.retryDrafts s p) := by
  unfold State.retryDrafts
  repeat' first
    | with_reducible exact Frame.refl _ _
    | (with_reducible apply Frame.step (State.takeDraft_frame ..) rfl ?_)
    | (with_reducible apply Frame.ite ?_ ?_)
    | (with_reducible apply Frame.foldl _ _ ?_ (fun s x => ?_))
    | split
    | (dsimp only; split)

theorem State.idleDraft_frame (s : State) (p lane : Nat) : Frame (fp.parts) s (State.idleDraft s p lane) := by
  unfold State.idleDraft
  repeat' first
    | with_reducible exact Frame.refl _ _
    | (with_reducible apply Frame.step (State.updLane_frame ..) rfl ?_)
    | (with_reducible apply Frame.step (State.updSpur_frame ..) rfl ?_)
    | split
    | (dsimp only; split)

theorem State.spurVerdict_frame (s : State) (p lane h v ke a tok : Nat) (probe : Bool) : Frame (fp.regs + fp.parts + fp.sent) s (State.spurVerdict s p lane h v ke a tok probe) := by
  unfold State.spurVerdict
  repeat' first
    | with_reducible exact Frame.refl _ _
    | (with_reducible apply Frame.step (State.inc_frame ..) rfl ?_)
    | (with_reducible apply Frame.step (State.updSpur_frame ..) rfl ?_)
    | (with_reducible apply Frame.step (State.idleDraft_frame ..) rfl ?_)
    | (with_reducible apply Frame.step (State.sendDrafts_frame ..) rfl ?_)
    | (with_reducible apply Frame.step (State.sendDraft_frame ..) rfl ?_)
    | (with_reducible apply Frame.ite ?_ ?_)
    | split
    | (dsimp only; split)
    | (with_reducible apply Frame.step (State.sendDrafts_frame ..) rfl ?_)

theorem State.draftDown_frame (s : State) (d : Nat) : Frame (fp.regs + fp.parts + fp.sent) s (State.draftDown s d) := by
  unfold State.draftDown
  repeat' first
    | with_reducible exact Frame.refl _ _
    | (with_reducible apply Frame.step (State.updSpur_frame ..) rfl ?_)
    | (with_reducible apply Frame.step (State.releaseDraft_frame ..) rfl ?_)
    | (with_reducible apply Frame.step (State.err_frame ..) rfl ?_)
    | (with_reducible apply Frame.step (State.updPart_frame ..) rfl ?_)
    | (with_reducible apply Frame.foldl _ _ ?_ (fun s x => ?_))
    | split
    | (dsimp only; split)

theorem State.chanDrop_frame (s : State) (p : Nat) : Frame (fp.regs + fp.sent) s (State.chanDrop s p) := by
  unfold State.chanDrop
  repeat' first
    | with_reducible exact Frame.refl _ _
    | (with_reducible apply Frame.step (State.inc_frame ..) rfl ?_)
    | (with_reducible apply Frame.step (State.err_frame ..) rfl ?_)
    | split
    | (dsimp only; split)

theorem draft_frame (s : State) (d : Nat) : Frame (fp.regs + fp.cores + fp.crags + fp.parts + fp.sent) s (draft s d) := by
  unfold draft
  repeat' first
    | with_reducible exact Frame.refl _ _
    | (with_reducible apply Frame.step (State.updPart_frame ..) rfl ?_)
    | (with_reducible apply Frame.step (State.chanDrop_frame ..) rfl ?_)
    | (with_reducible apply Frame.step (State.writePtrs_frame ..) rfl ?_)
    | (with_reducible apply Frame.step (State.updLane_frame ..) rfl ?_)
    | (with_reducible apply Frame.ite ?_ ?_)
    | split
    | (dsimp only; split)

theorem State.applyDraft_frame (s : State) (d : Nat) (w : DraftWord) : Frame (fp.regs + fp.cores + fp.crags + fp.parts) s (State.applyDraft s d w) := by
  unfold State.applyDraft
  repeat' first
    | with_reducible exact Frame.refl _ _
    | (with_reducible apply Frame.step (State.updLane_frame ..) rfl ?_)
    | (with_reducible apply Frame.step (State.writePtrs_frame ..) rfl ?_)
    | (with_reducible apply Frame.step (State.updPart_frame ..) rfl ?_)
    | (with_reducible apply Frame.ite ?_ ?_)
    | split
    | (dsimp only; split)

theorem State.spurStale_frame (s : State) (p : Nat) : Frame (fp.regs) s (State.spurStale s p) := by
  unfold State.spurStale
  repeat' first
    | with_reducible exact Frame.refl _ _
    | (with_reducible apply Frame.step (State.inc_frame ..) rfl ?_)
    | split
    | (dsimp only; split)

theorem spurWord_frame (s : State) (p : Nat) : Frame (fp.regs + fp.parts + fp.sent) s (spurWord s p) := by
  unfold spurWord
  repeat' first
    | with_reducible exact Frame.refl _ _
    | (with_reducible apply Frame.step (State.chanDrop_frame ..) rfl ?_)
    | (with_reducible apply Frame.step (State.spurStale_frame ..) rfl ?_)
    | (with_reducible apply Frame.step (State.updPart_frame ..) rfl ?_)
    | (with_reducible apply Frame.ite ?_ ?_)
    | split
    | (dsimp only; split)

theorem State.applySpur_frame (s : State) (p : Nat) (w : SpurWord) : Frame (fp.regs + fp.parts) s (State.applySpur s p w) := by
  unfold State.applySpur
  repeat' first
    | with_reducible exact Frame.refl _ _
    | (with_reducible apply Frame.step (State.updSpur_frame ..) rfl ?_)
    | (with_reducible apply Frame.step (State.spurStale_frame ..) rfl ?_)
    | (with_reducible apply Frame.ite ?_ ?_)
    | split
    | (dsimp only; split)

theorem State.takeWords_frame (s : State) (p : Nat) : Frame (fp.regs + fp.cores + fp.crags + fp.parts) s (State.takeWords s p) := by
  unfold State.takeWords
  repeat' first
    | with_reducible exact Frame.refl _ _
    | (with_reducible apply Frame.step (State.applyDraft_frame ..) rfl ?_)
    | (with_reducible apply Frame.step (State.applySpur_frame ..) rfl ?_)
    | (with_reducible apply Frame.step (State.updPart_frame ..) rfl ?_)
    | (with_reducible apply Frame.foldl _ _ ?_ (fun s x => ?_))
    | split
    | (dsimp only; split)

theorem State.sendSpur_frame (s : State) (d lane pos tok : Nat) (q : F32) : Frame (fp.parts) s (State.sendSpur s d lane pos tok q) := by
  unfold State.sendSpur
  repeat' first
    | with_reducible exact Frame.refl _ _
    | (with_reducible apply Frame.step (State.updPart_frame ..) rfl ?_)
    | split
    | (dsimp only; split)

theorem State.updVent_frame (s : State) (p e : Nat) (f : Vent → Vent) : Frame (fp.parts) s (State.updVent s p e f) := by
  unfold State.updVent
  repeat' first
    | with_reducible exact Frame.refl _ _
    | (with_reducible apply Frame.step (State.updPart_frame ..) rfl ?_)
    | split
    | (dsimp only; split)

theorem ventCmdBind_frame (s : State) (p : Nat) : Frame (fp.regs + fp.parts) s (ventCmdBind s p) := by
  unfold ventCmdBind
  repeat' first
    | with_reducible exact Frame.refl _ _
    | (with_reducible apply Frame.step (State.setFlag_frame ..) rfl ?_)
    | (with_reducible apply Frame.step (State.updVent_frame ..) rfl ?_)
    | (with_reducible apply Frame.ite ?_ ?_)
    | split
    | (dsimp only; split)

theorem ventCmdUnbind_frame (s : State) (p : Nat) : Frame (fp.parts) s (ventCmdUnbind s p) := by
  unfold ventCmdUnbind
  repeat' first
    | with_reducible exact Frame.refl _ _
    | (with_reducible apply Frame.step (State.updVent_frame ..) rfl ?_)
    | (with_reducible apply Frame.ite ?_ ?_)
    | split
    | (dsimp only; split)

end Sys2Proof.Machine
end

