-- ==== Sys2Proof/Laws/FrameRequests.lean ====
section
/-! SUPPORT. Frames of the operations of Machine/Requests.lean. -/

namespace Sys2Proof.Machine

theorem State.closeOut_frame (s : State) (p addr status : Nat) (c : Cpl) : Frame (fp.regs + fp.parts + fp.reqs + fp.ports + fp.writes + fp.reads + fp.sent) s (State.closeOut s p addr status c) := by
  unfold State.closeOut
  repeat' first
    | with_reducible exact Frame.refl _ _
    | (with_reducible apply Frame.step (State.sendWrite_frame ..) rfl ?_)
    | (with_reducible apply Frame.step (State.postCpl_frame ..) rfl ?_)
    | (with_reducible apply Frame.step (heldCompletionWrite_frame ..) rfl ?_)
    | (with_reducible apply Frame.step (State.updPart_frame ..) rfl ?_)
    | (with_reducible apply Frame.ite ?_ ?_)
    | split
    | (dsimp only; split)

theorem State.endOut_frame (s : State) (p h status : Nat) (c : Cpl) : Frame (fp.regs + fp.parts + fp.reqs + fp.ports + fp.writes + fp.reads + fp.sent) s (State.endOut s p h status c) := by
  unfold State.endOut
  repeat' first
    | with_reducible exact Frame.refl _ _
    | (with_reducible apply Frame.step (State.updPart_frame ..) rfl ?_)
    | (with_reducible apply Frame.step (State.closeOut_frame ..) rfl ?_)
    | (with_reducible apply Frame.ite ?_ ?_)
    | split
    | (dsimp only; split)

theorem State.queueRec_frame (s : State) (p h : Nat) (bytes : List Byte) : Frame (fp.parts + fp.reqs) s (State.queueRec s p h bytes) := by
  unfold State.queueRec
  repeat' first
    | with_reducible exact Frame.refl _ _
    | (with_reducible apply Frame.step (State.updPart_frame ..) rfl ?_)
    | (with_reducible apply Frame.step (State.updReq_frame ..) rfl ?_)
    | split
    | (dsimp only; split)

theorem State.freePages_frame (s : State) (p h : Nat) : Frame (fp.regs + fp.reqs) s (State.freePages s p h) := by
  unfold State.freePages
  repeat' first
    | with_reducible exact Frame.refl _ _
    | (with_reducible apply Frame.step (State.inc_frame ..) rfl ?_)
    | (with_reducible apply Frame.step (State.updReq_frame ..) rfl ?_)
    | split
    | (dsimp only; split)

theorem State.markFreed_frame (s : State) (p lane : Nat) : Frame (fp.parts) s (State.markFreed s p lane) := by
  unfold State.markFreed
  repeat' first
    | with_reducible exact Frame.refl _ _
    | (with_reducible apply Frame.step (State.updPart_frame ..) rfl ?_)
    | split
    | (dsimp only; split)

theorem State.leaveLane_frame (s : State) (p h : Nat) : Frame (fp.regs + fp.parts) s (State.leaveLane s p h) := by
  unfold State.leaveLane
  repeat' first
    | with_reducible exact Frame.refl _ _
    | (with_reducible apply Frame.step (State.releaseDraft_frame ..) rfl ?_)
    | (with_reducible apply Frame.step (State.updVent_frame ..) rfl ?_)
    | (with_reducible apply Frame.step (State.updLane_frame ..) rfl ?_)
    | (with_reducible apply Frame.ite ?_ ?_)
    | split
    | (dsimp only; split)

theorem State.finish_frame (s : State) (p h status : Nat) : Frame (fp.regs + fp.parts + fp.reqs + fp.ports + fp.writes + fp.reads + fp.sent) s (State.finish s p h status) := by
  unfold State.finish
  repeat' first
    | with_reducible exact Frame.refl _ _
    | (with_reducible apply Frame.step (State.markFreed_frame ..) rfl ?_)
    | (with_reducible apply Frame.step (State.leaveLane_frame ..) rfl ?_)
    | (with_reducible apply Frame.step (State.freePages_frame ..) rfl ?_)
    | (with_reducible apply Frame.step (State.dropXfers_frame ..) rfl ?_)
    | (with_reducible apply Frame.step (State.updReq_frame ..) rfl ?_)
    | (with_reducible apply Frame.step (State.err_frame ..) rfl ?_)
    | (with_reducible apply Frame.step (State.endOut_frame ..) rfl ?_)
    | (with_reducible apply Frame.ite ?_ ?_)
    | split
    | (dsimp only; split)

theorem State.finishKeep_frame (s : State) (p h status : Nat) : Frame (fp.regs + fp.parts + fp.reqs + fp.ports + fp.writes + fp.reads + fp.sent) s (State.finishKeep s p h status) := by
  unfold State.finishKeep
  repeat' first
    | with_reducible exact Frame.refl _ _
    | (with_reducible apply Frame.step (State.markFreed_frame ..) rfl ?_)
    | (with_reducible apply Frame.step (State.updReq_frame ..) rfl ?_)
    | (with_reducible apply Frame.step (State.err_frame ..) rfl ?_)
    | (with_reducible apply Frame.step (State.endOut_frame ..) rfl ?_)
    | (with_reducible apply Frame.ite ?_ ?_)
    | split
    | (dsimp only; split)

theorem State.requeue_frame (s : State) (p h : Nat) : Frame (fp.regs + fp.parts + fp.reqs) s (State.requeue s p h) := by
  unfold State.requeue
  repeat' first
    | with_reducible exact Frame.refl _ _
    | (with_reducible apply Frame.step (State.leaveLane_frame ..) rfl ?_)
    | (with_reducible apply Frame.step (State.freePages_frame ..) rfl ?_)
    | (with_reducible apply Frame.step (State.dropXfers_frame ..) rfl ?_)
    | (with_reducible apply Frame.step (State.updReq_frame ..) rfl ?_)
    | split
    | (dsimp only; split)

theorem State.preempt_frame (s : State) (p h : Nat) : Frame (fp.regs + fp.parts + fp.reqs + fp.ports + fp.writes + fp.reads + fp.sent) s (State.preempt s p h) := by
  unfold State.preempt
  repeat' first
    | with_reducible exact Frame.refl _ _
    | (with_reducible apply Frame.step (State.markFreed_frame ..) rfl ?_)
    | (with_reducible apply Frame.step (State.inc_frame ..) rfl ?_)
    | (with_reducible apply Frame.step (State.leaveLane_frame ..) rfl ?_)
    | (with_reducible apply Frame.step (State.updReq_frame ..) rfl ?_)
    | (with_reducible apply Frame.step (State.requeue_frame ..) rfl ?_)
    | (with_reducible apply Frame.step (State.postCpl_frame ..) rfl ?_)
    | (with_reducible apply Frame.ite ?_ ?_)
    | split
    | (dsimp only; split)

theorem State.setSlack_frame (s : State) (p q : Nat) (v : Int) : Frame (fp.regs + fp.sent) s (State.setSlack s p q v) := by
  unfold State.setSlack
  repeat' first
    | with_reducible exact Frame.refl _ _
    | (with_reducible apply Frame.step (State.wr_frame ..) rfl ?_)
    | (with_reducible apply Frame.step (State.err_frame ..) rfl ?_)
    | (with_reducible apply Frame.ite ?_ ?_)
    | split
    | (dsimp only; split)

theorem State.setupLane_frame (s : State) (p h : Nat) : Frame (fp.regs + fp.cores + fp.crags + fp.sites + fp.parts + fp.reqs + fp.sent) s (State.setupLane s p h) := by
  unfold State.setupLane
  repeat' first
    | with_reducible exact Frame.refl _ _
    | (with_reducible apply Frame.step (State.writePtrs_frame ..) rfl ?_)
    | (with_reducible apply Frame.step (State.updLane_frame ..) rfl ?_)
    | (with_reducible apply Frame.step (State.writeDirs_frame ..) rfl ?_)
    | (with_reducible apply Frame.step (State.updReq_frame ..) rfl ?_)
    | (with_reducible apply Frame.step (State.updSite_frame ..) rfl ?_)
    | (with_reducible apply Frame.step (State.restore_frame ..) rfl ?_)
    | (with_reducible apply Frame.ite ?_ ?_)
    | (with_reducible apply Frame.foldl _ _ ?_ (fun s x => ?_))
    | split
    | (dsimp only; split)

theorem State.charge_frame (s : State) (p : Nat) (r : Request) (pl : Plan) : Frame (fp.regs + fp.sent) s (State.charge s p r pl) := by
  unfold State.charge
  repeat' first
    | with_reducible exact Frame.refl _ _
    | (with_reducible apply Frame.step (State.inc_frame ..) rfl ?_)
    | (with_reducible apply Frame.step (State.setSlack_frame ..) rfl ?_)
    | (with_reducible apply Frame.ite ?_ ?_)
    | (with_reducible apply Frame.foldl _ _ ?_ (fun s x => ?_))
    | split
    | (dsimp only; split)

theorem State.admitPlan_frame (s : State) (p h : Nat) (r : Request) (pl : Plan) : Frame (fp.regs + fp.cores + fp.crags + fp.sites + fp.parts + fp.reqs + fp.ports + fp.writes + fp.reads + fp.order + fp.sent + fp.fresh) s (State.admitPlan s p h r pl) := by
  unfold State.admitPlan
  repeat' first
    | with_reducible exact Frame.refl _ _
    | (with_reducible apply Frame.step (State.admitSpur_frame ..) rfl ?_)
    | (with_reducible apply Frame.step (State.updVent_frame ..) rfl ?_)
    | (with_reducible apply Frame.step (State.updLane_frame ..) rfl ?_)
    | (with_reducible apply Frame.step (State.inc_frame ..) rfl ?_)
    | (with_reducible apply Frame.step (State.free_frame ..) rfl ?_)
    | (refine Frame.step (State.free_pair (by assumption)) rfl ?_)
    | (with_reducible apply Frame.step (State.sendWrite_frame ..) rfl ?_)
    | (with_reducible apply Frame.step (State.postCpl_frame ..) rfl ?_)
    | (with_reducible apply Frame.step (State.preempt_frame ..) rfl ?_)
    | (with_reducible apply Frame.step (State.setupLane_frame ..) rfl ?_)
    | (with_reducible apply Frame.step (State.charge_frame ..) rfl ?_)
    | (with_reducible apply Frame.step (State.wr_frame ..) rfl ?_)
    | (with_reducible apply Frame.step (State.updReq_frame ..) rfl ?_)
    | (with_reducible apply Frame.step (State.nextOrder_frame ..) rfl ?_)
    | (with_reducible apply Frame.ite ?_ ?_)
    | split
    | (dsimp only; split)

theorem State.countReject_frame (s : State) (p code h : Nat) : Frame (fp.regs) s (State.countReject s p code h) := by
  unfold State.countReject
  repeat' first
    | with_reducible exact Frame.refl _ _
    | (with_reducible apply Frame.step (State.inc_frame ..) rfl ?_)
    | (with_reducible apply Frame.step (State.wr_frame ..) rfl ?_)
    | split
    | (dsimp only; split)

theorem State.rejectNew_frame (s : State) (p : Nat) (c : CmdIn) (code : Nat) : Frame (fp.regs + fp.parts + fp.reqs + fp.ports + fp.writes + fp.reads + fp.sent + fp.fresh) s (State.rejectNew s p c code) := by
  unfold State.rejectNew
  repeat' first
    | with_reducible exact Frame.refl _ _
    | (with_reducible apply Frame.step (State.updReq_frame ..) rfl ?_)
    | (with_reducible apply Frame.step (State.countReject_frame ..) rfl ?_)
    | (with_reducible apply Frame.step (State.postCpl_frame ..) rfl ?_)
    | (with_reducible apply Frame.step (State.free_frame ..) rfl ?_)
    | split
    | (dsimp only; split)
    | (refine Frame.step (State.free_pair (by assumption)) rfl ?_)

theorem State.submitCmd_frame (s : State) (p : Nat) (c : CmdIn) (d : ReqData) : Frame (fp.regs + fp.cores + fp.crags + fp.sites + fp.parts + fp.reqs + fp.ports + fp.writes + fp.reads + fp.order + fp.sent + fp.fresh) s (State.submitCmd s p c d) := by
  unfold State.submitCmd
  repeat' first
    | with_reducible exact Frame.refl _ _
    | (with_reducible apply Frame.step (State.rejectNew_frame ..) rfl ?_)
    | (with_reducible apply Frame.step (State.nackFree_frame ..) rfl ?_)
    | (with_reducible apply Frame.step (State.updReq_frame ..) rfl ?_)
    | (with_reducible apply Frame.step (State.nextOrder_frame ..) rfl ?_)
    | (with_reducible apply Frame.step (State.admitPlan_frame ..) rfl ?_)
    | (with_reducible apply Frame.ite ?_ ?_)
    | split
    | (dsimp only; split)

theorem submit_frame (s : State) (p : Nat) (d : ReqData) : Frame (fp.regs + fp.cores + fp.crags + fp.sites + fp.parts + fp.reqs + fp.ports + fp.writes + fp.reads + fp.order + fp.sent + fp.fresh) s (submit s p d) := by
  unfold submit
  repeat' first
    | with_reducible exact Frame.refl _ _
    | (with_reducible apply Frame.step (State.submitCmd_frame ..) rfl ?_)
    | split
    | (dsimp only; split)
    | (refine Frame.step (State.takeCmd_frame (by assumption)) rfl ?_)

theorem State.rejectResume_frame (s : State) (p h : Nat) (c : CmdIn) (code : Nat) : Frame (fp.regs + fp.parts + fp.reqs + fp.ports + fp.writes + fp.reads + fp.sent) s (State.rejectResume s p h c code) := by
  unfold State.rejectResume
  repeat' first
    | with_reducible exact Frame.refl _ _
    | (with_reducible apply Frame.step (State.countReject_frame ..) rfl ?_)
    | (with_reducible apply Frame.step (State.postCpl_frame ..) rfl ?_)
    | split
    | (dsimp only; split)

theorem State.admitElastic_frame (s : State) (p h : Nat) (r : Request) : Frame (fp.regs + fp.cores + fp.crags + fp.sites + fp.parts + fp.reqs + fp.ports + fp.writes + fp.reads + fp.order + fp.sent + fp.fresh) s ((State.admitElastic s p h r).getD s) := by
  unfold State.admitElastic
  dsimp only
  split
  · split
    · exact Frame.step (State.admitPlan_frame ..) rfl (Frame.refl _ _)
    · exact Frame.refl _ _
  · exact Frame.refl _ _

theorem State.resumeCmd_frame (s : State) (p h : Nat) (c : CmdIn) (d : ReqData) : Frame (fp.regs + fp.cores + fp.crags + fp.sites + fp.parts + fp.reqs + fp.ports + fp.writes + fp.reads + fp.order + fp.sent + fp.fresh) s (State.resumeCmd s p h c d) := by
  unfold State.resumeCmd
  repeat' first
    | with_reducible exact Frame.refl _ _
    | (refine Frame.step (State.unspill_frame (by assumption)) rfl ?_)
    | (with_reducible apply Frame.step (State.nack_frame ..) rfl ?_)
    | (with_reducible apply Frame.step (State.admitPlan_frame ..) rfl ?_)
    | (with_reducible apply Frame.step (State.rejectResume_frame ..) rfl ?_)
    | (refine Frame.step (State.admitElastic_frame (by assumption)) rfl ?_)
    | (with_reducible apply Frame.step (State.updReq_frame ..) rfl ?_)
    | (with_reducible apply Frame.step (State.admitElastic_frame ..) rfl ?_)
    | (with_reducible apply Frame.ite ?_ ?_)
    | split
    | (dsimp only; split)

theorem resume_frame (s : State) (p : Nat) (d : ReqData) : Frame (fp.regs + fp.cores + fp.crags + fp.sites + fp.parts + fp.reqs + fp.ports + fp.writes + fp.reads + fp.order + fp.sent + fp.fresh) s (resume s p d) := by
  unfold resume
  repeat' first
    | with_reducible exact Frame.refl _ _
    | (with_reducible apply Frame.step (State.nack_frame ..) rfl ?_)
    | (with_reducible apply Frame.step (State.rejectResume_frame ..) rfl ?_)
    | (with_reducible apply Frame.step (State.resumeCmd_frame ..) rfl ?_)
    | (refine Frame.step (State.takeCmd_frame (by assumption)) rfl ?_)
    | (with_reducible apply Frame.ite ?_ ?_)
    | split
    | (dsimp only; split)

theorem pause_frame (s : State) (p : Nat) : Frame (fp.regs + fp.parts + fp.reqs + fp.ports + fp.writes + fp.reads + fp.sent) s (pause s p) := by
  unfold pause
  repeat' first
    | with_reducible exact Frame.refl _ _
    | (with_reducible apply Frame.step (State.nack_frame ..) rfl ?_)
    | (with_reducible apply Frame.step (State.markFreed_frame ..) rfl ?_)
    | (with_reducible apply Frame.step (State.updReq_frame ..) rfl ?_)
    | (with_reducible apply Frame.ite ?_ ?_)
    | split
    | (dsimp only; split)
    | (refine Frame.step (State.takeCmd_frame (by assumption)) rfl ?_)

theorem cancel_frame (s : State) (p : Nat) : Frame (fp.regs + fp.parts + fp.reqs + fp.ports + fp.writes + fp.reads + fp.sent) s (cancel s p) := by
  unfold cancel
  repeat' first
    | with_reducible exact Frame.refl _ _
    | (with_reducible apply Frame.step (State.nack_frame ..) rfl ?_)
    | (with_reducible apply Frame.step (State.finish_frame ..) rfl ?_)
    | (with_reducible apply Frame.ite ?_ ?_)
    | split
    | (dsimp only; split)
    | (refine Frame.step (State.takeCmd_frame (by assumption)) rfl ?_)

theorem release_frame (s : State) (p : Nat) : Frame (fp.regs + fp.parts + fp.reqs + fp.ports + fp.writes + fp.reads + fp.sent) s (release s p) := by
  unfold release
  repeat' first
    | with_reducible exact Frame.refl _ _
    | (with_reducible apply Frame.step (State.nack_frame ..) rfl ?_)
    | (with_reducible apply Frame.step (State.updReq_frame ..) rfl ?_)
    | (with_reducible apply Frame.step (State.postCpl_frame ..) rfl ?_)
    | (with_reducible apply Frame.ite ?_ ?_)
    | split
    | (dsimp only; split)
    | (refine Frame.step (State.takeCmd_frame (by assumption)) rfl ?_)

theorem elasticScan_frame (s : State) (p : Nat) (spill : List Byte) : Frame (fp.regs + fp.cores + fp.crags + fp.sites + fp.parts + fp.reqs + fp.ports + fp.writes + fp.reads + fp.order + fp.sent + fp.fresh) s (elasticScan s p spill) := by
  unfold elasticScan
  repeat' first
    | with_reducible exact Frame.refl _ _
    | (refine Frame.step (State.unspill_frame (by assumption)) rfl ?_)
    | (refine Frame.step (State.admitElastic_frame (by assumption)) rfl ?_)
    | (with_reducible apply Frame.step (State.admitElastic_frame ..) rfl ?_)
    | (with_reducible apply Frame.ite ?_ ?_)
    | split
    | (dsimp only; split)

theorem outputRecordWrite_frame (s : State) (p : Nat) : Frame (fp.regs + fp.parts + fp.reqs + fp.ports + fp.writes + fp.reads + fp.sent) s (outputRecordWrite s p) := by
  unfold outputRecordWrite
  repeat' first
    | with_reducible exact Frame.refl _ _
    | (with_reducible apply Frame.step (State.updPart_frame ..) rfl ?_)
    | (with_reducible apply Frame.step (State.closeOut_frame ..) rfl ?_)
    | (with_reducible apply Frame.step (State.apertViol_frame ..) rfl ?_)
    | (with_reducible apply Frame.step (State.finish_frame ..) rfl ?_)
    | (with_reducible apply Frame.step (State.sendWrite_frame ..) rfl ?_)
    | (with_reducible apply Frame.ite ?_ ?_)
    | split
    | (dsimp only; split)

theorem State.beginExport_frame (s : State) (p h : Nat) : Frame (fp.regs + fp.cores + fp.routers + fp.sites + fp.parts + fp.reqs + fp.ports + fp.writes + fp.reads + fp.sent) s (State.beginExport s p h) := by
  unfold State.beginExport
  repeat' first
    | with_reducible exact Frame.refl _ _
    | (with_reducible apply Frame.step (State.exportAll_frame ..) rfl ?_)
    | (with_reducible apply Frame.step (State.updReq_frame ..) rfl ?_)
    | (with_reducible apply Frame.step (State.leaveLane_frame ..) rfl ?_)
    | (with_reducible apply Frame.step (State.freePages_frame ..) rfl ?_)
    | (with_reducible apply Frame.step (State.err_frame ..) rfl ?_)
    | (with_reducible apply Frame.step (State.postCpl_frame ..) rfl ?_)
    | split
    | (dsimp only; split)
    | (refine Frame.step (State.exportAll_pair (by assumption)) rfl ?_)

theorem kvExportDone_frame (s : State) (p h : Nat) : Frame (fp.regs + fp.parts + fp.reqs + fp.ports + fp.writes + fp.reads + fp.sent + fp.fresh) s (kvExportDone s p h) := by
  unfold kvExportDone
  repeat' first
    | with_reducible exact Frame.refl _ _
    | (with_reducible apply Frame.step (State.free_frame ..) rfl ?_)
    | (with_reducible apply Frame.step (State.leaveLane_frame ..) rfl ?_)
    | (with_reducible apply Frame.step (State.freePages_frame ..) rfl ?_)
    | (with_reducible apply Frame.step (State.dropXfers_frame ..) rfl ?_)
    | (with_reducible apply Frame.step (State.updReq_frame ..) rfl ?_)
    | (with_reducible apply Frame.step (State.postCpl_frame ..) rfl ?_)
    | (with_reducible apply Frame.ite ?_ ?_)
    | split
    | (dsimp only; split)
    | (refine Frame.step (State.free_pair (by assumption)) rfl ?_)

theorem ttlExpire_frame (s : State) (p h : Nat) : Frame (fp.regs + fp.parts + fp.reqs + fp.ports + fp.writes + fp.reads + fp.sent) s (ttlExpire s p h) := by
  unfold ttlExpire
  repeat' first
    | with_reducible exact Frame.refl _ _
    | (with_reducible apply Frame.step (State.updReq_frame ..) rfl ?_)
    | (with_reducible apply Frame.step (State.postCpl_frame ..) rfl ?_)
    | (with_reducible apply Frame.ite ?_ ?_)
    | split
    | (dsimp only; split)

theorem slackSweep_frame (s : State) (p : Nat) : Frame (fp.regs + fp.sent) s (slackSweep s p) := by
  unfold slackSweep
  repeat' first
    | with_reducible exact Frame.refl _ _
    | (with_reducible apply Frame.step (State.setSlack_frame ..) rfl ?_)
    | (with_reducible apply Frame.foldl _ _ ?_ (fun s x => ?_))
    | split
    | (dsimp only; split)

end Sys2Proof.Machine
end

