-- ==== Sys2Proof/Laws/FrameJournal.lean ====
section
/-! SUPPORT. Frames of the operations of Machine/Journal.lean. -/

namespace Sys2Proof.Machine

theorem State.journal_frame (s : State) (c : Nat) (b : Cairn) : Frame (fp.nor) s (State.journal s c b) := by
  unfold State.journal
  repeat' first
    | with_reducible exact Frame.refl _ _
    | (with_reducible apply Frame.step (State.updNor_frame ..) rfl ?_)
    | (with_reducible apply Frame.ite ?_ ?_)
    | split
    | (dsimp only; split)

theorem State.durable_frame (s : State) (b : Cairn) : Frame (fp.ssbs) s (State.durable s b) := by
  unfold State.durable
  split
  · exact Frame.step (State.updSsb_frame ..) rfl (Frame.refl _ _)
  · exact Frame.refl _ _

theorem journalRecordDurable_frame (s : State) (ok : Bool) : Frame (fp.regs + fp.ssbs + fp.nor + fp.sent) s (journalRecordDurable s ok) := by
  unfold journalRecordDurable
  repeat' first
    | with_reducible exact Frame.refl _ _
    | (with_reducible apply Frame.step (State.updNor_frame ..) rfl ?_)
    | (with_reducible apply Frame.step (State.err_frame ..) rfl ?_)
    | (with_reducible apply Frame.step (State.journal_frame ..) rfl ?_)
    | (with_reducible apply Frame.step (log_frame ..) rfl ?_)
    | (with_reducible apply Frame.step (State.inc_frame ..) rfl ?_)
    | (with_reducible apply Frame.step (State.durable_frame ..) rfl ?_)
    | (with_reducible apply Frame.ite ?_ ?_)
    | split
    | (dsimp only; split)
    | (with_reducible apply Frame.step (State.durable_frame ..) rfl ?_)

theorem compaction_frame (s : State) : Frame (fp.nor) s (compaction s) := by
  unfold compaction
  repeat' first
    | with_reducible exact Frame.refl _ _
    | (with_reducible apply Frame.step (State.updNor_frame ..) rfl ?_)
    | (with_reducible apply Frame.step (log_frame ..) rfl ?_)
    | (with_reducible apply Frame.step (State.fill_frame ..) rfl ?_)
    | split
    | (dsimp only; split)

end Sys2Proof.Machine
end

