-- ==== Sys2Proof/Laws/FrameFaults.lean ====
section
/-! SUPPORT. Frames of the operations of Machine/Faults.lean. -/

namespace Sys2Proof.Machine

theorem Core.abandon_memWf {c : Core} (h : c.memWf = true) : (Core.abandon c).memWf = true := by
  unfold Core.abandon
  try dsimp only
  repeat' (first | with_reducible exact h | exact Core.memWf_of h rfl rfl rfl | split)

theorem State.logFault_frame (s : State) (r : FaultRec) : Frame (fp.regs + fp.faultLog + fp.sent) s (State.logFault s r) := by
  unfold State.logFault
  repeat' first
    | with_reducible exact Frame.refl _ _
    | (with_reducible apply Frame.step (State.setLog_frame ..) rfl ?_)
    | (with_reducible apply Frame.step (State.err_frame ..) rfl ?_)
    | (with_reducible apply Frame.ite ?_ ?_)
    | (with_reducible apply Frame.foldl _ _ ?_ (fun s x => ?_))
    | split
    | (dsimp only; split)

theorem State.record_frame (s : State) (r : FaultRec) (ents : List (Nat × Nat × Nat)) (ps : List Nat) : Frame (fp.regs + fp.parts + fp.nor + fp.faultMap + fp.faultGen + fp.faultLog + fp.faultSeq + fp.sent + fp.fresh) s (State.record s r ents ps) := by
  unfold State.record
  repeat' first
    | with_reducible exact Frame.refl _ _
    | (with_reducible apply Frame.step (State.setMap_frame ..) rfl ?_)
    | (with_reducible apply Frame.step (State.countRec_frame ..) rfl ?_)
    | (with_reducible apply Frame.step (State.logFault_frame ..) rfl ?_)
    | (with_reducible apply Frame.step (State.journal_frame ..) rfl ?_)
    | (with_reducible apply Frame.step (State.abortLoad_frame ..) rfl ?_)
    | (with_reducible apply Frame.step (State.free_frame ..) rfl ?_)
    | (with_reducible apply Frame.step (State.updPart_frame ..) rfl ?_)
    | (with_reducible apply Frame.ite ?_ ?_)
    | (with_reducible apply Frame.foldl _ _ ?_ (fun s x => ?_))
    | split
    | (dsimp only; split)
    | (refine Frame.step (State.free_pair (by assumption)) rfl ?_)

theorem faultCompletion_frame (s : State) (p : Nat) : Frame (fp.regs + fp.parts + fp.reqs + fp.ports + fp.writes + fp.reads + fp.sent) s (faultCompletion s p) := by
  unfold faultCompletion
  repeat' first
    | with_reducible exact Frame.refl _ _
    | (with_reducible apply Frame.step (State.updPart_frame ..) rfl ?_)
    | (with_reducible apply Frame.step (State.postCplAt_frame ..) rfl ?_)
    | split
    | (dsimp only; split)

theorem State.freePath_frame (s : State) : Frame (fp.fresh) s (State.freePath s).2 := by
  unfold State.freePath
  repeat' first
    | with_reducible exact Frame.refl _ _
    | (with_reducible apply Frame.step (State.free_frame ..) rfl ?_)
    | split
    | (dsimp only; split)
    | (refine Frame.step (State.free_pair (by assumption)) rfl ?_)

theorem State.freePath_pair {s : State} {s' : State} {v0 : Nat} (hx : State.freePath s = (v0, s')) : Frame (fp.fresh) s s' := by
  have := State.freePath_frame s
  rw [hx] at this; exact this

theorem State.rewindCore_frame (s : State) (p g : Nat) : Frame (fp.regs + fp.cores + fp.crags) s (State.rewindCore s p g) := by
  unfold State.rewindCore
  repeat' first
    | with_reducible exact Frame.refl _ _
    | (with_reducible apply Frame.step (State.memWrite_frame ..) rfl ?_)
    | (with_reducible apply Frame.ite ?_ ?_)
    | (with_reducible apply Frame.foldl _ _ ?_ (fun s x => ?_))
    | split
    | (dsimp only; split)

theorem State.abandonWork_frame (s : State) (p : Nat) : Frame (fp.regs + fp.cores + fp.routers + fp.links + fp.tiles + fp.crags + fp.sites + fp.parts) s (State.abandonWork s p) := by
  unfold State.abandonWork
  repeat' first
    | with_reducible exact Frame.refl _ _
    | (with_reducible apply Frame.step (State.rewindCore_frame ..) rfl ?_)
    | (with_reducible apply Frame.step (State.wr_frame ..) rfl ?_)
    | (with_reducible apply Frame.step (State.updRouter_frame ..) rfl ?_)
    | (with_reducible apply Frame.step (State.updTile_frame ..) rfl ?_)
    | (with_reducible apply Frame.step (State.updSite_frame ..) rfl ?_)
    | (with_reducible apply Frame.step (State.updPart_frame ..) rfl ?_)
    | (with_reducible apply Frame.step (State.setLinks_frame ..) rfl ?_)
    | (with_reducible apply Frame.step (State.updCore_frame _ _ _ ?_) rfl ?_)
    | (with_reducible apply Frame.foldl _ _ ?_ (fun s x => ?_))
    | (with_reducible apply Frame.ite ?_ ?_)
    | split
    | (dsimp only; split)
    | (intro h; (try dsimp only); repeat' (first | with_reducible exact h _ | with_reducible apply Core.memWf_write | with_reducible apply Core.memWf_setByte | exact Core.memWf_of (h _) rfl rfl rfl | exact Core.memWf_of (Core.memWf_write _ _ (h _)) rfl rfl rfl | exact (Core.memWf_iff _).2 ⟨Table.wf_filter 0 _ ((Core.memWf_iff _).1 (h _)).1, ((Core.memWf_iff _).1 (h _)).2⟩ | exact (Core.memWf_iff _).2 ⟨((Core.memWf_iff _).1 (h _)).1, ((Core.memWf_iff _).1 (h _)).2⟩ | split))

theorem State.expireLost_frame (s : State) (p : Nat) : Frame (fp.regs + fp.parts + fp.reqs + fp.ports + fp.writes + fp.reads + fp.sent) s (State.expireLost s p) := by
  unfold State.expireLost
  repeat' first
    | with_reducible exact Frame.refl _ _
    | (with_reducible apply Frame.step (State.postCpl_frame ..) rfl ?_)
    | (with_reducible apply Frame.step (State.updReq_frame ..) rfl ?_)
    | (with_reducible apply Frame.foldl _ _ ?_ (fun s x => ?_))
    | split
    | (dsimp only; split)

theorem State.haltRequests_frame (s : State) (p : Nat) : Frame (fp.regs + fp.cores + fp.routers + fp.sites + fp.parts + fp.reqs + fp.ports + fp.writes + fp.reads + fp.sent) s (State.haltRequests s p) := by
  unfold State.haltRequests
  repeat' first
    | with_reducible exact Frame.refl _ _
    | (with_reducible apply Frame.step (State.dropXfers_frame ..) rfl ?_)
    | (with_reducible apply Frame.step (State.expireLost_frame ..) rfl ?_)
    | (with_reducible apply Frame.step (State.postCpl_frame ..) rfl ?_)
    | (with_reducible apply Frame.step (State.freePages_frame ..) rfl ?_)
    | (with_reducible apply Frame.step (State.leaveLane_frame ..) rfl ?_)
    | (with_reducible apply Frame.step (State.requeue_frame ..) rfl ?_)
    | (with_reducible apply Frame.step (State.beginExport_frame ..) rfl ?_)
    | (with_reducible apply Frame.step (State.updReq_frame ..) rfl ?_)
    | (with_reducible apply Frame.foldl _ _ ?_ (fun s x => ?_))
    | (with_reducible apply Frame.ite ?_ ?_)
    | split
    | (dsimp only; split)

theorem State.recordDead_frame (s : State) (p : Nat) : Frame (fp.regs + fp.parts + fp.nor + fp.faultMap + fp.faultGen + fp.faultLog + fp.faultSeq + fp.sent + fp.fresh) s (State.recordDead s p) := by
  unfold State.recordDead
  repeat' first
    | with_reducible exact Frame.refl _ _
    | (with_reducible apply Frame.step (State.record_frame ..) rfl ?_)
    | (with_reducible apply Frame.foldl _ _ ?_ (fun s x => ?_))
    | split
    | (dsimp only; split)

theorem State.halt_frame (s : State) (p cls path loc unit : Nat) (ents : List (Nat × Nat × Nat)) : Frame (fp.regs + fp.cores + fp.routers + fp.links + fp.tiles + fp.crags + fp.sites + fp.parts + fp.reqs + fp.ports + fp.writes + fp.reads + fp.nor + fp.faultMap + fp.faultGen + fp.faultLog + fp.faultSeq + fp.sent + fp.fresh) s (State.halt s p cls path loc unit ents) := by
  unfold State.halt
  repeat' first
    | with_reducible exact Frame.refl _ _
    | (with_reducible apply Frame.step (State.abortLoad_frame ..) rfl ?_)
    | (with_reducible apply Frame.step (State.draftDown_frame ..) rfl ?_)
    | (with_reducible apply Frame.step (State.setFlag_frame ..) rfl ?_)
    | (with_reducible apply Frame.step (State.err_frame ..) rfl ?_)
    | (with_reducible apply Frame.step (State.setCompute_frame ..) rfl ?_)
    | (with_reducible apply Frame.step (State.record_frame ..) rfl ?_)
    | (with_reducible apply Frame.step (State.abandonWork_frame ..) rfl ?_)
    | (with_reducible apply Frame.step (State.haltRequests_frame ..) rfl ?_)
    | (with_reducible apply Frame.step (State.recordDead_frame ..) rfl ?_)
    | (with_reducible apply Frame.step (State.wr_frame ..) rfl ?_)
    | (with_reducible apply Frame.step (State.updPart_frame ..) rfl ?_)
    | (with_reducible apply Frame.foldl _ _ ?_ (fun s x => ?_))
    | (with_reducible apply Frame.ite ?_ ?_)
    | split
    | (dsimp only; split)

theorem State.replayHalt_frame (s : State) (p cause path loc unit : Nat) : Frame (fp.regs + fp.cores + fp.routers + fp.links + fp.tiles + fp.crags + fp.sites + fp.parts + fp.reqs + fp.ports + fp.writes + fp.reads + fp.nor + fp.faultMap + fp.faultGen + fp.faultLog + fp.faultSeq + fp.sent + fp.fresh) s (State.replayHalt s p cause path loc unit) := by
  unfold State.replayHalt
  repeat' first
    | with_reducible exact Frame.refl _ _
    | (with_reducible apply Frame.step (State.err_frame ..) rfl ?_)
    | (with_reducible apply Frame.step (State.halt_frame ..) rfl ?_)
    | (with_reducible apply Frame.step (State.wr_frame ..) rfl ?_)
    | split
    | (dsimp only; split)

theorem State.eventIn_frame (s : State) (p cause : Nat) (r : FaultRec) (ents : List (Nat × Nat × Nat)) (ps : List Nat) : Frame (fp.regs + fp.cores + fp.routers + fp.links + fp.tiles + fp.crags + fp.sites + fp.parts + fp.reqs + fp.ports + fp.writes + fp.reads + fp.nor + fp.faultMap + fp.faultGen + fp.faultLog + fp.faultSeq + fp.sent + fp.fresh) s (State.eventIn s p cause r ents ps) := by
  unfold State.eventIn
  repeat' first
    | with_reducible exact Frame.refl _ _
    | (with_reducible apply Frame.step (State.record_frame ..) rfl ?_)
    | (with_reducible apply Frame.step (State.replayHalt_frame ..) rfl ?_)
    | (with_reducible apply Frame.ite ?_ ?_)
    | split
    | (dsimp only; split)

theorem State.coreDead_frame (s : State) (p g path : Nat) : Frame (fp.regs + fp.cores + fp.routers + fp.links + fp.tiles + fp.crags + fp.sites + fp.parts + fp.reqs + fp.ports + fp.writes + fp.reads + fp.nor + fp.faultMap + fp.faultGen + fp.faultLog + fp.faultSeq + fp.sent + fp.fresh) s (State.coreDead s p g path) := by
  unfold State.coreDead
  repeat' first
    | with_reducible exact Frame.refl _ _
    | (with_reducible apply Frame.step (State.keepRole_frame ..) rfl ?_)
    | (with_reducible apply Frame.step (State.showDead_frame ..) rfl ?_)
    | (with_reducible apply Frame.step (State.addDead_frame ..) rfl ?_)
    | (with_reducible apply Frame.step (State.eventIn_frame ..) rfl ?_)
    | (with_reducible apply Frame.ite ?_ ?_)
    | split
    | (dsimp only; split)

theorem aliveLoss_frame (s : State) (g : Nat) : Frame (fp.regs + fp.cores + fp.routers + fp.links + fp.tiles + fp.crags + fp.sites + fp.parts + fp.reqs + fp.ports + fp.writes + fp.reads + fp.nor + fp.faultMap + fp.faultGen + fp.faultLog + fp.faultSeq + fp.sent + fp.fresh) s (aliveLoss s g) := by
  unfold aliveLoss
  repeat' first
    | with_reducible exact Frame.refl _ _
    | (with_reducible apply Frame.step (State.showDead_frame ..) rfl ?_)
    | (with_reducible apply Frame.step (State.record_frame ..) rfl ?_)
    | (with_reducible apply Frame.step (State.coreDead_frame ..) rfl ?_)
    | (with_reducible apply Frame.step (State.updCore_frame _ _ _ ?_) rfl ?_)
    | (with_reducible apply Frame.ite ?_ ?_)
    | split
    | (dsimp only; split)
    | (intro h; (try dsimp only); repeat' (first | with_reducible exact h _ | with_reducible apply Core.memWf_write | with_reducible apply Core.memWf_setByte | exact Core.memWf_of (h _) rfl rfl rfl | exact Core.memWf_of (Core.memWf_write _ _ (h _)) rfl rfl rfl | exact (Core.memWf_iff _).2 ⟨Table.wf_filter 0 _ ((Core.memWf_iff _).1 (h _)).1, ((Core.memWf_iff _).1 (h _)).2⟩ | exact (Core.memWf_iff _).2 ⟨((Core.memWf_iff _).1 (h _)).1, ((Core.memWf_iff _).1 (h _)).2⟩ | split))

theorem State.gateCores_frame (s : State) (l : List Nat) : Frame (fp.cores) s (State.gateCores s l) := by
  unfold State.gateCores
  repeat' first
    | with_reducible exact Frame.refl _ _
    | (with_reducible apply Frame.step (State.updCore_frame _ _ _ ?_) rfl ?_)
    | (with_reducible apply Frame.foldl _ _ ?_ (fun s x => ?_))
    | split
    | (dsimp only; split)
    | (intro h; (try dsimp only); repeat' (first | with_reducible exact h _ | with_reducible apply Core.memWf_write | with_reducible apply Core.memWf_setByte | exact Core.memWf_of (h _) rfl rfl rfl | exact Core.memWf_of (Core.memWf_write _ _ (h _)) rfl rfl rfl | exact (Core.memWf_iff _).2 ⟨Table.wf_filter 0 _ ((Core.memWf_iff _).1 (h _)).1, ((Core.memWf_iff _).1 (h _)).2⟩ | exact (Core.memWf_iff _).2 ⟨((Core.memWf_iff _).1 (h _)).1, ((Core.memWf_iff _).1 (h _)).2⟩ | split))

theorem State.doubleHalt_frame (s : State) (p y path g : Nat) : Frame (fp.regs + fp.cores + fp.routers + fp.links + fp.tiles + fp.crags + fp.sites + fp.parts + fp.reqs + fp.ports + fp.writes + fp.reads + fp.nor + fp.faultMap + fp.faultGen + fp.faultLog + fp.faultSeq + fp.sent + fp.fresh) s (State.doubleHalt s p y path g) := by
  unfold State.doubleHalt
  repeat' first
    | with_reducible exact Frame.refl _ _
    | (with_reducible apply Frame.step (State.setFlag_frame ..) rfl ?_)
    | (with_reducible apply Frame.step (State.err_frame ..) rfl ?_)
    | (with_reducible apply Frame.step (State.halt_frame ..) rfl ?_)
    | split
    | (dsimp only; split)

theorem State.enterHold_frame (s : State) (p n lag : Nat) : Frame (fp.regs + fp.cores + fp.routers + fp.links + fp.tiles + fp.crags + fp.sites + fp.parts + fp.sent) s (State.enterHold s p n lag) := by
  unfold State.enterHold
  repeat' first
    | with_reducible exact Frame.refl _ _
    | (with_reducible apply Frame.step (State.setFlag_frame ..) rfl ?_)
    | (with_reducible apply Frame.step (State.err_frame ..) rfl ?_)
    | (with_reducible apply Frame.step (State.abandonWork_frame ..) rfl ?_)
    | (with_reducible apply Frame.step (State.updPart_frame ..) rfl ?_)
    | split
    | (dsimp only; split)

theorem State.startHold_frame (s : State) (p : Nat) : Frame (fp.regs + fp.cores + fp.routers + fp.links + fp.tiles + fp.crags + fp.sites + fp.parts + fp.reqs + fp.ports + fp.writes + fp.reads + fp.nor + fp.faultMap + fp.faultGen + fp.faultLog + fp.faultSeq + fp.sent + fp.fresh) s (State.startHold s p) := by
  unfold State.startHold
  repeat' first
    | with_reducible exact Frame.refl _ _
    | (with_reducible apply Frame.step (State.abortLoad_frame ..) rfl ?_)
    | (with_reducible apply Frame.step (State.replayHalt_frame ..) rfl ?_)
    | (with_reducible apply Frame.step (State.gateCores_frame ..) rfl ?_)
    | (with_reducible apply Frame.step (State.doubleHalt_frame ..) rfl ?_)
    | (with_reducible apply Frame.step (State.enterHold_frame ..) rfl ?_)
    | (with_reducible apply Frame.step (State.wr_frame ..) rfl ?_)
    | (with_reducible apply Frame.ite ?_ ?_)
    | split
    | (dsimp only; split)

theorem State.joinHold_frame (s : State) (p : Nat) (known : List Nat) : Frame (fp.regs + fp.cores + fp.routers + fp.links + fp.tiles + fp.crags + fp.sites + fp.parts + fp.reqs + fp.ports + fp.writes + fp.reads + fp.nor + fp.faultMap + fp.faultGen + fp.faultLog + fp.faultSeq + fp.sent + fp.fresh) s (State.joinHold s p known) := by
  unfold State.joinHold
  repeat' first
    | with_reducible exact Frame.refl _ _
    | (with_reducible apply Frame.step (State.gateCores_frame ..) rfl ?_)
    | (with_reducible apply Frame.step (State.doubleHalt_frame ..) rfl ?_)
    | (with_reducible apply Frame.step (State.updPart_frame ..) rfl ?_)
    | (with_reducible apply Frame.ite ?_ ?_)
    | split
    | (dsimp only; split)

theorem Mem.wf_foldl {α : Type} (f : Mem → α → Mem) (l : List α) (m : Mem) (h : Memory.wf m = true)
    (hf : ∀ m x, Memory.wf m = true → Memory.wf (f m x) = true) : Memory.wf (l.foldl f m) = true := by
  induction l generalizing m with
  | nil => exact h
  | cons x l ih => exact ih _ (hf m x h)

theorem State.loseStores_frame (s : State) (p : Nat) : Frame (fp.cores + fp.fresh) s (State.loseStores s p) := by
  unfold State.loseStores
  repeat' first
    | with_reducible exact Frame.refl _ _
    | (with_reducible apply Frame.step (State.loseCores_frame ..) rfl ?_)
    | split
    | (dsimp only; split)

theorem State.standIn_frame (s : State) (p g : Nat) : Frame (fp.regs + fp.cores + fp.parts + fp.nor + fp.sent + fp.fresh) s (State.standIn s p g) := by
  unfold State.standIn
  repeat' first
    | with_reducible exact Frame.refl _ _
    | (with_reducible apply Frame.step (State.updCore_frame _ _ _ ?_) rfl ?_)
    | (with_reducible apply Frame.step (State.wr_frame ..) rfl ?_)
    | (with_reducible apply Frame.step (State.setFlag_frame ..) rfl ?_)
    | (with_reducible apply Frame.step (State.inc_frame ..) rfl ?_)
    | (with_reducible apply Frame.step (State.updPart_frame ..) rfl ?_)
    | (with_reducible apply Frame.step (State.err_frame ..) rfl ?_)
    | (with_reducible apply Frame.step (State.journal_frame ..) rfl ?_)
    | (with_reducible apply Frame.step (State.free_frame ..) rfl ?_)
    | (intro h
       have hd := (Core.memWf_iff _).1 (h g)
       exact (Core.memWf_iff _).2 ⟨Mem.wf_foldl _ _ _ rfl (fun m x h => Mem.wf_setByte _ _ h), hd.2⟩)
    | (intro h; exact Core.memWf_of (h _) rfl rfl rfl)

theorem State.noteHold_frame (s : State) (p cls hold intr : Nat) : Frame (fp.regs) s (State.noteHold s p cls hold intr) := by
  unfold State.noteHold
  repeat' first
    | with_reducible exact Frame.refl _ _
    | (with_reducible apply Frame.step (State.inc_frame ..) rfl ?_)
    | (with_reducible apply Frame.step (State.wr_frame ..) rfl ?_)
    | split
    | (dsimp only; split)

theorem saddleChannelFail_frame (s : State) (t e ch : Nat) (lock : Bool) : Frame (fp.regs + fp.cores + fp.routers + fp.links + fp.tiles + fp.crags + fp.saddles + fp.sites + fp.parts + fp.reqs + fp.ports + fp.writes + fp.reads + fp.nor + fp.faultMap + fp.faultGen + fp.faultLog + fp.faultSeq + fp.sent + fp.fresh) s (saddleChannelFail s t e ch lock) := by
  unfold saddleChannelFail
  repeat' first
    | with_reducible exact Frame.refl _ _
    | (with_reducible apply Frame.step (lock_frame ..) rfl ?_)
    | (with_reducible apply Frame.step (State.abandonCut_frame ..) rfl ?_)
    | (with_reducible apply Frame.step (State.setFlag_frame ..) rfl ?_)
    | (with_reducible apply Frame.step (State.err_frame ..) rfl ?_)
    | (with_reducible apply Frame.step (State.record_frame ..) rfl ?_)
    | (with_reducible apply Frame.step (State.halt_frame ..) rfl ?_)
    | (with_reducible apply Frame.step (State.eventIn_frame ..) rfl ?_)
    | (with_reducible apply Frame.step (State.wr_frame ..) rfl ?_)
    | (with_reducible apply Frame.step (State.updSaddle_frame ..) rfl ?_)
    | (with_reducible apply Frame.step (State.updPart_frame ..) rfl ?_)
    | (with_reducible apply Frame.foldl _ _ ?_ (fun s x => ?_))
    | (with_reducible apply Frame.ite ?_ ?_)
    | split
    | (dsimp only; split)

theorem saddleSpareSwap_frame (s : State) (t e : Nat) : Frame (fp.regs + fp.saddles + fp.parts + fp.nor + fp.faultMap + fp.faultGen + fp.faultLog + fp.faultSeq + fp.sent + fp.fresh) s (saddleSpareSwap s t e) := by
  unfold saddleSpareSwap
  repeat' first
    | with_reducible exact Frame.refl _ _
    | (with_reducible apply Frame.step (State.updSaddle_frame ..) rfl ?_)
    | (with_reducible apply Frame.step (State.updPart_frame ..) rfl ?_)
    | (with_reducible apply Frame.step (State.wr_frame ..) rfl ?_)
    | (with_reducible apply Frame.step (State.inc_frame ..) rfl ?_)
    | (with_reducible apply Frame.step (State.err_frame ..) rfl ?_)
    | (with_reducible apply Frame.step (State.noteHold_frame ..) rfl ?_)
    | (with_reducible apply Frame.step (State.record_frame ..) rfl ?_)
    | (with_reducible apply Frame.ite ?_ ?_)
    | (with_reducible apply Frame.foldl _ _ ?_ (fun s x => ?_))
    | split
    | (dsimp only; split)

theorem State.tileLost_frame (s : State) (t path : Nat) : Frame (fp.regs + fp.cores + fp.routers + fp.links + fp.tiles + fp.crags + fp.sites + fp.parts + fp.reqs + fp.ports + fp.writes + fp.reads + fp.nor + fp.faultMap + fp.faultGen + fp.faultLog + fp.faultSeq + fp.sent + fp.fresh) s (State.tileLost s t path) := by
  unfold State.tileLost
  repeat' first
    | with_reducible exact Frame.refl _ _
    | (with_reducible apply Frame.step (State.record_frame ..) rfl ?_)
    | (with_reducible apply Frame.step (State.halt_frame ..) rfl ?_)
    | split
    | (dsimp only; split)

theorem tileFault_frame (s : State) (t : Nat) (cause : TileCause) : Frame (fp.regs + fp.cores + fp.routers + fp.links + fp.tiles + fp.crags + fp.sites + fp.parts + fp.reqs + fp.ports + fp.writes + fp.reads + fp.nor + fp.faultMap + fp.faultGen + fp.faultLog + fp.faultSeq + fp.sent + fp.fresh) s (tileFault s t cause) := by
  unfold tileFault
  repeat' first
    | with_reducible exact Frame.refl _ _
    | (with_reducible apply Frame.step (State.setFlag_frame ..) rfl ?_)
    | (with_reducible apply Frame.step (State.err_frame ..) rfl ?_)
    | (with_reducible apply Frame.step (State.freePath_frame ..) rfl ?_)
    | (refine Frame.step (State.freePath_pair (by assumption)) rfl ?_)
    | (with_reducible apply Frame.step (State.tileLost_frame ..) rfl ?_)
    | split
    | (dsimp only; split)

theorem routerParityFailure_frame (s : State) (g : Nat) : Frame (fp.regs + fp.cores + fp.routers + fp.links + fp.tiles + fp.crags + fp.sites + fp.parts + fp.reqs + fp.ports + fp.writes + fp.reads + fp.nor + fp.faultMap + fp.faultGen + fp.faultLog + fp.faultSeq + fp.sent + fp.fresh) s (routerParityFailure s g) := by
  unfold routerParityFailure
  repeat' first
    | with_reducible exact Frame.refl _ _
    | (with_reducible apply Frame.step (State.record_frame ..) rfl ?_)
    | (with_reducible apply Frame.step (State.freePath_frame ..) rfl ?_)
    | (refine Frame.step (State.freePath_pair (by assumption)) rfl ?_)
    | (with_reducible apply Frame.step (State.halt_frame ..) rfl ?_)
    | split
    | (dsimp only; split)

theorem siteControllerFailure_frame (s : State) (m : Nat) : Frame (fp.regs + fp.cores + fp.routers + fp.links + fp.tiles + fp.crags + fp.sites + fp.parts + fp.reqs + fp.ports + fp.writes + fp.reads + fp.nor + fp.faultMap + fp.faultGen + fp.faultLog + fp.faultSeq + fp.sent + fp.fresh) s (siteControllerFailure s m) := by
  unfold siteControllerFailure
  repeat' first
    | with_reducible exact Frame.refl _ _
    | (with_reducible apply Frame.step (State.record_frame ..) rfl ?_)
    | (with_reducible apply Frame.step (State.freePath_frame ..) rfl ?_)
    | (refine Frame.step (State.freePath_pair (by assumption)) rfl ?_)
    | (with_reducible apply Frame.step (State.halt_frame ..) rfl ?_)
    | (with_reducible apply Frame.step (State.wr_frame ..) rfl ?_)
    | (with_reducible apply Frame.step (State.updSite_frame ..) rfl ?_)
    | split
    | (dsimp only; split)

theorem heartbeat_frame (s : State) (c : Nat) : Frame (fp.ctls) s (heartbeat s c) := by
  unfold heartbeat
  repeat' first
    | with_reducible exact Frame.refl _ _
    | (with_reducible apply Frame.step (State.updCtl_frame ..) rfl ?_)
    | (with_reducible apply Frame.ite ?_ ?_)
    | split
    | (dsimp only; split)

theorem State.losePorts_frame (s : State) (c : Nat) : Frame (fp.regs + fp.parts + fp.ports + fp.writes + fp.reads + fp.sent) s (State.losePorts s c) := by
  unfold State.losePorts
  repeat' first
    | with_reducible exact Frame.refl _ _
    | (with_reducible apply Frame.step (State.portOff_frame ..) rfl ?_)
    | (with_reducible apply Frame.foldl _ _ ?_ (fun s x => ?_))
    | split
    | (dsimp only; split)

theorem State.ctlLost_frame (s : State) (c : Nat) : Frame (fp.regs + fp.cores + fp.routers + fp.links + fp.tiles + fp.crags + fp.sites + fp.parts + fp.reqs + fp.ports + fp.writes + fp.reads + fp.ctls + fp.nor + fp.faultMap + fp.faultGen + fp.faultLog + fp.faultSeq + fp.sent + fp.fresh) s (State.ctlLost s c) := by
  unfold State.ctlLost
  repeat' first
    | with_reducible exact Frame.refl _ _
    | (with_reducible apply Frame.step (State.freePath_frame ..) rfl ?_)
    | (refine Frame.step (State.freePath_pair (by assumption)) rfl ?_)
    | (with_reducible apply Frame.step (State.halt_frame ..) rfl ?_)
    | (with_reducible apply Frame.step (State.losePorts_frame ..) rfl ?_)
    | (with_reducible apply Frame.step (State.updCtl_frame ..) rfl ?_)
    | (with_reducible apply Frame.foldl _ _ ?_ (fun s x => ?_))
    | (with_reducible apply Frame.ite ?_ ?_)
    | split
    | (dsimp only; split)

theorem State.agentGone_frame (s : State) (c : Nat) : Frame (fp.ports + fp.sent) s (State.agentGone s c) := by
  unfold State.agentGone
  repeat' first
    | with_reducible exact Frame.refl _ _
    | (with_reducible apply Frame.step (State.sendMsg_frame ..) rfl ?_)
    | (with_reducible apply Frame.foldl _ _ ?_ (fun s x => ?_))
    | split
    | (dsimp only; split)

theorem State.soloPart_frame (s : State) (p : Nat) : Frame (fp.regs) s (State.soloPart s p) := by
  unfold State.soloPart
  repeat' first
    | with_reducible exact Frame.refl _ _
    | (with_reducible apply Frame.step (State.setFlag_frame ..) rfl ?_)
    | (with_reducible apply Frame.step (State.wr_frame ..) rfl ?_)
    | split
    | (dsimp only; split)

theorem State.takeOver_frame (s : State) (d p : Nat) : Frame (fp.regs + fp.cores + fp.routers + fp.links + fp.tiles + fp.crags + fp.sites + fp.parts + fp.reqs + fp.ports + fp.writes + fp.reads + fp.nor + fp.faultMap + fp.faultGen + fp.faultLog + fp.faultSeq + fp.sent + fp.fresh) s (State.takeOver s d p) := by
  unfold State.takeOver
  repeat' first
    | with_reducible exact Frame.refl _ _
    | (with_reducible apply Frame.step (State.abortLoad_frame ..) rfl ?_)
    | (with_reducible apply Frame.step (State.err_frame ..) rfl ?_)
    | (with_reducible apply Frame.step (State.replayHalt_frame ..) rfl ?_)
    | (with_reducible apply Frame.step (State.enterHold_frame ..) rfl ?_)
    | (with_reducible apply Frame.step (State.dropEntry_frame ..) rfl ?_)
    | (with_reducible apply Frame.step (State.wr_frame ..) rfl ?_)
    | (with_reducible apply Frame.step (State.updPart_frame ..) rfl ?_)
    | (with_reducible apply Frame.foldl _ _ ?_ (fun s x => ?_))
    | (with_reducible apply Frame.ite ?_ ?_)
    | split
    | (dsimp only; split)

theorem heartbeatTimeout_frame (s : State) (c : Nat) : Frame (fp.regs + fp.cores + fp.routers + fp.links + fp.tiles + fp.crags + fp.sites + fp.parts + fp.reqs + fp.sps + fp.ports + fp.writes + fp.reads + fp.ctls + fp.nor + fp.faultMap + fp.faultGen + fp.faultLog + fp.faultSeq + fp.sent + fp.fresh) s (heartbeatTimeout s c) := by
  unfold heartbeatTimeout
  repeat' first
    | with_reducible exact Frame.refl _ _
    | (with_reducible apply Frame.step (State.setFlag_frame ..) rfl ?_)
    | (with_reducible apply Frame.step (State.record_frame ..) rfl ?_)
    | (with_reducible apply Frame.step (State.losePorts_frame ..) rfl ?_)
    | (with_reducible apply Frame.step (State.agentGone_frame ..) rfl ?_)
    | (with_reducible apply Frame.step (State.soloPart_frame ..) rfl ?_)
    | (with_reducible apply Frame.step (State.takeOver_frame ..) rfl ?_)
    | (with_reducible apply Frame.step (State.linkCheck_frame ..) rfl ?_)
    | (with_reducible apply Frame.step (State.flush_frame ..) rfl ?_)
    | (with_reducible apply Frame.step (State.updCtl_frame ..) rfl ?_)
    | (with_reducible apply Frame.step (State.setSps_frame ..) rfl ?_)
    | (with_reducible apply Frame.foldl _ _ ?_ (fun s x => ?_))
    | (with_reducible apply Frame.ite ?_ ?_)
    | split
    | (dsimp only; split)

end Sys2Proof.Machine
end

