-- ==== Sys2Proof/Laws/FrameRmb.lean ====
section
/-! SUPPORT. Frames of the operations of Machine/Rmb.lean. -/

namespace Sys2Proof.Machine

theorem State.showSeq_frame (s : State) (pg : Page) : Frame (fp.regs) s (State.showSeq s pg) := by
  unfold State.showSeq
  repeat' first
    | with_reducible exact Frame.refl _ _
    | (with_reducible apply Frame.step (State.wr_frame ..) rfl ?_)
    | (with_reducible apply Frame.step (State.setFlag_frame ..) rfl ?_)
    | (with_reducible apply Frame.foldl _ _ ?_ (fun s x => ?_))
    | split
    | (dsimp only; split)

theorem State.takeCoef_frame (s : State) (pg : Page) : Frame (fp.regs + fp.rmbs + fp.nor) s (State.takeCoef s pg) := by
  unfold State.takeCoef
  repeat' first
    | with_reducible exact Frame.refl _ _
    | (with_reducible apply Frame.step (State.journal_frame ..) rfl ?_)
    | (with_reducible apply Frame.step (State.setFlag_frame ..) rfl ?_)
    | (with_reducible apply Frame.step (State.raiseFlag_frame ..) rfl ?_)
    | (with_reducible apply Frame.step (State.wr_frame ..) rfl ?_)
    | (with_reducible apply Frame.step (State.updRmb_frame ..) rfl ?_)
    | split
    | (dsimp only; split)

theorem State.beginSlot_frame (s : State) (pg : Page) (k : RmbSlot) (c : Nat) : Frame (fp.rmbs) s (State.beginSlot s pg k c) := by
  unfold State.beginSlot
  repeat' first
    | with_reducible exact Frame.refl _ _
    | (with_reducible apply Frame.step (State.updRmb_frame ..) rfl ?_)
    | split
    | (dsimp only; split)

theorem State.beginSeq_frame (s : State) (pg : Page) (src c : Nat) : Frame (fp.regs + fp.rmbs + fp.nor) s (State.beginSeq s pg src c) := by
  unfold State.beginSeq
  repeat' first
    | with_reducible exact Frame.refl _ _
    | (with_reducible apply Frame.step (State.takeCoef_frame ..) rfl ?_)
    | (with_reducible apply Frame.step (State.beginSlot_frame ..) rfl ?_)
    | (with_reducible apply Frame.step (State.updRmb_frame ..) rfl ?_)
    | (with_reducible apply Frame.ite ?_ ?_)
    | split
    | (dsimp only; split)

theorem State.nextSlot_frame (s : State) (pg : Page) (c : Nat) : Frame (fp.regs + fp.rmbs + fp.nor) s (State.nextSlot s pg c) := by
  unfold State.nextSlot
  repeat' first
    | with_reducible exact Frame.refl _ _
    | (with_reducible apply Frame.step (State.takeCoef_frame ..) rfl ?_)
    | (with_reducible apply Frame.step (State.beginSlot_frame ..) rfl ?_)
    | (with_reducible apply Frame.step (State.beginSeq_frame ..) rfl ?_)
    | (with_reducible apply Frame.step (State.updRmb_frame ..) rfl ?_)
    | (with_reducible apply Frame.ite ?_ ?_)
    | split
    | (dsimp only; split)

theorem State.takeRef_frame (s : State) (pg : Page) (c : Nat) : Frame (fp.regs + fp.rmbs) s (State.takeRef s pg c) := by
  unfold State.takeRef
  repeat' first
    | with_reducible exact Frame.refl _ _
    | (with_reducible apply Frame.step (State.updRmb_frame ..) rfl ?_)
    | (with_reducible apply Frame.step (State.wr_frame ..) rfl ?_)
    | (with_reducible apply Frame.step (State.setFlag_frame ..) rfl ?_)
    | (with_reducible apply Frame.ite ?_ ?_)
    | split
    | (dsimp only; split)

theorem State.freeQuot_frame (s : State) (n d : Nat) : Frame (fp.fresh) s (State.freeQuot s n d).2 := by
  unfold State.freeQuot
  repeat' first
    | with_reducible exact Frame.refl _ _
    | (with_reducible apply Frame.step (State.free_frame ..) rfl ?_)
    | (with_reducible apply Frame.ite ?_ ?_)
    | split
    | (dsimp only; split)
    | (refine Frame.step (State.free_pair (by assumption)) rfl ?_)

theorem State.freeQuot_pair {s : State} {n d : Nat} {s' : State} {v0 : Nat} (hx : State.freeQuot s n d = (v0, s')) : Frame (fp.fresh) s s' := by
  have := State.freeQuot_frame s n d
  rw [hx] at this; exact this

theorem State.closeEpoch_frame (s : State) (t : Nat) (e : Epoch) : Frame (fp.regs + fp.parts + fp.sent + fp.fresh) s (State.closeEpoch s t e) := by
  unfold State.closeEpoch
  repeat' first
    | with_reducible exact Frame.refl _ _
    | (with_reducible apply Frame.step (State.freeQuot_frame ..) rfl ?_)
    | (refine Frame.step (State.freeQuot_pair (by assumption)) rfl ?_)
    | (with_reducible apply Frame.step (State.setFlag_frame ..) rfl ?_)
    | (with_reducible apply Frame.step (State.inc_frame ..) rfl ?_)
    | (with_reducible apply Frame.step (State.err_frame ..) rfl ?_)
    | (with_reducible apply Frame.step (State.wr_frame ..) rfl ?_)
    | (with_reducible apply Frame.step (State.updPart_frame ..) rfl ?_)
    | (with_reducible apply Frame.ite ?_ ?_)
    | split
    | (dsimp only; split)

theorem State.closeWaiting_frame (s : State) (pg : Page) : Frame (fp.regs + fp.parts + fp.rmbs + fp.sent + fp.fresh) s (State.closeWaiting s pg) := by
  unfold State.closeWaiting
  repeat' first
    | with_reducible exact Frame.refl _ _
    | (with_reducible apply Frame.step (State.closeEpoch_frame ..) rfl ?_)
    | (with_reducible apply Frame.step (State.updRmb_frame ..) rfl ?_)
    | split
    | (dsimp only; split)

theorem State.preemptSlot_frame (s : State) (pg : Page) : Frame (fp.regs + fp.parts + fp.rmbs + fp.nor + fp.sent + fp.fresh) s (State.preemptSlot s pg) := by
  unfold State.preemptSlot
  repeat' first
    | with_reducible exact Frame.refl _ _
    | (with_reducible apply Frame.step (State.beginSeq_frame ..) rfl ?_)
    | (with_reducible apply Frame.step (State.closeWaiting_frame ..) rfl ?_)
    | (with_reducible apply Frame.step (State.takeRef_frame ..) rfl ?_)
    | (with_reducible apply Frame.step (State.inc_frame ..) rfl ?_)
    | (with_reducible apply Frame.step (State.updRmb_frame ..) rfl ?_)
    | (with_reducible apply Frame.ite ?_ ?_)
    | split
    | (dsimp only; split)

theorem State.startSrc_frame (s : State) (pg : Page) (src : Nat) : Frame (fp.regs + fp.parts + fp.rmbs + fp.nor + fp.sent + fp.fresh) s (State.startSrc s pg src) := by
  unfold State.startSrc
  repeat' first
    | with_reducible exact Frame.refl _ _
    | (with_reducible apply Frame.step (State.showSeq_frame ..) rfl ?_)
    | (with_reducible apply Frame.step (State.nextSlot_frame ..) rfl ?_)
    | (with_reducible apply Frame.step (State.preemptSlot_frame ..) rfl ?_)
    | (with_reducible apply Frame.step (State.inc_frame ..) rfl ?_)
    | (with_reducible apply Frame.step (State.err_frame ..) rfl ?_)
    | (with_reducible apply Frame.step (State.updRmb_frame ..) rfl ?_)
    | (with_reducible apply Frame.ite ?_ ?_)
    | split
    | (dsimp only; split)

theorem refSel_frame (s : State) (pg : Page) (v : Nat) : Frame (fp.regs + fp.rmbs) s (refSel s pg v) := by
  unfold refSel
  repeat' first
    | with_reducible exact Frame.refl _ _
    | (with_reducible apply Frame.step (State.updRmb_frame ..) rfl ?_)
    | (with_reducible apply Frame.step (State.takeRef_frame ..) rfl ?_)
    | (with_reducible apply Frame.ite ?_ ?_)
    | split
    | (dsimp only; split)

theorem refRdy_frame (s : State) (pg : Page) : Frame (fp.regs + fp.parts + fp.rmbs + fp.nor + fp.sent + fp.fresh) s (refRdy s pg) := by
  unfold refRdy
  repeat' first
    | with_reducible exact Frame.refl _ _
    | (with_reducible apply Frame.step (State.showSeq_frame ..) rfl ?_)
    | (with_reducible apply Frame.step (State.nextSlot_frame ..) rfl ?_)
    | (with_reducible apply Frame.step (State.preemptSlot_frame ..) rfl ?_)
    | (with_reducible apply Frame.step (State.setFlag_frame ..) rfl ?_)
    | (with_reducible apply Frame.step (State.updRmb_frame ..) rfl ?_)
    | (with_reducible apply Frame.ite ?_ ?_)
    | split
    | (dsimp only; split)

theorem swStart_frame (s : State) (pg : Page) : Frame (fp.regs + fp.parts + fp.rmbs + fp.nor + fp.sent + fp.fresh) s (swStart s pg) := by
  unfold swStart
  repeat' first
    | with_reducible exact Frame.refl _ _
    | (with_reducible apply Frame.step (State.startSrc_frame ..) rfl ?_)
    | split
    | (dsimp only; split)

theorem calStart_frame (s : State) (pg : Page) : Frame (fp.regs + fp.rmbs + fp.nor) s (calStart s pg) := by
  unfold calStart
  repeat' first
    | with_reducible exact Frame.refl _ _
    | (with_reducible apply Frame.step (State.setFlag_frame ..) rfl ?_)
    | (with_reducible apply Frame.step (State.updRmb_frame ..) rfl ?_)
    | (with_reducible apply Frame.step (State.nextSlot_frame ..) rfl ?_)
    | (with_reducible apply Frame.step (State.showSeq_frame ..) rfl ?_)
    | (with_reducible apply Frame.ite ?_ ?_)
    | split
    | (dsimp only; split)

theorem State.armTimer_frame (s : State) (pg : Page) (k : Nat) : Frame (fp.rmbs) s (State.armTimer s pg k) := by
  unfold State.armTimer
  repeat' first
    | with_reducible exact Frame.refl _ _
    | (with_reducible apply Frame.step (State.updRmb_frame ..) rfl ?_)
    | split
    | (dsimp only; split)

theorem rmbTimer_frame (s : State) (pg : Page) (k : Nat) : Frame (fp.regs + fp.parts + fp.rmbs + fp.nor + fp.sent + fp.fresh) s (rmbTimer s pg k) := by
  unfold rmbTimer
  repeat' first
    | with_reducible exact Frame.refl _ _
    | (with_reducible apply Frame.step (State.startSrc_frame ..) rfl ?_)
    | (with_reducible apply Frame.step (State.updRmb_frame ..) rfl ?_)
    | (with_reducible apply Frame.ite ?_ ?_)
    | split
    | (dsimp only; split)

theorem State.rmbOff_frame (s : State) (pg : Page) : Frame (fp.regs + fp.rmbs) s (State.rmbOff s pg) := by
  unfold State.rmbOff
  repeat' first
    | with_reducible exact Frame.refl _ _
    | (with_reducible apply Frame.step (State.showSeq_frame ..) rfl ?_)
    | (with_reducible apply Frame.step (State.takeRef_frame ..) rfl ?_)
    | (with_reducible apply Frame.step (State.updRmb_frame ..) rfl ?_)
    | split
    | (dsimp only; split)

theorem State.firstEpoch_frame (s : State) (t : Nat) : Frame (fp.rmbs) s (State.firstEpoch s t) := by
  unfold State.firstEpoch
  repeat' first
    | with_reducible exact Frame.refl _ _
    | (with_reducible apply Frame.step (State.updRmb_frame ..) rfl ?_)
    | split
    | (dsimp only; split)

theorem State.tickStarts_frame (s : State) (p : Nat) : Frame (fp.regs + fp.parts + fp.rmbs + fp.nor + fp.sent + fp.fresh) s (State.tickStarts s p) := by
  unfold State.tickStarts
  repeat' first
    | with_reducible exact Frame.refl _ _
    | (with_reducible apply Frame.step (State.startSrc_frame ..) rfl ?_)
    | (with_reducible apply Frame.step (State.firstEpoch_frame ..) rfl ?_)
    | (with_reducible apply Frame.step (State.updRmb_frame ..) rfl ?_)
    | (with_reducible apply Frame.foldl _ _ ?_ (fun s x => ?_))
    | (with_reducible apply Frame.ite ?_ ?_)
    | split
    | (dsimp only; split)

theorem snapshotStart_frame (s : State) (p : Nat) : Frame (fp.regs + fp.parts + fp.rmbs + fp.nor + fp.sent + fp.fresh) s (snapshotStart s p) := by
  unfold snapshotStart
  repeat' first
    | with_reducible exact Frame.refl _ _
    | (with_reducible apply Frame.step (State.startSrc_frame ..) rfl ?_)
    | (with_reducible apply Frame.step (State.setFlag_frame ..) rfl ?_)
    | (with_reducible apply Frame.step (State.wr_frame ..) rfl ?_)
    | (with_reducible apply Frame.step (State.updRmb_frame ..) rfl ?_)
    | (with_reducible apply Frame.foldl _ _ ?_ (fun s x => ?_))
    | (with_reducible apply Frame.ite ?_ ?_)
    | split
    | (dsimp only; split)

theorem State.compare_frame (s : State) (pg : Page) (n code : Nat) : Frame (fp.regs + fp.parts + fp.rmbs + fp.nor + fp.sent) s (State.compare s pg n code) := by
  unfold State.compare
  repeat' first
    | with_reducible exact Frame.refl _ _
    | (with_reducible apply Frame.step (State.setFlag_frame ..) rfl ?_)
    | (with_reducible apply Frame.step (State.updRmb_frame ..) rfl ?_)
    | (with_reducible apply Frame.step (State.err_frame ..) rfl ?_)
    | (with_reducible apply Frame.step (State.updPart_frame ..) rfl ?_)
    | (with_reducible apply Frame.step (State.startSrc_frame ..) rfl ?_)
    | (with_reducible apply Frame.ite ?_ ?_)
    | split
    | (dsimp only; split)

theorem State.compareAll_frame (s : State) (pg : Page) (k : RmbSlot) (codeA codeB : Nat) : Frame (fp.regs + fp.parts + fp.rmbs + fp.nor + fp.sent) s (State.compareAll s pg k codeA codeB) := by
  unfold State.compareAll
  repeat' first
    | with_reducible exact Frame.refl _ _
    | (with_reducible apply Frame.step (State.compare_frame ..) rfl ?_)
    | (with_reducible apply Frame.ite ?_ ?_)
    | (with_reducible apply Frame.foldl _ _ ?_ (fun s x => ?_))
    | split
    | (dsimp only; split)

theorem State.meter_frame (s : State) (pg : Page) (k : RmbSlot) (prod : Nat) : Frame (fp.tiles + fp.rmbs) s (State.meter s pg k prod) := by
  unfold State.meter
  repeat' first
    | with_reducible exact Frame.refl _ _
    | (with_reducible apply Frame.step (State.updTile_frame ..) rfl ?_)
    | (with_reducible apply Frame.step (State.updRmb_frame ..) rfl ?_)
    | (with_reducible apply Frame.ite ?_ ?_)
    | split
    | (dsimp only; split)

theorem State.writeResult_frame (s : State) (pg : Page) (k : RmbSlot) (codeA codeB : Nat) : Frame (fp.regs + fp.tiles + fp.parts + fp.rmbs + fp.sent + fp.fresh) s (State.writeResult s pg k codeA codeB) := by
  unfold State.writeResult
  repeat' first
    | with_reducible exact Frame.refl _ _
    | (with_reducible apply Frame.step (State.closeWaiting_frame ..) rfl ?_)
    | (with_reducible apply Frame.step (State.meter_frame ..) rfl ?_)
    | (with_reducible apply Frame.step (State.setFlag_frame ..) rfl ?_)
    | (with_reducible apply Frame.step (State.raiseFlag_frame ..) rfl ?_)
    | (with_reducible apply Frame.step (State.err_frame ..) rfl ?_)
    | (with_reducible apply Frame.step (State.wr_frame ..) rfl ?_)
    | (with_reducible apply Frame.step (State.updRmb_frame ..) rfl ?_)
    | (with_reducible apply Frame.ite ?_ ?_)
    | split
    | (dsimp only; split)

theorem State.coef_frame (s : State) (pg : Page) (gnd ref : Nat) : Frame (fp.fresh) s (State.coef s pg gnd ref).2 := by
  unfold State.coef
  repeat' first
    | with_reducible exact Frame.refl _ _
    | (with_reducible apply Frame.step (State.freeQuot_frame ..) rfl ?_)
    | (with_reducible apply Frame.step (State.free_frame ..) rfl ?_)
    | (with_reducible apply Frame.ite ?_ ?_)
    | split
    | (dsimp only; split)
    | (refine Frame.step (State.freeQuot_pair (by assumption)) rfl ?_)
    | (refine Frame.step (State.free_pair (by assumption)) rfl ?_)

theorem State.coef_pair {s : State} {pg : Page} {gnd ref : Nat} {s' : State} {v0 : Option (Nat × Nat)} (hx : State.coef s pg gnd ref = (v0, s')) : Frame (fp.fresh) s s' := by
  have := State.coef_frame s pg gnd ref
  rw [hx] at this; exact this

theorem State.calSlot_frame (s : State) (pg : Page) (rawA rawB : Nat) : Frame (fp.regs + fp.rmbs + fp.sent + fp.fresh) s (State.calSlot s pg rawA rawB) := by
  unfold State.calSlot
  repeat' first
    | with_reducible exact Frame.refl _ _
    | (with_reducible apply Frame.step (State.updRmb_frame ..) rfl ?_)
    | (with_reducible apply Frame.step (State.coef_frame ..) rfl ?_)
    | (with_reducible apply Frame.step (State.setFlag_frame ..) rfl ?_)
    | (with_reducible apply Frame.step (State.err_frame ..) rfl ?_)
    | (with_reducible apply Frame.ite ?_ ?_)
    | split
    | (dsimp only; split)
    | (refine Frame.step (State.coef_pair (by assumption)) rfl ?_)

theorem State.endSlot_frame (s : State) (pg : Page) (k : RmbSlot) (c : Nat) : Frame (fp.regs + fp.rmbs + fp.nor) s (State.endSlot s pg k c) := by
  unfold State.endSlot
  repeat' first
    | with_reducible exact Frame.refl _ _
    | (with_reducible apply Frame.step (State.beginSlot_frame ..) rfl ?_)
    | (with_reducible apply Frame.step (State.nextSlot_frame ..) rfl ?_)
    | (with_reducible apply Frame.step (State.takeRef_frame ..) rfl ?_)
    | (with_reducible apply Frame.step (State.inc_frame ..) rfl ?_)
    | (with_reducible apply Frame.step (State.updRmb_frame ..) rfl ?_)
    | (with_reducible apply Frame.ite ?_ ?_)
    | split
    | (dsimp only; split)

theorem conversionResult_frame (s : State) (pg : Page) (rawA rawB : Nat) : Frame (fp.regs + fp.tiles + fp.parts + fp.rmbs + fp.nor + fp.sent + fp.fresh) s (conversionResult s pg rawA rawB) := by
  unfold conversionResult
  repeat' first
    | with_reducible exact Frame.refl _ _
    | (with_reducible apply Frame.step (State.showSeq_frame ..) rfl ?_)
    | (with_reducible apply Frame.step (State.nextSlot_frame ..) rfl ?_)
    | (with_reducible apply Frame.step (State.compareAll_frame ..) rfl ?_)
    | (with_reducible apply Frame.step (State.writeResult_frame ..) rfl ?_)
    | (with_reducible apply Frame.step (State.calSlot_frame ..) rfl ?_)
    | (with_reducible apply Frame.step (State.updRmb_frame ..) rfl ?_)
    | (with_reducible apply Frame.step (State.corrected_frame ..) rfl ?_)
    | (with_reducible apply Frame.ite ?_ ?_)
    | split
    | (dsimp only; split)

theorem State.rmbCycle_frame (s : State) (pg : Page) : Frame (fp.regs + fp.parts + fp.rmbs + fp.nor + fp.sent + fp.fresh) s (State.rmbCycle s pg) := by
  unfold State.rmbCycle
  repeat' first
    | with_reducible exact Frame.refl _ _
    | (with_reducible apply Frame.step (State.showSeq_frame ..) rfl ?_)
    | (with_reducible apply Frame.step (State.startSrc_frame ..) rfl ?_)
    | (with_reducible apply Frame.step (State.endSlot_frame ..) rfl ?_)
    | (with_reducible apply Frame.step (State.updRmb_frame ..) rfl ?_)
    | (with_reducible apply Frame.foldl _ _ ?_ (fun s x => ?_))
    | (with_reducible apply Frame.ite ?_ ?_)
    | split
    | (dsimp only; split)

theorem epochEnd_frame (s : State) (t : Nat) : Frame (fp.regs + fp.parts + fp.rmbs + fp.sent + fp.fresh) s (epochEnd s t) := by
  unfold epochEnd
  repeat' first
    | with_reducible exact Frame.refl _ _
    | (with_reducible apply Frame.step (State.closeEpoch_frame ..) rfl ?_)
    | (with_reducible apply Frame.step (State.updRmb_frame ..) rfl ?_)
    | (refine Frame.step (State.freeQuot_pair (by assumption)) rfl ?_)
    | (with_reducible apply Frame.ite ?_ ?_)
    | split
    | (dsimp only; split)

end Sys2Proof.Machine
end

