-- ==== Sys2Proof/Laws/FramePacker.lean ====
section
/-! SUPPORT. Frames of the operations of Machine/Packer.lean. -/

namespace Sys2Proof.Machine

theorem State.decideTick_frame (s : State) (p : Nat) : Frame (fp.regs + fp.parts + fp.sent) s (State.decideTick s p) := by
  unfold State.decideTick
  repeat' first
    | with_reducible exact Frame.refl _ _
    | (with_reducible apply Frame.step (State.updPart_frame ..) rfl ?_)
    | (with_reducible apply Frame.step (State.inc_frame ..) rfl ?_)
    | (with_reducible apply Frame.step (State.err_frame ..) rfl ?_)
    | (with_reducible apply Frame.ite ?_ ?_)
    | split
    | (dsimp only; split)

theorem State.sendMask_frame (s : State) (p : Nat) : Frame (fp.cores + fp.fresh) s (State.sendMask s p) := by
  unfold State.sendMask
  repeat' first
    | with_reducible exact Frame.refl _ _
    | (with_reducible apply Frame.step (State.free_frame ..) rfl ?_)
    | (with_reducible apply Frame.step (State.updCore_frame _ _ _ ?_) rfl ?_)
    | (with_reducible apply Frame.foldl _ _ ?_ (fun s x => ?_))
    | split
    | (dsimp only; split)
    | (intro h; (try dsimp only); repeat' (first | with_reducible exact h _ | with_reducible apply Core.memWf_write | with_reducible apply Core.memWf_setByte | exact Core.memWf_of (h _) rfl rfl rfl | exact Core.memWf_of (Core.memWf_write _ _ (h _)) rfl rfl rfl | exact (Core.memWf_iff _).2 ⟨Table.wf_filter 0 _ ((Core.memWf_iff _).1 (h _)).1, ((Core.memWf_iff _).1 (h _)).2⟩ | exact (Core.memWf_iff _).2 ⟨((Core.memWf_iff _).1 (h _)).1, ((Core.memWf_iff _).1 (h _)).2⟩ | split))

theorem State.swapInputs_frame (s : State) (p : Nat) : Frame (fp.cores) s (State.swapInputs s p) := by
  unfold State.swapInputs
  repeat' first
    | with_reducible exact Frame.refl _ _
    | (with_reducible apply Frame.step (State.updCore_frame _ _ _ ?_) rfl ?_)
    | (with_reducible apply Frame.foldl _ _ ?_ (fun s x => ?_))
    | split
    | (dsimp only; split)
    | (intro h; (try dsimp only); repeat' (first | with_reducible exact h _ | with_reducible apply Core.memWf_write | with_reducible apply Core.memWf_setByte | exact Core.memWf_of (h _) rfl rfl rfl | exact Core.memWf_of (Core.memWf_write _ _ (h _)) rfl rfl rfl | exact (Core.memWf_iff _).2 ⟨Table.wf_filter 0 _ ((Core.memWf_iff _).1 (h _)).1, ((Core.memWf_iff _).1 (h _)).2⟩ | exact (Core.memWf_iff _).2 ⟨((Core.memWf_iff _).1 (h _)).1, ((Core.memWf_iff _).1 (h _)).2⟩ | split))

theorem State.enterToken_frame (s : State) (p : Nat) (c : Cand) : Frame (fp.parts + fp.reqs) s (State.enterToken s p c) := by
  unfold State.enterToken
  repeat' first
    | with_reducible exact Frame.refl _ _
    | (with_reducible apply Frame.step (State.updLane_frame ..) rfl ?_)
    | (with_reducible apply Frame.step (State.updReq_frame ..) rfl ?_)
    | (with_reducible apply Frame.ite ?_ ?_)
    | split
    | (dsimp only; split)

theorem State.placeExtras_frame (s : State) (p t : Nat) (a : List Nat × List Hold) (c : Cand) :
    Frame (fp.regs + fp.parts + fp.fresh) s (State.placeExtras s p t a c).1 := by
  unfold State.placeExtras
  dsimp only
  repeat' first
    | with_reducible exact Frame.refl _ _
    | (with_reducible apply Frame.step (State.inc_frame ..) rfl ?_)
    | (with_reducible apply Frame.step (State.updSpur_frame ..) rfl ?_)
    | (with_reducible apply Frame.ite ?_ ?_)
    | split
    | (dsimp only)

theorem State.fill_frame (s : State) (p t : Nat) : Frame (fp.regs + fp.parts + fp.reqs + fp.sent + fp.fresh) s (State.fill s p t) := by
  unfold State.fill
  repeat' first
    | with_reducible exact Frame.refl _ _
    | (with_reducible apply Frame.step (State.updPart_frame ..) rfl ?_)
    | (with_reducible apply Frame.step (State.free_frame ..) rfl ?_)
    | (with_reducible apply Frame.step (State.updSpur_frame ..) rfl ?_)
    | (with_reducible apply Frame.step (State.inc_frame ..) rfl ?_)
    | (with_reducible apply Frame.step (State.placeExtras_frame ..) rfl ?_)
    | (with_reducible apply Frame.step (State.enterToken_frame ..) rfl ?_)
    | (with_reducible apply Frame.step (State.err_frame ..) rfl ?_)
    | (with_reducible apply Frame.ite ?_ ?_)
    | (with_reducible apply Frame.foldl _ _ ?_ (fun s x => ?_))
    | (with_reducible apply Frame.foldlFst _ _ _ ?_ (fun x e => ?_))
    | split
    | (dsimp only; split)
    | (refine Frame.step (State.free_pair (by assumption)) rfl ?_)
    | (with_reducible apply Frame.step (State.placeExtras_frame ..) rfl ?_)
    | (refine Frame.step (State.placeExtras_pair (by assumption)) rfl ?_)

end Sys2Proof.Machine
end

