-- ==== Sys2Proof/Laws/FrameCommit.lean ====
section
/-! SUPPORT. Frames of the operations of Machine/Commit.lean. -/

namespace Sys2Proof.Machine

theorem State.endBody_frame (s : State) (p g : Nat) : Frame (fp.regs + fp.cores + fp.sent) s (State.endBody s p g) := by
  unfold State.endBody
  repeat' first
    | with_reducible exact Frame.refl _ _
    | (with_reducible apply Frame.step (State.stamp_frame ..) rfl ?_)
    | (with_reducible apply Frame.step (State.stepErr_frame ..) rfl ?_)
    | (with_reducible apply Frame.step (State.updCore_frame _ _ _ ?_) rfl ?_)
    | (with_reducible apply Frame.step (State.wr_frame ..) rfl ?_)
    | (with_reducible apply Frame.ite ?_ ?_)
    | split
    | (dsimp only; split)
    | (intro h; (try dsimp only); repeat' (first | with_reducible exact h _ | with_reducible apply Core.memWf_write | with_reducible apply Core.memWf_setByte | exact Core.memWf_of (h _) rfl rfl rfl | exact Core.memWf_of (Core.memWf_write _ _ (h _)) rfl rfl rfl | exact (Core.memWf_iff _).2 ⟨Table.wf_filter 0 _ ((Core.memWf_iff _).1 (h _)).1, ((Core.memWf_iff _).1 (h _)).2⟩ | exact (Core.memWf_iff _).2 ⟨((Core.memWf_iff _).1 (h _)).1, ((Core.memWf_iff _).1 (h _)).2⟩ | split))

theorem bodyEnd_frame (s : State) (p : Nat) : Frame (fp.regs + fp.cores + fp.parts + fp.sent) s (bodyEnd s p) := by
  unfold bodyEnd
  repeat' first
    | with_reducible exact Frame.refl _ _
    | (with_reducible apply Frame.step (State.endBody_frame ..) rfl ?_)
    | (with_reducible apply Frame.step (State.updPart_frame ..) rfl ?_)
    | (with_reducible apply Frame.ite ?_ ?_)
    | (with_reducible apply Frame.foldl _ _ ?_ (fun s x => ?_))
    | split
    | (dsimp only; split)

theorem State.failWith_frame (s : State) (p code : Nat) : Frame (fp.parts) s (State.failWith s p code) := by
  unfold State.failWith
  repeat' first
    | with_reducible exact Frame.refl _ _
    | (with_reducible apply Frame.step (State.updPart_frame ..) rfl ?_)
    | split
    | (dsimp only; split)

theorem State.addCounts_frame (s : State) (t : Nat) (n : Counts) : Frame (fp.regs + fp.sent) s (State.addCounts s t n) := by
  unfold State.addCounts
  repeat' first
    | with_reducible exact Frame.refl _ _
    | (with_reducible apply Frame.step (State.inc_frame ..) rfl ?_)
    | (with_reducible apply Frame.step (State.err_frame ..) rfl ?_)
    | (with_reducible apply Frame.ite ?_ ?_)
    | (with_reducible apply Frame.foldl _ _ ?_ (fun s x => ?_))
    | split
    | (dsimp only; split)

theorem State.sealWindows_frame (s : State) (p g : Nat) (f : Nat → Window → Bool) (newSt : WinState) : Frame (fp.cores + fp.parts) s (State.sealWindows s p g f newSt) := by
  unfold State.sealWindows
  repeat' first
    | with_reducible exact Frame.refl _ _
    | (with_reducible apply Frame.step (State.failWith_frame ..) rfl ?_)
    | (with_reducible apply Frame.step (State.updCore_frame _ _ _ ?_) rfl ?_)
    | (with_reducible apply Frame.ite ?_ ?_)
    | (with_reducible apply Frame.foldl _ _ ?_ (fun s x => ?_))
    | split
    | (dsimp only; split)
    | (intro h; (try dsimp only); repeat' (first | with_reducible exact h _ | with_reducible apply Core.memWf_write | with_reducible apply Core.memWf_setByte | exact Core.memWf_of (h _) rfl rfl rfl | exact Core.memWf_of (Core.memWf_write _ _ (h _)) rfl rfl rfl | exact (Core.memWf_iff _).2 ⟨Table.wf_filter 0 _ ((Core.memWf_iff _).1 (h _)).1, ((Core.memWf_iff _).1 (h _)).2⟩ | exact (Core.memWf_iff _).2 ⟨((Core.memWf_iff _).1 (h _)).1, ((Core.memWf_iff _).1 (h _)).2⟩ | split))

theorem State.reportErr_frame (s : State) (p g : Nat) (e : StepErr) : Frame (fp.regs + fp.cores + fp.parts + fp.sent) s (State.reportErr s p g e) := by
  unfold State.reportErr
  repeat' first
    | with_reducible exact Frame.refl _ _
    | (with_reducible apply Frame.step (State.wr_frame ..) rfl ?_)
    | (with_reducible apply Frame.step (State.failWith_frame ..) rfl ?_)
    | (with_reducible apply Frame.step (State.err_frame ..) rfl ?_)
    | (with_reducible apply Frame.step (State.updPart_frame ..) rfl ?_)
    | (with_reducible apply Frame.step (State.declare_frame ..) rfl ?_)
    | (with_reducible apply Frame.ite ?_ ?_)
    | split
    | (dsimp only; split)

theorem State.commitCore_frame (s : State) (p g : Nat) : Frame (fp.regs + fp.cores + fp.parts + fp.sent) s (State.commitCore s p g) := by
  unfold State.commitCore
  repeat' first
    | with_reducible exact Frame.refl _ _
    | (with_reducible apply Frame.step (State.updPart_frame ..) rfl ?_)
    | (with_reducible apply Frame.step (State.sealWindows_frame ..) rfl ?_)
    | (with_reducible apply Frame.step (State.inc_frame ..) rfl ?_)
    | (with_reducible apply Frame.step (State.addCounts_frame ..) rfl ?_)
    | (with_reducible apply Frame.step (State.updCore_frame _ _ _ ?_) rfl ?_)
    | (with_reducible apply Frame.step (State.err_frame ..) rfl ?_)
    | (with_reducible apply Frame.step (State.reportErr_frame ..) rfl ?_)
    | (with_reducible apply Frame.ite ?_ ?_)
    | split
    | (dsimp only; split)
    | (intro h; (try dsimp only); repeat' (first | with_reducible exact h _ | with_reducible apply Core.memWf_write | with_reducible apply Core.memWf_setByte | exact Core.memWf_of (h _) rfl rfl rfl | exact Core.memWf_of (Core.memWf_write _ _ (h _)) rfl rfl rfl | exact (Core.memWf_iff _).2 ⟨Table.wf_filter 0 _ ((Core.memWf_iff _).1 (h _)).1, ((Core.memWf_iff _).1 (h _)).2⟩ | exact (Core.memWf_iff _).2 ⟨((Core.memWf_iff _).1 (h _)).1, ((Core.memWf_iff _).1 (h _)).2⟩ | split))

theorem State.routerCounts_frame (s : State) (p : Nat) : Frame (fp.regs + fp.cores) s (State.routerCounts s p) := by
  unfold State.routerCounts
  repeat' first
    | with_reducible exact Frame.refl _ _
    | (with_reducible apply Frame.step (State.inc_frame ..) rfl ?_)
    | (with_reducible apply Frame.step (State.updCore_frame _ _ _ ?_) rfl ?_)
    | (with_reducible apply Frame.foldl _ _ ?_ (fun s x => ?_))
    | (with_reducible apply Frame.ite ?_ ?_)
    | split
    | (dsimp only; split)
    | (intro h; (try dsimp only); repeat' (first | with_reducible exact h _ | with_reducible apply Core.memWf_write | with_reducible apply Core.memWf_setByte | exact Core.memWf_of (h _) rfl rfl rfl | exact Core.memWf_of (Core.memWf_write _ _ (h _)) rfl rfl rfl | exact (Core.memWf_iff _).2 ⟨Table.wf_filter 0 _ ((Core.memWf_iff _).1 (h _)).1, ((Core.memWf_iff _).1 (h _)).2⟩ | exact (Core.memWf_iff _).2 ⟨((Core.memWf_iff _).1 (h _)).1, ((Core.memWf_iff _).1 (h _)).2⟩ | split))

theorem State.showErrs_frame (s : State) (gs : List Nat) : Frame (fp.regs + fp.sent) s (State.showErrs s gs) := by
  unfold State.showErrs
  repeat' first
    | with_reducible exact Frame.refl _ _
    | (with_reducible apply Frame.step (State.err_frame ..) rfl ?_)
    | (with_reducible apply Frame.step (State.wr_frame ..) rfl ?_)
    | (with_reducible apply Frame.ite ?_ ?_)
    | (with_reducible apply Frame.foldl _ _ ?_ (fun s x => ?_))
    | split
    | (dsimp only; split)

theorem State.gatherMarks_frame (s : State) (p : Nat) : Frame (fp.parts) s (State.gatherMarks s p) := by
  unfold State.gatherMarks
  repeat' first
    | with_reducible exact Frame.refl _ _
    | (with_reducible apply Frame.step (State.updPart_frame ..) rfl ?_)
    | split
    | (dsimp only; split)

theorem State.summit_frame (s : State) (p : Nat) (logits : List (Nat × List F32)) : Frame (fp.parts) s (State.summit s p logits) := by
  unfold State.summit
  repeat' first
    | with_reducible exact Frame.refl _ _
    | (with_reducible apply Frame.step (State.updPart_frame ..) rfl ?_)
    | (with_reducible apply Frame.ite ?_ ?_)
    | (with_reducible apply Frame.foldl _ _ ?_ (fun s x => ?_))
    | (with_reducible apply Frame.foldlFst _ _ _ ?_ (fun x e => ?_))
    | split
    | (dsimp only; split)

theorem State.takeRmbErrs_frame (s : State) (p : Nat) : Frame (fp.parts) s (State.takeRmbErrs s p) := by
  unfold State.takeRmbErrs
  repeat' first
    | with_reducible exact Frame.refl _ _
    | (with_reducible apply Frame.step (State.failWith_frame ..) rfl ?_)
    | (with_reducible apply Frame.step (State.updPart_frame ..) rfl ?_)
    | (with_reducible apply Frame.ite ?_ ?_)
    | split
    | (dsimp only; split)

theorem commitPhase_frame (s : State) (p : Nat) (logits : List (Nat × List F32)) (lost : List Nat) : Frame (fp.regs + fp.cores + fp.parts + fp.sent) s (commitPhase s p logits lost) := by
  unfold commitPhase
  repeat' first
    | with_reducible exact Frame.refl _ _
    | (with_reducible apply Frame.step (State.commitCore_frame ..) rfl ?_)
    | (with_reducible apply Frame.step (State.routerCounts_frame ..) rfl ?_)
    | (with_reducible apply Frame.step (State.showErrs_frame ..) rfl ?_)
    | (with_reducible apply Frame.step (State.gatherMarks_frame ..) rfl ?_)
    | (with_reducible apply Frame.step (State.summit_frame ..) rfl ?_)
    | (with_reducible apply Frame.step (State.takeRmbErrs_frame ..) rfl ?_)
    | (with_reducible apply Frame.step (State.updPart_frame ..) rfl ?_)
    | (with_reducible apply Frame.foldl _ _ ?_ (fun s x => ?_))
    | (with_reducible apply Frame.ite ?_ ?_)
    | split
    | (dsimp only; split)

theorem State.commitPtrs_frame (s : State) (g : Nat) : Frame (fp.regs + fp.cores + fp.crags) s (State.commitPtrs s g) := by
  unfold State.commitPtrs
  repeat' first
    | with_reducible exact Frame.refl _ _
    | (with_reducible apply Frame.step (State.memWrite_frame ..) rfl ?_)
    | (with_reducible apply Frame.step (State.updCore_frame _ _ _ ?_) rfl ?_)
    | (with_reducible apply Frame.ite ?_ ?_)
    | (with_reducible apply Frame.foldl _ _ ?_ (fun s x => ?_))
    | split
    | (dsimp only; split)
    | (intro h; (try dsimp only); repeat' (first | with_reducible exact h _ | with_reducible apply Core.memWf_write | with_reducible apply Core.memWf_setByte | exact Core.memWf_of (h _) rfl rfl rfl | exact Core.memWf_of (Core.memWf_write _ _ (h _)) rfl rfl rfl | exact (Core.memWf_iff _).2 ⟨Table.wf_filter 0 _ ((Core.memWf_iff _).1 (h _)).1, ((Core.memWf_iff _).1 (h _)).2⟩ | exact (Core.memWf_iff _).2 ⟨((Core.memWf_iff _).1 (h _)).1, ((Core.memWf_iff _).1 (h _)).2⟩ | split))

theorem State.endRequest_frame (s : State) (p h status : Nat) : Frame (fp.regs + fp.parts + fp.reqs + fp.ports + fp.writes + fp.reads + fp.sent) s (State.endRequest s p h status) := by
  unfold State.endRequest
  repeat' first
    | with_reducible exact Frame.refl _ _
    | (with_reducible apply Frame.step (State.updPart_frame ..) rfl ?_)
    | (with_reducible apply Frame.step (State.finishKeep_frame ..) rfl ?_)
    | (with_reducible apply Frame.step (State.finish_frame ..) rfl ?_)
    | (with_reducible apply Frame.ite ?_ ?_)
    | split
    | (dsimp only; split)

theorem State.releaseTokens_frame (s : State) (p h t : Nat) (l : List Result) : Frame (fp.regs + fp.cores + fp.crags + fp.parts + fp.reqs + fp.ports + fp.writes + fp.reads + fp.sent) s (State.releaseTokens s p h t l) := by
  unfold State.releaseTokens
  repeat' first
    | with_reducible exact Frame.refl _ _
    | (with_reducible apply Frame.step (State.queueRec_frame ..) rfl ?_)
    | (with_reducible apply Frame.step (State.updReq_frame ..) rfl ?_)
    | (with_reducible apply Frame.step (State.writePtrs_frame ..) rfl ?_)
    | (with_reducible apply Frame.step (State.endRequest_frame ..) rfl ?_)
    | (with_reducible apply Frame.step (State.spurVerdict_frame ..) rfl ?_)
    | (with_reducible apply Frame.ite ?_ ?_)
    | (with_reducible apply Frame.foldl _ _ ?_ (fun s x => ?_))
    | split
    | (dsimp only; split)

theorem State.releaseScore_frame (s : State) (p h t : Nat) (x : Result) : Frame (fp.regs + fp.parts + fp.reqs + fp.ports + fp.writes + fp.reads + fp.sent) s (State.releaseScore s p h t x) := by
  unfold State.releaseScore
  repeat' first
    | with_reducible exact Frame.refl _ _
    | (with_reducible apply Frame.step (State.updReq_frame ..) rfl ?_)
    | (with_reducible apply Frame.step (State.queueRec_frame ..) rfl ?_)
    | (with_reducible apply Frame.step (State.endRequest_frame ..) rfl ?_)
    | (with_reducible apply Frame.ite ?_ ?_)
    | (with_reducible apply Frame.foldl _ _ ?_ (fun s x => ?_))
    | split
    | (dsimp only; split)

theorem State.releaseEmbed_frame (s : State) (p h t : Nat) (x : Result) : Frame (fp.regs + fp.parts + fp.reqs + fp.ports + fp.writes + fp.reads + fp.sent) s (State.releaseEmbed s p h t x) := by
  unfold State.releaseEmbed
  repeat' first
    | with_reducible exact Frame.refl _ _
    | (with_reducible apply Frame.step (State.endRequest_frame ..) rfl ?_)
    | (with_reducible apply Frame.step (State.queueRec_frame ..) rfl ?_)
    | (with_reducible apply Frame.step (State.updReq_frame ..) rfl ?_)
    | (with_reducible apply Frame.ite ?_ ?_)
    | split
    | (dsimp only; split)

theorem State.releaseFor_frame (s : State) (p h t : Nat) : Frame (fp.regs + fp.cores + fp.crags + fp.parts + fp.reqs + fp.ports + fp.writes + fp.reads + fp.sent) s (State.releaseFor s p h t) := by
  unfold State.releaseFor
  repeat' first
    | with_reducible exact Frame.refl _ _
    | (with_reducible apply Frame.step (State.endRequest_frame ..) rfl ?_)
    | (with_reducible apply Frame.step (State.releaseTokens_frame ..) rfl ?_)
    | (with_reducible apply Frame.step (State.releaseScore_frame ..) rfl ?_)
    | (with_reducible apply Frame.step (State.releaseEmbed_frame ..) rfl ?_)
    | (with_reducible apply Frame.foldl _ _ ?_ (fun s x => ?_))
    | (with_reducible apply Frame.ite ?_ ?_)
    | split
    | (dsimp only; split)

theorem State.releaseResults_frame (s : State) (p t : Nat) : Frame (fp.regs + fp.cores + fp.crags + fp.parts + fp.reqs + fp.ports + fp.writes + fp.reads + fp.sent) s (State.releaseResults s p t) := by
  unfold State.releaseResults
  repeat' first
    | with_reducible exact Frame.refl _ _
    | (with_reducible apply Frame.step (State.updLane_frame ..) rfl ?_)
    | (with_reducible apply Frame.step (State.sendSpur_frame ..) rfl ?_)
    | (with_reducible apply Frame.step (State.releaseFor_frame ..) rfl ?_)
    | (with_reducible apply Frame.step (State.updPart_frame ..) rfl ?_)
    | (with_reducible apply Frame.ite ?_ ?_)
    | (with_reducible apply Frame.foldl _ _ ?_ (fun s x => ?_))
    | split
    | (dsimp only; split)

end Sys2Proof.Machine
end

