-- ==== Sys2Proof/Laws/FrameTick.lean ====
section
/-! SUPPORT. Frames of the operations of Machine/Tick.lean. -/

namespace Sys2Proof.Machine

theorem Core.atBoundary_memWf {c : Core} (run : Bool) (old : Nat) (h : c.memWf = true) : (Core.atBoundary c run old).memWf = true := by
  unfold Core.atBoundary
  try dsimp only
  repeat' (first | with_reducible exact h | exact Core.memWf_of h rfl rfl rfl | split)

theorem State.coreBoundary_frame (s : State) (g : Nat) : Frame (fp.regs + fp.cores) s (State.coreBoundary s g) := by
  unfold State.coreBoundary
  repeat' first
    | with_reducible exact Frame.refl _ _
    | (with_reducible apply Frame.step (State.updCore_frame _ _ _ ?_) rfl ?_)
    | (with_reducible apply Frame.step (State.wr_frame ..) rfl ?_)
    | split
    | (dsimp only; split)
    | (intro h; (try dsimp only); repeat' (first | with_reducible exact h _ | with_reducible apply Core.memWf_write | with_reducible apply Core.memWf_setByte | exact Core.memWf_of (h _) rfl rfl rfl | exact Core.memWf_of (Core.memWf_write _ _ (h _)) rfl rfl rfl | exact (Core.memWf_iff _).2 ⟨Table.wf_filter 0 _ ((Core.memWf_iff _).1 (h _)).1, ((Core.memWf_iff _).1 (h _)).2⟩ | exact (Core.memWf_iff _).2 ⟨((Core.memWf_iff _).1 (h _)).1, ((Core.memWf_iff _).1 (h _)).2⟩ | with_reducible apply Core.atBoundary_memWf | exact Core.memWf_of (d := Core.atBoundary ..) (Core.atBoundary_memWf (h := h _) ..) rfl rfl rfl | exact Core.memWf_foldl _ _ _ (h _) (fun _ _ h => Core.atBoundary_memWf (h := h) ..) | split))

theorem State.siteBoundary_frame (s : State) (p m : Nat) : Frame (fp.regs + fp.sites + fp.parts + fp.reqs + fp.ports + fp.writes + fp.reads + fp.nor + fp.faultMap + fp.faultGen + fp.faultLog + fp.faultSeq + fp.sent + fp.fresh) s (State.siteBoundary s p m) := by
  unfold State.siteBoundary
  repeat' first
    | with_reducible exact Frame.refl _ _
    | (with_reducible apply Frame.step (State.failChannels_frame ..) rfl ?_)
    | (with_reducible apply Frame.step (State.record_frame ..) rfl ?_)
    | (with_reducible apply Frame.step (State.expireLost_frame ..) rfl ?_)
    | (with_reducible apply Frame.step (State.noteHold_frame ..) rfl ?_)
    | (with_reducible apply Frame.step (State.updSite_frame ..) rfl ?_)
    | (with_reducible apply Frame.foldl _ _ ?_ (fun s x => ?_))
    | (with_reducible apply Frame.ite ?_ ?_)
    | split
    | (dsimp only; split)

theorem State.gatherErrs_frame (s : State) (p : Nat) : Frame (fp.regs + fp.cores + fp.parts + fp.sent) s (State.gatherErrs s p) := by
  unfold State.gatherErrs
  repeat' first
    | with_reducible exact Frame.refl _ _
    | (with_reducible apply Frame.step (State.err_frame ..) rfl ?_)
    | (with_reducible apply Frame.step (State.reportErr_frame ..) rfl ?_)
    | (with_reducible apply Frame.step (State.showErrs_frame ..) rfl ?_)
    | (with_reducible apply Frame.step (State.updCore_frame _ _ _ ?_) rfl ?_)
    | (with_reducible apply Frame.foldl _ _ ?_ (fun s x => ?_))
    | (with_reducible apply Frame.ite ?_ ?_)
    | split
    | (dsimp only; split)
    | (intro h; (try dsimp only); repeat' (first | with_reducible exact h _ | with_reducible apply Core.memWf_write | with_reducible apply Core.memWf_setByte | exact Core.memWf_of (h _) rfl rfl rfl | exact Core.memWf_of (Core.memWf_write _ _ (h _)) rfl rfl rfl | exact (Core.memWf_iff _).2 ⟨Table.wf_filter 0 _ ((Core.memWf_iff _).1 (h _)).1, ((Core.memWf_iff _).1 (h _)).2⟩ | exact (Core.memWf_iff _).2 ⟨((Core.memWf_iff _).1 (h _)).1, ((Core.memWf_iff _).1 (h _)).2⟩ | split))

theorem State.gatherLate_frame (s : State) (p : Nat) : Frame (fp.regs + fp.cores + fp.parts + fp.sent) s (State.gatherLate s p) := by
  unfold State.gatherLate
  repeat' first
    | with_reducible exact Frame.refl _ _
    | (with_reducible apply Frame.step (State.gatherErrs_frame ..) rfl ?_)
    | (with_reducible apply Frame.step (State.updPart_frame ..) rfl ?_)
    | (with_reducible apply Frame.step (State.updCore_frame _ _ _ ?_) rfl ?_)
    | (with_reducible apply Frame.foldl _ _ ?_ (fun s x => ?_))
    | (with_reducible apply Frame.ite ?_ ?_)
    | split
    | (dsimp only; split)
    | (intro h; (try dsimp only); repeat' (first | with_reducible exact h _ | with_reducible apply Core.memWf_write | with_reducible apply Core.memWf_setByte | exact Core.memWf_of (h _) rfl rfl rfl | exact Core.memWf_of (Core.memWf_write _ _ (h _)) rfl rfl rfl | exact (Core.memWf_iff _).2 ⟨Table.wf_filter 0 _ ((Core.memWf_iff _).1 (h _)).1, ((Core.memWf_iff _).1 (h _)).2⟩ | exact (Core.memWf_iff _).2 ⟨((Core.memWf_iff _).1 (h _)).1, ((Core.memWf_iff _).1 (h _)).2⟩ | split))

theorem State.openTick_frame (s : State) (p n skew : Nat) (replay : Bool) : Frame (fp.regs + fp.cores + fp.routers + fp.sites + fp.parts + fp.reqs + fp.rmbs + fp.ports + fp.writes + fp.reads + fp.nor + fp.faultMap + fp.faultGen + fp.faultLog + fp.faultSeq + fp.sent + fp.fresh) s (State.openTick s p n skew replay) := by
  unfold State.openTick
  repeat' first
    | with_reducible exact Frame.refl _ _
    | (with_reducible apply Frame.step (State.tickStarts_frame ..) rfl ?_)
    | (with_reducible apply Frame.step (State.setFlag_frame ..) rfl ?_)
    | (with_reducible apply Frame.step (State.raise_frame ..) rfl ?_)
    | (with_reducible apply Frame.step (State.err_frame ..) rfl ?_)
    | (with_reducible apply Frame.step (State.coreBoundary_frame ..) rfl ?_)
    | (with_reducible apply Frame.step (State.siteBoundary_frame ..) rfl ?_)
    | (with_reducible apply Frame.step (State.gatherLate_frame ..) rfl ?_)
    | (with_reducible apply Frame.step (State.wr_frame ..) rfl ?_)
    | (with_reducible apply Frame.step (State.updRouter_frame ..) rfl ?_)
    | (with_reducible apply Frame.step (State.updPart_frame ..) rfl ?_)
    | (with_reducible apply Frame.foldl _ _ ?_ (fun s x => ?_))
    | (with_reducible apply Frame.ite ?_ ?_)
    | split
    | (dsimp only; split)

theorem State.restoreSlow_frame (s : State) (p n : Nat) : Frame (fp.regs + fp.sent) s (State.restoreSlow s p n) := by
  unfold State.restoreSlow
  repeat' first
    | with_reducible exact Frame.refl _ _
    | (with_reducible apply Frame.step (State.err_frame ..) rfl ?_)
    | (with_reducible apply Frame.ite ?_ ?_)
    | split
    | (dsimp only; split)

theorem State.latch_frame (s : State) (p n : Nat) : Frame (fp.regs + fp.cores + fp.crags + fp.parts + fp.reqs + fp.sent + fp.fresh) s (State.latch s p n) := by
  unfold State.latch
  repeat' first
    | with_reducible exact Frame.refl _ _
    | (with_reducible apply Frame.step (State.takeWords_frame ..) rfl ?_)
    | (with_reducible apply Frame.step (State.fill_frame ..) rfl ?_)
    | (with_reducible apply Frame.step (State.restoreSlow_frame ..) rfl ?_)
    | (with_reducible apply Frame.step (State.updPart_frame ..) rfl ?_)
    | split
    | (dsimp only; split)

theorem tickBoundary_frame (s : State) (p skew : Nat) : Frame (fp.regs + fp.cores + fp.routers + fp.links + fp.tiles + fp.crags + fp.sites + fp.parts + fp.reqs + fp.rmbs + fp.ports + fp.writes + fp.reads + fp.nor + fp.faultMap + fp.faultGen + fp.faultLog + fp.faultSeq + fp.sent + fp.fresh) s (tickBoundary s p skew) := by
  unfold tickBoundary
  repeat' first
    | with_reducible exact Frame.refl _ _
    | (with_reducible apply Frame.step (State.setFlag_frame ..) rfl ?_)
    | (with_reducible apply Frame.step (State.openTick_frame ..) rfl ?_)
    | (with_reducible apply Frame.step (State.latch_frame ..) rfl ?_)
    | (with_reducible apply Frame.step (State.startHold_frame ..) rfl ?_)
    | (with_reducible apply Frame.step (State.updPart_frame ..) rfl ?_)
    | (with_reducible apply Frame.ite ?_ ?_)
    | split
    | (dsimp only; split)

theorem State.leaveHold_frame (s : State) (p : Nat) : Frame (fp.regs + fp.cores + fp.parts + fp.nor + fp.faultMap + fp.faultGen + fp.faultLog + fp.faultSeq + fp.sent + fp.fresh) s (State.leaveHold s p) := by
  unfold State.leaveHold
  repeat' first
    | with_reducible exact Frame.refl _ _
    | (with_reducible apply Frame.step (State.standIn_frame ..) rfl ?_)
    | (with_reducible apply Frame.step (State.record_frame ..) rfl ?_)
    | (with_reducible apply Frame.step (State.noteHold_frame ..) rfl ?_)
    | (with_reducible apply Frame.step (State.updPart_frame ..) rfl ?_)
    | (with_reducible apply Frame.ite ?_ ?_)
    | (with_reducible apply Frame.foldl _ _ ?_ (fun s x => ?_))
    | split
    | (dsimp only; split)

theorem State.chargeReplay_frame (s : State) (p : Nat) : Frame (fp.regs + fp.reqs + fp.sent) s (State.chargeReplay s p) := by
  unfold State.chargeReplay
  repeat' first
    | with_reducible exact Frame.refl _ _
    | (with_reducible apply Frame.step (State.setSlack_frame ..) rfl ?_)
    | (with_reducible apply Frame.step (State.updReq_frame ..) rfl ?_)
    | (with_reducible apply Frame.foldl _ _ ?_ (fun s x => ?_))
    | (with_reducible apply Frame.ite ?_ ?_)
    | split
    | (dsimp only; split)

theorem replayBoundary_frame (s : State) (p : Nat) (ue : Bool) : Frame (fp.regs + fp.cores + fp.routers + fp.links + fp.tiles + fp.crags + fp.sites + fp.parts + fp.reqs + fp.rmbs + fp.ports + fp.writes + fp.reads + fp.nor + fp.faultMap + fp.faultGen + fp.faultLog + fp.faultSeq + fp.sent + fp.fresh) s (replayBoundary s p ue) := by
  unfold replayBoundary
  repeat' first
    | with_reducible exact Frame.refl _ _
    | (with_reducible apply Frame.step (State.inc_frame ..) rfl ?_)
    | (with_reducible apply Frame.step (State.err_frame ..) rfl ?_)
    | (with_reducible apply Frame.step (State.openTick_frame ..) rfl ?_)
    | (with_reducible apply Frame.step (State.latch_frame ..) rfl ?_)
    | (with_reducible apply Frame.step (State.leaveHold_frame ..) rfl ?_)
    | (with_reducible apply Frame.step (State.chargeReplay_frame ..) rfl ?_)
    | (with_reducible apply Frame.step (State.halt_frame ..) rfl ?_)
    | (with_reducible apply Frame.step (State.doubleHalt_frame ..) rfl ?_)
    | (with_reducible apply Frame.step (State.startHold_frame ..) rfl ?_)
    | (with_reducible apply Frame.step (State.loseStores_frame ..) rfl ?_)
    | (with_reducible apply Frame.ite ?_ ?_)
    | split
    | (dsimp only; split)

theorem State.lateReport_frame (s : State) (p t : Nat) (src : Nat) : Frame (fp.regs + fp.cores + fp.parts + fp.sent) s (State.lateReport s p t src) := by
  unfold State.lateReport
  repeat' first
    | with_reducible exact Frame.refl _ _
    | (with_reducible apply Frame.step (State.setFlag_frame ..) rfl ?_)
    | (with_reducible apply Frame.step (State.declare_frame ..) rfl ?_)
    | (with_reducible apply Frame.step (State.wr_frame ..) rfl ?_)
    | (with_reducible apply Frame.step (State.updPart_frame ..) rfl ?_)
    | (with_reducible apply Frame.ite ?_ ?_)
    | split
    | (dsimp only; split)

theorem State.sealOpen_frame (s : State) (p t : Nat) : Frame (fp.regs + fp.cores + fp.parts) s (State.sealOpen s p t) := by
  unfold State.sealOpen
  repeat' first
    | with_reducible exact Frame.refl _ _
    | (with_reducible apply Frame.step (State.sealWindows_frame ..) rfl ?_)
    | (with_reducible apply Frame.step (State.stamp_frame ..) rfl ?_)
    | (with_reducible apply Frame.ite ?_ ?_)
    | (with_reducible apply Frame.foldl _ _ ?_ (fun s x => ?_))
    | split
    | (dsimp only; split)

theorem State.idleWindows_frame (s : State) (p : Nat) : Frame (fp.cores) s (State.idleWindows s p) := by
  unfold State.idleWindows
  repeat' first
    | with_reducible exact Frame.refl _ _
    | (with_reducible apply Frame.step (State.updCore_frame _ _ _ ?_) rfl ?_)
    | (with_reducible apply Frame.foldl _ _ ?_ (fun s x => ?_))
    | split
    | (dsimp only; split)
    | (intro h; (try dsimp only); repeat' (first | with_reducible exact h _ | with_reducible apply Core.memWf_write | with_reducible apply Core.memWf_setByte | exact Core.memWf_of (h _) rfl rfl rfl | exact Core.memWf_of (Core.memWf_write _ _ (h _)) rfl rfl rfl | exact (Core.memWf_iff _).2 ⟨Table.wf_filter 0 _ ((Core.memWf_iff _).1 (h _)).1, ((Core.memWf_iff _).1 (h _)).2⟩ | exact (Core.memWf_iff _).2 ⟨((Core.memWf_iff _).1 (h _)).1, ((Core.memWf_iff _).1 (h _)).2⟩ | split))

theorem State.missingDead_frame (s : State) (p : Nat) : Frame (fp.regs + fp.parts + fp.sent) s (State.missingDead s p) := by
  unfold State.missingDead
  repeat' first
    | with_reducible exact Frame.refl _ _
    | (with_reducible apply Frame.step (State.addDead_frame ..) rfl ?_)
    | (with_reducible apply Frame.step (State.failWith_frame ..) rfl ?_)
    | (with_reducible apply Frame.foldl _ _ ?_ (fun s x => ?_))
    | (with_reducible apply Frame.ite ?_ ?_)
    | split
    | (dsimp only; split)

theorem State.siteVerdict_frame (s : State) (p : Nat) : Frame (fp.sites + fp.parts) s (State.siteVerdict s p).1 := by
  unfold State.siteVerdict
  repeat' first
    | with_reducible exact Frame.refl _ _
    | (with_reducible apply Frame.step (State.failWith_frame ..) rfl ?_)
    | (with_reducible apply Frame.step (State.updSite_frame ..) rfl ?_)
    | (with_reducible apply Frame.ite ?_ ?_)
    | (with_reducible apply Frame.foldl _ _ ?_ (fun s x => ?_))
    | split
    | (dsimp only; split)

theorem State.siteVerdict_pair {s : State} {p : Nat} {s' : State} {v : Option (Nat × Nat)} (hx : State.siteVerdict s p = (s', v)) : Frame (fp.sites + fp.parts) s s' := by
  have := State.siteVerdict_frame s p
  rw [hx] at this; exact this

theorem State.tickFails_frame (s : State) (p code : Nat) (cls : Option (Nat × Nat)) : Frame (fp.regs + fp.cores + fp.routers + fp.links + fp.tiles + fp.crags + fp.sites + fp.parts + fp.reqs + fp.ports + fp.writes + fp.reads + fp.nor + fp.faultMap + fp.faultGen + fp.faultLog + fp.faultSeq + fp.sent + fp.fresh) s (State.tickFails s p code cls) := by
  unfold State.tickFails
  repeat' first
    | with_reducible exact Frame.refl _ _
    | (with_reducible apply Frame.step (State.free_frame ..) rfl ?_)
    | (refine Frame.step (State.free_pair (by assumption)) rfl ?_)
    | (with_reducible apply Frame.step (State.err_frame ..) rfl ?_)
    | (with_reducible apply Frame.step (State.freePath_frame ..) rfl ?_)
    | (refine Frame.step (State.freePath_pair (by assumption)) rfl ?_)
    | (with_reducible apply Frame.step (State.abandonWork_frame ..) rfl ?_)
    | (with_reducible apply Frame.step (State.halt_frame ..) rfl ?_)
    | (with_reducible apply Frame.step (State.wr_frame ..) rfl ?_)
    | (with_reducible apply Frame.step (State.updPart_frame ..) rfl ?_)
    | (with_reducible apply Frame.ite ?_ ?_)
    | split
    | (dsimp only; split)

theorem State.verdict_frame (s : State) (p t : Nat) : Frame (fp.regs + fp.cores + fp.routers + fp.links + fp.tiles + fp.crags + fp.sites + fp.parts + fp.reqs + fp.ports + fp.writes + fp.reads + fp.nor + fp.tally + fp.faultMap + fp.faultGen + fp.faultLog + fp.faultSeq + fp.sent + fp.fresh) s (State.verdict s p t).1 := by
  unfold State.verdict
  repeat' first
    | with_reducible exact Frame.refl _ _
    | (with_reducible apply Frame.step (State.lateReport_frame ..) rfl ?_)
    | (with_reducible apply Frame.step (State.sealOpen_frame ..) rfl ?_)
    | (with_reducible apply Frame.step (State.idleWindows_frame ..) rfl ?_)
    | (with_reducible apply Frame.step (State.missingDead_frame ..) rfl ?_)
    | (with_reducible apply Frame.step (State.siteVerdict_frame ..) rfl ?_)
    | (refine Frame.step (State.siteVerdict_pair (by assumption)) rfl ?_)
    | (with_reducible apply Frame.step (State.tickFails_frame ..) rfl ?_)
    | (with_reducible apply Frame.step (State.failWith_frame ..) rfl ?_)
    | (with_reducible apply Frame.step (State.commitPtrs_frame ..) rfl ?_)
    | (with_reducible apply Frame.step (State.releaseResults_frame ..) rfl ?_)
    | (with_reducible apply Frame.step (State.updPart_frame ..) rfl ?_)
    | (with_reducible apply Frame.step (sealOpen_frame ..) rfl ?_)
    | (with_reducible apply Frame.foldl _ _ ?_ (fun s x => ?_))
    | (with_reducible apply Frame.foldlFst _ _ _ ?_ (fun x e => ?_))
    | (with_reducible apply Frame.ite ?_ ?_)
    | split
    | (dsimp only; split)

theorem State.verdict_pair {s : State} {p t : Nat} {s' : State} {v : Bool} (hx : State.verdict s p t = (s', v)) : Frame (fp.regs + fp.cores + fp.routers + fp.links + fp.tiles + fp.crags + fp.sites + fp.parts + fp.reqs + fp.ports + fp.writes + fp.reads + fp.nor + fp.tally + fp.faultMap + fp.faultGen + fp.faultLog + fp.faultSeq + fp.sent + fp.fresh) s s' := by
  have := State.verdict_frame s p t
  rw [hx] at this; exact this

theorem State.emptyLanes_frame (s : State) (p t : Nat) : Frame (fp.parts) s (State.emptyLanes s p t) := by
  unfold State.emptyLanes
  repeat' first
    | with_reducible exact Frame.refl _ _
    | (with_reducible apply Frame.step (State.updPart_frame ..) rfl ?_)
    | split
    | (dsimp only; split)

theorem State.nameTokens_frame (s : State) (p : Nat) : Frame (fp.regs + fp.cores + fp.crags + fp.parts + fp.sent) s (State.nameTokens s p) := by
  unfold State.nameTokens
  repeat' first
    | with_reducible exact Frame.refl _ _
    | (with_reducible apply Frame.step (draft_frame ..) rfl ?_)
    | (with_reducible apply Frame.step (State.updPart_frame ..) rfl ?_)
    | (with_reducible apply Frame.ite ?_ ?_)
    | split
    | (dsimp only; split)

theorem State.laneWork_frame (s : State) (p t : Nat) : Frame (fp.regs + fp.cores + fp.routers + fp.crags + fp.sites + fp.parts + fp.reqs + fp.ports + fp.writes + fp.reads + fp.sent) s (State.laneWork s p t) := by
  unfold State.laneWork
  repeat' first
    | with_reducible exact Frame.refl _ _
    | (with_reducible apply Frame.step (State.beginExport_frame ..) rfl ?_)
    | (with_reducible apply Frame.step (State.setupLane_frame ..) rfl ?_)
    | (with_reducible apply Frame.step (State.dropXfers_frame ..) rfl ?_)
    | (with_reducible apply Frame.step (State.updReq_frame ..) rfl ?_)
    | (with_reducible apply Frame.ite ?_ ?_)
    | (with_reducible apply Frame.foldl _ _ ?_ (fun s x => ?_))
    | split
    | (dsimp only; split)

theorem State.startTable_frame (s : State) (p : Nat) : Frame (fp.regs + fp.cores + fp.routers + fp.crags + fp.sites + fp.parts + fp.reqs + fp.ports + fp.writes + fp.reads + fp.sent + fp.fresh) s (State.startTable s p) := by
  unfold State.startTable
  repeat' first
    | with_reducible exact Frame.refl _ _
    | (with_reducible apply Frame.step (State.sendMask_frame ..) rfl ?_)
    | (with_reducible apply Frame.step (State.emptyLanes_frame ..) rfl ?_)
    | (with_reducible apply Frame.step (State.nameTokens_frame ..) rfl ?_)
    | (with_reducible apply Frame.step (State.decideTick_frame ..) rfl ?_)
    | (with_reducible apply Frame.step (State.swapInputs_frame ..) rfl ?_)
    | (with_reducible apply Frame.step (State.laneWork_frame ..) rfl ?_)
    | (with_reducible apply Frame.step (State.retryDrafts_frame ..) rfl ?_)
    | (with_reducible apply Frame.ite ?_ ?_)
    | split
    | (dsimp only; split)

theorem tickFinality_frame (s : State) (p : Nat) : Frame (fp.regs + fp.cores + fp.routers + fp.links + fp.tiles + fp.crags + fp.sites + fp.parts + fp.reqs + fp.ports + fp.writes + fp.reads + fp.nor + fp.tally + fp.faultMap + fp.faultGen + fp.faultLog + fp.faultSeq + fp.sent + fp.fresh) s (tickFinality s p) := by
  unfold tickFinality
  repeat' first
    | with_reducible exact Frame.refl _ _
    | (with_reducible apply Frame.step (State.gatherLate_frame ..) rfl ?_)
    | (with_reducible apply Frame.step (State.verdict_frame ..) rfl ?_)
    | (refine Frame.step (State.verdict_pair (by assumption)) rfl ?_)
    | (with_reducible apply Frame.step (State.startTable_frame ..) rfl ?_)
    | (with_reducible apply Frame.step (State.halt_frame ..) rfl ?_)
    | (with_reducible apply Frame.step (State.startHold_frame ..) rfl ?_)
    | (with_reducible apply Frame.step (State.updPart_frame ..) rfl ?_)
    | (with_reducible apply Frame.ite ?_ ?_)
    | split
    | (dsimp only; split)

theorem period_frame (s : State) (p v : Nat) : Frame (fp.regs + fp.sent) s (period s p v) := by
  unfold period
  repeat' first
    | with_reducible exact Frame.refl _ _
    | (with_reducible apply Frame.step (State.err_frame ..) rfl ?_)
    | (with_reducible apply Frame.step (State.wr_frame ..) rfl ?_)
    | (with_reducible apply Frame.ite ?_ ?_)
    | split
    | (dsimp only; split)

theorem stretchCeil_frame (s : State) (p v : Nat) : Frame (fp.regs + fp.parts) s (stretchCeil s p v) := by
  unfold stretchCeil
  repeat' first
    | with_reducible exact Frame.refl _ _
    | (with_reducible apply Frame.step (State.wr_frame ..) rfl ?_)
    | (with_reducible apply Frame.step (State.updPart_frame ..) rfl ?_)
    | split
    | (dsimp only; split)

theorem stretchCeilRaiseApply_frame (s : State) (p : Nat) : Frame (fp.regs + fp.parts) s (stretchCeilRaiseApply s p) := by
  unfold stretchCeilRaiseApply
  repeat' first
    | with_reducible exact Frame.refl _ _
    | (with_reducible apply Frame.step (State.wr_frame ..) rfl ?_)
    | (with_reducible apply Frame.step (State.updPart_frame ..) rfl ?_)
    | (with_reducible apply Frame.ite ?_ ?_)
    | (with_reducible apply Frame.foldl _ _ ?_ (fun s x => ?_))
    | split
    | (dsimp only; split)

theorem tickLo_frame (s : State) (p : Nat) : Frame (fp.regs + fp.sent) s (tickLo s p) := by
  unfold tickLo
  repeat' first
    | with_reducible exact Frame.refl _ _
    | (with_reducible apply Frame.step (State.wr_frame ..) rfl ?_)
    | (with_reducible apply Frame.step (State.emit_frame ..) rfl ?_)
    | split
    | (dsimp only; split)

end Sys2Proof.Machine
end

