-- ==== Sys2Proof/Laws/FrameSecurity.lean ====
section
/-! SUPPORT. Frames of the operations of Machine/Security.lean. -/

namespace Sys2Proof.Machine

theorem State.setSlot_frame (s : State) (kind i : Nat) (f : FwSlot → FwSlot) : Frame (fp.nor) s (State.setSlot s kind i f) := by
  unfold State.setSlot
  repeat' first
    | with_reducible exact Frame.refl _ _
    | (with_reducible apply Frame.step (State.updNor_frame ..) rfl ?_)
    | (with_reducible apply Frame.step (State.journal_frame ..) rfl ?_)
    | split
    | (dsimp only; split)

theorem State.ssbErr_frame (s : State) (b : Nat) : Frame (fp.regs + fp.sent) s (State.ssbErr s b) := by
  unfold State.ssbErr
  repeat' first
    | with_reducible exact Frame.refl _ _
    | (with_reducible apply Frame.step (State.err_frame ..) rfl ?_)
    | split
    | (dsimp only; split)

theorem State.burnKey_frame (s : State) (i : Nat) : Frame fp.fuses s (State.burnKey s i) where
  pending := rfl
  burnt := ⟨rfl, rfl, rfl, rfl, rfl, rfl, rfl, rfl, rfl, fun j h => by
    show (s.fuses.revoked ||| 2 ^ i).testBit j = true
    rw [Nat.testBit_or, h, Bool.true_or], fun _ => Nat.le_refl _⟩
  canon := fun c => ⟨c.regs, c.cores, c.mems, c.routers, c.tiles, c.crags, c.saddles, c.sites, c.parts, c.reqs, c.rmbs, c.ports, c.ctls, c.ssbs, c.faultMap⟩
  regs := fun _ => rfl
  clock := fun _ => rfl
  cores := fun _ => rfl
  routers := fun _ => rfl
  links := fun _ => rfl
  tiles := fun _ => rfl
  crags := fun _ => rfl
  saddles := fun _ => rfl
  sites := fun _ => rfl
  parts := fun _ => rfl
  reqs := fun _ => rfl
  rmbs := fun _ => rfl
  sps := fun _ => rfl
  ports := fun _ => rfl
  writes := fun _ => rfl
  reads := fun _ => rfl
  ctls := fun _ => rfl
  ssbs := fun _ => rfl
  nor := fun _ => rfl
  fuses := fun h => absurd h (by decide)
  tally := fun _ => rfl
  faultMap := fun _ => rfl
  faultGen := fun _ => rfl
  faultLog := fun _ => rfl
  faultSeq := fun _ => rfl
  order := fun _ => rfl
  ms := fun _ => rfl
  sent := fun _ => rfl
  fresh := fun _ => rfl

theorem getD_setAt_max (l : List Nat) (i j v : Nat) : l.getD j 0 ≤ (setAt l i (max (l.getD i 0) v)).getD j 0 := by
  induction l generalizing i j with
  | nil => simp [setAt]
  | cons x l ih =>
    cases i with
    | zero => cases j <;> simp [setAt, Nat.le_max_left]
    | succ i =>
      cases j with
      | zero => simp [setAt]
      | succ j => simpa [setAt] using ih i j

theorem State.burnSvn_frame (s : State) (kind v : Nat) : Frame fp.fuses s (State.burnSvn s kind v) where
  pending := rfl
  burnt := ⟨rfl, rfl, rfl, rfl, rfl, rfl, rfl, rfl, rfl, fun _ h => h, fun j => getD_setAt_max _ _ j v⟩
  canon := fun c => ⟨c.regs, c.cores, c.mems, c.routers, c.tiles, c.crags, c.saddles, c.sites, c.parts, c.reqs, c.rmbs, c.ports, c.ctls, c.ssbs, c.faultMap⟩
  regs := fun _ => rfl
  clock := fun _ => rfl
  cores := fun _ => rfl
  routers := fun _ => rfl
  links := fun _ => rfl
  tiles := fun _ => rfl
  crags := fun _ => rfl
  saddles := fun _ => rfl
  sites := fun _ => rfl
  parts := fun _ => rfl
  reqs := fun _ => rfl
  rmbs := fun _ => rfl
  sps := fun _ => rfl
  ports := fun _ => rfl
  writes := fun _ => rfl
  reads := fun _ => rfl
  ctls := fun _ => rfl
  ssbs := fun _ => rfl
  nor := fun _ => rfl
  fuses := fun h => absurd h (by decide)
  tally := fun _ => rfl
  faultMap := fun _ => rfl
  faultGen := fun _ => rfl
  faultLog := fun _ => rfl
  faultSeq := fun _ => rfl
  order := fun _ => rfl
  ms := fun _ => rfl
  sent := fun _ => rfl
  fresh := fun _ => rfl

theorem State.revoke_frame (s : State) (o : SignedObj) : Frame (fp.regs + fp.fuses) s (State.revoke s o) := by
  unfold State.revoke
  repeat' first
    | with_reducible exact Frame.refl _ _
    | (with_reducible apply Frame.step (State.burnKey_frame ..) rfl ?_)
    | (with_reducible apply Frame.step (State.wr_frame ..) rfl ?_)
    | (with_reducible apply Frame.ite ?_ ?_)
    | (with_reducible apply Frame.foldl _ _ ?_ (fun s x => ?_))
    | split
    | (dsimp only; split)

theorem firmwareObjectStage_frame (s : State) (bytes : List Byte) : Frame (fp.regs + fp.nor + fp.fuses + fp.sent) s (firmwareObjectStage s bytes) := by
  unfold firmwareObjectStage
  repeat' first
    | with_reducible exact Frame.refl _ _
    | (with_reducible apply Frame.step (State.ssbErr_frame ..) rfl ?_)
    | (with_reducible apply Frame.step (State.revoke_frame ..) rfl ?_)
    | (with_reducible apply Frame.step (State.updNor_frame ..) rfl ?_)
    | (with_reducible apply Frame.step (State.setSlot_frame ..) rfl ?_)
    | (with_reducible apply Frame.ite ?_ ?_)
    | split
    | (dsimp only; split)

theorem State.trialGood_frame (s : State) (kind i : Nat) : Frame (fp.nor) s (State.trialGood s kind i) := by
  unfold State.trialGood
  repeat' first
    | with_reducible exact Frame.refl _ _
    | (with_reducible apply Frame.step (State.setSlot_frame ..) rfl ?_)
    | split
    | (dsimp only; split)

theorem activateFirmware_frame (s : State) (kind : Nat) (healthy : Bool) : Frame (fp.regs + fp.nor + fp.sent) s (activateFirmware s kind healthy) := by
  unfold activateFirmware
  repeat' first
    | with_reducible exact Frame.refl _ _
    | (with_reducible apply Frame.step (State.err_frame ..) rfl ?_)
    | (with_reducible apply Frame.step (State.setSlot_frame ..) rfl ?_)
    | (with_reducible apply Frame.step (State.trialGood_frame ..) rfl ?_)
    | (with_reducible apply Frame.step (State.wr_frame ..) rfl ?_)
    | (with_reducible apply Frame.step (State.emit_frame ..) rfl ?_)
    | (with_reducible apply Frame.foldl _ _ ?_ (fun s x => ?_))
    | (with_reducible apply Frame.ite ?_ ?_)
    | split
    | (dsimp only; split)

theorem healthyStartTimeout_frame (s : State) (kind : Nat) : Frame (fp.regs + fp.nor + fp.sent) s (healthyStartTimeout s kind) := by
  unfold healthyStartTimeout
  repeat' first
    | with_reducible exact Frame.refl _ _
    | (with_reducible apply Frame.step (State.setSlot_frame ..) rfl ?_)
    | (with_reducible apply Frame.step (State.ssbErr_frame ..) rfl ?_)
    | (with_reducible apply Frame.ite ?_ ?_)
    | split
    | (dsimp only; split)

theorem svnCommit_frame (s : State) (c : Nat) : Frame (fp.fuses) s (svnCommit s c) := by
  unfold svnCommit
  repeat' first
    | with_reducible exact Frame.refl _ _
    | (with_reducible apply Frame.step (State.burnSvn_frame ..) rfl ?_)
    | (with_reducible apply Frame.ite ?_ ?_)
    | split
    | (dsimp only; split)

theorem roleSwap_frame (s : State) (p : Nat) : Frame (fp.regs + fp.parts + fp.reqs + fp.ports + fp.writes + fp.reads + fp.sent + fp.fresh) s (roleSwap s p) := by
  unfold roleSwap
  repeat' first
    | with_reducible exact Frame.refl _ _
    | (with_reducible apply Frame.step (State.setFlag_frame ..) rfl ?_)
    | (with_reducible apply Frame.step (State.updPart_frame ..) rfl ?_)
    | (with_reducible apply Frame.step (State.free_frame ..) rfl ?_)
    | (with_reducible apply Frame.step (State.postCpl_frame ..) rfl ?_)
    | (with_reducible apply Frame.ite ?_ ?_)
    | split
    | (dsimp only; split)
    | (refine Frame.step (State.free_pair (by assumption)) rfl ?_)

theorem siteUpdateDrain_frame (s : State) (m : Nat) : Frame (fp.regs + fp.sites) s (siteUpdateDrain s m) := by
  unfold siteUpdateDrain
  repeat' first
    | with_reducible exact Frame.refl _ _
    | (with_reducible apply Frame.step (State.updSite_frame ..) rfl ?_)
    | (with_reducible apply Frame.step (State.pmDrained_frame ..) rfl ?_)
    | (with_reducible apply Frame.ite ?_ ?_)
    | split
    | (dsimp only; split)

theorem msfReady_frame (s : State) (m : Nat) : Frame (fp.regs + fp.sites + fp.parts + fp.sent) s (msfReady s m) := by
  unfold msfReady
  repeat' first
    | with_reducible exact Frame.refl _ _
    | (with_reducible apply Frame.step (State.pmRun_frame ..) rfl ?_)
    | (with_reducible apply Frame.step (State.wr_frame ..) rfl ?_)
    | (with_reducible apply Frame.step (State.updSite_frame ..) rfl ?_)
    | (with_reducible apply Frame.ite ?_ ?_)
    | split
    | (dsimp only; split)

theorem State.reserveBlock_frame (s : State) (c b leaf : Nat) : Frame (fp.regs + fp.ssbs + fp.nor + fp.sent) s (State.reserveBlock s c b leaf) := by
  unfold State.reserveBlock
  repeat' first
    | with_reducible exact Frame.refl _ _
    | (with_reducible apply Frame.step (State.setFlag_frame ..) rfl ?_)
    | (with_reducible apply Frame.step (State.updSsb_frame ..) rfl ?_)
    | (with_reducible apply Frame.step (State.durable_frame ..) rfl ?_)
    | (with_reducible apply Frame.step (State.journal_frame ..) rfl ?_)
    | (with_reducible apply Frame.step (State.err_frame ..) rfl ?_)
    | (with_reducible apply Frame.ite ?_ ?_)
    | (with_reducible apply Frame.foldl _ _ ?_ (fun s x => ?_))
    | split
    | (dsimp only; split)
    | (with_reducible apply Frame.step (State.durable_frame ..) rfl ?_)

theorem State.adoptBlock_frame (s : State) (c : Nat) : Frame (fp.ssbs) s (State.adoptBlock s c) := by
  unfold State.adoptBlock
  repeat' first
    | with_reducible exact Frame.refl _ _
    | (with_reducible apply Frame.step (State.durable_frame ..) rfl ?_)
    | (with_reducible apply Frame.step (State.updSsb_frame ..) rfl ?_)
    | split
    | (dsimp only; split)
    | (with_reducible apply Frame.step (State.durable_frame ..) rfl ?_)

theorem State.takeLeaf_frame (s : State) (c : Nat) : Frame (fp.regs + fp.ssbs + fp.nor + fp.sent) s (State.takeLeaf s c).2 := by
  unfold State.takeLeaf
  repeat' first
    | with_reducible exact Frame.refl _ _
    | (with_reducible apply Frame.step (State.adoptBlock_frame ..) rfl ?_)
    | (with_reducible apply Frame.step (State.updSsb_frame ..) rfl ?_)
    | (with_reducible apply Frame.step (State.reserveBlock_frame ..) rfl ?_)
    | (with_reducible apply Frame.step (State.wr_frame ..) rfl ?_)
    | (with_reducible apply Frame.ite ?_ ?_)
    | split
    | (dsimp only; split)

theorem State.takeLeaf_pair {s : State} {c : Nat} {s' : State} {v0 : Option Nat} (hx : State.takeLeaf s c = (v0, s')) : Frame (fp.regs + fp.ssbs + fp.nor + fp.sent) s s' := by
  have := State.takeLeaf_frame s c
  rw [hx] at this; exact this

theorem State.ringDone_frame (s : State) (p : Nat) (c : CmdIn) (event code : Nat) : Frame (fp.regs + fp.parts + fp.reqs + fp.ports + fp.writes + fp.reads + fp.sent + fp.fresh) s (State.ringDone s p c event code) := by
  unfold State.ringDone
  repeat' first
    | with_reducible exact Frame.refl _ _
    | (with_reducible apply Frame.step (State.free_frame ..) rfl ?_)
    | (with_reducible apply Frame.step (State.postCpl_frame ..) rfl ?_)
    | split
    | (dsimp only; split)
    | (refine Frame.step (State.free_pair (by assumption)) rfl ?_)

theorem attest_frame (s : State) (p : Nat) : Frame (fp.regs + fp.parts + fp.reqs + fp.ports + fp.writes + fp.reads + fp.ssbs + fp.nor + fp.sent + fp.fresh) s (attest s p) := by
  unfold attest
  repeat' first
    | with_reducible exact Frame.refl _ _
    | (with_reducible apply Frame.step (State.nackFree_frame ..) rfl ?_)
    | (with_reducible apply Frame.step (State.apertViol_frame ..) rfl ?_)
    | (with_reducible apply Frame.step (State.takeLeaf_frame ..) rfl ?_)
    | (with_reducible apply Frame.step (State.ringDone_frame ..) rfl ?_)
    | (with_reducible apply Frame.step (State.updSsb_frame ..) rfl ?_)
    | (with_reducible apply Frame.step (State.inc_frame ..) rfl ?_)
    | (with_reducible apply Frame.step (State.sendWrite_frame ..) rfl ?_)
    | (with_reducible apply Frame.ite ?_ ?_)
    | split
    | (dsimp only; split)
    | (refine Frame.step (State.takeCmd_frame (by assumption)) rfl ?_)
    | (refine Frame.step (State.takeLeaf_pair (by assumption)) rfl ?_)

theorem State.setKey_frame (s : State) (p slot v : Nat) : Frame (fp.regs + fp.sites) s (State.setKey s p slot v) := by
  unfold State.setKey
  repeat' first
    | with_reducible exact Frame.refl _ _
    | (with_reducible apply Frame.step (State.updSite_frame ..) rfl ?_)
    | (with_reducible apply Frame.step (State.wr_frame ..) rfl ?_)
    | (with_reducible apply Frame.ite ?_ ?_)
    | (with_reducible apply Frame.foldl _ _ ?_ (fun s x => ?_))
    | split
    | (dsimp only; split)

theorem keyLoad_frame (s : State) (p : Nat) (record : List Byte) : Frame (fp.regs + fp.sites + fp.parts + fp.reqs + fp.ports + fp.writes + fp.reads + fp.sent + fp.fresh) s (keyLoad s p record) := by
  unfold keyLoad
  repeat' first
    | with_reducible exact Frame.refl _ _
    | (with_reducible apply Frame.step (State.nackFree_frame ..) rfl ?_)
    | (with_reducible apply Frame.step (State.inc_frame ..) rfl ?_)
    | (with_reducible apply Frame.step (State.wr_frame ..) rfl ?_)
    | (with_reducible apply Frame.step (State.err_frame ..) rfl ?_)
    | (with_reducible apply Frame.step (State.ringDone_frame ..) rfl ?_)
    | (with_reducible apply Frame.step (State.setKey_frame ..) rfl ?_)
    | (with_reducible apply Frame.ite ?_ ?_)
    | split
    | (dsimp only; split)
    | (refine Frame.step (State.takeCmd_frame (by assumption)) rfl ?_)

theorem keyClear_frame (s : State) (p : Nat) : Frame (fp.regs + fp.sites + fp.parts + fp.reqs + fp.ports + fp.writes + fp.reads + fp.sent + fp.fresh) s (keyClear s p) := by
  unfold keyClear
  repeat' first
    | with_reducible exact Frame.refl _ _
    | (with_reducible apply Frame.step (State.nackFree_frame ..) rfl ?_)
    | (with_reducible apply Frame.step (State.wr_frame ..) rfl ?_)
    | (with_reducible apply Frame.step (State.ringDone_frame ..) rfl ?_)
    | (with_reducible apply Frame.step (State.setKey_frame ..) rfl ?_)
    | (with_reducible apply Frame.ite ?_ ?_)
    | split
    | (dsimp only; split)
    | (refine Frame.step (State.takeCmd_frame (by assumption)) rfl ?_)

theorem portConfigRecordWrite_frame (s : State) (bytes : List Byte) : Frame (fp.nor) s (portConfigRecordWrite s bytes) := by
  unfold portConfigRecordWrite
  repeat' first
    | with_reducible exact Frame.refl _ _
    | (with_reducible apply Frame.step (State.updNor_frame ..) rfl ?_)
    | split
    | (dsimp only; split)

end Sys2Proof.Machine
end

