-- ==== Sys2Proof/Laws/FrameLoader.lean ====
section
/-! SUPPORT. Frames of the operations of Machine/Loader.lean. -/

namespace Sys2Proof.Machine

theorem State.writeStatus_frame (s : State) (p addr cookie : Nat) (x : LoadStatus) : Frame (fp.regs + fp.parts + fp.reqs + fp.ports + fp.writes + fp.reads + fp.sent + fp.fresh) s (State.writeStatus s p addr cookie x) := by
  unfold State.writeStatus
  repeat' first
    | with_reducible exact Frame.refl _ _
    | (with_reducible apply Frame.step (State.sendWrite_frame ..) rfl ?_)
    | (with_reducible apply Frame.step (State.apertViol_frame ..) rfl ?_)
    | (with_reducible apply Frame.step (State.free_frame ..) rfl ?_)
    | (with_reducible apply Frame.step (State.updPart_frame ..) rfl ?_)
    | (with_reducible apply Frame.step (State.postCpl_frame ..) rfl ?_)
    | (with_reducible apply Frame.ite ?_ ?_)
    | split
    | (dsimp only; split)
    | (refine Frame.step (State.free_pair (by assumption)) rfl ?_)

theorem State.bulkTables_frame (s : State) (tiles : List Nat) : Frame (fp.tiles) s (State.bulkTables s tiles) := by
  unfold State.bulkTables
  repeat' first
    | with_reducible exact Frame.refl _ _
    | (with_reducible apply Frame.step (State.updTile_frame ..) rfl ?_)
    | (with_reducible apply Frame.foldl _ _ ?_ (fun s x => ?_))
    | split
    | (dsimp only; split)

theorem State.putBulk_frame (s : State) (l : List (Nat × Nat × Nat)) : Frame (fp.tiles) s (State.putBulk s l) := by
  unfold State.putBulk
  repeat' first
    | with_reducible exact Frame.refl _ _
    | (with_reducible apply Frame.step (State.updTile_frame ..) rfl ?_)
    | (with_reducible apply Frame.foldl _ _ ?_ (fun s x => ?_))
    | split
    | (dsimp only; split)

theorem State.clearLoaded_frame (s : State) (p : Nat) : Frame (fp.regs + fp.cores + fp.routers + fp.tiles + fp.crags + fp.sites) s (State.clearLoaded s p) := by
  unfold State.clearLoaded
  repeat' first
    | with_reducible exact Frame.refl _ _
    | (with_reducible apply Frame.step (State.updCore_frame _ _ _ ?_) rfl ?_)
    | (with_reducible apply Frame.step (State.updRouter_frame ..) rfl ?_)
    | (with_reducible apply Frame.step (State.updCrag_frame ..) rfl ?_)
    | (with_reducible apply Frame.step (State.setFlag_frame ..) rfl ?_)
    | (with_reducible apply Frame.step (State.updSite_frame ..) rfl ?_)
    | (with_reducible apply Frame.step (State.bulkTables_frame ..) rfl ?_)
    | (with_reducible apply Frame.foldl _ _ ?_ (fun s x => ?_))
    | split
    | (dsimp only; split)
    | (intro h; (try dsimp only); repeat' (first | with_reducible exact h _ | with_reducible apply Core.memWf_write | with_reducible apply Core.memWf_setByte | exact Core.memWf_of (h _) rfl rfl rfl | exact Core.memWf_of (Core.memWf_write _ _ (h _)) rfl rfl rfl | exact (Core.memWf_iff _).2 ⟨Table.wf_filter 0 _ ((Core.memWf_iff _).1 (h _)).1, ((Core.memWf_iff _).1 (h _)).2⟩ | exact (Core.memWf_iff _).2 ⟨((Core.memWf_iff _).1 (h _)).1, ((Core.memWf_iff _).1 (h _)).2⟩ | split))

theorem State.writeSect_frame (s : State) (x : Placing) (repair : Bool) (y : Sect) : Frame (fp.regs + fp.cores + fp.routers + fp.tiles + fp.crags + fp.sites) s (State.writeSect s x repair y) := by
  unfold State.writeSect
  repeat' first
    | with_reducible exact Frame.refl _ _
    | (with_reducible apply Frame.step (State.memWrite_frame ..) rfl ?_)
    | (with_reducible apply Frame.step (State.updRouter_frame ..) rfl ?_)
    | (with_reducible apply Frame.step (State.updTile_frame ..) rfl ?_)
    | (with_reducible apply Frame.step (State.updChan_frame ..) rfl ?_)
    | (with_reducible apply Frame.step (State.updSite_frame ..) rfl ?_)
    | (with_reducible apply Frame.ite ?_ ?_)
    | (with_reducible apply Frame.foldl _ _ ?_ (fun s x => ?_))
    | split
    | (dsimp only; split)

theorem State.loadCmd_frame (s : State) (p : Nat) (e : Nat × Nat × StagedRun × Nat × Nat) : Frame (fp.parts) s (State.loadCmd s p e).1 := by
  unfold State.loadCmd
  repeat' first
    | with_reducible exact Frame.refl _ _
    | (with_reducible apply Frame.step (State.takeTid_frame ..) rfl ?_)
    | (refine Frame.step (State.takeTid_pair (by assumption)) rfl ?_)
    | (with_reducible apply Frame.ite ?_ ?_)
    | split
    | (dsimp only; split)

theorem State.loadCmd_pair {s : State} {p : Nat} {e : Nat × Nat × StagedRun × Nat × Nat} {s' : State} {v : (Nat × PmCmd × List Byte)} (hx : State.loadCmd s p e = (s', v)) : Frame (fp.parts) s s' := by
  have := State.loadCmd_frame s p e
  rw [hx] at this; exact this

theorem State.loadCmdList_frame (s : State) (p : Nat) (l : List (Nat × Nat × StagedRun × Nat × Nat)) : Frame (fp.parts) s (State.loadCmdList s p l).1 := by
  unfold State.loadCmdList
  repeat' first
    | with_reducible exact Frame.refl _ _
    | (with_reducible apply Frame.step (State.loadCmd_frame ..) rfl ?_)
    | (refine Frame.step (State.loadCmd_pair (by assumption)) rfl ?_)
    | (with_reducible apply Frame.foldl _ _ ?_ (fun s x => ?_))
    | (with_reducible apply Frame.foldlFst _ _ _ ?_ (fun x e => ?_))
    | split
    | (dsimp only; split)

theorem State.loadCmdList_pair {s : State} {p : Nat} {l : List (Nat × Nat × StagedRun × Nat × Nat)} {s' : State} {v : List (Nat × PmCmd × List Byte)} (hx : State.loadCmdList s p l = (s', v)) : Frame (fp.parts) s s' := by
  have := State.loadCmdList_frame s p l
  rw [hx] at this; exact this

theorem State.transientCmds_frame (s : State) (p : Nat) (blob : List Byte) (l : List (Nat × Nat × StagedRun × Nat × Nat)) (r : StagedRun) : Frame (fp.parts) s (State.transientCmds s p blob l r).1 := by
  unfold State.transientCmds
  repeat' first
    | with_reducible exact Frame.refl _ _
    | (with_reducible apply Frame.step (State.takeTid_frame ..) rfl ?_)
    | (refine Frame.step (State.takeTid_pair (by assumption)) rfl ?_)
    | (with_reducible apply Frame.step (State.loadCmdList_frame ..) rfl ?_)
    | (refine Frame.step (State.loadCmdList_pair (by assumption)) rfl ?_)
    | split
    | (dsimp only; split)

theorem State.transientCmds_pair {s : State} {p : Nat} {blob : List Byte} {l : List (Nat × Nat × StagedRun × Nat × Nat)} {r : StagedRun} {s' : State} {v : List (Nat × PmCmd × List Byte)} (hx : State.transientCmds s p blob l r = (s', v)) : Frame (fp.parts) s s' := by
  have := State.transientCmds_frame s p blob l r
  rw [hx] at this; exact this

theorem State.loadCmds_frame (s : State) (p : Nat) (d : LoadData) (im : Image) (x : Placing) (l : List Sect) : Frame (fp.parts) s (State.loadCmds s p d im x l).1 := by
  unfold State.loadCmds
  repeat' first
    | with_reducible exact Frame.refl _ _
    | (with_reducible apply Frame.step (State.loadCmdList_frame ..) rfl ?_)
    | (refine Frame.step (State.loadCmdList_pair (by assumption)) rfl ?_)
    | (with_reducible apply Frame.step (State.transientCmds_frame ..) rfl ?_)
    | (refine Frame.step (State.transientCmds_pair (by assumption)) rfl ?_)
    | (with_reducible apply Frame.foldl _ _ ?_ (fun s x => ?_))
    | (with_reducible apply Frame.foldlFst _ _ _ ?_ (fun x e => ?_))
    | (with_reducible apply Frame.ite ?_ ?_)
    | split
    | (dsimp only; split)

theorem State.loadCmds_pair {s : State} {p : Nat} {d : LoadData} {im : Image} {x : Placing} {l : List Sect} {s' : State} {v : List (Nat × PmCmd × List Byte)} (hx : State.loadCmds s p d im x l = (s', v)) : Frame (fp.parts) s s' := by
  have := State.loadCmds_frame s p d im x l
  rw [hx] at this; exact this

theorem pumpList_frame (s : State) (l : List (Nat × PmCmd × List Byte)) : Frame (fp.regs + fp.sites + fp.parts + fp.sent) s (pumpList s l).1 := by
  induction l generalizing s with
  | nil => exact Frame.refl _ _
  | cons e l ih =>
    obtain ⟨m, c, bs⟩ := e
    unfold pumpList
    split
    · split
      · exact Frame.refl _ _
      · exact Frame.step (ih _) rfl (Frame.step (State.updSite_frame ..) rfl (Frame.refl _ _))
    · split
      · exact Frame.refl _ _
      · exact Frame.step (ih _) rfl (Frame.step (State.pmSend_frame ..) rfl (Frame.refl _ _))

theorem State.pumpLoad_frame (s : State) (p : Nat) : Frame (fp.regs + fp.sites + fp.parts + fp.sent) s (State.pumpLoad s p) := by
  unfold State.pumpLoad
  repeat' first
    | with_reducible exact Frame.refl _ _
    | (with_reducible apply Frame.step (pumpList_frame ..) rfl ?_)
    | (with_reducible apply Frame.step (State.updPart_frame ..) rfl ?_)
    | (with_reducible apply Frame.ite ?_ ?_)
    | split
    | (dsimp only; split)
    | (with_reducible apply Frame.step (pumpList_frame ..) rfl ?_)

theorem State.writeBinds_frame (s : State) (p : Nat) (bases : List Nat) (l : List Sect) : Frame (fp.cores) s (State.writeBinds s p bases l) := by
  unfold State.writeBinds
  repeat' first
    | with_reducible exact Frame.refl _ _
    | (with_reducible apply Frame.step (State.updCore_frame _ _ _ ?_) rfl ?_)
    | (with_reducible apply Frame.foldl _ _ ?_ (fun s x => ?_))
    | (with_reducible apply Frame.ite ?_ ?_)
    | split
    | (dsimp only; split)
    | (intro h; (try dsimp only); repeat' (first | with_reducible exact h _ | with_reducible apply Core.memWf_write | with_reducible apply Core.memWf_setByte | exact Core.memWf_of (h _) rfl rfl rfl | exact Core.memWf_of (Core.memWf_write _ _ (h _)) rfl rfl rfl | exact (Core.memWf_iff _).2 ⟨Table.wf_filter 0 _ ((Core.memWf_iff _).1 (h _)).1, ((Core.memWf_iff _).1 (h _)).2⟩ | exact (Core.memWf_iff _).2 ⟨((Core.memWf_iff _).1 (h _)).1, ((Core.memWf_iff _).1 (h _)).2⟩ | split))

theorem State.copyBanks_frame (s : State) (p : Nat) (x : Placing) (l : List Sect) : Frame (fp.routers) s (State.copyBanks s p x l) := by
  unfold State.copyBanks
  repeat' first
    | with_reducible exact Frame.refl _ _
    | (with_reducible apply Frame.step (State.updRouter_frame ..) rfl ?_)
    | (with_reducible apply Frame.ite ?_ ?_)
    | (with_reducible apply Frame.foldl _ _ ?_ (fun s x => ?_))
    | split
    | (dsimp only; split)

theorem State.startCopy_frame (s : State) (p : Nat) (m : Move) (b n : Nat) : Frame (fp.routers + fp.parts) s (State.startCopy s p m b n) := by
  unfold State.startCopy
  repeat' first
    | with_reducible exact Frame.refl _ _
    | (with_reducible apply Frame.step (State.addXfer_frame ..) rfl ?_)
    | (with_reducible apply Frame.step (State.takeTid_frame ..) rfl ?_)
    | (refine Frame.step (State.takeTid_pair (by assumption)) rfl ?_)
    | (with_reducible apply Frame.step (State.updRouter_frame ..) rfl ?_)
    | (with_reducible apply Frame.step (State.updPart_frame ..) rfl ?_)
    | split
    | (dsimp only; split)

theorem State.startCopies_frame (s : State) (p : Nat) (moves : List Move) (want : Move → Nat → Bool) : Frame (fp.routers + fp.parts) s (State.startCopies s p moves want) := by
  unfold State.startCopies
  repeat' first
    | with_reducible exact Frame.refl _ _
    | (with_reducible apply Frame.step (State.startCopy_frame ..) rfl ?_)
    | (with_reducible apply Frame.foldl _ _ ?_ (fun s x => ?_))
    | split
    | (dsimp only; split)

theorem State.endRound_frame (s : State) (p : Nat) (j : LoadJob) : Frame (fp.parts) s (State.endRound s p j) := by
  unfold State.endRound
  repeat' first
    | with_reducible exact Frame.refl _ _
    | (with_reducible apply Frame.step (State.updPart_frame ..) rfl ?_)
    | split
    | (dsimp only; split)

theorem State.beginRepair_frame (s : State) (p : Nat) (im : Image) (x : Placing) (l : List Sect) (j : LoadJob) : Frame (fp.regs + fp.cores + fp.routers + fp.tiles + fp.crags + fp.sites + fp.parts) s (State.beginRepair s p im x l j) := by
  unfold State.beginRepair
  repeat' first
    | with_reducible exact Frame.refl _ _
    | (with_reducible apply Frame.step (State.setFlag_frame ..) rfl ?_)
    | (with_reducible apply Frame.step (State.wr_frame ..) rfl ?_)
    | (with_reducible apply Frame.step (State.updPart_frame ..) rfl ?_)
    | (with_reducible apply Frame.step (State.updCore_frame _ _ _ ?_) rfl ?_)
    | (with_reducible apply Frame.step (State.writeSect_frame ..) rfl ?_)
    | (with_reducible apply Frame.step (State.copyBanks_frame ..) rfl ?_)
    | (with_reducible apply Frame.step (State.startCopies_frame ..) rfl ?_)
    | (with_reducible apply Frame.foldl _ _ ?_ (fun s x => ?_))
    | split
    | (dsimp only; split)
    | (intro h; (try dsimp only); repeat' (first | with_reducible exact h _ | with_reducible apply Core.memWf_write | with_reducible apply Core.memWf_setByte | exact Core.memWf_of (h _) rfl rfl rfl | exact Core.memWf_of (Core.memWf_write _ _ (h _)) rfl rfl rfl | exact (Core.memWf_iff _).2 ⟨Table.wf_filter 0 _ ((Core.memWf_iff _).1 (h _)).1, ((Core.memWf_iff _).1 (h _)).2⟩ | exact (Core.memWf_iff _).2 ⟨((Core.memWf_iff _).1 (h _)).1, ((Core.memWf_iff _).1 (h _)).2⟩ | split))

theorem State.loadRefuse_frame (s : State) (p : Nat) (d : LoadData) (c : CmdIn) (st : Nat) (e : LoadErr) : Frame (fp.regs + fp.parts + fp.reqs + fp.ports + fp.writes + fp.reads + fp.sent + fp.fresh) s (State.loadRefuse s p d c st e) := by
  unfold State.loadRefuse
  repeat' first
    | with_reducible exact Frame.refl _ _
    | (with_reducible apply Frame.step (State.free_frame ..) rfl ?_)
    | (refine Frame.step (State.free_pair (by assumption)) rfl ?_)
    | (with_reducible apply Frame.step (State.writeStatus_frame ..) rfl ?_)
    | split
    | (dsimp only; split)

theorem State.startRepair_frame (s : State) (p : Nat) (im : Image) (j : LoadJob) (x : Placing) (l : List Sect) (bases : List (Nat × List Nat)) : Frame (fp.regs + fp.cores + fp.routers + fp.tiles + fp.crags + fp.sites + fp.parts) s (State.startRepair s p im j x l bases) := by
  unfold State.startRepair
  repeat' first
    | with_reducible exact Frame.refl _ _
    | (with_reducible apply Frame.step (State.beginRepair_frame ..) rfl ?_)
    | split
    | (dsimp only; split)

theorem State.noteStaged_frame (s : State) (p : Nat) (d : LoadData) (im : Image) : Frame (fp.parts) s (State.noteStaged s p d im) := by
  unfold State.noteStaged
  repeat' first
    | with_reducible exact Frame.refl _ _
    | (with_reducible apply Frame.step (State.updPart_frame ..) rfl ?_)
    | (with_reducible apply Frame.ite ?_ ?_)
    | split
    | (dsimp only; split)

theorem State.startLoad_frame (s : State) (p : Nat) (d : LoadData) (im : Image) (j : LoadJob) (x : Placing) (l : List Sect) (bases : List Nat) : Frame (fp.regs + fp.cores + fp.routers + fp.tiles + fp.crags + fp.sites + fp.parts + fp.sent) s (State.startLoad s p d im j x l bases) := by
  unfold State.startLoad
  repeat' first
    | with_reducible exact Frame.refl _ _
    | (with_reducible apply Frame.step (State.updPart_frame ..) rfl ?_)
    | (with_reducible apply Frame.step (State.putBulk_frame ..) rfl ?_)
    | (with_reducible apply Frame.step (State.clearLoaded_frame ..) rfl ?_)
    | (with_reducible apply Frame.step (State.writeSect_frame ..) rfl ?_)
    | (with_reducible apply Frame.step (State.loadCmds_frame ..) rfl ?_)
    | (refine Frame.step (State.loadCmds_pair (by assumption)) rfl ?_)
    | (with_reducible apply Frame.step (State.pumpLoad_frame ..) rfl ?_)
    | (with_reducible apply Frame.step (State.writeBinds_frame ..) rfl ?_)
    | (with_reducible apply Frame.step (State.noteStaged_frame ..) rfl ?_)
    | (with_reducible apply Frame.foldl _ _ ?_ (fun s x => ?_))
    | (with_reducible apply Frame.ite ?_ ?_)
    | split
    | (dsimp only; split)

theorem State.carryOut_frame (s : State) (p : Nat) (d : LoadData) (c : CmdIn) (x : Placing) (l : List Sect) (meas : Nat) (changed : Bool) : Frame (fp.regs + fp.cores + fp.routers + fp.tiles + fp.crags + fp.sites + fp.parts + fp.sent) s (State.carryOut s p d c x l meas changed) := by
  unfold State.carryOut
  repeat' first
    | with_reducible exact Frame.refl _ _
    | (with_reducible apply Frame.step (State.startRepair_frame ..) rfl ?_)
    | (with_reducible apply Frame.step (State.startLoad_frame ..) rfl ?_)
    | (with_reducible apply Frame.ite ?_ ?_)
    | split
    | (dsimp only; split)

theorem loadImage_frame (s : State) (p : Nat) (d : LoadData) : Frame (fp.regs + fp.cores + fp.routers + fp.tiles + fp.crags + fp.sites + fp.parts + fp.reqs + fp.ports + fp.writes + fp.reads + fp.sent + fp.fresh) s (loadImage s p d) := by
  unfold loadImage
  repeat' first
    | with_reducible exact Frame.refl _ _
    | (with_reducible apply Frame.step (State.nackFree_frame ..) rfl ?_)
    | (with_reducible apply Frame.step (State.apertViol_frame ..) rfl ?_)
    | (with_reducible apply Frame.step (State.loadRefuse_frame ..) rfl ?_)
    | (with_reducible apply Frame.step (State.carryOut_frame ..) rfl ?_)
    | (with_reducible apply Frame.ite ?_ ?_)
    | split
    | (dsimp only; split)
    | (refine Frame.step (State.takeCmd_frame (by assumption)) rfl ?_)

theorem State.standFor_frame (s : State) (g id : Nat) : Frame (fp.regs) s (State.standFor s g id) := by
  unfold State.standFor
  repeat' first
    | with_reducible exact Frame.refl _ _
    | (with_reducible apply Frame.step (State.setFlag_frame ..) rfl ?_)
    | (with_reducible apply Frame.step (State.wr_frame ..) rfl ?_)
    | (with_reducible apply Frame.ite ?_ ?_)
    | split
    | (dsimp only; split)

theorem State.writeIdentity_frame (s : State) (p : Nat) (im : Loaded) : Frame (fp.regs) s (State.writeIdentity s p im) := by
  unfold State.writeIdentity
  repeat' first
    | with_reducible exact Frame.refl _ _
    | (with_reducible apply Frame.step (State.wr_frame ..) rfl ?_)
    | (with_reducible apply Frame.step (State.standFor_frame ..) rfl ?_)
    | (with_reducible apply Frame.foldl _ _ ?_ (fun s x => ?_))
    | (with_reducible apply Frame.ite ?_ ?_)
    | split
    | (dsimp only; split)

theorem State.stopTransfers_frame (s : State) (p : Nat) (l : List Nat) : Frame (fp.regs + fp.routers + fp.links + fp.sites) s (State.stopTransfers s p l) := by
  unfold State.stopTransfers
  repeat' first
    | with_reducible exact Frame.refl _ _
    | (with_reducible apply Frame.step (State.wr_frame ..) rfl ?_)
    | (with_reducible apply Frame.step (State.updRouter_frame ..) rfl ?_)
    | (with_reducible apply Frame.step (State.updSite_frame ..) rfl ?_)
    | (with_reducible apply Frame.step (State.setLinks_frame ..) rfl ?_)
    | (with_reducible apply Frame.foldl _ _ ?_ (fun s x => ?_))
    | split
    | (dsimp only; split)

theorem State.closeLoad_frame (s : State) (p : Nat) (j : LoadJob) (st code : Nat) : Frame (fp.regs + fp.parts + fp.reqs + fp.ports + fp.writes + fp.reads + fp.sent + fp.fresh) s (State.closeLoad s p j st code) := by
  unfold State.closeLoad
  repeat' first
    | with_reducible exact Frame.refl _ _
    | (with_reducible apply Frame.step (State.updPart_frame ..) rfl ?_)
    | (with_reducible apply Frame.step (State.writeStatus_frame ..) rfl ?_)
    | split
    | (dsimp only; split)

theorem State.dropRepair_frame (s : State) (p : Nat) (j : LoadJob) : Frame (fp.regs + fp.cores + fp.routers + fp.crags) s (State.dropRepair s p j) := by
  unfold State.dropRepair
  repeat' first
    | with_reducible exact Frame.refl _ _
    | (with_reducible apply Frame.step (State.setFlag_frame ..) rfl ?_)
    | (with_reducible apply Frame.step (State.memWrite_frame ..) rfl ?_)
    | (with_reducible apply Frame.step (State.updRouter_frame ..) rfl ?_)
    | (with_reducible apply Frame.step (State.updCore_frame _ _ _ ?_) rfl ?_)
    | (with_reducible apply Frame.foldl _ _ ?_ (fun s x => ?_))
    | split
    | (dsimp only; split)
    | (intro h; (try dsimp only); repeat' (first | with_reducible exact h _ | with_reducible apply Core.memWf_write | with_reducible apply Core.memWf_setByte | exact Core.memWf_of (h _) rfl rfl rfl | exact Core.memWf_of (Core.memWf_write _ _ (h _)) rfl rfl rfl | exact (Core.memWf_iff _).2 ⟨Table.wf_filter 0 _ ((Core.memWf_iff _).1 (h _)).1, ((Core.memWf_iff _).1 (h _)).2⟩ | exact (Core.memWf_iff _).2 ⟨((Core.memWf_iff _).1 (h _)).1, ((Core.memWf_iff _).1 (h _)).2⟩ | split))

theorem State.putEnt_frame (s : State) (p : Nat) (e : Nat × Nat × Nat) : Frame (fp.regs + fp.sites + fp.parts) s (State.putEnt s p e) := by
  unfold State.putEnt
  repeat' first
    | with_reducible exact Frame.refl _ _
    | (with_reducible apply Frame.step (State.enterRegion_frame ..) rfl ?_)
    | (with_reducible apply Frame.step (State.updSite_frame ..) rfl ?_)
    | (with_reducible apply Frame.ite ?_ ?_)
    | split
    | (dsimp only; split)

theorem State.finishLoad_frame (s : State) (p : Nat) (j : LoadJob) : Frame (fp.regs + fp.cores + fp.sites + fp.parts + fp.sent + fp.fresh) s (State.finishLoad s p j) := by
  unfold State.finishLoad
  repeat' first
    | with_reducible exact Frame.refl _ _
    | (with_reducible apply Frame.step (State.setCompute_frame ..) rfl ?_)
    | (with_reducible apply Frame.step (State.wr_frame ..) rfl ?_)
    | (with_reducible apply Frame.step (State.updPart_frame ..) rfl ?_)
    | (with_reducible apply Frame.step (State.writeIdentity_frame ..) rfl ?_)
    | (with_reducible apply Frame.step (State.putEnt_frame ..) rfl ?_)
    | (with_reducible apply Frame.step (period_frame ..) rfl ?_)
    | (with_reducible apply Frame.foldl _ _ ?_ (fun s x => ?_))
    | (with_reducible apply Frame.ite ?_ ?_)
    | split
    | (dsimp only; split)

theorem loadEnd_frame (s : State) (p : Nat) : Frame (fp.regs + fp.cores + fp.routers + fp.links + fp.tiles + fp.crags + fp.sites + fp.parts + fp.reqs + fp.ports + fp.writes + fp.reads + fp.sent + fp.fresh) s (loadEnd s p) := by
  unfold loadEnd
  repeat' first
    | with_reducible exact Frame.refl _ _
    | (with_reducible apply Frame.step (State.clearLoaded_frame ..) rfl ?_)
    | (with_reducible apply Frame.step (State.pumpLoad_frame ..) rfl ?_)
    | (with_reducible apply Frame.step (State.stopTransfers_frame ..) rfl ?_)
    | (with_reducible apply Frame.step (State.closeLoad_frame ..) rfl ?_)
    | (with_reducible apply Frame.step (State.dropRepair_frame ..) rfl ?_)
    | (with_reducible apply Frame.step (State.finishLoad_frame ..) rfl ?_)
    | (with_reducible apply Frame.ite ?_ ?_)
    | split
    | (dsimp only; split)

theorem migrationRound_frame (s : State) (p : Nat) : Frame (fp.routers + fp.parts) s (migrationRound s p) := by
  unfold migrationRound
  repeat' first
    | with_reducible exact Frame.refl _ _
    | (with_reducible apply Frame.step (State.abortLoad_frame ..) rfl ?_)
    | (with_reducible apply Frame.step (State.updPart_frame ..) rfl ?_)
    | (with_reducible apply Frame.step (State.startCopies_frame ..) rfl ?_)
    | (with_reducible apply Frame.step (State.endRound_frame ..) rfl ?_)
    | (with_reducible apply Frame.ite ?_ ?_)
    | split
    | (dsimp only; split)

theorem State.moveIdentity_frame (s : State) (moves : List Move) (src dst : Nat) : Frame (fp.regs + fp.cores) s (State.moveIdentity s moves src dst) := by
  unfold State.moveIdentity
  repeat' first
    | with_reducible exact Frame.refl _ _
    | (with_reducible apply Frame.step (State.updCore_frame _ _ _ ?_) rfl ?_)
    | (with_reducible apply Frame.step (State.wr_frame ..) rfl ?_)
    | (with_reducible apply Frame.step (State.setFlag_frame ..) rfl ?_)
    | (with_reducible apply Frame.ite ?_ ?_)
    | split
    | (dsimp only; split)
    | (intro h; (try dsimp only); repeat' (first | with_reducible exact h _ | with_reducible apply Core.memWf_write | with_reducible apply Core.memWf_setByte | exact Core.memWf_of (h _) rfl rfl rfl | exact Core.memWf_of (Core.memWf_write _ _ (h _)) rfl rfl rfl | exact (Core.memWf_iff _).2 ⟨Table.wf_filter 0 _ ((Core.memWf_iff _).1 (h _)).1, ((Core.memWf_iff _).1 (h _)).2⟩ | exact (Core.memWf_iff _).2 ⟨((Core.memWf_iff _).1 (h _)).1, ((Core.memWf_iff _).1 (h _)).2⟩ | split))

theorem State.freeSaddles_frame (s : State) (p : Nat) : Frame (fp.regs + fp.saddles) s (State.freeSaddles s p) := by
  unfold State.freeSaddles
  repeat' first
    | with_reducible exact Frame.refl _ _
    | (with_reducible apply Frame.step (State.wr_frame ..) rfl ?_)
    | (with_reducible apply Frame.step (State.updSaddle_frame ..) rfl ?_)
    | (with_reducible apply Frame.foldl _ _ ?_ (fun s x => ?_))
    | (with_reducible apply Frame.ite ?_ ?_)
    | split
    | (dsimp only; split)

theorem repairCut_frame (s : State) (p : Nat) : Frame (fp.regs + fp.cores + fp.routers + fp.tiles + fp.saddles + fp.parts) s (repairCut s p) := by
  unfold repairCut
  repeat' first
    | with_reducible exact Frame.refl _ _
    | (with_reducible apply Frame.step (State.setFlag_frame ..) rfl ?_)
    | (with_reducible apply Frame.step (State.wr_frame ..) rfl ?_)
    | (with_reducible apply Frame.step (State.updRouter_frame ..) rfl ?_)
    | (with_reducible apply Frame.step (State.updPart_frame ..) rfl ?_)
    | (with_reducible apply Frame.step (State.updCore_frame _ _ _ ?_) rfl ?_)
    | (with_reducible apply Frame.step (State.putBulk_frame ..) rfl ?_)
    | (with_reducible apply Frame.step (State.startCopies_frame ..) rfl ?_)
    | (with_reducible apply Frame.step (State.endRound_frame ..) rfl ?_)
    | (with_reducible apply Frame.step (State.moveIdentity_frame ..) rfl ?_)
    | (with_reducible apply Frame.step (State.freeSaddles_frame ..) rfl ?_)
    | (with_reducible apply Frame.foldl _ _ ?_ (fun s x => ?_))
    | (with_reducible apply Frame.ite ?_ ?_)
    | split
    | (dsimp only; split)
    | (intro h; (try dsimp only); repeat' (first | with_reducible exact h _ | with_reducible apply Core.memWf_write | with_reducible apply Core.memWf_setByte | exact Core.memWf_of (h _) rfl rfl rfl | exact Core.memWf_of (Core.memWf_write _ _ (h _)) rfl rfl rfl | exact (Core.memWf_iff _).2 ⟨Table.wf_filter 0 _ ((Core.memWf_iff _).1 (h _)).1, ((Core.memWf_iff _).1 (h _)).2⟩ | exact (Core.memWf_iff _).2 ⟨((Core.memWf_iff _).1 (h _)).1, ((Core.memWf_iff _).1 (h _)).2⟩ | split))

theorem spareClear_frame (s : State) (y : Nat) : Frame (fp.regs + fp.cores + fp.crags) s (spareClear s y) := by
  unfold spareClear
  repeat' first
    | with_reducible exact Frame.refl _ _
    | (with_reducible apply Frame.step (State.memWrite_frame ..) rfl ?_)
    | (with_reducible apply Frame.step (State.setFlag_frame ..) rfl ?_)
    | (with_reducible apply Frame.ite ?_ ?_)
    | (with_reducible apply Frame.foldl _ _ ?_ (fun s x => ?_))
    | split
    | (dsimp only; split)

end Sys2Proof.Machine
end

