-- ==== Sys2Proof/Laws/FramePartition.lean ====
section
/-! SUPPORT. Frames of the operations of Machine/Partition.lean. -/

namespace Sys2Proof.Machine

theorem State.assign_frame (s : State) (p : Nat) (t : Nat) : Frame (fp.regs + fp.sites) s (State.assign s p t) := by
  unfold State.assign
  repeat' first
    | with_reducible exact Frame.refl _ _
    | (with_reducible apply Frame.step (State.wr_frame ..) rfl ?_)
    | (with_reducible apply Frame.step (State.updSite_frame ..) rfl ?_)
    | (with_reducible apply Frame.ite ?_ ?_)
    | split
    | (dsimp only; split)

theorem State.fenceSaddles_frame (s : State) (t : Nat) : Frame (fp.regs) s (State.fenceSaddles s t) := by
  unfold State.fenceSaddles
  repeat' first
    | with_reducible exact Frame.refl _ _
    | (with_reducible apply Frame.step (State.setFlag_frame ..) rfl ?_)
    | (with_reducible apply Frame.foldl _ _ ?_ (fun s x => ?_))
    | split
    | (dsimp only; split)

theorem create_frame (s : State) (p : Nat) : Frame (fp.regs + fp.tiles + fp.sites + fp.parts) s (create s p) := by
  unfold create
  repeat' first
    | with_reducible exact Frame.refl _ _
    | (with_reducible apply Frame.step (State.wr_frame ..) rfl ?_)
    | (with_reducible apply Frame.step (State.assign_frame ..) rfl ?_)
    | (with_reducible apply Frame.step (State.fenceSaddles_frame ..) rfl ?_)
    | (with_reducible apply Frame.step (State.updPart_frame ..) rfl ?_)
    | (with_reducible apply Frame.step (State.bulkTables_frame ..) rfl ?_)
    | (with_reducible apply Frame.step (State.setFlag_frame ..) rfl ?_)
    | (with_reducible apply Frame.ite ?_ ?_)
    | (with_reducible apply Frame.foldl _ _ ?_ (fun s x => ?_))
    | split
    | (dsimp only; split)

theorem State.startFields_frame (s : State) (p : Nat) : Frame (fp.regs) s (State.startFields s p) := by
  unfold State.startFields
  repeat' first
    | with_reducible exact Frame.refl _ _
    | (with_reducible apply Frame.step (State.clrAll_frame ..) rfl ?_)
    | (with_reducible apply Frame.step (State.clr_frame ..) rfl ?_)
    | (with_reducible apply Frame.foldl _ _ ?_ (fun s x => ?_))
    | split
    | (dsimp only; split)

theorem State.startPart_frame (s : State) (p : Nat) : Frame (fp.regs + fp.parts + fp.sent) s (State.startPart s p) := by
  unfold State.startPart
  repeat' first
    | with_reducible exact Frame.refl _ _
    | (with_reducible apply Frame.step (State.setFlag_frame ..) rfl ?_)
    | (with_reducible apply Frame.step (State.wr_frame ..) rfl ?_)
    | (with_reducible apply Frame.step (State.startFields_frame ..) rfl ?_)
    | (with_reducible apply Frame.step (State.updPart_frame ..) rfl ?_)
    | (with_reducible apply Frame.step (State.err_frame ..) rfl ?_)
    | (with_reducible apply Frame.ite ?_ ?_)
    | split
    | (dsimp only; split)

theorem State.startDead_frame (s : State) (p g : Nat) : Frame (fp.regs + fp.cores + fp.parts + fp.nor + fp.faultMap + fp.faultGen + fp.faultLog + fp.faultSeq + fp.sent + fp.fresh) s (State.startDead s p g) := by
  unfold State.startDead
  repeat' first
    | with_reducible exact Frame.refl _ _
    | (with_reducible apply Frame.step (State.showDead_frame ..) rfl ?_)
    | (with_reducible apply Frame.step (State.record_frame ..) rfl ?_)
    | (with_reducible apply Frame.step (State.standIn_frame ..) rfl ?_)
    | (with_reducible apply Frame.step (State.updCore_frame _ _ _ ?_) rfl ?_)
    | split
    | (dsimp only; split)
    | (intro h; (try dsimp only); repeat' (first | with_reducible exact h _ | with_reducible apply Core.memWf_write | with_reducible apply Core.memWf_setByte | exact Core.memWf_of (h _) rfl rfl rfl | exact Core.memWf_of (Core.memWf_write _ _ (h _)) rfl rfl rfl | exact (Core.memWf_iff _).2 ⟨Table.wf_filter 0 _ ((Core.memWf_iff _).1 (h _)).1, ((Core.memWf_iff _).1 (h _)).2⟩ | exact (Core.memWf_iff _).2 ⟨((Core.memWf_iff _).1 (h _)).1, ((Core.memWf_iff _).1 (h _)).2⟩ | split))

theorem State.startColumn_frame (s : State) (e : Nat × Nat × Nat) : Frame (fp.regs + fp.parts + fp.nor + fp.faultMap + fp.faultGen + fp.faultLog + fp.faultSeq + fp.sent + fp.fresh) s (State.startColumn s e) := by
  unfold State.startColumn
  repeat' first
    | with_reducible exact Frame.refl _ _
    | (with_reducible apply Frame.step (State.record_frame ..) rfl ?_)
    | split
    | (dsimp only; split)

theorem State.startFinding_frame (s : State) (g : Nat) : Frame (fp.regs + fp.cores + fp.parts + fp.nor + fp.faultMap + fp.faultGen + fp.faultLog + fp.faultSeq + fp.sent + fp.fresh) s (State.startFinding s g) := by
  unfold State.startFinding
  repeat' first
    | with_reducible exact Frame.refl _ _
    | (with_reducible apply Frame.step (State.showDead_frame ..) rfl ?_)
    | (with_reducible apply Frame.step (State.record_frame ..) rfl ?_)
    | (with_reducible apply Frame.step (State.updCore_frame _ _ _ ?_) rfl ?_)
    | split
    | (dsimp only; split)
    | (intro h; (try dsimp only); repeat' (first | with_reducible exact h _ | with_reducible apply Core.memWf_write | with_reducible apply Core.memWf_setByte | exact Core.memWf_of (h _) rfl rfl rfl | exact Core.memWf_of (Core.memWf_write _ _ (h _)) rfl rfl rfl | exact (Core.memWf_iff _).2 ⟨Table.wf_filter 0 _ ((Core.memWf_iff _).1 (h _)).1, ((Core.memWf_iff _).1 (h _)).2⟩ | exact (Core.memWf_iff _).2 ⟨((Core.memWf_iff _).1 (h _)).1, ((Core.memWf_iff _).1 (h _)).2⟩ | split))

theorem partitionStartDone_frame (s : State) (p : Nat) (f : StartFindings) : Frame (fp.regs + fp.cores + fp.routers + fp.crags + fp.sites + fp.parts + fp.reqs + fp.rmbs + fp.ports + fp.writes + fp.reads + fp.nor + fp.faultMap + fp.faultGen + fp.faultLog + fp.faultSeq + fp.sent + fp.fresh) s (partitionStartDone s p f) := by
  unfold partitionStartDone
  repeat' first
    | with_reducible exact Frame.refl _ _
    | (with_reducible apply Frame.step (State.prime_frame ..) rfl ?_)
    | (with_reducible apply Frame.step (State.err_frame ..) rfl ?_)
    | (with_reducible apply Frame.step (State.openTick_frame ..) rfl ?_)
    | (with_reducible apply Frame.step (State.startDead_frame ..) rfl ?_)
    | (with_reducible apply Frame.step (State.startColumn_frame ..) rfl ?_)
    | (with_reducible apply Frame.step (State.startFinding_frame ..) rfl ?_)
    | (with_reducible apply Frame.step (State.wr_frame ..) rfl ?_)
    | (with_reducible apply Frame.foldl _ _ ?_ (fun s x => ?_))
    | (with_reducible apply Frame.ite ?_ ?_)
    | split
    | (dsimp only; split)

theorem State.refuseQueued_frame (s : State) (p : Nat) : Frame (fp.regs + fp.parts + fp.reqs + fp.ports + fp.writes + fp.reads + fp.sent) s (State.refuseQueued s p) := by
  unfold State.refuseQueued
  repeat' first
    | with_reducible exact Frame.refl _ _
    | (with_reducible apply Frame.step (State.updReq_frame ..) rfl ?_)
    | (with_reducible apply Frame.step (State.countReject_frame ..) rfl ?_)
    | (with_reducible apply Frame.step (State.postCpl_frame ..) rfl ?_)
    | (with_reducible apply Frame.foldl _ _ ?_ (fun s x => ?_))
    | split
    | (dsimp only; split)

theorem State.stopPart_frame (s : State) (p : Nat) : Frame (fp.regs + fp.cores + fp.routers + fp.links + fp.tiles + fp.crags + fp.sites + fp.parts + fp.reqs + fp.ports + fp.writes + fp.reads + fp.sent) s (State.stopPart s p) := by
  unfold State.stopPart
  repeat' first
    | with_reducible exact Frame.refl _ _
    | (with_reducible apply Frame.step (State.draftDown_frame ..) rfl ?_)
    | (with_reducible apply Frame.step (State.abandonWork_frame ..) rfl ?_)
    | (with_reducible apply Frame.step (State.startPart_frame ..) rfl ?_)
    | (with_reducible apply Frame.step (State.finish_frame ..) rfl ?_)
    | (with_reducible apply Frame.step (State.wr_frame ..) rfl ?_)
    | (with_reducible apply Frame.step (State.updPart_frame ..) rfl ?_)
    | (with_reducible apply Frame.foldl _ _ ?_ (fun s x => ?_))
    | (with_reducible apply Frame.ite ?_ ?_)
    | split
    | (dsimp only; split)

theorem drainDone_frame (s : State) (p : Nat) : Frame (fp.regs + fp.cores + fp.routers + fp.links + fp.tiles + fp.crags + fp.sites + fp.parts + fp.reqs + fp.ports + fp.writes + fp.reads + fp.sent) s (drainDone s p) := by
  unfold drainDone
  repeat' first
    | with_reducible exact Frame.refl _ _
    | (with_reducible apply Frame.step (State.stopPart_frame ..) rfl ?_)
    | (with_reducible apply Frame.ite ?_ ?_)
    | split
    | (dsimp only; split)

theorem State.enPart_frame (s : State) (p : Nat) (v : Bool) : Frame (fp.regs + fp.parts + fp.reqs + fp.ports + fp.writes + fp.reads + fp.sent) s (State.enPart s p v) := by
  unfold State.enPart
  repeat' first
    | with_reducible exact Frame.refl _ _
    | (with_reducible apply Frame.step (State.setFlag_frame ..) rfl ?_)
    | (with_reducible apply Frame.step (State.startPart_frame ..) rfl ?_)
    | (with_reducible apply Frame.step (State.updPart_frame ..) rfl ?_)
    | (with_reducible apply Frame.step (State.wr_frame ..) rfl ?_)
    | (with_reducible apply Frame.step (State.refuseQueued_frame ..) rfl ?_)
    | (with_reducible apply Frame.ite ?_ ?_)
    | split
    | (dsimp only; split)

theorem State.enSite_frame (s : State) (m : Nat) (v : Bool) : Frame (fp.regs + fp.sites) s (State.enSite s m v) := by
  unfold State.enSite
  repeat' first
    | with_reducible exact Frame.refl _ _
    | (with_reducible apply Frame.step (State.setFlag_frame ..) rfl ?_)
    | (with_reducible apply Frame.step (State.wr_frame ..) rfl ?_)
    | (with_reducible apply Frame.step (State.updSite_frame ..) rfl ?_)
    | (with_reducible apply Frame.step (State.pmDrained_frame ..) rfl ?_)
    | split
    | (dsimp only; split)

theorem State.enRmb_frame (s : State) (pg : Page) (v : Bool) : Frame (fp.regs + fp.rmbs) s (State.enRmb s pg v) := by
  unfold State.enRmb
  repeat' first
    | with_reducible exact Frame.refl _ _
    | (with_reducible apply Frame.step (State.setFlag_frame ..) rfl ?_)
    | (with_reducible apply Frame.step (State.wr_frame ..) rfl ?_)
    | (with_reducible apply Frame.step (State.rmbOff_frame ..) rfl ?_)
    | (with_reducible apply Frame.ite ?_ ?_)
    | split
    | (dsimp only; split)

theorem en_frame (s : State) (pg : Page) (v : Bool) : Frame (fp.regs + fp.sites + fp.parts + fp.reqs + fp.rmbs + fp.ports + fp.writes + fp.reads + fp.sent) s (en s pg v) := by
  unfold en
  repeat' first
    | with_reducible exact Frame.refl _ _
    | (with_reducible apply Frame.step (State.enPart_frame ..) rfl ?_)
    | (with_reducible apply Frame.step (State.enSite_frame ..) rfl ?_)
    | (with_reducible apply Frame.step (State.enRmb_frame ..) rfl ?_)
    | split
    | (dsimp only; split)

theorem softReset_frame (s : State) (pg : Page) : Frame (fp.regs + fp.sent) s (softReset s pg) := by
  unfold softReset
  repeat' first
    | with_reducible exact Frame.refl _ _
    | (with_reducible apply State.noting_frame _ _ _ rfl ?_)
    | (with_reducible apply Frame.step (State.noting_frame (k := fp.regs + fp.sent) _ _ _ rfl ?_) rfl ?_)
    | (with_reducible apply Frame.step (State.clrAll_frame ..) rfl ?_)
    | (with_reducible apply Frame.step (State.wr_frame ..) rfl ?_)
    | (with_reducible apply Frame.step (State.setFlag_frame ..) rfl ?_)
    | (with_reducible apply Frame.ite ?_ ?_)
    | split
    | (dsimp only; split)

theorem destroy_frame (s : State) (p : Nat) : Frame (fp.regs + fp.parts) s (destroy s p) := by
  unfold destroy
  repeat' first
    | with_reducible exact Frame.refl _ _
    | (with_reducible apply Frame.step (State.setFlag_frame ..) rfl ?_)
    | (with_reducible apply Frame.step (State.abortLoad_frame ..) rfl ?_)
    | (with_reducible apply Frame.ite ?_ ?_)
    | split
    | (dsimp only; split)

theorem State.unpair_frame (s : State) (p : Nat) : Frame (fp.regs) s (State.unpair s p) := by
  unfold State.unpair
  repeat' first
    | with_reducible exact Frame.refl _ _
    | (with_reducible apply Frame.step (State.setFlag_frame ..) rfl ?_)
    | (with_reducible apply Frame.ite ?_ ?_)
    | (with_reducible apply Frame.foldl _ _ ?_ (fun s x => ?_))
    | split
    | (dsimp only; split)

theorem State.dropRegions_frame (s : State) (m p : Nat) : Frame (fp.regs + fp.sites) s (State.dropRegions s m p) := by
  unfold State.dropRegions
  repeat' first
    | with_reducible exact Frame.refl _ _
    | (with_reducible apply Frame.step (State.setFlag_frame ..) rfl ?_)
    | (with_reducible apply Frame.step (State.updSite_frame ..) rfl ?_)
    | split
    | (dsimp only; split)

theorem teardownDone_frame (s : State) (p : Nat) : Frame (fp.regs + fp.cores + fp.routers + fp.links + fp.tiles + fp.crags + fp.sites + fp.parts + fp.reqs + fp.ports + fp.writes + fp.reads + fp.sent + fp.fresh) s (teardownDone s p) := by
  unfold teardownDone
  repeat' first
    | with_reducible exact Frame.refl _ _
    | (with_reducible apply Frame.step (State.setFlag_frame ..) rfl ?_)
    | (with_reducible apply Frame.step (State.setCompute_frame ..) rfl ?_)
    | (with_reducible apply Frame.step (State.assign_frame ..) rfl ?_)
    | (with_reducible apply Frame.step (State.fenceSaddles_frame ..) rfl ?_)
    | (with_reducible apply Frame.step (State.unpair_frame ..) rfl ?_)
    | (with_reducible apply Frame.step (State.dropRegions_frame ..) rfl ?_)
    | (with_reducible apply Frame.step (State.updTile_frame ..) rfl ?_)
    | (with_reducible apply Frame.step (State.updSite_frame ..) rfl ?_)
    | (with_reducible apply Frame.step (State.updPart_frame ..) rfl ?_)
    | (with_reducible apply Frame.step (State.dropReqs_frame ..) rfl ?_)
    | (with_reducible apply Frame.step (State.clearLoaded_frame ..) rfl ?_)
    | (with_reducible apply Frame.step (loadEnd_frame ..) rfl ?_)
    | (with_reducible apply Frame.foldl _ _ ?_ (fun s x => ?_))
    | (with_reducible apply Frame.ite ?_ ?_)
    | split
    | (dsimp only; split)

end Sys2Proof.Machine
end

