-- ==== Sys2Proof/Laws/FramePower.lean ====
section
/-! SUPPORT. Frames of the operations of Machine/Power.lean. -/

namespace Sys2Proof.Machine

theorem State.updSps_frame (s : State) (f : Sps → Sps) : Frame (fp.sps) s (State.updSps s f) := by
  unfold State.updSps
  repeat' first
    | with_reducible exact Frame.refl _ _
    | (with_reducible apply Frame.step (State.setSps_frame ..) rfl ?_)
    | split
    | (dsimp only; split)

theorem State.railFail_frame (s : State) (b : RailBlock) : Frame (fp.regs + fp.tiles + fp.sites + fp.parts + fp.ctls + fp.nor + fp.faultMap + fp.faultGen + fp.faultLog + fp.faultSeq + fp.sent + fp.fresh) s (State.railFail s b) := by
  unfold State.railFail
  repeat' first
    | with_reducible exact Frame.refl _ _
    | (with_reducible apply Frame.step (State.err_frame ..) rfl ?_)
    | (with_reducible apply Frame.step (State.updTile_frame ..) rfl ?_)
    | (with_reducible apply Frame.step (State.record_frame ..) rfl ?_)
    | (with_reducible apply Frame.step (State.updSite_frame ..) rfl ?_)
    | (with_reducible apply Frame.step (State.updCtl_frame ..) rfl ?_)
    | split
    | (dsimp only; split)

theorem State.rmbPower_frame (s : State) (pg : Page) : Frame (fp.rmbs) s (State.rmbPower s pg) := by
  unfold State.rmbPower
  repeat' first
    | with_reducible exact Frame.refl _ _
    | (with_reducible apply Frame.step (State.updRmb_frame ..) rfl ?_)
    | split
    | (dsimp only; split)

theorem State.loadMap_frame (s : State) : Frame (fp.faultMap + fp.faultGen + fp.faultSeq) s (State.loadMap s) := by
  unfold State.loadMap
  repeat' first
    | with_reducible exact Frame.refl _ _
    | (with_reducible apply Frame.step (State.loadRec_frame ..) rfl ?_)
    | (with_reducible apply Frame.foldl _ _ ?_ (fun s x => ?_))
    | split
    | (dsimp only; split)

theorem State.powerUp_frame (s : State) (clk : Bool) (fails : List RailBlock) : Frame (fp.regs + fp.tiles + fp.sites + fp.parts + fp.rmbs + fp.sps + fp.ctls + fp.nor + fp.faultMap + fp.faultGen + fp.faultLog + fp.faultSeq + fp.sent + fp.fresh) s (State.powerUp s clk fails) := by
  unfold State.powerUp
  repeat' first
    | with_reducible exact Frame.refl _ _
    | (with_reducible apply Frame.step (State.setFlag_frame ..) rfl ?_)
    | (with_reducible apply Frame.step (State.err_frame ..) rfl ?_)
    | (with_reducible apply Frame.step (State.updSps_frame ..) rfl ?_)
    | (with_reducible apply Frame.step (State.railFail_frame ..) rfl ?_)
    | (with_reducible apply Frame.step (State.rmbPower_frame ..) rfl ?_)
    | (with_reducible apply Frame.step (State.loadMap_frame ..) rfl ?_)
    | (with_reducible apply Frame.step (State.updSite_frame ..) rfl ?_)
    | (with_reducible apply Frame.step (State.updCtl_frame ..) rfl ?_)
    | (with_reducible apply Frame.foldl _ _ ?_ (fun s x => ?_))
    | (with_reducible apply Frame.ite ?_ ?_)
    | split
    | (dsimp only; split)

theorem State.clearSps_frame (s : State) : Frame (fp.regs) s (State.clearSps s) where
  pending := rfl
  burnt := Fuses.Burnt.refl _
  canon := fun c => ⟨Table.wf_filter 0 _ c.regs, c.cores, c.mems, c.routers, c.tiles, c.crags, c.saddles, c.sites, c.parts, c.reqs, c.rmbs, c.ports, c.ctls, c.ssbs, c.faultMap⟩
  regs := fun h => absurd h (by decide)
  clock := fun _ => rfl
  cores := fun _ => rfl
  routers := fun _ => rfl
  links := fun _ => rfl
  tiles := fun _ => rfl
  crags := fun _ => rfl
  saddles := fun _ => rfl
  sites := fun _ => rfl
  parts := fun _ => rfl
  reqs := fun _ => rfl
  rmbs := fun _ => rfl
  sps := fun _ => rfl
  ports := fun _ => rfl
  writes := fun _ => rfl
  reads := fun _ => rfl
  ctls := fun _ => rfl
  ssbs := fun _ => rfl
  nor := fun _ => rfl
  fuses := fun _ => rfl
  tally := fun _ => rfl
  faultMap := fun _ => rfl
  faultGen := fun _ => rfl
  faultLog := fun _ => rfl
  faultSeq := fun _ => rfl
  order := fun _ => rfl
  ms := fun _ => rfl
  sent := fun _ => rfl
  fresh := fun _ => rfl

theorem State.freshSps_frame (s : State) : Frame (fp.regs + fp.sps) s (State.freshSps s) := by
  unfold State.freshSps
  repeat' first
    | with_reducible exact Frame.refl _ _
    | (with_reducible apply Frame.step (State.clearSps_frame ..) rfl ?_)
    | (with_reducible apply Frame.step (State.updSps_frame ..) rfl ?_)
    | split
    | (dsimp only; split)

theorem powerOn_frame (s : State) (clk : Bool) (fails : List RailBlock) : Frame (fp.regs + fp.tiles + fp.sites + fp.parts + fp.rmbs + fp.sps + fp.ctls + fp.nor + fp.faultMap + fp.faultGen + fp.faultLog + fp.faultSeq + fp.sent + fp.fresh) s (powerOn s clk fails) := by
  unfold powerOn
  repeat' first
    | with_reducible exact Frame.refl _ _
    | (with_reducible apply Frame.step (State.freshSps_frame ..) rfl ?_)
    | (with_reducible apply Frame.step (State.updSps_frame ..) rfl ?_)
    | (with_reducible apply Frame.step (State.powerUp_frame ..) rfl ?_)
    | (with_reducible apply Frame.ite ?_ ?_)
    | split
    | (dsimp only; split)

theorem clkRetry_frame (s : State) (clk : Bool) (fails : List RailBlock) : Frame (fp.regs + fp.tiles + fp.sites + fp.parts + fp.rmbs + fp.sps + fp.ctls + fp.nor + fp.faultMap + fp.faultGen + fp.faultLog + fp.faultSeq + fp.sent + fp.fresh) s (clkRetry s clk fails) := by
  unfold clkRetry
  repeat' first
    | with_reducible exact Frame.refl _ _
    | (with_reducible apply Frame.step (State.powerUp_frame ..) rfl ?_)
    | (with_reducible apply Frame.ite ?_ ?_)
    | split
    | (dsimp only; split)

theorem pwrFailRestart_frame (s : State) (clk : Bool) (fails : List RailBlock) : Frame (fp.regs + fp.tiles + fp.sites + fp.parts + fp.rmbs + fp.sps + fp.ctls + fp.nor + fp.faultMap + fp.faultGen + fp.faultLog + fp.faultSeq + fp.sent + fp.fresh) s (pwrFailRestart s clk fails) := by
  unfold pwrFailRestart
  repeat' first
    | with_reducible exact Frame.refl _ _
    | (with_reducible apply Frame.step (shutdown_frame ..) rfl ?_)
    | (with_reducible apply Frame.step (State.powerUp_frame ..) rfl ?_)
    | (with_reducible apply Frame.ite ?_ ?_)
    | split
    | (dsimp only; split)

theorem mgtRstNRelease_frame (s : State) (clk : Bool) (fails : List RailBlock) : Frame (fp.regs + fp.tiles + fp.sites + fp.parts + fp.rmbs + fp.sps + fp.ctls + fp.nor + fp.faultMap + fp.faultGen + fp.faultLog + fp.faultSeq + fp.sent + fp.fresh) s (mgtRstNRelease s clk fails) := by
  unfold mgtRstNRelease
  repeat' first
    | with_reducible exact Frame.refl _ _
    | (with_reducible apply Frame.step (State.updSps_frame ..) rfl ?_)
    | (with_reducible apply Frame.step (shutdown_frame ..) rfl ?_)
    | (with_reducible apply Frame.step (State.freshSps_frame ..) rfl ?_)
    | (with_reducible apply Frame.step (State.powerUp_frame ..) rfl ?_)
    | (with_reducible apply Frame.ite ?_ ?_)
    | split
    | (dsimp only; split)

theorem State.openAll_frame (s : State) : Frame (fp.regs + fp.cores + fp.fresh) s (State.openAll s) := by
  unfold State.openAll
  repeat' first
    | with_reducible exact Frame.refl _ _
    | (with_reducible apply Frame.step (State.setCompute_frame ..) rfl ?_)
    | (with_reducible apply Frame.foldl _ _ ?_ (fun s x => ?_))
    | split
    | (dsimp only; split)

theorem State.haltAll_frame (s : State) : Frame (fp.regs + fp.cores + fp.routers + fp.links + fp.tiles + fp.crags + fp.sites + fp.parts + fp.reqs + fp.ports + fp.writes + fp.reads + fp.nor + fp.faultMap + fp.faultGen + fp.faultLog + fp.faultSeq + fp.sent + fp.fresh) s (State.haltAll s) := by
  unfold State.haltAll
  repeat' first
    | with_reducible exact Frame.refl _ _
    | (with_reducible apply Frame.step (State.halt_frame ..) rfl ?_)
    | (with_reducible apply Frame.foldl _ _ ?_ (fun s x => ?_))
    | (with_reducible apply Frame.ite ?_ ?_)
    | split
    | (dsimp only; split)

theorem State.powerFailing_frame (s : State) (cause : Nat) : Frame (fp.regs + fp.cores + fp.routers + fp.links + fp.tiles + fp.crags + fp.sites + fp.parts + fp.reqs + fp.sps + fp.ports + fp.writes + fp.reads + fp.nor + fp.faultMap + fp.faultGen + fp.faultLog + fp.faultSeq + fp.sent + fp.fresh) s (State.powerFailing s cause) := by
  unfold State.powerFailing
  repeat' first
    | with_reducible exact Frame.refl _ _
    | (with_reducible apply Frame.step (State.updSps_frame ..) rfl ?_)
    | (with_reducible apply Frame.step (State.openAll_frame ..) rfl ?_)
    | (with_reducible apply Frame.step (State.haltAll_frame ..) rfl ?_)
    | (with_reducible apply Frame.step (State.updNor_frame ..) rfl ?_)
    | split
    | (dsimp only; split)

theorem State.trip_frame (s : State) (cause : Nat) : Frame (fp.regs + fp.cores + fp.routers + fp.links + fp.tiles + fp.crags + fp.sites + fp.parts + fp.reqs + fp.sps + fp.ports + fp.writes + fp.reads + fp.nor + fp.faultMap + fp.faultGen + fp.faultLog + fp.faultSeq + fp.sent + fp.fresh) s (State.trip s cause) := by
  unfold State.trip
  repeat' first
    | with_reducible exact Frame.refl _ _
    | (with_reducible apply Frame.step (State.err_frame ..) rfl ?_)
    | (with_reducible apply Frame.step (State.updSps_frame ..) rfl ?_)
    | (with_reducible apply Frame.step (State.powerFailing_frame ..) rfl ?_)
    | (with_reducible apply Frame.step (State.wr_frame ..) rfl ?_)
    | split
    | (dsimp only; split)

theorem State.unpowered_frame (s : State) : Frame (fp.regs + fp.cores + fp.routers + fp.links + fp.tiles + fp.crags + fp.saddles + fp.sites + fp.parts + fp.reqs + fp.rmbs + fp.sps + fp.ports + fp.writes + fp.reads + fp.ctls + fp.ssbs + fp.nor + fp.faultMap + fp.faultGen + fp.faultLog + fp.faultSeq) s (State.unpowered s) where
  pending := rfl
  burnt := Fuses.Burnt.refl _
  canon := fun c => ⟨by
    unfold State.unpowered; dsimp only
    split
    · rfl
    · exact Table.wf_filter 0 _ c.regs, rfl, fun _ => rfl, rfl, rfl, rfl, rfl, rfl, rfl, rfl, rfl, rfl, rfl, rfl, rfl⟩
  regs := fun h => absurd h (by decide)
  clock := fun _ => rfl
  cores := fun h => absurd h (by decide)
  routers := fun h => absurd h (by decide)
  links := fun h => absurd h (by decide)
  tiles := fun h => absurd h (by decide)
  crags := fun h => absurd h (by decide)
  saddles := fun h => absurd h (by decide)
  sites := fun h => absurd h (by decide)
  parts := fun h => absurd h (by decide)
  reqs := fun h => absurd h (by decide)
  rmbs := fun h => absurd h (by decide)
  sps := fun h => absurd h (by decide)
  ports := fun h => absurd h (by decide)
  writes := fun h => absurd h (by decide)
  reads := fun h => absurd h (by decide)
  ctls := fun h => absurd h (by decide)
  ssbs := fun h => absurd h (by decide)
  nor := fun h => absurd h (by decide)
  fuses := fun _ => rfl
  tally := fun _ => rfl
  faultMap := fun h => absurd h (by decide)
  faultGen := fun h => absurd h (by decide)
  faultLog := fun h => absurd h (by decide)
  faultSeq := fun h => absurd h (by decide)
  order := fun _ => rfl
  ms := fun _ => rfl
  sent := fun _ => rfl
  fresh := fun _ => rfl

theorem powerDown_frame (s : State) : Frame (fp.regs + fp.cores + fp.routers + fp.links + fp.tiles + fp.crags + fp.saddles + fp.sites + fp.parts + fp.reqs + fp.rmbs + fp.sps + fp.ports + fp.writes + fp.reads + fp.ctls + fp.ssbs + fp.nor + fp.faultMap + fp.faultGen + fp.faultLog + fp.faultSeq) s (powerDown s) := by
  unfold powerDown
  repeat' first
    | with_reducible exact Frame.refl _ _
    | (with_reducible apply Frame.step (State.unpowered_frame ..) rfl ?_)
    | (with_reducible apply Frame.step (State.setFlag_frame ..) rfl ?_)
    | (with_reducible apply Frame.ite ?_ ?_)
    | split
    | (dsimp only; split)

theorem State.releaseLeaves_frame (s : State) : Frame (fp.ssbs + fp.nor) s (State.releaseLeaves s) := by
  unfold State.releaseLeaves
  repeat' first
    | with_reducible exact Frame.refl _ _
    | (with_reducible apply Frame.step (State.updSsb_frame ..) rfl ?_)
    | (with_reducible apply Frame.step (State.journal_frame ..) rfl ?_)
    | (with_reducible apply Frame.ite ?_ ?_)
    | (with_reducible apply Frame.foldl _ _ ?_ (fun s x => ?_))
    | split
    | (dsimp only; split)

theorem State.shutdownCheck_frame (s : State) : Frame (fp.regs + fp.cores + fp.routers + fp.links + fp.tiles + fp.crags + fp.sites + fp.parts + fp.reqs + fp.sps + fp.ports + fp.writes + fp.reads + fp.ssbs + fp.nor + fp.faultMap + fp.faultGen + fp.faultLog + fp.faultSeq + fp.sent + fp.fresh) s (State.shutdownCheck s) := by
  unfold State.shutdownCheck
  repeat' first
    | with_reducible exact Frame.refl _ _
    | (with_reducible apply Frame.step (State.powerFailing_frame ..) rfl ?_)
    | (with_reducible apply Frame.step (shutdown_frame ..) rfl ?_)
    | (with_reducible apply Frame.ite ?_ ?_)
    | split
    | (dsimp only; split)

theorem shutdown_frame (s : State) : Frame (fp.regs + fp.cores + fp.routers + fp.links + fp.tiles + fp.crags + fp.sites + fp.parts + fp.reqs + fp.sps + fp.ports + fp.writes + fp.reads + fp.ssbs + fp.nor + fp.faultMap + fp.faultGen + fp.faultLog + fp.faultSeq + fp.sent + fp.fresh) s (shutdown s) := by
  unfold shutdown
  repeat' first
    | with_reducible exact Frame.refl _ _
    | (with_reducible apply Frame.step (State.enPart_frame ..) rfl ?_)
    | (with_reducible apply Frame.step (State.updSps_frame ..) rfl ?_)
    | (with_reducible apply Frame.step (State.releaseLeaves_frame ..) rfl ?_)
    | (with_reducible apply Frame.step (State.shutdownCheck_frame ..) rfl ?_)
    | (with_reducible apply Frame.foldl _ _ ?_ (fun s x => ?_))
    | (with_reducible apply Frame.ite ?_ ?_)
    | split
    | (dsimp only; split)

theorem shutdownTimeout_frame (s : State) : Frame (fp.regs + fp.cores + fp.routers + fp.links + fp.tiles + fp.crags + fp.sites + fp.parts + fp.reqs + fp.sps + fp.ports + fp.writes + fp.reads + fp.ssbs + fp.nor + fp.faultMap + fp.faultGen + fp.faultLog + fp.faultSeq + fp.sent + fp.fresh) s (shutdownTimeout s) := by
  unfold shutdownTimeout
  repeat' first
    | with_reducible exact Frame.refl _ _
    | (with_reducible apply Frame.step (State.powerFailing_frame ..) rfl ?_)
    | (with_reducible apply Frame.step (shutdown_frame ..) rfl ?_)
    | (with_reducible apply Frame.ite ?_ ?_)
    | split
    | (dsimp only; split)

theorem moduleReset_frame (s : State) : Frame (fp.regs + fp.cores + fp.routers + fp.links + fp.tiles + fp.crags + fp.sites + fp.parts + fp.reqs + fp.sps + fp.ports + fp.writes + fp.reads + fp.ssbs + fp.nor + fp.faultMap + fp.faultGen + fp.faultLog + fp.faultSeq + fp.sent + fp.fresh) s (moduleReset s) := by
  unfold moduleReset
  repeat' first
    | with_reducible exact Frame.refl _ _
    | (with_reducible apply Frame.step (State.updSps_frame ..) rfl ?_)
    | (with_reducible apply Frame.step (State.powerFailing_frame ..) rfl ?_)
    | (with_reducible apply Frame.step (State.releaseLeaves_frame ..) rfl ?_)
    | (with_reducible apply Frame.step (shutdown_frame ..) rfl ?_)
    | (with_reducible apply Frame.ite ?_ ?_)
    | split
    | (dsimp only; split)

theorem vinSample_frame (s : State) (vin current : Nat) : Frame (fp.regs + fp.cores + fp.routers + fp.links + fp.tiles + fp.crags + fp.sites + fp.parts + fp.reqs + fp.sps + fp.ports + fp.writes + fp.reads + fp.nor + fp.faultMap + fp.faultGen + fp.faultLog + fp.faultSeq + fp.sent + fp.fresh) s (vinSample s vin current) := by
  unfold vinSample
  repeat' first
    | with_reducible exact Frame.refl _ _
    | (with_reducible apply Frame.step (State.freeQuot_frame ..) rfl ?_)
    | (refine Frame.step (State.freeQuot_pair (by assumption)) rfl ?_)
    | (with_reducible apply Frame.step (State.err_frame ..) rfl ?_)
    | (with_reducible apply Frame.step (State.updSps_frame ..) rfl ?_)
    | (with_reducible apply Frame.step (State.trip_frame ..) rfl ?_)
    | (with_reducible apply Frame.step (State.wr_frame ..) rfl ?_)
    | (with_reducible apply Frame.ite ?_ ?_)
    | split
    | (dsimp only; split)

theorem computeSwitchClose_frame (s : State) (t : Nat) (ok : Bool) : Frame (fp.regs + fp.cores + fp.routers + fp.links + fp.tiles + fp.crags + fp.sites + fp.parts + fp.reqs + fp.ports + fp.writes + fp.reads + fp.nor + fp.faultMap + fp.faultGen + fp.faultLog + fp.faultSeq + fp.sent + fp.fresh) s (computeSwitchClose s t ok) := by
  unfold computeSwitchClose
  repeat' first
    | with_reducible exact Frame.refl _ _
    | (with_reducible apply Frame.step (State.setCompute_frame ..) rfl ?_)
    | (with_reducible apply Frame.step (State.tileLost_frame ..) rfl ?_)
    | (with_reducible apply Frame.ite ?_ ?_)
    | split
    | (dsimp only; split)

theorem clockLoss_frame (s : State) : Frame (fp.regs + fp.cores + fp.routers + fp.links + fp.tiles + fp.crags + fp.sites + fp.parts + fp.reqs + fp.sps + fp.ports + fp.writes + fp.reads + fp.ctls + fp.nor + fp.faultMap + fp.faultGen + fp.faultLog + fp.faultSeq + fp.sent + fp.fresh) s (clockLoss s) := by
  unfold clockLoss
  repeat' first
    | with_reducible exact Frame.refl _ _
    | (with_reducible apply Frame.step (State.abortLoad_frame ..) rfl ?_)
    | (with_reducible apply Frame.step (State.setFlag_frame ..) rfl ?_)
    | (with_reducible apply Frame.step (State.err_frame ..) rfl ?_)
    | (with_reducible apply Frame.step (State.updSps_frame ..) rfl ?_)
    | (with_reducible apply Frame.step (State.haltAll_frame ..) rfl ?_)
    | (with_reducible apply Frame.step (State.updSite_frame ..) rfl ?_)
    | (with_reducible apply Frame.step (State.updCtl_frame ..) rfl ?_)
    | (with_reducible apply Frame.foldl _ _ ?_ (fun s x => ?_))
    | (with_reducible apply Frame.ite ?_ ?_)
    | split
    | (dsimp only; split)

theorem State.notePhase_frame (s : State) (q : Option Nat) (loc ph : Nat) (excursion : Bool) (ent : Nat × Nat × Nat) : Frame (fp.regs + fp.cores + fp.routers + fp.links + fp.tiles + fp.crags + fp.sites + fp.parts + fp.reqs + fp.ports + fp.writes + fp.reads + fp.nor + fp.faultMap + fp.faultGen + fp.faultLog + fp.faultSeq + fp.sent + fp.fresh) s (State.notePhase s q loc ph excursion ent) := by
  unfold State.notePhase
  repeat' first
    | with_reducible exact Frame.refl _ _
    | (with_reducible apply Frame.step (State.record_frame ..) rfl ?_)
    | (with_reducible apply Frame.step (State.eventIn_frame ..) rfl ?_)
    | (with_reducible apply Frame.step (State.noteHold_frame ..) rfl ?_)
    | (with_reducible apply Frame.step (State.failWith_frame ..) rfl ?_)
    | (with_reducible apply Frame.ite ?_ ?_)
    | split
    | (dsimp only; split)

theorem phaseLoss_frame (s : State) (k ph : Nat) (excursion : Bool) : Frame (fp.regs + fp.cores + fp.routers + fp.links + fp.tiles + fp.crags + fp.sites + fp.parts + fp.reqs + fp.sps + fp.ports + fp.writes + fp.reads + fp.ctls + fp.nor + fp.faultMap + fp.faultGen + fp.faultLog + fp.faultSeq + fp.sent + fp.fresh) s (phaseLoss s k ph excursion) := by
  unfold phaseLoss
  repeat' first
    | with_reducible exact Frame.refl _ _
    | (with_reducible apply Frame.step (State.err_frame ..) rfl ?_)
    | (with_reducible apply Frame.step (State.record_frame ..) rfl ?_)
    | (with_reducible apply Frame.step (State.halt_frame ..) rfl ?_)
    | (with_reducible apply Frame.step (State.ctlLost_frame ..) rfl ?_)
    | (with_reducible apply Frame.step (State.notePhase_frame ..) rfl ?_)
    | (with_reducible apply Frame.step (State.updStack_frame ..) rfl ?_)
    | (with_reducible apply Frame.ite ?_ ?_)
    | split
    | (dsimp only; split)

theorem phOffline_frame (s : State) (v : Nat) : Frame (fp.regs + fp.sps + fp.sent) s (phOffline s v) := by
  unfold phOffline
  repeat' first
    | with_reducible exact Frame.refl _ _
    | (with_reducible apply Frame.step (State.err_frame ..) rfl ?_)
    | (with_reducible apply Frame.step (State.updStack_frame ..) rfl ?_)
    | (with_reducible apply Frame.ite ?_ ?_)
    | (with_reducible apply Frame.foldl _ _ ?_ (fun s x => ?_))
    | split
    | (dsimp only; split)

theorem cartridgeSelfTest_frame (s : State) (k ph : Nat) : Frame (fp.sps + fp.faultMap + fp.faultGen) s (cartridgeSelfTest s k ph) := by
  unfold cartridgeSelfTest
  repeat' first
    | with_reducible exact Frame.refl _ _
    | (with_reducible apply Frame.step (State.updStack_frame ..) rfl ?_)
    | (with_reducible apply Frame.step (State.setMap_frame ..) rfl ?_)
    | (with_reducible apply Frame.ite ?_ ?_)
    | split
    | (dsimp only; split)

end Sys2Proof.Machine
end

