-- ==== Sys2Proof/Laws/FrameThermal.lean ====
section
/-! SUPPORT. Frames of the operations of Machine/Thermal.lean. -/

namespace Sys2Proof.Machine

theorem State.freeQuotInt_frame (s : State) (n : Int) (d : Nat) : Frame (fp.fresh) s (State.freeQuotInt s n d).2 := by
  unfold State.freeQuotInt
  repeat' first
    | with_reducible exact Frame.refl _ _
    | (with_reducible apply Frame.step (State.freeQuot_frame ..) rfl ?_)
    | split
    | (dsimp only; split)
    | (refine Frame.step (State.freeQuot_pair (by assumption)) rfl ?_)

theorem State.freeQuotInt_pair {s : State} {n : Int} {d : Nat} {s' : State} {v0 : Int} (hx : State.freeQuotInt s n d = (v0, s')) : Frame (fp.fresh) s s' := by
  have := State.freeQuotInt_frame s n d
  rw [hx] at this; exact this

theorem State.freeField_frame (s : State) (w : Nat) (n : Int) (d : Nat) : Frame (fp.fresh) s (State.freeField s w n d).2 := by
  unfold State.freeField
  repeat' first
    | with_reducible exact Frame.refl _ _
    | (with_reducible apply Frame.step (State.freeQuotInt_frame ..) rfl ?_)
    | (with_reducible apply Frame.step (State.free_frame ..) rfl ?_)
    | (with_reducible apply Frame.ite ?_ ?_)
    | split
    | (dsimp only; split)
    | (refine Frame.step (State.freeQuotInt_pair (by assumption)) rfl ?_)
    | (refine Frame.step (State.free_pair (by assumption)) rfl ?_)

theorem State.freeField_pair {s : State} {w : Nat} {n : Int} {d : Nat} {s' : State} {v0 : Nat} (hx : State.freeField s w n d = (v0, s')) : Frame (fp.fresh) s s' := by
  have := State.freeField_frame s w n d
  rw [hx] at this; exact this

theorem State.capUpdate_frame (s : State) : Frame (fp.regs + fp.sps + fp.fresh) s (State.capUpdate s) := by
  unfold State.capUpdate
  repeat' first
    | with_reducible exact Frame.refl _ _
    | (with_reducible apply Frame.step (State.updSps_frame ..) rfl ?_)
    | (with_reducible apply Frame.step (State.freeQuot_frame ..) rfl ?_)
    | (with_reducible apply Frame.step (State.wr_frame ..) rfl ?_)
    | (with_reducible apply Frame.ite ?_ ?_)
    | split
    | (dsimp only; split)
    | (refine Frame.step (State.freeQuot_pair (by assumption)) rfl ?_)

theorem State.permOf_frame (s : State) (t : Nat) (tIn : Int) : Frame (fp.fresh) s (State.permOf s t tIn).2 := by
  unfold State.permOf
  repeat' first
    | with_reducible exact Frame.refl _ _
    | (with_reducible apply Frame.step (State.freeField_frame ..) rfl ?_)
    | split
    | (dsimp only; split)
    | (refine Frame.step (State.freeField_pair (by assumption)) rfl ?_)

theorem State.permOf_pair {s : State} {t : Nat} {tIn : Int} {s' : State} {v0 : Nat} (hx : State.permOf s t tIn = (v0, s')) : Frame (fp.fresh) s s' := by
  have := State.permOf_frame s t tIn
  rw [hx] at this; exact this

theorem State.captureStep_frame (s : State) (t : Nat) (tIn : Int) (h : HeatIn) : Frame (fp.regs + fp.tiles + fp.fresh) s (State.captureStep s t tIn h) := by
  unfold State.captureStep
  repeat' first
    | with_reducible exact Frame.refl _ _
    | (with_reducible apply Frame.step (State.capture_frame ..) rfl ?_)
    | (with_reducible apply Frame.step (State.freeField_frame ..) rfl ?_)
    | (with_reducible apply Frame.step (State.updTile_frame ..) rfl ?_)
    | (with_reducible apply Frame.ite ?_ ?_)
    | split
    | (dsimp only; split)
    | (refine Frame.step (State.freeField_pair (by assumption)) rfl ?_)

theorem State.showHeat_frame (s : State) (t : Nat) (tIn : Int) (h : HeatIn) : Frame (fp.regs + fp.fresh) s (State.showHeat s t tIn h) := by
  unfold State.showHeat
  repeat' first
    | with_reducible exact Frame.refl _ _
    | (with_reducible apply Frame.step (State.wr_frame ..) rfl ?_)
    | (with_reducible apply Frame.step (State.freeQuot_frame ..) rfl ?_)
    | (refine Frame.step (State.freeQuot_pair (by assumption)) rfl ?_)
    | (with_reducible apply Frame.step (State.freeQuotInt_frame ..) rfl ?_)
    | (refine Frame.step (State.freeQuotInt_pair (by assumption)) rfl ?_)
    | (with_reducible apply Frame.ite ?_ ?_)
    | split
    | (dsimp only; split)

theorem State.thetaStep_frame (s : State) (t : Nat) (tIn : Int) (h : HeatIn) : Frame (fp.regs + fp.fresh) s (State.thetaStep s t tIn h) := by
  unfold State.thetaStep
  repeat' first
    | with_reducible exact Frame.refl _ _
    | (with_reducible apply Frame.step (State.wr_frame ..) rfl ?_)
    | (with_reducible apply Frame.step (State.freeField_frame ..) rfl ?_)
    | (refine Frame.step (State.freeField_pair (by assumption)) rfl ?_)
    | (with_reducible apply Frame.ite ?_ ?_)
    | split
    | (dsimp only; split)

theorem State.hotStep_frame (s : State) (t : Nat) (h : HeatIn) : Frame (fp.regs + fp.sent) s (State.hotStep s t h) := by
  unfold State.hotStep
  repeat' first
    | with_reducible exact Frame.refl _ _
    | (with_reducible apply Frame.step (State.err_frame ..) rfl ?_)
    | (with_reducible apply Frame.step (State.setFlag_frame ..) rfl ?_)
    | (with_reducible apply Frame.ite ?_ ?_)
    | split
    | (dsimp only; split)

theorem State.heatTile_frame (s : State) (tIn : Int) (t : Nat) : Frame (fp.regs + fp.tiles + fp.sent + fp.fresh) s (State.heatTile s tIn t) := by
  unfold State.heatTile
  repeat' first
    | with_reducible exact Frame.refl _ _
    | (with_reducible apply Frame.step (State.wr_frame ..) rfl ?_)
    | (with_reducible apply Frame.step (State.updTile_frame ..) rfl ?_)
    | (with_reducible apply Frame.step (State.captureStep_frame ..) rfl ?_)
    | (with_reducible apply Frame.step (State.hotStep_frame ..) rfl ?_)
    | (with_reducible apply Frame.step (State.thetaStep_frame ..) rfl ?_)
    | (with_reducible apply Frame.step (State.showHeat_frame ..) rfl ?_)
    | (with_reducible apply Frame.step (State.inc_frame ..) rfl ?_)
    | (with_reducible apply Frame.step (State.permOf_frame ..) rfl ?_)
    | (refine Frame.step (State.permOf_pair (by assumption)) rfl ?_)
    | (with_reducible apply Frame.ite ?_ ?_)
    | split
    | (dsimp only; split)

theorem State.writeStretch_frame (s : State) (p : Nat) : Frame (fp.regs + fp.parts) s (State.writeStretch s p) := by
  unfold State.writeStretch
  repeat' first
    | with_reducible exact Frame.refl _ _
    | (with_reducible apply Frame.step (State.wr_frame ..) rfl ?_)
    | (with_reducible apply Frame.step (State.updPart_frame ..) rfl ?_)
    | (with_reducible apply Frame.ite ?_ ?_)
    | split
    | (dsimp only; split)

theorem State.coolant_frame (s : State) (tIn : Int) (t : Nat) : Frame (fp.regs + fp.sent) s (State.coolant s tIn t) := by
  unfold State.coolant
  repeat' first
    | with_reducible exact Frame.refl _ _
    | (with_reducible apply Frame.step (State.err_frame ..) rfl ?_)
    | (with_reducible apply Frame.step (State.wr_frame ..) rfl ?_)
    | (with_reducible apply Frame.ite ?_ ?_)
    | split
    | (dsimp only; split)

theorem thermalUpdate_frame (s : State) (tIn : Int) : Frame (fp.regs + fp.tiles + fp.parts + fp.sps + fp.sent + fp.fresh) s (thermalUpdate s tIn) := by
  unfold thermalUpdate
  repeat' first
    | with_reducible exact Frame.refl _ _
    | (with_reducible apply Frame.step (State.capUpdate_frame ..) rfl ?_)
    | (with_reducible apply Frame.step (State.heatTile_frame ..) rfl ?_)
    | (with_reducible apply Frame.step (State.coolant_frame ..) rfl ?_)
    | (with_reducible apply Frame.step (State.writeStretch_frame ..) rfl ?_)
    | (with_reducible apply Frame.ite ?_ ?_)
    | (with_reducible apply Frame.foldl _ _ ?_ (fun s x => ?_))
    | split
    | (dsimp only; split)

theorem State.heatFence_frame (s : State) (t : Nat) : Frame (fp.regs + fp.cores + fp.routers + fp.links + fp.tiles + fp.crags + fp.sites + fp.parts + fp.reqs + fp.ports + fp.writes + fp.reads + fp.nor + fp.faultMap + fp.faultGen + fp.faultLog + fp.faultSeq + fp.sent + fp.fresh) s (State.heatFence s t) := by
  unfold State.heatFence
  repeat' first
    | with_reducible exact Frame.refl _ _
    | (with_reducible apply Frame.step (State.setFlag_frame ..) rfl ?_)
    | (with_reducible apply Frame.step (State.err_frame ..) rfl ?_)
    | (with_reducible apply Frame.step (State.setCompute_frame ..) rfl ?_)
    | (with_reducible apply Frame.step (State.halt_frame ..) rfl ?_)
    | (with_reducible apply Frame.step (State.updPart_frame ..) rfl ?_)
    | (with_reducible apply Frame.ite ?_ ?_)
    | split
    | (dsimp only; split)

theorem State.fenceClear_frame (s : State) (t : Nat) : Frame (fp.regs + fp.cores + fp.fresh) s (State.fenceClear s t) := by
  unfold State.fenceClear
  repeat' first
    | with_reducible exact Frame.refl _ _
    | (with_reducible apply Frame.step (State.setFlag_frame ..) rfl ?_)
    | (with_reducible apply Frame.step (State.setCompute_frame ..) rfl ?_)
    | (with_reducible apply Frame.ite ?_ ?_)
    | split
    | (dsimp only; split)

theorem diodeReading_frame (s : State) (t : Nat) : Frame (fp.regs + fp.cores + fp.routers + fp.links + fp.tiles + fp.crags + fp.sites + fp.parts + fp.reqs + fp.ports + fp.writes + fp.reads + fp.nor + fp.faultMap + fp.faultGen + fp.faultLog + fp.faultSeq + fp.sent + fp.fresh) s (diodeReading s t) := by
  unfold diodeReading
  repeat' first
    | with_reducible exact Frame.refl _ _
    | (with_reducible apply Frame.step (State.freeQuotInt_frame ..) rfl ?_)
    | (refine Frame.step (State.freeQuotInt_pair (by assumption)) rfl ?_)
    | (with_reducible apply Frame.step (State.heatFence_frame ..) rfl ?_)
    | (with_reducible apply Frame.step (State.fenceClear_frame ..) rfl ?_)
    | (with_reducible apply Frame.step (State.setFlag_frame ..) rfl ?_)
    | (with_reducible apply Frame.step (State.err_frame ..) rfl ?_)
    | (with_reducible apply Frame.step (State.wr_frame ..) rfl ?_)
    | (with_reducible apply Frame.step (State.updTile_frame ..) rfl ?_)
    | (with_reducible apply Frame.ite ?_ ?_)
    | split
    | (dsimp only; split)

theorem baseCapture_frame (s : State) (t : Nat) : Frame (fp.regs + fp.tiles) s (baseCapture s t) := by
  unfold baseCapture
  repeat' first
    | with_reducible exact Frame.refl _ _
    | (with_reducible apply Frame.step (State.capture_frame ..) rfl ?_)
    | (with_reducible apply Frame.step (State.updTile_frame ..) rfl ?_)
    | (with_reducible apply Frame.step (State.setFlag_frame ..) rfl ?_)
    | (with_reducible apply Frame.ite ?_ ?_)
    | split
    | (dsimp only; split)

theorem captureEnd_frame (s : State) (t : Nat) : Frame (fp.regs + fp.tiles + fp.nor + fp.sent + fp.fresh) s (captureEnd s t) := by
  unfold captureEnd
  repeat' first
    | with_reducible exact Frame.refl _ _
    | (with_reducible apply Frame.step (State.capture_frame ..) rfl ?_)
    | (with_reducible apply Frame.step (State.updTile_frame ..) rfl ?_)
    | (with_reducible apply Frame.step (State.setFlag_frame ..) rfl ?_)
    | (with_reducible apply Frame.step (State.err_frame ..) rfl ?_)
    | (with_reducible apply Frame.step (State.freeQuot_frame ..) rfl ?_)
    | (with_reducible apply Frame.step (State.wr_frame ..) rfl ?_)
    | (with_reducible apply Frame.step (State.journal_frame ..) rfl ?_)
    | (with_reducible apply Frame.ite ?_ ?_)
    | split
    | (dsimp only; split)
    | (refine Frame.step (State.freeQuot_pair (by assumption)) rfl ?_)

end Sys2Proof.Machine
end

