-- ==== Sys2Proof/Laws/FrameLink.lean ====
section
/-! SUPPORT. Frames of the operations of Machine/Link.lean. -/

namespace Sys2Proof.Machine

theorem State.trainFail_frame (s : State) (n : Nat) : Frame (fp.regs + fp.parts + fp.ports + fp.writes + fp.reads + fp.sent) s (State.trainFail s n) := by
  unfold State.trainFail
  repeat' first
    | with_reducible exact Frame.refl _ _
    | (with_reducible apply Frame.step (State.portDown_frame ..) rfl ?_)
    | (with_reducible apply Frame.step (State.updPort_frame ..) rfl ?_)
    | (with_reducible apply Frame.step (State.wr_frame ..) rfl ?_)
    | (with_reducible apply Frame.ite ?_ ?_)
    | split
    | (dsimp only; split)

theorem State.trainOnce_frame (s : State) (n : Nat) (d : TrainData) : Frame (fp.regs + fp.parts + fp.ports + fp.writes + fp.reads + fp.sent) s (State.trainOnce s n d) := by
  unfold State.trainOnce
  repeat' first
    | with_reducible exact Frame.refl _ _
    | (with_reducible apply Frame.step (State.trainFail_frame ..) rfl ?_)
    | (with_reducible apply Frame.step (State.wr_frame ..) rfl ?_)
    | (with_reducible apply Frame.step (State.portDown_frame ..) rfl ?_)
    | (with_reducible apply Frame.step (State.err_frame ..) rfl ?_)
    | (with_reducible apply Frame.step (State.setFlag_frame ..) rfl ?_)
    | (with_reducible apply Frame.step (State.wr64_frame ..) rfl ?_)
    | (with_reducible apply Frame.step (State.updPort_frame ..) rfl ?_)
    | (with_reducible apply Frame.step (State.flush_frame ..) rfl ?_)
    | (with_reducible apply Frame.step (State.linkCheck_frame ..) rfl ?_)
    | (with_reducible apply Frame.ite ?_ ?_)
    | split
    | (dsimp only; split)

theorem portTrain_frame (s : State) (n : Nat) (d : TrainData) : Frame (fp.regs + fp.parts + fp.ports + fp.writes + fp.reads + fp.sent) s (portTrain s n d) := by
  unfold portTrain
  repeat' first
    | with_reducible exact Frame.refl _ _
    | (with_reducible apply Frame.step (State.trainOnce_frame ..) rfl ?_)
    | (with_reducible apply Frame.ite ?_ ?_)
    | split
    | (dsimp only; split)

theorem trainingTimeout_frame (s : State) (n : Nat) : Frame (fp.regs + fp.parts + fp.ports + fp.writes + fp.reads + fp.sent) s (trainingTimeout s n) := by
  unfold trainingTimeout
  repeat' first
    | with_reducible exact Frame.refl _ _
    | (with_reducible apply Frame.step (State.trainFail_frame ..) rfl ?_)
    | (with_reducible apply Frame.ite ?_ ?_)
    | split
    | (dsimp only; split)

theorem downRetry_frame (s : State) (n : Nat) (d : TrainData) : Frame (fp.regs + fp.parts + fp.ports + fp.writes + fp.reads + fp.sent) s (downRetry s n d) := by
  unfold downRetry
  repeat' first
    | with_reducible exact Frame.refl _ _
    | (with_reducible apply Frame.step (State.trainOnce_frame ..) rfl ?_)
    | (with_reducible apply Frame.ite ?_ ?_)
    | split
    | (dsimp only; split)

theorem State.startRetrain_frame (s : State) (n : Nat) : Frame (fp.regs + fp.parts + fp.sent) s (State.startRetrain s n) := by
  unfold State.startRetrain
  repeat' first
    | with_reducible exact Frame.refl _ _
    | (with_reducible apply Frame.step (State.wr_frame ..) rfl ?_)
    | (with_reducible apply Frame.step (State.linkCheck_frame ..) rfl ?_)
    | (with_reducible apply Frame.ite ?_ ?_)
    | split
    | (dsimp only; split)

theorem State.replayFlits_frame (s : State) (n : Nat) (l : List (Nat × Option Msg)) : Frame (fp.regs + fp.parts + fp.ports + fp.sent) s (State.replayFlits s n l) := by
  unfold State.replayFlits
  repeat' first
    | with_reducible exact Frame.refl _ _
    | (with_reducible apply Frame.step (State.emit_frame ..) rfl ?_)
    | (with_reducible apply Frame.step (State.inc_frame ..) rfl ?_)
    | (with_reducible apply Frame.step (State.updPort_frame ..) rfl ?_)
    | (with_reducible apply Frame.step (State.startRetrain_frame ..) rfl ?_)
    | (with_reducible apply Frame.ite ?_ ?_)
    | (with_reducible apply Frame.foldl _ _ ?_ (fun s x => ?_))
    | split
    | (dsimp only; split)

theorem State.flitAck_frame (s : State) (n ack : Nat) (ackv : Bool) : Frame (fp.ports) s (State.flitAck s n ack ackv) := by
  unfold State.flitAck
  repeat' first
    | with_reducible exact Frame.refl _ _
    | (with_reducible apply Frame.step (State.updPort_frame ..) rfl ?_)
    | (with_reducible apply Frame.ite ?_ ?_)
    | split
    | (dsimp only; split)

theorem State.flitCredit_frame (s : State) (n vc cr : Nat) : Frame (fp.ports + fp.writes + fp.reads + fp.sent) s (State.flitCredit s n vc cr) := by
  unfold State.flitCredit
  repeat' first
    | with_reducible exact Frame.refl _ _
    | (with_reducible apply Frame.step (State.flush_frame ..) rfl ?_)
    | (with_reducible apply Frame.step (State.updPort_frame ..) rfl ?_)
    | split
    | (dsimp only; split)

theorem State.flitHeader_frame (s : State) (n ack vc cr : Nat) (ackv : Bool) : Frame (fp.ports + fp.writes + fp.reads + fp.sent) s (State.flitHeader s n ack vc cr ackv) := by
  unfold State.flitHeader
  repeat' first
    | with_reducible exact Frame.refl _ _
    | (with_reducible apply Frame.step (State.flitAck_frame ..) rfl ?_)
    | (with_reducible apply Frame.step (State.flitCredit_frame ..) rfl ?_)
    | split
    | (dsimp only; split)

theorem State.sendNak_frame (s : State) (n : Nat) : Frame (fp.ports + fp.sent) s (State.sendNak s n) := by
  unfold State.sendNak
  repeat' first
    | with_reducible exact Frame.refl _ _
    | (with_reducible apply Frame.step (State.updPort_frame ..) rfl ?_)
    | (with_reducible apply Frame.step (State.emit_frame ..) rfl ?_)
    | (with_reducible apply Frame.ite ?_ ?_)
    | split
    | (dsimp only; split)

theorem State.corrected_frame (s : State) (n : Nat) (corr : Bool) : Frame (fp.regs) s (State.corrected s n corr) := by
  unfold State.corrected
  repeat' first
    | with_reducible exact Frame.refl _ _
    | (with_reducible apply Frame.step (State.inc_frame ..) rfl ?_)
    | (with_reducible apply Frame.ite ?_ ?_)
    | split
    | (dsimp only; split)

theorem idleFlit_frame (s : State) (n ack vc cr : Nat) (ackv corr : Bool) : Frame (fp.regs + fp.ports + fp.writes + fp.reads + fp.sent) s (idleFlit s n ack vc cr ackv corr) := by
  unfold idleFlit
  repeat' first
    | with_reducible exact Frame.refl _ _
    | (with_reducible apply Frame.step (State.corrected_frame ..) rfl ?_)
    | (with_reducible apply Frame.step (State.flitHeader_frame ..) rfl ?_)
    | (with_reducible apply Frame.ite ?_ ?_)
    | split
    | (dsimp only; split)

theorem nak_frame (s : State) (n fseq ack vc cr : Nat) (ackv corr : Bool) : Frame (fp.regs + fp.parts + fp.ports + fp.writes + fp.reads + fp.sent) s (nak s n fseq ack vc cr ackv corr) := by
  unfold nak
  repeat' first
    | with_reducible exact Frame.refl _ _
    | (with_reducible apply Frame.step (State.replayFlits_frame ..) rfl ?_)
    | (with_reducible apply Frame.step (State.flitAck_frame ..) rfl ?_)
    | (with_reducible apply Frame.step (State.flitCredit_frame ..) rfl ?_)
    | (with_reducible apply Frame.step (State.corrected_frame ..) rfl ?_)
    | (with_reducible apply Frame.ite ?_ ?_)
    | split
    | (dsimp only; split)

theorem ackTimeout_frame (s : State) (n : Nat) : Frame (fp.regs + fp.parts + fp.ports + fp.sent) s (ackTimeout s n) := by
  unfold ackTimeout
  repeat' first
    | with_reducible exact Frame.refl _ _
    | (with_reducible apply Frame.step (State.replayFlits_frame ..) rfl ?_)
    | (with_reducible apply Frame.ite ?_ ?_)
    | split
    | (dsimp only; split)

theorem blockLockLoss_frame (s : State) (n : Nat) : Frame (fp.regs + fp.parts + fp.sent) s (blockLockLoss s n) := by
  unfold blockLockLoss
  repeat' first
    | with_reducible exact Frame.refl _ _
    | (with_reducible apply Frame.step (State.startRetrain_frame ..) rfl ?_)
    | split
    | (dsimp only; split)

theorem retrain_frame (s : State) (n : Nat) : Frame (fp.regs + fp.parts + fp.sent) s (retrain s n) := by
  unfold retrain
  repeat' first
    | with_reducible exact Frame.refl _ _
    | (with_reducible apply Frame.step (State.startRetrain_frame ..) rfl ?_)
    | split
    | (dsimp only; split)

theorem retrainTimeout_frame (s : State) (n : Nat) (active : Bool) : Frame (fp.regs + fp.parts + fp.ports + fp.writes + fp.reads + fp.sent) s (retrainTimeout s n active) := by
  unfold retrainTimeout
  repeat' first
    | with_reducible exact Frame.refl _ _
    | (with_reducible apply Frame.step (State.portDown_frame ..) rfl ?_)
    | (with_reducible apply Frame.step (State.wr_frame ..) rfl ?_)
    | (with_reducible apply Frame.step (State.updPort_frame ..) rfl ?_)
    | (with_reducible apply Frame.step (State.inc_frame ..) rfl ?_)
    | (with_reducible apply Frame.step (State.err_frame ..) rfl ?_)
    | (with_reducible apply Frame.step (State.flush_frame ..) rfl ?_)
    | (with_reducible apply Frame.step (State.linkCheck_frame ..) rfl ?_)
    | (with_reducible apply Frame.ite ?_ ?_)
    | split
    | (dsimp only; split)

theorem State.returnCredit_frame (s : State) (n vc k : Nat) : Frame (fp.sent) s (State.returnCredit s n vc k) := by
  unfold State.returnCredit
  repeat' first
    | with_reducible exact Frame.refl _ _
    | (with_reducible apply Frame.step (State.emit_frame ..) rfl ?_)
    | split
    | (dsimp only; split)

theorem snpInv_frame (s : State) (n addr : Nat) : Frame (fp.regs + fp.ports + fp.reads + fp.ctls + fp.sent) s (snpInv s n addr) := by
  unfold snpInv
  repeat' first
    | with_reducible exact Frame.refl _ _
    | (with_reducible apply Frame.step (State.updCtl_frame ..) rfl ?_)
    | (with_reducible apply Frame.step (State.setReads_frame ..) rfl ?_)
    | (with_reducible apply Frame.step (State.inc_frame ..) rfl ?_)
    | (with_reducible apply Frame.step (State.returnCredit_frame ..) rfl ?_)
    | (with_reducible apply Frame.step (State.sendMsg_frame ..) rfl ?_)
    | (with_reducible apply Frame.ite ?_ ?_)
    | split
    | (dsimp only; split)

theorem cmp_frame (s : State) (n tag status : Nat) : Frame (fp.regs + fp.ports + fp.writes + fp.reads + fp.sent) s (cmp s n tag status) := by
  unfold cmp
  repeat' first
    | with_reducible exact Frame.refl _ _
    | (with_reducible apply Frame.step (State.returnCredit_frame ..) rfl ?_)
    | (with_reducible apply Frame.step (State.setWrites_frame ..) rfl ?_)
    | (with_reducible apply Frame.step (State.flush_frame ..) rfl ?_)
    | (with_reducible apply Frame.step (State.inc_frame ..) rfl ?_)
    | (with_reducible apply Frame.step (State.err_frame ..) rfl ?_)
    | (with_reducible apply Frame.ite ?_ ?_)
    | split
    | (dsimp only; split)

theorem State.cacheLine_frame (s : State) (c l : Nat) : Frame (fp.ctls + fp.fresh) s (State.cacheLine s c l) := by
  unfold State.cacheLine
  repeat' first
    | with_reducible exact Frame.refl _ _
    | (with_reducible apply Frame.step (State.updCtl_frame ..) rfl ?_)
    | (with_reducible apply Frame.step (State.free_frame ..) rfl ?_)
    | (with_reducible apply Frame.ite ?_ ?_)
    | split
    | (dsimp only; split)
    | (refine Frame.step (State.free_pair (by assumption)) rfl ?_)

theorem data_frame (s : State) (n tag status : Nat) (bytes : List Byte) : Frame (fp.regs + fp.parts + fp.reqs + fp.ports + fp.writes + fp.reads + fp.ctls + fp.sent + fp.fresh) s (data s n tag status bytes) := by
  unfold data
  repeat' first
    | with_reducible exact Frame.refl _ _
    | (with_reducible apply Frame.step (State.returnCredit_frame ..) rfl ?_)
    | (with_reducible apply Frame.step (State.cacheLine_frame ..) rfl ?_)
    | (with_reducible apply Frame.step (State.flush_frame ..) rfl ?_)
    | (with_reducible apply Frame.step (State.nackFree_frame ..) rfl ?_)
    | (with_reducible apply Frame.step (State.dropEntry_frame ..) rfl ?_)
    | (with_reducible apply Frame.step (State.updPart_frame ..) rfl ?_)
    | (with_reducible apply Frame.step (State.setReads_frame ..) rfl ?_)
    | (with_reducible apply Frame.ite ?_ ?_)
    | split
    | (dsimp only; split)

end Sys2Proof.Machine
end

