-- ==== Sys2Proof/Laws/FrameTally.lean ====
section
/-! SUPPORT. Frames of the operations of Machine/Tally.lean. -/

namespace Sys2Proof.Machine

theorem State.toTally_frame (s : State) (type : Nat) (payload : List Byte) : Frame (fp.tally + fp.sent) s (State.toTally s type payload) := by
  unfold State.toTally
  repeat' first
    | with_reducible exact Frame.refl _ _
    | (with_reducible apply Frame.step (State.emit_frame ..) rfl ?_)
    | (with_reducible apply Frame.step (State.updTally_frame ..) rfl ?_)
    | split
    | (dsimp only; split)

theorem State.fromTally_frame (s : State) (type : Nat) (payload : List Byte) : Frame (fp.tally + fp.sent) s (State.fromTally s type payload) := by
  unfold State.fromTally
  repeat' first
    | with_reducible exact Frame.refl _ _
    | (with_reducible apply Frame.step (State.emit_frame ..) rfl ?_)
    | (with_reducible apply Frame.step (State.updTally_frame ..) rfl ?_)
    | split
    | (dsimp only; split)

theorem State.bufferFrame_frame (s : State) (type : Nat) (f : TallyFrame) : Frame (fp.regs + fp.tally) s (State.bufferFrame s type f) := by
  unfold State.bufferFrame
  repeat' first
    | with_reducible exact Frame.refl _ _
    | (with_reducible apply Frame.step (State.raiseFlag_frame ..) rfl ?_)
    | (with_reducible apply Frame.step (State.wr_frame ..) rfl ?_)
    | (with_reducible apply Frame.step (State.updTally_frame ..) rfl ?_)
    | split
    | (dsimp only; split)

theorem State.goodFrame_frame {k : Nat} (s : State) (f : TallyFrame) (g : State → State)
    (hk : fpSub (fp.regs + fp.sent) k = true) (hg : Frame k s (g s)) : Frame k s (State.goodFrame s f g) := by
  unfold State.goodFrame
  split
  · exact Frame.refl _ _
  · split
    · exact hg
    · exact Frame.step (State.err_frame ..) hk (Frame.refl _ _)

theorem State.tallyLog_frame (s : State) (kind : Nat) (vals : List Nat) : Frame (fp.tally) s (State.tallyLog s kind vals) := by
  unfold State.tallyLog
  repeat' first
    | with_reducible exact Frame.refl _ _
    | (with_reducible apply Frame.step (State.updTally_frame ..) rfl ?_)
    | (with_reducible apply Frame.step (log_frame ..) rfl ?_)
    | split
    | (dsimp only; split)

theorem State.takeIndex_frame (s : State) : Frame (fp.tally) s (State.takeIndex s) := by
  unfold State.takeIndex
  repeat' first
    | with_reducible exact Frame.refl _ _
    | (with_reducible apply Frame.step (State.updTally_frame ..) rfl ?_)
    | (with_reducible apply Frame.step (State.tallyLog_frame ..) rfl ?_)
    | (with_reducible apply Frame.ite ?_ ?_)
    | split
    | (dsimp only; split)

theorem State.signedBody_frame (s : State) : Frame (fp.fresh) s (State.signedBody s).2 := by
  unfold State.signedBody
  repeat' first
    | with_reducible exact Frame.refl _ _
    | (with_reducible apply Frame.step (State.free_frame ..) rfl ?_)
    | (with_reducible apply Frame.step (status_frame ..) rfl ?_)
    | split
    | (dsimp only; split)
    | (refine Frame.step (State.free_pair (by assumption)) rfl ?_)

theorem State.signedBody_pair {s : State} {s' : State} {v0 : List Byte} (hx : State.signedBody s = (v0, s')) : Frame (fp.fresh) s s' := by
  have := State.signedBody_frame s
  rw [hx] at this; exact this

theorem intervalSign_frame (s : State) (mwhImp mwhRev : Nat) : Frame (fp.tally + fp.sent + fp.fresh) s (intervalSign s mwhImp mwhRev) := by
  unfold intervalSign
  repeat' first
    | with_reducible exact Frame.refl _ _
    | (with_reducible apply Frame.step (State.fromTally_frame ..) rfl ?_)
    | (with_reducible apply Frame.step (State.tallyLog_frame ..) rfl ?_)
    | (with_reducible apply Frame.step (State.takeIndex_frame ..) rfl ?_)
    | (with_reducible apply Frame.step (State.signedBody_frame ..) rfl ?_)
    | (refine Frame.step (State.signedBody_pair (by assumption)) rfl ?_)
    | (with_reducible apply Frame.step (State.updTally_frame ..) rfl ?_)
    | (with_reducible apply Frame.ite ?_ ?_)
    | split
    | (dsimp only; split)

theorem State.showGen_frame (s : State) : Frame (fp.regs + fp.sent) s (State.showGen s) := by
  unfold State.showGen
  repeat' first
    | with_reducible exact Frame.refl _ _
    | (with_reducible apply Frame.step (State.wr_frame ..) rfl ?_)
    | (with_reducible apply Frame.step (State.setFlag_frame ..) rfl ?_)
    | (with_reducible apply Frame.step (State.err_frame ..) rfl ?_)
    | (with_reducible apply Frame.ite ?_ ?_)
    | split
    | (dsimp only; split)

theorem State.episodes_frame (s : State) (old new : Nat) : Frame (fp.tally) s (State.episodes s old new) := by
  unfold State.episodes
  repeat' first
    | with_reducible exact Frame.refl _ _
    | (with_reducible apply Frame.step (State.tallyLog_frame ..) rfl ?_)
    | (with_reducible apply Frame.ite ?_ ?_)
    | (with_reducible apply Frame.foldl _ _ ?_ (fun s x => ?_))
    | split
    | (dsimp only; split)

theorem reading_frame (s : State) (f : TallyFrame) : Frame (fp.regs + fp.tally + fp.sent) s (reading s f) := by
  unfold reading
  repeat' first
    | with_reducible exact Frame.refl _ _
    | (with_reducible apply Frame.step (State.setFlag_frame ..) rfl ?_)
    | (with_reducible apply Frame.step (State.clrAll_frame ..) rfl ?_)
    | (with_reducible apply Frame.step (State.wr64_frame ..) rfl ?_)
    | (with_reducible apply Frame.step (State.errs_frame ..) rfl ?_)
    | (with_reducible apply Frame.step (State.showGen_frame ..) rfl ?_)
    | (with_reducible apply Frame.step (State.episodes_frame ..) rfl ?_)
    | (with_reducible apply Frame.step (State.wr_frame ..) rfl ?_)
    | (with_reducible apply Frame.step (State.updTally_frame ..) rfl ?_)
    | (refine State.goodFrame_frame _ _ _ rfl ?_)
    | (with_reducible apply Frame.ite ?_ ?_)
    | split
    | (dsimp only; split)

theorem signed_frame (s : State) (f : TallyFrame) : Frame (fp.regs + fp.tally + fp.sent) s (signed s f) := by
  unfold signed
  repeat' first
    | with_reducible exact Frame.refl _ _
    | (with_reducible apply Frame.step (State.takeIndex_frame ..) rfl ?_)
    | (with_reducible apply Frame.step (State.updTally_frame ..) rfl ?_)
    | (with_reducible apply Frame.step (State.bufferFrame_frame ..) rfl ?_)
    | (with_reducible apply Frame.ite ?_ ?_)
    | split
    | (dsimp only; split)
    | (refine State.goodFrame_frame _ _ _ rfl ?_)

theorem log_frame (s : State) (f : TallyFrame) : Frame (fp.regs + fp.tally + fp.sent) s (log s f) := by
  unfold log
  repeat' first
    | with_reducible exact Frame.refl _ _
    | (with_reducible apply Frame.step (State.bufferFrame_frame ..) rfl ?_)
    | split
    | (dsimp only; split)
    | (refine State.goodFrame_frame _ _ _ rfl ?_)

theorem cert_frame (s : State) (f : TallyFrame) : Frame (fp.regs + fp.tally + fp.sent) s (cert s f) := by
  unfold cert
  repeat' first
    | with_reducible exact Frame.refl _ _
    | (with_reducible apply Frame.step (State.bufferFrame_frame ..) rfl ?_)
    | split
    | (dsimp only; split)
    | (refine State.goodFrame_frame _ _ _ rfl ?_)

theorem status_frame (s : State) (f : TallyFrame) : Frame (fp.regs + fp.tally + fp.sent) s (status s f) := by
  unfold status
  repeat' first
    | with_reducible exact Frame.refl _ _
    | (with_reducible apply Frame.step (State.bufferFrame_frame ..) rfl ?_)
    | (with_reducible apply Frame.step (State.err_frame ..) rfl ?_)
    | (with_reducible apply Frame.ite ?_ ?_)
    | split
    | (dsimp only; split)
    | (refine State.goodFrame_frame _ _ _ rfl ?_)

theorem tallyLinkTimeout_frame (s : State) : Frame (fp.regs + fp.tally + fp.sent) s (tallyLinkTimeout s) := by
  unfold tallyLinkTimeout
  repeat' first
    | with_reducible exact Frame.refl _ _
    | (with_reducible apply Frame.step (State.setFlag_frame ..) rfl ?_)
    | (with_reducible apply Frame.step (State.err_frame ..) rfl ?_)
    | (with_reducible apply Frame.step (State.updTally_frame ..) rfl ?_)
    | (with_reducible apply Frame.ite ?_ ?_)
    | split
    | (dsimp only; split)

theorem reqSigned_frame (s : State) : Frame (fp.tally + fp.sent) s (reqSigned s) := by
  unfold reqSigned
  repeat' first
    | with_reducible exact Frame.refl _ _
    | (with_reducible apply Frame.step (State.toTally_frame ..) rfl ?_)
    | (with_reducible apply Frame.step (State.fromTally_frame ..) rfl ?_)
    | (with_reducible apply Frame.step (State.updTally_frame ..) rfl ?_)
    | (with_reducible apply Frame.ite ?_ ?_)
    | split
    | (dsimp only; split)

theorem reqLog_frame (s : State) : Frame (fp.regs + fp.tally + fp.sent) s (reqLog s) := by
  unfold reqLog
  repeat' first
    | with_reducible exact Frame.refl _ _
    | (with_reducible apply Frame.step (State.toTally_frame ..) rfl ?_)
    | (with_reducible apply Frame.step (log_frame ..) rfl ?_)
    | (with_reducible apply Frame.step (State.fromTally_frame ..) rfl ?_)
    | (with_reducible apply Frame.ite ?_ ?_)
    | split
    | (dsimp only; split)

theorem reqCert_frame (s : State) : Frame (fp.tally + fp.sent) s (reqCert s) := by
  unfold reqCert
  repeat' first
    | with_reducible exact Frame.refl _ _
    | (with_reducible apply Frame.step (State.toTally_frame ..) rfl ?_)
    | (with_reducible apply Frame.step (State.fromTally_frame ..) rfl ?_)
    | (with_reducible apply Frame.ite ?_ ?_)
    | split
    | (dsimp only; split)

theorem State.pairInfo_frame (s : State) (powerUp : Bool) : Frame (fp.regs + fp.tiles + fp.sites + fp.parts + fp.rmbs + fp.sps + fp.ctls + fp.nor + fp.tally + fp.faultMap + fp.faultGen + fp.faultLog + fp.faultSeq + fp.sent + fp.fresh) s (State.pairInfo s powerUp) := by
  unfold State.pairInfo
  repeat' first
    | with_reducible exact Frame.refl _ _
    | (with_reducible apply Frame.step (State.toTally_frame ..) rfl ?_)
    | (with_reducible apply Frame.step (State.powerUp_frame ..) rfl ?_)
    | (with_reducible apply Frame.step (State.updTally_frame ..) rfl ?_)
    | (with_reducible apply Frame.step (State.tallyLog_frame ..) rfl ?_)
    | (with_reducible apply Frame.ite ?_ ?_)
    | split
    | (dsimp only; split)

theorem tallyHoldupSave_frame (s : State) : Frame (fp.tally) s (tallyHoldupSave s) := by
  unfold tallyHoldupSave
  repeat' first
    | with_reducible exact Frame.refl _ _
    | (with_reducible apply Frame.step (State.tallyLog_frame ..) rfl ?_)
    | (with_reducible apply Frame.step (State.updTally_frame ..) rfl ?_)
    | (with_reducible apply Frame.ite ?_ ?_)
    | split
    | (dsimp only; split)

theorem sealOpen_frame (s : State) : Frame (fp.regs + fp.cores + fp.parts + fp.tally) s (sealOpen s) := by
  unfold sealOpen
  repeat' first
    | with_reducible exact Frame.refl _ _
    | (with_reducible apply Frame.step (State.sealOpen_frame ..) rfl ?_)
    | (with_reducible apply Frame.step (State.updTally_frame ..) rfl ?_)
    | (with_reducible apply Frame.step (State.tallyLog_frame ..) rfl ?_)
    | (with_reducible apply Frame.ite ?_ ?_)
    | split
    | (dsimp only; split)

theorem sealClosed_frame (s : State) : Frame (fp.regs + fp.cores + fp.parts + fp.tally) s (sealClosed s) := by
  unfold sealClosed
  repeat' first
    | with_reducible exact Frame.refl _ _
    | (with_reducible apply Frame.step (State.sealOpen_frame ..) rfl ?_)
    | (with_reducible apply Frame.step (sealOpen_frame ..) rfl ?_)
    | (with_reducible apply Frame.step (State.updTally_frame ..) rfl ?_)
    | (with_reducible apply Frame.step (State.tallyLog_frame ..) rfl ?_)
    | (with_reducible apply Frame.ite ?_ ?_)
    | split
    | (dsimp only; split)

theorem fwChange_frame (s : State) (bytes : List Byte) : Frame (fp.regs + fp.cores + fp.parts + fp.tally) s (fwChange s bytes) := by
  unfold fwChange
  repeat' first
    | with_reducible exact Frame.refl _ _
    | (with_reducible apply Frame.step (State.sealOpen_frame ..) rfl ?_)
    | (with_reducible apply Frame.step (sealOpen_frame ..) rfl ?_)
    | (with_reducible apply Frame.step (State.tallyLog_frame ..) rfl ?_)
    | (with_reducible apply Frame.step (State.updTally_frame ..) rfl ?_)
    | (with_reducible apply Frame.ite ?_ ?_)
    | split
    | (dsimp only; split)

theorem shareUpdate_frame (s : State) (pinMwh : Nat) : Frame (fp.regs + fp.parts + fp.tally + fp.fresh) s (shareUpdate s pinMwh) := by
  unfold shareUpdate
  repeat' first
    | with_reducible exact Frame.refl _ _
    | (with_reducible apply Frame.step (State.setFlag_frame ..) rfl ?_)
    | (with_reducible apply Frame.step (State.updTally_frame ..) rfl ?_)
    | (with_reducible apply Frame.step (State.freeQuot_frame ..) rfl ?_)
    | (with_reducible apply Frame.step (State.updPart_frame ..) rfl ?_)
    | (with_reducible apply Frame.ite ?_ ?_)
    | (with_reducible apply Frame.foldl _ _ ?_ (fun s x => ?_))
    | split
    | (dsimp only; split)
    | (refine Frame.step (State.freeQuot_pair (by assumption)) rfl ?_)

end Sys2Proof.Machine
end

