-- ==== Sys2Proof/Laws/FrameBringup.lean ====
section
/-! SUPPORT. Frames of the operations of Machine/Bringup.lean. -/

namespace Sys2Proof.Machine

theorem State.replayNor_frame (s : State) : Frame (fp.regs + fp.nor + fp.sent) s (State.replayNor s) := by
  unfold State.replayNor
  repeat' first
    | with_reducible exact Frame.refl _ _
    | (with_reducible apply Frame.step (State.updNor_frame ..) rfl ?_)
    | (with_reducible apply Frame.step (State.wr_frame ..) rfl ?_)
    | (with_reducible apply Frame.step (State.setFlag_frame ..) rfl ?_)
    | (with_reducible apply Frame.step (State.err_frame ..) rfl ?_)
    | (with_reducible apply Frame.step (State.journal_frame ..) rfl ?_)
    | (with_reducible apply Frame.ite ?_ ?_)
    | (with_reducible apply Frame.foldl _ _ ?_ (fun s x => ?_))
    | split
    | (dsimp only; split)

theorem State.checkTrial_frame (s : State) (kind : Nat) : Frame (fp.regs + fp.nor + fp.sent) s (State.checkTrial s kind) := by
  unfold State.checkTrial
  repeat' first
    | with_reducible exact Frame.refl _ _
    | (with_reducible apply Frame.step (State.setSlot_frame ..) rfl ?_)
    | (with_reducible apply Frame.step (State.ssbErr_frame ..) rfl ?_)
    | (with_reducible apply Frame.ite ?_ ?_)
    | split
    | (dsimp only; split)

theorem State.settleTrials_frame (s : State) (pass : Bool) : Frame (fp.regs + fp.nor + fp.sent) s (State.settleTrials s pass) := by
  unfold State.settleTrials
  repeat' first
    | with_reducible exact Frame.refl _ _
    | (with_reducible apply Frame.step (State.trialGood_frame ..) rfl ?_)
    | (with_reducible apply Frame.step (State.setSlot_frame ..) rfl ?_)
    | (with_reducible apply Frame.step (State.ssbErr_frame ..) rfl ?_)
    | (with_reducible apply Frame.ite ?_ ?_)
    | (with_reducible apply Frame.foldl _ _ ?_ (fun s x => ?_))
    | split
    | (dsimp only; split)

theorem State.bootChain_frame (s : State) : Frame (fp.regs + fp.nor + fp.sent) s (State.bootChain s) := by
  unfold State.bootChain
  repeat' first
    | with_reducible exact Frame.refl _ _
    | (with_reducible apply Frame.step (State.checkTrial_frame ..) rfl ?_)
    | (with_reducible apply Frame.step (State.settleTrials_frame ..) rfl ?_)
    | (with_reducible apply Frame.step (State.ssbErr_frame ..) rfl ?_)
    | (with_reducible apply Frame.step (State.wr_frame ..) rfl ?_)
    | (with_reducible apply Frame.step (State.setFlag_frame ..) rfl ?_)
    | (with_reducible apply Frame.step (State.err_frame ..) rfl ?_)
    | (with_reducible apply Frame.ite ?_ ?_)
    | (with_reducible apply Frame.foldl _ _ ?_ (fun s x => ?_))
    | split
    | (dsimp only; split)

theorem State.countBoot_frame (s : State) : Frame (fp.regs + fp.ssbs + fp.nor + fp.fresh) s (State.countBoot s) := by
  unfold State.countBoot
  repeat' first
    | with_reducible exact Frame.refl _ _
    | (with_reducible apply Frame.step (State.journal_frame ..) rfl ?_)
    | (with_reducible apply Frame.step (State.updSsb_frame ..) rfl ?_)
    | (with_reducible apply Frame.step (State.wr_frame ..) rfl ?_)
    | (with_reducible apply Frame.step (State.free_frame ..) rfl ?_)
    | (with_reducible apply Frame.ite ?_ ?_)
    | (with_reducible apply Frame.foldl _ _ ?_ (fun s x => ?_))
    | split
    | (dsimp only; split)
    | (refine Frame.step (State.free_pair (by assumption)) rfl ?_)

theorem State.bootLms_frame (s : State) : Frame (fp.regs + fp.ssbs + fp.nor + fp.sent) s (State.bootLms s) := by
  unfold State.bootLms
  repeat' first
    | with_reducible exact Frame.refl _ _
    | (with_reducible apply Frame.step (State.updSsb_frame ..) rfl ?_)
    | (with_reducible apply Frame.step (State.reserveBlock_frame ..) rfl ?_)
    | (with_reducible apply Frame.ite ?_ ?_)
    | (with_reducible apply Frame.foldl _ _ ?_ (fun s x => ?_))
    | split
    | (dsimp only; split)

theorem State.applyPolicy_frame (s : State) (g a : Nat) : Frame (fp.regs) s (State.applyPolicy s g a) := by
  unfold State.applyPolicy
  repeat' first
    | with_reducible exact Frame.refl _ _
    | (with_reducible apply Frame.step (State.wr_frame ..) rfl ?_)
    | (with_reducible apply Frame.ite ?_ ?_)
    | split
    | (dsimp only; split)

theorem State.setDefects_frame (s : State) (e : Nat × Nat × List Nat) : Frame (fp.regs) s (State.setDefects s e) := by
  unfold State.setDefects
  repeat' first
    | with_reducible exact Frame.refl _ _
    | (with_reducible apply Frame.step (State.wr_frame ..) rfl ?_)
    | (with_reducible apply Frame.step (State.applyPolicy_frame ..) rfl ?_)
    | (with_reducible apply Frame.ite ?_ ?_)
    | split
    | (dsimp only; split)

theorem State.loadDefects_frame (s : State) : Frame (fp.regs) s (State.loadDefects s) := by
  unfold State.loadDefects
  repeat' first
    | with_reducible exact Frame.refl _ _
    | (with_reducible apply Frame.step (State.setDefects_frame ..) rfl ?_)
    | (with_reducible apply Frame.foldl _ _ ?_ (fun s x => ?_))
    | split
    | (dsimp only; split)

theorem State.finding_frame (s : State) (cls loc unit : Nat) (ent : Nat × Nat × Nat) : Frame (fp.regs + fp.parts + fp.nor + fp.faultMap + fp.faultGen + fp.faultLog + fp.faultSeq + fp.sent + fp.fresh) s (State.finding s cls loc unit ent) := by
  unfold State.finding
  repeat' first
    | with_reducible exact Frame.refl _ _
    | (with_reducible apply Frame.step (State.inc_frame ..) rfl ?_)
    | (with_reducible apply Frame.step (State.showDead_frame ..) rfl ?_)
    | (with_reducible apply Frame.step (State.record_frame ..) rfl ?_)
    | (with_reducible apply Frame.foldl _ _ ?_ (fun s x => ?_))
    | (with_reducible apply Frame.ite ?_ ?_)
    | split
    | (dsimp only; split)

theorem State.tests_frame (s : State) (d : BringupData) : Frame (fp.regs + fp.parts + fp.nor + fp.faultMap + fp.faultGen + fp.faultLog + fp.faultSeq + fp.sent + fp.fresh) s (State.tests s d) := by
  unfold State.tests
  repeat' first
    | with_reducible exact Frame.refl _ _
    | (with_reducible apply Frame.step (State.loadDefects_frame ..) rfl ?_)
    | (with_reducible apply Frame.step (State.finding_frame ..) rfl ?_)
    | (with_reducible apply Frame.step (State.inc_frame ..) rfl ?_)
    | (with_reducible apply Frame.foldl _ _ ?_ (fun s x => ?_))
    | (with_reducible apply Frame.ite ?_ ?_)
    | split
    | (dsimp only; split)

theorem State.mapCore_frame (s : State) (g : Nat) : Frame (fp.regs + fp.cores) s (State.mapCore s g) := by
  unfold State.mapCore
  repeat' first
    | with_reducible exact Frame.refl _ _
    | (with_reducible apply Frame.step (State.updCore_frame _ _ _ ?_) rfl ?_)
    | (with_reducible apply Frame.step (State.setFlag_frame ..) rfl ?_)
    | (with_reducible apply Frame.ite ?_ ?_)
    | split
    | (dsimp only; split)
    | (intro h; (try dsimp only); repeat' (first | with_reducible exact h _ | with_reducible apply Core.memWf_write | with_reducible apply Core.memWf_setByte | exact Core.memWf_of (h _) rfl rfl rfl | exact Core.memWf_of (Core.memWf_write _ _ (h _)) rfl rfl rfl | exact (Core.memWf_iff _).2 ⟨Table.wf_filter 0 _ ((Core.memWf_iff _).1 (h _)).1, ((Core.memWf_iff _).1 (h _)).2⟩ | exact (Core.memWf_iff _).2 ⟨((Core.memWf_iff _).1 (h _)).1, ((Core.memWf_iff _).1 (h _)).2⟩ | split))

theorem State.mapSaddle_frame (s : State) (t e : Nat) : Frame (fp.regs + fp.saddles + fp.sent) s (State.mapSaddle s t e) := by
  unfold State.mapSaddle
  repeat' first
    | with_reducible exact Frame.refl _ _
    | (with_reducible apply Frame.step (State.updSaddle_frame ..) rfl ?_)
    | (with_reducible apply Frame.step (State.setFlag_frame ..) rfl ?_)
    | (with_reducible apply Frame.step (State.wr_frame ..) rfl ?_)
    | (with_reducible apply Frame.step (State.err_frame ..) rfl ?_)
    | (with_reducible apply Frame.ite ?_ ?_)
    | (with_reducible apply Frame.foldl _ _ ?_ (fun s x => ?_))
    | split
    | (dsimp only; split)

theorem State.mapSite_frame (s : State) (m : Nat) : Frame (fp.regs + fp.sites + fp.parts + fp.sent) s (State.mapSite s m) := by
  unfold State.mapSite
  repeat' first
    | with_reducible exact Frame.refl _ _
    | (with_reducible apply Frame.step (State.updChan_frame ..) rfl ?_)
    | (with_reducible apply Frame.step (State.failChannels_frame ..) rfl ?_)
    | (with_reducible apply Frame.step (State.setFlag_frame ..) rfl ?_)
    | (with_reducible apply Frame.step (State.wr_frame ..) rfl ?_)
    | (with_reducible apply Frame.step (State.updSite_frame ..) rfl ?_)
    | (with_reducible apply Frame.foldl _ _ ?_ (fun s x => ?_))
    | (with_reducible apply Frame.ite ?_ ?_)
    | split
    | (dsimp only; split)

theorem State.applyMap_frame (s : State) : Frame (fp.regs + fp.cores + fp.saddles + fp.sites + fp.parts + fp.sent) s (State.applyMap s) := by
  unfold State.applyMap
  repeat' first
    | with_reducible exact Frame.refl _ _
    | (with_reducible apply Frame.step (State.mapCore_frame ..) rfl ?_)
    | (with_reducible apply Frame.step (State.mapSaddle_frame ..) rfl ?_)
    | (with_reducible apply Frame.step (State.mapSite_frame ..) rfl ?_)
    | (with_reducible apply Frame.foldl _ _ ?_ (fun s x => ?_))
    | (with_reducible apply Frame.ite ?_ ?_)
    | split
    | (dsimp only; split)

theorem State.defaultProgram_frame (s : State) (pg : Page) (tile : Bool) : Frame (fp.regs + fp.parts + fp.rmbs + fp.nor + fp.sent + fp.fresh) s (State.defaultProgram s pg tile) := by
  unfold State.defaultProgram
  repeat' first
    | with_reducible exact Frame.refl _ _
    | (with_reducible apply Frame.step (State.startSrc_frame ..) rfl ?_)
    | (with_reducible apply Frame.step (State.armTimer_frame ..) rfl ?_)
    | (with_reducible apply Frame.step (State.setFlag_frame ..) rfl ?_)
    | (with_reducible apply Frame.step (State.wr_frame ..) rfl ?_)
    | (with_reducible apply Frame.foldl _ _ ?_ (fun s x => ?_))
    | split
    | (dsimp only; split)

theorem State.configPorts_frame (s : State) : Frame (fp.regs) s (State.configPorts s) := by
  unfold State.configPorts
  repeat' first
    | with_reducible exact Frame.refl _ _
    | (with_reducible apply Frame.step (State.wr_frame ..) rfl ?_)
    | (with_reducible apply Frame.step (State.setFlag_frame ..) rfl ?_)
    | (with_reducible apply Frame.ite ?_ ?_)
    | (with_reducible apply Frame.foldl _ _ ?_ (fun s x => ?_))
    | split
    | (dsimp only; split)

theorem State.reportReady_frame (s : State) (ms : Nat) : Frame (fp.regs + fp.ctls) s (State.reportReady s ms) := by
  unfold State.reportReady
  repeat' first
    | with_reducible exact Frame.refl _ _
    | (with_reducible apply Frame.step (State.raiseFlag_frame ..) rfl ?_)
    | (with_reducible apply Frame.step (State.wr_frame ..) rfl ?_)
    | (with_reducible apply Frame.step (State.updCtl_frame ..) rfl ?_)
    | (with_reducible apply Frame.foldl _ _ ?_ (fun s x => ?_))
    | (with_reducible apply Frame.ite ?_ ?_)
    | split
    | (dsimp only; split)

theorem bringup_frame (s : State) (d : BringupData) : Frame (fp.regs + fp.cores + fp.tiles + fp.saddles + fp.sites + fp.parts + fp.rmbs + fp.sps + fp.ctls + fp.ssbs + fp.nor + fp.tally + fp.faultMap + fp.faultGen + fp.faultLog + fp.faultSeq + fp.sent + fp.fresh) s (bringup s d) := by
  unfold bringup
  repeat' first
    | with_reducible exact Frame.refl _ _
    | (with_reducible apply Frame.step (State.setFlag_frame ..) rfl ?_)
    | (with_reducible apply Frame.step (State.replayNor_frame ..) rfl ?_)
    | (with_reducible apply Frame.step (State.bootChain_frame ..) rfl ?_)
    | (with_reducible apply Frame.step (State.countBoot_frame ..) rfl ?_)
    | (with_reducible apply Frame.step (State.bootLms_frame ..) rfl ?_)
    | (with_reducible apply Frame.step (State.tests_frame ..) rfl ?_)
    | (with_reducible apply Frame.step (State.applyMap_frame ..) rfl ?_)
    | (with_reducible apply Frame.step (State.defaultProgram_frame ..) rfl ?_)
    | (with_reducible apply Frame.step (State.configPorts_frame ..) rfl ?_)
    | (with_reducible apply Frame.step (State.pairInfo_frame ..) rfl ?_)
    | (with_reducible apply Frame.step (State.reportReady_frame ..) rfl ?_)
    | (with_reducible apply Frame.ite ?_ ?_)
    | (with_reducible apply Frame.foldl _ _ ?_ (fun s x => ?_))
    | split
    | (dsimp only; split)

end Sys2Proof.Machine
end

