-- ==== Sys2Proof/Laws/FrameView.lean ====
section
/-! SUPPORT. Frames of the operations of Machine/View.lean. -/

namespace Sys2Proof.Machine

theorem State.latchRead_frame (s : State) (pg : Page) (off : Nat) : Frame (fp.regs + fp.nor) s (State.latchRead s pg off) := by
  unfold State.latchRead
  repeat' first
    | with_reducible exact Frame.refl _ _
    | (with_reducible apply Frame.step (State.wr_frame ..) rfl ?_)
    | (with_reducible apply Frame.step (State.journal_frame ..) rfl ?_)
    | (with_reducible apply Frame.ite ?_ ?_)
    | (with_reducible apply Frame.foldl _ _ ?_ (fun s x => ?_))
    | split
    | (dsimp only; split)

theorem State.readReg_frame (s : State) (addr : Nat) : Frame (fp.regs + fp.nor) s (State.readReg s addr).2.2 := by
  unfold State.readReg
  repeat' first
    | with_reducible exact Frame.refl _ _
    | (with_reducible apply Frame.step (State.latchRead_frame ..) rfl ?_)
    | (with_reducible apply Frame.ite ?_ ?_)
    | split
    | (dsimp only; split)

theorem State.readReg_pair {s : State} {addr : Nat} {s' : State} {v0 : Nat} {v1 : Nat} (hx : State.readReg s addr = (v0, v1, s')) : Frame (fp.regs + fp.nor) s s' := by
  have := State.readReg_frame s addr
  rw [hx] at this; exact this

end Sys2Proof.Machine
end

