-- ==== Sys2Proof/Laws/FrameMmio.lean ====
section
/-! SUPPORT. Frames of the operations of Machine/Mmio.lean. -/

namespace Sys2Proof.Machine

theorem errInject_frame (s : State) (pg : Page) (v : Nat) : Frame (fp.regs + fp.sent) s (errInject s pg v) := by
  unfold errInject
  repeat' first
    | with_reducible exact Frame.refl _ _
    | (with_reducible apply Frame.step (State.errs_frame ..) rfl ?_)
    | (with_reducible apply Frame.ite ?_ ?_)
    | split
    | (dsimp only; split)

theorem firstValid_frame (s : State) (pg : Page) : Frame (fp.regs) s (firstValid s pg) := by
  unfold firstValid
  repeat' first
    | with_reducible exact Frame.refl _ _
    | (with_reducible apply Frame.step (State.clrAll_frame ..) rfl ?_)
    | (with_reducible apply Frame.ite ?_ ?_)
    | split
    | (dsimp only; split)

theorem lock_frame (s : State) (pg : Page) : Frame (fp.regs) s (lock s pg) := by
  unfold lock
  repeat' first
    | with_reducible exact Frame.refl _ _
    | (with_reducible apply Frame.step (State.setFlag_frame ..) rfl ?_)
    | (with_reducible apply Frame.ite ?_ ?_)
    | split
    | (dsimp only; split)

theorem injLock_frame (s : State) (pg : Page) : Frame (fp.regs) s (injLock s pg) := by
  unfold injLock
  repeat' first
    | with_reducible exact Frame.refl _ _
    | (with_reducible apply Frame.step (State.setFlag_frame ..) rfl ?_)
    | (with_reducible apply Frame.ite ?_ ?_)
    | split
    | (dsimp only; split)

theorem budget_frame (s : State) (t v : Nat) : Frame (fp.regs) s (budget s t v) := by
  unfold budget
  repeat' first
    | with_reducible exact Frame.refl _ _
    | (with_reducible apply Frame.step (State.setFlag_frame ..) rfl ?_)
    | (with_reducible apply Frame.step (State.wr_frame ..) rfl ?_)
    | (with_reducible apply Frame.ite ?_ ?_)
    | split
    | (dsimp only; split)

theorem arrayDefectPolicy_frame (s : State) (g v : Nat) : Frame (fp.regs) s (arrayDefectPolicy s g v) := by
  unfold arrayDefectPolicy
  repeat' first
    | with_reducible exact Frame.refl _ _
    | (with_reducible apply Frame.step (State.setFlag_frame ..) rfl ?_)
    | (with_reducible apply Frame.step (State.wr_frame ..) rfl ?_)
    | (with_reducible apply Frame.step (State.applyPolicy_frame ..) rfl ?_)
    | (with_reducible apply Frame.ite ?_ ?_)
    | (with_reducible apply Frame.foldl _ _ ?_ (fun s x => ?_))
    | split
    | (dsimp only; split)

theorem progBase_frame (s : State) (g v : Nat) : Frame (fp.regs) s (progBase s g v) := by
  unfold progBase
  repeat' first
    | with_reducible exact Frame.refl _ _
    | (with_reducible apply Frame.step (State.setFlag_frame ..) rfl ?_)
    | (with_reducible apply Frame.step (State.wr_frame ..) rfl ?_)
    | (with_reducible apply Frame.ite ?_ ?_)
    | split
    | (dsimp only; split)

theorem State.writeCode_frame (s : State) (pg : Page) (f : Field) (v : Nat) : Frame (fp.regs) s (State.writeCode s pg f v) := by
  unfold State.writeCode
  repeat' first
    | with_reducible exact Frame.refl _ _
    | (with_reducible apply Frame.step (State.wr_frame ..) rfl ?_)
    | (with_reducible apply Frame.ite ?_ ?_)
    | split
    | (dsimp only; split)

theorem State.portEn_frame (s : State) (n v : Nat) : Frame (fp.regs + fp.parts + fp.ports + fp.writes + fp.reads + fp.sent) s (State.portEn s n v) := by
  unfold State.portEn
  repeat' first
    | with_reducible exact Frame.refl _ _
    | (with_reducible apply Frame.step (State.wr_frame ..) rfl ?_)
    | (with_reducible apply Frame.step (State.portOff_frame ..) rfl ?_)
    | (with_reducible apply Frame.step (State.updPort_frame ..) rfl ?_)
    | (with_reducible apply Frame.ite ?_ ?_)
    | split
    | (dsimp only; split)

theorem State.putTickgen_frame (s : State) (p : Nat) (f : Field) (v : Nat) : Frame (fp.regs + fp.tiles + fp.sites + fp.parts + fp.sent) s (State.putTickgen s p f v) := by
  unfold State.putTickgen
  repeat' first
    | with_reducible exact Frame.refl _ _
    | (with_reducible apply Frame.step (period_frame ..) rfl ?_)
    | (with_reducible apply Frame.step (stretchCeil_frame ..) rfl ?_)
    | (with_reducible apply Frame.step (create_frame ..) rfl ?_)
    | (with_reducible apply Frame.step (destroy_frame ..) rfl ?_)
    | (with_reducible apply Frame.step (State.writeCode_frame ..) rfl ?_)
    | (with_reducible apply Frame.ite ?_ ?_)
    | split
    | (dsimp only; split)

theorem State.putAdm_frame (s : State) (p : Nat) (f : Field) (v : Nat) : Frame (fp.regs + fp.parts) s (State.putAdm s p f v) := by
  unfold State.putAdm
  repeat' first
    | with_reducible exact Frame.refl _ _
    | (with_reducible apply Frame.step (ventCmdBind_frame ..) rfl ?_)
    | (with_reducible apply Frame.step (ventCmdUnbind_frame ..) rfl ?_)
    | (with_reducible apply Frame.step (State.updVent_frame ..) rfl ?_)
    | (with_reducible apply Frame.step (State.writeCode_frame ..) rfl ?_)
    | (with_reducible apply Frame.ite ?_ ?_)
    | split
    | (dsimp only; split)

theorem State.putCohc_frame (s : State) (p : Nat) (f : Field) (v : Nat) : Frame (fp.regs + fp.parts + fp.sent) s (State.putCohc s p f v) := by
  unfold State.putCohc
  repeat' first
    | with_reducible exact Frame.refl _ _
    | (with_reducible apply Frame.step (State.updPart_frame ..) rfl ?_)
    | (with_reducible apply Frame.step (intAddr_frame ..) rfl ?_)
    | (with_reducible apply Frame.step (State.writeCode_frame ..) rfl ?_)
    | (with_reducible apply Frame.step (State.linkCheck_frame ..) rfl ?_)
    | (with_reducible apply Frame.ite ?_ ?_)
    | split
    | (dsimp only; split)

theorem State.putSite_frame (s : State) (m : Nat) (f : Field) (v : Nat) : Frame (fp.regs + fp.sites + fp.parts + fp.sent) s (State.putSite s m f v) := by
  unfold State.putSite
  repeat' first
    | with_reducible exact Frame.refl _ _
    | (with_reducible apply Frame.step (State.writeCode_frame ..) rfl ?_)
    | (with_reducible apply Frame.step (regCmdWrite_frame ..) rfl ?_)
    | (with_reducible apply Frame.step (regCmdInvalidate_frame ..) rfl ?_)
    | (with_reducible apply Frame.step (setKind_frame ..) rfl ?_)
    | (with_reducible apply Frame.step (State.setFlag_frame ..) rfl ?_)
    | (with_reducible apply Frame.step (State.updSite_frame ..) rfl ?_)
    | (with_reducible apply Frame.ite ?_ ?_)
    | split
    | (dsimp only; split)

theorem State.putRmb_frame (s : State) (pg : Page) (f : Field) (v : Nat) : Frame (fp.regs + fp.parts + fp.rmbs + fp.nor + fp.sent + fp.fresh) s (State.putRmb s pg f v) := by
  unfold State.putRmb
  repeat' first
    | with_reducible exact Frame.refl _ _
    | (with_reducible apply Frame.step (refSel_frame ..) rfl ?_)
    | (with_reducible apply Frame.step (swStart_frame ..) rfl ?_)
    | (with_reducible apply Frame.step (calStart_frame ..) rfl ?_)
    | (with_reducible apply Frame.step (State.armTimer_frame ..) rfl ?_)
    | (with_reducible apply Frame.step (State.writeCode_frame ..) rfl ?_)
    | (with_reducible apply Frame.ite ?_ ?_)
    | split
    | (dsimp only; split)

theorem State.putPort_frame (s : State) (n : Nat) (f : Field) (v : Nat) : Frame (fp.regs + fp.parts + fp.ports + fp.writes + fp.reads + fp.sent) s (State.putPort s n f v) := by
  unfold State.putPort
  repeat' first
    | with_reducible exact Frame.refl _ _
    | (with_reducible apply Frame.step (State.portEn_frame ..) rfl ?_)
    | (with_reducible apply Frame.step (retrain_frame ..) rfl ?_)
    | (with_reducible apply Frame.step (State.writeCode_frame ..) rfl ?_)
    | (with_reducible apply Frame.step (State.linkCheck_frame ..) rfl ?_)
    | (with_reducible apply Frame.ite ?_ ?_)
    | split
    | (dsimp only; split)

theorem State.putTally_frame (s : State) (f : Field) (v : Nat) : Frame (fp.regs + fp.tally + fp.sent) s (State.putTally s f v) := by
  unfold State.putTally
  repeat' first
    | with_reducible exact Frame.refl _ _
    | (with_reducible apply Frame.step (reqSigned_frame ..) rfl ?_)
    | (with_reducible apply Frame.step (reqLog_frame ..) rfl ?_)
    | (with_reducible apply Frame.step (reqCert_frame ..) rfl ?_)
    | (with_reducible apply Frame.step (State.writeCode_frame ..) rfl ?_)
    | (with_reducible apply Frame.ite ?_ ?_)
    | split
    | (dsimp only; split)

theorem State.putBlock_frame (s : State) (pg : Page) (f : Field) (v : Nat) : Frame (fp.regs + fp.cores + fp.routers + fp.links + fp.tiles + fp.crags + fp.sites + fp.parts + fp.reqs + fp.rmbs + fp.sps + fp.ports + fp.writes + fp.reads + fp.ssbs + fp.nor + fp.fuses + fp.tally + fp.faultMap + fp.faultGen + fp.faultLog + fp.faultSeq + fp.sent + fp.fresh) s (State.putBlock s pg f v) := by
  unfold State.putBlock
  repeat' first
    | with_reducible exact Frame.refl _ _
    | (with_reducible apply Frame.step (budget_frame ..) rfl ?_)
    | (with_reducible apply Frame.step (arrayDefectPolicy_frame ..) rfl ?_)
    | (with_reducible apply Frame.step (progBase_frame ..) rfl ?_)
    | (with_reducible apply Frame.step (State.writeCode_frame ..) rfl ?_)
    | (with_reducible apply Frame.step (State.putTickgen_frame ..) rfl ?_)
    | (with_reducible apply Frame.step (State.putAdm_frame ..) rfl ?_)
    | (with_reducible apply Frame.step (State.putCohc_frame ..) rfl ?_)
    | (with_reducible apply Frame.step (State.putSite_frame ..) rfl ?_)
    | (with_reducible apply Frame.step (State.putRmb_frame ..) rfl ?_)
    | (with_reducible apply Frame.step (State.putPort_frame ..) rfl ?_)
    | (with_reducible apply Frame.step (State.putTally_frame ..) rfl ?_)
    | (with_reducible apply Frame.step (State.draftPart_frame ..) rfl ?_)
    | (with_reducible apply Frame.step (pairEn_frame ..) rfl ?_)
    | (with_reducible apply Frame.step (baseCapture_frame ..) rfl ?_)
    | (with_reducible apply Frame.step (cmdPi_frame ..) rfl ?_)
    | (with_reducible apply Frame.step (cplCi_frame ..) rfl ?_)
    | (with_reducible apply Frame.step (arm_frame ..) rfl ?_)
    | (with_reducible apply Frame.step (svnCommit_frame ..) rfl ?_)
    | (with_reducible apply Frame.step (shutdown_frame ..) rfl ?_)
    | (with_reducible apply Frame.step (phOffline_frame ..) rfl ?_)
    | (with_reducible apply Frame.step (State.updCore_frame _ _ _ ?_) rfl ?_)
    | (with_reducible apply Frame.ite ?_ ?_)
    | split
    | (dsimp only; split)
    | (intro h; (try dsimp only); repeat' (first | with_reducible exact h _ | with_reducible apply Core.memWf_write | with_reducible apply Core.memWf_setByte | exact Core.memWf_of (h _) rfl rfl rfl | exact Core.memWf_of (Core.memWf_write _ _ (h _)) rfl rfl rfl | exact (Core.memWf_iff _).2 ⟨Table.wf_filter 0 _ ((Core.memWf_iff _).1 (h _)).1, ((Core.memWf_iff _).1 (h _)).2⟩ | exact (Core.memWf_iff _).2 ⟨((Core.memWf_iff _).1 (h _)).1, ((Core.memWf_iff _).1 (h _)).2⟩ | split))

theorem State.putCommon_frame (s : State) (pg : Page) (f : Field) (v : Nat) : Frame (fp.regs + fp.sites + fp.parts + fp.reqs + fp.rmbs + fp.ports + fp.writes + fp.reads + fp.ctls + fp.sent) s (State.putCommon s pg f v) := by
  unfold State.putCommon
  repeat' first
    | with_reducible exact Frame.refl _ _
    | (with_reducible apply Frame.step (en_frame ..) rfl ?_)
    | (with_reducible apply Frame.step (softReset_frame ..) rfl ?_)
    | (with_reducible apply State.noting_frame _ _ _ rfl ?_)
    | (with_reducible apply Frame.step (State.noting_frame (k := fp.regs + fp.sent) _ _ _ rfl ?_) rfl ?_)
    | (with_reducible apply Frame.step (State.writeCode_frame ..) rfl ?_)
    | (with_reducible apply Frame.step (State.updCtl_frame ..) rfl ?_)
    | (with_reducible apply Frame.step (firstValid_frame ..) rfl ?_)
    | (with_reducible apply Frame.step (errInject_frame ..) rfl ?_)
    | (with_reducible apply Frame.step (lock_frame ..) rfl ?_)
    | (with_reducible apply Frame.step (injLock_frame ..) rfl ?_)
    | (with_reducible apply Frame.ite ?_ ?_)
    | split
    | (dsimp only; split)

theorem State.putField_frame (s : State) (pg : Page) (f : Field) (v : Nat) : Frame (fp.regs + fp.cores + fp.routers + fp.links + fp.tiles + fp.crags + fp.sites + fp.parts + fp.reqs + fp.rmbs + fp.sps + fp.ports + fp.writes + fp.reads + fp.ctls + fp.ssbs + fp.nor + fp.fuses + fp.tally + fp.faultMap + fp.faultGen + fp.faultLog + fp.faultSeq + fp.sent + fp.fresh) s (State.putField s pg f v) := by
  unfold State.putField
  repeat' first
    | with_reducible exact Frame.refl _ _
    | (with_reducible apply Frame.step (State.putCommon_frame ..) rfl ?_)
    | (with_reducible apply Frame.step (State.putBlock_frame ..) rfl ?_)
    | (with_reducible apply Frame.ite ?_ ?_)
    | split
    | (dsimp only; split)

theorem State.putWord_frame (s : State) (pg : Page) (off v : Nat) : Frame (fp.regs + fp.cores + fp.routers + fp.links + fp.tiles + fp.crags + fp.sites + fp.parts + fp.reqs + fp.rmbs + fp.sps + fp.ports + fp.writes + fp.reads + fp.ctls + fp.ssbs + fp.nor + fp.fuses + fp.tally + fp.faultMap + fp.faultGen + fp.faultLog + fp.faultSeq + fp.sent + fp.fresh) s (State.putWord s pg off v) := by
  unfold State.putWord
  repeat' first
    | with_reducible exact Frame.refl _ _
    | (with_reducible apply Frame.step (State.putField_frame ..) rfl ?_)
    | (with_reducible apply Frame.foldl _ _ ?_ (fun s x => ?_))
    | split
    | (dsimp only; split)

theorem State.writeReg_frame (s : State) (addr v : Nat) : Frame (fp.regs + fp.cores + fp.routers + fp.links + fp.tiles + fp.crags + fp.sites + fp.parts + fp.reqs + fp.rmbs + fp.sps + fp.ports + fp.writes + fp.reads + fp.ctls + fp.ssbs + fp.nor + fp.fuses + fp.tally + fp.faultMap + fp.faultGen + fp.faultLog + fp.faultSeq + fp.sent + fp.fresh) s (State.writeReg s addr v).2 := by
  unfold State.writeReg
  repeat' first
    | with_reducible exact Frame.refl _ _
    | (with_reducible apply Frame.step (State.putWord_frame ..) rfl ?_)
    | (with_reducible apply Frame.ite ?_ ?_)
    | (with_reducible apply Frame.foldl _ _ ?_ (fun s x => ?_))
    | split
    | (dsimp only; split)

theorem State.writeReg_pair {s : State} {addr v : Nat} {s' : State} {v0 : Nat} (hx : State.writeReg s addr v = (v0, s')) : Frame (fp.regs + fp.cores + fp.routers + fp.links + fp.tiles + fp.crags + fp.sites + fp.parts + fp.reqs + fp.rmbs + fp.sps + fp.ports + fp.writes + fp.reads + fp.ctls + fp.ssbs + fp.nor + fp.fuses + fp.tally + fp.faultMap + fp.faultGen + fp.faultLog + fp.faultSeq + fp.sent + fp.fresh) s s' := by
  have := State.writeReg_frame s addr v
  rw [hx] at this; exact this

theorem registerWrite_frame (s : State) (addr v : Nat) : Frame (fp.regs + fp.cores + fp.routers + fp.links + fp.tiles + fp.crags + fp.sites + fp.parts + fp.reqs + fp.rmbs + fp.sps + fp.ports + fp.writes + fp.reads + fp.ctls + fp.ssbs + fp.nor + fp.fuses + fp.tally + fp.faultMap + fp.faultGen + fp.faultLog + fp.faultSeq + fp.sent + fp.fresh) s (registerWrite s addr v) := by
  unfold registerWrite
  repeat' first
    | with_reducible exact Frame.refl _ _
    | (with_reducible apply Frame.step (State.writeReg_frame ..) rfl ?_)
    | split
    | (dsimp only; split)
    | (refine Frame.step (State.writeReg_pair (by assumption)) rfl ?_)

theorem htDataLo_frame (s : State) (p : Nat) : Frame (fp.regs + fp.nor + fp.sent) s (htDataLo s p) := by
  unfold htDataLo
  repeat' first
    | with_reducible exact Frame.refl _ _
    | (with_reducible apply Frame.step (State.latchRead_frame ..) rfl ?_)
    | (with_reducible apply Frame.step (State.emit_frame ..) rfl ?_)
    | split
    | (dsimp only; split)

theorem flogData0_frame (s : State) (c : Nat) : Frame (fp.regs + fp.nor + fp.sent) s (flogData0 s c) := by
  unfold flogData0
  repeat' first
    | with_reducible exact Frame.refl _ _
    | (with_reducible apply Frame.step (State.latchRead_frame ..) rfl ?_)
    | (with_reducible apply Frame.step (State.emit_frame ..) rfl ?_)
    | split
    | (dsimp only; split)

theorem seqLastLo_frame (s : State) : Frame (fp.regs + fp.nor + fp.sent) s (seqLastLo s) := by
  unfold seqLastLo
  repeat' first
    | with_reducible exact Frame.refl _ _
    | (with_reducible apply Frame.step (State.latchRead_frame ..) rfl ?_)
    | (with_reducible apply Frame.step (State.journal_frame ..) rfl ?_)
    | (with_reducible apply Frame.step (State.emit_frame ..) rfl ?_)
    | split
    | (dsimp only; split)

theorem State.mmioDeny_frame (s : State) (n tag : Nat) : Frame (fp.regs + fp.ports + fp.sent) s (State.mmioDeny s n tag) := by
  unfold State.mmioDeny
  repeat' first
    | with_reducible exact Frame.refl _ _
    | (with_reducible apply Frame.step (State.inc_frame ..) rfl ?_)
    | (with_reducible apply Frame.step (State.err_frame ..) rfl ?_)
    | (with_reducible apply Frame.step (State.sendMsg_frame ..) rfl ?_)
    | split
    | (dsimp only; split)

theorem mmioWr_frame (s : State) (n tag addr v : Nat) : Frame (fp.regs + fp.cores + fp.routers + fp.links + fp.tiles + fp.crags + fp.sites + fp.parts + fp.reqs + fp.rmbs + fp.sps + fp.ports + fp.writes + fp.reads + fp.ctls + fp.ssbs + fp.nor + fp.fuses + fp.tally + fp.faultMap + fp.faultGen + fp.faultLog + fp.faultSeq + fp.sent + fp.fresh) s (mmioWr s n tag addr v) := by
  unfold mmioWr
  repeat' first
    | with_reducible exact Frame.refl _ _
    | (with_reducible apply Frame.step (State.returnCredit_frame ..) rfl ?_)
    | (with_reducible apply Frame.step (State.mmioDeny_frame ..) rfl ?_)
    | (with_reducible apply Frame.step (State.writeReg_frame ..) rfl ?_)
    | (with_reducible apply Frame.step (State.sendMsg_frame ..) rfl ?_)
    | (with_reducible apply Frame.ite ?_ ?_)
    | split
    | (dsimp only; split)
    | (refine Frame.step (State.writeReg_pair (by assumption)) rfl ?_)

theorem mmioRd_frame (s : State) (n tag addr : Nat) : Frame (fp.regs + fp.ports + fp.nor + fp.sent) s (mmioRd s n tag addr) := by
  unfold mmioRd
  repeat' first
    | with_reducible exact Frame.refl _ _
    | (with_reducible apply Frame.step (State.returnCredit_frame ..) rfl ?_)
    | (with_reducible apply Frame.step (State.mmioDeny_frame ..) rfl ?_)
    | (with_reducible apply Frame.step (State.readReg_frame ..) rfl ?_)
    | (with_reducible apply Frame.step (State.sendMsg_frame ..) rfl ?_)
    | (with_reducible apply Frame.ite ?_ ?_)
    | split
    | (dsimp only; split)
    | (refine Frame.step (State.readReg_pair (by assumption)) rfl ?_)

theorem State.deliver_frame (s : State) (n : Nat) (h body : List Byte) : Frame (fp.regs + fp.cores + fp.routers + fp.links + fp.tiles + fp.crags + fp.sites + fp.parts + fp.reqs + fp.rmbs + fp.sps + fp.ports + fp.writes + fp.reads + fp.ctls + fp.ssbs + fp.nor + fp.fuses + fp.tally + fp.faultMap + fp.faultGen + fp.faultLog + fp.faultSeq + fp.sent + fp.fresh) s (State.deliver s n h body) := by
  unfold State.deliver
  repeat' first
    | with_reducible exact Frame.refl _ _
    | (with_reducible apply Frame.step (mmioWr_frame ..) rfl ?_)
    | (with_reducible apply Frame.step (mmioRd_frame ..) rfl ?_)
    | (with_reducible apply Frame.step (snpInv_frame ..) rfl ?_)
    | (with_reducible apply Frame.step (cmp_frame ..) rfl ?_)
    | (with_reducible apply Frame.step (data_frame ..) rfl ?_)
    | (with_reducible apply Frame.step (State.inc_frame ..) rfl ?_)
    | (with_reducible apply Frame.step (State.err_frame ..) rfl ?_)
    | split
    | (dsimp only; split)

theorem State.parse_frame (s : State) (n k : Nat) (l : List Byte) : Frame (fp.regs + fp.cores + fp.routers + fp.links + fp.tiles + fp.crags + fp.sites + fp.parts + fp.reqs + fp.rmbs + fp.sps + fp.ports + fp.writes + fp.reads + fp.ctls + fp.ssbs + fp.nor + fp.fuses + fp.tally + fp.faultMap + fp.faultGen + fp.faultLog + fp.faultSeq + fp.sent + fp.fresh) s (State.parse s n k l).2 := by
  induction k generalizing s l with
  | zero => exact Frame.refl _ _
  | succ k ih =>
    unfold State.parse
    repeat' first
      | with_reducible exact Frame.refl _ _
      | (refine Frame.step (ih _ _) rfl ?_)
      | (with_reducible apply Frame.step (State.deliver_frame ..) rfl ?_)
      | split
      | (dsimp only; split)

theorem dataFlit_frame (s : State) (n fseq ack vc cr : Nat) (ackv good corr : Bool) (bytes : List Byte) : Frame (fp.regs + fp.cores + fp.routers + fp.links + fp.tiles + fp.crags + fp.sites + fp.parts + fp.reqs + fp.rmbs + fp.sps + fp.ports + fp.writes + fp.reads + fp.ctls + fp.ssbs + fp.nor + fp.fuses + fp.tally + fp.faultMap + fp.faultGen + fp.faultLog + fp.faultSeq + fp.sent + fp.fresh) s (dataFlit s n fseq ack vc cr ackv good corr bytes) := by
  unfold dataFlit
  repeat' first
    | with_reducible exact Frame.refl _ _
    | (with_reducible apply Frame.step (State.corrected_frame ..) rfl ?_)
    | (with_reducible apply Frame.step (State.inc_frame ..) rfl ?_)
    | (with_reducible apply Frame.step (State.err_frame ..) rfl ?_)
    | (with_reducible apply Frame.step (State.sendNak_frame ..) rfl ?_)
    | (with_reducible apply Frame.step (State.updPort_frame ..) rfl ?_)
    | (with_reducible apply Frame.step (State.flitHeader_frame ..) rfl ?_)
    | (with_reducible apply Frame.step (State.parse_frame ..) rfl ?_)
    | (with_reducible apply Frame.ite ?_ ?_)
    | split
    | (dsimp only; split)
    | (with_reducible apply Frame.step (State.parse_frame ..) rfl ?_)

end Sys2Proof.Machine
end

