-- ==== Sys2Proof/Laws/FrameClock.lean ====
section
/-! SUPPORT. Frames of the operations of Machine/Clock.lean. -/

namespace Sys2Proof.Machine

theorem State.fetchOne_frame (s : State) (g : Nat) : Frame (fp.regs + fp.cores) s (State.fetchOne s g) := by
  unfold State.fetchOne
  repeat' first
    | with_reducible exact Frame.refl _ _
    | (with_reducible apply Frame.step (State.updCore_frame _ _ _ ?_) rfl ?_)
    | (with_reducible apply Frame.step (State.wr_frame ..) rfl ?_)
    | (with_reducible apply Frame.ite ?_ ?_)
    | split
    | (dsimp only; split)
    | (intro h; (try dsimp only); repeat' (first | with_reducible exact h _ | with_reducible apply Core.memWf_write | with_reducible apply Core.memWf_setByte | exact Core.memWf_of (h _) rfl rfl rfl | exact Core.memWf_of (Core.memWf_write _ _ (h _)) rfl rfl rfl | exact (Core.memWf_iff _).2 ⟨Table.wf_filter 0 _ ((Core.memWf_iff _).1 (h _)).1, ((Core.memWf_iff _).1 (h _)).2⟩ | exact (Core.memWf_iff _).2 ⟨((Core.memWf_iff _).1 (h _)).1, ((Core.memWf_iff _).1 (h _)).2⟩ | split))

theorem State.undefinedOp_frame (s : State) (g : Nat) : Frame (fp.regs + fp.cores + fp.sent) s (State.undefinedOp s g) := by
  unfold State.undefinedOp
  repeat' first
    | with_reducible exact Frame.refl _ _
    | (with_reducible apply Frame.step (State.fail_frame ..) rfl ?_)
    | (with_reducible apply Frame.ite ?_ ?_)
    | split
    | (dsimp only; split)

theorem State.settle_frame (s : State) (g : Nat) : Frame (fp.cores) s (State.settle s g) := by
  unfold State.settle
  repeat' first
    | with_reducible exact Frame.refl _ _
    | (with_reducible apply Frame.step (State.finishAt_frame ..) rfl ?_)
    | (with_reducible apply Frame.step (State.updCore_frame _ _ _ ?_) rfl ?_)
    | (with_reducible apply Frame.ite ?_ ?_)
    | split
    | (dsimp only; split)
    | (intro h; (try dsimp only); repeat' (first | with_reducible exact h _ | with_reducible apply Core.memWf_write | with_reducible apply Core.memWf_setByte | exact Core.memWf_of (h _) rfl rfl rfl | exact Core.memWf_of (Core.memWf_write _ _ (h _)) rfl rfl rfl | exact (Core.memWf_iff _).2 ⟨Table.wf_filter 0 _ ((Core.memWf_iff _).1 (h _)).1, ((Core.memWf_iff _).1 (h _)).2⟩ | exact (Core.memWf_iff _).2 ⟨((Core.memWf_iff _).1 (h _)).1, ((Core.memWf_iff _).1 (h _)).2⟩ | with_reducible apply Core.setSem_memWf | exact Core.memWf_of (d := Core.setSem ..) (Core.setSem_memWf (h := h _) ..) rfl rfl rfl | exact Core.memWf_foldl _ _ _ (h _) (fun _ _ h => Core.setSem_memWf (h := h) ..) | split))

theorem State.windowCycle_frame (s : State) (g : Nat) : Frame (fp.cores) s (State.windowCycle s g) := by
  unfold State.windowCycle
  repeat' first
    | with_reducible exact Frame.refl _ _
    | (with_reducible apply Frame.step (State.updCore_frame _ _ _ ?_) rfl ?_)
    | (with_reducible apply Frame.ite ?_ ?_)
    | (with_reducible apply Frame.foldl _ _ ?_ (fun s x => ?_))
    | split
    | (dsimp only; split)
    | (intro h; (try dsimp only); repeat' (first | with_reducible exact h _ | with_reducible apply Core.memWf_write | with_reducible apply Core.memWf_setByte | exact Core.memWf_of (h _) rfl rfl rfl | exact Core.memWf_of (Core.memWf_write _ _ (h _)) rfl rfl rfl | exact (Core.memWf_iff _).2 ⟨Table.wf_filter 0 _ ((Core.memWf_iff _).1 (h _)).1, ((Core.memWf_iff _).1 (h _)).2⟩ | exact (Core.memWf_iff _).2 ⟨((Core.memWf_iff _).1 (h _)).1, ((Core.memWf_iff _).1 (h _)).2⟩ | split))

theorem State.sendCycle_frame (s : State) (g : Nat) : Frame (fp.regs + fp.cores + fp.tiles) s (State.sendCycle s g) := by
  unfold State.sendCycle
  repeat' first
    | with_reducible exact Frame.refl _ _
    | (with_reducible apply Frame.step (State.inc_frame ..) rfl ?_)
    | (with_reducible apply Frame.step (State.finishAt_frame ..) rfl ?_)
    | (with_reducible apply Frame.step (State.updTile_frame ..) rfl ?_)
    | (with_reducible apply Frame.step (State.updCore_frame _ _ _ ?_) rfl ?_)
    | (with_reducible apply Frame.ite ?_ ?_)
    | split
    | (dsimp only; split)
    | (intro h; (try dsimp only); repeat' (first | with_reducible exact h _ | with_reducible apply Core.memWf_write | with_reducible apply Core.memWf_setByte | exact Core.memWf_of (h _) rfl rfl rfl | exact Core.memWf_of (Core.memWf_write _ _ (h _)) rfl rfl rfl | exact (Core.memWf_iff _).2 ⟨Table.wf_filter 0 _ ((Core.memWf_iff _).1 (h _)).1, ((Core.memWf_iff _).1 (h _)).2⟩ | exact (Core.memWf_iff _).2 ⟨((Core.memWf_iff _).1 (h _)).1, ((Core.memWf_iff _).1 (h _)).2⟩ | split))

theorem State.coreCycle_frame (s : State) (g : Nat) : Frame (fp.regs + fp.cores + fp.tiles + fp.sent) s (State.coreCycle s g) := by
  unfold State.coreCycle
  repeat' first
    | with_reducible exact Frame.refl _ _
    | (with_reducible apply Frame.step (State.windowCycle_frame ..) rfl ?_)
    | (with_reducible apply Frame.step (State.undefinedOp_frame ..) rfl ?_)
    | (with_reducible apply Frame.step (State.sendCycle_frame ..) rfl ?_)
    | (with_reducible apply Frame.step (State.settle_frame ..) rfl ?_)
    | (with_reducible apply Frame.step (State.fetchOne_frame ..) rfl ?_)
    | split
    | (dsimp only; split)

theorem State.resultWord_frame (s : State) (p tag : Nat) (bs : List Byte) : Frame (fp.parts) s (State.resultWord s p tag bs) := by
  unfold State.resultWord
  repeat' first
    | with_reducible exact Frame.refl _ _
    | (with_reducible apply Frame.step (State.updPart_frame ..) rfl ?_)
    | (with_reducible apply Frame.ite ?_ ?_)
    | split
    | (dsimp only; split)

theorem State.dropCycle_frame (s : State) (t : Nat) : Frame (fp.tiles + fp.parts) s (State.dropCycle s t) := by
  unfold State.dropCycle
  repeat' first
    | with_reducible exact Frame.refl _ _
    | (with_reducible apply Frame.step (State.updTile_frame ..) rfl ?_)
    | (with_reducible apply Frame.step (State.resultWord_frame ..) rfl ?_)
    | (with_reducible apply Frame.ite ?_ ?_)
    | split
    | (dsimp only; split)

theorem State.partCores'_frame (s : State) (p : Nat) : Frame (fp.regs + fp.cores + fp.tiles + fp.parts + fp.sent) s (State.partCores' s p) := by
  unfold State.partCores'
  repeat' first
    | with_reducible exact Frame.refl _ _
    | (with_reducible apply Frame.step (State.coreCycle_frame ..) rfl ?_)
    | (with_reducible apply Frame.step (State.dropCycle_frame ..) rfl ?_)
    | (with_reducible apply Frame.ite ?_ ?_)
    | (with_reducible apply Frame.foldl _ _ ?_ (fun s x => ?_))
    | split
    | (dsimp only; split)

theorem State.spineCycle_frame (s : State) (p : Nat) : Frame (fp.tiles + fp.parts) s (State.spineCycle s p) := by
  unfold State.spineCycle
  repeat' first
    | with_reducible exact Frame.refl _ _
    | (with_reducible apply Frame.step (State.dropCycle_frame ..) rfl ?_)
    | (with_reducible apply Frame.foldl _ _ ?_ (fun s x => ?_))
    | split
    | (dsimp only; split)

theorem State.partCycle_frame (s : State) (p : Nat) : Frame (fp.regs + fp.cores + fp.tiles + fp.parts + fp.sent) s (State.partCycle s p) := by
  unfold State.partCycle
  repeat' first
    | with_reducible exact Frame.refl _ _
    | (with_reducible apply Frame.step (State.partCores'_frame ..) rfl ?_)
    | (with_reducible apply Frame.step (State.spineCycle_frame ..) rfl ?_)
    | (with_reducible apply Frame.step (State.updPart_frame ..) rfl ?_)
    | (with_reducible apply Frame.ite ?_ ?_)
    | split
    | (dsimp only; split)

theorem State.cycleOf_frame (s : State) (p : Nat) : Frame (fp.regs + fp.cores + fp.routers + fp.links + fp.tiles + fp.crags + fp.sites + fp.parts + fp.reqs + fp.ports + fp.writes + fp.reads + fp.nor + fp.faultMap + fp.faultGen + fp.faultLog + fp.faultSeq + fp.sent + fp.fresh) s (State.cycleOf s p) := by
  unfold State.cycleOf
  repeat' first
    | with_reducible exact Frame.refl _ _
    | (with_reducible apply Frame.step (State.partCycle_frame ..) rfl ?_)
    | (with_reducible apply Frame.step (State.startHold_frame ..) rfl ?_)
    | (with_reducible apply Frame.step (State.pumpLoad_frame ..) rfl ?_)
    | (with_reducible apply Frame.ite ?_ ?_)
    | split
    | (dsimp only; split)

theorem State.countClock_frame (s : State) : Frame (fp.clock) s (State.countClock s) := State.clock_frame _ _

theorem State.countMs_frame (s : State) : Frame (fp.ms) s (State.countMs s) := State.ms_frame _ _

theorem State.timeCycle_frame (s : State) : Frame (fp.clock + fp.sps + fp.ms) s (State.timeCycle s) := by
  unfold State.timeCycle
  repeat' first
    | with_reducible exact Frame.refl _ _
    | (with_reducible apply Frame.step (State.countClock_frame ..) rfl ?_)
    | (with_reducible apply Frame.step (State.updSps_frame ..) rfl ?_)
    | (with_reducible apply Frame.step (State.countMs_frame ..) rfl ?_)
    | (with_reducible apply Frame.ite ?_ ?_)
    | split
    | (dsimp only; split)

theorem clockCycle_frame (s : State) : Frame (fp.regs + fp.clock + fp.cores + fp.routers + fp.links + fp.tiles + fp.crags + fp.sites + fp.parts + fp.reqs + fp.rmbs + fp.sps + fp.ports + fp.writes + fp.reads + fp.ssbs + fp.nor + fp.faultMap + fp.faultGen + fp.faultLog + fp.faultSeq + fp.ms + fp.sent + fp.fresh) s (clockCycle s) := by
  unfold clockCycle
  repeat' first
    | with_reducible exact Frame.refl _ _
    | (with_reducible apply Frame.step (State.rmbCycle_frame ..) rfl ?_)
    | (with_reducible apply Frame.step (State.cycleOf_frame ..) rfl ?_)
    | (with_reducible apply Frame.step (State.timeCycle_frame ..) rfl ?_)
    | (with_reducible apply Frame.step (State.shutdownCheck_frame ..) rfl ?_)
    | (with_reducible apply Frame.foldl _ _ ?_ (fun s x => ?_))
    | split
    | (dsimp only; split)

end Sys2Proof.Machine
end

