-- ==== Sys2Proof/Laws/Exec.lean ====
section
/-! SUPPORT. What each command may change: one lemma per command, from the frames of its parts, and the step. -/

namespace Sys2Proof.Machine

theorem exec_tickBoundary_frame {p skew} {σ τ : State} (h : exec (.tickBoundary p skew) σ = .next τ) :
    Frame (fp.regs + fp.cores + fp.routers + fp.links + fp.tiles + fp.crags + fp.sites + fp.parts + fp.reqs + fp.rmbs + fp.ports + fp.writes + fp.reads + fp.nor + fp.faultMap + fp.faultGen + fp.faultLog + fp.faultSeq + fp.sent + fp.fresh) σ τ := by
  injection h with h; subst h
  repeat' first
    | with_reducible exact Frame.refl _ _
    | (with_reducible apply Frame.step (tickBoundary_frame ..) rfl ?_)
    | split

theorem exec_tickFinality_frame {p} {σ τ : State} (h : exec (.tickFinality p) σ = .next τ) :
    Frame (fp.regs + fp.cores + fp.routers + fp.links + fp.tiles + fp.crags + fp.sites + fp.parts + fp.reqs + fp.ports + fp.writes + fp.reads + fp.nor + fp.tally + fp.faultMap + fp.faultGen + fp.faultLog + fp.faultSeq + fp.sent + fp.fresh) σ τ := by
  injection h with h; subst h
  repeat' first
    | with_reducible exact Frame.refl _ _
    | (with_reducible apply Frame.step (tickFinality_frame ..) rfl ?_)
    | split

theorem exec_replayBoundary_frame {p ue} {σ τ : State} (h : exec (.replayBoundary p ue) σ = .next τ) :
    Frame (fp.regs + fp.cores + fp.routers + fp.links + fp.tiles + fp.crags + fp.sites + fp.parts + fp.reqs + fp.rmbs + fp.ports + fp.writes + fp.reads + fp.nor + fp.faultMap + fp.faultGen + fp.faultLog + fp.faultSeq + fp.sent + fp.fresh) σ τ := by
  injection h with h; subst h
  repeat' first
    | with_reducible exact Frame.refl _ _
    | (with_reducible apply Frame.step (replayBoundary_frame ..) rfl ?_)
    | split

theorem exec_commitPhase_frame {p logits lost} {σ τ : State} (h : exec (.commitPhase p logits lost) σ = .next τ) :
    Frame (fp.regs + fp.cores + fp.parts + fp.sent) σ τ := by
  injection h with h; subst h
  repeat' first
    | with_reducible exact Frame.refl _ _
    | (with_reducible apply Frame.step (commitPhase_frame ..) rfl ?_)
    | split

theorem exec_bodyEnd_frame {p} {σ τ : State} (h : exec (.bodyEnd p) σ = .next τ) :
    Frame (fp.regs + fp.cores + fp.parts + fp.sent) σ τ := by
  injection h with h; subst h
  repeat' first
    | with_reducible exact Frame.refl _ _
    | (with_reducible apply Frame.step (bodyEnd_frame ..) rfl ?_)
    | split

theorem exec_period_frame {p v} {σ τ : State} (h : exec (.period p v) σ = .next τ) :
    Frame (fp.regs + fp.sent) σ τ := by
  injection h with h; subst h
  repeat' first
    | with_reducible exact Frame.refl _ _
    | (with_reducible apply Frame.step (period_frame ..) rfl ?_)
    | split

theorem exec_stretchCeil_frame {p v} {σ τ : State} (h : exec (.stretchCeil p v) σ = .next τ) :
    Frame (fp.regs + fp.parts) σ τ := by
  injection h with h; subst h
  repeat' first
    | with_reducible exact Frame.refl _ _
    | (with_reducible apply Frame.step (stretchCeil_frame ..) rfl ?_)
    | split

theorem exec_stretchCeilRaiseApply_frame {p} {σ τ : State} (h : exec (.stretchCeilRaiseApply p) σ = .next τ) :
    Frame (fp.regs + fp.parts) σ τ := by
  injection h with h; subst h
  repeat' first
    | with_reducible exact Frame.refl _ _
    | (with_reducible apply Frame.step (stretchCeilRaiseApply_frame ..) rfl ?_)
    | split

theorem exec_tickLo_frame {p} {σ τ : State} (h : exec (.tickLo p) σ = .next τ) :
    Frame (fp.regs + fp.sent) σ τ := by
  injection h with h; subst h
  repeat' first
    | with_reducible exact Frame.refl _ _
    | (with_reducible apply Frame.step (tickLo_frame ..) rfl ?_)
    | split

theorem exec_retireWithoutEffect_frame {g} {σ τ : State} (h : exec (.retireWithoutEffect g) σ = .next τ) :
    Frame (fp.regs + fp.cores) σ τ := by
  injection h with h; subst h
  repeat' first
    | with_reducible exact Frame.refl _ _
    | (with_reducible apply Frame.step (retireWithoutEffect_frame ..) rfl ?_)
    | split

theorem exec_commandRetire_frame {g} {σ τ : State} (h : exec (.commandRetire g) σ = .next τ) :
    Frame (fp.regs + fp.cores) σ τ := by
  injection h with h; subst h
  repeat' first
    | with_reducible exact Frame.refl _ _
    | (with_reducible apply Frame.step (commandRetire_frame ..) rfl ?_)
    | split

theorem exec_slabReadPortStart_frame {g} {σ τ : State} (h : exec (.slabReadPortStart g) σ = .next τ) :
    Frame (fp.regs + fp.cores + fp.crags) σ τ := by
  injection h with h; subst h
  repeat' first
    | with_reducible exact Frame.refl _ _
    | (with_reducible apply Frame.step (slabReadPortStart_frame ..) rfl ?_)
    | split

theorem exec_apassTree_frame {g u} {σ τ : State} (h : exec (.apassTree g u) σ = .next τ) :
    Frame (fp.regs + fp.cores + fp.sent) σ τ := by
  injection h with h; subst h
  repeat' first
    | with_reducible exact Frame.refl _ _
    | (with_reducible apply State.issue_frame _ _ _ _ _ rfl (fun e s => ?_))
    | (with_reducible apply Frame.step (runPass_frame ..) rfl ?_)
    | split

theorem exec_apassSkew_frame {g u} {σ τ : State} (h : exec (.apassSkew g u) σ = .next τ) :
    Frame (fp.regs + fp.cores + fp.sent) σ τ := by
  injection h with h; subst h
  repeat' first
    | with_reducible exact Frame.refl _ _
    | (with_reducible apply State.issue_frame _ _ _ _ _ rfl (fun e s => ?_))
    | (with_reducible apply Frame.step (runPass_frame ..) rfl ?_)
    | split

theorem exec_accDrain_frame {g u} {σ τ : State} (h : exec (.accDrain g u) σ = .next τ) :
    Frame (fp.regs + fp.cores + fp.crags + fp.sent) σ τ := by
  injection h with h; subst h
  repeat' first
    | with_reducible exact Frame.refl _ _
    | (with_reducible apply State.issue_frame _ _ _ _ _ rfl (fun e s => ?_))
    | (with_reducible apply Frame.step (runDrain_frame ..) rfl ?_)
    | split

theorem exec_accBase_frame {g} {σ τ : State} (h : exec (.accBase g) σ = .next τ) :
    Frame (fp.regs + fp.cores + fp.sent) σ τ := by
  injection h with h; subst h
  repeat' first
    | with_reducible exact Frame.refl _ _
    | (with_reducible apply State.issue_frame _ _ _ _ _ rfl (fun e s => ?_))
    | (with_reducible apply Frame.step (runAccBase_frame ..) rfl ?_)
    | split

theorem exec_edgeCfg_frame {g} {σ τ : State} (h : exec (.edgeCfg g) σ = .next τ) :
    Frame (fp.regs + fp.cores + fp.sent) σ τ := by
  injection h with h; subst h
  repeat' first
    | with_reducible exact Frame.refl _ _
    | (with_reducible apply State.issue_frame _ _ _ _ _ rfl (fun e s => ?_))
    | (with_reducible apply Frame.step (runEdgeCfg_frame ..) rfl ?_)
    | split

theorem exec_attQload_frame {g u} {σ τ : State} (h : exec (.attQload g u) σ = .next τ) :
    Frame (fp.regs + fp.cores + fp.sent) σ τ := by
  injection h with h; subst h
  repeat' first
    | with_reducible exact Frame.refl _ _
    | (with_reducible apply State.issue_frame _ _ _ _ _ rfl (fun e s => ?_))
    | (with_reducible apply Frame.step (runQload_frame ..) rfl ?_)
    | split

theorem exec_attStream_frame {g u} {σ τ : State} (h : exec (.attStream g u) σ = .next τ) :
    Frame (fp.regs + fp.cores + fp.sent) σ τ := by
  injection h with h; subst h
  repeat' first
    | with_reducible exact Frame.refl _ _
    | (with_reducible apply State.issue_frame _ _ _ _ _ rfl (fun e s => ?_))
    | (with_reducible apply Frame.step (runStream_frame ..) rfl ?_)
    | split

theorem exec_attFinish_frame {g} {σ τ : State} (h : exec (.attFinish g) σ = .next τ) :
    Frame (fp.regs + fp.cores + fp.crags + fp.sent) σ τ := by
  injection h with h; subst h
  repeat' first
    | with_reducible exact Frame.refl _ _
    | (with_reducible apply State.issue_frame _ _ _ _ _ rfl (fun e s => ?_))
    | (with_reducible apply Frame.step (runFinish_frame ..) rfl ?_)
    | split

theorem exec_wuAdd_frame {g f u} {σ τ : State} (h : exec (.wuAdd g f u) σ = .next τ) :
    Frame (fp.regs + fp.cores + fp.crags + fp.sent) σ τ := by
  injection h with h; subst h
  repeat' first
    | with_reducible exact Frame.refl _ _
    | (with_reducible apply State.issue_frame _ _ _ _ _ rfl (fun e s => ?_))
    | (with_reducible apply Frame.step (runBinary_frame ..) rfl ?_)
    | split

theorem exec_wuMul_frame {g f u} {σ τ : State} (h : exec (.wuMul g f u) σ = .next τ) :
    Frame (fp.regs + fp.cores + fp.crags + fp.sent) σ τ := by
  injection h with h; subst h
  repeat' first
    | with_reducible exact Frame.refl _ _
    | (with_reducible apply State.issue_frame _ _ _ _ _ rfl (fun e s => ?_))
    | (with_reducible apply Frame.step (runBinary_frame ..) rfl ?_)
    | split

theorem exec_wuFma_frame {g f u} {σ τ : State} (h : exec (.wuFma g f u) σ = .next τ) :
    Frame (fp.regs + fp.cores + fp.crags + fp.sent) σ τ := by
  injection h with h; subst h
  repeat' first
    | with_reducible exact Frame.refl _ _
    | (with_reducible apply State.issue_frame _ _ _ _ _ rfl (fun e s => ?_))
    | (with_reducible apply Frame.step (runFma_frame ..) rfl ?_)
    | split

theorem exec_wuMax_frame {g f u} {σ τ : State} (h : exec (.wuMax g f u) σ = .next τ) :
    Frame (fp.regs + fp.cores + fp.crags + fp.sent) σ τ := by
  injection h with h; subst h
  repeat' first
    | with_reducible exact Frame.refl _ _
    | (with_reducible apply State.issue_frame _ _ _ _ _ rfl (fun e s => ?_))
    | (with_reducible apply Frame.step (runBinary_frame ..) rfl ?_)
    | split

theorem exec_wuExp_frame {g f u} {σ τ : State} (h : exec (.wuExp g f u) σ = .next τ) :
    Frame (fp.regs + fp.cores + fp.crags + fp.sent) σ τ := by
  injection h with h; subst h
  repeat' first
    | with_reducible exact Frame.refl _ _
    | (with_reducible apply State.issue_frame _ _ _ _ _ rfl (fun e s => ?_))
    | (with_reducible apply Frame.step (runUnary_frame ..) rfl ?_)
    | split

theorem exec_wuRsqrt_frame {g f u} {σ τ : State} (h : exec (.wuRsqrt g f u) σ = .next τ) :
    Frame (fp.regs + fp.cores + fp.crags + fp.sent) σ τ := by
  injection h with h; subst h
  repeat' first
    | with_reducible exact Frame.refl _ _
    | (with_reducible apply State.issue_frame _ _ _ _ _ rfl (fun e s => ?_))
    | (with_reducible apply Frame.step (runUnary_frame ..) rfl ?_)
    | split

theorem exec_wuRecip_frame {g f u} {σ τ : State} (h : exec (.wuRecip g f u) σ = .next τ) :
    Frame (fp.regs + fp.cores + fp.crags + fp.sent) σ τ := by
  injection h with h; subst h
  repeat' first
    | with_reducible exact Frame.refl _ _
    | (with_reducible apply State.issue_frame _ _ _ _ _ rfl (fun e s => ?_))
    | (with_reducible apply Frame.step (runUnary_frame ..) rfl ?_)
    | split

theorem exec_wuSilu_frame {g f u} {σ τ : State} (h : exec (.wuSilu g f u) σ = .next τ) :
    Frame (fp.regs + fp.cores + fp.crags + fp.sent) σ τ := by
  injection h with h; subst h
  repeat' first
    | with_reducible exact Frame.refl _ _
    | (with_reducible apply State.issue_frame _ _ _ _ _ rfl (fun e s => ?_))
    | (with_reducible apply Frame.step (runUnary_frame ..) rfl ?_)
    | split

theorem exec_wuRope_frame {g f half u} {σ τ : State} (h : exec (.wuRope g f half u) σ = .next τ) :
    Frame (fp.regs + fp.cores + fp.crags + fp.sent) σ τ := by
  injection h with h; subst h
  repeat' first
    | with_reducible exact Frame.refl _ _
    | (with_reducible apply State.issue_frame _ _ _ _ _ rfl (fun e s => ?_))
    | (with_reducible apply Frame.step (runRope_frame ..) rfl ?_)
    | split

theorem exec_wuReduce_frame {g f u} {σ τ : State} (h : exec (.wuReduce g f u) σ = .next τ) :
    Frame (fp.regs + fp.cores + fp.crags + fp.sent) σ τ := by
  injection h with h; subst h
  repeat' first
    | with_reducible exact Frame.refl _ _
    | (with_reducible apply State.issue_frame _ _ _ _ _ rfl (fun e s => ?_))
    | (with_reducible apply Frame.step (runReduce_frame ..) rfl ?_)
    | split

theorem exec_wuCvt_frame {g u} {σ τ : State} (h : exec (.wuCvt g u) σ = .next τ) :
    Frame (fp.regs + fp.cores + fp.crags + fp.sent) σ τ := by
  injection h with h; subst h
  repeat' first
    | with_reducible exact Frame.refl _ _
    | (with_reducible apply State.issue_frame _ _ _ _ _ rfl (fun e s => ?_))
    | (with_reducible apply Frame.step (runCvt_frame ..) rfl ?_)
    | split

theorem exec_wuSpdelta_frame {g xlen u} {σ τ : State} (h : exec (.wuSpdelta g xlen u) σ = .next τ) :
    Frame (fp.regs + fp.cores + fp.crags + fp.sent) σ τ := by
  injection h with h; subst h
  repeat' first
    | with_reducible exact Frame.refl _ _
    | (with_reducible apply State.issue_frame _ _ _ _ _ rfl (fun e s => ?_))
    | (with_reducible apply Frame.step (runSpdelta_frame ..) rfl ?_)
    | split

theorem exec_wuCopy_frame {g u} {σ τ : State} (h : exec (.wuCopy g u) σ = .next τ) :
    Frame (fp.regs + fp.cores + fp.crags + fp.sent) σ τ := by
  injection h with h; subst h
  repeat' first
    | with_reducible exact Frame.refl _ _
    | (with_reducible apply State.issue_frame _ _ _ _ _ rfl (fun e s => ?_))
    | (with_reducible apply Frame.step (runCopy_frame ..) rfl ?_)
    | split

theorem exec_send_frame {g u} {σ τ : State} (h : exec (.send g u) σ = .next τ) :
    Frame (fp.regs + fp.cores + fp.sent) σ τ := by
  injection h with h; subst h
  repeat' first
    | with_reducible exact Frame.refl _ _
    | (with_reducible apply State.issue_frame _ _ _ _ _ rfl (fun e s => ?_))
    | (with_reducible apply Frame.step (runSend_frame ..) rfl ?_)
    | split

theorem exec_sendMc_frame {g u} {σ τ : State} (h : exec (.sendMc g u) σ = .next τ) :
    Frame (fp.regs + fp.cores + fp.sent) σ τ := by
  injection h with h; subst h
  repeat' first
    | with_reducible exact Frame.refl _ _
    | (with_reducible apply State.issue_frame _ _ _ _ _ rfl (fun e s => ?_))
    | (with_reducible apply Frame.step (runSend_frame ..) rfl ?_)
    | split

theorem exec_sendRed_frame {g u} {σ τ : State} (h : exec (.sendRed g u) σ = .next τ) :
    Frame (fp.regs + fp.cores + fp.sent) σ τ := by
  injection h with h; subst h
  repeat' first
    | with_reducible exact Frame.refl _ _
    | (with_reducible apply State.issue_frame _ _ _ _ _ rfl (fun e s => ?_))
    | (with_reducible apply Frame.step (runSend_frame ..) rfl ?_)
    | split

theorem exec_sendSpine_frame {g u} {σ τ : State} (h : exec (.sendSpine g u) σ = .next τ) :
    Frame (fp.regs + fp.cores + fp.sent) σ τ := by
  injection h with h; subst h
  repeat' first
    | with_reducible exact Frame.refl _ _
    | (with_reducible apply State.issue_frame _ _ _ _ _ rfl (fun e s => ?_))
    | (with_reducible apply Frame.step (runSendSpine_frame ..) rfl ?_)
    | split

theorem exec_winOpen_frame {g} {σ τ : State} (h : exec (.winOpen g) σ = .next τ) :
    Frame (fp.regs + fp.cores + fp.sent) σ τ := by
  injection h with h; subst h
  repeat' first
    | with_reducible exact Frame.refl _ _
    | (with_reducible apply State.issue_frame _ _ _ _ _ rfl (fun e s => ?_))
    | (with_reducible apply Frame.step (runWinOpen_frame ..) rfl ?_)
    | split

theorem exec_winClose_frame {g} {σ τ : State} (h : exec (.winClose g) σ = .next τ) :
    Frame (fp.regs + fp.cores + fp.sent) σ τ := by
  injection h with h; subst h
  repeat' first
    | with_reducible exact Frame.refl _ _
    | (with_reducible apply State.issue_frame _ _ _ _ _ rfl (fun e s => ?_))
    | (with_reducible apply Frame.step (runWinClose_frame ..) rfl ?_)
    | split

theorem exec_winWait_frame {g} {σ τ : State} (h : exec (.winWait g) σ = .next τ) :
    Frame (fp.regs + fp.cores + fp.sent) σ τ := by
  injection h with h; subst h
  repeat' first
    | with_reducible exact Frame.refl _ _
    | (with_reducible apply State.issue_frame _ _ _ _ _ rfl (fun e s => ?_))
    | (with_reducible apply Frame.step (runWinWait_frame ..) rfl ?_)
    | split

theorem exec_semSignal_frame {g} {σ τ : State} (h : exec (.semSignal g) σ = .next τ) :
    Frame (fp.regs + fp.cores + fp.sent) σ τ := by
  injection h with h; subst h
  repeat' first
    | with_reducible exact Frame.refl _ _
    | (with_reducible apply State.issue_frame _ _ _ _ _ rfl (fun e s => ?_))
    | (with_reducible apply Frame.step (runSemSignal_frame ..) rfl ?_)
    | split

theorem exec_semWait_frame {g} {σ τ : State} (h : exec (.semWait g) σ = .next τ) :
    Frame (fp.regs + fp.cores + fp.sent) σ τ := by
  injection h with h; subst h
  repeat' first
    | with_reducible exact Frame.refl _ _
    | (with_reducible apply State.issue_frame _ _ _ _ _ rfl (fun e s => ?_))
    | (with_reducible apply Frame.step (runSemWait_frame ..) rfl ?_)
    | split

theorem exec_kvSetup_frame {g} {σ τ : State} (h : exec (.kvSetup g) σ = .next τ) :
    Frame (fp.regs + fp.cores + fp.sent) σ τ := by
  injection h with h; subst h
  repeat' first
    | with_reducible exact Frame.refl _ _
    | (with_reducible apply State.issue_frame _ _ _ _ _ rfl (fun e s => ?_))
    | (with_reducible apply Frame.step (runKvSetup_frame ..) rfl ?_)
    | split

theorem exec_kvMapload_frame {g u} {σ τ : State} (h : exec (.kvMapload g u) σ = .next τ) :
    Frame (fp.regs + fp.cores + fp.sent) σ τ := by
  injection h with h; subst h
  repeat' first
    | with_reducible exact Frame.refl _ _
    | (with_reducible apply State.issue_frame _ _ _ _ _ rfl (fun e s => ?_))
    | (with_reducible apply Frame.step (runKvMapload_frame ..) rfl ?_)
    | split

theorem exec_kvSpec_frame {g} {σ τ : State} (h : exec (.kvSpec g) σ = .next τ) :
    Frame (fp.regs + fp.cores + fp.sent) σ τ := by
  injection h with h; subst h
  repeat' first
    | with_reducible exact Frame.refl _ _
    | (with_reducible apply State.issue_frame _ _ _ _ _ rfl (fun e s => ?_))
    | (with_reducible apply Frame.step (runKvSpec_frame ..) rfl ?_)
    | split

theorem exec_commit_frame {g} {σ τ : State} (h : exec (.commit g) σ = .next τ) :
    Frame (fp.regs + fp.cores + fp.sent) σ τ := by
  injection h with h; subst h
  repeat' first
    | with_reducible exact Frame.refl _ _
    | (with_reducible apply State.issue_frame _ _ _ _ _ rfl (fun e s => ?_))
    | (with_reducible apply Frame.step (runCommit_frame ..) rfl ?_)
    | split

theorem exec_commitKv_frame {g} {σ τ : State} (h : exec (.commitKv g) σ = .next τ) :
    Frame (fp.regs + fp.cores + fp.sent) σ τ := by
  injection h with h; subst h
  repeat' first
    | with_reducible exact Frame.refl _ _
    | (with_reducible apply State.issue_frame _ _ _ _ _ rfl (fun e s => ?_))
    | (with_reducible apply Frame.step (runCommitKv_frame ..) rfl ?_)
    | split

theorem exec_fence_frame {g} {σ τ : State} (h : exec (.fence g) σ = .next τ) :
    Frame (fp.regs + fp.cores + fp.sent) σ τ := by
  injection h with h; subst h
  repeat' first
    | with_reducible exact Frame.refl _ _
    | (with_reducible apply State.issue_frame _ _ _ _ _ rfl (fun e s => ?_))
    | (with_reducible apply Frame.step (runFence_frame ..) rfl ?_)
    | split

theorem exec_nop_frame {g} {σ τ : State} (h : exec (.nop g) σ = .next τ) :
    Frame (fp.regs + fp.cores + fp.sent) σ τ := by
  injection h with h; subst h
  repeat' first
    | with_reducible exact Frame.refl _ _
    | (with_reducible apply State.issue_frame _ _ _ _ _ rfl (fun e s => ?_))
    | (with_reducible apply Frame.step (runNop_frame ..) rfl ?_)
    | split

theorem exec_mark_frame {g} {σ τ : State} (h : exec (.mark g) σ = .next τ) :
    Frame (fp.regs + fp.cores + fp.sent) σ τ := by
  injection h with h; subst h
  repeat' first
    | with_reducible exact Frame.refl _ _
    | (with_reducible apply State.issue_frame _ _ _ _ _ rfl (fun e s => ?_))
    | (with_reducible apply Frame.step (runMark_frame ..) rfl ?_)
    | split

theorem exec_halt_frame {g} {σ τ : State} (h : exec (.halt g) σ = .next τ) :
    Frame (fp.regs + fp.cores + fp.sent) σ τ := by
  injection h with h; subst h
  repeat' first
    | with_reducible exact Frame.refl _ _
    | (with_reducible apply State.issue_frame _ _ _ _ _ rfl (fun e s => ?_))
    | (with_reducible apply Frame.step (runHalt_frame ..) rfl ?_)
    | split

theorem exec_slotInjection_frame {g} {σ τ : State} (h : exec (.slotInjection g) σ = .next τ) :
    Frame (fp.regs + fp.cores + fp.routers + fp.links + fp.parts + fp.sent) σ τ := by
  injection h with h; subst h
  repeat' first
    | with_reducible exact Frame.refl _ _
    | (with_reducible apply Frame.step (slotInjection_frame ..) rfl ?_)
    | split

theorem exec_xorDeltaApply_frame {y} {σ τ : State} (h : exec (.xorDeltaApply y) σ = .next τ) :
    Frame (fp.regs + fp.cores + fp.crags) σ τ := by
  injection h with h; subst h
  repeat' first
    | with_reducible exact Frame.refl _ _
    | (with_reducible apply Frame.step (xorDeltaApply_frame ..) rfl ?_)
    | split

theorem exec_flitArrival_frame {g port crcBad} {σ τ : State} (h : exec (.flitArrival g port crcBad) σ = .next τ) :
    Frame (fp.regs + fp.cores + fp.routers + fp.links + fp.saddles + fp.sites + fp.parts + fp.sent) σ τ := by
  injection h with h; subst h
  repeat' first
    | with_reducible exact Frame.refl _ _
    | (with_reducible apply Frame.step (flitArrival_frame ..) rfl ?_)
    | split

theorem exec_displacedForward_frame {g} {σ τ : State} (h : exec (.displacedForward g) σ = .next τ) :
    Frame (fp.regs + fp.cores + fp.routers + fp.links + fp.sent) σ τ := by
  injection h with h; subst h
  repeat' first
    | with_reducible exact Frame.refl _ _
    | (with_reducible apply Frame.step (displacedForward_frame ..) rfl ?_)
    | split

theorem exec_displacedTimeout_frame {g} {σ τ : State} (h : exec (.displacedTimeout g) σ = .next τ) :
    Frame (fp.regs + fp.routers + fp.sent) σ τ := by
  injection h with h; subst h
  repeat' first
    | with_reducible exact Frame.refl _ _
    | (with_reducible apply Frame.step (displacedTimeout_frame ..) rfl ?_)
    | split

theorem exec_reductionResult_frame {g rctx} {σ τ : State} (h : exec (.reductionResult g rctx) σ = .next τ) :
    Frame (fp.regs + fp.cores + fp.routers + fp.links + fp.sent) σ τ := by
  injection h with h; subst h
  repeat' first
    | with_reducible exact Frame.refl _ _
    | (with_reducible apply Frame.step (reductionResult_frame ..) rfl ?_)
    | split

theorem exec_reductionIncomplete_frame {g rctx} {σ τ : State} (h : exec (.reductionIncomplete g rctx) σ = .next τ) :
    Frame (fp.regs + fp.routers + fp.parts + fp.sent) σ τ := by
  injection h with h; subst h
  repeat' first
    | with_reducible exact Frame.refl _ _
    | (with_reducible apply Frame.step (reductionIncomplete_frame ..) rfl ?_)
    | split

theorem exec_write_frame {g} {σ τ : State} (h : exec (.write g) σ = .next τ) :
    Frame (fp.regs + fp.cores + fp.crags + fp.parts + fp.sent) σ τ := by
  injection h with h; subst h
  repeat' first
    | with_reducible exact Frame.refl _ _
    | (with_reducible apply Frame.step (State.eject_frame ..) rfl ?_)
    | split

theorem exec_addInt32_frame {g} {σ τ : State} (h : exec (.addInt32 g) σ = .next τ) :
    Frame (fp.regs + fp.cores + fp.crags + fp.parts + fp.sent) σ τ := by
  injection h with h; subst h
  repeat' first
    | with_reducible exact Frame.refl _ _
    | (with_reducible apply Frame.step (State.eject_frame ..) rfl ?_)
    | split

theorem exec_xor_frame {g} {σ τ : State} (h : exec (.xor g) σ = .next τ) :
    Frame (fp.regs + fp.cores + fp.crags + fp.parts + fp.sent) σ τ := by
  injection h with h; subst h
  repeat' first
    | with_reducible exact Frame.refl _ _
    | (with_reducible apply Frame.step (State.eject_frame ..) rfl ?_)
    | split

theorem exec_addFp32_frame {g} {σ τ : State} (h : exec (.addFp32 g) σ = .next τ) :
    Frame (fp.regs + fp.cores + fp.crags + fp.parts + fp.sent) σ τ := by
  injection h with h; subst h
  repeat' first
    | with_reducible exact Frame.refl _ _
    | (with_reducible apply Frame.step (State.eject_frame ..) rfl ?_)
    | split

theorem exec_maxFp32_frame {g} {σ τ : State} (h : exec (.maxFp32 g) σ = .next τ) :
    Frame (fp.regs + fp.cores + fp.crags + fp.parts + fp.sent) σ τ := by
  injection h with h; subst h
  repeat' first
    | with_reducible exact Frame.refl _ _
    | (with_reducible apply Frame.step (State.eject_frame ..) rfl ?_)
    | split

theorem exec_lseMerge_frame {g} {σ τ : State} (h : exec (.lseMerge g) σ = .next τ) :
    Frame (fp.regs + fp.cores + fp.crags + fp.parts + fp.sent) σ τ := by
  injection h with h; subst h
  repeat' first
    | with_reducible exact Frame.refl _ _
    | (with_reducible apply Frame.step (State.eject_frame ..) rfl ?_)
    | split

theorem exec_signal_frame {g} {σ τ : State} (h : exec (.signal g) σ = .next τ) :
    Frame (fp.regs + fp.cores + fp.crags + fp.parts + fp.sent) σ τ := by
  injection h with h; subst h
  repeat' first
    | with_reducible exact Frame.refl _ _
    | (with_reducible apply Frame.step (State.eject_frame ..) rfl ?_)
    | split

theorem exec_append_frame {g} {σ τ : State} (h : exec (.append g) σ = .next τ) :
    Frame (fp.regs + fp.cores + fp.crags + fp.parts + fp.sent) σ τ := by
  injection h with h; subst h
  repeat' first
    | with_reducible exact Frame.refl _ _
    | (with_reducible apply Frame.step (State.eject_frame ..) rfl ?_)
    | split

theorem exec_bulk_frame {g} {σ τ : State} (h : exec (.bulk g) σ = .next τ) :
    Frame (fp.regs + fp.cores + fp.routers + fp.links + fp.crags + fp.sites + fp.parts + fp.sent) σ τ := by
  injection h with h; subst h
  repeat' first
    | with_reducible exact Frame.refl _ _
    | (with_reducible apply Frame.step (bulk_frame ..) rfl ?_)
    | split

theorem exec_memReq_frame {m crcBad} {σ τ : State} (h : exec (.memReq m crcBad) σ = .next τ) :
    Frame (fp.regs + fp.links + fp.saddles + fp.sites + fp.sent) σ τ := by
  injection h with h; subst h
  repeat' first
    | with_reducible exact Frame.refl _ _
    | (with_reducible apply Frame.step (memReq_frame ..) rfl ?_)
    | split

theorem exec_memData_frame {m crcBad u} {σ τ : State} (h : exec (.memData m crcBad u) σ = .next τ) :
    Frame (fp.regs + fp.links + fp.saddles + fp.sites + fp.parts + fp.sent) σ τ := by
  injection h with h; subst h
  repeat' first
    | with_reducible exact Frame.refl _ _
    | (with_reducible apply Frame.step (memData_frame ..) rfl ?_)
    | split

theorem exec_earlyFlitRelease_frame {g} {σ τ : State} (h : exec (.earlyFlitRelease g) σ = .next τ) :
    Frame (fp.regs + fp.cores + fp.crags + fp.sent) σ τ := by
  injection h with h; subst h
  repeat' first
    | with_reducible exact Frame.refl _ _
    | (with_reducible apply Frame.step (earlyFlitRelease_frame ..) rfl ?_)
    | split

theorem exec_bulkRetry_frame {p tid} {σ τ : State} (h : exec (.bulkRetry p tid) σ = .next τ) :
    Frame (fp.regs + fp.routers + fp.sites + fp.parts) σ τ := by
  injection h with h; subst h
  repeat' first
    | with_reducible exact Frame.refl _ _
    | (with_reducible apply Frame.step (bulkRetry_frame ..) rfl ?_)
    | split

theorem exec_saddleChannelFail_frame {t e ch lock} {σ τ : State} (h : exec (.saddleChannelFail t e ch lock) σ = .next τ) :
    Frame (fp.regs + fp.cores + fp.routers + fp.links + fp.tiles + fp.crags + fp.saddles + fp.sites + fp.parts + fp.reqs + fp.ports + fp.writes + fp.reads + fp.nor + fp.faultMap + fp.faultGen + fp.faultLog + fp.faultSeq + fp.sent + fp.fresh) σ τ := by
  injection h with h; subst h
  repeat' first
    | with_reducible exact Frame.refl _ _
    | (with_reducible apply Frame.step (saddleChannelFail_frame ..) rfl ?_)
    | (with_reducible apply Frame.step (lock_frame ..) rfl ?_)
    | split

theorem exec_saddleSpareSwap_frame {t e} {σ τ : State} (h : exec (.saddleSpareSwap t e) σ = .next τ) :
    Frame (fp.regs + fp.saddles + fp.parts + fp.nor + fp.faultMap + fp.faultGen + fp.faultLog + fp.faultSeq + fp.sent + fp.fresh) σ τ := by
  injection h with h; subst h
  repeat' first
    | with_reducible exact Frame.refl _ _
    | (with_reducible apply Frame.step (saddleSpareSwap_frame ..) rfl ?_)
    | split

theorem exec_scheduleReadStart_frame {m ch u} {σ τ : State} (h : exec (.scheduleReadStart m ch u) σ = .next τ) :
    Frame (fp.regs + fp.sites + fp.sent) σ τ := by
  injection h with h; subst h
  repeat' first
    | with_reducible exact Frame.refl _ _
    | (with_reducible apply Frame.step (scheduleReadStart_frame ..) rfl ?_)
    | split

theorem exec_scheduleRelease_frame {m ch} {σ τ : State} (h : exec (.scheduleRelease m ch) σ = .next τ) :
    Frame (fp.regs + fp.links + fp.sites + fp.sent) σ τ := by
  injection h with h; subst h
  repeat' first
    | with_reducible exact Frame.refl _ _
    | (with_reducible apply Frame.step (scheduleRelease_frame ..) rfl ?_)
    | split

theorem exec_memChannelFail_frame {m ch lock} {σ τ : State} (h : exec (.memChannelFail m ch lock) σ = .next τ) :
    Frame (fp.regs + fp.sites + fp.parts + fp.sent) σ τ := by
  injection h with h; subst h
  repeat' first
    | with_reducible exact Frame.refl _ _
    | (with_reducible apply Frame.step (memChannelFail_frame ..) rfl ?_)
    | (with_reducible apply Frame.step (lock_frame ..) rfl ?_)
    | split

theorem exec_stackRefresh_frame {m ch} {σ τ : State} (h : exec (.stackRefresh m ch) σ = .next τ) :
    Frame (fp.regs + fp.sites) σ τ := by
  injection h with h; subst h
  repeat' first
    | with_reducible exact Frame.refl _ _
    | (with_reducible apply Frame.step (stackRefresh_frame ..) rfl ?_)
    | split

theorem exec_regCmdWrite_frame {m} {σ τ : State} (h : exec (.regCmdWrite m) σ = .next τ) :
    Frame (fp.regs + fp.sites + fp.parts) σ τ := by
  injection h with h; subst h
  repeat' first
    | with_reducible exact Frame.refl _ _
    | (with_reducible apply Frame.step (regCmdWrite_frame ..) rfl ?_)
    | split

theorem exec_regCmdInvalidate_frame {m} {σ τ : State} (h : exec (.regCmdInvalidate m) σ = .next τ) :
    Frame (fp.regs + fp.sites + fp.parts) σ τ := by
  injection h with h; subst h
  repeat' first
    | with_reducible exact Frame.refl _ _
    | (with_reducible apply Frame.step (regCmdInvalidate_frame ..) rfl ?_)
    | split

theorem exec_zeroFillDone_frame {m} {σ τ : State} (h : exec (.zeroFillDone m) σ = .next τ) :
    Frame (fp.regs + fp.sites) σ τ := by
  injection h with h; subst h
  repeat' first
    | with_reducible exact Frame.refl _ _
    | (with_reducible apply Frame.step (zeroFillDone_frame ..) rfl ?_)
    | split

theorem exec_setKind_frame {m v} {σ τ : State} (h : exec (.setKind m v) σ = .next τ) :
    Frame (fp.regs + fp.sent) σ τ := by
  injection h with h; subst h
  repeat' first
    | with_reducible exact Frame.refl _ _
    | (with_reducible apply Frame.step (setKind_frame ..) rfl ?_)
    | split

theorem exec_exportDescriptor_frame {t d} {σ τ : State} (h : exec (.exportDescriptor t d) σ = .next τ) :
    Frame (fp.routers + fp.parts) σ τ := by
  injection h with h; subst h
  repeat' first
    | with_reducible exact Frame.refl _ _
    | (with_reducible apply Frame.step (exportDescriptor_frame ..) rfl ?_)
    | split

theorem exec_stageIn_frame {m cmd bytes u} {σ τ : State} (h : exec (.stageIn m cmd bytes u) σ = .next τ) :
    Frame (fp.regs + fp.sites + fp.parts + fp.sent) σ τ := by
  injection h with h; subst h
  repeat' first
    | with_reducible exact Frame.refl _ _
    | (with_reducible apply Frame.step (State.pmCommand_frame ..) rfl ?_)
    | split

theorem exec_stageOut_frame {m cmd u} {σ τ : State} (h : exec (.stageOut m cmd u) σ = .next τ) :
    Frame (fp.regs + fp.sites + fp.parts + fp.sent) σ τ := by
  injection h with h; subst h
  repeat' first
    | with_reducible exact Frame.refl _ _
    | (with_reducible apply Frame.step (State.pmCommand_frame ..) rfl ?_)
    | split

theorem exec_load_frame {m cmd u} {σ τ : State} (h : exec (.load m cmd u) σ = .next τ) :
    Frame (fp.regs + fp.sites + fp.parts + fp.sent) σ τ := by
  injection h with h; subst h
  repeat' first
    | with_reducible exact Frame.refl _ _
    | (with_reducible apply Frame.step (State.pmCommand_frame ..) rfl ?_)
    | split

theorem exec_importRange_frame {m cmd u} {σ τ : State} (h : exec (.importRange m cmd u) σ = .next τ) :
    Frame (fp.regs + fp.sites + fp.parts + fp.sent) σ τ := by
  injection h with h; subst h
  repeat' first
    | with_reducible exact Frame.refl _ _
    | (with_reducible apply Frame.step (State.pmCommand_frame ..) rfl ?_)
    | split

theorem exec_copy_frame {m cmd u} {σ τ : State} (h : exec (.copy m cmd u) σ = .next τ) :
    Frame (fp.regs + fp.sites + fp.parts + fp.sent) σ τ := by
  injection h with h; subst h
  repeat' first
    | with_reducible exact Frame.refl _ _
    | (with_reducible apply Frame.step (State.pmCommand_frame ..) rfl ?_)
    | split

theorem exec_zero_frame {m cmd u} {σ τ : State} (h : exec (.zero m cmd u) σ = .next τ) :
    Frame (fp.regs + fp.sites + fp.parts + fp.sent) σ τ := by
  injection h with h; subst h
  repeat' first
    | with_reducible exact Frame.refl _ _
    | (with_reducible apply Frame.step (State.pmCommand_frame ..) rfl ?_)
    | split

theorem exec_pageMoverDone_frame {m u} {σ τ : State} (h : exec (.pageMoverDone m u) σ = .next τ) :
    Frame (fp.regs + fp.cores + fp.sites + fp.parts + fp.sent) σ τ := by
  injection h with h; subst h
  repeat' first
    | with_reducible exact Frame.refl _ _
    | (with_reducible apply Frame.step (pageMoverDone_frame ..) rfl ?_)
    | split

theorem exec_stackTempReading_frame {m temp} {σ τ : State} (h : exec (.stackTempReading m temp) σ = .next τ) :
    Frame (fp.regs + fp.sites + fp.sent) σ τ := by
  injection h with h; subst h
  repeat' first
    | with_reducible exact Frame.refl _ _
    | (with_reducible apply Frame.step (stackTempReading_frame ..) rfl ?_)
    | split

theorem exec_deepPageMove_frame {m g page tid region offset record} {σ τ : State} (h : exec (.deepPageMove m g page tid region offset record) σ = .next τ) :
    Frame (fp.routers + fp.sites + fp.parts) σ τ := by
  injection h with h; subst h
  repeat' first
    | with_reducible exact Frame.refl _ _
    | (with_reducible apply Frame.step (deepPageMove_frame ..) rfl ?_)
    | (with_reducible apply Frame.step (State.record_frame ..) rfl ?_)
    | split

theorem exec_deepPageLive_frame {m g entry record} {σ τ : State} (h : exec (.deepPageLive m g entry record) σ = .next τ) :
    Frame (fp.regs + fp.cores + fp.crags + fp.sites + fp.reqs) σ τ := by
  injection h with h; subst h
  repeat' first
    | with_reducible exact Frame.refl _ _
    | (with_reducible apply Frame.step (deepPageLive_frame ..) rfl ?_)
    | (with_reducible apply Frame.step (State.record_frame ..) rfl ?_)
    | split

theorem exec_loadImage_frame {p d} {σ τ : State} (h : exec (.loadImage p d) σ = .next τ) :
    Frame (fp.regs + fp.cores + fp.routers + fp.tiles + fp.crags + fp.sites + fp.parts + fp.reqs + fp.ports + fp.writes + fp.reads + fp.sent + fp.fresh) σ τ := by
  injection h with h; subst h
  repeat' first
    | with_reducible exact Frame.refl _ _
    | (with_reducible apply Frame.step (loadImage_frame ..) rfl ?_)
    | split

theorem exec_loadEnd_frame {p} {σ τ : State} (h : exec (.loadEnd p) σ = .next τ) :
    Frame (fp.regs + fp.cores + fp.routers + fp.links + fp.tiles + fp.crags + fp.sites + fp.parts + fp.reqs + fp.ports + fp.writes + fp.reads + fp.sent + fp.fresh) σ τ := by
  injection h with h; subst h
  repeat' first
    | with_reducible exact Frame.refl _ _
    | (with_reducible apply Frame.step (loadEnd_frame ..) rfl ?_)
    | split

theorem exec_migrationRound_frame {p} {σ τ : State} (h : exec (.migrationRound p) σ = .next τ) :
    Frame (fp.routers + fp.parts) σ τ := by
  injection h with h; subst h
  repeat' first
    | with_reducible exact Frame.refl _ _
    | (with_reducible apply Frame.step (migrationRound_frame ..) rfl ?_)
    | split

theorem exec_repairCut_frame {p} {σ τ : State} (h : exec (.repairCut p) σ = .next τ) :
    Frame (fp.regs + fp.cores + fp.routers + fp.tiles + fp.saddles + fp.parts) σ τ := by
  injection h with h; subst h
  repeat' first
    | with_reducible exact Frame.refl _ _
    | (with_reducible apply Frame.step (repairCut_frame ..) rfl ?_)
    | split

theorem exec_spareClear_frame {y} {σ τ : State} (h : exec (.spareClear y) σ = .next τ) :
    Frame (fp.regs + fp.cores + fp.crags) σ τ := by
  injection h with h; subst h
  repeat' first
    | with_reducible exact Frame.refl _ _
    | (with_reducible apply Frame.step (spareClear_frame ..) rfl ?_)
    | split

theorem exec_cmdPi_frame {p v} {σ τ : State} (h : exec (.cmdPi p v) σ = .next τ) :
    Frame (fp.regs + fp.parts + fp.sent) σ τ := by
  injection h with h; subst h
  repeat' first
    | with_reducible exact Frame.refl _ _
    | (with_reducible apply Frame.step (cmdPi_frame ..) rfl ?_)
    | split

theorem exec_cplCi_frame {p v} {σ τ : State} (h : exec (.cplCi p v) σ = .next τ) :
    Frame (fp.regs) σ τ := by
  injection h with h; subst h
  repeat' first
    | with_reducible exact Frame.refl _ _
    | (with_reducible apply Frame.step (cplCi_frame ..) rfl ?_)
    | split

theorem exec_arm_frame {p} {σ τ : State} (h : exec (.arm p) σ = .next τ) :
    Frame (fp.regs + fp.parts + fp.ports + fp.writes + fp.reads + fp.sent) σ τ := by
  injection h with h; subst h
  repeat' first
    | with_reducible exact Frame.refl _ _
    | (with_reducible apply Frame.step (arm_frame ..) rfl ?_)
    | split

theorem exec_intAddr_frame {p v} {σ τ : State} (h : exec (.intAddr p v) σ = .next τ) :
    Frame (fp.regs + fp.parts) σ τ := by
  injection h with h; subst h
  repeat' first
    | with_reducible exact Frame.refl _ _
    | (with_reducible apply Frame.step (intAddr_frame ..) rfl ?_)
    | split

theorem exec_commandFetch_frame {p entry} {σ τ : State} (h : exec (.commandFetch p entry) σ = .next τ) :
    Frame (fp.regs + fp.parts + fp.reqs + fp.ports + fp.writes + fp.reads + fp.sent + fp.fresh) σ τ := by
  injection h with h; subst h
  repeat' first
    | with_reducible exact Frame.refl _ _
    | (with_reducible apply Frame.step (commandFetch_frame ..) rfl ?_)
    | split

theorem exec_submit_frame {p d} {σ τ : State} (h : exec (.submit p d) σ = .next τ) :
    Frame (fp.regs + fp.cores + fp.crags + fp.sites + fp.parts + fp.reqs + fp.ports + fp.writes + fp.reads + fp.order + fp.sent + fp.fresh) σ τ := by
  injection h with h; subst h
  repeat' first
    | with_reducible exact Frame.refl _ _
    | (with_reducible apply Frame.step (submit_frame ..) rfl ?_)
    | split

theorem exec_pause_frame {p} {σ τ : State} (h : exec (.pause p) σ = .next τ) :
    Frame (fp.regs + fp.parts + fp.reqs + fp.ports + fp.writes + fp.reads + fp.sent) σ τ := by
  injection h with h; subst h
  repeat' first
    | with_reducible exact Frame.refl _ _
    | (with_reducible apply Frame.step (pause_frame ..) rfl ?_)
    | split

theorem exec_resume_frame {p d} {σ τ : State} (h : exec (.resume p d) σ = .next τ) :
    Frame (fp.regs + fp.cores + fp.crags + fp.sites + fp.parts + fp.reqs + fp.ports + fp.writes + fp.reads + fp.order + fp.sent + fp.fresh) σ τ := by
  injection h with h; subst h
  repeat' first
    | with_reducible exact Frame.refl _ _
    | (with_reducible apply Frame.step (resume_frame ..) rfl ?_)
    | split

theorem exec_cancel_frame {p} {σ τ : State} (h : exec (.cancel p) σ = .next τ) :
    Frame (fp.regs + fp.parts + fp.reqs + fp.ports + fp.writes + fp.reads + fp.sent) σ τ := by
  injection h with h; subst h
  repeat' first
    | with_reducible exact Frame.refl _ _
    | (with_reducible apply Frame.step (cancel_frame ..) rfl ?_)
    | split

theorem exec_release_frame {p} {σ τ : State} (h : exec (.release p) σ = .next τ) :
    Frame (fp.regs + fp.parts + fp.reqs + fp.ports + fp.writes + fp.reads + fp.sent) σ τ := by
  injection h with h; subst h
  repeat' first
    | with_reducible exact Frame.refl _ _
    | (with_reducible apply Frame.step (release_frame ..) rfl ?_)
    | split

theorem exec_keyLoad_frame {p record} {σ τ : State} (h : exec (.keyLoad p record) σ = .next τ) :
    Frame (fp.regs + fp.sites + fp.parts + fp.reqs + fp.ports + fp.writes + fp.reads + fp.sent + fp.fresh) σ τ := by
  injection h with h; subst h
  repeat' first
    | with_reducible exact Frame.refl _ _
    | (with_reducible apply Frame.step (keyLoad_frame ..) rfl ?_)
    | split

theorem exec_keyClear_frame {p} {σ τ : State} (h : exec (.keyClear p) σ = .next τ) :
    Frame (fp.regs + fp.sites + fp.parts + fp.reqs + fp.ports + fp.writes + fp.reads + fp.sent + fp.fresh) σ τ := by
  injection h with h; subst h
  repeat' first
    | with_reducible exact Frame.refl _ _
    | (with_reducible apply Frame.step (keyClear_frame ..) rfl ?_)
    | split

theorem exec_attest_frame {p} {σ τ : State} (h : exec (.attest p) σ = .next τ) :
    Frame (fp.regs + fp.parts + fp.reqs + fp.ports + fp.writes + fp.reads + fp.ssbs + fp.nor + fp.sent + fp.fresh) σ τ := by
  injection h with h; subst h
  repeat' first
    | with_reducible exact Frame.refl _ _
    | (with_reducible apply Frame.step (attest_frame ..) rfl ?_)
    | split

theorem exec_heldCompletionWrite_frame {p} {σ τ : State} (h : exec (.heldCompletionWrite p) σ = .next τ) :
    Frame (fp.regs + fp.parts + fp.reqs + fp.ports + fp.writes + fp.reads + fp.sent) σ τ := by
  injection h with h; subst h
  repeat' first
    | with_reducible exact Frame.refl _ _
    | (with_reducible apply Frame.step (heldCompletionWrite_frame ..) rfl ?_)
    | split

theorem exec_elasticScan_frame {p spill} {σ τ : State} (h : exec (.elasticScan p spill) σ = .next τ) :
    Frame (fp.regs + fp.cores + fp.crags + fp.sites + fp.parts + fp.reqs + fp.ports + fp.writes + fp.reads + fp.order + fp.sent + fp.fresh) σ τ := by
  injection h with h; subst h
  repeat' first
    | with_reducible exact Frame.refl _ _
    | (with_reducible apply Frame.step (elasticScan_frame ..) rfl ?_)
    | split

theorem exec_lanePrime_frame {p lane} {σ τ : State} (h : exec (.lanePrime p lane) σ = .next τ) :
    Frame (fp.regs + fp.cores + fp.crags + fp.parts) σ τ := by
  injection h with h; subst h
  repeat' first
    | with_reducible exact Frame.refl _ _
    | (with_reducible apply Frame.step (lanePrime_frame ..) rfl ?_)
    | split

theorem exec_outputRecordWrite_frame {p} {σ τ : State} (h : exec (.outputRecordWrite p) σ = .next τ) :
    Frame (fp.regs + fp.parts + fp.reqs + fp.ports + fp.writes + fp.reads + fp.sent) σ τ := by
  injection h with h; subst h
  repeat' first
    | with_reducible exact Frame.refl _ _
    | (with_reducible apply Frame.step (outputRecordWrite_frame ..) rfl ?_)
    | split

theorem exec_kvExportDone_frame {p h} {σ τ : State} (h : exec (.kvExportDone p h) σ = .next τ) :
    Frame (fp.regs + fp.parts + fp.reqs + fp.ports + fp.writes + fp.reads + fp.sent + fp.fresh) σ τ := by
  injection h with h; subst h
  repeat' first
    | with_reducible exact Frame.refl _ _
    | (with_reducible apply Frame.step (kvExportDone_frame ..) rfl ?_)
    | split

theorem exec_ttlExpire_frame {p h} {σ τ : State} (h : exec (.ttlExpire p h) σ = .next τ) :
    Frame (fp.regs + fp.parts + fp.reqs + fp.ports + fp.writes + fp.reads + fp.sent) σ τ := by
  injection h with h; subst h
  repeat' first
    | with_reducible exact Frame.refl _ _
    | (with_reducible apply Frame.step (ttlExpire_frame ..) rfl ?_)
    | split

theorem exec_slackSweep_frame {p} {σ τ : State} (h : exec (.slackSweep p) σ = .next τ) :
    Frame (fp.regs + fp.sent) σ τ := by
  injection h with h; subst h
  repeat' first
    | with_reducible exact Frame.refl _ _
    | (with_reducible apply Frame.step (slackSweep_frame ..) rfl ?_)
    | split

theorem exec_pairEn_frame {p v} {σ τ : State} (h : exec (.pairEn p v) σ = .next τ) :
    Frame (fp.regs + fp.sent) σ τ := by
  injection h with h; subst h
  repeat' first
    | with_reducible exact Frame.refl _ _
    | (with_reducible apply Frame.step (pairEn_frame ..) rfl ?_)
    | split

theorem exec_draft_frame {p} {σ τ : State} (h : exec (.draft p) σ = .next τ) :
    Frame (fp.regs + fp.cores + fp.crags + fp.parts + fp.sent) σ τ := by
  injection h with h; subst h
  repeat' first
    | with_reducible exact Frame.refl _ _
    | (with_reducible apply Frame.step (draft_frame ..) rfl ?_)
    | split

theorem exec_spur_frame {p} {σ τ : State} (h : exec (.spur p) σ = .next τ) :
    Frame (fp.regs + fp.parts + fp.sent) σ τ := by
  injection h with h; subst h
  repeat' first
    | with_reducible exact Frame.refl _ _
    | (with_reducible apply Frame.step (spurWord_frame ..) rfl ?_)
    | split

theorem exec_ventCmdBind_frame {p} {σ τ : State} (h : exec (.ventCmdBind p) σ = .next τ) :
    Frame (fp.regs + fp.parts) σ τ := by
  injection h with h; subst h
  repeat' first
    | with_reducible exact Frame.refl _ _
    | (with_reducible apply Frame.step (ventCmdBind_frame ..) rfl ?_)
    | split

theorem exec_ventCmdUnbind_frame {p} {σ τ : State} (h : exec (.ventCmdUnbind p) σ = .next τ) :
    Frame (fp.parts) σ τ := by
  injection h with h; subst h
  repeat' first
    | with_reducible exact Frame.refl _ _
    | (with_reducible apply Frame.step (ventCmdUnbind_frame ..) rfl ?_)
    | split

theorem exec_aliveLoss_frame {g} {σ τ : State} (h : exec (.aliveLoss g) σ = .next τ) :
    Frame (fp.regs + fp.cores + fp.routers + fp.links + fp.tiles + fp.crags + fp.sites + fp.parts + fp.reqs + fp.ports + fp.writes + fp.reads + fp.nor + fp.faultMap + fp.faultGen + fp.faultLog + fp.faultSeq + fp.sent + fp.fresh) σ τ := by
  injection h with h; subst h
  repeat' first
    | with_reducible exact Frame.refl _ _
    | (with_reducible apply Frame.step (aliveLoss_frame ..) rfl ?_)
    | (with_reducible apply Frame.step (State.joinHold_frame ..) rfl ?_)
    | split

theorem exec_phaseLoss_frame {stack phase excursion} {σ τ : State} (h : exec (.phaseLoss stack phase excursion) σ = .next τ) :
    Frame (fp.regs + fp.cores + fp.routers + fp.links + fp.tiles + fp.crags + fp.sites + fp.parts + fp.reqs + fp.sps + fp.ports + fp.writes + fp.reads + fp.ctls + fp.nor + fp.faultMap + fp.faultGen + fp.faultLog + fp.faultSeq + fp.sent + fp.fresh) σ τ := by
  injection h with h; subst h
  repeat' first
    | with_reducible exact Frame.refl _ _
    | (with_reducible apply Frame.step (phaseLoss_frame ..) rfl ?_)
    | split

theorem exec_heartbeat_frame {c} {σ τ : State} (h : exec (.heartbeat c) σ = .next τ) :
    Frame (fp.ctls) σ τ := by
  injection h with h; subst h
  repeat' first
    | with_reducible exact Frame.refl _ _
    | (with_reducible apply Frame.step (heartbeat_frame ..) rfl ?_)
    | split

theorem exec_heartbeatTimeout_frame {c} {σ τ : State} (h : exec (.heartbeatTimeout c) σ = .next τ) :
    Frame (fp.regs + fp.cores + fp.routers + fp.links + fp.tiles + fp.crags + fp.sites + fp.parts + fp.reqs + fp.rmbs + fp.sps + fp.ports + fp.writes + fp.reads + fp.ctls + fp.nor + fp.tally + fp.faultMap + fp.faultGen + fp.faultLog + fp.faultSeq + fp.sent + fp.fresh) σ τ := by
  injection h with h; subst h
  repeat' first
    | with_reducible exact Frame.refl _ _
    | (with_reducible apply Frame.step (heartbeatTimeout_frame ..) rfl ?_)
    | (with_reducible apply Frame.step (State.pairInfo_frame ..) rfl ?_)
    | split

theorem exec_faultCompletion_frame {p} {σ τ : State} (h : exec (.faultCompletion p) σ = .next τ) :
    Frame (fp.regs + fp.parts + fp.reqs + fp.ports + fp.writes + fp.reads + fp.sent) σ τ := by
  injection h with h; subst h
  repeat' first
    | with_reducible exact Frame.refl _ _
    | (with_reducible apply Frame.step (faultCompletion_frame ..) rfl ?_)
    | split

theorem exec_powerOn_frame {clk fails} {σ τ : State} (h : exec (.powerOn clk fails) σ = .next τ) :
    Frame (fp.regs + fp.tiles + fp.sites + fp.parts + fp.rmbs + fp.sps + fp.ctls + fp.nor + fp.faultMap + fp.faultGen + fp.faultLog + fp.faultSeq + fp.sent + fp.fresh) σ τ := by
  injection h with h; subst h
  repeat' first
    | with_reducible exact Frame.refl _ _
    | (with_reducible apply Frame.step (powerOn_frame ..) rfl ?_)
    | split

theorem exec_clkRetry_frame {clk fails} {σ τ : State} (h : exec (.clkRetry clk fails) σ = .next τ) :
    Frame (fp.regs + fp.tiles + fp.sites + fp.parts + fp.rmbs + fp.sps + fp.ctls + fp.nor + fp.faultMap + fp.faultGen + fp.faultLog + fp.faultSeq + fp.sent + fp.fresh) σ τ := by
  injection h with h; subst h
  repeat' first
    | with_reducible exact Frame.refl _ _
    | (with_reducible apply Frame.step (clkRetry_frame ..) rfl ?_)
    | split

theorem exec_vinSample_frame {vin current} {σ τ : State} (h : exec (.vinSample vin current) σ = .next τ) :
    Frame (fp.regs + fp.cores + fp.routers + fp.links + fp.tiles + fp.crags + fp.sites + fp.parts + fp.reqs + fp.sps + fp.ports + fp.writes + fp.reads + fp.nor + fp.faultMap + fp.faultGen + fp.faultLog + fp.faultSeq + fp.sent + fp.fresh) σ τ := by
  injection h with h; subst h
  repeat' first
    | with_reducible exact Frame.refl _ _
    | (with_reducible apply Frame.step (vinSample_frame ..) rfl ?_)
    | split

theorem exec_powerDown_frame  {σ τ : State} (h : exec (.powerDown) σ = .next τ) :
    Frame (fp.regs + fp.cores + fp.routers + fp.links + fp.tiles + fp.crags + fp.saddles + fp.sites + fp.parts + fp.reqs + fp.rmbs + fp.sps + fp.ports + fp.writes + fp.reads + fp.ctls + fp.ssbs + fp.nor + fp.faultMap + fp.faultGen + fp.faultLog + fp.faultSeq) σ τ := by
  injection h with h; subst h
  repeat' first
    | with_reducible exact Frame.refl _ _
    | (with_reducible apply Frame.step (powerDown_frame ..) rfl ?_)
    | split

theorem exec_computeSwitchClose_frame {t ok} {σ τ : State} (h : exec (.computeSwitchClose t ok) σ = .next τ) :
    Frame (fp.regs + fp.cores + fp.routers + fp.links + fp.tiles + fp.crags + fp.sites + fp.parts + fp.reqs + fp.ports + fp.writes + fp.reads + fp.nor + fp.faultMap + fp.faultGen + fp.faultLog + fp.faultSeq + fp.sent + fp.fresh) σ τ := by
  injection h with h; subst h
  repeat' first
    | with_reducible exact Frame.refl _ _
    | (with_reducible apply Frame.step (computeSwitchClose_frame ..) rfl ?_)
    | split

theorem exec_shutdown_frame  {σ τ : State} (h : exec (.shutdown) σ = .next τ) :
    Frame (fp.regs + fp.cores + fp.routers + fp.links + fp.tiles + fp.crags + fp.sites + fp.parts + fp.reqs + fp.sps + fp.ports + fp.writes + fp.reads + fp.ssbs + fp.nor + fp.faultMap + fp.faultGen + fp.faultLog + fp.faultSeq + fp.sent + fp.fresh) σ τ := by
  injection h with h; subst h
  repeat' first
    | with_reducible exact Frame.refl _ _
    | (with_reducible apply Frame.step (shutdown_frame ..) rfl ?_)
    | split

theorem exec_thermalUpdate_frame {tIn} {σ τ : State} (h : exec (.thermalUpdate tIn) σ = .next τ) :
    Frame (fp.regs + fp.tiles + fp.parts + fp.sps + fp.sent + fp.fresh) σ τ := by
  injection h with h; subst h
  repeat' first
    | with_reducible exact Frame.refl _ _
    | (with_reducible apply Frame.step (thermalUpdate_frame ..) rfl ?_)
    | split

theorem exec_diodeReading_frame {t} {σ τ : State} (h : exec (.diodeReading t) σ = .next τ) :
    Frame (fp.regs + fp.cores + fp.routers + fp.links + fp.tiles + fp.crags + fp.sites + fp.parts + fp.reqs + fp.ports + fp.writes + fp.reads + fp.nor + fp.faultMap + fp.faultGen + fp.faultLog + fp.faultSeq + fp.sent + fp.fresh) σ τ := by
  injection h with h; subst h
  repeat' first
    | with_reducible exact Frame.refl _ _
    | (with_reducible apply Frame.step (diodeReading_frame ..) rfl ?_)
    | split

theorem exec_baseCapture_frame {t} {σ τ : State} (h : exec (.baseCapture t) σ = .next τ) :
    Frame (fp.regs + fp.tiles) σ τ := by
  injection h with h; subst h
  repeat' first
    | with_reducible exact Frame.refl _ _
    | (with_reducible apply Frame.step (baseCapture_frame ..) rfl ?_)
    | split

theorem exec_captureEnd_frame {t} {σ τ : State} (h : exec (.captureEnd t) σ = .next τ) :
    Frame (fp.regs + fp.tiles + fp.nor + fp.sent + fp.fresh) σ τ := by
  injection h with h; subst h
  repeat' first
    | with_reducible exact Frame.refl _ _
    | (with_reducible apply Frame.step (captureEnd_frame ..) rfl ?_)
    | split

theorem exec_phOffline_frame {v} {σ τ : State} (h : exec (.phOffline v) σ = .next τ) :
    Frame (fp.regs + fp.sps + fp.sent) σ τ := by
  injection h with h; subst h
  repeat' first
    | with_reducible exact Frame.refl _ _
    | (with_reducible apply Frame.step (phOffline_frame ..) rfl ?_)
    | split

theorem exec_cartridgeSelfTest_frame {stack phase} {σ τ : State} (h : exec (.cartridgeSelfTest stack phase) σ = .next τ) :
    Frame (fp.sps + fp.faultMap + fp.faultGen) σ τ := by
  injection h with h; subst h
  repeat' first
    | with_reducible exact Frame.refl _ _
    | (with_reducible apply Frame.step (cartridgeSelfTest_frame ..) rfl ?_)
    | split

theorem exec_conversionResult_frame {pg rawA rawB} {σ τ : State} (h : exec (.conversionResult pg rawA rawB) σ = .next τ) :
    Frame (fp.regs + fp.tiles + fp.parts + fp.rmbs + fp.nor + fp.sent + fp.fresh) σ τ := by
  injection h with h; subst h
  repeat' first
    | with_reducible exact Frame.refl _ _
    | (with_reducible apply Frame.step (conversionResult_frame ..) rfl ?_)
    | split

theorem exec_refSel_frame {pg v} {σ τ : State} (h : exec (.refSel pg v) σ = .next τ) :
    Frame (fp.regs + fp.rmbs) σ τ := by
  injection h with h; subst h
  repeat' first
    | with_reducible exact Frame.refl _ _
    | (with_reducible apply Frame.step (refSel_frame ..) rfl ?_)
    | split

theorem exec_refRdy_frame {pg} {σ τ : State} (h : exec (.refRdy pg) σ = .next τ) :
    Frame (fp.regs + fp.parts + fp.rmbs + fp.nor + fp.sent + fp.fresh) σ τ := by
  injection h with h; subst h
  repeat' first
    | with_reducible exact Frame.refl _ _
    | (with_reducible apply Frame.step (refRdy_frame ..) rfl ?_)
    | split

theorem exec_swStart_frame {pg} {σ τ : State} (h : exec (.swStart pg) σ = .next τ) :
    Frame (fp.regs + fp.parts + fp.rmbs + fp.nor + fp.sent + fp.fresh) σ τ := by
  injection h with h; subst h
  repeat' first
    | with_reducible exact Frame.refl _ _
    | (with_reducible apply Frame.step (swStart_frame ..) rfl ?_)
    | split

theorem exec_calStart_frame {pg} {σ τ : State} (h : exec (.calStart pg) σ = .next τ) :
    Frame (fp.regs + fp.rmbs + fp.nor) σ τ := by
  injection h with h; subst h
  repeat' first
    | with_reducible exact Frame.refl _ _
    | (with_reducible apply Frame.step (calStart_frame ..) rfl ?_)
    | split

theorem exec_rmbTimer_frame {pg k} {σ τ : State} (h : exec (.rmbTimer pg k) σ = .next τ) :
    Frame (fp.regs + fp.parts + fp.rmbs + fp.nor + fp.sent + fp.fresh) σ τ := by
  injection h with h; subst h
  repeat' first
    | with_reducible exact Frame.refl _ _
    | (with_reducible apply Frame.step (rmbTimer_frame ..) rfl ?_)
    | split

theorem exec_snapshotStart_frame {p} {σ τ : State} (h : exec (.snapshotStart p) σ = .next τ) :
    Frame (fp.regs + fp.parts + fp.rmbs + fp.nor + fp.sent + fp.fresh) σ τ := by
  injection h with h; subst h
  repeat' first
    | with_reducible exact Frame.refl _ _
    | (with_reducible apply Frame.step (snapshotStart_frame ..) rfl ?_)
    | split

theorem exec_epochEnd_frame {t} {σ τ : State} (h : exec (.epochEnd t) σ = .next τ) :
    Frame (fp.regs + fp.parts + fp.rmbs + fp.sent + fp.fresh) σ τ := by
  injection h with h; subst h
  repeat' first
    | with_reducible exact Frame.refl _ _
    | (with_reducible apply Frame.step (epochEnd_frame ..) rfl ?_)
    | split

theorem exec_portTrain_frame {n d} {σ τ : State} (h : exec (.portTrain n d) σ = .next τ) :
    Frame (fp.regs + fp.parts + fp.ports + fp.writes + fp.reads + fp.sent) σ τ := by
  injection h with h; subst h
  repeat' first
    | with_reducible exact Frame.refl _ _
    | (with_reducible apply Frame.step (portTrain_frame ..) rfl ?_)
    | split

theorem exec_trainingTimeout_frame {n} {σ τ : State} (h : exec (.trainingTimeout n) σ = .next τ) :
    Frame (fp.regs + fp.parts + fp.ports + fp.writes + fp.reads + fp.sent) σ τ := by
  injection h with h; subst h
  repeat' first
    | with_reducible exact Frame.refl _ _
    | (with_reducible apply Frame.step (trainingTimeout_frame ..) rfl ?_)
    | split

theorem exec_downRetry_frame {n d} {σ τ : State} (h : exec (.downRetry n d) σ = .next τ) :
    Frame (fp.regs + fp.parts + fp.ports + fp.writes + fp.reads + fp.sent) σ τ := by
  injection h with h; subst h
  repeat' first
    | with_reducible exact Frame.refl _ _
    | (with_reducible apply Frame.step (downRetry_frame ..) rfl ?_)
    | split

theorem exec_dataFlit_frame {n fseq ack vc cr ackv good corr bytes} {σ τ : State} (h : exec (.dataFlit n fseq ack vc cr ackv good corr bytes) σ = .next τ) :
    Frame (fp.regs + fp.cores + fp.routers + fp.links + fp.tiles + fp.crags + fp.sites + fp.parts + fp.reqs + fp.rmbs + fp.sps + fp.ports + fp.writes + fp.reads + fp.ctls + fp.ssbs + fp.nor + fp.fuses + fp.tally + fp.faultMap + fp.faultGen + fp.faultLog + fp.faultSeq + fp.sent + fp.fresh) σ τ := by
  injection h with h; subst h
  repeat' first
    | with_reducible exact Frame.refl _ _
    | (with_reducible apply Frame.step (dataFlit_frame ..) rfl ?_)
    | split

theorem exec_idleFlit_frame {n ack vc cr ackv corr} {σ τ : State} (h : exec (.idleFlit n ack vc cr ackv corr) σ = .next τ) :
    Frame (fp.regs + fp.ports + fp.writes + fp.reads + fp.sent) σ τ := by
  injection h with h; subst h
  repeat' first
    | with_reducible exact Frame.refl _ _
    | (with_reducible apply Frame.step (idleFlit_frame ..) rfl ?_)
    | split

theorem exec_nak_frame {n fseq ack vc cr ackv corr} {σ τ : State} (h : exec (.nak n fseq ack vc cr ackv corr) σ = .next τ) :
    Frame (fp.regs + fp.parts + fp.ports + fp.writes + fp.reads + fp.sent) σ τ := by
  injection h with h; subst h
  repeat' first
    | with_reducible exact Frame.refl _ _
    | (with_reducible apply Frame.step (nak_frame ..) rfl ?_)
    | split

theorem exec_ackTimeout_frame {n} {σ τ : State} (h : exec (.ackTimeout n) σ = .next τ) :
    Frame (fp.regs + fp.parts + fp.ports + fp.sent) σ τ := by
  injection h with h; subst h
  repeat' first
    | with_reducible exact Frame.refl _ _
    | (with_reducible apply Frame.step (ackTimeout_frame ..) rfl ?_)
    | split

theorem exec_blockLockLoss_frame {n} {σ τ : State} (h : exec (.blockLockLoss n) σ = .next τ) :
    Frame (fp.regs + fp.parts + fp.sent) σ τ := by
  injection h with h; subst h
  repeat' first
    | with_reducible exact Frame.refl _ _
    | (with_reducible apply Frame.step (blockLockLoss_frame ..) rfl ?_)
    | split

theorem exec_retrain_frame {n} {σ τ : State} (h : exec (.retrain n) σ = .next τ) :
    Frame (fp.regs + fp.parts + fp.sent) σ τ := by
  injection h with h; subst h
  repeat' first
    | with_reducible exact Frame.refl _ _
    | (with_reducible apply Frame.step (retrain_frame ..) rfl ?_)
    | split

theorem exec_retrainTimeout_frame {n active} {σ τ : State} (h : exec (.retrainTimeout n active) σ = .next τ) :
    Frame (fp.regs + fp.parts + fp.ports + fp.writes + fp.reads + fp.sent) σ τ := by
  injection h with h; subst h
  repeat' first
    | with_reducible exact Frame.refl _ _
    | (with_reducible apply Frame.step (retrainTimeout_frame ..) rfl ?_)
    | split

theorem exec_mmioWr_frame {n tag addr v} {σ τ : State} (h : exec (.mmioWr n tag addr v) σ = .next τ) :
    Frame (fp.regs + fp.cores + fp.routers + fp.links + fp.tiles + fp.crags + fp.sites + fp.parts + fp.reqs + fp.rmbs + fp.sps + fp.ports + fp.writes + fp.reads + fp.ctls + fp.ssbs + fp.nor + fp.fuses + fp.tally + fp.faultMap + fp.faultGen + fp.faultLog + fp.faultSeq + fp.sent + fp.fresh) σ τ := by
  injection h with h; subst h
  repeat' first
    | with_reducible exact Frame.refl _ _
    | (with_reducible apply Frame.step (mmioWr_frame ..) rfl ?_)
    | split

theorem exec_mmioRd_frame {n tag addr} {σ τ : State} (h : exec (.mmioRd n tag addr) σ = .next τ) :
    Frame (fp.regs + fp.ports + fp.nor + fp.sent) σ τ := by
  injection h with h; subst h
  repeat' first
    | with_reducible exact Frame.refl _ _
    | (with_reducible apply Frame.step (mmioRd_frame ..) rfl ?_)
    | split

theorem exec_snpInv_frame {n addr} {σ τ : State} (h : exec (.snpInv n addr) σ = .next τ) :
    Frame (fp.regs + fp.ports + fp.reads + fp.ctls + fp.sent) σ τ := by
  injection h with h; subst h
  repeat' first
    | with_reducible exact Frame.refl _ _
    | (with_reducible apply Frame.step (snpInv_frame ..) rfl ?_)
    | split

theorem exec_cmp_frame {n tag status} {σ τ : State} (h : exec (.cmp n tag status) σ = .next τ) :
    Frame (fp.regs + fp.ports + fp.writes + fp.reads + fp.tally + fp.sent) σ τ := by
  injection h with h; subst h
  repeat' first
    | with_reducible exact Frame.refl _ _
    | (with_reducible apply Frame.step (cmp_frame ..) rfl ?_)
    | (with_reducible apply Frame.step (status_frame ..) rfl ?_)
    | split

theorem exec_data_frame {n tag status bytes} {σ τ : State} (h : exec (.data n tag status bytes) σ = .next τ) :
    Frame (fp.regs + fp.parts + fp.reqs + fp.ports + fp.writes + fp.reads + fp.ctls + fp.tally + fp.sent + fp.fresh) σ τ := by
  injection h with h; subst h
  repeat' first
    | with_reducible exact Frame.refl _ _
    | (with_reducible apply Frame.step (data_frame ..) rfl ?_)
    | (with_reducible apply Frame.step (status_frame ..) rfl ?_)
    | split

theorem exec_intHoldoffExpire_frame {p} {σ τ : State} (h : exec (.intHoldoffExpire p) σ = .next τ) :
    Frame (fp.regs + fp.parts + fp.ports + fp.writes + fp.reads + fp.sent) σ τ := by
  injection h with h; subst h
  repeat' first
    | with_reducible exact Frame.refl _ _
    | (with_reducible apply Frame.step (intHoldoffExpire_frame ..) rfl ?_)
    | split

theorem exec_bringup_frame {d} {σ τ : State} (h : exec (.bringup d) σ = .next τ) :
    Frame (fp.regs + fp.cores + fp.tiles + fp.saddles + fp.sites + fp.parts + fp.rmbs + fp.sps + fp.ctls + fp.ssbs + fp.nor + fp.tally + fp.faultMap + fp.faultGen + fp.faultLog + fp.faultSeq + fp.sent + fp.fresh) σ τ := by
  injection h with h; subst h
  repeat' first
    | with_reducible exact Frame.refl _ _
    | (with_reducible apply Frame.step (bringup_frame ..) rfl ?_)
    | split

theorem exec_firmwareObjectStage_frame {bytes} {σ τ : State} (h : exec (.firmwareObjectStage bytes) σ = .next τ) :
    Frame (fp.regs + fp.nor + fp.fuses + fp.sent) σ τ := by
  injection h with h; subst h
  repeat' first
    | with_reducible exact Frame.refl _ _
    | (with_reducible apply Frame.step (firmwareObjectStage_frame ..) rfl ?_)
    | split

theorem exec_activateFirmware_frame {kind healthy} {σ τ : State} (h : exec (.activateFirmware kind healthy) σ = .next τ) :
    Frame (fp.regs + fp.nor + fp.sent) σ τ := by
  injection h with h; subst h
  repeat' first
    | with_reducible exact Frame.refl _ _
    | (with_reducible apply Frame.step (activateFirmware_frame ..) rfl ?_)
    | split

theorem exec_roleSwap_frame {p} {σ τ : State} (h : exec (.roleSwap p) σ = .next τ) :
    Frame (fp.regs + fp.parts + fp.reqs + fp.ports + fp.writes + fp.reads + fp.sent + fp.fresh) σ τ := by
  injection h with h; subst h
  repeat' first
    | with_reducible exact Frame.refl _ _
    | (with_reducible apply Frame.step (roleSwap_frame ..) rfl ?_)
    | split

theorem exec_siteUpdateDrain_frame {m} {σ τ : State} (h : exec (.siteUpdateDrain m) σ = .next τ) :
    Frame (fp.regs + fp.sites) σ τ := by
  injection h with h; subst h
  repeat' first
    | with_reducible exact Frame.refl _ _
    | (with_reducible apply Frame.step (siteUpdateDrain_frame ..) rfl ?_)
    | split

theorem exec_svnCommit_frame {c} {σ τ : State} (h : exec (.svnCommit c) σ = .next τ) :
    Frame (fp.fuses) σ τ := by
  injection h with h; subst h
  repeat' first
    | with_reducible exact Frame.refl _ _
    | (with_reducible apply Frame.step (svnCommit_frame ..) rfl ?_)
    | split

theorem exec_journalRecordDurable_frame {ok} {σ τ : State} (h : exec (.journalRecordDurable ok) σ = .next τ) :
    Frame (fp.regs + fp.ssbs + fp.nor + fp.sent) σ τ := by
  injection h with h; subst h
  repeat' first
    | with_reducible exact Frame.refl _ _
    | (with_reducible apply Frame.step (journalRecordDurable_frame ..) rfl ?_)
    | split

theorem exec_compaction_frame  {σ τ : State} (h : exec (.compaction) σ = .next τ) :
    Frame (fp.nor) σ τ := by
  injection h with h; subst h
  repeat' first
    | with_reducible exact Frame.refl _ _
    | (with_reducible apply Frame.step (compaction_frame ..) rfl ?_)
    | split

theorem exec_reading_frame {f} {σ τ : State} (h : exec (.reading f) σ = .next τ) :
    Frame (fp.regs + fp.tally + fp.sent) σ τ := by
  injection h with h; subst h
  repeat' first
    | with_reducible exact Frame.refl _ _
    | (with_reducible apply Frame.step (reading_frame ..) rfl ?_)
    | split

theorem exec_signed_frame {f} {σ τ : State} (h : exec (.signed f) σ = .next τ) :
    Frame (fp.regs + fp.tally + fp.sent) σ τ := by
  injection h with h; subst h
  repeat' first
    | with_reducible exact Frame.refl _ _
    | (with_reducible apply Frame.step (signed_frame ..) rfl ?_)
    | split

theorem exec_log_frame {f} {σ τ : State} (h : exec (.log f) σ = .next τ) :
    Frame (fp.regs + fp.tally + fp.sent) σ τ := by
  injection h with h; subst h
  repeat' first
    | with_reducible exact Frame.refl _ _
    | (with_reducible apply Frame.step (log_frame ..) rfl ?_)
    | split

theorem exec_cert_frame {f} {σ τ : State} (h : exec (.cert f) σ = .next τ) :
    Frame (fp.regs + fp.tally + fp.sent) σ τ := by
  injection h with h; subst h
  repeat' first
    | with_reducible exact Frame.refl _ _
    | (with_reducible apply Frame.step (cert_frame ..) rfl ?_)
    | split

theorem exec_status_frame {f} {σ τ : State} (h : exec (.status f) σ = .next τ) :
    Frame (fp.regs + fp.tally + fp.sent) σ τ := by
  injection h with h; subst h
  repeat' first
    | with_reducible exact Frame.refl _ _
    | (with_reducible apply Frame.step (status_frame ..) rfl ?_)
    | split

theorem exec_reqSigned_frame  {σ τ : State} (h : exec (.reqSigned) σ = .next τ) :
    Frame (fp.tally + fp.sent) σ τ := by
  injection h with h; subst h
  repeat' first
    | with_reducible exact Frame.refl _ _
    | (with_reducible apply Frame.step (reqSigned_frame ..) rfl ?_)
    | split

theorem exec_reqLog_frame  {σ τ : State} (h : exec (.reqLog) σ = .next τ) :
    Frame (fp.regs + fp.tally + fp.sent) σ τ := by
  injection h with h; subst h
  repeat' first
    | with_reducible exact Frame.refl _ _
    | (with_reducible apply Frame.step (reqLog_frame ..) rfl ?_)
    | split

theorem exec_reqCert_frame  {σ τ : State} (h : exec (.reqCert) σ = .next τ) :
    Frame (fp.tally + fp.sent) σ τ := by
  injection h with h; subst h
  repeat' first
    | with_reducible exact Frame.refl _ _
    | (with_reducible apply Frame.step (reqCert_frame ..) rfl ?_)
    | split

theorem exec_intervalSign_frame {mwhImp mwhRev} {σ τ : State} (h : exec (.intervalSign mwhImp mwhRev) σ = .next τ) :
    Frame (fp.tally + fp.sent + fp.fresh) σ τ := by
  injection h with h; subst h
  repeat' first
    | with_reducible exact Frame.refl _ _
    | (with_reducible apply Frame.step (intervalSign_frame ..) rfl ?_)
    | split

theorem exec_tallyHoldupSave_frame  {σ τ : State} (h : exec (.tallyHoldupSave) σ = .next τ) :
    Frame (fp.tally) σ τ := by
  injection h with h; subst h
  repeat' first
    | with_reducible exact Frame.refl _ _
    | (with_reducible apply Frame.step (tallyHoldupSave_frame ..) rfl ?_)
    | split

theorem exec_sealOpen_frame  {σ τ : State} (h : exec (.sealOpen) σ = .next τ) :
    Frame (fp.regs + fp.cores + fp.parts + fp.tally) σ τ := by
  injection h with h; subst h
  repeat' first
    | with_reducible exact Frame.refl _ _
    | (with_reducible apply Frame.step (sealOpen_frame ..) rfl ?_)
    | (with_reducible apply Frame.step (State.sealOpen_frame ..) rfl ?_)
    | split

theorem exec_sealClosed_frame  {σ τ : State} (h : exec (.sealClosed) σ = .next τ) :
    Frame (fp.regs + fp.cores + fp.parts + fp.tally) σ τ := by
  injection h with h; subst h
  repeat' first
    | with_reducible exact Frame.refl _ _
    | (with_reducible apply Frame.step (sealClosed_frame ..) rfl ?_)
    | split

theorem exec_fwChange_frame {bytes} {σ τ : State} (h : exec (.fwChange bytes) σ = .next τ) :
    Frame (fp.regs + fp.cores + fp.parts + fp.tally) σ τ := by
  injection h with h; subst h
  repeat' first
    | with_reducible exact Frame.refl _ _
    | (with_reducible apply Frame.step (fwChange_frame ..) rfl ?_)
    | split

theorem exec_shareUpdate_frame {pinMwh} {σ τ : State} (h : exec (.shareUpdate pinMwh) σ = .next τ) :
    Frame (fp.regs + fp.parts + fp.tally + fp.fresh) σ τ := by
  injection h with h; subst h
  repeat' first
    | with_reducible exact Frame.refl _ _
    | (with_reducible apply Frame.step (shareUpdate_frame ..) rfl ?_)
    | split

theorem exec_moduleReset_frame  {σ τ : State} (h : exec (.moduleReset) σ = .next τ) :
    Frame (fp.regs + fp.cores + fp.routers + fp.links + fp.tiles + fp.crags + fp.sites + fp.parts + fp.reqs + fp.sps + fp.ports + fp.writes + fp.reads + fp.ssbs + fp.nor + fp.faultMap + fp.faultGen + fp.faultLog + fp.faultSeq + fp.sent + fp.fresh) σ τ := by
  injection h with h; subst h
  repeat' first
    | with_reducible exact Frame.refl _ _
    | (with_reducible apply Frame.step (moduleReset_frame ..) rfl ?_)
    | split

theorem exec_clockLoss_frame  {σ τ : State} (h : exec (.clockLoss) σ = .next τ) :
    Frame (fp.regs + fp.cores + fp.routers + fp.links + fp.tiles + fp.crags + fp.sites + fp.parts + fp.reqs + fp.sps + fp.ports + fp.writes + fp.reads + fp.ctls + fp.nor + fp.faultMap + fp.faultGen + fp.faultLog + fp.faultSeq + fp.sent + fp.fresh) σ τ := by
  injection h with h; subst h
  repeat' first
    | with_reducible exact Frame.refl _ _
    | (with_reducible apply Frame.step (clockLoss_frame ..) rfl ?_)
    | split

theorem exec_create_frame {p} {σ τ : State} (h : exec (.create p) σ = .next τ) :
    Frame (fp.regs + fp.tiles + fp.sites + fp.parts) σ τ := by
  injection h with h; subst h
  repeat' first
    | with_reducible exact Frame.refl _ _
    | (with_reducible apply Frame.step (create_frame ..) rfl ?_)
    | split

theorem exec_destroy_frame {p} {σ τ : State} (h : exec (.destroy p) σ = .next τ) :
    Frame (fp.regs + fp.parts) σ τ := by
  injection h with h; subst h
  repeat' first
    | with_reducible exact Frame.refl _ _
    | (with_reducible apply Frame.step (destroy_frame ..) rfl ?_)
    | split

theorem exec_teardownDone_frame {p} {σ τ : State} (h : exec (.teardownDone p) σ = .next τ) :
    Frame (fp.regs + fp.cores + fp.routers + fp.links + fp.tiles + fp.crags + fp.sites + fp.parts + fp.reqs + fp.ports + fp.writes + fp.reads + fp.sent + fp.fresh) σ τ := by
  injection h with h; subst h
  repeat' first
    | with_reducible exact Frame.refl _ _
    | (with_reducible apply Frame.step (teardownDone_frame ..) rfl ?_)
    | split

theorem exec_en_frame {pg v} {σ τ : State} (h : exec (.en pg v) σ = .next τ) :
    Frame (fp.regs + fp.sites + fp.parts + fp.reqs + fp.rmbs + fp.ports + fp.writes + fp.reads + fp.sent) σ τ := by
  injection h with h; subst h
  repeat' first
    | with_reducible exact Frame.refl _ _
    | (with_reducible apply Frame.step (en_frame ..) rfl ?_)
    | split

theorem exec_partitionStartDone_frame {p f} {σ τ : State} (h : exec (.partitionStartDone p f) σ = .next τ) :
    Frame (fp.regs + fp.cores + fp.routers + fp.crags + fp.sites + fp.parts + fp.reqs + fp.rmbs + fp.ports + fp.writes + fp.reads + fp.nor + fp.faultMap + fp.faultGen + fp.faultLog + fp.faultSeq + fp.sent + fp.fresh) σ τ := by
  injection h with h; subst h
  repeat' first
    | with_reducible exact Frame.refl _ _
    | (with_reducible apply Frame.step (partitionStartDone_frame ..) rfl ?_)
    | split

theorem exec_drainDone_frame {p} {σ τ : State} (h : exec (.drainDone p) σ = .next τ) :
    Frame (fp.regs + fp.cores + fp.routers + fp.links + fp.tiles + fp.crags + fp.sites + fp.parts + fp.reqs + fp.sps + fp.ports + fp.writes + fp.reads + fp.ssbs + fp.nor + fp.faultMap + fp.faultGen + fp.faultLog + fp.faultSeq + fp.sent + fp.fresh) σ τ := by
  injection h with h; subst h
  repeat' first
    | with_reducible exact Frame.refl _ _
    | (with_reducible apply Frame.step (drainDone_frame ..) rfl ?_)
    | (with_reducible apply Frame.step (State.shutdownCheck_frame ..) rfl ?_)
    | split

theorem exec_softReset_frame {pg} {σ τ : State} (h : exec (.softReset pg) σ = .next τ) :
    Frame (fp.regs + fp.sent) σ τ := by
  injection h with h; subst h
  repeat' first
    | with_reducible exact Frame.refl _ _
    | (with_reducible apply Frame.step (softReset_frame ..) rfl ?_)
    | split

theorem exec_budget_frame {t v} {σ τ : State} (h : exec (.budget t v) σ = .next τ) :
    Frame (fp.regs) σ τ := by
  injection h with h; subst h
  repeat' first
    | with_reducible exact Frame.refl _ _
    | (with_reducible apply Frame.step (budget_frame ..) rfl ?_)
    | split

theorem exec_arrayDefectPolicy_frame {g v} {σ τ : State} (h : exec (.arrayDefectPolicy g v) σ = .next τ) :
    Frame (fp.regs) σ τ := by
  injection h with h; subst h
  repeat' first
    | with_reducible exact Frame.refl _ _
    | (with_reducible apply Frame.step (arrayDefectPolicy_frame ..) rfl ?_)
    | split

theorem exec_progBase_frame {g v} {σ τ : State} (h : exec (.progBase g v) σ = .next τ) :
    Frame (fp.regs) σ τ := by
  injection h with h; subst h
  repeat' first
    | with_reducible exact Frame.refl _ _
    | (with_reducible apply Frame.step (progBase_frame ..) rfl ?_)
    | split

theorem exec_errInject_frame {pg v} {σ τ : State} (h : exec (.errInject pg v) σ = .next τ) :
    Frame (fp.regs + fp.sent) σ τ := by
  injection h with h; subst h
  repeat' first
    | with_reducible exact Frame.refl _ _
    | (with_reducible apply Frame.step (errInject_frame ..) rfl ?_)
    | split

theorem exec_firstValid_frame {pg} {σ τ : State} (h : exec (.firstValid pg) σ = .next τ) :
    Frame (fp.regs) σ τ := by
  injection h with h; subst h
  repeat' first
    | with_reducible exact Frame.refl _ _
    | (with_reducible apply Frame.step (firstValid_frame ..) rfl ?_)
    | split

theorem exec_lock_frame {pg} {σ τ : State} (h : exec (.lock pg) σ = .next τ) :
    Frame (fp.regs) σ τ := by
  injection h with h; subst h
  repeat' first
    | with_reducible exact Frame.refl _ _
    | (with_reducible apply Frame.step (lock_frame ..) rfl ?_)
    | split

theorem exec_injLock_frame {pg} {σ τ : State} (h : exec (.injLock pg) σ = .next τ) :
    Frame (fp.regs) σ τ := by
  injection h with h; subst h
  repeat' first
    | with_reducible exact Frame.refl _ _
    | (with_reducible apply Frame.step (injLock_frame ..) rfl ?_)
    | split

theorem exec_htDataLo_frame {p} {σ τ : State} (h : exec (.htDataLo p) σ = .next τ) :
    Frame (fp.regs + fp.nor + fp.sent) σ τ := by
  injection h with h; subst h
  repeat' first
    | with_reducible exact Frame.refl _ _
    | (with_reducible apply Frame.step (htDataLo_frame ..) rfl ?_)
    | split

theorem exec_flogData0_frame {c} {σ τ : State} (h : exec (.flogData0 c) σ = .next τ) :
    Frame (fp.regs + fp.nor + fp.sent) σ τ := by
  injection h with h; subst h
  repeat' first
    | with_reducible exact Frame.refl _ _
    | (with_reducible apply Frame.step (flogData0_frame ..) rfl ?_)
    | split

theorem exec_seqLastLo_frame  {σ τ : State} (h : exec (.seqLastLo) σ = .next τ) :
    Frame (fp.regs + fp.nor + fp.sent) σ τ := by
  injection h with h; subst h
  repeat' first
    | with_reducible exact Frame.refl _ _
    | (with_reducible apply Frame.step (seqLastLo_frame ..) rfl ?_)
    | split

theorem exec_registerWrite_frame {addr v} {σ τ : State} (h : exec (.registerWrite addr v) σ = .next τ) :
    Frame (fp.regs + fp.cores + fp.routers + fp.links + fp.tiles + fp.crags + fp.sites + fp.parts + fp.reqs + fp.rmbs + fp.sps + fp.ports + fp.writes + fp.reads + fp.ctls + fp.ssbs + fp.nor + fp.fuses + fp.tally + fp.faultMap + fp.faultGen + fp.faultLog + fp.faultSeq + fp.sent + fp.fresh) σ τ := by
  injection h with h; subst h
  repeat' first
    | with_reducible exact Frame.refl _ _
    | (with_reducible apply Frame.step (registerWrite_frame ..) rfl ?_)
    | split

theorem exec_tileFault_frame {t cause} {σ τ : State} (h : exec (.tileFault t cause) σ = .next τ) :
    Frame (fp.regs + fp.cores + fp.routers + fp.links + fp.tiles + fp.crags + fp.sites + fp.parts + fp.reqs + fp.ports + fp.writes + fp.reads + fp.nor + fp.faultMap + fp.faultGen + fp.faultLog + fp.faultSeq + fp.sent + fp.fresh) σ τ := by
  injection h with h; subst h
  repeat' first
    | with_reducible exact Frame.refl _ _
    | (with_reducible apply Frame.step (tileFault_frame ..) rfl ?_)
    | split

theorem exec_routerParityFailure_frame {g} {σ τ : State} (h : exec (.routerParityFailure g) σ = .next τ) :
    Frame (fp.regs + fp.cores + fp.routers + fp.links + fp.tiles + fp.crags + fp.sites + fp.parts + fp.reqs + fp.ports + fp.writes + fp.reads + fp.nor + fp.faultMap + fp.faultGen + fp.faultLog + fp.faultSeq + fp.sent + fp.fresh) σ τ := by
  injection h with h; subst h
  repeat' first
    | with_reducible exact Frame.refl _ _
    | (with_reducible apply Frame.step (routerParityFailure_frame ..) rfl ?_)
    | split

theorem exec_siteControllerFailure_frame {m} {σ τ : State} (h : exec (.siteControllerFailure m) σ = .next τ) :
    Frame (fp.regs + fp.cores + fp.routers + fp.links + fp.tiles + fp.crags + fp.sites + fp.parts + fp.reqs + fp.ports + fp.writes + fp.reads + fp.nor + fp.faultMap + fp.faultGen + fp.faultLog + fp.faultSeq + fp.sent + fp.fresh) σ τ := by
  injection h with h; subst h
  repeat' first
    | with_reducible exact Frame.refl _ _
    | (with_reducible apply Frame.step (siteControllerFailure_frame ..) rfl ?_)
    | split

theorem exec_mgtRstNRelease_frame {clk fails} {σ τ : State} (h : exec (.mgtRstNRelease clk fails) σ = .next τ) :
    Frame (fp.regs + fp.tiles + fp.sites + fp.parts + fp.rmbs + fp.sps + fp.ctls + fp.nor + fp.faultMap + fp.faultGen + fp.faultLog + fp.faultSeq + fp.sent + fp.fresh) σ τ := by
  injection h with h; subst h
  repeat' first
    | with_reducible exact Frame.refl _ _
    | (with_reducible apply Frame.step (mgtRstNRelease_frame ..) rfl ?_)
    | split

theorem exec_pwrFailRestart_frame {clk fails} {σ τ : State} (h : exec (.pwrFailRestart clk fails) σ = .next τ) :
    Frame (fp.regs + fp.tiles + fp.sites + fp.parts + fp.rmbs + fp.sps + fp.ctls + fp.nor + fp.faultMap + fp.faultGen + fp.faultLog + fp.faultSeq + fp.sent + fp.fresh) σ τ := by
  injection h with h; subst h
  repeat' first
    | with_reducible exact Frame.refl _ _
    | (with_reducible apply Frame.step (pwrFailRestart_frame ..) rfl ?_)
    | split

theorem exec_shutdownTimeout_frame  {σ τ : State} (h : exec (.shutdownTimeout) σ = .next τ) :
    Frame (fp.regs + fp.cores + fp.routers + fp.links + fp.tiles + fp.crags + fp.sites + fp.parts + fp.reqs + fp.sps + fp.ports + fp.writes + fp.reads + fp.ssbs + fp.nor + fp.faultMap + fp.faultGen + fp.faultLog + fp.faultSeq + fp.sent + fp.fresh) σ τ := by
  injection h with h; subst h
  repeat' first
    | with_reducible exact Frame.refl _ _
    | (with_reducible apply Frame.step (shutdownTimeout_frame ..) rfl ?_)
    | split

theorem exec_tallyLinkTimeout_frame  {σ τ : State} (h : exec (.tallyLinkTimeout) σ = .next τ) :
    Frame (fp.regs + fp.tally + fp.sent) σ τ := by
  injection h with h; subst h
  repeat' first
    | with_reducible exact Frame.refl _ _
    | (with_reducible apply Frame.step (tallyLinkTimeout_frame ..) rfl ?_)
    | split

theorem exec_healthyStartTimeout_frame {kind} {σ τ : State} (h : exec (.healthyStartTimeout kind) σ = .next τ) :
    Frame (fp.regs + fp.nor + fp.sent) σ τ := by
  injection h with h; subst h
  repeat' first
    | with_reducible exact Frame.refl _ _
    | (with_reducible apply Frame.step (healthyStartTimeout_frame ..) rfl ?_)
    | split

theorem exec_msfReady_frame {m} {σ τ : State} (h : exec (.msfReady m) σ = .next τ) :
    Frame (fp.regs + fp.sites + fp.parts + fp.sent) σ τ := by
  injection h with h; subst h
  repeat' first
    | with_reducible exact Frame.refl _ _
    | (with_reducible apply Frame.step (msfReady_frame ..) rfl ?_)
    | split

theorem exec_portConfigRecordWrite_frame {bytes} {σ τ : State} (h : exec (.portConfigRecordWrite bytes) σ = .next τ) :
    Frame (fp.nor) σ τ := by
  injection h with h; subst h
  repeat' first
    | with_reducible exact Frame.refl _ _
    | (with_reducible apply Frame.step (portConfigRecordWrite_frame ..) rfl ?_)
    | split

end Sys2Proof.Machine
end

