-- ==== Sys2Proof/Laws/Stores.lean ====
section
/-! SUPPORT. Bytes that a command leaves alone: a write changes no byte outside its range, and everything else changes none. -/

namespace Sys2Proof.Machine

variable {a : Nat} {g : Nat}

/-- What a core reads depends on its memories and the slots' read halves alone. -/
theorem Core.byte_congr {c d : Core} (h1 : c.mem = d.mem) (h2 : c.bank0 = d.bank0) (h3 : c.bank1 = d.bank1)
    (h4 : c.readB1 = d.readB1) (h5 : c.lost = d.lost) : c.byte a = d.byte a := by
  unfold Core.byte Core.blank; rw [h1, h2, h3, h4, h5]

/-- A byte at another address. -/
theorem Core.byte_setByte_ne (c : Core) {d : Nat} (b : Byte) (h : a ≠ d) : (c.setByte d b).byte a = c.byte a := by
  have key : ∀ (b : Byte) (m : Mem) (x y : Nat), x ≠ y → Mem.byte (Mem.setByte m y b) x = Mem.byte m x := by
    intro b m x y hxy; simp only [Mem.byte, Mem.setByte, Table.get_set, if_neg hxy]
  unfold Core.setByte
  split
  · rename_i hd
    have ha : areaOf a = .inputBuf → a - 0x0C0000 ≠ d - 0x0C0000 := by
      intro h1 h2
      have e : ∀ x, areaOf x = .inputBuf → 0x0C0000 ≤ x := by
        intro x hx; unfold areaOf at hx; split at hx
        · cases hx
        · omega
      have := e a h1; have := e d hd; omega
    split <;> unfold Core.byte <;> split <;> (try rfl)
    · rename_i h1; split <;> (first | rfl | exact key _ _ _ _ (ha h1))
    · rename_i h1; split <;> (first | rfl | exact key _ _ _ _ (ha h1))
  · unfold Core.byte
    split
    · rfl
    · exact congrArg (· ^^^ c.blank a) (key _ _ _ _ h)

/-- A write changes no byte outside its range. -/
theorem Core.byte_write_out (c : Core) {d : Nat} {bs : List Byte} (h : a < d ∨ d + bs.length ≤ a) :
    (c.write d bs).byte a = c.byte a := by
  induction bs generalizing c d with
  | nil => rfl
  | cons b bs ih =>
    simp only [List.length_cons] at h
    rw [Core.write, ih _ (by omega), Core.byte_setByte_ne _ _ (by omega)]

theorem Core.byte_foldl {α : Type} (f : Core → α → Core) (l : List α) (c : Core) (h : ∀ c x, (f c x).byte a = c.byte a) :
    (l.foldl f c).byte a = c.byte a := by
  induction l generalizing c with
  | nil => rfl
  | cons x l ih => rw [List.foldl_cons, ih, h]

/-- Byte `a` of core `g` is as before. -/
structure State.Keeps (g a : Nat) (s t : State) : Prop where
  byte : (t.core g).byte a = (s.core g).byte a

theorem State.Keeps.refl (s : State) : State.Keeps g a s s := ⟨rfl⟩
theorem State.Keeps.step {s x y : State} (h : State.Keeps g a x y) (h0 : State.Keeps g a s x) : State.Keeps g a s y := ⟨h.byte.trans h0.byte⟩
theorem State.Keeps.ite {s x y : State} {c : Prop} [Decidable c] (hx : State.Keeps g a s x) (hy : State.Keeps g a s y) :
    State.Keeps g a s (if c then x else y) := by split <;> assumption
theorem State.keeps_wr (s : State) (p : Page) (f : Field) (v : Nat) : State.Keeps g a s (s.wr p f v) := ⟨rfl⟩
theorem State.keeps_emit (s : State) (m : Msg) : State.Keeps g a s (s.emit m) := ⟨rfl⟩
theorem State.keeps_updCrag (s : State) (y : Nat) (f : Crag → Crag) : State.Keeps g a s (s.updCrag y f) := ⟨rfl⟩
theorem State.keeps_free (s : State) : State.Keeps g a s s.free.2 := ⟨rfl⟩
theorem State.keeps_updCore (s : State) (f : Core → Core) (h : (f (s.core g)).byte a = (s.core g).byte a) :
    State.Keeps g a s (s.updCore g f) :=
  ⟨by rw [State.core_updCore, if_pos rfl]; exact h⟩

/-- Any error event. -/
theorem State.keeps_err (s : State) (p : Page) (b : Nat) (inj : Bool) : State.Keeps g a s (s.err p b inj) :=
  ⟨by rw [State.core, State.core, (State.err_frame s p b inj).cores rfl]⟩
theorem State.keeps_inc (s : State) (p : Page) (f : Field) (n : Nat) : State.Keeps g a s (s.inc p f n) := ⟨rfl⟩
theorem State.keeps_stepErr (s : State) (code : StepCode) (cmd : Nat) : State.Keeps g a s (s.stepErr g code cmd) := by
  unfold State.stepErr
  dsimp only
  split <;> split <;> first
    | exact ⟨rfl⟩
    | exact (State.keeps_wr ..).step (State.keeps_updCore _ _ rfl)
    | exact (State.keeps_wr ..).step ((State.keeps_updCore _ _ rfl).step (State.keeps_inc ..))
theorem State.keeps_finishAt (s : State) (i d : Nat) : State.Keeps g a s (s.finishAt g i d) := State.keeps_updCore _ _ rfl
theorem State.keeps_issueOpen (s : State) (i : Nat) (b w : Bool) (u : Upset) : State.Keeps g a s (s.issueOpen g i b w u) :=
  State.keeps_updCore _ _ rfl
theorem State.keeps_fail (s : State) (e : CmdEntry) (c : StepCode) : State.Keeps g a s (s.fail g e c) :=
  (State.keeps_issueOpen ..).step (State.keeps_stepErr ..)
theorem State.keeps_upset (s : State) (i : Nat) (u : Upset) : State.Keeps g a s (s.upset g i u).1 := by
  cases u
  · exact ⟨rfl⟩
  · exact (State.keeps_stepErr ..).step ((State.keeps_err ..).step (State.keeps_inc ..))
  · exact ⟨rfl⟩
  · exact (State.keeps_stepErr ..).step (State.keeps_err ..)
  · exact ⟨rfl⟩
  · exact (State.keeps_stepErr ..).step (State.keeps_err ..)

/-- A write of the core's memory. -/
theorem State.keeps_memWrite (s : State) {d : Nat} {bs : List Byte} (h : a < d ∨ d + bs.length ≤ a) :
    State.Keeps g a s (s.memWrite g d bs) := by
  have h2 : ∀ z y (c : Core), ({ c.write d bs with slabAt := y, dirty := z } : Core).byte a = c.byte a := fun z y c =>
    (Core.byte_congr rfl rfl rfl rfl rfl).trans (Core.byte_write_out c h)
  have h3 : ∀ z, State.Keeps g a s (s.updCore g (fun c =>
      let c := { c.write d bs with slabAt := some s.clock }
      if c.armed then { c with dirty := addSet c.dirty z } else c)) := by
    intro z; refine State.keeps_updCore _ _ ?_
    dsimp only; split
    · exact h2 _ _ _
    · exact (Core.byte_congr rfl rfl rfl rfl rfl).trans (Core.byte_write_out _ h)
  unfold State.memWrite
  generalize blocksOf d bs.length = z
  split
  · split
    · exact ⟨rfl⟩
    · dsimp only
      split
      · exact h3 z
      · exact (State.keeps_wr ..).step ((State.keeps_updCrag ..).step (h3 z))
  · exact State.keeps_updCore _ _ (Core.byte_write_out _ h)

/-- What a command that issues leaves alone: what its own meaning leaves alone on the command it takes. -/
theorem State.keeps_issue (s : State) (op : Nat) (u : Upset) (run : CmdEntry → State → State)
    (hr : ∀ e x, s.issuable g = some e → State.Keeps g a s x → State.Keeps g a x (run e x)) : State.Keeps g a s (s.issue g op u run) := by
  unfold State.issue
  split
  · rename_i e un he hu
    split
    · dsimp only
      split
      · rename_i h
        have hx := congrArg Prod.fst h
        dsimp only at hx
        subst hx
        have k1 := (State.keeps_upset (g := g) (a := a) (s.updCore g (fun c => { c with issuedAt := some (s.cycOf g) })) e.idx u).step
          (State.keeps_updCore s (fun c => { c with issuedAt := some (s.cycOf g) }) rfl)
        exact (hr e _ he k1).step k1
      · rename_i h
        have hx := congrArg Prod.fst h
        dsimp only at hx
        subst hx
        exact (State.keeps_issueOpen ..).step ((State.keeps_upset ..).step (State.keeps_updCore _ _ rfl))
    · exact State.Keeps.refl _
  · exact State.Keeps.refl _

/-! ### The units -/

theorem Core.byte_setAcc (c : Core) (x y z : Nat) (v : Int) : (c.setAcc x y z v).byte a = c.byte a := rfl
theorem Core.byte_addClips (c : Core) (x n : Nat) (b : Bool) : (c.addClips x n b).byte a = c.byte a := by
  unfold Core.addClips; dsimp only; split <;> rfl
theorem Core.byte_cachePut (c : Core) (x : Nat) : (c.cachePut x).byte a = c.byte a := by
  unfold Core.cachePut; split
  · rfl
  · split <;> rfl
theorem Core.byte_passBlock (wf : Fmt) (a8 : Bool) (k idx cols : Nat) (cl : Bool) (ops : List (Nat × List Nat × Nat)) (c : Core) :
    (passBlock wf a8 k idx cols cl ops c).byte a = c.byte a := by
  unfold passBlock; exact Core.byte_foldl _ _ _ (fun c x => rfl)
theorem Core.byte_loadSets (wf : Fmt) (k : Nat) (bs : List Byte) (l : List Nat) (c : Core) : (c.loadSets wf k bs l).byte a = c.byte a := by
  unfold Core.loadSets; exact Core.byte_foldl _ _ _ (fun c x => rfl)
theorem Core.byte_passEffect (wf : Fmt) (a8 cl : Bool) (x y n v st l : Nat) (ar : List (Nat × Nat)) (c : Core) :
    (passEffect wf a8 cl x y n v st l ar c).byte a = c.byte a := by
  unfold passEffect
  refine Core.byte_foldl _ _ _ (fun c b => ?_)
  dsimp only
  rw [Core.byte_foldl _ _ _ (fun c y => ?_)]
  · rfl
  · obtain ⟨y1, y2⟩ := y
    dsimp only
    rw [Core.byte_foldl _ _ _ (fun c v => Core.byte_passBlock ..)]
    exact Core.byte_loadSets ..
theorem Core.byte_streamEffect (w : Nat) (l : List KvPos) (c : Core) : (streamEffect w l c).byte a = c.byte a := by
  unfold streamEffect; exact Core.byte_foldl _ _ _ (fun c x => rfl)
theorem Core.byte_drainVector (w sc : Nat) (ar : List (Nat × Nat)) (v : Nat) (c : Core) :
    (drainVector w sc ar v c).1.byte a = c.byte a := by
  have key : ∀ (l : List (Nat × Nat)) (x : Core × List Byte × Nat),
      (l.foldl (fun (c, bs, clips) (k, cols) =>
        let (b, sat, cl, nn, kv) := drainBytes (cFmt w) sc (c.drainValues k cols (cLfa0 w + v))
        let c := { c with cnt := { c.cnt with outSat := c.cnt.outSat + sat, clip := c.cnt.clip + cl,
                                              nanOut := c.cnt.nanOut + nn, kvSat := c.cnt.kvSat + kv } }
        let c := if cF w then (List.range 32).foldl (fun c col => c.setAcc k col (cLfa0 w + v) 0) c else c
        (c, bs ++ b, clips + cl)) x).1.byte a = x.1.byte a := by
    intro l
    induction l with
    | nil => intro x; rfl
    | cons y l ih =>
      intro x
      rw [List.foldl_cons, ih]
      obtain ⟨c, bs, n⟩ := x
      obtain ⟨k, cols⟩ := y
      dsimp only
      split
      · exact (Core.byte_foldl _ _ _ (fun c y => Core.byte_setAcc ..)).trans (Core.byte_congr rfl rfl rfl rfl rfl)
      · exact Core.byte_congr rfl rfl rfl rfl rfl
  have := key ar (c, [], 0)
  unfold drainVector
  dsimp only at this ⊢
  split
  · rw [Core.byte_addClips]; exact this
  · exact this

/-! ### How many bytes a command stores -/

theorem leBytes_length (n v : Nat) : (leBytes n v).length = n := by
  induction n generalizing v with
  | zero => rfl
  | succ n ih => rw [leBytes, List.length_cons, ih]

theorem flatMap_length {α β : Type} (f : α → List β) (l : List α) (n : Nat) (h : ∀ x ∈ l, (f x).length = n) :
    (l.flatMap f).length = n * l.length := by
  induction l with
  | nil => simp
  | cons x l ih =>
    rw [List.flatMap_cons, List.length_append, h x (List.mem_cons_self ..), ih (fun y hy => h y (List.mem_cons_of_mem _ hy)),
      List.length_cons, Nat.mul_add]; omega

theorem Core.read_length (c : Core) (d n : Nat) : (c.read d n).length = n := by
  induction n generalizing d with
  | zero => rfl
  | succ n ih => rw [Core.read, List.length_cons, ih]

theorem Core.vec_length (c : Core) (bf : Bool) (d n : Nat) : (c.vec bf d n).length = n := by simp [Core.vec]

theorem vecOut_length (bf : Bool) (l : List F32) : (vecOut bf l).length = vecBytes bf l.length := by
  unfold vecOut vecBytes
  rw [flatMap_length _ _ (if bf then 2 else 4) (fun x _ => by cases bf <;> simp [leBytes_length]), Nat.mul_comm]

theorem ropeVec_length (half : Bool) (x tb : List F32) : (ropeVec half x tb).length = x.length := by
  simp [ropeVec]

theorem nibbles_length : (l : List Nat) → (nibbles l).length = (l.length + 1) / 2
  | [] => by simp [nibbles]
  | [_] => by simp [nibbles]
  | _ :: _ :: t => by
    have := nibbles_length t
    simp only [nibbles, List.length_cons, this]; omega

theorem mxBytes_length (fp8 : Bool) (l : List Nat) (x : Nat) (h : l.length = 32) : (mxBytes fp8 l x).length = actBytes fp8 := by
  cases fp8 <;> simp [mxBytes, nibbles_length, h, actBytes]

theorem mxBlock_length (fp8 : Bool) (vs : List FV) : (mxBlock fp8 vs).1.length = vs.length := by simp [mxBlock]

theorem Core.act_length (c : Core) (a8 : Bool) (d : Nat) : (c.act a8 d).1.length = 32 := by
  unfold Core.act
  cases a8
  · simp only [Bool.false_eq_true, if_false]
    rw [flatMap_length _ _ 2 (fun _ _ => rfl), Core.read_length]
  · simp [Core.read_length]

theorem cvtSource_length (c : Core) (f : CvtFmt) (d n : Nat) : (cvtSource c f d n).1.length = n := by
  have key : ∀ a8 : Bool, (((List.range (cdiv n 32)).map (fun b => c.act a8 (d + b * actBytes a8))).flatMap
      (fun b => b.1.map (mxElemF32 a8 b.2))).length = 32 * cdiv n 32 := by
    intro a8
    rw [flatMap_length _ _ 32 ?_, List.length_map, List.length_range]
    intro x hx
    obtain ⟨b, _, rfl⟩ := List.mem_map.1 hx
    rw [List.length_map, Core.act_length]
  have hn : n ≤ 32 * cdiv n 32 := by unfold cdiv; omega
  cases f <;> simp only [cvtSource, Core.vec_length, List.length_take, key] <;> omega

theorem cvtTarget_length (f : CvtFmt) (l : List F32) : (cvtTarget f l).1.length = cvtBytes f l.length := by
  have key : ∀ (fp8 : Bool), (((blocks32 l).map (fun b => mxBlock fp8 (b.map (fun x => f32Val (ftz x))))).flatMap
      (fun r => mxBytes fp8 r.1 r.2.1)).length = actBytes fp8 * cdiv l.length 32 := by
    intro fp8
    rw [flatMap_length _ _ (actBytes fp8) ?_]
    · simp [blocks32]
    · intro x hx
      obtain ⟨b, hb, rfl⟩ := List.mem_map.1 hx
      obtain ⟨k, _, rfl⟩ := List.mem_map.1 hb
      exact mxBytes_length _ _ _ (by rw [mxBlock_length]; simp)
  cases f
  · simp only [cvtTarget, cvtBytes, vecOut_length, List.length_map, vecBytes]; simp; omega
  · simp only [cvtTarget, cvtBytes, vecOut_length, List.length_map, vecBytes]; simp; omega
  · exact key true
  · exact key false

theorem setAt_length {α : Type} (l : List α) (i : Nat) (v : α) : (setAt l i v).length = l.length := by
  induction l generalizing i with
  | nil => rfl
  | cons x l ih => cases i <;> simp [setAt, ih]

theorem foldl_length {α β : Type} (f : List α → β → List α) (l : List β) (x : List α) (h : ∀ x y, (f x y).length = x.length) :
    (l.foldl f x).length = x.length := by
  induction l generalizing x with
  | nil => rfl
  | cons y l ih => rw [List.foldl_cons, ih, h]

theorem spRecord_length (rec : List Byte) (rows masks : List Nat) (arr : Nat) (a8 : Bool) (blk : List Nat × Nat) (acc : SpAcc) :
    (spRecord rec rows masks arr a8 blk acc).vals.length = acc.vals.length := by
  unfold spRecord
  dsimp only
  refine foldl_length _ _ _ (fun x y => ?_)
  obtain ⟨i, m, st⟩ := y
  exact foldl_length _ _ _ (fun x y => setAt_length _ _ _)

theorem spStream_length (c : Core) (b xlen : Nat) (a8 : Bool) (n : Nat) (st : List Byte) (acc : SpAcc) :
    (spStream c b xlen a8 n st acc).vals.length = acc.vals.length := by
  induction n generalizing st acc with
  | zero => rfl
  | succ n ih =>
    unfold spStream
    dsimp only
    split
    · rfl
    · split
      · rfl
      · rw [ih, spRecord_length]

theorem drainBytes_length (f sc : Nat) (vs : List FV) (h : vs.length = 32) : (drainBytes f sc vs).1.length = drainSize f := by
  match f with
  | 0 => simp only [drainBytes, drainSize]; rw [flatMap_length _ _ 4 (fun _ _ => leBytes_length _ _), List.length_map, h]
  | 1 => simp only [drainBytes, drainSize]; rw [flatMap_length _ _ 2 (fun _ _ => leBytes_length _ _), List.length_map, h]
  | 2 => exact mxBytes_length _ _ _ (by simp [h])
  | 3 => exact mxBytes_length _ _ _ (by simp [h])
  | n + 4 => simp [drainBytes, drainSize, h]

theorem drainVector_length (w sc : Nat) (ar : List (Nat × Nat)) (v : Nat) (c : Core) :
    (drainVector w sc ar v c).2.length = ar.length * drainSize (cFmt w) := by
  have key : ∀ (l : List (Nat × Nat)) (x : Core × List Byte × Nat),
      (l.foldl (fun (c, bs, clips) (k, cols) =>
        let (b, sat, cl, nn, kv) := drainBytes (cFmt w) sc (c.drainValues k cols (cLfa0 w + v))
        let c := { c with cnt := { c.cnt with outSat := c.cnt.outSat + sat, clip := c.cnt.clip + cl,
                                              nanOut := c.cnt.nanOut + nn, kvSat := c.cnt.kvSat + kv } }
        let c := if cF w then (List.range 32).foldl (fun c col => c.setAcc k col (cLfa0 w + v) 0) c else c
        (c, bs ++ b, clips + cl)) x).2.1.length = x.2.1.length + l.length * drainSize (cFmt w) := by
    intro l
    induction l with
    | nil => intro x; simp
    | cons y l ih =>
      intro x
      obtain ⟨c, bs, n⟩ := x
      obtain ⟨k, cols⟩ := y
      rw [List.foldl_cons, ih, List.length_cons, Nat.add_mul]
      have hd := drainBytes_length (cFmt w) sc (c.drainValues k cols (cLfa0 w + v)) (by simp [Core.drainValues])
      dsimp only
      rw [List.length_append, hd]
      omega
  have := key ar (c, [], 0)
  unfold drainVector
  dsimp only at this ⊢
  rw [this]; simp

/-! ### Cores with the same memories -/

/-- The two cores hold the same memories. -/
def Core.SameMem (c d : Core) : Prop := c.mem = d.mem ∧ c.bank0 = d.bank0 ∧ c.bank1 = d.bank1 ∧ c.readB1 = d.readB1 ∧ c.lost = d.lost

theorem Core.SameMem.byte {c d : Core} (h : c.SameMem d) (b : Nat) : c.byte b = d.byte b :=
  Core.byte_congr h.1 h.2.1 h.2.2.1 h.2.2.2.1 h.2.2.2.2

theorem Core.SameMem.setByte {c d : Core} (h : c.SameMem d) (k : Nat) (b : Byte) : (c.setByte k b).SameMem (d.setByte k b) := by
  obtain ⟨h1, h2, h3, h4, h5⟩ := h
  unfold Core.setByte Core.blank
  rw [h1, h2, h3, h4, h5]
  split
  · split
    · exact ⟨rfl, rfl, rfl, rfl, rfl⟩
    · exact ⟨rfl, rfl, rfl, rfl, rfl⟩
  · exact ⟨rfl, rfl, rfl, rfl, rfl⟩

theorem Core.SameMem.write {c d : Core} (h : c.SameMem d) (k : Nat) (bs : List Byte) : (c.write k bs).SameMem (d.write k bs) := by
  induction bs generalizing c d k with
  | nil => exact h
  | cons b bs ih => exact ih (h.setByte k b) (k + 1)

theorem Core.SameMem.recv {c d : Core} (h : c.SameMem d) (k n : Nat) : c.recv k n = d.recv k n := by
  induction n generalizing k with
  | zero => rfl
  | succ n ih =>
    have e : c.recvByte k = d.recvByte k := by
      unfold Core.recvByte Core.blank; rw [h.1, h.2.1, h.2.2.1, h.2.2.2.1, h.2.2.2.2]
    rw [Core.recv, Core.recv, e, ih]

theorem Core.SameMem.read {c d : Core} (h : c.SameMem d) (k n : Nat) : c.read k n = d.read k n := by
  induction n generalizing k with
  | zero => rfl
  | succ n ih => rw [Core.read, Core.read, h.byte, ih]

/-- What a write leaves of the core beside its memories and its dirty map. -/
theorem Core.write_rest (bs : List Byte) (k : Nat) (c : Core) :
    { c.write k bs with mem := c.mem, bank0 := c.bank0, bank1 := c.bank1 } = c := by
  induction bs generalizing k c with
  | nil => rfl
  | cons b bs ih =>
    rw [Core.write]
    have h1 := ih (k + 1) (c.setByte k b)
    have h2 : { c.setByte k b with mem := c.mem, bank0 := c.bank0, bank1 := c.bank1 } = c := by
      unfold Core.setByte; split <;> (try split) <;> rfl
    generalize (c.setByte k b).write (k + 1) bs = y at h1 ⊢
    generalize c.setByte k b = z at h1 h2
    rw [← h2, ← h1]

/-- A write of a core's memory: the bytes, the rest of the core, and the delta on the crag's bus (R125).  Only the slab of a routing-only tile
holds no data (R4). -/
theorem State.memWrite_core (s : State) (g k : Nat) (bs : List Byte) (hd : s.slabDead g = false) :
    ((s.memWrite g k bs).core g).SameMem ((s.core g).write k bs) ∧
    { (s.memWrite g k bs).core g with
      mem := (s.core g).mem, bank0 := (s.core g).bank0, bank1 := (s.core g).bank1, dirty := (s.core g).dirty, slabAt := (s.core g).slabAt } =
      s.core g ∧
    (areaOf k = .slabArea → bs ≠ [] → cragLocal g ≠ 15 →
      ((s.memWrite g k bs).crag (cragOf g)).deltas = (s.crag (cragOf g)).deltas ++ [⟨g, k, xorBytes ((s.core g).recv k bs.length) bs, s.clock⟩]) := by
  have hw := Core.write_rest bs k (s.core g)
  have back : ∀ (y : Core) (z : List Nat) (x : Option Nat),
      { y with mem := (s.core g).mem, bank0 := (s.core g).bank0, bank1 := (s.core g).bank1 } = s.core g →
      { ({ y with dirty := z, slabAt := x } : Core) with
        mem := (s.core g).mem, bank0 := (s.core g).bank0, bank1 := (s.core g).bank1, dirty := (s.core g).dirty,
        slabAt := (s.core g).slabAt } = s.core g := by
    intro y z x hy
    have hd := congrArg Core.dirty hy
    have hs := congrArg Core.slabAt hy
    dsimp only at hd hs
    rw [← hd, ← hs]; exact hy
  generalize hy : (s.core g).write k bs = y at hw
  unfold State.memWrite
  rw [hd]
  generalize blocksOf k bs.length = z
  have one : ∀ f : Core → Core, f = (fun c =>
      let c := { c.write k bs with slabAt := some s.clock }
      if c.armed then { c with dirty := addSet c.dirty z } else c) →
      (f (s.core g)).SameMem y ∧ { f (s.core g) with
        mem := (s.core g).mem, bank0 := (s.core g).bank0, bank1 := (s.core g).bank1, dirty := (s.core g).dirty,
        slabAt := (s.core g).slabAt } = s.core g := by
    intro f hf
    subst hf
    dsimp only
    rw [hy]
    split
    · exact ⟨⟨rfl, rfl, rfl, rfl, rfl⟩, back _ _ _ hw⟩
    · exact ⟨⟨rfl, rfl, rfl, rfl, rfl⟩, back y y.dirty _ hw⟩
  simp only [Bool.false_eq_true, if_false]
  split
  · split
    · rename_i h15
      rw [State.core_updCore, if_pos rfl]
      exact ⟨(one _ rfl).1, (one _ rfl).2, fun _ _ h => absurd h15 h⟩
    · refine ⟨?_, ?_, fun _ _ _ => ?_⟩
      · rw [State.setFlag, State.core_wr, State.core_updCrag, State.core_updCore, if_pos rfl]; exact (one _ rfl).1
      · rw [State.setFlag, State.core_wr, State.core_updCrag, State.core_updCore, if_pos rfl]; exact (one _ rfl).2
      · rw [State.setFlag, State.crag_wr, State.crag_updCrag, if_pos rfl]; rfl
  · rename_i hn
    rw [State.core_updCore, if_pos rfl, hy]
    exact ⟨⟨rfl, rfl, rfl, rfl, rfl⟩, back y y.dirty y.slabAt hw, fun a b _ => absurd ⟨a, b⟩ hn⟩

end Sys2Proof.Machine
end

