-- ==== Sys2Proof/WellFormed.lean ====
section
/-! DEFINITION. Well-formed commands: the operands name partitions, cores, tiles, sites, crags, ports, control tiles and phases that the
engine has, and numbers that fit the fields that carry them.  A sender sends no other command; the meanings are total and do not
rest on it. -/

namespace Sys2Proof

open Sys2Proof.Machine

/-- A partition number (R21). -/
def partWf (p : Nat) : Bool := p < 12
/-- A global core number (R8). -/
def coreWf (g : Nat) : Bool := g < 18432
/-- A tile index (R12). -/
def tileWf (t : Nat) : Bool := t < 72
/-- A site index (R13). -/
def siteWf (m : Nat) : Bool := m < 16
/-- A crag, as tile × 16 + crag index (R16). -/
def cragWf (y : Nat) : Bool := y < 1152
/-- A port of the link (R357). -/
def portWf (n : Nat) : Bool := n < 8
/-- A control tile (R18). -/
def ctlWf (c : Nat) : Bool := c < 2
/-- A register word (R448). -/
def wordWf (v : Nat) : Bool := v < 2 ^ 32
/-- An index of a handle (R238). -/
def handleWf (h : Nat) : Bool := h < 2 ^ 17
/-- A regulator stack and a phase of it (R321). -/
def phaseWf (k ph : Nat) : Bool := k < 90 && ph < stackPhases k
/-- A saddle edge of a tile, 0 N, 1 E, 2 S, 3 W, that has a neighbour (R14, R167). -/
def edgeWf (t e : Nat) : Bool := tileWf t && e < 4 && (neighbour t e).isSome

/-- A page of the directory (R456 to R458). -/
def pageWf : Page → Bool
  | .modul | .sps | .journal | .tallyIf => true
  | .tileGlb t | .mesh t | .coreWin t | .rmbTile t | .therm t | .slab t => tileWf t
  | .saddle t e => tileWf t && e < 5
  | .crag t g => tileWf t && g < 16
  | .core g => coreWf g
  | .msite m | .xts m | .rmbSite m => siteWf m
  | .mchan m n => siteWf m && n < 32
  | .tickgen p | .packer p | .adm p | .spur p | .cohc p | .doorbell p => partWf p
  | .vlport n => portWf n
  | .reqtab c | .rmbCtl c | .smc c | .ssb c => ctlWf c

/-- A page of a rail monitor block (R334). -/
def rmbWf : Page → Bool
  | .rmbTile t => tileWf t
  | .rmbSite m => siteWf m
  | .rmbCtl c => ctlWf c
  | _ => false

/-- A page-mover command (R201): its fields fit the bytes that carry them. -/
def PmCmd.wf (c : PmCmd) : Bool :=
  c.op < 7 && c.region < 64 && c.dstRegion < 64 && wordWf c.offset && wordWf c.dstOffset && wordWf c.length && c.tid < 2 ^ 16 &&
    c.core < 2 ^ 15 && c.slab < 2 ^ 20

/-- An export descriptor (R200). -/
def ExportDesc.wf (d : ExportDesc) : Bool :=
  coreWf d.core && d.slab < 2 ^ 23 && 1 ≤ d.nflit && d.nflit ≤ 4096 && d.tid < 2 ^ 16 && siteWf d.site && d.region < 64 && wordWf d.offset

/-- A block whose rail misses its window (R323). -/
def RailBlock.wf : RailBlock → Bool
  | .tile t => tileWf t
  | .site m => siteWf m
  | .ctl c => ctlWf c

/-- What a load reads (R218, R221): a descriptor of 64 bytes, and the 16-byte pairs of the binding block that it counts. -/
def LoadData.wf (d : LoadData) : Bool := d.desc.length = 64 && d.binds.length = 16 * leNat ((d.desc.drop 20).take 4)

/-- A training (R359, R360, R373): generation 2 or 3, a lane mask, a node, and a number of credits for each of the four channels. -/
def TrainData.wf (d : TrainData) : Bool := (d.gen = 2 || d.gen = 3) && d.laneFail < 2 ^ 16 && d.credits.length = 4

/-- The findings of bring-up name what the engine has (R436, R437). -/
def BringupData.wf (d : BringupData) : Bool :=
  d.rows.all (fun r => coreWf r.1) && d.tiles.all tileWf && d.chans.all (fun c => edgeWf c.1 c.2.1 && c.2.2 < 7) &&
    d.mchans.all (fun c => siteWf c.1 && c.2 < 32)

/-- A frame of the Tally (R419): a 16-bit number. -/
def TallyFrame.wf (f : TallyFrame) : Bool := f.fseq < 2 ^ 16

/-- Well-formed commands. -/
def Instr.wf : Instr → Bool
  | .tickFinality p | .replayBoundary p _ | .bodyEnd p | .stretchCeilRaiseApply p | .tickLo p | .loadEnd p
  | .migrationRound p | .repairCut p | .arm p | .submit p _ | .pause p | .resume p _ | .cancel p | .release p | .keyClear p | .attest p
  | .heldCompletionWrite p | .elasticScan p _ | .outputRecordWrite p | .slackSweep p | .draft p | .spur p | .ventCmdBind p
  | .ventCmdUnbind p | .faultCompletion p | .snapshotStart p | .intHoldoffExpire p | .roleSwap p | .create p | .destroy p
  | .teardownDone p | .drainDone p | .htDataLo p => partWf p
  | .tickBoundary p _ => partWf p
  | .commitPhase p _ lost => partWf p && lost.all coreWf
  | .period p v | .stretchCeil p v | .cmdPi p v | .cplCi p v | .intAddr p v | .pairEn p v => partWf p && wordWf v
  | .commandFetch p entry => partWf p && entry.length = 64
  | .keyLoad p _ => partWf p
  | .loadImage p d => partWf p && d.wf
  | .lanePrime p lane => partWf p && lane < 4096
  | .kvExportDone p h | .ttlExpire p h => partWf p && handleWf h
  | .bulkRetry p tid => partWf p && tid < 2 ^ 16
  | .partitionStartDone p f => partWf p && f.dead.all coreWf && f.columns.all (fun c => coreWf c.1 && c.2.1 < 4 && c.2.2 < 33)
  | .retireWithoutEffect g | .commandRetire g | .slabReadPortStart g | .accBase g | .edgeCfg g | .attFinish g | .winOpen g
  | .winClose g | .winWait g | .semSignal g | .semWait g | .kvSetup g | .kvSpec g | .commit g | .commitKv g | .fence g | .nop g
  | .mark g | .halt g | .slotInjection g | .displacedForward g | .displacedTimeout g | .write g | .addInt32 g | .xor g | .addFp32 g
  | .maxFp32 g | .lseMerge g | .signal g | .append g | .bulk g | .earlyFlitRelease g | .aliveLoss g | .routerParityFailure g => coreWf g
  | .apassTree g _ | .apassSkew g _ | .accDrain g _ | .attQload g _ | .attStream g _ | .wuCopy g _ | .send g _ | .sendMc g _
  | .sendRed g _ | .sendSpine g _ | .kvMapload g _ => coreWf g
  | .wuAdd g _ _ | .wuMul g _ _ | .wuFma g _ _ | .wuMax g _ _ | .wuExp g _ _ | .wuRsqrt g _ _ | .wuRecip g _ _ | .wuSilu g _ _
  | .wuRope g _ _ _ | .wuReduce g _ _ | .wuCvt g _ => coreWf g
  | .wuSpdelta g xlen _ => coreWf g && xlen < 2 ^ 16
  | .flitArrival g port _ => coreWf g && port < 7
  | .reductionResult g rctx | .reductionIncomplete g rctx => coreWf g && rctx < 16
  | .arrayDefectPolicy g v | .progBase g v => coreWf g && wordWf v
  | .xorDeltaApply y | .spareClear y => cragWf y
  | .saddleChannelFail t e ch _ => edgeWf t e && ch < 7
  | .saddleSpareSwap t e => edgeWf t e
  | .exportDescriptor t d => tileWf t && d.wf && tileOf d.core = t
  | .computeSwitchClose t _ | .diodeReading t | .baseCapture t | .captureEnd t | .epochEnd t | .tileFault t _ => tileWf t
  | .budget t v => tileWf t && wordWf v
  | .memReq m _ | .memData m _ _ | .regCmdWrite m | .regCmdInvalidate m | .zeroFillDone m | .pageMoverDone m _ | .stackTempReading m _
  | .siteUpdateDrain m | .siteControllerFailure m | .msfReady m => siteWf m
  | .setKind m v => siteWf m && wordWf v
  | .scheduleReadStart m ch _ | .scheduleRelease m ch | .memChannelFail m ch _ | .stackRefresh m ch => siteWf m && ch < 32
  | .stageIn m c b _ => siteWf m && c.wf && b.length ≤ 32 * c.length
  | .stageOut m c _ | .load m c _ | .importRange m c _ | .copy m c _ | .zero m c _ => siteWf m && c.wf
  | .deepPageMove m g page tid region offset record => siteWf m && coreWf g && page < 2 ^ 23 && tid < 2 ^ 16 && region < 64 && wordWf offset &&
      record < 2 ^ 24
  | .deepPageLive m g entry record => siteWf m && coreWf g && entry < 2 ^ 23 && record < 2 ^ 24
  | .phaseLoss k ph _ | .cartridgeSelfTest k ph => phaseWf k ph
  | .heartbeat c | .heartbeatTimeout c | .svnCommit c | .flogData0 c => ctlWf c
  | .powerOn _ l | .clkRetry _ l | .mgtRstNRelease _ l | .pwrFailRestart _ l => l.all RailBlock.wf
  | .powerDown | .shutdown | .compaction | .reqSigned | .reqLog | .reqCert | .tallyHoldupSave | .sealOpen | .sealClosed | .moduleReset
  | .clockLoss | .seqLastLo | .shutdownTimeout | .tallyLinkTimeout | .vinSample _ _ | .thermalUpdate _ | .journalRecordDurable _
  | .intervalSign _ _ | .shareUpdate _ | .portConfigRecordWrite _ | .firmwareObjectStage _ | .fwChange _ => true
  | .phOffline v => wordWf v
  | .conversionResult pg a b => rmbWf pg && a ≤ 4096 && b ≤ 4096
  | .refSel pg v => rmbWf pg && v < 4
  | .refRdy pg | .swStart pg | .calStart pg => rmbWf pg
  | .rmbTimer pg k => rmbWf pg && k < 2
  | .portTrain n d | .downRetry n d => portWf n && d.wf
  | .trainingTimeout n | .ackTimeout n | .blockLockLoss n | .retrain n | .retrainTimeout n _ => portWf n
  | .dataFlit n fseq ack vc cr _ _ _ b => portWf n && fseq < 2 ^ 16 && ack < 2 ^ 16 && vc < 4 && cr < 2 ^ 16 && b.length ≤ 256
  | .idleFlit n ack vc cr _ _ => portWf n && ack < 2 ^ 16 && vc < 4 && cr < 2 ^ 16
  | .nak n fseq ack vc cr _ _ => portWf n && fseq < 2 ^ 16 && ack < 2 ^ 16 && vc < 4 && cr < 2 ^ 16
  | .mmioWr n tag addr v => portWf n && tag < 4096 && addr < 2 ^ 64 && wordWf v
  | .mmioRd n tag addr => portWf n && tag < 4096 && addr < 2 ^ 64
  | .snpInv n addr => portWf n && addr < 2 ^ 64
  | .cmp n tag st => portWf n && tag < 4096 && st < 16
  | .data n tag st b => portWf n && tag < 4096 && st < 16 && b.length ≤ 256
  | .bringup d => d.wf
  | .activateFirmware k _ | .healthyStartTimeout k => k < 9
  | .reading f | .signed f | .log f | .cert f | .status f => f.wf
  | .en pg _ | .softReset pg | .firstValid pg | .lock pg | .injLock pg => pageWf pg
  | .errInject pg v => pageWf pg && wordWf v
  | .registerWrite addr v => addr < 2 ^ 26 && wordWf v

end Sys2Proof
end

