-- ==== Sys2Proof/Tests/Slice0.lean ====
section
/-! SUPPORT. Small tests: ill-formed commands are refused, and for the hypotheses of every statement a state that meets them. -/

-- Many short decisions at once would each take a thread; one after another they stay within the memory limit.
set_option Elab.async false

namespace Sys2Proof.Tests

open Sys2Proof Sys2Proof.Machine

/-- A powered engine whose partition 0 owns tile 0 and runs cycle `cyc` of a tick of 6,504 cycles, with a step program at work in core 0. -/
def running (cyc : Nat) : State :=
  let s := ((State.reset.wr .sps sps.POWER_GOOD 1).wr (.mesh 0) mesh.PART_ID 0).wr (.core 0) core.SEQ_STATE 1
  ((s.wr (.tickgen 0) tickgen.PERIOD 813).wr (.tickgen 0) page.STATE 2).updPart 0 (fun p =>
    { p with phase := .running, cyc := cyc, wall := cyc, sched := 7000 + cyc, tick := 5, finalDone := true, tiles := [0] })

/-- The same with one command word in the queue of core 0, whose record is otherwise `c`. -/
def withWord (w : Nat) (c : Core := {}) : State :=
  (running 40).updCore 0 (fun _ => { c with queue := [{ word := w, idx := 7 }], fetching := true })

/-- A command word: opcode, F, A, B, LEN and the specific field, executed whatever the slot's state. -/
def word (op f a b len spec : Nat) : Nat := op * 2 ^ 120 + 2 ^ 98 + f * 2 ^ 96 + a * 2 ^ 72 + b * 2 ^ 48 + len * 2 ^ 32 + spec

/-- The queue entry of a word. -/
def entry (w : Nat) : CmdEntry := { word := w, idx := 7 }

/-- Whether core `g` issues `e` now. -/
def takesB (s : State) (g op : Nat) (un : Unit4) (e : CmdEntry) : Bool :=
  s.issuable g = some e && cOp e.word = op && unitOf op = some un && (s.core g).accepts un (s.cycOf g)

theorem takes_of {s : State} {g op : Nat} {un : Unit4} {e : CmdEntry} (h : takesB s g op un e = true) : s.Takes g op un e := by
  simp only [takesB, Bool.and_eq_true, decide_eq_true_eq] at h
  exact ⟨h.1.1.1, h.1.1.2, h.1.2, h.2⟩

/-! ### Well-formed commands -/

theorem test_wf_partition : Instr.wf (.submit 11 {}) = true ∧ Instr.wf (.submit 12 {}) = false ∧ Instr.wf (.tickBoundary 12 0) = false := by decide
theorem test_wf_core : Instr.wf (.nop 18431) = true ∧ Instr.wf (.nop 18432) = false ∧ Instr.wf (.send 18432 .none) = false := by decide
theorem test_wf_tile : Instr.wf (.epochEnd 71) = true ∧ Instr.wf (.epochEnd 72) = false := by decide
theorem test_wf_site : Instr.wf (.memReq 15 false) = true ∧ Instr.wf (.memReq 16 false) = false := by decide
theorem test_wf_channel : Instr.wf (.stackRefresh 0 31) = true ∧ Instr.wf (.stackRefresh 0 32) = false := by decide
theorem test_wf_crag : Instr.wf (.xorDeltaApply 1151) = true ∧ Instr.wf (.xorDeltaApply 1152) = false := by decide
theorem test_wf_port : Instr.wf (.nak 7 0 0 0 0 true false) = true ∧ Instr.wf (.nak 8 0 0 0 0 true false) = false := by decide
theorem test_wf_control_tile : Instr.wf (.heartbeat 1) = true ∧ Instr.wf (.heartbeat 2) = false := by decide
theorem test_wf_register_word : Instr.wf (.period 0 (2 ^ 32 - 1)) = true ∧ Instr.wf (.period 0 (2 ^ 32)) = false := by decide
theorem test_wf_register_address : Instr.wf (.registerWrite (2 ^ 26 - 4) 0) = true ∧ Instr.wf (.registerWrite (2 ^ 26) 0) = false := by decide
theorem test_wf_page : Instr.wf (.lock (.crag 71 15)) = true ∧ Instr.wf (.lock (.crag 71 16)) = false ∧ Instr.wf (.lock (.saddle 0 5)) = false := by decide
theorem test_wf_rail_monitor : Instr.wf (.calStart (.rmbTile 0)) = true ∧ Instr.wf (.calStart (.therm 0)) = false := by decide
theorem test_wf_saddle : Instr.wf (.saddleSpareSwap 0 1) = true ∧ Instr.wf (.saddleSpareSwap 0 0) = false := by decide
theorem test_wf_router_port : Instr.wf (.flitArrival 0 6 false) = true ∧ Instr.wf (.flitArrival 0 7 false) = false := by decide
theorem test_wf_reduction : Instr.wf (.reductionResult 0 15) = true ∧ Instr.wf (.reductionResult 0 16) = false := by decide
theorem test_wf_phase : Instr.wf (.phaseLoss 0 16 false) = true ∧ Instr.wf (.phaseLoss 0 17 false) = false ∧ Instr.wf (.phaseLoss 90 0 false) = false := by decide
theorem test_wf_handle : Instr.wf (.ttlExpire 0 (2 ^ 17 - 1)) = true ∧ Instr.wf (.ttlExpire 0 (2 ^ 17)) = false := by decide
theorem test_wf_page_mover : Instr.wf (.copy 0 {} .none) = true ∧ Instr.wf (.copy 0 { region := 64 } .none) = false := by decide
theorem test_wf_export : Instr.wf (.exportDescriptor 0 { nflit := 1 }) = true ∧ Instr.wf (.exportDescriptor 0 {}) = false := by decide
theorem test_wf_command_entry : Instr.wf (.commandFetch 0 (List.replicate 64 0)) = true ∧ Instr.wf (.commandFetch 0 []) = false := by decide
theorem test_wf_load : Instr.wf (.loadImage 0 { desc := List.replicate 64 0 }) = true ∧ Instr.wf (.loadImage 0 {}) = false := by decide
theorem test_wf_training : Instr.wf (.portTrain 0 {}) = true ∧ Instr.wf (.portTrain 0 { credits := [] }) = false := by decide
theorem test_wf_rails : Instr.wf (.powerOn true [.tile 71]) = true ∧ Instr.wf (.powerOn true [.tile 72]) = false := by decide
theorem test_wf_bringup : Instr.wf (.bringup {}) = true ∧ Instr.wf (.bringup { tiles := [72] }) = false := by decide
theorem test_wf_start : Instr.wf (.partitionStartDone 0 {}) = true ∧ Instr.wf (.partitionStartDone 0 { dead := [18432] }) = false := by decide
theorem test_wf_tally_frame : Instr.wf (.log {}) = true ∧ Instr.wf (.log { fseq := 65536 }) = false := by decide
theorem test_wf_conversion : Instr.wf (.conversionResult (.rmbTile 0) 4096 0) = true ∧ Instr.wf (.conversionResult (.rmbTile 0) 4097 0) = false := by decide

/-! ### The manual's worked figures -/

/-- Core (5,9) of tile (3,2) is 5,525 (R8, R12). -/
theorem test_core_number : coreAt (2 * 9 + 3) 5 9 = 5525 := by decide
/-- A tick of 6,504 cycles is 8,120 cycles under stretch 16 and 7,918 under 14 (R38). -/
theorem test_stretched_tick : tickLen 6504 16 = 8120 ∧ tickLen 6504 14 = 7918 := by decide
/-- The example under R90: s = −6, X = −5, B = −40. -/
theorem test_accumulate : accAdd 0 (-6) (-5) (-40) = (-6 * 2 ^ 35, 0, 0) := by decide
/-- A contribution of one row of R90 moves one counter. -/
theorem test_accumulate_saturates : accAdd accMax 1 48 0 = (accMax, 1, 0) ∧ accAdd accMax 4 (-1) 0 = (accMax, 1, 0) ∧ accAdd 0 (-3) (-1) 0 = (-1, 0, 1) := by decide +kernel
/-- The digits of E4M3 codes 0x5B and 0x15 (R85). -/
theorem test_digits : planeVal .mxfp8 1 0x5B = 44 ∧ planeVal .mxfp8 0 0x5B = 0 ∧ planeVal .mxfp8 0 0x15 = 26 := by decide
/-- The block of R92 with amax 14.5: scale exponent 1, 14.5 clips to 6, 13.0 rounds to 6. -/
theorem test_mx_block : (mxBlock false [.fin false 29 (-1), .fin false 13 0, .fin false 1 (-3)]).1 = [7, 7, 0] ∧
    (mxBlock false [.fin false 29 (-1), .fin false 13 0]).2 = (128, 1, 0) := by decide +kernel
/-- The example under R186: offset 0x123456 of a STRIPED region of WEIGHT set 1 with BASE 4,096. -/
theorem test_stripe : State.reset.locate 0 { kind := 1, set := 1, base := 4096 } 0x123456 = (11, 16925782) := by decide +kernel
/-- The published known answer of Philox-4x32-10 for zero inputs (R490). -/
theorem test_draw : draw 0 0 0 = 0x6627E8D5 := by decide +kernel
/-- The published check value of the CRC-32 that R419 names. -/
theorem test_crc32 : crc32 [49, 50, 51, 52, 53, 54, 55, 56, 57] = 0xCBF43926 := by decide +kernel
/-- The worked example of the thermal control: 231.7 W against 250 mK/W on a baseline of 200 gives k = 14 (R329). -/
theorem test_stretch_request :
    ((((((running 40).wr (.therm 0) therm.THETA_EST 250).wr (.therm 0) therm.THETA_BASE 200).setFlag (.therm 0) therm.COMPUTE_ON true).updPart 0 (fun x =>
      { x with lenSum := 6504, lenN := 1 })).kTile 0 25 { sd := 71, nd := 1, ps := 9268, pn := 10 }) = 14 := by decide +kernel

/-! ### EmptyQueueLetsAClockCyclePass -/

theorem wit_EmptyQueueLetsAClockCyclePass : State.reset.pending = [] := by decide

/-! ### ResetHoldsTheManualsValues -/

theorem wit_ResetHoldsTheManualsValues : page.VER_MAJOR.width ≤ 32 ∧ page.VER_MAJOR.reset < 2 ^ page.VER_MAJOR.width := by decide

/-! ### StepKeepsTablesCanonical -/

theorem wit_StepKeepsTablesCanonical : State.reset.Canon ∧ ∃ t, step State.reset = .next t :=
  ⟨⟨by decide, by decide, fun _ => rfl, by decide, by decide, by decide, by decide, by decide, by decide, by decide, by decide,
    by decide, by decide, by decide, by decide⟩, _, rfl⟩

/-! ### CoreCommandsStayInTheirCore -/

theorem wit_CoreCommandsStayInTheirCore : coreOf (.nop 3) = some 3 ∧ ∃ t, exec (.nop 3) State.reset = .next t := ⟨by decide, _, rfl⟩

/-! ### SequencerCommandsComplete -/

theorem wit_SequencerCommandsComplete :
    (withWord (word 0x81 0 0 0 0 0)).Takes 0 0x81 .sequencer (entry (word 0x81 0 0 0 0 0)) ∧
    (withWord (word 0x70 0 0 0 0 3)).Takes 0 0x70 .sequencer (entry (word 0x70 0 0 0 0 3)) ∧
    (withWord (word 0x82 0 0 0 0 9)).Takes 0 0x82 .sequencer (entry (word 0x82 0 0 0 0 9)) ∧
    (withWord (word 0x80 0 0 0 0 0)).Takes 0 0x80 .sequencer (entry (word 0x80 0 0 0 0 0)) ∧
    (withWord (word 0xF0 0 0 0 0 0)).Takes 0 0xF0 .sequencer (entry (word 0xF0 0 0 0 0 0)) :=
  ⟨takes_of (by decide +kernel), takes_of (by decide +kernel), takes_of (by decide +kernel), takes_of (by decide +kernel),
    takes_of (by decide +kernel)⟩

/-! ### CommandsLeaveTheQueueInOrder -/

/-- A send that is not selected: its slot is empty and ALL is 0. -/
def skipped : Nat := 0x30 * 2 ^ 120 + 5

theorem wit_CommandsLeaveTheQueueInOrder :
    (((withWord skipped).core 0).oldest = some (entry skipped) ∧ (withWord skipped).coreRuns 0 = true ∧
      ((withWord skipped).core 0).issuedAt ≠ some ((withWord skipped).cycOf 0) ∧
      ((withWord skipped).core 0).selected skipped = false ∧ cOp skipped = 0x30) ∧
    (let e : CmdEntry := { word := 0xF0 * 2 ^ 120, issued := true, doneAt := some 40 }
     let s := (running 40).updCore 0 (fun _ => { queue := [e] })
     (s.core 0).queue = [e] ∧ s.coreBody 0 = true ∧ e.issued = true ∧ e.done (s.cycOf 0) = true ∧ cOp e.word = 0xF0) ∧
    (let e : CmdEntry := { word := 0x81 * 2 ^ 120, issued := true, doneAt := some 40 }
     let s := (running 40).updCore 0 (fun _ => { queue := [e] })
     (s.core 0).queue = [e] ∧ s.coreBody 0 = true ∧ e.issued = true ∧ e.done (s.cycOf 0) = true ∧ cOp e.word ≠ 0xF0) := by decide +kernel

/-! ### ArrayConfigurationCommands -/

theorem wit_ArrayConfigurationCommands :
    (withWord (word 3 0 0 0 0 0x8000)).Takes 0 3 .array (entry (word 3 0 0 0 0 0x8000)) ∧
    (withWord (word 4 0 0 0 0 0x10005)).Takes 0 4 .array (entry (word 4 0 0 0 0 0x10005)) ∧
    ((withWord (word 0x60 0 0 0 0 130)).Takes 0 0x60 .array (entry (word 0x60 0 0 0 0 130)) ∧ bits (word 0x60 0 0 0 0 130) 29 3 = 0 ∧
      bits (word 0x60 0 0 0 0 130) 32 64 = 0 ∧ bits (word 0x60 0 0 0 0 130) 0 8 ≠ 0 ∧ bits (word 0x60 0 0 0 0 130) 0 8 ≠ 255) ∧
    ((withWord (word 0x62 0 0 0 0 9)).Takes 0 0x62 .array (entry (word 0x62 0 0 0 0 9)) ∧ bits (word 0x62 0 0 0 0 9) 4 28 = 0) ∧
    ((withWord (word 0x61 0 0x800000 0 2 0)).Takes 0 0x61 .array (entry (word 0x61 0 0x800000 0 2 0)) ∧
      bits (word 0x61 0 0x800000 0 2 0) 0 32 = 0 ∧ rangeOk [.slabArea] (cA (word 0x61 0 0x800000 0 2 0)) 16 = true) ∧
    ((withWord (word 0x71 0 0 0 0 0)).Takes 0 0x71 .sequencer (entry (word 0x71 0 0 0 0 0)) ∧ bits (word 0x71 0 0 0 0 0) 1 31 = 0) := by
  refine ⟨takes_of ?_, takes_of ?_, ⟨takes_of ?_, ?_, ?_, ?_, ?_⟩, ⟨takes_of ?_, ?_⟩, ⟨takes_of ?_, ?_, ?_⟩, takes_of ?_, ?_⟩ <;> decide +kernel

/-! ### CommandsStoreOnlyAtTheirDestination -/

theorem wit_CommandsStoreOnlyAtTheirDestination :
    (let s := withWord (word 0x20 0 0x100 0x200 4 0x30000)
     coreOf (.wuAdd 0 {} .none) = some 0 ∧ (∃ t, exec (.wuAdd 0 {} .none) s = .next t) ∧
      storesTo s (.wuAdd 0 {} .none) = [(0x300, 16)] ∧ ∀ r ∈ storesTo s (.wuAdd 0 {} .none), 0x310 < r.1 ∨ r.1 + r.2 ≤ 0x310) :=
  ⟨by decide, ⟨_, rfl⟩, by decide +kernel, by decide +kernel⟩

/-! ### WideElementwiseResults -/

theorem wit_WideElementwiseResults :
    (withWord (word 0x20 0 0x100 0x200 4 0x30000)).Takes 0 0x20 .wide (entry (word 0x20 0 0x100 0x200 4 0x30000)) ∧
    (withWord (word 0x21 0 0x100 0x200 4 0x30000)).Takes 0 0x21 .wide (entry (word 0x21 0 0x100 0x200 4 0x30000)) ∧
    (withWord (word 0x22 0 0x100 0x200 4 0x30000)).Takes 0 0x22 .wide (entry (word 0x22 0 0x100 0x200 4 0x30000)) ∧
    (withWord (word 0x23 0 0x100 0x200 4 0x30000)).Takes 0 0x23 .wide (entry (word 0x23 0 0x100 0x200 4 0x30000)) ∧
    (withWord (word 0x24 0 0x100 0 4 0x30000)).Takes 0 0x24 .wide (entry (word 0x24 0 0x100 0 4 0x30000)) ∧
    (withWord (word 0x25 0 0x100 0 4 0x30000)).Takes 0 0x25 .wide (entry (word 0x25 0 0x100 0 4 0x30000)) ∧
    (withWord (word 0x26 0 0x100 0 4 0x30000)).Takes 0 0x26 .wide (entry (word 0x26 0 0x100 0 4 0x30000)) ∧
    (withWord (word 0x27 0 0x100 0 4 0x30000)).Takes 0 0x27 .wide (entry (word 0x27 0 0x100 0 4 0x30000)) ∧
    (let w := word 0x20 0 0x100 0x200 4 0x30000
     cLen w ≠ 0 ∧ rangeOk [.localStore] (cA w) (vecBytes false 4) = true ∧ rangeOk [.localStore] (cB w) (vecBytes false 4) = true ∧
      rangeOk [.localStore] (cDst w) (vecBytes false 4) = true) := by
  refine ⟨takes_of ?_, takes_of ?_, takes_of ?_, takes_of ?_, takes_of ?_, takes_of ?_, takes_of ?_, takes_of ?_, ?_⟩ <;> decide +kernel

/-! ### WideOtherResults -/

theorem wit_WideOtherResults :
    ((withWord (word 0x29 0 0x100 0 4 0x30000)).Takes 0 0x29 .wide (entry (word 0x29 0 0x100 0 4 0x30000)) ∧
      rangeOk [.localStore] 0x100 16 = true ∧ rangeOk [.localStore] 0x300 4 = true) ∧
    ((withWord (word 0x28 0 0x100 0x200 4 0x30000)).Takes 0 0x28 .wide (entry (word 0x28 0 0x100 0x200 4 0x30000)) ∧
      cLen (word 0x28 0 0x100 0x200 4 0x30000) = 4 ∧ rangeOk [.localStore] 0x200 16 = true) ∧
    ((withWord (word 0x2A 0 0x100 0 4 0x30000)).Takes 0 0x2A .wide (entry (word 0x2A 0 0x100 0 4 0x30000)) ∧
      ∀ f ∈ [CvtFmt.f32, .bf16, .mxfp8, .mxfp4], rangeOk [.localStore] 0x100 (cvtBytes f 4) = true ∧ rangeOk [.localStore] 0x300 (cvtBytes f 4) = true) ∧
    ((withWord (word 0x2B 0 0x100 0x400 1 0x60000)).Takes 0 0x2B .wide (entry (word 0x2B 0 0x100 0x400 1 0x60000)) ∧
      bits (word 0x2B 0 0x100 0x400 1 0x60000) 1 7 = 0 ∧ rangeOk [.localStore] 0x100 32 = true ∧
      rangeOk lsOrBuf 0x400 (2 * actBytes false) = true ∧ rangeOk [.localStore] 0x600 512 = true) ∧
    ((withWord (word 0x2C 0 0x800000 0x200 2 0)).Takes 0 0x2C .wide (entry (word 0x2C 0 0x800000 0x200 2 0)) ∧
      rangeOk [.slabArea] 0x800000 64 = true ∧ rangeOk [.localStore] 0x200 64 = true ∧
      ((withWord (word 0x2C 0 0x800000 0x200 2 0)).core 0).portReady 40 = true) := by
  refine ⟨⟨takes_of ?_, ?_, ?_⟩, ⟨takes_of ?_, ?_, ?_⟩, ⟨takes_of ?_, ?_⟩, ⟨takes_of ?_, ?_, ?_, ?_, ?_⟩, takes_of ?_, ?_, ?_, ?_⟩ <;> decide +kernel

/-! ### ArrayPassesAccumulate -/

/-- A pass of one block and one vector into array 0: from the local store (low = 1) or the slab (low = 0). -/
def passWord (op low : Nat) : Nat := word op 0 0x100 (0x1000 + 0x7FF000 * (1 - low)) 0 0 + 2 ^ 37 + 2 ^ 22 + low

theorem wit_ArrayPassesAccumulate :
    ((withWord (passWord 0 1)).Takes 0 0 .array (entry (passWord 0 1)) ∧ weightFmt (cFmt (passWord 0 1)) = some .mxfp4 ∧
      passCheck (withWord (passWord 0 1)) 0 (passWord 0 1) = none ∧ cLow (passWord 0 1) = true) ∧
    ((withWord (passWord 1 0)).Takes 0 1 .array (entry (passWord 1 0)) ∧ passCheck (withWord (passWord 1 0)) 0 (passWord 1 0) = none ∧
      ((withWord (passWord 1 0)).core 0).portReady 40 = true) ∧
    ((withWord (passWord 1 0) { portFree := 99 }).updCore 0 (fun c => { c with portFree := 99 })).Takes 0 1 .array (entry (passWord 1 0)) ∧
    (((withWord (passWord 1 0)).updCore 0 (fun c => { c with portFree := 99 })).core 0).portReady 40 = false := by
  refine ⟨⟨takes_of ?_, ?_, ?_, ?_⟩, ⟨takes_of ?_, ?_, ?_⟩, takes_of ?_, ?_⟩ <;> decide +kernel

/-! ### PassOutsideItsRangesIsIllegal -/

theorem wit_PassOutsideItsRangesIsIllegal :
    (let w := word 1 0 0 0 0 0 + 2 ^ 37 + 255 * 2 ^ 14 + 1 * 2 ^ 6
     (withWord w).Takes 0 1 .array (entry w) ∧ 256 < cLfa0 w + cNv w ∧ ((withWord w).core 0).err = none) ∧
    (let w := word 0 0 0 0 0 0 + 2 ^ 37 + 4 * 2 ^ 6
     (withWord w).Takes 0 0 .array (entry w) ∧ 4 < cNv w ∧ ((withWord w).core 0).err = none) := by
  refine ⟨⟨takes_of ?_, ?_, ?_⟩, takes_of ?_, ?_, ?_⟩ <;> decide +kernel

/-! ### DrainsConvertAndStore -/

/-- A drain of one vector of array 0 as FP32 to 0x200, and one as FP8 through the append path. -/
def drainMem : Nat := word 2 0 0x200 0 0 0 + 2 ^ 22
/-- The drain with KV = 1. -/
def drainKv : Nat := word 2 0 0 0 0 9 + 2 ^ 22

theorem wit_DrainsConvertAndStore :
    ((withWord drainMem).Takes 0 2 .array (entry drainMem) ∧ drainCheck (withWord drainMem) 0 drainMem = none ∧ cNv drainMem = 1 ∧
      cLow drainMem = false ∧ areaOf (cA drainMem) = .localStore) ∧
    (let s := withWord drainKv { kv := some { scale := 127, route := 3 } }
     s.Takes 0 2 .array (entry drainKv) ∧ drainCheck s 0 drainKv = none ∧ cNv drainKv = 1 ∧ cLow drainKv = true ∧
      (s.core 0).kv = some { scale := 127, route := 3 }) := by
  refine ⟨⟨takes_of ?_, ?_, ?_, ?_, ?_⟩, takes_of ?_, ?_, ?_, ?_, ?_⟩ <;> decide +kernel

/-! ### AttentionEngineCommands -/

theorem wit_AttentionEngineCommands :
    ((withWord (word 0x10 0 0x100 0 2 0)).Takes 0 0x10 .attention (entry (word 0x10 0 0x100 0 2 0)) ∧
      rangeOk [.localStore] 0x100 512 = true) ∧
    ((withWord (word 0x11 0 0x800000 0 0 0)).Takes 0 0x11 .attention (entry (word 0x11 0 0x800000 0 0 0)) ∧
      bits (word 0x11 0 0x800000 0 0 0) 24 4 = 0 ∧ rangeOk [.slabArea] 0x800000 8224 = true ∧
      (((withWord (word 0x11 0 0x800000 0 0 0)).core 0).issuedIn 40).selection (word 0x11 0 0x800000 0 0 0) = []) ∧
    ((withWord (word 0x12 0 0x100 0 0 1)).Takes 0 0x12 .attention (entry (word 0x12 0 0x100 0 0 1)) ∧
      bits (word 0x12 0 0x100 0 0 1) 1 31 = 0 ∧ rangeOk [.localStore] 0x100 0 = true) := by
  refine ⟨⟨takes_of ?_, ?_⟩, ⟨takes_of ?_, ?_, ?_, ?_⟩, takes_of ?_, ?_, ?_⟩ <;> decide +kernel

/-! ### SlabReadPortStartsTheEarliestWaiter -/

theorem wit_SlabReadPortStartsTheEarliestWaiter :
    ∀ w ∈ [word 0x2C 0 0x800000 0x200 2 0, passWord 1 0, word 0x11 0 0x800000 0 0 0],
      (let e : CmdEntry := { word := w, issued := true, wait := true }
       let s := (running 40).updCore 0 (fun _ => { queue := [e] })
       (s.core 0).queue.find? (fun e => e.wait) = some e ∧ s.coreRuns 0 = true ∧ (s.core 0).portFree ≤ s.cycOf 0) ∧
      (cOp w = 0x2C ∧ rangeOk [.localStore] (cB w) (32 * cLen w) = true ∨ cOp w = 1 ∧ cLow w = false ∧ weightFmt (cFmt w) = some .mxfp4 ∨
        cOp w = 0x11 ∧ bit w 31 = false) := by decide +kernel

/-! ### WindowsAndSemaphores -/

/-- A core with window 2 open and semaphore 3 at its top. -/
def synced : Core := { wins := [(2, { state := .opened, openedIn := true, expect := 1 })], sems := [(3, 65535)] }

theorem wit_WindowsAndSemaphores :
    (let w := word 0x40 0 0x100 0 1 0x101
     (withWord w).Takes 0 0x40 .sync (entry w) ∧ bits w 6 2 = 0 ∧ bits w 28 4 = 0 ∧ cLen w ≠ 0 ∧ cA w % 32 = 0 ∧
      (((withWord w).core 0).win (bits w 0 6)).openedIn = false ∧ rangeOk [.localStore, .inputBuf, .slabArea] (cA w) 32 = true) ∧
    (let w := word 0x41 0 0 0 0 2
     (withWord w synced).Takes 0 0x41 .sync (entry w) ∧ bits w 6 26 = 0 ∧ (((withWord w synced).core 0).win 2).state = .opened ∧
      (((withWord w synced).core 0).win 2).closing = false) ∧
    (let w := word 0x42 0 0 0 0 2
     (withWord w synced).Takes 0 0x42 .sync (entry w) ∧ (((withWord w synced).core 0).win 2).openedIn = true) ∧
    (let w := word 0x50 0 0 0 0 1
     (withWord w synced).Takes 0 0x50 .sync (entry w) ∧ ((withWord w synced).core 0).sem 1 < 65535) ∧
    (let w := word 0x50 0 0 0 0 3
     (withWord w synced).Takes 0 0x50 .sync (entry w) ∧ 65535 ≤ ((withWord w synced).core 0).sem 3 ∧ ((withWord w synced).core 0).err = none) ∧
    (let w := word 0x51 0 0 0 0 1
     (withWord w synced).Takes 0 0x51 .sync (entry w)) := by
  refine ⟨⟨takes_of ?_, ?_, ?_, ?_, ?_, ?_, ?_⟩, ⟨takes_of ?_, ?_, ?_, ?_⟩, ⟨takes_of ?_, ?_⟩, ⟨takes_of ?_, ?_⟩, ⟨takes_of ?_, ?_, ?_⟩,
    takes_of ?_⟩ <;> decide +kernel

/-! ### SendsOccupyTheSendUnit -/

theorem wit_SendsOccupyTheSendUnit :
    (let w := word 0x30 0 0x100 0 2 5
     (withWord w).Takes 0 0x30 .send (entry w) ∧ sendCheck w = none) ∧
    (let w := word 0x31 0 0x100 0 2 5
     (withWord w).Takes 0 0x31 .send (entry w) ∧ sendCheck w = none) ∧
    (let w := word 0x32 0 0x100 0 2 0x205
     (withWord w).Takes 0 0x32 .send (entry w) ∧ sendCheck w = none) ∧
    (let w := word 0x33 0 0x100 0 2 0x1000
     (withWord w).Takes 0 0x33 .send (entry w) ∧ cLen w ≠ 0 ∧ rangeOk lsOrBuf (cA w) 64 = true) := by
  refine ⟨⟨takes_of ?_, ?_⟩, ⟨takes_of ?_, ?_⟩, ⟨takes_of ?_, ?_⟩, takes_of ?_, ?_, ?_⟩ <;> decide +kernel

/-! ### ACommandThatMeetsAnErrorHasNoEffect -/

theorem wit_ACommandThatMeetsAnErrorHasNoEffect :
    (withWord (passWord 0 1)).Takes 0 0 .array (entry (passWord 0 1)) ∧ ((withWord (passWord 0 1)).core 0).err = none ∧
    (0x00, Instr.apassTree 0 .wregParity) ∈ [(0x00, .apassTree 0 .wregParity), (0x01, .apassSkew 0 .wregParity)] ∧
    (withWord (word 0x20 0 0x100 0x200 4 0x30000)).Takes 0 0x20 .wide (entry (word 0x20 0 0x100 0x200 4 0x30000)) ∧
    ((withWord (word 0x20 0 0x100 0x200 4 0x30000)).core 0).err = none := by
  refine ⟨takes_of ?_, ?_, ?_, takes_of ?_, ?_⟩ <;> decide +kernel

/-! ### EjectedWritesAccumulate -/

/-- Core 0 with window 3 open at 0x100 for 16 flits in tick 5, and the flit `f` at the head of its ejection queue. -/
def ejecting (f : Flit) (since : Nat := 0) (c : Core := {}) : State :=
  (running 40).updCore 0 (fun _ => { c with
    wins := [(3, { base := 0x100, len := 16, state := .opened, stamp := 5, openedIn := true })], ej := [⟨f, 0, 1, 9, since⟩] })

theorem wit_EjectedWritesAccumulate : ∀ op ∈ [0, 1, 2, 3, 4],
    (let s := (ejecting { op := op, stamp := 5 }).updRouter 0 (fun r => { r with routes := [(265, 2 ^ 31 + 3 * 2 ^ 22)] })
     ∃ x, (s.core 0).ej = [x] ∧ x.flit.op = op ∧ s.ejectFree 0 = true ∧ x.since ≤ s.clock ∧
      handling ((s.core 0).win (rtWid (s.entryOf x))) x.flit.stamp (s.tickOf 0) (s.cycOf 0) = .apply ∧
      rtOff0 (s.entryOf x) + rtStride (s.entryOf x) * (s.core 0).appliedN x.key < ((s.core 0).win (rtWid (s.entryOf x))).len ∧ s.slabDead 0 = false) := by
  intro op h
  exact ⟨_, rfl, by revert op; decide +kernel⟩

/-! ### MergesSignalsAppendsAndReleases -/

/-- The same, with the route entry of window 3. -/
def routed (f : Flit) (c : Core := {}) : State :=
  (ejecting f 0 c).updRouter 0 (fun r => { r with routes := [(265, 2 ^ 31 + 3 * 2 ^ 22)] })

theorem wit_MergesSignalsAppendsAndReleases :
    (∀ f ∈ [({ op := 5, stamp := 5 } : Flit), { op := 7, stamp := 5 }, { op := 7, stamp := 5, nth := 1 }],
      ∀ c ∈ [({} : Core), { applied := [(265, 8)], merges := [⟨3, 0x100, 0, 0, 0, 0⟩] }, { appends := [{ key := 265, stamp := 5, act := .write }] }],
      let s := routed f c
      let x : EjFlit := ⟨f, 0, 1, 9, 0⟩
      (s.core 0).ej = [x] ∧ s.slabDead 0 = false ∧ s.ejectFree 0 = true ∧ x.since ≤ s.clock ∧ s.lseWaits 0 x = false ∧
        handling ((s.core 0).win (rtWid (s.entryOf x))) x.flit.stamp (s.tickOf 0) (s.cycOf 0) = .apply) ∧
    (let s := routed { op := 5, stamp := 5 } { applied := [(265, 8)], merges := [⟨3, 0x100, 0, 0, 0, 0⟩] }
     ∃ x, (s.core 0).ej = [x] ∧ (s.core 0).appliedN x.key % 9 = 8 ∧
      (s.core 0).merges.find? (fun m => m.wid = rtWid (s.entryOf x)) = some ⟨3, 0x100, 0, 0, 0, 0⟩ ∧ 0x100 + 32 * 8 < 0x100 + 32 * 16) ∧
    (let s := routed { op := 7, stamp := 5, nth := 4 } { appends := [{ key := 265, stamp := 5, act := .write }] }
     ∃ x, (s.core 0).ej = [x] ∧ (s.core 0).appendOf x = some { key := 265, stamp := 5, act := .write } ∧ x.flit.nth = 4) ∧
    (let s := routed { op := 7, stamp := 5 }
     ∃ x, (s.core 0).ej = [x] ∧ x.flit.nth = 0 ∧ ((s.core 0).openAppend x).act = .skip) ∧
    ([5, 4, 3, 6].map (fun st => classify st 5 40) = [.onTime, .late, .late, .early] ∧ classify 4 5 3 = .grace) ∧
    (let s := (routed {}).updCore 0 (fun c => { c with ej := [], rel := [⟨{ stamp := 5 }, 0, 1, 9, 0⟩] })
     ∃ x, (s.core 0).rel = [x] ∧ s.ejectFree 0 = true ∧ (s.core 0).ej = [] ∧
      ((s.core 0).win (rtWid (s.entryOf x))).state = .opened ∧ ((s.core 0).win (rtWid (s.entryOf x))).stamp = x.flit.stamp) ∧
    ((State.reset.updCrag 0 (fun y => { y with deltas := [⟨0, 0x800000, [1], 0⟩] })).crag 0).deltas = [⟨0, 0x800000, [1], 0⟩] := by
  refine ⟨?_, ⟨_, rfl, ?_⟩, ⟨_, rfl, ?_⟩, ⟨_, rfl, ?_⟩, ?_, ⟨_, rfl, ?_⟩, ?_⟩
  all_goals decide +kernel

/-! ### SlotInjectionsAndArrivals -/

/-- Router 5 of tile 0 with the flit `f` due at its input port 1, and a route to port 3 with a slot entry in cycle 40. -/
def arriving (f : Flit) (r : Router := {}) : State :=
  ((running 40).updRouter 5 (fun _ => { r with routes := [(0x109, 2 ^ 31 + 2 ^ 3)], slots := [40 * 2 ^ 16 + 3 * 2 ^ 13 + 2 ^ 10 + 9 * 4] })).setLinks
    [⟨5, 1, 7040, f⟩]

/-- Router 0 with a slot entry in cycle 40 through which label 9 crosses from its core to port 1; the route entry is valid where `v`. -/
def injecting (v : Bool) : State :=
  (running 40).updRouter 0 (fun r => { r with routes := if v then [(portL * 256 + 9, 2 ^ 31 + 2 ^ 1)] else [], slots := [40 * 2 ^ 16 + 2 ^ 13 + 4 * 2 ^ 10 + 9 * 4] })

theorem wit_SlotInjectionsAndArrivals :
    (∀ v : Bool, let s := (injecting v).updCore 0 (fun c => { c with inj := [(7000, { route := 9 })] })
     s.corePart 0 = some 0 ∧ s.inBody 0 = true ∧ s.usedPort 0 16 = false ∧ (s.core (s.ejectCore 0)).inj = [(7000, { route := 9 })] ∧ 7000 ≤ (s.part 0).sched ∧
      rtRedK ((s.router 0).route portL 9) = 0 ∧ ((s.router 0).injSlots (s.part 0).cyc).filter (fun e => slLabel e = 9) ≠ [] ∧
      rtValid ((s.router 0).route portL 9) = v) ∧
    (let s := injecting true
     s.corePart 0 = some 0 ∧ s.inBody 0 = true ∧ s.usedPort 0 16 = false ∧ (s.core (s.ejectCore 0)).inj = [] ∧ (s.core (s.ejectCore 0)).quiet.contains 9 = false ∧
      ∃ e ∈ (s.router 0).injSlots (s.part 0).cyc, slLabel e = 9) ∧
    (∀ f ∈ [({ op := 8 } : Flit), { op := 0, route := 8 }, { op := 0, route := 9 }, { op := 0, route := 9, displaced := true }],
      let s := arriving f
      (s.takeDue 5 1).map (fun x => (x.1, x.2.1)) = some (f, false) ∧ s.inHoldCycle ((s.corePart 5).getD 0) = false ∧ inEdge 5 1 = none ∧ s.rd (.mesh 0) mesh.PART_ID = f.part ∧ s.steps 0 = true ∧ s.draining 0 = false ∧
        (s.router 5).bulk.length < 4 ∧ (s.router 5).disp.length < 8 ∧ (s.router 5).dispRoutes = [] ∧
        (rtValid ((s.router 5).route 1 f.route) = true ↔ f.route = 9) ∧ rtRedK ((s.router 5).route 1 f.route) = 0 ∧
        ((s.router 5).hits 40 1 f.route ≠ [] ↔ f.route = 9)) ∧
    ((((((running 40).setLinks [⟨0, 3, 7040, {}⟩]).atInput 0 3).takeDue 0 3).isSome ∧ inEdge 0 3 = some 3 ∧ (running 40).inHoldCycle (((running 40).corePart 0).getD 0) = false ∧
        (let s := (running 70).updPart 0 (fun x => { x with stretch := 64 })
         s.inHoldCycle ((s.corePart 0).getD 0) = true)) ∧
      (let f : Flit := { op := 1, route := 9, stamp := 5 }
       let s := (arriving f).updRouter 5 (fun r => { r with routes := [(0x109, 2 ^ 31 + 2 * 2 ^ 15 + 2 * 2 ^ 18 + 2 ^ 3)] })
       (s.takeDue 5 1).map (fun x => (x.1, x.2.1)) = some (f, false) ∧ rtRedK ((s.router 5).route 1 9) ≠ 0 ∧ f.stamp = (s.part 0).tick % 256 ∧ (s.router 5).red.length < 16) ∧
      ((running 40).updPart 0 (fun x => { x with phase := .drain 3 })).draining 0 = true) ∧
    (hop 0 1 = some (1, 3, 1, none) ∧ ((running 40).ejectCore 0 = 0 ∧ ((running 40).core 0).ej.length < 8)) := by
  refine ⟨?_, ?_, ?_, ?_, rfl, ?_⟩ <;> decide +kernel

/-! ### WatershedDiscardsForeignFlits -/

theorem wit_WatershedDiscardsForeignFlits :
    let s := (running 40).setLinks [⟨5, 1, 0, { part := 7 }⟩]
    ((s.atInput 5 1).takeDue 5 1).map (·.1) = some { part := 7 } ∧ s.rd (.mesh 0) mesh.PART_ID ≠ 7 ∧
      s.inHoldCycle ((s.corePart 5).getD 0) = false := by
  decide +kernel

/-! ### DisplacedFlitsAndReductions -/

/-- Router 5 with two operands of reduction 2, one flit displaced since cycle 0, and a slot for the result in cycle 40. -/
def folding (n : Nat) : State :=
  (running 40).updRouter 5 (fun _ => {
    routes := [(0x109, 2 ^ 31 + 2 * 2 ^ 15 + 2 * 2 ^ 18 + 2 ^ 3), (0x309, 2 ^ 31 + 2 * 2 ^ 15 + 2 * 2 ^ 18 + 2 ^ 3)],
    slots := [40 * 2 ^ 16 + 3 * 2 ^ 13 + 2 ^ 10 + 9 * 4],
    red := [⟨2, 1, { op := 1 }, 7000⟩, ⟨2, 3, { op := 1 }, 7010⟩].take n, disp := [⟨{}, 1, 0, [2]⟩] })

theorem wit_DisplacedFlitsAndReductions :
    (let s := folding 2
     s.redSlots 5 2 ≠ [] ∧ (s.router 5).operands 2 = [(1, 9), (3, 9)] ∧ (s.redReady 5 2).map (fun x => x.1.map (·.flit.op)) = some [1, 1] ∧
      (s.router 5).have 2 = [some ⟨2, 1, { op := 1 }, 7000⟩, some ⟨2, 3, { op := 1 }, 7010⟩] ∧ (s.router 5).redCtx = [] ∧
      7010 + 1 ≤ (s.part ((s.corePart 5).getD 0)).sched) ∧
    ((folding 1).redSlots 5 2 ≠ [] ∧ (folding 1).redReady 5 2 = none ∧ (folding 1).redDone 5 2 = false ∧ (folding 2).redDone 5 2 = false ∧
      ((folding 2).markRed 5 2).redDone 5 2 = true) ∧
    (((folding 2).router 5).disp = [⟨{}, 1, 0, [2]⟩] ∧ [2].filter ((folding 2).freePort 5) ≠ [] ∧ (folding 2).steps 0 = true ∧
      0 + 256 ≤ ((folding 2).part (((folding 2).corePart 5).getD 0)).sched) := by
  refine ⟨?_, ?_, ?_⟩ <;> decide +kernel

/-! ### BulkAndExportTraffic -/

/-- Router 5 with a bulk flit that comes to its core, and one bound for core 6. -/
def bulky (d : Nat) : State := (running 5).updRouter 5 (fun r => { r with bulk := [bulkFlit 0 5 3 d 64 0 true []] })

/-- Site 0 of partition 0 with a DEEP region 0 of a MUTABLE set, the transfers `l`, and a due MEM_DATA flit of TID 3. -/
def opened (l : List Transfer) : State :=
  ((((running 40).wr (.msite 0) msite.PART_ID 0).wr (.msite 0) msite.SET_KIND 2).setLinks [⟨32768, 0, 0, { op := 10, route := 3 }⟩]).updSite 0
    (fun x => { x with transfers := l, regions := [(0, { valid := true, set := 1, kind := 4, len := 8 })] })

theorem wit_BulkAndExportTraffic :
    (let s := bulky 5
     (s.router 5).bulk ≠ [] ∧ s.corePart 5 = some 0 ∧ s.steps 0 = true ∧ (s.router 5).disp = [] ∧ s.freePort 5 portL = true ∧ s.draining 0 = false ∧
      (s.core (s.ejectCore 5)).slabAt ≠ some s.clock ∧ s.slabDead (s.ejectCore 5) = false ∧
      s.bulkPort 5 (bulkFlit 0 5 3 5 64 0 true []) = some portL ∧ (bulkFlit 0 5 3 5 64 0 true []).bulkOff + 24 ≤ 0x800000 ∧ (bulkFlit 0 5 3 5 64 0 true []).bulkLast = true) ∧
    (let s := bulky 6
     s.bulkPort 5 (bulkFlit 0 5 3 6 64 0 true []) = some 1 ∧ s.freePort 5 1 = true ∧ s.bulkCredit 6 = true) ∧
    (hop 5 1 = some (6, 3, 1, none) ∧
      (let d : ExportDesc := { core := 5, tid := 3, nflit := 2, site := 0 }
       let s := (running 4).updRouter 5 (fun r => { r with exports := [(d, 1)] })
       (s.router 5).bulk = [] ∧ (s.router 5).exports = [(d, 1)] ∧ s.steps 0 = true ∧ (s.core (s.ejectCore 5)).portFree ≤ (s.part 0).cyc ∧
        (s.bulkPort 5 (exportFlit s 5 d 1)).isSome = true ∧ (exportFlit s 5 d 1).part = 0) ∧
      (let c : CopyRun := { tid := 3, dst := 6, len := 4096 }
       let s := (running 4).updRouter 5 (fun r => { r with copies := [c] })
       (s.router 5).bulk = [] ∧ (s.router 5).exports = [] ∧ (s.router 5).copies = [c] ∧ s.steps 0 = true ∧ (s.core (s.ejectCore 5)).portFree ≤ (s.part 0).cyc ∧
        (s.router 5).disp = [] ∧ s.bulkPort 5 (s.copyFlit 5 c) = some 1 ∧ s.freePort 5 1 = true ∧ s.bulkCredit 6 = true ∧ s.draining (s.copyFlit 5 c).part = false) ∧
      (let f : Flit := { op := 8, route := 2 * cyOf (chRouter 0 0) }
       let s := (running 4).updSite 0 (fun x => { x with bulkOut := [f] })
       (s.router (chRouter 0 0)).exports = [] ∧ (s.router (chRouter 0 0)).copies = [] ∧ memRouter (chRouter 0 0) = some 0 ∧ f.tid % 32 / 2 = cyOf (chRouter 0 0) ∧ s.siteCol 0 (f.tid % 32) (chRouter 0 0) f.part = true)) ∧
    (∀ d ∈ [some ({ core := 5, tid := 3, nflit := 2 } : ExportDesc), none],
      let s := ({ State.reset with clock := 2 ^ 20 } : State).updPart 0 (fun p => { p with xfers := [{ cmd := { tid := 3 }, desc := d }] })
      (s.part 0).xfers = [{ cmd := { tid := 3 }, desc := d }] ∧ ({ cmd := { tid := 3 }, desc := d } : Xfer).got = none ∧ 0 + 2 ^ 20 ≤ s.clock ∧ (s.site 0).pm.length < 64 ∧
        ({ cmd := { tid := 3 }, copy := some (5, { tid := 3 }) } : Xfer).desc = none ∧ 64 ≤ ((s.updSite 0 (fun x => { x with pm := List.replicate 64 {} })).site 0).pm.length) ∧
    (let s := (running 40).setLinks [⟨32768, 0, 0, { op := 9, route := 3 }⟩]
     (s.takeSite 0 9).isSome ∧ (s.site 0).up = true ∧ s.flag (.msite 0) msite.HOT = false ∧ (s.site 0).draining = false ∧ (s.site 0).zeroing = []) ∧
    (let s := opened [⟨3, 0, 0, 2, 2, 0, 0⟩, ⟨4, 0, 0, 2, 1, 0, 0⟩]
     (s.takeSite 0 10).map (fun e => (e.2.1.tid, e.2.2.exportStatus 0 0 0 2)) = some (3, 0) ∧ (s.site 0).transfers = [⟨3, 0, 0, 2, 2, 0, 0⟩, ⟨4, 0, 0, 2, 1, 0, 0⟩]) := by
  refine ⟨?_, ?_, ⟨rfl, ?_, ?_, ?_⟩, ?_, ?_, ?_⟩ <;> decide +kernel

/-! ### FailedChannels -/

/-- Tiles 0 and 1 in partition 0, which runs; channel `c` of their saddle as `x`. -/
def pair (x : Saddle) : State := ((running 40).wr (.mesh 1) mesh.PART_ID 0).updSaddle 0 (fun _ => x)

theorem wit_FailedChannels :
    (∀ x ∈ [({} : Saddle), { crc := [(2, 0), (2, 0), (2, 0)] }],
      (pair x).tilePart 0 = some 0 ∧ (pair x).tilePart 1 = some 0 ∧ neighbour 0 1 = some 1 ∧ ((pair x).saddle (saddleKey 0 1)).failed = [] ∧
        ((pair x).saddle (saddleKey 0 1)).unused = [] ∧ (pair x).inReplay 0 = false ∧
        (x.crc ≠ [] → 3 ≤ (((pair x).saddle (saddleKey 0 1)).crc.filter (fun c => c.1 = 2 && decide ((pair x).clock < c.2 + 2 ^ 20))).length)) ∧
    (let s := (pair { pending := some (2, 4) }).updPart 0 (fun p => { p with phase := .boundaryHold 3 })
     (s.saddle (saddleKey 0 1)).pending = some (2, 4) ∧ (s.part 0).phase = .boundaryHold 3 ∧ s.tilePart 0 = some 0 ∧ s.tilePart 1 = some 0 ∧
       s.mapped 2 (saddleKey 0 1 * 8 + 2) = 0 ∧ (s.setMap [(2, saddleKey 0 1 * 8 + 2, 1)]).mapped 2 (saddleKey 0 1 * 8 + 2) ≠ 0) ∧
    (∀ c ∈ [({} : Chan), { buffer := [(3, {})], ueTimes := [0, 0, 0] }],
      let s := (running 40).updChan 0 5 (fun _ => c)
      (s.chan 0 5) = c ∧ c.failNext = false ∧ s.chFailed 0 5 = false) ∧
    3 ≤ ((({ crcTimes := [0, 0, 0] } : Chan).crcTimes.filter (fun t => decide ((running 40).clock < t + 2 ^ 20))).length) := by
  refine ⟨?_, ?_, ?_, ?_⟩ <;> decide +kernel

/-! ### SiteStreams -/

/-- Site 0 of partition 0 with one FIX entry of two flits at cycle 60 on channel 1, in region 0 of a WEIGHT set. -/
def streaming (cyc : Nat) (c : Chan := {}) : State :=
  (((((running cyc).wr (.msite 0) msite.PART_ID 0).updChan 0 1 (fun _ => { c with sched := [60 + 9 * 2 ^ 16 + 2 ^ 24] })).updSite 0 (fun x => { x with
    regions := [(0, { valid := true, kind := 5, len := 2 })] })).updRouter (chRouter 0 1) (fun r => { r with
    routes := [(chPort 1 * 256 + 9, 2 ^ 31 + 2 ^ 4)] })).updCore (chRouter 0 1) (fun c => { c with slots := [{ state := .run }, {}, {}, {}] })

theorem wit_SiteStreams :
    (let s := streaming 20
     s.sitePart 0 = some 0 ∧ s.running 0 = true ∧ s.steps 0 = true ∧ (s.site 0).up = true ∧ 12 ≤ (s.part 0).cyc ∧
      (List.range (s.chan 0 1).sched.length).find? (fun i => (s.chan 0 1).waiting i &&
        decide (csCycle ((s.chan 0 1).sched.getD i 0) ≤ (s.part 0).cyc + 340)) = some 0 ∧
      csFlits ((s.chan 0 1).sched.getD 0 0) = 2 ∧ (s.chan 0 1).held + 2 ≤ 2048 ∧
      (s.readChans 0 1).any (fun k => 24 < s.schedReqs 0 k (s.part 0).cyc + csUnits ((s.chan 0 1).sched.getD 0 0)) = false) ∧
    ((streaming 20).csDescr 0 1 (60 + 9 * 2 ^ 16 + 2 ^ 24)).state = .run ∧
    (let s := streaming 20
     let e := 60 + 9 * 2 ^ 16 + 2 ^ 24
     s.csWhere 0 1 e {} = some (0, 4096) ∧ s.serves 0 (s.region 0 0) = true ∧ (s.site 0).zeroing.contains 0 = false ∧ s.regionLost 0 (s.region 0 0) = false ∧
      (s.region 0 0).weight = false ∧ ∀ i, i < 2 → (s.chan 0 (s.locate 0 (s.region 0 0) (s.csStep 0 e 4096 (32 * i))).1).noLock = false) ∧
    (((streaming 61 { buffer := [(61, {})] }).chan 0 1).buffer = [(61, {})] ∧ ((streaming 61).chan 0 1).buffer = [] ∧
      ((streaming 61).chan 0 1).waiting 0 = true) := by
  refine ⟨?_, ?_, ?_, ?_⟩ <;> decide +kernel

/-! ### RegionTableCommands -/

/-- Site 0 of partition 0, OFF, with set 1 MUTABLE, entry 3 selected and REG_DATA of the word `w`. -/
def tabled (w : Nat) (st : Nat := 0) : State :=
  (List.range 4).foldl (fun s j => s.wr (.msite 0) (msite.REG_DATA j) (w / 2 ^ (32 * j)))
    ((((running 40).wr (.tickgen 0) page.STATE st).wr (.msite 0) msite.SET_KIND 2).wr (.msite 0) msite.REG_SEL 3)

/-- A region word. -/
def regWord (set kind len : Nat) : Nat := ({ valid := true, set := set, kind := kind, len := len } : Region).word

theorem wit_RegionTableCommands :
    (∀ w ∈ [regWord 1 5 4, regWord 0 1 4], (tabled w).rd (.msite 0) msite.REG_SEL = 3 ∧ (tabled w).regionLocked ((tabled w).region 0 3) = false ∧
      (tabled w).regionLocked (regionOfWord w) = false ∧ (tabled w).regionOk 0 3 (regionOfWord w) = true ∧
      regionOfWord ((List.range 4).foldl (fun a j => a + 2 ^ (32 * j) * (tabled w).rd (.msite 0) (msite.REG_DATA j)) 0) = regionOfWord w) ∧
    (tabled (regWord 1 4 4) 2).regionLocked (regionOfWord (regWord 1 4 4)) = true ∧
    (tabled (regWord 0 5 4)).regionOk 0 3 (regionOfWord (regWord 0 5 4)) = false ∧
    (let s := (running 40).updSite 0 (fun x => { x with zeroing := [3, 4], regions := [(3, regionOfWord (regWord 1 5 4))] })
     (s.site 0).zeroing = [3, 4] ∧ (s.region 0 3).single = false) ∧
    (running 40).flag (.msite 0) page.LOCK = false ∧
    ((running 40).tilePart 0 = some 0 ∧ tileOf 5 = 0 ∧ ({ part := 7 } : ExportDesc).part ≠ 0 ∧ ({} : ExportDesc).part = 0 ∧ ((running 40).part 0).xfers.any (fun x => x.cmd.tid = 3) = false) := by
  refine ⟨?_, ?_, ?_, ?_, ?_, ?_⟩ <;> decide +kernel

/-! ### PageMoverCommands -/

/-- Site 0 of partition 0 with a DEEP region 3 of eight units and an IMAGE region 4 under key slot 0, which holds a key. -/
def moving : State :=
  (((running 40).wr (.msite 0) msite.PART_ID 0).wr (.msite 0) msite.SET_KIND 2).updSite 0 (fun x => { x with
    regions := [(3, { valid := true, set := 1, kind := 4, len := 8 }), (4, { valid := true, kind := 1, len := 8 })], keys := [(0, 7)] })

theorem wit_PageMoverCommands :
    ((moving.site 0).pm = [] ∧ (moving.site 0).draining = false ∧ moving.sitePart 0 = some 0 ∧ moving.pmFree 0 = true ∧ (moving.part 0).xfers = []) ∧
    (∀ c ∈ [({ op := 1, region := 4, length := 2 } : PmCmd), { op := 2, region := 4, length := 2 }, { op := 3, region := 4, length := 2 },
        { op := 4, region := 3, length := 2 }, { op := 5, region := 3, dstRegion := 3, length := 2 }, { op := 6, region := 3, length := 2 }],
      moving.pmStatus 0 c = 0 ∧ (moving.sourceLines 0 (moving.region 0 c.region) c.length (fun i => 32 * c.offset + 32 * i) .none).2 = [] ∧
        ((moving.updChan 0 8 (fun _ => { noLock := true })).sourceLines 0 (moving.region 0 4) 2 (fun i => 32 * i) (.ue 0)).2 ≠ []) ∧
    ((moving.region 0 5).valid = false ∧ (moving.region 0 3).valid = true ∧ (running 40).serves 0 (moving.region 0 3) = false) ∧
    (let s := (moving.setFlag (.msite 0) msite.HOT true).updSite 0 (fun x => { x with pm := [{ ran := true }] })
     (s.site 0).pm = [{ ran := true }] ∧ (s.site 0).draining = false ∧ s.pmFree 0 = false ∧ (s.part ((s.sitePart 0).getD 0)).job = none) := by
  refine ⟨?_, ?_, ?_, ?_⟩ <;> decide +kernel

/-! ### StackTemperatureAndDeepPages -/

/-- Core 0 with a binding of layer 2 whose lane directory commits page 0 of lane 0, and the page's entry at 0x200. -/
def deepCore : Core :=
  ({ binds := [{ layer := 2, dir := 0x800000 }] } : Core).write 0x200 (leBytes 8 (2 ^ 63 + 2 * 2 ^ 46 + 7 * 4096)) |>.write 0x800028 (leBytes 4 64)

theorem wit_StackTemperatureAndDeepPages :
    (let s := ((running 4).updCore 0 (fun _ => deepCore)).updSite 0 (fun x => { x with
       regions := [(3, { valid := true, single := true, kind := 4 })], records := [(9, 2 ^ 63 + 2 ^ 61)], deep := [{ layer := 2, head := 0, shard := 0 }] })
     s.corePart 0 = some 0 ∧ bit (leNat ((s.core 0).read 0x200 8)) 63 = true ∧ bit (leNat ((s.core 0).read 0x200 8)) 28 = false ∧
      (s.core 0).pageBinding (leNat ((s.core 0).read 0x200 8)) = some { layer := 2, dir := 0x800000 } ∧ (s.core 0).deepAt.contains 0x200 = false ∧ s.slabDead 0 = false ∧
      (s.site 0).deep = [{ layer := 2, head := 0, shard := 0 }] ∧ dirIdx (s.core 0) 0x800000 = 0 ∧
      (s.region 0 3).single = true ∧ (s.region 0 3).kind = 4 ∧ bit (Table.get 0 (s.site 0).records 9) 63 = true ∧
      bit (Table.get 0 (s.site 0).records 9) 61 = true ∧ bit (Table.get 0 (s.site 0).records 9) 62 = false ∧ (s.part 0).cyc ≤ 11) := by
  decide +kernel

/-! ### DoorbellsAndInterrupts -/

/-- Partition 0 with rings of 64 entries, one completion entry written, and an aperture from 0 to 4 KiB that takes writes. -/
def ringed : State :=
  ((((((running 40).wr (.cohc 0) cohc.CMD_LOG2 6).wr (.cohc 0) cohc.CPL_LOG2 6).wr (.cohc 0) cohc.CPL_PI 1).wr (.cohc 0) cohc.INT_EN 1).wr
    (.cohc 0) cohc.ARMED 1).updPart 0 (fun p => { p with intPend := true, apers := [(0, ⟨0, 4096, true, true⟩)] })

theorem wit_DoorbellsAndInterrupts :
    ((ringed.flag (.tickgen 0) tickgen.CREATED && ringed.pstate 0 = 0 && !ringed.ringsGood 0) = false ∧ ringed.cmdN 0 = 64 ∧
      ringed.rd (.cohc 0) cohc.CMD_CI = 0 ∧ (3 + 128 - 0) % 128 ≤ 64 ∧ 64 < (100 + 128 - 0) % 128) ∧
    (ringed.cplUsed 0 ≠ 0 ∧ (running 40).cplUsed 0 = 0 ∧ ringed.flag (.cohc 0) cohc.INT_EN = true ∧ ringed.holdoffOver 0 = true ∧
      (ringed.part 0).intPend = true ∧ ringed.flag (.cohc 0) cohc.ARMED = true) ∧
    (ringed.inAperture 0 ((ringed.part 0).intAddr / 4 * 4) 4 true = true ∧ (running 40).inAperture 0 0 4 true = false) := by
  refine ⟨?_, ?_, ?_⟩ <;> decide +kernel

/-! ### RingEntriesAndRequestCommands -/

/-- The entry of a command of a HANDLE: opcode, and byte 12. -/
def shortEntry (op b : Nat) : List Byte := [BitVec.ofNat 8 op] ++ List.replicate 11 0 ++ [BitVec.ofNat 8 b] ++ List.replicate 51 0

/-- A SUBMIT of one prompt token and one token to generate with FLAGS `e` and a deadline of `d` ticks. -/
def submitEntry (e d : Nat) : List Byte :=
  [1, BitVec.ofNat 8 e, 1, 0] ++ List.replicate 4 0 ++ [BitVec.ofNat 8 d] ++ List.replicate 7 0 ++ [1, 0, 0, 0, 1] ++ List.replicate 19 0 ++ [72, 0, 0, 0, 0, 0, 255, 0] ++ List.replicate 16 0

/-- Partition 0 with rings of 64 entries, an ACTIVE port to its companion, an aperture from 0 to 64 KiB that takes writes, a small image,
free pages, a fetched command, one not yet fetched, a held completion where `held`, and request 0 in state `st`. -/
def asked (bs : List Byte) (st : ReqState) (held : Bool) : State :=
  let s := ((((((((running 40).wr (.tickgen 0) tickgen.CREATED 1).wr (.cohc 0) cohc.CMD_LOG2 6).wr (.cohc 0) cohc.CPL_LOG2 6).wr (.doorbell 0)
    doorbell.CMD_PI 1).wr (.vlport 0) vlport.LSTATE 4).wr (.adm 0) adm.FREE_RINGS 3).wr (.adm 0) adm.FREE_GPAGES 500).wr (.adm 0) adm.LANE_CNT 4
  let s := (List.range 8).foldl (fun s q => s.wr (.adm 0) (adm.SLACK_MIN q) 0x7FFFFFFF) s
  let im : Loaded := { regions := [{}], buckets := List.replicate 6 { compiled := true }, vocab := 1000, width := 64 }
  let l : List Cpl := if held then [{ event := 3 }] else []
  (s.updPart 0 (fun p => { p with apers := [(0, ⟨0, 65536, true, true⟩)], image := some im, cmdIn := [{ bytes := bs, ent := some 9 }], cplHeld := l })).updReq 0
    (fun r => { r with state := st })

/-- The command that waits, and the state once it is taken. -/
def took (bs : List Byte) (st : ReqState) (op : Nat) : CmdIn × State := ((asked bs st false).takeCmd 0 op).getD ({}, State.reset)

/-- The commands that wait are taken, their fields are good, and their HANDLE is 0 of partition 0. -/
def shortGood (op b : Nat) (st : ReqState) : Bool :=
  let (c, u) := took (shortEntry op b) st op
  (asked (shortEntry op b) st false).takeCmd 0 op = some (c, u) && (op = 3 || !shortBad c (if op = 2 then 2 else 0)) && c.handle = 0 &&
    c.field 12 3 = b && (u.req 0).part = 0 && (u.req 0).state = st

theorem wit_RingEntriesAndRequestCommands :
    (let s := asked [] .free false
     let a := s.rd64 (.cohc 0) cohc.CMD_BASE_LO cohc.CMD_BASE_HI / 64 * 64 + 64 * (s.rd (.cohc 0) cohc.CMD_CI % s.cmdN 0)
     s.flag (.tickgen 0) tickgen.CREATED = true ∧ s.rd (.cohc 0) cohc.CMD_CI ≠ s.rd (.doorbell 0) doorbell.CMD_PI ∧ s.cplFull 0 = false ∧
       s.storeHolds 0 = false ∧ (s.part 0).cmdIn.length + b2n (s.part 0).job.isSome < 64 ∧ s.linkLost 0 = false ∧ s.inAperture 0 a 64 false = true ∧
       knownOpc ({ bytes := shortEntry 2 9, addr := a } : CmdIn).opc = true ∧
       s.inAperture 0 (s.rd64 (.cohc 0) cohc.CI_SHADOW_LO cohc.CI_SHADOW_HI / 4 * 4) 4 true = true) ∧
    (((asked [] .free true).part 0).cplHeld = [{ event := 3 }] ∧ ({ event := 3 } : Cpl).waits = false ∧ (asked [] .free true).storeHolds 0 = true ∧
      (let u := (took (shortEntry 3 0) .scree 3).2; u.mainOf 0 = none ∧
        (let s := ((asked (shortEntry 3 0) .scree false).setFlag (.spur 5) spur.PAIR_ACT true).wr (.spur 5) spur.DRAFT_PART 0
         ((s.takeCmd 0 3).map (fun e => (e.2.mainOf 0).isSome)) = some true) ∧ (u.req 0).kvLayout = (u.img 0).kvLayout ∧
        ((u.updReq 0 (fun r => { r with kvLayout := 7 })).req 0).kvLayout ≠ (u.img 0).kvLayout)) ∧
    (shortGood 2 9 .decode = true ∧ shortGood 2 9 .scree = true ∧ shortGood 2 9 .queued = true ∧ shortGood 5 0 .scree = true ∧
      shortGood 5 0 .decode = true ∧ shortGood 4 0 .decode = true ∧ shortGood 4 0 .done = true ∧ shortGood 3 0 .scree = true ∧
      shortGood 3 0 .decode = true) := by
  refine ⟨?_, ?_, ?_⟩ <;> decide +kernel

theorem wit_submit (e d : Nat) (h : (e = 0 ∧ (d = 0 ∨ d = 60)) ∨ (e = 1 ∧ d = 0)) : ∃ c u im, (asked (submitEntry e d) .free false).takeCmd 0 1 = some (c, u) ∧
    (u.part 0).image = some im ∧ paramBad c (some im) false = false ∧ u.mainOf 0 = none ∧ u.refusal 0 c {} (u.asked 0 c {} im none) (some im) = none ∧
    c.ent = some 9 ∧ (u.asked 0 c {} im none).elastic = decide (e = 1) ∧ bucketOf im (u.asked 0 c {} im none).lmax = some 0 ∧
    (e = 1 ∨ (u.decideGuaranteed 0 im (u.asked 0 c {} im none)).isOk = decide (d = 60)) := by
  rcases h with ⟨rfl, rfl | rfl⟩ | ⟨rfl, rfl⟩ <;> exact ⟨_, _, _, rfl, rfl, by decide +kernel⟩

/-! ### KeySlotCommands -/

/-- Partition 0 with site 3 on its edge, one key of slot 4 loaded and in use there, and a fetched command. -/
def keyed (bs : List Byte) (use : Bool) : State :=
  let s := (asked bs .free false).updSsb 0 (fun x => { x with hasBlock := true })
  let s := (s.wr (.xts 3) xts.KEY_VALID 16).wr (.msite 3) msite.PART_ID 0
  let x : Region := { valid := use, kind := 1, keySlot := 4 }
  s.updSite 3 (fun y => { y with regions := [(1, x)] })

/-- A KEY_LOAD, KEY_CLEAR or ATTEST entry: byte 8, and zeros. -/
def keyEntry (op b : Nat) : List Byte := [BitVec.ofNat 8 op] ++ List.replicate 7 0 ++ [BitVec.ofNat 8 b] ++ List.replicate 55 0

/-- The start of a record for slot `k` of partition `p`, for SSB `b`. -/
def record (k b : Nat) (p : Nat := 0) : KeyRecord := keyRecordOf ([0x4B, 0x58, 0x4B, 0x44].map (BitVec.ofNat 8) ++ [BitVec.ofNat 8 p, BitVec.ofNat 8 k, BitVec.ofNat 8 b])

theorem wit_KeySlotCommands :
    (∃ c u, (keyed (keyEntry 0x11 0) true).takeCmd 0 0x11 = some (c, u) ∧ ringOk c 16 = true ∧ u.primary 0 = 0 ∧
      u.inAperture 0 (c.field 8 8) 1680 false = true ∧ u.slotBusy 0 5 = false ∧ u.slotBusy 0 4 = true ∧ (record 5 0).part = 0 ∧
      (record 5 0).magic = 0x444B584B ∧ (record 5 0).slot = 5 ∧ (record 5 0).ssb = 0 ∧ (record 5 1).ssb ≠ 0 ∧ 32 ≤ (record 32 0).slot ∧ (record 5 0 3).part ≠ 0) ∧
    (∃ c u, (keyed (keyEntry 0x12 4) true).takeCmd 0 0x12 = some (c, u) ∧ ringOk c 9 = true ∧ c.field 8 1 = 4 ∧ u.keyInUse 0 4 = true) ∧
    (∃ c u, (keyed (keyEntry 0x12 4) false).takeCmd 0 0x12 = some (c, u) ∧ u.keyInUse 0 4 = false) ∧
    (∃ c u q v, (keyed (keyEntry 0x13 0) true).takeCmd 0 0x13 = some (c, u) ∧ ringOk c 48 = true ∧
      (keyed (keyEntry 0x13 0) true).inAperture 0 (c.field 8 8) 6420 true = true ∧ u.takeLeaf ((keyed (keyEntry 0x13 0) true).primary 0) = (some q, v)) ∧
    3 ∈ (keyed [] true).partSites 0 := by
  refine ⟨⟨_, _, rfl, by decide +kernel⟩, ⟨_, _, rfl, by decide +kernel⟩, ⟨_, _, rfl, by decide +kernel⟩, ⟨_, _, _, _, rfl, ?_, ?_, rfl⟩, ?_⟩ <;> decide +kernel

/-! ### FirmwareSlots -/

/-- An engine with an ACTIVE MANIFEST that lists versions 7 and 9 of each kind, and for MCF and TSQ slot A with version 7 in state
`a`, and B with version `v` in state `b`. -/
def slotted (a b : SlotSt) (v : Nat) : State :=
  let s := State.reset.wr (.ssb 0) ssb.SVN_KIND 3
  let man (k : Nat) : FwSlot := { st := .active, svn := k, payload := [[7, 9, 7, 9, 7, 9, 7, 9]] }
  let x (st : SlotSt) (v : Nat) : FwSlot := { st := st, svn := 3, version := v }
  s.updNor (fun n => { n with slots := [(4, x a 7), (5, x b v), (6, x a 7), (7, x b v), (16, man 1)] })

theorem wit_FirmwareSlots :
    ((let o := signedObjOf [0, 0, 0, 0, 3, 0, 3]; o.type = 3 ∧ o.svn = 3) ∧ (3 : Nat) ∈ [1, 2, 3, 4, 8] ∧ (slotted .active .empty 9).svnOk 3 3 = true ∧
      ({ slotted .active .empty 9 with fuses := { svn := [0, 0, 0, 5, 0] } } : State).svnOk 3 3 = false ∧
      (slotted .active .empty 9).rd (.ssb ((slotted .active .empty 9).norHolder.getD 0)) ssb.BOOT_STATE ≠ 3) ∧
    ((slotted .active .staged 9).slotIn 3 .staged = some 1 ∧ (slotted .active .staged 9).combosOk 3 ((slotted .active .staged 9).fwSlot 3 1).version = true ∧
      (slotted .active .staged 8).combosOk 3 ((slotted .active .staged 8).fwSlot 3 1).version = false ∧ (slotted .active .trial 9).slotIn 3 .trial = some 1) ∧
    ((slotted .active .trial 9).rd (.ssb 0) ssb.SVN_KIND = 3 ∧ (slotted .active .trial 9).slotIn 3 .active = some 0 ∧
      4 < (slotted .active .trial 9).fuses.svn.length) := by
  refine ⟨?_, ?_, ?_⟩ <;> decide +kernel

/-! ### SwapsAndSiteUpdates -/

/-- Partition 0 with an ACTIVE port of the other control tile to its companion, that is `st`, and its tick due. -/
def swapping (st : Nat) : State :=
  let s := (((running 6504).wr (.tickgen 0) tickgen.CREATED 1).wr (.vlport 4) vlport.LSTATE 4).wr (.vlport 4) vlport.PORT_PARTS 1
  (s.wr (.tickgen 0) page.STATE st).updPart 0 (fun p => { p with commitDone := true })

theorem wit_SwapsAndSiteUpdates :
    (let f := fun (s : State) => ((List.range 4).map (· + 4 * (1 - s.primary 0))).find? (fun n => s.portActive n &&
        bit (s.rd (.vlport n) vlport.PORT_PARTS) 0 && s.rd (.vlport n) vlport.PORT_COMP = s.rd (.cohc 0) cohc.COMP)
     f (swapping 0) = some 4 ∧ f (swapping 2) = some 4 ∧ (swapping 2).pstate 0 ≠ 0 ∧ (swapping 0).pstate 0 = 0 ∧
       (swapping 2).flag (.tickgen 0) tickgen.CREATED = true ∧ ((swapping 2).ctl (1 - (swapping 2).primary 0)).up = true ∧
       ((swapping 2).part 0).job = none ∧ (swapping 2).flag (.crag 0 3) crag.UNPROT = false) ∧
    (((swapping 2).part 0).phase = .running ∧ ((swapping 2).part 0).commitDone = true ∧
      tickLen ((swapping 2).periodOf 0) ((swapping 2).part 0).stretch ≤ ((swapping 2).part 0).wall) ∧
    (let s := (slotted .active .empty 9).updNor (fun n => { n with slots := [(8, { st := .active })] })
     s.slotIn 4 .active ≠ none ∧ (s.site 2).pm = [] ∧ (s.wr (.msite 2) page.STATE 2).rd (.msite 2) page.STATE = 2 ∧
       (s.wr (.msite 2) page.STATE 1).rd (.msite 2) page.STATE = 1) := by
  refine ⟨?_, ?_, ?_⟩ <;> decide +kernel

/-! ### TickMachine -/

theorem wit_TickMachine :
    (let s := running 6504
     (s.part 0).phase = .running ∧ tickLen (s.periodOf 0) (s.part 0).stretch ≤ (s.part 0).wall ∧ (s.part 0).haltAt = none ∧ s.cutDue 0 = false ∧
       (s.part 0).swapPend = [] ∧ (s.part 0).commitDone = false) ∧
    (let f := fun (fn : Part → Part) => (running 6504).updPart 0 (fun x => fn { x with commitDone := true })
     (f id).cutDue 0 = false ∧ (f (fun x => { x with job := some { cutReq := true } })).cutDue 0 = true ∧
       ((f (fun x => { x with haltAt := some 3 })).part 0).haltAt ≠ none ∧ ((f (fun x => { x with swapPend := [(3, 0, 0)] })).part 0).swapPend ≠ [] ∧
       ((f id).part 0).commitDone = true) ∧
    ((running 40).finalityDue 0 = false ∧ (let f := fun (b : Bool) => (running 12).updPart 0 (fun x => { x with finalDone := false, toDecide := b })
      (f true).finalityDue 0 = true ∧ ((f true).part 0).toDecide = true ∧ (f false).finalityDue 0 = true ∧ ((f false).part 0).toDecide = false)) ∧
    (((running 6400).part 0).bodyDone = false ∧ (running 6400).periodOf 0 ≤ ((running 6400).part 0).cyc + 108 ∧ (running 6400).deltaInFlight 0 = false ∧
      ((running 6400).updCrag 0 (fun y => { y with deltas := [{}] })).deltaInFlight 0 = true) ∧
    (let f := fun (ph : GenPhase) (d : List (Nat × Nat)) => (running 40).updPart 0 (fun x => { x with phase := ph, deadNow := d })
     ((f (.drain 0) []).part 0).haltAt = none ∧ (f (.fault 0) [(17, 1)]).busIdle 0 = true ∧
       ((f (.fault 0) [(17, 1)]).updCrag (cragOf 17) (fun y => { y with deltas := [{}] })).busIdle 0 = false) := by
  refine ⟨?_, ?_, ?_, ?_, ?_⟩ <;> decide +kernel

/-! ### GeneratorRegisters -/

/-- Partition 0, ON, with a raise of the ceiling to 20 that waits and a request admitted before it in state `st`. -/
def raising (st : ReqState) : State :=
  let s := (running 40).updPart 0 (fun x => { x with ceilPend := [(20, 3)] })
  ((s.wr (.tickgen 0) tickgen.STRETCH_CEIL 20).wr (.tickgen 0) tickgen.STRETCH_CEIL_EFF 10).updReq 7 (fun r => { r with state := st, order := 1, ceil := 10 })

theorem wit_GeneratorRegisters :
    State.reset.pstate 0 = 0 ∧ (running 40).pstate 0 ≠ 0 ∧ ((raising .decode).part 0).ceilPend = [(20, 3)] ∧
    (raising .done).reqsOf 0 (fun r => !r.elastic && r.state.running && r.order < 3 && r.ceil < 20) = [] ∧
    (raising .decode).reqsOf 0 (fun r => !r.elastic && r.state.running && r.order < 3 && r.ceil < 20) ≠ [] ∧
    (raising .done).rd (.tickgen 0) tickgen.STRETCH_CEIL_EFF < 20 ∧ 20 ≤ (raising .done).rd (.tickgen 0) tickgen.STRETCH_CEIL := by
  refine ⟨?_, ?_, ?_, ?_, ?_, ?_, ?_⟩ <;> decide +kernel

/-! ### PartitionLife -/

/-- Partition 0 that exists, in STATE `st`, with TD_BUSY as given and one primed lane. -/
def living (st td : Nat) : State :=
  let s := (((running 40).wr (.tickgen 0) tickgen.CREATED 1).wr (.tickgen 0) page.STATE st).wr (.tickgen 0) tickgen.TD_BUSY td
  (s.wr (.adm 0) adm.LANE_CNT 1).updPart 0 (fun x => { x with lanes := [(0, { primed := true })] })

/-- A module whose partition 0 may be made of tile 5. -/
def makable : State := ((State.reset.wr (.smc 0) smc.BRINGUP 4).wr (.tickgen 0) tickgen.TILES0 32).wr (.tickgen 0) tickgen.FRAMES 4

/-- Partition 0 that may start: rings, an image of tile 0 and a lane. -/
def startable : State :=
  let s := (((asked [] .free false).wr (.tickgen 0) page.STATE 0).wr (.ssb 0) ssb.BOOT_STATE 1).wr (.doorbell 0) doorbell.CMD_PI 0
  s.updPart 0 (fun x => { x with cmdIn := [], image := some { present := [0] } })

theorem wit_PartitionLife :
    ((startable.setFlag (.tickgen 0) page.EN true).setFlag (.tickgen 0) page.PEND false).startCode 0 = 0 ∧
      startable.flag (.tickgen 0) tickgen.TD_BUSY = false ∧ startable.pstate 0 = 0 ∧
    (makable.createCode 0 = 0 ∧ State.reset.createCode 0 ≠ 0) ∧
    ((living 0 0).flag (.tickgen 0) tickgen.TD_BUSY = false ∧ (living 0 1).flag (.tickgen 0) tickgen.TD_BUSY = true ∧
      ([0, 1, 2, 3, 4].map (fun k => (living k 0).pstate 0)) = [0, 1, 2, 3, 4] ∧ (living 0 0).created 0 = true) ∧
    (((living 0 0).setFlag (.tickgen 0) page.EN true).setFlag (.tickgen 0) page.PEND false).startCode 0 ≠ 0 ∧
    (∀ l ∈ (living 1 0).laneIds 0, ((living 1 0).lane 0 l).primed = true) ∧
    (((living 3 0).part 0).phase = .running ∧ ((living 3 0).part 0).finalDone = true ∧ ((living 3 0).part 0).table = [] ∧
      ((living 3 0).part 0).entering = [] ∧ ((living 3 0).part 0).results = []) ∧
    (State.reset.rd (.msite 2) page.STATE = 0 ∧ (State.reset.wr (.msite 2) page.STATE 4).rd (.msite 2) page.STATE = 4 ∧
      (State.reset.wr (.msite 2) page.STATE 2).rd (.msite 2) page.STATE = 2 ∧ (Page.core 3).ownEn = false) := by
  refine ⟨?_, ?_, ?_, ?_, ?_, ?_, ?_, ?_, ?_⟩ <;> decide +kernel

/-! ### LoadsAndRepairs -/

/-- Partition 0 with a job. -/
def jobbed (j : LoadJob) (d : List Nat) : State :=
  ((asked (keyEntry 0x10 0) .free false).updPart 0 (fun x => { x with job := some j })).updCore 9 (fun c => { c with dirty := d })

/-- A repair with one move out of core 9, after `n` rounds. -/
def repairing (n : Nat) : LoadJob := { repair := true, rounds := n, moves := [{ src := 9, dst := 11, off := 0, len := 300 }] }

/-- A repair whose cut is due in a held boundary, with a decision open or not. -/
def cutting (b : Bool) : State :=
  (jobbed { repairing 1 with cutReq := true } []).updPart 0 (fun x => { x with phase := .boundaryHold 0, holdReq := true, toDecide := b })

/-- The same with nothing open, and with job `j` and dirty blocks `d` of core 9, or with core 3 found dead. -/
def cut (j : LoadJob) (d : List Nat) (dead : List (Nat × Nat)) : State :=
  (jobbed { j with cutReq := true } d).updPart 0 (fun x => { x with phase := .boundaryHold 0, holdReq := true, deadNow := dead })

/-- A crag whose former spare's slab is to be cleared. -/
def clearing : State := (State.reset.setFlag (.slab 0) slab.CLEAR_BUSY true).setFlag (cragPage 5) crag.UNPROT true

theorem wit_LoadsAndRepairs :
    (∃ c u code, (asked (keyEntry 0x10 0) .free false).takeCmd 0 0x10 = some (c, u) ∧ ringOk c 16 = true ∧
      u.inAperture 0 (c.field 8 8) 64 false = true ∧ u.loadPlan 0 {} = .refuse code) ∧
    (((running 40).part 0).job = none ∧ ((jobbed { abort := some 0x1D } []).part 0).job = some { abort := some 0x1D } ∧
      ((jobbed { abort := some 0x1D, finished := true } []).part 0).job = some { abort := some 0x1D, finished := true }) ∧
    (((jobbed {} []).pumpLoad 0).part 0 = { (jobbed {} []).part 0 with job := some {} } ∧ ((jobbed {} []).pumpLoad 0).loadDone 0 {} = true ∧
      ((jobbed { tids := [1] } []).pumpLoad 0).loadDone 0 { tids := [1] } = false) ∧
    (((jobbed (repairing 1) [3]).dirtyOf (repairing 1).moves).length ≤ 256 ∧
      256 < ((jobbed (repairing 7) (List.range 290)).dirtyOf (repairing 7).moves).length) ∧
    ((jobbed { repairing 1 with changed := true } []).part 0).job = some { repairing 1 with changed := true } ∧
    ((repairing 1).abort = none ∧ (repairing 1).repair = true ∧ (repairing 1).finished = false ∧ (repairing 1).changed = false ∧ (repairing 1).cutReq = false ∧
      (jobbed (repairing 1) [3]).copied 0 (repairing 1) = true ∧ (jobbed { repairing 1 with tids := [4] } [3]).copied 0 { repairing 1 with tids := [4] } = false) ∧
    (((cut (repairing 1) [] []).part 0).deadNow = [] ∧ (cut (repairing 1) [] []).copied 0 (repairing 1) = true ∧ (cut (repairing 1) [] []).dirtyOf (repairing 1).moves = [] ∧
      (cut (repairing 1) [3] []).dirtyOf (repairing 1).moves ≠ [] ∧ ((cut (repairing 1) [] [(3, 1)]).part 0).deadNow ≠ []) ∧
    (((cutting false).part 0).phase = .boundaryHold 0 ∧ ((cutting false).part 0).holdReq = true ∧ ((cutting true).part 0).toDecide = true) ∧
    (clearing.flag (.slab (5 / 16)) slab.CLEAR_BUSY = true ∧ clearing.rd (cragPage 5) crag.STAND_FOR = 15 ∧
      clearing.flag (cragPage 5) crag.UNPROT = true ∧ clearing.flag (cragPage 5) crag.SPARE_DEAD = false) := by
  refine ⟨⟨_, _, _, rfl, by decide +kernel, by decide +kernel, rfl⟩, ?_, ?_, ?_, ?_, ?_, ?_, ?_, ?_, ?_⟩ <;> decide +kernel

/-! ### LanesScreeAndOutput -/

/-- Partition 0 with an unprimed lane, request 3 in state `st`, and records in its output queue. -/
def serving (st : ReqState) (l : List OutRec) (ms : Nat) : State :=
  let s := ((asked [] .free false).updReq 3 (fun r => { r with state := st, elastic := true, outLen := 72, promptLen := 4, ttlExp := 100 })).updPart 0
    (fun x => { x with cmdIn := [], outQ := l })
  { s with ms := ms }

theorem wit_LanesScreeAndOutput :
    (let s := serving .queued [] 0
     0 ∈ s.laneIds 0 ∧ s.laneFree 0 0 = true ∧ (s.lane 0 0).primed = false ∧ (s.part 0).image ≠ none ∧ s.pstate 0 = 2 ∧ s.storeHolds 0 = false ∧
       s.freeLane 0 = some 0 ∧ (s.req 3).inT2 = false ∧ bucketOf (s.img 0) (s.req 3).lmax = some 0 ∧
       s.fitsElastic 0 (lanePages (s.img 0) (s.req 3).lmax) = true) ∧
    (let s := serving .queued [] 0
     ((sortBy (fun a b => decide (a.2.prio < b.2.prio) || (a.2.prio = b.2.prio && decide (a.2.order < b.2.order)))
        (s.reqsOf 0 (fun r => r.elastic && (r.state = .queued || (r.state = .scree && r.auto && r.kvLayout = (s.img 0).kvLayout))))).find?
          (fun e => s.fitsElastic 0 (lanePages (s.img 0) e.2.lmax))) = some (3, s.req 3)) ∧
    (let o : OutRec := { handle := 3, base := 0, offset := 64, bytes := [1, 2, 3, 4, 5, 6, 7, 8], seq := 1, cnt := 1 }
     ((serving .decode [o] 0).part 0).outQ = [o] ∧ (serving .decode [o] 0).inAperture 0 (o.base + o.offset) o.bytes.length true = true ∧
       ((serving .decode [{ o with fin := some (0, {}) }] 0).part 0).outQ = [{ o with fin := some (0, {}) }]) ∧
    (((serving .paused [] 0).req 3).state = .paused ∧ ((serving .paused [] 0).req 3).toExport = false ∧ (serving .paused [] 0).xfersDone 0 3 = true) ∧
    (((serving .scree [] 100).ms % 2 ^ 32 + 2 ^ 32 - ((serving .scree [] 100).req 3).ttlExp) % 2 ^ 32 < 2 ^ 31 ∧
      2 ^ 31 ≤ ((serving .scree [] 99).ms % 2 ^ 32 + 2 ^ 32 - ((serving .scree [] 99).req 3).ttlExp) % 2 ^ 32 ∧ ((serving .scree [] 100).part 0).cmdIn = [] ∧
      (let c : CmdIn := { bytes := shortEntry 3 3, ms := 99 }
       c.opc = 3 ∧ c.field 12 3 % 2 ^ 17 = 3 ∧ 2 ^ 31 ≤ (c.ms % 2 ^ 32 + 2 ^ 32 - 100) % 2 ^ 32)) := by
  refine ⟨?_, ?_, ?_, ?_, ?_⟩ <;> decide +kernel

/-! ### PairingsAndVariants -/

/-- Partition 0 OFF with partition 3 as its draft, of vocabularies `a` and 1000. -/
def pairing (a : Nat) : State :=
  let s := (State.reset.wr (.spur 0) spur.DRAFT_PART 3).updPart 0 (fun x => { x with image := some { vocab := a } })
  s.updPart 3 (fun x => { x with image := some { vocab := 1000 } })

/-- A DRAFT word for draft lane 2. -/
def draftWord : DraftWord := { lane := 2, epoch := 9, keep := false, kd := 3, v := 4, toks := [7] }
/-- A SPUR word of EPOCH 1 for draft lane 2. -/
def spurWord : SpurWord := { lane := 2, epoch := 1, pos := 5, toks := [(8, 0)] }

/-- Partition 3 as the draft of partition 0, with a DRAFT word for lane 2 and a SPUR word of epoch 1 for the main lane 1, both with their partition's ID or
another. -/
def spurred (h : Option Nat) (e : Nat) (dp : Nat := 3) : State :=
  let s := ((running 40).setFlag (.spur 0) spur.PAIR_ACT true).wr (.spur 0) spur.DRAFT_PART 3
  let s := (s.updPart 3 (fun x => { x with draftWords := [{ part := dp, bytes := draftWord.bytes }], lanes := [(2, { handle := h })] })).wr (.adm 0) adm.LANE_CNT 4
  s.updPart 0 (fun x => { x with spurWords := [{ part := dp - 3, bytes := spurWord.bytes }], lanes := [(1, { handle := some 6, spur := { draftLane := some 2, epoch := e } })] })

/-- A partition whose delta entry 0 may be bound, with `n` lanes admitted with it. -/
def variant (n : Nat) (k : Nat) : State :=
  let im : Loaded := { id := 5, deltaSites := [3], deltaSpan := 1 }
  let v : Vent := { image := 5, key := k, num := 2, lanes := n }
  let s := (State.reset.wr (.msite 3) msite.PART_ID 0).updPart 0 (fun x => { x with image := some im, vents := [(0, v)] })
  s.updSite 3 (fun x => { x with keys := [(4, 1)], deltas := [(0, { valid := true, region := 1 })], regions := [(1, { valid := true, kind := 2, owner := 0, len := 64 })] })

theorem wit_PairingsAndVariants :
    ((pairing 1000).pstate 0 = 0 ∧ (pairing 1000).rd (.spur 0) spur.DRAFT_PART = 3 ∧ (pairing 1000).pstate 3 = 0 ∧
      (((pairing 1000).wr (.spur 0) spur.PAIR_EN 1).setFlag (.spur 0) spur.PAIR_REJECT false).pairedElse 0 0 = false ∧
      (((pairing 1000).wr (.spur 0) spur.PAIR_EN 1).setFlag (.spur 0) spur.PAIR_REJECT false).pairedElse 0 3 = false ∧
      (State.reset.part 0).image = none ∧ (running 40).pstate 0 ≠ 0) ∧
    ((draftWordOf draftWord.bytes = draftWord ∧ spurWordOf spurWord.bytes = spurWord) ∧ ((spurred none 1).part 3).draftWords = [{ part := 3, bytes := draftWord.bytes }] ∧
      ((spurred none 1 9).part 3).draftWords = [{ part := 9, bytes := draftWord.bytes }] ∧ ((spurred none 1).part 0).spurWords = [{ part := 0, bytes := spurWord.bytes }] ∧
      ((spurred none 1 9).part 0).spurWords = [{ part := 6, bytes := spurWord.bytes }] ∧ (spurred none 1).mainOf 3 = some 0 ∧ ((spurred none 1).lane 3 2).handle = none ∧
      ((spurred (some 6) 1).lane 3 2).handle ≠ none) ∧
    (let f := fun (s : State) => let s1 := s.updPart 0 (fun x => { x with spurWords := [] })
       s1.mainLane 0 2
     f (spurred none 1) = some 1 ∧ (spurred none 1).mainLane 0 2 = some 1 ∧ ((spurred none 1).spurOf 0 1).epoch = 1 ∧ ((spurred none 2).spurOf 0 1).epoch = 2) ∧
    ((variant 0 4).ventOk 0 ((variant 0 4).rd (.adm 0) adm.VENT_SEL) = true ∧
      (variant 0 5).ventOk 0 ((variant 0 5).rd (.adm 0) adm.VENT_SEL) = false ∧ ((variant 1 4).vent 0 0).lanes ≠ 0) := by
  refine ⟨?_, ?_, ?_, ?_⟩ <;> decide +kernel

/-! ### CoreAndUnitFaults -/

/-- Core 5 of tile 0 alive in a partition or not, and site 3 and the control tiles as reset leaves them, ready. -/
def healthy (p seen : Nat) : State :=
  let s := ((running 40).wr (.mesh 0) mesh.PART_ID p).wr (.smc 0) smc.BRINGUP 4
  { (s.updCtl 0 (fun x => { x with hbSeen := seen })).updPart 0 (fun x => { x with faultDue := [{ event := 11 }] }) with clock := 7000 }

theorem wit_CoreAndUnitFaults :
    (let s := healthy 0 0
     (s.core 5).alive = true ∧ (s.core 5).gated = false ∧ (s.core 5).faulty = false ∧ s.corePart 5 = some 0 ∧ s.pstate 0 = 2 ∧ cragLocal 5 < 11 ∧
       (s.part 0).phase = .running ∧ (s.part 0).deadNow = [] ∧ (s.part 0).faultDue = [{ event := 11 }] ∧ s.tilePart 0 = some 0) ∧
    ((healthy 15 0).corePart 5 = none ∧ (healthy 15 0).tilePart 0 = none ∧
      (((healthy 15 0).updCore 5 (fun c => { c with alive := false })).core 5).alive = false) ∧
    (12 ≤ State.reset.rd (.msite 3) msite.PART_ID ∧ (State.reset.wr (.msite 3) msite.PART_ID 0).sitePart 3 = some 0) ∧
    (((healthy 0 0).ctl 0).up = true ∧ ((healthy 0 0).ctl (1 - 0)).up = true ∧ ((State.reset.updCtl 1 (fun x => { x with up := false })).ctl 1).up = false ∧
      4 ≤ (healthy 0 0).rd (.smc 0) smc.BRINGUP ∧ ((healthy 0 0).ctl 0).hbSeen + 6000 ≤ (healthy 0 0).clock ∧
      (healthy 0 2000).clock < ((healthy 0 2000).ctl 0).hbSeen + 6000 ∧ (healthy 0 0).sps.fenced = none ∧
      ((healthy 0 0).setSps { (healthy 0 0).sps with fenced := some 0 }).sps.fenced = some 0) := by
  refine ⟨?_, ?_, ?_, ?_⟩ <;> decide +kernel

/-! ### PowerSequence -/

/-- The sequencer in a state, with its latches. -/
def sequenced (x : Sps) : State := State.reset.setSps x

theorem wit_PowerSequence :
    State.reset.sps.state = .off ∧ State.reset.sps.resetLow = false ∧ (sequenced { resetLow := true }).sps.resetLow = true ∧ (sequenced { state := .clkWait }).sps.state = .clkWait ∧
    (let s := sequenced { state := .down, latched := true, recovered := 10000 }
     s.sps.state = .down ∧ s.sps.latched = true ∧ s.sps.shutdown = false ∧ s.sps.resetLow = false ∧ 10000 ≤ s.sps.recovered) ∧
    (let s := sequenced { state := .down, resetLow := true, resetReq := true }
     s.sps.resetLow = true ∧ s.sps.state = .down ∧ s.sps.resetReq = true ∧ s.sps.latched = false ∧ s.sps.shutdown = false) ∧
    (sequenced { state := .failing }).sps.state = .failing ∧
    ((sequenced { state := .good }).sps.state = .good ∧ (sequenced { state := .good }).sps.shutdown = false ∧
      (sequenced { state := .good, shutdown := true }).sps.shutdown = true) := by
  refine ⟨?_, ?_, ?_, ?_, ?_, ?_, ?_, ?_⟩ <;> decide +kernel

/-! ### InputAndPhases -/

/-- A module in service with a selected stack whose phases `off` are out. -/
def supplied (off : Nat) : State :=
  ((sequenced { state := .good }).wr .sps sps.PH_SEL 3).updStack 3 (fun x => { x with offline := off })

theorem wit_InputAndPhases :
    (let s1 := fun (v a : Nat) => (supplied 0).updSps (fun x => { x with samples := (v * a :: x.samples).take 10000, recovered := if 4500 < v then x.recovered + 1 else 0 })
     (s1 4000 10).tripCause 4000 (4000 * 10) ≠ 0 ∧ (s1 4800 10).tripCause 4800 (4800 * 10) = 0 ∧ vinClass 4800 = 0 ∧ (supplied 0).sps.modOver = false ∧
       (s1 4800 10).powerSum 10000 ≤ (supplied 0).rd .sps sps.MOD_CAP * tenWatts * 10000 ∧ (supplied 0).sps.state = .good) ∧
    (State.reset.flag (.therm 3) therm.COMPUTE_ON = false ∧ State.reset.mayClose 3 = false ∧
      (let s := ((supplied 0).wr (.mesh 0) mesh.PART_ID 0).updPart 0 (fun x => { x with tiles := [0], image := some { present := [0], compute := [0] } })
       s.mayClose 0 = true ∧ s.flag (.therm 0) therm.COMPUTE_ON = false)) ∧
    ((3 : Nat) < 90 ∧ 2 < stackPhases 3 ∧ bit ((supplied 0).stack 3).ok 2 = true ∧
      bit (((supplied 0).updStack 3 (fun x => { x with ok := 0 })).stack 3).ok 2 = false) ∧
    ((supplied 0).rd .sps sps.PH_SEL = 3 ∧ (List.range (stackPhases 3)).filter (fun i => bit 4 i && !bit ((supplied 0).stack 3).offline i) = [2] ∧
      (List.range (stackPhases 3)).all (fun i => i = 2 || bit ((supplied 0).stack 3).ok i) = true ∧
      (List.range (stackPhases 3)).filter (fun i => !bit 4 i && bit ((supplied 0).stack 3).offline i && !bit ((supplied 0).stack 3).bad i) = [] ∧
      (List.range (stackPhases 3)).filter (fun i => bit 6 i && !bit ((supplied 0).stack 3).offline i) = [1, 2]) ∧
    bit ((supplied 4).stack 3).offline 2 = true := by
  refine ⟨?_, ?_, ?_, ?_, ?_⟩ <;> decide +kernel

/-! ### HeatCommands -/

/-- A module in service with partition 0, that runs on tile 0, fenced or not, and a capture of the tile. -/
def warmed (f : Bool) (c : Option (Nat × Nat × Nat)) : State :=
  (((running 40).setSps { state := .good }).setFlag (.therm 0) therm.FENCED f).updTile 0 (fun x => { x with capture := c })

theorem wit_HeatCommands :
    (State.reset.sps.state ≠ .good ∧ (warmed false none).sps.state = .good) ∧
    ((warmed false none).tile 0).up = true ∧
    ((warmed false none).flag (.therm 0) therm.FENCED = false ∧ (warmed true none).flag (.therm 0) therm.FENCED = true ∧ (warmed false none).tilePart 0 = some 0 ∧
      (warmed false none).pstate 0 = 2 ∧ ((warmed false none).part 0).phase = .running) ∧
    (((warmed false none).tile 0).capture = none ∧ ((warmed false (some (0, 2999, 5))).tile 0).capture = some (0, 2999, 5) ∧
      ((warmed false (some (0, 3000, 5))).tile 0).capture = some (0, 3000, 5)) := by
  refine ⟨?_, ?_, ?_, ?_⟩ <;> decide +kernel

/-- The hottest diode of tile 0 shows the code `c`. -/
def hotAt (f : Bool) (c : Nat) : State := (warmed f none).wr (.rmbTile 0) (rmb.CODE_A 1) c

theorem wit_HeatCommands_diode : celsius 110 ≤ (hotAt false 2800).dieTemp 0 ∧ (hotAt true 2500).dieTemp 0 < celsius 95 ∧ (hotAt false 2700).dieTemp 0 < celsius 105 ∧
    (hotAt false 2700).flag (.therm 0) therm.FENCED = false ∧ (hotAt true 2500).flag (.therm 0) therm.FENCED = true := by decide +kernel

theorem wit_HeatCommands_created :
    (((warmed false none).wr (.tickgen 0) tickgen.CREATED 1)).created 0 = true := by decide +kernel

/-! ### RailMonitors -/

/-- The RMB of tile 0, on, with sources 5 and 7 enabled and urgent or not, in the state `x`, at clock 200. -/
def monitored (u : Bool) (x : Rmb) : State :=
  let pg := Page.rmbTile 0
  let s := (((((({ running 40 with clock := 200 } : State).setFlag pg page.EN true).setFlag pg (rmb.SRC_EN 7) true).setFlag pg (rmb.SRC_EN 5) true).setFlag pg (rmb.URGENT 7) u).wr pg
    rmb.TIMER0_PER 1).setFlag pg rmb.REF_RDY true
  s.updRmb pg (fun _ => x)

theorem wit_RailMonitors_slot : ((monitored false { done := some {} }).rmbOf (.rmbTile 0)).done = some {} ∧ ({} : RmbSlot).began + 127 ≤ (monitored false { done := some {} }).clock ∧
    (monitored false { done := some {} }).flag (.rmbTile 0) page.EN = true ∧ ({} : RmbSlot).kind ≠ .cal ∧ ({} : RmbSlot).entry < 16 ∧
    ((monitored false { done := some {} }).setFlag (.rmbTile 0) (rmb.VALID 0) true).flag (.rmbTile 0) (rmb.VALID 0) = true ∧
    ((monitored false { done := some { bEn := true } }).rmbOf (.rmbTile 0)).done = some { bEn := true } ∧
    ((monitored false { done := some { kind := .cal } }).rmbOf (.rmbTile 0)).done = some { kind := .cal } ∧ ((monitored false {}).rmbOf (.rmbTile 0)).done = none := by
  decide +kernel

theorem wit_RailMonitors_settle : ((monitored false { settleAt := some 200 }).rmbOf (.rmbTile 0)).settleAt = some 200 ∧
    ((monitored false { settleAt := some 201 }).rmbOf (.rmbTile 0)).settleAt = some 201 ∧ (monitored false {}).clock = 200 ∧
    ((monitored false { settleAt := some 200 }).rmbOf (.rmbTile 0)).refNext = none := by decide +kernel

theorem wit_RailMonitors_start : (monitored false {}).flag (.rmbTile 0) page.EN = true ∧ (monitored false {}).flag (.rmbTile 0) (rmb.SRC_EN 7) = true ∧
    (monitored false {}).flag (.rmbTile 0) (rmb.SRC_EN 5) = true ∧ (monitored false {}).flag (.rmbTile 0) rmb.REF_RDY = true ∧ 0 < (monitored false {}).timerPer (.rmbTile 0) 0 ∧
    Table.get 0 ((monitored false {}).rmbOf (.rmbTile 0)).timers 0 ≤ (monitored false {}).clock ∧ ((monitored false {}).rmbOf (.rmbTile 0)).pend = [] ∧
    ((monitored false {}).rmbOf (.rmbTile 0)).intr = none ∧ ((monitored false {}).rmbOf (.rmbTile 0)).held = none ∧ ((monitored true {}).rmbOf (.rmbTile 0)).refNext = none ∧ (monitored true {}).urgent (.rmbTile 0) 7 = true ∧
    ((monitored true { cur := some {} }).rmbOf (.rmbTile 0)).cur = some {} ∧ ({} : RmbSlot).kind ≠ .urgent ∧
    ((monitored false { pend := [7, 5] }).rmbOf (.rmbTile 0)).pend.contains 7 = true ∧ State.reset.flag (.rmbTile 0) (rmb.SRC_EN 7) = false := by decide +kernel

theorem wit_RailMonitors_cal : (monitored false {}).flag (.rmbTile 0) rmb.CAL_BUSY = false ∧ ((monitored false {}).setFlag (.rmbTile 0) rmb.CAL_BUSY true).flag (.rmbTile 0) rmb.CAL_BUSY = true := by
  decide +kernel

theorem wit_RailMonitors_snap :
    let s := (((monitored true { snapDue := true }).setFlag (.rmbTile 0) (rmb.SRC_EN 4) true).setFlag (.rmbTile 0) (rmb.URGENT 4) true).wr (.rmbTile 0) rmb.SNAP_CYC 90
    Page.rmbTile 0 ∈ s.rmbPages 0 ∧ s.snapNow 0 (.rmbTile 0) = true := by decide +kernel

theorem wit_RailMonitors_epoch : State.reset.flag (.rmbTile 0) page.EN = false ∧ (monitored false {}).flag (.rmbTile 0) page.EN = true ∧
    ((monitored false {}).rmbOf (.rmbTile 0)).powN = 0 ∧ ((monitored false { powN := 3, powSum := 5 }).rmbOf (.rmbTile 0)).powN ≠ 0 ∧
    ((monitored false { powN := 3 }).rmbOf (.rmbTile 0)).sampled 200 = false ∧ ((monitored false { cur := some { bEn := true, pwr := true } }).rmbOf (.rmbTile 0)).sampled 200 = true ∧
    (monitored false {}).epochOver 0 = false ∧ ((monitored false {}).updPart 0 (fun x => { x with cyc := 256 })).epochOver 0 = true ∧
    ((monitored false {}).updPart 0 (fun x => { x with cyc := 256 })).flag (.rmbTile 0) page.EN = true := by decide +kernel

/-! ### PortTraining -/

/-- A module whose port 0 is enabled, in LSTATE `st`, with `a` attempts of a series, at a clock 100 ms after reset. -/
def porting (st a : Nat) : State :=
  (((({ State.reset with clock := 250000000 } : State).updCtl 0 (fun x => { x with up := true })).setFlag (.vlport 0) vlport.PORT_EN true).wr (.vlport 0) vlport.LSTATE st).updPort 0 (fun x => { x with attempts := a })

theorem wit_PortTraining : (porting 0 0).portEnabled 0 = true ∧ (porting 0 0).rd (.vlport 0) vlport.LSTATE < 4 ∧ (porting 6 0).portEnabled 0 = true ∧
    (porting 6 0).rd (.vlport 0) vlport.LSTATE = 6 ∧ ((porting 6 0).port 0).sinceDown + 250000000 ≤ (porting 6 0).clock ∧
    (porting 0 0).compClash 0 7 = false ∧ laneHalf 3 true = 0 ∧ laneHalf 0x101 false ≠ 0 ∧ laneHalf 0x101 true ≠ 0 ∧
    ((porting 0 1).port 0).attempts < 2 ∧ 2 ≤ ((porting 0 2).port 0).attempts ∧ State.reset.portEnabled 0 = false ∧ (porting 4 0).portActive 0 = true ∧ (porting 5 0).portActive 0 = false ∧
    (porting 5 0).rd (.vlport 0) vlport.LSTATE = 5 := by decide +kernel

/-! ### LinkMessages -/

/-- Port 0 ACTIVE, with `w` waiting writes and `r` waiting reads, and `x` replays without an advance, at clock 9000. -/
def linked (w : List Write) (r : List Read) (x : Nat) : State :=
  ({ State.reset with clock := 9000, writes := w, reads := r }.wr (.vlport 0) vlport.LSTATE 4).updPort 0 (fun p => { p with replays := x, replay := [(3, none)] })

theorem wit_LinkMessages_ports : State.reset.portActive 0 = false ∧ (linked [] [] 0).portActive 0 = true ∧ ((linked [] [] 0).port 0).rxSeq = 0 ∧ ((linked [] [] 0).port 0).rxBuf = [] ∧
    (linked [] [] 0).writes = [] ∧ (linked [] [] 0).reads = [] ∧ (∀ m, m < 8 → ((linked [] [] 0).port m).txWait = []) ∧ ((linked [] [] 0).port 0).replays < 15 ∧ 15 ≤ ((linked [] [] 15).port 0).replays ∧
    ((((linked [] [] 0).corrected 0 true).flitAck 0 3 true).port 0).replays < 15 ∧ 15 ≤ ((((linked [] [] 15).corrected 0 false).flitAck 0 9 true).port 0).replays ∧
    ((linked [] [] 0).port 0).replay ≠ [] ∧ ((linked [] [] 0).port 0).ackTime + 5000 ≤ (linked [] [] 0).clock := by decide +kernel

theorem wit_LinkMessages_whole : ((0x10 :: List.replicate 15 0 : List Byte)).length = 16 ∧ ((0x11 :: List.replicate 15 0 : List Byte)).head? = some 0x11 ∧
    ((0x12 :: List.replicate 15 0 : List Byte)).head? = some 0x12 ∧ ((0x18 :: List.replicate 15 0 : List Byte)).head? = some 0x18 ∧ ((0x1A :: List.replicate 15 0 : List Byte)).head? = some 0x1A := by
  decide

theorem wit_LinkMessages_mmio : ((linked [] [] 0).emit (.credit 0 0 1)).mmioAllowed 0 0 = false ∧
    (((linked [] [] 0).setFlag (.vlport 0) vlport.MGMT true).emit (.credit 0 0 1)).mmioAllowed 0 0 = true ∧ ((linked [] [] 0).setFlag (.vlport 0) vlport.MGMT true).portActive 0 = true := by decide +kernel

theorem wit_LinkMessages_answers : splitFirst (fun (w : Write) => decide (w.port = some 0 ∧ w.tag = 5)) (linked [] [] 0).writes = none ∧
    splitFirst (fun (w : Write) => decide (w.port = some 0 ∧ w.tag = 5)) (linked [{ port := some 0, tag := 5 }] [] 0).writes = some ([], { port := some 0, tag := 5 }, []) ∧
    splitFirst (fun (r : Read) => decide (r.port = some 0 ∧ r.tag = 5)) (linked [] [] 0).reads = none ∧
    splitFirst (fun (r : Read) => decide (r.port = some 0 ∧ r.tag = 5)) (linked [] [{ port := some 0, tag := 5, stale := true }] 0).reads = some ([], { port := some 0, tag := 5, stale := true }, []) ∧
    splitFirst (fun (r : Read) => decide (r.port = some 0 ∧ r.tag = 5)) (linked [] [{ port := some 0, tag := 5, cached := true }] 0).reads = some ([], { port := some 0, tag := 5, cached := true }, []) ∧
    ({ port := some 0, tag := 5, cached := true } : Read).stale = false ∧ ({ port := some 0, tag := 5, what := 2 } : Read).what ≠ 1 := by decide +kernel

/-! ### BringupAndJournal -/

/-- A module whose NOR is held by control tile 0, with the journal `n`. -/
def journaled (n : Nor) : State := ({ State.reset with nor := n }.updCtl 0 (fun x => { x with up := true })).setFlag (.smc 0) smc.NOR_GRANT true

theorem wit_BringupAndJournal_boot : State.reset.flag .sps sps.POWER_GOOD = false ∧
    (let s := (State.reset.setFlag .sps sps.POWER_GOOD true).updCtl 0 (fun x => { x with up := true })
     s.flag .sps sps.POWER_GOOD = true ∧ s.rd (.ssb 0) ssb.BOOT_STATE = 0 ∧ s.rd (.ssb 1) ssb.BOOT_STATE = 0 ∧ s.ctlsUp ≠ []) := by decide +kernel

theorem wit_BringupAndJournal_records : State.reset.norHolder = none ∧ (journaled { writing := some {} }).norHolder ≠ none ∧ (journaled { writing := some {} }).nor.writing = some {} ∧
    (journaled { writing := some {} }).nor.erased ≠ 0 ∧ (journaled { writing := some {} }).nor.abandon.length < 64 ∧ 64 ≤ (journaled { writing := some {}, abandon := List.replicate 64 (0, 0) }).nor.abandon.length ∧
    (journaled { writing := some {}, abandon := List.replicate 64 (0, 0) }).nor.erased ≠ 0 ∧
    (journaled { writing := some {}, log := [{ sector := 1 }], off := 4096 }).nor.erased = 0 ∧ 4096 < (journaled { writing := some {}, log := [{ sector := 1 }], off := 4096 }).nor.off + ({} : JRec).body.units := by
  decide +kernel

theorem wit_BringupAndJournal_compaction : State.reset.nor.compact = none ∧ (journaled { compact := some ([], 3) }).nor.compact = some ([], 3) := by decide +kernel

/-! ### TallyFrames -/

/-- A module of suffix T in service with its Tally `x`, the NOR held by control tile 0, and the link up, at clock 750,000,000. -/
def metered (x : Tally) : State :=
  (((({ State.reset with fuses := { State.reset.fuses with suffixT := true }, tally := x, clock := 750000000 } : State).setSps { state := .good }).updCtl 0 (fun x => { x with up := true })).setFlag (.smc 0)
    smc.NOR_GRANT true).setFlag .tallyIf tallyIf.LINK_UP true

theorem wit_TallyFrames : State.reset.tallyLink = false ∧ (metered {}).tallyLink = true ∧ (metered {}).tally.spent = false ∧ (metered {}).tally.treeLeft = 0 ∧ (metered { treeLeft := 1 }).tally.treeLeft ≠ 0 ∧
    (metered { trees := 32768 }).tally.spent = true ∧ (metered {}).flag .tallyIf tallyIf.LINK_UP = true ∧ (metered {}).tally.sinceReading + 750000000 ≤ (metered {}).clock ∧
    State.reset.flag .tallyIf tallyIf.LINK_UP = false ∧ (metered {}).hasTally = true ∧ (metered {}).mcfGen = some (metered {}).tally.gen ∧ (metered { gen := 7 }).mcfGen ≠ some (metered { gen := 7 }).tally.gen ∧ ({ payload := List.replicate 88 0 ++ [1] } : TallyFrame).payload.getD 88 0 = 1 ∧
    (metered { fitted := false }).hasTally = false := by decide +kernel

/-! ### TallyServices -/

theorem wit_TallyServices : State.reset.tallyLink = false ∧ (metered {}).tallyLink = true ∧ (metered {}).hasTally = true ∧ (metered { fitted := false }).hasTally = false ∧
    (metered {}).tally.sealOpen = false ∧ (metered { sealOpen := true }).tally.sealOpen = true ∧ State.reset.sps.state ≠ .good ∧ (metered {}).sps.state = .good := by decide +kernel

/-! ### RegisterCommands -/

theorem wit_RegisterCommands : (running 40).tileBusy 0 = true ∧ State.reset.tileBusy 0 = false ∧ tileOf 0 = 0 ∧ Page.common .sps = true ∧ Page.common (.core 0) = false ∧
    State.reset.flag .sps page.INJ_LOCK = false ∧ (State.reset.setFlag .sps page.INJ_LOCK true).flag .sps page.INJ_LOCK = true ∧ 2 < Page.sps.errBits ∧ bit 4 2 = true ∧
    Page.modul.id ≠ Page.sps.id ∧ State.reset.setNow .sps page.FIRST_VALID 0 = false ∧
    (({ State.reset with clock := 9 } : State).setFlag .sps page.INJ_LOCK false |>.err .sps 2).setNow .sps page.FIRST_VALID 0 = true := by decide +kernel

/-! ### RegisterAccess -/

theorem wit_RegisterAccess : 5 % 4 ≠ 0 ∧ pageOf 1 = none ∧ pageOf 0x3E00 = some (.doorbell 0, none) ∧ Page.doorbell 0 ≠ .sps ∧ State.reset.present (.doorbell 0) = false ∧
    (let s := State.reset.setFlag .sps sps.POWER_GOOD true
     s.present (.tileGlb 0) = true ∧ s.present (.doorbell 0) = true) ∧ State.reset.norHolder = none ∧ (journaled {}).norHolder ≠ none := by decide +kernel

/-! ### CommandsChangeOnlyTheirFields -/

theorem wit_CommandsChangeOnlyTheirFields : (∃ t, exec .compaction State.reset = .next t) ∧ StateField.cores ∉ mayChange .compaction ∧ ∀ i, i ∈ [Instr.compaction, .sealOpen, .sealClosed] → StateField.clock ∉ mayChange i :=
  ⟨⟨_, rfl⟩, by decide, by decide⟩

/-! ### ErrorInjection -/

theorem wit_ErrorInjection : Page.common .sps = true ∧ State.reset.flag .sps page.INJ_LOCK = false ∧ (State.reset.setFlag .sps page.INJ_LOCK true).flag .sps page.INJ_LOCK = true ∧
    (List.range (Page.sps.errBits)).filter (fun b => bit 6 b && !bit (State.reset.rd .sps page.ERR_MASK) b) = [1, 2] ∧ State.reset.flag .sps page.FIRST_VALID = false ∧
    (State.reset.setFlag .sps page.FIRST_VALID true).flag .sps page.FIRST_VALID = true ∧ Page.modul.id ≠ Page.sps.id := by decide +kernel

/-! ### GeometryOfCrags -/

theorem wit_GeometryOfCrags : cragOf (coreAt 0 15 14) = 15 ∧ parityCore 15 = coreAt 0 15 15 ∧ (running 40).flag .sps sps.POWER_GOOD = true ∧ (running 40).functional 0 = true ∧
    (running 40).mapped 1 0 = 0 ∧ ((running 40).core 0).faulty = false ∧ (running 40).rd (cragPage (cragOf 0)) crag.STAND_FOR = 15 ∧ (running 40).spareDue 0 = false ∧ (running 40).keptRole 0 = none ∧ cragOf 0 = 0 ∧ (0 : Nat) = coreAt 0 0 0 := by decide +kernel

/-! ### MeshAndSiteCommandsComplete -/

theorem wit_MeshAndSiteCommandsComplete :
    (∀ op ∈ [0, 1, 2, 3, 4, 5, 7], let s := routed { op := op, stamp := 5 }
      let x : EjFlit := ⟨{ op := op, stamp := 5 }, 0, 1, 9, 0⟩
      (s.core 0).ej = [x] ∧ s.ejectFree 0 = true ∧ x.since ≤ s.clock ∧ s.slabDead 0 = false ∧
        handling ((s.core 0).win (rtWid (s.entryOf x))) x.flit.stamp (s.tickOf 0) (s.cycOf 0) = .apply ∧ (s.core 0).merges = [] ∧
        (s.core 0).appliedN x.key % 9 = 0 ∧ x.flit.nth = 0 ∧ ((s.core 0).openAppend x).act = .skip ∧
        rtOff0 (s.entryOf x) + rtStride (s.entryOf x) * (s.core 0).appliedN x.key < ((s.core 0).win (rtWid (s.entryOf x))).len) ∧
    (let s := routed { op := 6, stamp := 5 }
     let x : EjFlit := ⟨{ op := 6, stamp := 5 }, 0, 1, 9, 0⟩
     (s.core 0).ej = [x] ∧ classify x.flit.stamp (s.tickOf 0) (s.cycOf 0) = .onTime ∧ (s.core 0).sem (rtSid (s.entryOf x)) < 65535) ∧
    (let s := (routed {}).updCore 0 (fun c => { c with ej := [], rel := [⟨{ stamp := 5 }, 0, 1, 9, 0⟩] })
     let x : EjFlit := ⟨{ stamp := 5 }, 0, 1, 9, 0⟩
     (s.core 0).rel = [x] ∧ s.ejectFree 0 = true ∧ x.since ≤ s.clock ∧ (s.core 0).ej = [] ∧ ((s.core 0).win (rtWid (s.entryOf x))).state = .opened ∧
      ((s.core 0).win (rtWid (s.entryOf x))).stamp = 5 ∧ s.slabDead 0 = false ∧
      rtOff0 (s.entryOf x) + rtStride (s.entryOf x) * (s.core 0).appliedN x.key < ((s.core 0).win (rtWid (s.entryOf x))).len) ∧
    (let w := word 0x30 0 0x100 0 2 5
     (withWord w).Takes 0 0x30 .send (entry w) ∧ sendCheck w = none) := by
  refine ⟨?_, ?_, ?_, takes_of ?_, ?_⟩ <;> decide +kernel

theorem wit_MeshAndSiteCommandsComplete_bulk :
    (let s := bulky 5
     let f := bulkFlit 0 5 3 5 64 0 true []
     (s.router 5).bulk = [f] ∧ s.corePart 5 = some 0 ∧ s.steps 0 = true ∧ (s.router 5).disp = [] ∧ s.draining f.part = false ∧ s.bulkPort 5 f = some portL ∧
      s.freePort 5 portL = true ∧ (s.core (s.ejectCore 5)).slabAt ≠ some s.clock ∧ f.bulkOff + 24 ≤ 0x800000 ∧ s.slabDead (s.ejectCore 5) = false) ∧
    (let s := (running 40).setLinks [⟨32768, 0, 0, { op := 9, route := 3 }⟩]
     (s.takeSite 0 9).isSome = true ∧ (s.site 0).up = true ∧ s.flag (.msite 0) msite.HOT = false ∧ (s.site 0).draining = false ∧ (s.site 0).zeroing = []) ∧
    (let s := opened [⟨3, 0, 0, 2, 2, 0, 0⟩]
     (s.takeSite 0 10).map (fun e => (e.2.1.tid, e.2.2.exportStatus 0 0 0 2)) = some (3, 0) ∧ (s.site 0).transfers = [⟨3, 0, 0, 2, 2, 0, 0⟩] ∧ (s.site 0).up = true) := by
  refine ⟨?_, ?_, ?_⟩ <;> decide +kernel

/-! ### WideAndPageMoverCommandsComplete -/

theorem wit_WideAndPageMoverCommandsComplete :
    (∀ op ∈ [0x21, 0x23, 0x24, 0x25, 0x26, 0x27], takesB (withWord (word op 0 0x100 0x200 4 0x30000)) 0 op .wide (entry (word op 0 0x100 0x200 4 0x30000)) = true ∧
      cLen (word op 0 0x100 0x200 4 0x30000) ≠ 0 ∧ rangeOk [.localStore] (cA (word op 0 0x100 0x200 4 0x30000)) (vecBytes false 4) = true) ∧
    ((moving.site 0).pm = [] ∧ (moving.site 0).draining = false ∧ moving.sitePart 0 = some 0 ∧ moving.pmFree 0 = true ∧ (moving.part 0).xfers = []) ∧
    (∀ c ∈ [({ op := 1, region := 4, length := 2 } : PmCmd), { op := 2, region := 4, length := 2 }, { op := 3, region := 4, length := 2 },
      { op := 4, region := 3, length := 2 }, { op := 5, region := 3, dstRegion := 3, length := 2 }, { op := 6, region := 3, length := 2 }], moving.pmStatus 0 c = 0 ∧
      (moving.sourceLines 0 (moving.region 0 c.region) c.length (fun i => 32 * c.offset + 32 * i) .none).2 = []) ∧
    (let s := (moving.setFlag (.msite 0) msite.HOT true).updSite 0 (fun x => { x with pm := [{ ran := true }] })
     (s.site 0).pm = [{ ran := true }] ∧ (s.site 0).draining = false ∧ s.pmFree 0 = false ∧ (s.part ((s.sitePart 0).getD 0)).job = none) := by
  refine ⟨?_, ?_, ?_, ?_⟩ <;> decide +kernel

/-! ### UnitCommandsComplete -/

theorem wit_UnitCommandsComplete :
    ((metered {}).tallyLink = true ∧ ({} : TallyFrame).crcOk = true ∧ (metered {}).tally.spent = false ∧ (metered {}).tally.queued = none ∧ (metered {}).hasTally = true ∧
      (metered {}).tally.sealOpen = false ∧ (metered { sealOpen := true }).tally.sealOpen = true ∧ (metered {}).flag .tallyIf tallyIf.LINK_UP = true ∧
      (metered {}).tally.sinceReading + 750000000 ≤ (metered {}).clock ∧ (metered {}).sps.state = .good) ∧
    ((linked [] [] 0).portActive 0 = true ∧ ((linked [] [] 0).port 0).replays < 15 ∧ ((linked [] [] 0).port 0).replay ≠ [] ∧
      ((linked [] [] 0).port 0).ackTime + 5000 ≤ (linked [] [] 0).clock) ∧
    ((sequenced { state := .failing }).sps.state = .failing ∧ (sequenced { state := .good }).sps.shutdown = false ∧ (sequenced { state := .good, shutdown := true }).sps.shutdown = true) ∧
    (0 < (monitored false {}).timerPer (.rmbTile 0) 0 ∧ Table.get 0 ((monitored false {}).rmbOf (.rmbTile 0)).timers 0 ≤ (monitored false {}).clock ∧
      (monitored false {}).flag (.rmbTile 0) page.EN = true ∧ (monitored false {}).flag (.rmbTile 0) (rmb.SRC_EN (5 + 0)) = true ∧ ((monitored false {}).rmbOf (.rmbTile 0)).pend = [] ∧
      ((monitored false {}).rmbOf (.rmbTile 0)).cur = none ∧ ((monitored false {}).rmbOf (.rmbTile 0)).intr = none ∧ ((monitored false {}).rmbOf (.rmbTile 0)).held = none ∧ (monitored false {}).flag (.rmbTile 0) rmb.REF_RDY = true) ∧
    ((journaled { compact := some ([], 3) }).nor.compact = some ([], 3) ∧ (journaled {}).norHolder ≠ none) := by
  refine ⟨?_, ?_, ?_, ?_, ?_⟩ <;> decide +kernel

end Sys2Proof.Tests
end

section
/-! SUPPORT. The frame of a command, by the fields that `mayChange` lists: `exec_frame`, from the frames of Laws/Exec.lean, and what a step keeps. -/

namespace Sys2Proof.Machine

/-! ### Frames by lists of fields -/

/-- Every field of the state, in the order of a mask's bits. -/
def StateField.all : List StateField :=
  [.regs, .clock, .cores, .routers, .links, .tiles, .crags, .saddles, .sites, .parts, .reqs, .rmbs, .sps, .ports, .writes, .reads,
    .ctls, .ssbs, .nor, .fuses, .tally, .faultMap, .faultGen, .faultLog, .faultSeq, .order, .ms, .sent, .fresh]

theorem StateField.mem_all (k : StateField) : k ∈ StateField.all := by
  cases k <;> decide

/-- Every field of mask `m` stands in the list `l`. -/
def maskWithin (m : Nat) (l : List StateField) : Bool := StateField.all.all (fun k => !m.testBit k.ctorIdx || l.contains k)

theorem testBit_of_maskWithin {m : Nat} {l : List StateField} (h : maskWithin m l = true) {k : StateField} (hk : k ∉ l) :
    m.testBit k.ctorIdx = false := by
  have hb := List.all_eq_true.1 h k k.mem_all
  simpa [hk] using hb

/-- A frame keeps each field whose bit is not in its mask. -/
theorem Frame.kept {m : Nat} {s t : State} (h : Frame m s t) : (k : StateField) → m.testBit k.ctorIdx = false → s.kept t k
  | .regs => h.regs
  | .clock => h.clock
  | .cores => h.cores
  | .routers => h.routers
  | .links => h.links
  | .tiles => h.tiles
  | .crags => h.crags
  | .saddles => h.saddles
  | .sites => h.sites
  | .parts => h.parts
  | .reqs => h.reqs
  | .rmbs => h.rmbs
  | .sps => h.sps
  | .ports => h.ports
  | .writes => h.writes
  | .reads => h.reads
  | .ctls => h.ctls
  | .ssbs => h.ssbs
  | .nor => h.nor
  | .fuses => h.fuses
  | .tally => h.tally
  | .faultMap => h.faultMap
  | .faultGen => h.faultGen
  | .faultLog => h.faultLog
  | .faultSeq => h.faultSeq
  | .order => h.order
  | .ms => h.ms
  | .sent => h.sent
  | .fresh => h.fresh

/-- `t` is `s` but for fields of the list `l`, under the rules of `Frame`. -/
def FrameOf (l : List StateField) (s t : State) : Prop := ∃ m, maskWithin m l = true ∧ Frame m s t

theorem Frame.within {m : Nat} {l : List StateField} {s t : State} (h : Frame m s t) (hm : maskWithin m l = true) : FrameOf l s t :=
  ⟨m, hm, h⟩

theorem FrameOf.pending {l : List StateField} {s t : State} : FrameOf l s t → t.pending = s.pending
  | ⟨_, _, h⟩ => h.pending

theorem FrameOf.burnt {l : List StateField} {s t : State} : FrameOf l s t → Fuses.Burnt s.fuses t.fuses
  | ⟨_, _, h⟩ => h.burnt

theorem FrameOf.canon {l : List StateField} {s t : State} : FrameOf l s t → s.Canon → t.Canon
  | ⟨_, _, h⟩ => h.canon

theorem FrameOf.kept {l : List StateField} {s t : State} {k : StateField} (hk : k ∉ l) : FrameOf l s t → s.kept t k
  | ⟨_, hm, h⟩ => h.kept k (testBit_of_maskWithin hm hk)

/-! ### Commands whose frame in Laws/ names a field that they keep -/

/-- The fields of `StateField.faulted` and the registers. -/
def fp.faulted : Nat :=
  fp.regs + fp.cores + fp.routers + fp.links + fp.tiles + fp.crags + fp.sites + fp.parts + fp.reqs + fp.ports + fp.writes + fp.reads + fp.nor +
    fp.faultMap + fp.faultGen + fp.faultLog + fp.faultSeq + fp.sent + fp.fresh

theorem Frame.iteFst {α : Type} {k : Nat} {a : State} {x y : State × α} {c : Prop} [Decidable c] (hx : Frame k a x.1) (hy : Frame k a y.1) :
    Frame k a (if c then x else y).1 := by
  split <;> assumption

/-- The verdict on a tick leaves the Tally: what it seals is the partition's windows (R32). -/
theorem State.verdict_faultedFrame (s : State) (p t : Nat) : Frame fp.faulted s (s.verdict p t).1 := by
  unfold State.verdict
  have learnt : ∀ x, Frame fp.faulted s x → Frame fp.faulted s (x.siteVerdict p).1 := fun x h => .step (State.siteVerdict_frame ..) rfl h
  have noted : ∀ x, Frame fp.faulted s x → Frame fp.faulted s (if (x.part p).routerErrs = [] then x else x.failWith p 4) :=
    fun x h => .ite h (.step (State.failWith_frame ..) rfl h)
  have late : ∀ (l : List (Nat × Nat)), Frame fp.faulted s (l.foldl (fun s e => s.lateReport p t e.1) ((s.sealOpen p t).missingDead p)) :=
    fun l => .foldl _ _ (.step (State.missingDead_frame ..) rfl (.step (State.sealOpen_frame ..) rfl (.refl ..)))
      (fun _ _ => .step (State.lateReport_frame ..) rfl (.refl ..))
  have decided := fun l => learnt _ (noted _ (late l))
  exact .iteFst
    (.step (State.idleWindows_frame ..) rfl (.step (State.releaseResults_frame ..) rfl
      (.foldl _ _ (.step (State.updPart_frame ..) rfl (decided _)) (fun _ _ => .step (State.commitPtrs_frame ..) rfl (.refl ..)))))
    (.step (State.tickFails_frame ..) rfl (.step (State.updPart_frame ..) rfl (decided _)))

/-- TICK_FINALITY leaves the Tally. -/
theorem tickFinality_faultedFrame (s : State) (p : Nat) : Frame fp.faulted s (tickFinality s p) := by
  unfold tickFinality
  have gathered : ∀ c : Bool, Frame fp.faulted s (if c then s.gatherLate p else s) := fun _ =>
    .ite (.step (State.gatherLate_frame ..) rfl (.refl ..)) (.refl ..)
  have judged : ∀ x (c : Bool) t, Frame fp.faulted s x → Frame fp.faulted s (if c then x.verdict p t else (x, true)).1 := fun _ _ _ h =>
    .iteFst (.step (State.verdict_faultedFrame ..) rfl h) h
  dsimp only
  refine .ite (.refl ..) (.ite ?_ ?_)
  · split
    · refine .step (State.halt_frame ..) rfl (.step (State.updPart_frame ..) rfl ?_)
      exact .step (State.updPart_frame ..) rfl (judged _ _ _ (gathered _))
    · refine .step (State.startHold_frame ..) rfl (.step (State.updPart_frame ..) rfl ?_)
      exact .step (State.updPart_frame ..) rfl (judged _ _ _ (gathered _))
  · refine .step (State.startHold_frame ..) rfl (.ite (.step (State.startTable_frame ..) rfl ?_) ?_) <;>
      exact .step (State.updPart_frame ..) rfl (judged _ _ _ (gathered _))

theorem reqLog_sentFrame (s : State) : Frame (fp.tally + fp.sent) s (reqLog s) := by
  unfold reqLog
  dsimp only
  have answered : ∀ k l i, Frame (fp.tally + fp.sent) s ((s.toTally 0x82 i).fromTally k l) := fun k l i =>
    .step (State.fromTally_frame ..) rfl (.step (State.toTally_frame ..) rfl (.refl ..))
  refine .ite (.refl ..) ?_
  split
  · exact .ite (answered ..) (answered ..)
  · exact answered ..

theorem sealOpen_tallyFrame (s : State) : Frame fp.tally s (sealOpen s) :=
  .ite (.refl ..) (.step (State.tallyLog_frame ..) rfl (.step (State.updTally_frame ..) rfl (.refl ..)))

theorem sealClosed_tallyFrame (s : State) : Frame fp.tally s (sealClosed s) :=
  .ite (.refl ..) (.step (State.tallyLog_frame ..) rfl (.step (State.updTally_frame ..) rfl (.refl ..)))

theorem fwChange_tallyFrame (s : State) (bytes : List Byte) : Frame fp.tally s (fwChange s bytes) :=
  .ite (.refl ..) (.ite (.step (State.tallyLog_frame ..) rfl (.refl ..))
    (.step (State.updTally_frame ..) rfl (.step (State.tallyLog_frame ..) rfl (.refl ..))))

/-! ### Every command, and the step -/

/-- A command that answers a next state changes fields that `mayChange` lists for it. -/
theorem exec_frame : (i : Instr) → {s t : State} → exec i s = .next t → FrameOf (mayChange i) s t
  | .tickBoundary .., _, _, h => (exec_tickBoundary_frame h).within rfl
  | .tickFinality .., _, _, rfl => (tickFinality_faultedFrame _ _).within rfl
  | .replayBoundary .., _, _, h => (exec_replayBoundary_frame h).within rfl
  | .commitPhase .., _, _, h => (exec_commitPhase_frame h).within rfl
  | .bodyEnd .., _, _, h => (exec_bodyEnd_frame h).within rfl
  | .period .., _, _, h => (exec_period_frame h).within rfl
  | .stretchCeil .., _, _, h => (exec_stretchCeil_frame h).within rfl
  | .stretchCeilRaiseApply .., _, _, h => (exec_stretchCeilRaiseApply_frame h).within rfl
  | .tickLo .., _, _, h => (exec_tickLo_frame h).within rfl
  | .retireWithoutEffect .., _, _, h => (exec_retireWithoutEffect_frame h).within rfl
  | .commandRetire .., _, _, h => (exec_commandRetire_frame h).within rfl
  | .slabReadPortStart .., _, _, h => (exec_slabReadPortStart_frame h).within rfl
  | .apassTree .., _, _, h => (exec_apassTree_frame h).within rfl
  | .apassSkew .., _, _, h => (exec_apassSkew_frame h).within rfl
  | .accDrain .., _, _, h => (exec_accDrain_frame h).within rfl
  | .accBase .., _, _, h => (exec_accBase_frame h).within rfl
  | .edgeCfg .., _, _, h => (exec_edgeCfg_frame h).within rfl
  | .attQload .., _, _, h => (exec_attQload_frame h).within rfl
  | .attStream .., _, _, h => (exec_attStream_frame h).within rfl
  | .attFinish .., _, _, h => (exec_attFinish_frame h).within rfl
  | .wuAdd .., _, _, h => (exec_wuAdd_frame h).within rfl
  | .wuMul .., _, _, h => (exec_wuMul_frame h).within rfl
  | .wuFma .., _, _, h => (exec_wuFma_frame h).within rfl
  | .wuMax .., _, _, h => (exec_wuMax_frame h).within rfl
  | .wuExp .., _, _, h => (exec_wuExp_frame h).within rfl
  | .wuRsqrt .., _, _, h => (exec_wuRsqrt_frame h).within rfl
  | .wuRecip .., _, _, h => (exec_wuRecip_frame h).within rfl
  | .wuSilu .., _, _, h => (exec_wuSilu_frame h).within rfl
  | .wuRope .., _, _, h => (exec_wuRope_frame h).within rfl
  | .wuReduce .., _, _, h => (exec_wuReduce_frame h).within rfl
  | .wuCvt .., _, _, h => (exec_wuCvt_frame h).within rfl
  | .wuSpdelta .., _, _, h => (exec_wuSpdelta_frame h).within rfl
  | .wuCopy .., _, _, h => (exec_wuCopy_frame h).within rfl
  | .send .., _, _, h => (exec_send_frame h).within rfl
  | .sendMc .., _, _, h => (exec_sendMc_frame h).within rfl
  | .sendRed .., _, _, h => (exec_sendRed_frame h).within rfl
  | .sendSpine .., _, _, h => (exec_sendSpine_frame h).within rfl
  | .winOpen .., _, _, h => (exec_winOpen_frame h).within rfl
  | .winClose .., _, _, h => (exec_winClose_frame h).within rfl
  | .winWait .., _, _, h => (exec_winWait_frame h).within rfl
  | .semSignal .., _, _, h => (exec_semSignal_frame h).within rfl
  | .semWait .., _, _, h => (exec_semWait_frame h).within rfl
  | .kvSetup .., _, _, h => (exec_kvSetup_frame h).within rfl
  | .kvMapload .., _, _, h => (exec_kvMapload_frame h).within rfl
  | .kvSpec .., _, _, h => (exec_kvSpec_frame h).within rfl
  | .commit .., _, _, h => (exec_commit_frame h).within rfl
  | .commitKv .., _, _, h => (exec_commitKv_frame h).within rfl
  | .fence .., _, _, h => (exec_fence_frame h).within rfl
  | .nop .., _, _, h => (exec_nop_frame h).within rfl
  | .mark .., _, _, h => (exec_mark_frame h).within rfl
  | .halt .., _, _, h => (exec_halt_frame h).within rfl
  | .slotInjection .., _, _, h => (exec_slotInjection_frame h).within rfl
  | .xorDeltaApply .., _, _, h => (exec_xorDeltaApply_frame h).within rfl
  | .flitArrival .., _, _, h => (exec_flitArrival_frame h).within rfl
  | .displacedForward .., _, _, h => (exec_displacedForward_frame h).within rfl
  | .displacedTimeout .., _, _, h => (exec_displacedTimeout_frame h).within rfl
  | .reductionResult .., _, _, h => (exec_reductionResult_frame h).within rfl
  | .reductionIncomplete .., _, _, h => (exec_reductionIncomplete_frame h).within rfl
  | .write .., _, _, h => (exec_write_frame h).within rfl
  | .addInt32 .., _, _, h => (exec_addInt32_frame h).within rfl
  | .xor .., _, _, h => (exec_xor_frame h).within rfl
  | .addFp32 .., _, _, h => (exec_addFp32_frame h).within rfl
  | .maxFp32 .., _, _, h => (exec_maxFp32_frame h).within rfl
  | .lseMerge .., _, _, h => (exec_lseMerge_frame h).within rfl
  | .signal .., _, _, h => (exec_signal_frame h).within rfl
  | .append .., _, _, h => (exec_append_frame h).within rfl
  | .bulk .., _, _, h => (exec_bulk_frame h).within rfl
  | .memReq .., _, _, h => (exec_memReq_frame h).within rfl
  | .memData .., _, _, h => (exec_memData_frame h).within rfl
  | .earlyFlitRelease .., _, _, h => (exec_earlyFlitRelease_frame h).within rfl
  | .bulkRetry .., _, _, h => (exec_bulkRetry_frame h).within rfl
  | .saddleChannelFail .., _, _, h => (exec_saddleChannelFail_frame h).within rfl
  | .saddleSpareSwap .., _, _, h => (exec_saddleSpareSwap_frame h).within rfl
  | .scheduleReadStart .., _, _, h => (exec_scheduleReadStart_frame h).within rfl
  | .scheduleRelease .., _, _, h => (exec_scheduleRelease_frame h).within rfl
  | .memChannelFail .., _, _, h => (exec_memChannelFail_frame h).within rfl
  | .stackRefresh .., _, _, h => (exec_stackRefresh_frame h).within rfl
  | .regCmdWrite .., _, _, h => (exec_regCmdWrite_frame h).within rfl
  | .regCmdInvalidate .., _, _, h => (exec_regCmdInvalidate_frame h).within rfl
  | .zeroFillDone .., _, _, h => (exec_zeroFillDone_frame h).within rfl
  | .setKind .., _, _, h => (exec_setKind_frame h).within rfl
  | .exportDescriptor .., _, _, h => (exec_exportDescriptor_frame h).within rfl
  | .stageIn .., _, _, h => (exec_stageIn_frame h).within rfl
  | .stageOut .., _, _, h => (exec_stageOut_frame h).within rfl
  | .load .., _, _, h => (exec_load_frame h).within rfl
  | .importRange .., _, _, h => (exec_importRange_frame h).within rfl
  | .copy .., _, _, h => (exec_copy_frame h).within rfl
  | .zero .., _, _, h => (exec_zero_frame h).within rfl
  | .pageMoverDone .., _, _, h => (exec_pageMoverDone_frame h).within rfl
  | .stackTempReading .., _, _, h => (exec_stackTempReading_frame h).within rfl
  | .deepPageMove .., _, _, h => (exec_deepPageMove_frame h).within rfl
  | .deepPageLive .., _, _, h => (exec_deepPageLive_frame h).within rfl
  | .loadImage .., _, _, h => (exec_loadImage_frame h).within rfl
  | .loadEnd .., _, _, h => (exec_loadEnd_frame h).within rfl
  | .migrationRound .., _, _, h => (exec_migrationRound_frame h).within rfl
  | .repairCut .., _, _, h => (exec_repairCut_frame h).within rfl
  | .spareClear .., _, _, h => (exec_spareClear_frame h).within rfl
  | .cmdPi .., _, _, h => (exec_cmdPi_frame h).within rfl
  | .cplCi .., _, _, h => (exec_cplCi_frame h).within rfl
  | .arm .., _, _, h => (exec_arm_frame h).within rfl
  | .intAddr .., _, _, h => (exec_intAddr_frame h).within rfl
  | .commandFetch .., _, _, h => (exec_commandFetch_frame h).within rfl
  | .submit .., _, _, h => (exec_submit_frame h).within rfl
  | .pause .., _, _, h => (exec_pause_frame h).within rfl
  | .resume .., _, _, h => (exec_resume_frame h).within rfl
  | .cancel .., _, _, h => (exec_cancel_frame h).within rfl
  | .release .., _, _, h => (exec_release_frame h).within rfl
  | .keyLoad .., _, _, h => (exec_keyLoad_frame h).within rfl
  | .keyClear .., _, _, h => (exec_keyClear_frame h).within rfl
  | .attest .., _, _, h => (exec_attest_frame h).within rfl
  | .heldCompletionWrite .., _, _, h => (exec_heldCompletionWrite_frame h).within rfl
  | .elasticScan .., _, _, h => (exec_elasticScan_frame h).within rfl
  | .lanePrime .., _, _, h => (exec_lanePrime_frame h).within rfl
  | .outputRecordWrite .., _, _, h => (exec_outputRecordWrite_frame h).within rfl
  | .kvExportDone .., _, _, h => (exec_kvExportDone_frame h).within rfl
  | .ttlExpire .., _, _, h => (exec_ttlExpire_frame h).within rfl
  | .slackSweep .., _, _, h => (exec_slackSweep_frame h).within rfl
  | .pairEn .., _, _, h => (exec_pairEn_frame h).within rfl
  | .draft .., _, _, h => (exec_draft_frame h).within rfl
  | .spur .., _, _, h => (exec_spur_frame h).within rfl
  | .ventCmdBind .., _, _, h => (exec_ventCmdBind_frame h).within rfl
  | .ventCmdUnbind .., _, _, h => (exec_ventCmdUnbind_frame h).within rfl
  | .aliveLoss .., _, _, h => (exec_aliveLoss_frame h).within rfl
  | .phaseLoss .., _, _, h => (exec_phaseLoss_frame h).within rfl
  | .heartbeat .., _, _, h => (exec_heartbeat_frame h).within rfl
  | .heartbeatTimeout .., _, _, h => (exec_heartbeatTimeout_frame h).within rfl
  | .faultCompletion .., _, _, h => (exec_faultCompletion_frame h).within rfl
  | .powerOn .., _, _, h => (exec_powerOn_frame h).within rfl
  | .clkRetry .., _, _, h => (exec_clkRetry_frame h).within rfl
  | .vinSample .., _, _, h => (exec_vinSample_frame h).within rfl
  | .powerDown, _, _, h => (exec_powerDown_frame h).within rfl
  | .computeSwitchClose .., _, _, h => (exec_computeSwitchClose_frame h).within rfl
  | .shutdown, _, _, h => (exec_shutdown_frame h).within rfl
  | .thermalUpdate .., _, _, h => (exec_thermalUpdate_frame h).within rfl
  | .diodeReading .., _, _, h => (exec_diodeReading_frame h).within rfl
  | .baseCapture .., _, _, h => (exec_baseCapture_frame h).within rfl
  | .captureEnd .., _, _, h => (exec_captureEnd_frame h).within rfl
  | .phOffline .., _, _, h => (exec_phOffline_frame h).within rfl
  | .cartridgeSelfTest .., _, _, h => (exec_cartridgeSelfTest_frame h).within rfl
  | .conversionResult .., _, _, h => (exec_conversionResult_frame h).within rfl
  | .refSel .., _, _, h => (exec_refSel_frame h).within rfl
  | .refRdy .., _, _, h => (exec_refRdy_frame h).within rfl
  | .swStart .., _, _, h => (exec_swStart_frame h).within rfl
  | .calStart .., _, _, h => (exec_calStart_frame h).within rfl
  | .rmbTimer .., _, _, h => (exec_rmbTimer_frame h).within rfl
  | .snapshotStart .., _, _, h => (exec_snapshotStart_frame h).within rfl
  | .epochEnd .., _, _, h => (exec_epochEnd_frame h).within rfl
  | .portTrain .., _, _, h => (exec_portTrain_frame h).within rfl
  | .trainingTimeout .., _, _, h => (exec_trainingTimeout_frame h).within rfl
  | .downRetry .., _, _, h => (exec_downRetry_frame h).within rfl
  | .dataFlit .., _, _, h => (exec_dataFlit_frame h).within rfl
  | .idleFlit .., _, _, h => (exec_idleFlit_frame h).within rfl
  | .nak .., _, _, h => (exec_nak_frame h).within rfl
  | .ackTimeout .., _, _, h => (exec_ackTimeout_frame h).within rfl
  | .blockLockLoss .., _, _, h => (exec_blockLockLoss_frame h).within rfl
  | .retrain .., _, _, h => (exec_retrain_frame h).within rfl
  | .retrainTimeout .., _, _, h => (exec_retrainTimeout_frame h).within rfl
  | .mmioWr .., _, _, h => (exec_mmioWr_frame h).within rfl
  | .mmioRd .., _, _, h => (exec_mmioRd_frame h).within rfl
  | .snpInv .., _, _, h => (exec_snpInv_frame h).within rfl
  | .cmp .., _, _, rfl => (cmp_frame _ _ _ _).within rfl
  | .data .., _, _, rfl => (data_frame _ _ _ _ _).within rfl
  | .intHoldoffExpire .., _, _, h => (exec_intHoldoffExpire_frame h).within rfl
  | .bringup .., _, _, h => (exec_bringup_frame h).within rfl
  | .firmwareObjectStage .., _, _, h => (exec_firmwareObjectStage_frame h).within rfl
  | .activateFirmware .., _, _, h => (exec_activateFirmware_frame h).within rfl
  | .roleSwap .., _, _, h => (exec_roleSwap_frame h).within rfl
  | .siteUpdateDrain .., _, _, h => (exec_siteUpdateDrain_frame h).within rfl
  | .svnCommit .., _, _, h => (exec_svnCommit_frame h).within rfl
  | .journalRecordDurable .., _, _, h => (exec_journalRecordDurable_frame h).within rfl
  | .compaction, _, _, h => (exec_compaction_frame h).within rfl
  | .reading .., _, _, h => (exec_reading_frame h).within rfl
  | .signed .., _, _, h => (exec_signed_frame h).within rfl
  | .log .., _, _, h => (exec_log_frame h).within rfl
  | .cert .., _, _, h => (exec_cert_frame h).within rfl
  | .status .., _, _, h => (exec_status_frame h).within rfl
  | .reqSigned, _, _, h => (exec_reqSigned_frame h).within rfl
  | .reqLog, _, _, rfl => (reqLog_sentFrame _).within rfl
  | .reqCert, _, _, h => (exec_reqCert_frame h).within rfl
  | .intervalSign .., _, _, h => (exec_intervalSign_frame h).within rfl
  | .tallyHoldupSave, _, _, h => (exec_tallyHoldupSave_frame h).within rfl
  | .sealOpen, _, _, rfl => (sealOpen_tallyFrame _).within rfl
  | .sealClosed, _, _, rfl => (sealClosed_tallyFrame _).within rfl
  | .fwChange .., _, _, rfl => (fwChange_tallyFrame _ _).within rfl
  | .shareUpdate .., _, _, h => (exec_shareUpdate_frame h).within rfl
  | .moduleReset, _, _, h => (exec_moduleReset_frame h).within rfl
  | .clockLoss, _, _, h => (exec_clockLoss_frame h).within rfl
  | .create .., _, _, h => (exec_create_frame h).within rfl
  | .destroy .., _, _, h => (exec_destroy_frame h).within rfl
  | .teardownDone .., _, _, h => (exec_teardownDone_frame h).within rfl
  | .en .., _, _, h => (exec_en_frame h).within rfl
  | .partitionStartDone .., _, _, h => (exec_partitionStartDone_frame h).within rfl
  | .drainDone .., _, _, h => (exec_drainDone_frame h).within rfl
  | .softReset .., _, _, h => (exec_softReset_frame h).within rfl
  | .budget .., _, _, h => (exec_budget_frame h).within rfl
  | .arrayDefectPolicy .., _, _, h => (exec_arrayDefectPolicy_frame h).within rfl
  | .progBase .., _, _, h => (exec_progBase_frame h).within rfl
  | .errInject .., _, _, h => (exec_errInject_frame h).within rfl
  | .firstValid .., _, _, h => (exec_firstValid_frame h).within rfl
  | .lock .., _, _, h => (exec_lock_frame h).within rfl
  | .injLock .., _, _, h => (exec_injLock_frame h).within rfl
  | .htDataLo .., _, _, h => (exec_htDataLo_frame h).within rfl
  | .flogData0 .., _, _, h => (exec_flogData0_frame h).within rfl
  | .seqLastLo, _, _, h => (exec_seqLastLo_frame h).within rfl
  | .registerWrite .., _, _, h => (exec_registerWrite_frame h).within rfl
  | .tileFault .., _, _, h => (exec_tileFault_frame h).within rfl
  | .routerParityFailure .., _, _, h => (exec_routerParityFailure_frame h).within rfl
  | .siteControllerFailure .., _, _, h => (exec_siteControllerFailure_frame h).within rfl
  | .mgtRstNRelease .., _, _, h => (exec_mgtRstNRelease_frame h).within rfl
  | .pwrFailRestart .., _, _, h => (exec_pwrFailRestart_frame h).within rfl
  | .shutdownTimeout, _, _, h => (exec_shutdownTimeout_frame h).within rfl
  | .tallyLinkTimeout, _, _, h => (exec_tallyLinkTimeout_frame h).within rfl
  | .healthyStartTimeout .., _, _, h => (exec_healthyStartTimeout_frame h).within rfl
  | .msfReady .., _, _, h => (exec_msfReady_frame h).within rfl
  | .portConfigRecordWrite .., _, _, h => (exec_portConfigRecordWrite_frame h).within rfl

end Sys2Proof.Machine
end

section
/-! SUPPORT. Registers of the common page after the commands that set them: one bit of a field, an error event's bit of ERR_STAT, a cleared capture, and
the policy of an array (R69, R70, R453 to R455). -/

namespace Sys2Proof.Machine

/-! ### One bit of a number -/

theorem bit_eq_testBit (v n : Nat) : bit v n = v.testBit n := Nat.testBit_eq_decide_div_mod_eq.symm

theorem add_two_pow_eq_or {v a : Nat} (h : v.testBit a = false) : v + 2 ^ a = v ||| 2 ^ a := by
  have hq : 2 ^ (a + 1) * (v / 2 ^ (a + 1)) + v % 2 ^ (a + 1) = v := Nat.div_add_mod ..
  have hr : v % 2 ^ (a + 1) < 2 ^ a := by
    rw [Nat.testBit_eq_decide_div_mod_eq, decide_eq_false_iff_not] at h
    rw [Nat.mod_pow_succ, Nat.mod_two_ne_one.1 h, Nat.mul_zero, Nat.add_zero]
    exact Nat.mod_lt _ (Nat.two_pow_pos a)
  have hs : 2 ^ a + v % 2 ^ (a + 1) < 2 ^ (a + 1) := by
    have := Nat.pow_succ 2 a
    omega
  have hlow : 2 ^ a + v % 2 ^ (a + 1) = 2 ^ a ||| v % 2 ^ (a + 1) := by
    simpa using Nat.two_pow_add_eq_or_of_lt hr 1
  calc v + 2 ^ a = 2 ^ (a + 1) * (v / 2 ^ (a + 1)) + (2 ^ a + v % 2 ^ (a + 1)) := by omega
    _ = 2 ^ (a + 1) * (v / 2 ^ (a + 1)) ||| (2 ^ a ||| v % 2 ^ (a + 1)) := by rw [Nat.two_pow_add_eq_or_of_lt hs, hlow]
    _ = (2 ^ (a + 1) * (v / 2 ^ (a + 1)) ||| v % 2 ^ (a + 1)) ||| 2 ^ a := by rw [Nat.or_comm (2 ^ a), Nat.or_assoc]
    _ = v ||| 2 ^ a := by rw [← Nat.two_pow_add_eq_or_of_lt (by omega), hq]

theorem or_two_pow_eq_self {v a : Nat} (h : v.testBit a = true) : v ||| 2 ^ a = v := by
  apply Nat.eq_of_testBit_eq
  intro i
  by_cases hi : a = i
  · subst hi; simp [h]
  · simp [hi]

theorem sub_two_pow_eq_xor {v a : Nat} (h : v.testBit a = true) : v - 2 ^ a = v ^^^ 2 ^ a := by
  have hw : (v ^^^ 2 ^ a).testBit a = false := by simp [h]
  have hv : (v ^^^ 2 ^ a) ||| 2 ^ a = v := by
    apply Nat.eq_of_testBit_eq
    intro i
    by_cases hi : a = i
    · subst hi; simp [h]
    · simp [hi]
  have := add_two_pow_eq_or hw
  omega

/-- `v` with bit `a` made `b`. -/
def putBit (v a : Nat) (b : Bool) : Nat := if bit v a = b then v else if b then v + 2 ^ a else v - 2 ^ a

theorem bit_putBit (v a c : Nat) (b : Bool) : bit (putBit v a b) c = if c = a then b else bit v c := by
  unfold putBit
  simp only [bit_eq_testBit]
  split
  · next h =>
    split
    · next hc => rw [hc, h]
    · rfl
  · next h =>
    cases b with
    | true =>
      rw [if_pos rfl, add_two_pow_eq_or (eq_false_of_ne_true h), Nat.testBit_or, Nat.testBit_two_pow]
      by_cases hc : c = a
      · simp [hc]
      · simp [hc, Ne.symm hc]
    | false =>
      rw [if_neg Bool.false_ne_true, sub_two_pow_eq_xor (eq_true_of_ne_false h), Nat.testBit_xor, Nat.testBit_two_pow]
      by_cases hc : c = a
      · simp [hc, eq_true_of_ne_false h]
      · simp [hc, Ne.symm hc]

/-- One bit of a field that has been written. -/
theorem State.bit_rd_wr (s : State) (p : Page) (f : Field) (v n : Nat) (h : f.width ≤ 32) (hn : n < f.width) :
    bit ((s.wr p f v).rd p f) n = bit v n := by
  rw [State.rd_wr_self _ _ _ _ h, bit_eq_testBit, bit_eq_testBit, Nat.testBit_mod_two_pow, decide_eq_true hn, Bool.true_and]

/-! ### Error events (R453, R454) -/

@[simp] theorem State.rd_noting (s : State) (p q : Page) (f : State → State) (k : Field) : (s.noting p f).rd q k = (f s).rd q k := by
  unfold State.noting
  dsimp only
  split <;> rfl

/-- The time stamp is written at 0x01C and 0x020. -/
theorem State.rd_stamp_below (s : State) (p : Page) {k : Field} (hk : k.off * 32 + k.lsb < 0x18 * 32) : (s.stamp p).rd p k = s.rd p k := by
  have keep : ∀ (x : State) (f : Field) v, 0x18 * 32 ≤ f.off * 32 + f.lsb → (x.wr p f v).rd p k = x.rd p k :=
    fun x f v hf => State.rd_wr_field _ _ _ _ _ (by omega)
  unfold State.stamp State.setFlag
  split <;> rw [keep _ _ _ (by decide), keep _ _ _ (by decide), keep _ _ _ (by decide)]

/-- A capture is written at 0x018 to 0x020. -/
theorem State.rd_capture_below (s : State) (p : Page) (b : Nat) (inj : Bool) {k : Field} (hk : k.off * 32 + k.lsb < 0x18 * 32) :
    (s.capture p b inj).rd p k = s.rd p k := by
  have keep : ∀ (x : State) (f : Field) v, 0x18 * 32 ≤ f.off * 32 + f.lsb → (x.wr p f v).rd p k = x.rd p k :=
    fun x f v hf => State.rd_wr_field _ _ _ _ _ (by omega)
  unfold State.capture State.raiseFlag State.hwSet State.wr64 State.setFlag
  split
  · exact keep _ _ _ (by decide)
  · rw [State.rd_stamp_below _ _ hk, keep _ _ _ (by decide), keep _ _ _ (by decide), keep _ _ _ (by decide), keep _ _ _ (by decide),
      keep _ _ _ (by decide)]

/-- An error event adds its bit to ERR_STAT. -/
theorem State.errStat_err (s : State) (p : Page) {b : Nat} (inj : Bool) (hb : b < 32) :
    (s.err p b inj).rd p page.ERR_STAT = s.rd p page.ERR_STAT ||| 2 ^ b := by
  have shown : ∀ x : State, x.rd p page.ERR_STAT = s.rd p page.ERR_STAT →
      (if bit (s.rd p page.ERR_STAT) b then x else x.wr p page.ERR_STAT (s.rd p page.ERR_STAT + 2 ^ b)).rd p page.ERR_STAT =
        s.rd p page.ERR_STAT ||| 2 ^ b := by
    intro x hx
    rw [bit_eq_testBit]
    split
    · next h => rw [hx, or_two_pow_eq_self h]
    · next h =>
      rw [State.rd_wr_self _ _ _ _ (by decide), add_two_pow_eq_or (by simpa using h)]
      exact Nat.mod_eq_of_lt (Nat.or_lt_two_pow (State.rd_lt ..) (Nat.pow_lt_pow_right (by decide) hb))
  have captured : ∀ x : State, (if bit (x.rd p page.ERR_MASK) b then x else x.capture p b inj).rd p page.ERR_STAT = x.rd p page.ERR_STAT := by
    intro x
    split
    · rfl
    · exact State.rd_capture_below _ _ _ _ (by decide)
  unfold State.err
  dsimp only
  rw [captured, State.rd_noting, shown _ (State.rd_hwSet _ _ _ _ _ _ rfl rfl (by decide) (by decide) (by decide))]

/-- Several error events add their bits. -/
theorem State.bit_errStat_errs (s : State) (p : Page) (l : List Nat) (inj : Bool) (hl : ∀ b ∈ l, b < 32) (c : Nat) :
    bit ((s.errs p l inj).rd p page.ERR_STAT) c = (bit (s.rd p page.ERR_STAT) c || l.contains c) := by
  induction l generalizing s with
  | nil => simp [State.errs]
  | cons b l ih =>
    have hb : b < 32 := hl b (List.mem_cons_self ..)
    have hrest : ∀ x ∈ l, x < 32 := fun x hx => hl x (List.mem_cons_of_mem _ hx)
    calc bit ((s.errs p (b :: l) inj).rd p page.ERR_STAT) c
      _ = (bit ((s.err p b inj).rd p page.ERR_STAT) c || l.contains c) := ih (s.err p b inj) hrest
      _ = ((bit (s.rd p page.ERR_STAT) c || decide (b = c)) || l.contains c) := by
        rw [State.errStat_err _ _ _ hb, bit_eq_testBit, bit_eq_testBit, Nat.testBit_or, Nat.testBit_two_pow]
      _ = (bit (s.rd p page.ERR_STAT) c || (b :: l).contains c) := by
        rw [List.contains_cons, Bool.or_assoc, Bool.beq_eq_decide_eq, decide_eq_decide.2 eq_comm]

/-- Error events of one page keep every field of another. -/
theorem State.rd_errs_page (s : State) (p : Page) (l : List Nat) (inj : Bool) (q : Page) (f : Field) (hq : q.id ≠ p.id)
    (hf : f.off * 32 + f.lsb < 131072) : (s.errs p l inj).rd q f = s.rd q f := by
  induction l generalizing s with
  | nil => rfl
  | cons b l ih => exact (ih (s.err p b inj)).trans (State.rd_err' _ _ _ _ _ _ hq hf)

theorem Page.errBits_lt (p : Page) : p.errBits < 32 := by
  unfold Page.errBits
  split <;> decide

/-! ### Arrays with defective columns (R69, R70) -/

/-- Array `a` of core `g` presents 31 columns: two are defective, and its policy bit says NARROW. -/
def State.arrayNarrow (s : State) (g a : Nat) : Bool :=
  decide (s.rd (.core g) (core.DEFECT_CNT a) = 2) && !bit (s.rd (.core g) core.ARRAY_DEFECT_POLICY) a

/-- Array `a` of core `g` is in service. -/
def State.arrayServes (s : State) (g a : Nat) : Bool := decide (s.rd (.core g) (core.DEFECT_CNT a) < 2) || s.arrayNarrow g a

theorem State.applyPolicy_eq (s : State) (g a : Nat) :
    s.applyPolicy g a = (s.wr (.core g) core.ARRAY_EN (putBit (s.rd (.core g) core.ARRAY_EN) a (s.arrayServes g a))).wr (.core g) core.ARRAY_NARROW
      (putBit (s.rd (.core g) core.ARRAY_NARROW) a (s.arrayNarrow g a)) := by
  rfl

/-- Only ARRAY_EN and ARRAY_NARROW follow the policy. -/
theorem State.rd_applyPolicy_ne (s : State) (g a : Nat) {f : Field} (hen : f.off * 32 + f.lsb ≠ 0x404 * 32 + 4) (hna : f.off * 32 + f.lsb ≠ 0x404 * 32 + 8) :
    (s.applyPolicy g a).rd (.core g) f = s.rd (.core g) f := by
  rw [State.applyPolicy_eq, State.rd_wr_field _ _ _ _ _ hna, State.rd_wr_field _ _ _ _ _ hen]

theorem State.bit_arrayEn_applyPolicy (s : State) (g a : Nat) {c : Nat} (hc : c < 4) :
    bit ((s.applyPolicy g a).rd (.core g) core.ARRAY_EN) c = if c = a then s.arrayServes g a else bit (s.rd (.core g) core.ARRAY_EN) c := by
  rw [State.applyPolicy_eq, State.rd_wr_field _ _ _ _ _ (by decide), State.bit_rd_wr _ _ _ _ _ (by decide) hc, bit_putBit]

theorem State.bit_arrayNarrow_applyPolicy (s : State) (g a : Nat) {c : Nat} (hc : c < 4) :
    bit ((s.applyPolicy g a).rd (.core g) core.ARRAY_NARROW) c =
      if c = a then s.arrayNarrow g a else bit (s.rd (.core g) core.ARRAY_NARROW) c := by
  rw [State.applyPolicy_eq, State.bit_rd_wr _ _ _ _ _ (by decide) hc, bit_putBit]

theorem State.rd_defectCnt_applyPolicy (s : State) (g a c : Nat) :
    (s.applyPolicy g a).rd (.core g) (core.DEFECT_CNT c) = s.rd (.core g) (core.DEFECT_CNT c) := by
  apply State.rd_applyPolicy_ne <;> simp only [core.DEFECT_CNT] <;> omega

/-- What the policy decides from does not change as it is applied. -/
theorem State.arrayNarrow_applyPolicy (s : State) (g a c : Nat) : (s.applyPolicy g a).arrayNarrow g c = s.arrayNarrow g c := by
  unfold State.arrayNarrow
  rw [State.rd_defectCnt_applyPolicy, State.rd_applyPolicy_ne _ _ _ (by decide) (by decide)]

theorem State.arrayServes_applyPolicy (s : State) (g a c : Nat) : (s.applyPolicy g a).arrayServes g c = s.arrayServes g c := by
  unfold State.arrayServes
  rw [State.arrayNarrow_applyPolicy, State.rd_defectCnt_applyPolicy]

/-- The policy applied to several arrays keeps every other field. -/
theorem State.rd_foldl_applyPolicy_ne (s : State) (g : Nat) (l : List Nat) {f : Field} (hen : f.off * 32 + f.lsb ≠ 0x404 * 32 + 4)
    (hna : f.off * 32 + f.lsb ≠ 0x404 * 32 + 8) : (l.foldl (fun s a => s.applyPolicy g a) s).rd (.core g) f = s.rd (.core g) f := by
  induction l generalizing s with
  | nil => rfl
  | cons a l ih => exact (ih (s.applyPolicy g a)).trans (State.rd_applyPolicy_ne _ _ _ hen hna)

/-- The policy applied to several arrays decides each of them. -/
theorem State.bit_foldl_applyPolicy (s : State) (g : Nat) (l : List Nat) {c : Nat} (hc : c < 4) :
    bit ((l.foldl (fun s a => s.applyPolicy g a) s).rd (.core g) core.ARRAY_EN) c =
      (if c ∈ l then s.arrayServes g c else bit (s.rd (.core g) core.ARRAY_EN) c) ∧
    bit ((l.foldl (fun s a => s.applyPolicy g a) s).rd (.core g) core.ARRAY_NARROW) c =
      (if c ∈ l then s.arrayNarrow g c else bit (s.rd (.core g) core.ARRAY_NARROW) c) := by
  induction l generalizing s with
  | nil => simp
  | cons a l ih =>
    have := ih (s.applyPolicy g a)
    rw [State.arrayServes_applyPolicy, State.arrayNarrow_applyPolicy, State.bit_arrayEn_applyPolicy _ _ _ hc,
      State.bit_arrayNarrow_applyPolicy _ _ _ hc] at this
    rw [List.foldl_cons, this.1, this.2]
    by_cases hl : c ∈ l <;> by_cases ha : c = a <;> simp_all

end Sys2Proof.Machine
end


section
/-! The statements of spec/00_scope.md: what every step keeps (O4, O5), what a command may change (O55), the register commands (O53), and reset (O3). -/

namespace Sys2Proof.Machine

/-! ### Steps -/

/-- A step is one clock cycle on an empty queue, or the execution of the front command on the rest of the queue. -/
theorem step_cases {s t : State} (h : step s = .next t) :
    (s.pending = [] ∧ t = clockCycle s) ∨ ∃ c l, s.pending = c :: l ∧ exec c { s with pending := l } = .next t := by
  unfold step at h
  split at h
  · next hp => injection h with h; exact .inl ⟨hp, h.symm⟩
  · next c l hp => exact .inr ⟨c, l, hp, h⟩

/-- The queue apart, a step obeys the rules of a frame. -/
theorem step_frame {s t : State} (h : step s = .next t) : ∃ l m, Frame m { s with pending := l } t := by
  obtain ⟨-, ht⟩ | ⟨c, l, -, hc⟩ := step_cases h
  · exact ⟨s.pending, _, ht ▸ clockCycle_frame s⟩
  · obtain ⟨m, -, hm⟩ := exec_frame c hc
    exact ⟨l, m, hm⟩

theorem State.Canon.withPending {s : State} (h : s.Canon) (l : List Instr) : ({ s with pending := l } : State).Canon :=
  { h with }

/-- Settles O4, from the frame of every command and of the clock cycle. -/
theorem stepKeepsTablesCanonical : Obligations.StepKeepsTablesCanonical := by
  intro s t hs h
  obtain ⟨l, _, hf⟩ := step_frame h
  exact hf.canon (hs.withPending l)

/-- Settles O5, from the frame of every command and of the clock cycle. -/
theorem fusesOnlyBurn : Obligations.FusesOnlyBurn := by
  intro s t h
  obtain ⟨_, _, hf⟩ := step_frame h
  exact hf.burnt

/-- Settles O55, from the frame of every command. -/
theorem commandsChangeOnlyTheirFields : Obligations.CommandsChangeOnlyTheirFields := by
  intro i s t h
  have hf := exec_frame i h
  exact ⟨hf.pending, fun _ hk => hf.kept hk⟩

/-! ### Register commands -/

theorem budget_locks (s : State) (t v : Nat) (h : s.tileBusy t = true ∨ 1200 < v ∨ v < 60) :
    budget s t v = s.setFlag (.tileGlb t) tileGlb.BUDGET_LOCKED true := by
  unfold budget
  refine if_pos ?_
  simpa only [Bool.or_eq_true, decide_eq_true_eq, or_assoc] using h

theorem budget_takes (s : State) (t v : Nat) (hb : s.tileBusy t = false) (h : 60 ≤ v) (h' : v ≤ 1200) :
    budget s t v = (s.wr (.tileGlb t) tileGlb.BUDGET v).setFlag (.tileGlb t) tileGlb.BUDGET_LOCKED false := by
  unfold budget
  refine if_neg ?_
  simp only [hb, Bool.false_or, Bool.or_eq_true, decide_eq_true_eq]
  omega

theorem progBase_locks (s : State) (g v : Nat) (h : s.tileBusy (tileOf g) = true) : progBase s g v = s.setFlag (.core g) core.CFG_LOCKED true :=
  if_pos h

theorem progBase_takes (s : State) (g v : Nat) (h : s.tileBusy (tileOf g) = false) :
    progBase s g v = (s.wr (.core g) core.PROG_BASE v).setFlag (.core g) core.CFG_LOCKED false :=
  if_neg (by simp [h])

theorem arrayDefectPolicy_locks (s : State) (g v : Nat) (h : s.tileBusy (tileOf g) = true) :
    arrayDefectPolicy s g v = s.setFlag (.core g) core.CFG_LOCKED true :=
  if_pos h

theorem arrayDefectPolicy_takes (s : State) (g v : Nat) (h : s.tileBusy (tileOf g) = false) :
    arrayDefectPolicy s g v =
      (List.range 4).foldl (fun s a => s.applyPolicy g a) ((s.wr (.core g) core.ARRAY_DEFECT_POLICY v).setFlag (.core g) core.CFG_LOCKED false) :=
  if_neg (by simp [h])

theorem errInject_ignored (s : State) (pg : Page) (v : Nat) (h : pg.common = false ∨ s.flag pg page.INJ_LOCK = true) : errInject s pg v = s :=
  if_pos (by simpa using h)

theorem errInject_takes (s : State) (pg : Page) (v : Nat) (hp : pg.common = true) (h : s.flag pg page.INJ_LOCK = false) :
    errInject s pg v = s.errs pg ((List.range pg.errBits).filter (bit v)) true :=
  if_neg (by simp [hp, h])

theorem firstValid_ignored (s : State) (pg : Page) (h : pg.common = false ∨ s.setNow pg page.FIRST_VALID 0 = true) : firstValid s pg = s := by
  refine if_neg ?_
  cases h with
  | inl hp => simp [hp]
  | inr hn => simp [hn]

theorem firstValid_takes (s : State) (pg : Page) (hp : pg.common = true) (h : s.setNow pg page.FIRST_VALID 0 = false) :
    firstValid s pg = ((s.clr pg page.FIRST_VALID).clr pg page.FIRST_INJ).clr pg page.FIRST_MORE :=
  if_pos (by simp [hp, h])

/-- A flag just set or cleared leaves the other fields of its page. -/
theorem State.rd_setFlag_field (s : State) (p : Page) (f k : Field) (b : Bool) (h : k.off * 32 + k.lsb ≠ f.off * 32 + f.lsb) :
    (s.setFlag p f b).rd p k = s.rd p k :=
  State.rd_wr_field _ _ _ _ _ h

theorem exec_budget_spec (s : State) (t v : Nat) : ∃ u, exec (.budget t v) s = .next u ∧
    (s.tileBusy t = true ∨ 1200 < v ∨ v < 60 → u.flag (.tileGlb t) tileGlb.BUDGET_LOCKED = true ∧
      u.rd (.tileGlb t) tileGlb.BUDGET = s.rd (.tileGlb t) tileGlb.BUDGET) ∧
    (s.tileBusy t = false → 60 ≤ v → v ≤ 1200 → u.flag (.tileGlb t) tileGlb.BUDGET_LOCKED = false ∧ u.rd (.tileGlb t) tileGlb.BUDGET = v) := by
  refine ⟨_, rfl, fun h => ?_, fun hb h h' => ?_⟩
  · rw [budget_locks _ _ _ h]
    exact ⟨State.flag_setFlag_self _ _ _ _ (by decide) (by decide), State.rd_setFlag_field _ _ _ _ _ (by decide)⟩
  · rw [budget_takes _ _ _ hb h h']
    refine ⟨State.flag_setFlag_self _ _ _ _ (by decide) (by decide), ?_⟩
    rw [State.rd_setFlag_field _ _ _ _ _ (by decide), State.rd_wr_self _ _ _ _ (by decide)]
    exact Nat.mod_eq_of_lt (Nat.lt_of_le_of_lt h' (by decide))

theorem exec_progBase_spec (s : State) (g v : Nat) : ∃ u, exec (.progBase g v) s = .next u ∧
    (s.tileBusy (tileOf g) = true → u.flag (.core g) core.CFG_LOCKED = true ∧ u.rd (.core g) core.PROG_BASE = s.rd (.core g) core.PROG_BASE) ∧
    (s.tileBusy (tileOf g) = false → u.flag (.core g) core.CFG_LOCKED = false ∧ u.rd (.core g) core.PROG_BASE = v % 2 ^ 20) := by
  refine ⟨_, rfl, fun h => ?_, fun h => ?_⟩
  · rw [progBase_locks _ _ _ h]
    exact ⟨State.flag_setFlag_self _ _ _ _ (by decide) (by decide), State.rd_setFlag_field _ _ _ _ _ (by decide)⟩
  · rw [progBase_takes _ _ _ h]
    refine ⟨State.flag_setFlag_self _ _ _ _ (by decide) (by decide), ?_⟩
    rw [State.rd_setFlag_field _ _ _ _ _ (by decide), State.rd_wr_self _ _ _ _ (by decide)]
    rfl

theorem exec_arrayDefectPolicy_spec (s : State) (g v : Nat) : ∃ u, exec (.arrayDefectPolicy g v) s = .next u ∧
    (s.tileBusy (tileOf g) = true → u.flag (.core g) core.CFG_LOCKED = true ∧
      u.rd (.core g) core.ARRAY_DEFECT_POLICY = s.rd (.core g) core.ARRAY_DEFECT_POLICY ∧
      u.rd (.core g) core.ARRAY_EN = s.rd (.core g) core.ARRAY_EN) ∧
    (s.tileBusy (tileOf g) = false → u.flag (.core g) core.CFG_LOCKED = false ∧ u.rd (.core g) core.ARRAY_DEFECT_POLICY = v % 2 ^ 4 ∧
      ∀ a, a < 4 → bit (u.rd (.core g) core.ARRAY_EN) a = (decide (s.rd (.core g) (core.DEFECT_CNT a) < 2) ||
          (decide (s.rd (.core g) (core.DEFECT_CNT a) = 2) && !bit (v % 2 ^ 4) a)) ∧
        bit (u.rd (.core g) core.ARRAY_NARROW) a = (decide (s.rd (.core g) (core.DEFECT_CNT a) = 2) && !bit (v % 2 ^ 4) a)) := by
  refine ⟨_, rfl, fun h => ?_, fun h => ?_⟩
  · rw [arrayDefectPolicy_locks _ _ _ h]
    exact ⟨State.flag_setFlag_self _ _ _ _ (by decide) (by decide), State.rd_setFlag_field _ _ _ _ _ (by decide),
      State.rd_setFlag_field _ _ _ _ _ (by decide)⟩
  · rw [arrayDefectPolicy_takes _ _ _ h]
    generalize hx : (s.wr (.core g) core.ARRAY_DEFECT_POLICY v).setFlag (.core g) core.CFG_LOCKED false = x
    have hlock : x.flag (.core g) core.CFG_LOCKED = false := hx ▸ State.flag_setFlag_self _ _ _ _ (by decide) (by decide)
    have hpol : x.rd (.core g) core.ARRAY_DEFECT_POLICY = v % 2 ^ 4 := by
      rw [← hx, State.rd_setFlag_field _ _ _ _ _ (by decide), State.rd_wr_self _ _ _ _ (by decide)]
      rfl
    have hcnt : ∀ a, x.rd (.core g) (core.DEFECT_CNT a) = s.rd (.core g) (core.DEFECT_CNT a) := by
      intro a
      rw [← hx, State.rd_setFlag_field, State.rd_wr_field] <;>
        simp only [core.DEFECT_CNT, core.CFG_LOCKED, core.ARRAY_DEFECT_POLICY] <;> omega
    refine ⟨?_, ?_, fun a ha => ?_⟩
    · unfold State.flag at hlock ⊢
      rw [State.rd_foldl_applyPolicy_ne _ _ _ (by decide) (by decide), hlock]
    · rw [State.rd_foldl_applyPolicy_ne _ _ _ (by decide) (by decide), hpol]
    · obtain ⟨hen, hna⟩ := State.bit_foldl_applyPolicy x g (List.range 4) ha
      have hm : a ∈ List.range 4 := List.mem_range.2 ha
      rw [hen, hna, if_pos hm, if_pos hm]
      unfold State.arrayServes State.arrayNarrow
      rw [hcnt, hpol]
      exact ⟨rfl, rfl⟩

theorem exec_errInject_spec (s : State) (pg : Page) (v : Nat) (hp : pg.common = true) :
    (s.flag pg page.INJ_LOCK = true → exec (.errInject pg v) s = .next s) ∧
    (s.flag pg page.INJ_LOCK = false → ∃ u, exec (.errInject pg v) s = .next u ∧
      (∀ b, b < pg.errBits → bit v b = true → bit (u.rd pg page.ERR_STAT) b = true) ∧
      u.parts = s.parts ∧ u.cores = s.cores ∧ u.sites = s.sites ∧ u.sps = s.sps ∧ u.nor = s.nor ∧
      ∀ (q : Page) k, q.id ≠ pg.id → k.off * 32 + k.lsb < 131072 → u.rd q k = s.rd q k) := by
  refine ⟨fun h => congrArg Host.Outcome.next (errInject_ignored _ _ _ (.inr h)), fun h => ?_⟩
  refine ⟨_, congrArg Host.Outcome.next (errInject_takes _ _ _ hp h), fun b hb hv => ?_, ?_⟩
  · have small : ∀ x ∈ (List.range pg.errBits).filter (bit v), x < 32 := fun x hx =>
      Nat.lt_trans (List.mem_range.1 (List.mem_filter.1 hx).1) pg.errBits_lt
    have named : ((List.range pg.errBits).filter (bit v)).contains b = true :=
      List.contains_iff_mem.2 (List.mem_filter.2 ⟨List.mem_range.2 hb, hv⟩)
    rw [State.bit_errStat_errs _ _ _ _ small, named, Bool.or_true]
  · have hf := State.errs_frame s pg ((List.range pg.errBits).filter (bit v)) true
    exact ⟨hf.parts rfl, hf.cores rfl, hf.sites rfl, hf.sps rfl, hf.nor rfl, fun q k => State.rd_errs_page s pg _ true q k⟩

theorem exec_firstValid_spec (s : State) (pg : Page) (hp : pg.common = true) :
    (s.setNow pg page.FIRST_VALID 0 = true → exec (.firstValid pg) s = .next s) ∧
    (s.setNow pg page.FIRST_VALID 0 = false → ∃ u, exec (.firstValid pg) s = .next u ∧
      u.flag pg page.FIRST_VALID = false ∧ u.rd pg page.FIRST_MORE = 0 ∧ u.rd pg page.ERR_STAT = s.rd pg page.ERR_STAT ∧
      u.rd pg page.ERR_TICK_LO = s.rd pg page.ERR_TICK_LO ∧ u.rd pg page.ERR_TICK_HI = s.rd pg page.ERR_TICK_HI) := by
  refine ⟨fun h => congrArg Host.Outcome.next (firstValid_ignored _ _ (.inr h)), fun h => ?_⟩
  refine ⟨_, congrArg Host.Outcome.next (firstValid_takes _ _ hp h), ?_, ?_, ?_⟩
  · unfold State.flag State.clr
    rw [State.rd_wr_field _ _ _ _ _ (by decide), State.rd_wr_field _ _ _ _ _ (by decide), State.rd_wr_self _ _ _ _ (by decide)]
    rfl
  · exact State.rd_wr_self _ _ _ _ (by decide)
  · have keep : ∀ k : Field, k.off ≠ 0x18 → k.lsb = 0 →
        (((s.clr pg page.FIRST_VALID).clr pg page.FIRST_INJ).clr pg page.FIRST_MORE).rd pg k = s.rd pg k := by
      intro k ho hl
      unfold State.clr
      rw [State.rd_wr_field, State.rd_wr_field, State.rd_wr_field] <;>
        simp only [page.FIRST_VALID, page.FIRST_INJ, page.FIRST_MORE] <;> omega
    exact ⟨keep _ (by decide) rfl, keep _ (by decide) rfl, keep _ (by decide) rfl⟩

theorem exec_lock_spec (s : State) (pg : Page) (hp : pg.common = true) : ∃ u, exec (.lock pg) s = .next u ∧ u.flag pg page.LOCK = true := by
  refine ⟨_, rfl, ?_⟩
  rw [lock, if_pos hp]
  exact State.flag_setFlag_self _ _ _ _ (by decide) (by decide)

theorem exec_injLock_spec (s : State) (pg : Page) (hp : pg.common = true) : ∃ u, exec (.injLock pg) s = .next u ∧ u.flag pg page.INJ_LOCK = true := by
  refine ⟨_, rfl, ?_⟩
  rw [injLock, if_pos hp]
  exact State.flag_setFlag_self _ _ _ _ (by decide) (by decide)

/-- A page without the common layout ignores its commands (R377, R451). -/
theorem exec_common_ignored (s : State) (pg : Page) (i : Instr) (hp : pg.common = false)
    (h : (∃ v, i = .errInject pg v) ∨ i = .firstValid pg ∨ i = .lock pg ∨ i = .injLock pg) : exec i s = .next s := by
  obtain ⟨v, rfl⟩ | rfl | rfl | rfl := h
  · exact congrArg Host.Outcome.next (errInject_ignored _ _ _ (.inl hp))
  · exact congrArg Host.Outcome.next (firstValid_ignored _ _ (.inl hp))
  · exact congrArg Host.Outcome.next (if_neg (by simp [hp]))
  · exact congrArg Host.Outcome.next (if_neg (by simp [hp]))

/-- Settles O53, command by command. -/
theorem registerCommands : Obligations.RegisterCommands :=
  ⟨exec_budget_spec, exec_progBase_spec, exec_arrayDefectPolicy_spec, exec_errInject_spec,
    fun s pg hp => ⟨(exec_firstValid_spec s pg hp).1, (exec_firstValid_spec s pg hp).2, exec_lock_spec s pg hp, exec_injLock_spec s pg hp⟩,
    exec_common_ignored⟩

/-! ### Reset -/

/-- An empty register store reads the reset values (R9, R451). -/
theorem State.rd_reset (p : Page) (f : Field) (hw : f.width ≤ 32) (hr : f.reset < 2 ^ f.width) : State.reset.rd p f = f.reset := by
  have hf : f.reset < 2 ^ 32 := Nat.lt_of_lt_of_le hr (Nat.pow_le_pow_right (by decide) hw)
  show (0#32 ^^^ BitVec.ofNat 32 f.reset).toNat % 2 ^ f.width = f.reset
  rw [BitVec.zero_xor, BitVec.toNat_ofNat, Nat.mod_eq_of_lt hf, Nat.mod_eq_of_lt hr]

theorem State.reset_canon : State.reset.Canon where
  regs := rfl
  cores := rfl
  mems := fun _ => rfl
  routers := rfl
  tiles := rfl
  crags := rfl
  saddles := rfl
  sites := rfl
  parts := rfl
  reqs := rfl
  rmbs := rfl
  ports := rfl
  ctls := rfl
  ssbs := rfl
  faultMap := rfl

/-- Settles O3: the stores are empty, and an empty register store reads the reset values. -/
theorem resetHoldsTheManualsValues : Obligations.ResetHoldsTheManualsValues := by
  refine ⟨State.rd_reset, State.reset_canon, rfl, rfl, rfl, rfl, rfl, rfl, ?_, rfl⟩
  unfold State.flag
  rw [State.rd_reset _ _ (by decide) (by decide)]
  rfl

end Sys2Proof.Machine
end

section
/-! SUPPORT. The clock cycle and the crags of a tile: what a cycle counts and leaves (R38), and where the cores of a crag lie (R16). -/

namespace Sys2Proof.Machine

/-! ### The clock cycle -/

/-- One cycle counts one clock (R38). -/
theorem State.timeCycle_clock (s : State) : s.timeCycle.clock = s.clock + 1 := by
  unfold State.timeCycle
  dsimp only
  split <;> split <;> rfl

/-- What the partitions and the rail monitor blocks do in a cycle, before a shutdown goes on and time is counted. -/
def State.unitsCycle (s : State) : State := rmbAll.foldl State.rmbCycle ((List.range 12).foldl State.cycleOf s)

theorem clockCycle_eq (s : State) : clockCycle s = s.unitsCycle.shutdownCheck.timeCycle := rfl

theorem State.unitsCycle_frame (s : State) : Frame (fp.rmbs + fp.faulted) s s.unitsCycle := by
  have parts : Frame (fp.rmbs + fp.faulted) s ((List.range 12).foldl State.cycleOf s) :=
    .foldl _ _ (.refl ..) fun _ _ => .step (State.cycleOf_frame ..) rfl (.refl ..)
  exact .foldl _ _ parts fun _ _ => .step (State.rmbCycle_frame ..) rfl (.refl ..)

/-- A shutdown that goes on opens the switches and halts the partitions, and leaves the SSBs, which stopped when it began (R326, R397). -/
theorem State.shutdownCheck_faultedFrame (s : State) : Frame (fp.sps + fp.faulted) s s.shutdownCheck :=
  .ite (.step (State.powerFailing_frame ..) rfl (.refl ..)) (.refl ..)

/-- A clock cycle leaves the SSBs. -/
theorem clockCycle_ssbs (s : State) : (clockCycle s).ssbs = s.ssbs :=
  calc (clockCycle s).ssbs = s.unitsCycle.shutdownCheck.ssbs := by rw [clockCycle_eq, (State.timeCycle_frame _).ssbs rfl]
    _ = s.unitsCycle.ssbs := (State.shutdownCheck_faultedFrame _).ssbs rfl
    _ = s.ssbs := s.unitsCycle_frame.ssbs rfl

/-- A clock cycle counts one clock. -/
theorem clockCycle_clock (s : State) : (clockCycle s).clock = s.clock + 1 :=
  calc (clockCycle s).clock = s.unitsCycle.shutdownCheck.clock + 1 := by rw [clockCycle_eq, State.timeCycle_clock]
    _ = s.unitsCycle.clock + 1 := congrArg (· + 1) ((State.shutdownCheck_faultedFrame _).clock rfl)
    _ = s.clock + 1 := congrArg (· + 1) (s.unitsCycle_frame.clock rfl)

/-! ### The crags of a tile (R16) -/

theorem cxOf_coreAt {t cx cy : Nat} (hx : cx < 16) : cxOf (coreAt t cx cy) = cx := by
  unfold cxOf coreAt
  omega

section
variable {t cx cy : Nat} (hx : cx < 16) (hy : cy < 16)
include hx hy

theorem cyOf_coreAt : cyOf (coreAt t cx cy) = cy := by
  unfold cyOf coreAt
  omega

theorem tileOf_coreAt : tileOf (coreAt t cx cy) = t := by
  unfold tileOf coreAt
  omega

theorem cragOf_coreAt : cragOf (coreAt t cx cy) = t * 16 + (cy / 4 * 4 + cx / 4) := by
  rw [cragOf, cragIn, tileOf_coreAt hx hy, cxOf_coreAt hx, cyOf_coreAt hx hy]

theorem cragLocal_coreAt : cragLocal (coreAt t cx cy) = cy % 4 * 4 + cx % 4 := by
  rw [cragLocal, cxOf_coreAt hx, cyOf_coreAt hx hy]

end

theorem cragCore_cragAt {gx : Nat} (hx : gx < 4) (t gy i : Nat) :
    cragCore (t * 16 + (gy * 4 + gx)) i = coreAt t (gx * 4 + i % 4) (gy * 4 + i / 4) := by
  unfold cragCore coreAt
  omega

theorem cragLocal_cragCore (y : Nat) {i : Nat} (hi : i < 16) : cragLocal (cragCore y i) = i := by
  rw [cragCore, cragLocal_coreAt (by omega) (by omega)]
  omega

/-- A core is the one of its crag at its crag-local index (R316). -/
theorem cragCore_cragLocal (g : Nat) : cragCore (cragOf g) (cragLocal g) = g := by
  unfold cragCore cragOf cragLocal cragIn coreAt tileOf cxOf cyOf
  omega

theorem eq_cragCore_iff (g : Nat) {i : Nat} (hi : i < 16) : g = cragCore (cragOf g) i ↔ cragLocal g = i :=
  ⟨fun h => h ▸ cragLocal_cragCore _ hi, fun h => by rw [← h, cragCore_cragLocal]⟩

theorem eq_parityCore_iff (g : Nat) : g = parityCore (cragOf g) ↔ cragLocal g = 15 := eq_cragCore_iff g (by decide)

theorem eq_spareCore_iff (g : Nat) : g = spareCore (cragOf g) ↔ cragLocal g = 11 := eq_cragCore_iff g (by decide)

/-- Nothing is wrong at core `g`: power is good, its tile is functional, the core is not faulty, no spare of its crag stands in or is due, and no
role is kept until the boundary. -/
structure State.CragSound (s : State) (g : Nat) : Prop where
  power : s.flag .sps sps.POWER_GOOD = true
  functional : s.functional (tileOf g) = true
  unmapped : s.mapped 1 g = 0
  healthy : (s.core g).faulty = false
  noStandIn : s.rd (cragPage (cragOf g)) crag.STAND_FOR = 15
  noneDue : s.spareDue (cragOf g) = false
  noneKept : s.keptRole g = none

/-- On a sound crag the role is that of the position (R16, R79). -/
theorem State.CragSound.roleOf {s : State} {g : Nat} (h : s.CragSound g) :
    s.roleOf g = if g = parityCore (cragOf g) then 1 else if g = spareCore (cragOf g) then 2 else 0 := by
  simp only [eq_parityCore_iff, eq_spareCore_iff]
  simp [State.roleOf, State.roleNow, h.power, h.functional, h.unmapped, h.healthy, h.noStandIn, h.noneDue, h.noneKept]

end Sys2Proof.Machine
end

section
/-! SUPPORT. The region table of a memory site: a write of one entry, the end of a zero fill, the kinds of the sets, and the take-up of a
descriptor (R19, R184, R185, R188, R200, R203). -/

namespace Sys2Proof.Machine

/-! ### Site registers -/

theorem State.rd_setFlag_page (s : State) (p q : Page) (f k : Field) (b : Bool) (h : q.id ≠ p.id) (hf : f.off * 32 + f.lsb < 131072)
    (hk : k.off * 32 + k.lsb < 131072) : (s.setFlag p f b).rd q k = s.rd q k :=
  State.rd_wr_page _ _ _ _ _ _ h hf hk

/-- Another field of the site's page leaves the kinds of its sets. -/
theorem State.setMutable_setFlag (s : State) (m k : Nat) (f : Field) (b : Bool)
    (h : msite.SET_KIND.off * 32 + msite.SET_KIND.lsb ≠ f.off * 32 + f.lsb) :
    (s.setFlag (.msite m) f b).setMutable m k = s.setMutable m k := by
  rw [State.setMutable, State.rd_setFlag_field _ _ _ _ _ h, State.setMutable]

/-- The page of a site is not the page of a partition. -/
theorem State.regionLocked_setFlag (s : State) {m : Nat} (hm : m < 16) (f : Field) (b : Bool) (hf : f.off * 32 + f.lsb < 131072) (r : Region) :
    (s.setFlag (.msite m) f b).regionLocked r = s.regionLocked r := by
  have h : (s.setFlag (.msite m) f b).pstate r.owner = s.pstate r.owner :=
    State.rd_setFlag_page _ _ _ _ _ _ (by simp only [Page.id]; omega) hf (by decide)
  rw [State.regionLocked, h, State.regionLocked]

theorem State.regionOk_setFlag (s : State) (m i : Nat) (r : Region) (f : Field) (b : Bool)
    (h : msite.SET_KIND.off * 32 + msite.SET_KIND.lsb ≠ f.off * 32 + f.lsb) :
    (s.setFlag (.msite m) f b).regionOk m i r = s.regionOk m i r := by
  have hk : (s.setFlag (.msite m) f b).setMutable m = s.setMutable m := funext fun _ => s.setMutable_setFlag _ _ _ _ h
  unfold State.regionOk State.regionChans State.dataChans
  rw [hk, State.site_setFlag]

/-! ### One entry of the region table -/

/-- Entry `i` of site `m` is `r` in `t`, and every other entry is that of `s`. -/
structure State.RegionTo (s : State) (m i : Nat) (r : Region) (t : State) : Prop where
  here : t.region m i = r
  others : ∀ k, k ≠ i → t.region m k = s.region m k

theorem State.RegionTo.of_regions {s t : State} {m i : Nat} {r : Region} (h : (t.site m).regions = Table.set {} (s.site m).regions i r) :
    s.RegionTo m i r t where
  here := by rw [State.region, h, Table.get_set, if_pos rfl]
  others := fun k hk => by rw [State.region, h, Table.get_set, if_neg hk, State.region]

theorem State.site_touchRegion (s : State) (m i k : Nat) : (s.touchRegion m i).site k = s.site k := by
  rw [State.site, (State.touchRegion_frame s m i).sites rfl, State.site]

theorem State.setMutable_touchRegion (s : State) (m i k : Nat) : (s.touchRegion m i).setMutable m k = s.setMutable m k :=
  congrArg (bit · k) (State.rd_congr ((State.touchRegion_frame s m i).regs rfl) _ _)

theorem State.regions_putRegion (s : State) (m i : Nat) (r : Region) :
    ((s.putRegion m i r).site m).regions = Table.set {} (s.site m).regions i r := by
  simp only [State.putRegion, State.site_setFlag, State.site_updSite_self, State.site_touchRegion]

theorem State.zeroing_putRegion (s : State) (m i : Nat) (r : Region) :
    ((s.putRegion m i r).site m).zeroing = (s.site m).zeroing.filter (· ≠ i) := by
  simp only [State.putRegion, State.site_setFlag, State.site_updSite_self, State.site_touchRegion]

theorem State.setMutable_putRegion (s : State) (m i : Nat) (r : Region) (k : Nat) : (s.putRegion m i r).setMutable m k = s.setMutable m k := by
  unfold State.putRegion
  rw [State.setMutable_setFlag _ _ _ _ _ (by decide)]
  exact s.setMutable_touchRegion m i k

theorem State.putRegion_to (s : State) (m i : Nat) (r : Region) : s.RegionTo m i r (s.putRegion m i r) :=
  .of_regions (s.regions_putRegion m i r)

theorem State.enterRegion_to (s : State) (m i : Nat) (r : Region) : s.RegionTo m i r (s.enterRegion m i r) := by
  refine .of_regions ?_
  unfold State.enterRegion
  dsimp only
  split
  · rw [State.site_setFlag, State.site_updSite_self]
    exact s.regions_putRegion m i r
  · exact s.regions_putRegion m i r

/-- A region of a MUTABLE set that becomes VALID is the newest whose zero fill runs (R188). -/
theorem State.enterRegion_zeroing (s : State) (m i : Nat) {r : Region} (hv : r.valid = true) (hk : s.setMutable m r.set = true) :
    ((s.enterRegion m i r).site m).zeroing = (s.site m).zeroing.filter (· ≠ i) ++ [i] ∧
      (s.enterRegion m i r).flag (.msite m) msite.ZERO_BUSY = true := by
  unfold State.enterRegion
  dsimp only
  rw [if_pos (by rw [hv, State.setMutable_putRegion, hk]; rfl)]
  refine ⟨?_, State.flag_setFlag_self _ _ _ _ (by decide) (by decide)⟩
  rw [State.site_setFlag, State.site_updSite_self]
  exact congrArg (· ++ [i]) (s.zeroing_putRegion m i r)

/-! ### REG_CMD (R185, R188) -/

/-- The region entry that REG_DATA holds. -/
def State.regData (s : State) (m : Nat) : Region :=
  regionOfWord ((List.range 4).foldl (fun a j => a + 2 ^ (32 * j) * s.rd (.msite m) (msite.REG_DATA j)) 0)

/-- The two flags of the last region write are down. -/
def State.regFlagsDown (s : State) (m : Nat) : State :=
  (s.setFlag (.msite m) msite.CFG_REJECT false).setFlag (.msite m) msite.CFG_LOCKED false

theorem State.regionLocked_regFlagsDown (s : State) {m : Nat} (hm : m < 16) (r : Region) : (s.regFlagsDown m).regionLocked r = s.regionLocked r := by
  rw [State.regFlagsDown, State.regionLocked_setFlag _ hm _ _ (by decide), State.regionLocked_setFlag _ hm _ _ (by decide)]

theorem State.regionOk_regFlagsDown (s : State) (m i : Nat) (r : Region) : (s.regFlagsDown m).regionOk m i r = s.regionOk m i r := by
  rw [State.regFlagsDown, State.regionOk_setFlag _ _ _ _ _ _ (by decide), State.regionOk_setFlag _ _ _ _ _ _ (by decide)]

theorem State.setMutable_regFlagsDown (s : State) (m k : Nat) : (s.regFlagsDown m).setMutable m k = s.setMutable m k := by
  rw [State.regFlagsDown, State.setMutable_setFlag _ _ _ _ _ (by decide), State.setMutable_setFlag _ _ _ _ _ (by decide)]

/-- A region write by its three outcomes: locked, rejected, or entered. -/
theorem regCmdWrite_eq (s : State) {m : Nat} (hm : m < 16) {i : Nat} (hi : s.rd (.msite m) msite.REG_SEL = i) : regCmdWrite s m =
    if s.regionLocked (s.region m i) || s.regionLocked (s.regData m) then (s.regFlagsDown m).setFlag (.msite m) msite.CFG_LOCKED true
    else if (s.regData m).valid && !s.regionOk m i (s.regData m) then (s.regFlagsDown m).setFlag (.msite m) msite.CFG_REJECT true
    else (s.regFlagsDown m).enterRegion m i (s.regData m) := by
  subst hi
  rw [← s.regionLocked_regFlagsDown hm, ← s.regionLocked_regFlagsDown hm, ← s.regionOk_regFlagsDown]
  rfl

theorem regCmdInvalidate_unlocked (s : State) {m : Nat} (hm : m < 16) {i : Nat} (hi : s.rd (.msite m) msite.REG_SEL = i)
    (ho : s.regionLocked (s.region m i) = false) :
    regCmdInvalidate s m = (s.regFlagsDown m).putRegion m i { s.region m i with valid := false } := by
  subst hi
  rw [← s.regionLocked_regFlagsDown hm] at ho
  exact if_neg (Bool.eq_false_iff.1 ho)

theorem regCmdWrite_locked (s : State) {m : Nat} (hm : m < 16) {i : Nat} (hi : s.rd (.msite m) msite.REG_SEL = i)
    (h : s.regionLocked (s.region m i) = true ∨ s.regionLocked (s.regData m) = true) :
    (regCmdWrite s m).sites = s.sites ∧ (regCmdWrite s m).flag (.msite m) msite.CFG_LOCKED = true := by
  rw [regCmdWrite_eq s hm hi, if_pos (Bool.or_eq_true _ _ ▸ h)]
  exact ⟨rfl, State.flag_setFlag_self _ _ _ _ (by decide) (by decide)⟩

theorem regCmdWrite_rejected (s : State) {m : Nat} (hm : m < 16) {i : Nat} (hi : s.rd (.msite m) msite.REG_SEL = i)
    (ho : s.regionLocked (s.region m i) = false) (hr : s.regionLocked (s.regData m) = false) (hv : (s.regData m).valid = true)
    (hok : s.regionOk m i (s.regData m) = false) :
    (regCmdWrite s m).sites = s.sites ∧ (regCmdWrite s m).flag (.msite m) msite.CFG_REJECT = true := by
  rw [regCmdWrite_eq s hm hi, if_neg (by simp [ho, hr]), if_pos (by simp [hv, hok])]
  exact ⟨rfl, State.flag_setFlag_self _ _ _ _ (by decide) (by decide)⟩

theorem regCmdWrite_entered (s : State) {m : Nat} (hm : m < 16) {i : Nat} (hi : s.rd (.msite m) msite.REG_SEL = i)
    (ho : s.regionLocked (s.region m i) = false) (hr : s.regionLocked (s.regData m) = false)
    (hok : (s.regData m).valid = true → s.regionOk m i (s.regData m) = true) :
    regCmdWrite s m = (s.regFlagsDown m).enterRegion m i (s.regData m) := by
  rw [regCmdWrite_eq s hm hi, if_neg (by simp [ho, hr]), if_neg (by simpa using hok)]

/-! ### Zero fill (R184, R188) -/

/-- A channel with the bytes of a range cleared. -/
def Chan.wipe (lo hi : Nat) (c : Chan) : Chan :=
  { c with mem := c.mem.filter (fun e => decide (e.1 < lo) || decide (hi ≤ e.1)), zeros := c.zeros ++ [(lo, hi)] }

/-- The bytes of a range are not written since a zero fill cleared it. -/
structure Chan.Zeroed (lo hi : Nat) (c : Chan) : Prop where
  mem : ∀ o, lo ≤ o → o < hi → Table.get 0 c.mem o = 0
  zeros : (lo, hi) ∈ c.zeros

theorem Table.get_filter_out {α : Type} (d : α) (t : Table α) (p : Nat × α → Bool) {k : Nat} (h : ∀ v, p (k, v) = false) :
    Table.get d (t.filter p) k = d := by
  induction t with
  | nil => rfl
  | cons e t ih =>
    obtain ⟨j, v⟩ := e
    rw [List.filter_cons]
    split
    · next hp =>
      have hk : k ≠ j := fun hk => by rw [← hk, h v] at hp; exact absurd hp (by decide)
      rw [Table.get, if_neg hk, ih, ite_self]
    · exact ih

theorem Chan.wipe_zeroed (lo hi : Nat) (c : Chan) : (c.wipe lo hi).Zeroed lo hi where
  mem := fun _ hl hh => Table.get_filter_out _ _ _ fun _ => by simp [Nat.not_lt.2 hl, Nat.not_le.2 hh]
  zeros := by simp [Chan.wipe]

theorem State.chan_updChan (s : State) (m i j : Nat) (f : Chan → Chan) :
    (s.updChan m i f).chan m j = if j = i then f (s.chan m i) else s.chan m j := by
  rw [State.chan, State.updChan, State.site_updSite_self]
  exact Table.get_upd ..

theorem State.region_updChan (s : State) (m i j : Nat) (f : Chan → Chan) : (s.updChan m i f).region m j = s.region m j := by
  rw [State.region, State.updChan, State.site_updSite_self, State.region]

/-- The bytes of a range cleared in the channels `l` of a site. -/
def State.wipeChans (s : State) (m lo hi : Nat) (l : List Nat) : State := l.foldl (fun s ch => s.updChan m ch (Chan.wipe lo hi)) s

theorem State.region_wipeChans (s : State) (m lo hi : Nat) (l : List Nat) (j : Nat) : (s.wipeChans m lo hi l).region m j = s.region m j := by
  induction l generalizing s with
  | nil => rfl
  | cons i l ih => exact (ih _).trans (s.region_updChan m i j _)

theorem State.zeroed_wipeChans (s : State) (m lo hi : Nat) (l : List Nat) {ch : Nat} (h : ch ∈ l ∨ (s.chan m ch).Zeroed lo hi) :
    ((s.wipeChans m lo hi l).chan m ch).Zeroed lo hi := by
  induction l generalizing s with
  | nil => exact h.resolve_left List.not_mem_nil
  | cons i l ih =>
    refine ih (s.updChan m i (Chan.wipe lo hi)) ?_
    by_cases hi : ch = i
    · exact .inr (by rw [State.chan_updChan, if_pos hi]; exact Chan.wipe_zeroed ..)
    · rw [State.chan_updChan, if_neg hi]
      exact h.imp_left fun h => (List.mem_cons.1 h).resolve_left hi

theorem State.rawByte_zeroed {s : State} {m ch lo hi o : Nat} (h : (s.chan m ch).Zeroed lo hi) (hl : lo ≤ o) (hh : o < hi) :
    s.rawByte m ch o = 0 := by
  have hz : (s.chan m ch).zeros.any (fun z => decide (z.1 ≤ o) && decide (o < z.2)) = true :=
    List.any_eq_true.2 ⟨_, h.zeros, by simp [hl, hh]⟩
  rw [State.rawByte, h.mem o hl hh]
  exact if_pos hz

/-- The end of the zero fill of a STRIPED region: its data channels and the parity channel of its set are cleared. -/
theorem zeroFillDone_striped (s : State) {m i : Nat} {rest : List Nat} (h : (s.site m).zeroing = i :: rest) (hs : (s.region m i).single = false) :
    zeroFillDone s m =
      ((s.wipeChans m ((s.region m i).base * 4096) (((s.region m i).base + (s.region m i).len) * 4096)
        (s.regionChans m (s.region m i) ++ [8 * (s.region m i).set + 7])).updSite m (fun x => { x with zeroing := rest })).setFlag (.msite m)
          msite.ZERO_BUSY (rest ≠ []) := by
  rw [State.wipeChans, List.foldl_append]
  unfold zeroFillDone
  rw [h]
  dsimp only
  rw [hs]
  rfl

theorem exec_zeroFillDone_spec (s : State) (m i : Nat) (rest : List Nat) (h : (s.site m).zeroing = i :: rest) (hs : (s.region m i).single = false) :
    ∃ t, exec (.zeroFillDone m) s = .next t ∧
      (t.site m).zeroing = rest ∧ t.flag (.msite m) msite.ZERO_BUSY = (rest ≠ [] : Bool) ∧ t.region m i = s.region m i ∧
      ∀ ch ∈ s.regionChans m (s.region m i), ∀ o, (s.region m i).base * 4096 ≤ o → o < ((s.region m i).base + (s.region m i).len) * 4096 →
        t.rawByte m ch o = 0 := by
  refine ⟨_, congrArg Host.Outcome.next (zeroFillDone_striped s h hs), ?_, State.flag_setFlag_self _ _ _ _ (by decide) (by decide), ?_, ?_⟩
  · rw [State.site_setFlag, State.site_updSite_self]
  · rw [State.region, State.site_setFlag, State.site_updSite_self]
    exact State.region_wipeChans ..
  · intro ch hch o hl hh
    refine State.rawByte_zeroed ?_ hl hh
    rw [State.chan, State.site_setFlag, State.site_updSite_self]
    exact State.zeroed_wipeChans _ _ _ _ _ (.inl (List.mem_append_left _ hch))

/-! ### SET_KIND (R184, R203) -/

/-- The number of the flags `f` of the first `n` numbers. -/
def flagsNat (f : Nat → Bool) (n : Nat) : Nat := (List.range n).foldl (fun a k => a + 2 ^ k * b2n (f k)) 0

theorem flagsNat_succ (f : Nat → Bool) (n : Nat) : flagsNat f (n + 1) = 2 ^ n * b2n (f n) + flagsNat f n := by
  rw [flagsNat, List.range_succ, List.foldl_append, Nat.add_comm]
  rfl

theorem flagsNat_lt (f : Nat → Bool) (n : Nat) : flagsNat f n < 2 ^ n := by
  induction n with
  | zero => exact Nat.one_pos
  | succ n ih =>
    rw [flagsNat_succ, Nat.pow_succ]
    cases f n <;> simp [b2n] <;> omega

theorem bit_flagsNat (f : Nat → Bool) {n k : Nat} (hk : k < n) : bit (flagsNat f n) k = f k := by
  rw [bit_eq_testBit]
  induction n with
  | zero => omega
  | succ n ih =>
    rw [flagsNat_succ, Nat.testBit_two_pow_mul_add _ (flagsNat_lt f n)]
    split
    · next h => exact ih h
    · obtain rfl : k = n := by omega
      cases f k <;> simp [b2n]

theorem State.rd_foldl {α : Type} (p : Page) (f : Field) (g : State → α → State) (l : List α) (s : State)
    (h : ∀ s x, (g s x).rd p f = s.rd p f) : (l.foldl g s).rd p f = s.rd p f := by
  induction l generalizing s with
  | nil => rfl
  | cons x l ih => exact (ih _).trans (h s x)

/-- The page of a channel does not hold the kinds. -/
theorem State.rd_setKind_setFlag_mchan (s : State) (m n : Nat) (f : Field) (b : Bool) (hf : f.off * 32 + f.lsb < 131072) :
    (s.setFlag (.mchan m n) f b).rd (.msite m) msite.SET_KIND = s.rd (.msite m) msite.SET_KIND :=
  State.rd_setFlag_page _ _ _ _ _ _ (by simp only [Page.id]; omega) hf (by decide)

/-- The flags of a set do not hold its kind. -/
theorem State.rd_setKind_setFlags (s : State) (m k : Nat) : (s.setFlags m k).rd (.msite m) msite.SET_KIND = s.rd (.msite m) msite.SET_KIND := by
  unfold State.setFlags
  extract_lets pg keeps put lost newly degraded unprot flagged
  have h : flagged.rd pg msite.SET_KIND = s.rd pg msite.SET_KIND :=
    calc flagged.rd pg msite.SET_KIND = unprot.rd pg msite.SET_KIND := State.rd_wr_field _ _ _ _ _ (by decide)
      _ = degraded.rd pg msite.SET_KIND := State.rd_wr_field _ _ _ _ _ (by decide)
      _ = s.rd pg msite.SET_KIND := State.rd_foldl _ _ _ _ _ fun _ _ => State.rd_setKind_setFlag_mchan _ _ _ _ _ (by decide)
  split
  · exact (State.rd_err _ _ _ _ _ _ (by decide) (by decide)).trans h
  · exact h

/-- The kind that each set takes when `v` is written: its own, while it holds a VALID region (R203). -/
def State.kindOf (s : State) (m v k : Nat) : Bool :=
  if (s.site m).regions.any (fun e => e.2.valid && e.2.set = k) then s.setMutable m k else bit v k

theorem setKind_unlocked (s : State) (m v : Nat) (h : s.flag (.msite m) page.LOCK = false) : setKind s m v =
    (List.range 4).foldl (fun x k => (x.setFlag (.mchan m (8 * k + 7)) mchan.PARITY_CH (bit (flagsNat (s.kindOf m v) 4) k)).setFlags m k)
      (s.wr (.msite m) msite.SET_KIND (flagsNat (s.kindOf m v) 4)) :=
  if_neg (Bool.eq_false_iff.1 h)

theorem setMutable_setKind (s : State) (m v : Nat) (h : s.flag (.msite m) page.LOCK = false) {k : Nat} (hk : k < 4) :
    (setKind s m v).setMutable m k = s.kindOf m v k := by
  have hrd : (setKind s m v).rd (.msite m) msite.SET_KIND =
      (s.wr (.msite m) msite.SET_KIND (flagsNat (s.kindOf m v) 4)).rd (.msite m) msite.SET_KIND := by
    rw [setKind_unlocked s m v h]
    exact State.rd_foldl _ _ _ _ _ fun x _ => (State.rd_setKind_setFlags _ m _).trans (State.rd_setKind_setFlag_mchan x m _ _ _ (by decide))
  rw [State.setMutable, hrd, State.bit_rd_wr _ _ _ _ _ (by decide) hk, bit_flagsNat _ hk]

theorem exec_setKind_spec (s : State) (m v : Nat) (h : s.flag (.msite m) page.LOCK = false) : ∃ t, exec (.setKind m v) s = .next t ∧ t.sites = s.sites ∧
    ∀ k, k < 4 → t.setMutable m k = (if (s.site m).regions.any (fun e => e.2.valid && e.2.set = k) then s.setMutable m k else bit v k) :=
  ⟨setKind s m v, rfl, (setKind_frame s m v).sites rfl, fun _ hk => setMutable_setKind s m v h hk⟩

/-! ### Export descriptors (R19, R173, R200) -/

theorem exportDescriptor_discarded (s : State) {t p : Nat} {d : ExportDesc} (ht : s.tilePart t = some p) (hd : d.part ≠ p) :
    exportDescriptor s t d = s := by
  rw [exportDescriptor, ht]
  exact if_pos (.inl hd)

theorem exportDescriptor_taken (s : State) {t p : Nat} {d : ExportDesc} (ht : s.tilePart t = some p) (hd : d.part = p) (hc : tileOf d.core = t)
    (hn : d.nflit ≠ 0) (hx : (s.part p).xfers.any (fun x => x.cmd.tid = d.tid) = false) :
    exportDescriptor s t d = (s.updRouter d.core (fun r => { r with exports := r.exports ++ [(d, 0)] })).addXfer p
      { site := d.site, cmd := { tid := d.tid }, desc := some d, expect := d.nflit } := by
  rw [exportDescriptor, ht]
  dsimp only
  rw [if_neg (by simp [hd, hc, hn]), State.part_updRouter, if_neg (by rw [hx]; decide)]

theorem exec_exportDescriptor_spec (s : State) (t : Nat) (d : ExportDesc) (p : Nat) (ht : s.tilePart t = some p) (hd : d.part = p)
    (hc : tileOf d.core = t) (hn : d.nflit ≠ 0) (hx : (s.part p).xfers.any (fun x => x.cmd.tid = d.tid) = false) :
    ∃ s', exec (.exportDescriptor t d) s = .next s' ∧ (s'.router d.core).exports = (s.router d.core).exports ++ [(d, 0)] ∧
      (s'.part p).xfers.getLast? = some { site := d.site, cmd := { tid := d.tid }, desc := some d, expect := d.nflit, sent := s.clock } := by
  refine ⟨_, congrArg Host.Outcome.next (exportDescriptor_taken s ht hd hc hn hx), ?_, ?_⟩
  · rw [State.addXfer, State.router_updPart, State.router_updRouter_self]
  · rw [State.addXfer, State.part_updPart_self]
    exact List.getLast?_concat

end Sys2Proof.Machine
end

section
/-! The statements of spec/01_architecture.md: the frame of the commands of a core (O6), the region table (O29), the step on an empty queue (O2),
and the crags (O57). -/

namespace Sys2Proof.Machine

/-! ### Commands of a core -/

theorem runHalt_local (g : Nat) (e : CmdEntry) (s : State) : State.LocalTo g s (runHalt g e s) := State.issueOpen_local ..

/-- A command of core `g` has its effect in that core; of every other command `coreOf` is none. -/
theorem exec_local {s t : State} : (c : Instr) → {g : Nat} → coreOf c = some g → exec c s = .next t → State.LocalTo g s t
  | .retireWithoutEffect _, _, rfl, rfl => retireWithoutEffect_local _
  | .commandRetire _, _, rfl, rfl => commandRetire_local _
  | .slabReadPortStart _, _, rfl, rfl => slabReadPortStart_local _
  | .apassTree .., _, rfl, rfl => State.issue_local _ _ _ _ (runPass_local _)
  | .apassSkew .., _, rfl, rfl => State.issue_local _ _ _ _ (runPass_local _)
  | .accDrain .., _, rfl, rfl => State.issue_local _ _ _ _ runDrain_local
  | .accBase _, _, rfl, rfl => State.issue_local _ _ _ _ runAccBase_local
  | .edgeCfg _, _, rfl, rfl => State.issue_local _ _ _ _ runEdgeCfg_local
  | .attQload .., _, rfl, rfl => State.issue_local _ _ _ _ runQload_local
  | .attStream .., _, rfl, rfl => State.issue_local _ _ _ _ runStream_local
  | .attFinish _, _, rfl, rfl => State.issue_local _ _ _ _ runFinish_local
  | .wuAdd .., _, rfl, rfl => State.issue_local _ _ _ _ (runBinary_local _ _ _)
  | .wuMul .., _, rfl, rfl => State.issue_local _ _ _ _ (runBinary_local _ _ _)
  | .wuFma .., _, rfl, rfl => State.issue_local _ _ _ _ (runFma_local _)
  | .wuMax .., _, rfl, rfl => State.issue_local _ _ _ _ (runBinary_local _ _ _)
  | .wuExp .., _, rfl, rfl => State.issue_local _ _ _ _ (runUnary_local _ _ _)
  | .wuRsqrt .., _, rfl, rfl => State.issue_local _ _ _ _ (runUnary_local _ _ _)
  | .wuRecip .., _, rfl, rfl => State.issue_local _ _ _ _ (runUnary_local _ _ _)
  | .wuSilu .., _, rfl, rfl => State.issue_local _ _ _ _ (runUnary_local _ _ _)
  | .wuRope .., _, rfl, rfl => State.issue_local _ _ _ _ (runRope_local _ _)
  | .wuReduce .., _, rfl, rfl => State.issue_local _ _ _ _ (runReduce_local _)
  | .wuCvt .., _, rfl, rfl => State.issue_local _ _ _ _ runCvt_local
  | .wuSpdelta .., _, rfl, rfl => State.issue_local _ _ _ _ (runSpdelta_local _)
  | .wuCopy .., _, rfl, rfl => State.issue_local _ _ _ _ runCopy_local
  | .send .., _, rfl, rfl => State.issue_local _ _ _ _ runSend_local
  | .sendMc .., _, rfl, rfl => State.issue_local _ _ _ _ runSend_local
  | .sendRed .., _, rfl, rfl => State.issue_local _ _ _ _ runSend_local
  | .sendSpine .., _, rfl, rfl => State.issue_local _ _ _ _ runSendSpine_local
  | .winOpen _, _, rfl, rfl => State.issue_local _ _ _ _ runWinOpen_local
  | .winClose _, _, rfl, rfl => State.issue_local _ _ _ _ runWinClose_local
  | .winWait _, _, rfl, rfl => State.issue_local _ _ _ _ runWinWait_local
  | .semSignal _, _, rfl, rfl => State.issue_local _ _ _ _ runSemSignal_local
  | .semWait _, _, rfl, rfl => State.issue_local _ _ _ _ runSemWait_local
  | .kvSetup _, _, rfl, rfl => State.issue_local _ _ _ _ runKvSetup_local
  | .kvMapload .., _, rfl, rfl => State.issue_local _ _ _ _ runKvMapload_local
  | .kvSpec _, _, rfl, rfl => State.issue_local _ _ _ _ runKvSpec_local
  | .commit _, _, rfl, rfl => State.issue_local _ _ _ _ runCommit_local
  | .commitKv _, _, rfl, rfl => State.issue_local _ _ _ _ runCommitKv_local
  | .fence _, _, rfl, rfl => State.issue_local _ _ _ _ runFence_local
  | .nop _, _, rfl, rfl => State.issue_local _ _ _ _ runNop_local
  | .mark _, _, rfl, rfl => State.issue_local _ _ _ _ runMark_local
  | .halt _, _, rfl, rfl => State.issue_local _ _ _ _ (runHalt_local _)

/-- Settles O6, command by command. -/
theorem coreCommandsStayInTheirCore : Obligations.CoreCommandsStayInTheirCore :=
  fun c _ _ _ hc h => exec_local c hc h

/-! ### The region table -/

/-- Settles O29: a region write is locked, rejected or entered, and each of the other commands has one effect. -/
theorem regionTableCommands : Obligations.RegionTableCommands := by
  refine ⟨fun s m i hm hi => ⟨fun ho hr hok => ?_, fun h => ⟨_, rfl, regCmdWrite_locked s hm hi h⟩,
      fun ho hr hv hok => ⟨_, rfl, regCmdWrite_rejected s hm hi ho hr hv hok⟩, fun ho => ?_⟩,
    exec_zeroFillDone_spec, exec_setKind_spec, fun s _ _ _ ht hd => congrArg Host.Outcome.next (exportDescriptor_discarded s ht hd),
    exec_exportDescriptor_spec⟩
  · have entered := (s.regFlagsDown m).enterRegion_to m i (s.regData m)
    exact ⟨_, congrArg Host.Outcome.next (regCmdWrite_entered s hm hi ho hr hok), entered.here, entered.others,
      fun hv hk => (s.regFlagsDown m).enterRegion_zeroing m i hv ((s.setMutable_regFlagsDown m _).trans hk)⟩
  · have put := (s.regFlagsDown m).putRegion_to m i { s.region m i with valid := false }
    exact ⟨_, congrArg Host.Outcome.next (regCmdInvalidate_unlocked s hm hi ho), put.here, put.others⟩

/-! ### The empty queue -/

theorem step_empty {s : State} (h : s.pending = []) : step s = .next (clockCycle s) := by
  unfold step
  rw [h]

/-- Settles O2, from the frame of the clock cycle. -/
theorem emptyQueueLetsAClockCyclePass : Obligations.EmptyQueueLetsAClockCyclePass := by
  intro s h
  have hf := clockCycle_frame s
  exact ⟨clockCycle s, step_empty h, clockCycle_clock s, hf.pending.trans h, hf.fuses rfl, hf.saddles rfl, hf.order rfl, hf.ctls rfl,
    clockCycle_ssbs s, hf.tally rfl⟩

/-! ### Crags -/

/-- Settles O57: a crag is a square of 4 × 4 cores, and role goes by the place in it. -/
theorem geometryOfCrags : Obligations.GeometryOfCrags := by
  intro t gx gy cx cy hgx hgy hx hy
  have hpar : parityCore (t * 16 + (gy * 4 + gx)) = coreAt t (4 * gx + 3) (4 * gy + 3) := by
    rw [parityCore, cragCore_cragAt hgx, Nat.mul_comm gx, Nat.mul_comm gy]
  have hspare : spareCore (t * 16 + (gy * 4 + gx)) = coreAt t (4 * gx + 3) (4 * gy + 2) := by
    rw [spareCore, cragCore_cragAt hgx, Nat.mul_comm gx, Nat.mul_comm gy]
  refine ⟨?_, hpar, hspare, ?_⟩
  · rw [cragOf_coreAt hx hy]
    omega
  · rintro s g hg hcrag hpower hfun hmap hcore hstand hdue hkept
    have ht : tileOf g = t := by rw [hg, tileOf_coreAt hx hy]
    have sound : s.CragSound g := ⟨hpower, ht.symm ▸ hfun, hmap, hcore, hstand, hdue, hkept⟩
    rw [sound.roleOf, hcrag, hpar, hspare]

end Sys2Proof.Machine
end

section
/-! SUPPORT. What the commands of a core do to its record: one rule for each meaning, from any state that differs from `s` in that record alone.
A command taken, the sequencer's commands, and the configuration of the array unit (R74, R78, R89, R96, R120, R122, R124, R139, R277). -/

namespace Sys2Proof.Machine

variable {s x : State} {g : Nat} {c : Core} {e : CmdEntry}

/-! ### A command taken -/

/-- Core `g` with the issue place of the cycle taken. -/
def State.began (s : State) (g : Nat) : State := s.updCore g (fun c => c.issuedIn (s.cycOf g))

theorem State.began_to (s : State) (g : Nat) : s.CoreTo g ((s.core g).issuedIn (s.cycOf g)) (s.began g) :=
  State.CoreTo.start s g (fun c => c.issuedIn (s.cycOf g))

/-- A command that issues with nothing wrong ends in the state that its meaning gives. -/
theorem State.Takes.ends {op : Nat} {un : Unit4} {run : CmdEntry → State → State} {P : State → Prop} (h : s.Takes g op un e)
    (hp : P (run e (s.began g))) : ∃ t, (.next (s.issue g op .none run) : Out) = .next t ∧ P t :=
  ⟨_, congrArg Host.Outcome.next (State.issue_takes run h), hp⟩

/-- The partition of a core is as before. -/
theorem State.CoreTo.corePart (h : s.CoreTo g c x) (k : Nat) : x.corePart k = s.corePart k := h.eqv (fun x => x.corePart k) (fun _ _ => rfl)

/-! ### The sequencer (R78, R124, R139) -/

theorem runNop_to (h : s.CoreTo g c x) : s.CoreTo g (c.doneIn e.idx (s.cycOf g + 1)) (runNop g e x) := by
  unfold runNop
  rw [h.cycOf]
  exact h.finishAt ..

theorem runCommit_to (h : s.CoreTo g c x) :
    s.CoreTo g (({ c with commitSets := bits e.word 0 8 } : Core).doneIn e.idx (s.cycOf g + 1)) (runCommit g e x) := by
  unfold runCommit
  rw [h.cycOf]
  exact (h.upd (fun c => { c with commitSets := bits e.word 0 8 })).finishAt ..

theorem runHalt_to (h : s.CoreTo g c x) : s.CoreTo g (c.openIn e.idx true false) (runHalt g e x) := h.issueOpen ..

/-- Opening a command as a barrier leaves open what earlier commands have done. -/
theorem Core.earlierDone_openIn (c : Core) (i cyc : Nat) (b w : Bool) : (c.openIn i b w).earlierDone i cyc = c.earlierDone i cyc := by
  unfold Core.earlierDone Core.openIn
  rw [List.all_map]
  congr 1
  funext y
  by_cases hy : y.idx = i <;> simp [hy]

theorem runFence_to (h : s.CoreTo g c x) :
    s.CoreTo g (let o := c.openIn e.idx true false
      if c.earlierDone e.idx (s.cycOf g) then o.doneIn e.idx (s.cycOf g) else o) (runFence g e x) := by
  have opened := h.issueOpen e.idx true false
  unfold runFence
  dsimp only
  rw [opened.here, opened.cycOf, Core.earlierDone_openIn]
  split
  · exact opened.finishAt ..
  · exact opened

/-- The fields of a core's page other than the trace registers stand at other bits. -/
theorem core_fields_beside_trace : ∀ f ∈ core.fields, f ≠ core.TRACE_TAG → f ≠ core.TRACE_CYCLE →
    f.off * 32 + f.lsb ≠ core.TRACE_TAG.off * 32 + core.TRACE_TAG.lsb ∧ f.off * 32 + f.lsb ≠ core.TRACE_CYCLE.off * 32 + core.TRACE_CYCLE.lsb := by
  decide +kernel

/-- MARK is done one cycle after issue, and is shown in the trace registers alone. -/
theorem runMark_shows (h : s.CoreTo g c x) :
    (runMark g e x).core g = c.doneIn e.idx (s.cycOf g + 1) ∧
    (runMark g e x).rd (.core g) core.TRACE_TAG = bits e.word 0 32 ∧ (runMark g e x).rd (.core g) core.TRACE_CYCLE = s.cycOf g % 2 ^ 16 ∧
    ∀ f ∈ core.fields, f ≠ core.TRACE_TAG → f ≠ core.TRACE_CYCLE → (runMark g e x).rd (.core g) f = s.rd (.core g) f := by
  have regs : ∀ f, x.rd (.core g) f = s.rd (.core g) f := fun f => h.eqv (fun x => x.rd (.core g) f) (fun _ _ => rfl)
  unfold runMark State.finishAt
  rw [State.core_updCore_self, State.core_wr, State.core_wr, State.rd_updCore, State.rd_updCore, h.here, h.cycOf,
    State.rd_wr_field _ _ _ _ _ (by decide), State.rd_wr_self _ _ _ _ (by decide), State.rd_wr_self _ _ _ _ (by decide)]
  refine ⟨rfl, Nat.mod_mod .., rfl, fun f hf hTag hCycle => ?_⟩
  obtain ⟨tag, cycle⟩ := core_fields_beside_trace f hf hTag hCycle
  rw [State.rd_updCore, State.rd_wr_field _ _ _ _ _ cycle, State.rd_wr_field _ _ _ _ _ tag, regs]

theorem runCommitKv_to (h : s.CoreTo g c x) (hz : bits e.word 1 31 = 0) :
    s.CoreTo g (({ c with props := c.props ++ (List.range c.binds.length).map (fun b =>
      { bind := b, slot := cSlot e.word, lane := (c.slotOf e.word).lane,
        cp := if bit e.word 0 || ((c.slotOf e.word).spurPass && (c.slotOf e.word).spec) then none
          else some (dirWp c ((c.binds.getD b {}).dir) (c.slotOf e.word).lane) }) } : Core).doneIn e.idx (s.cycOf g + 1)) (runCommitKv g e x) := by
  unfold runCommitKv
  rw [if_neg (not_not_intro hz), h.here, h.cycOf]
  exact State.CoreTo.cast ((h.upd _).finishAt ..) rfl

/-! ### The configuration of the array unit (R89, R96, R120, R122, R277) -/

theorem runAccBase_to (h : s.CoreTo g c x) :
    s.CoreTo g (({ c with base := sgn 16 (bits e.word 0 16), arrayFree := s.cycOf g + 1 } : Core).doneIn e.idx (s.cycOf g + 1))
      (runAccBase g e x) :=
  (h.upd (fun c => { c with base := sgn 16 (bits e.word 0 16) })).arrayDone e 1

theorem runEdgeCfg_to (h : s.CoreTo g c x) :
    s.CoreTo g (({ c with clipT := bits e.word 0 16, clipEn := bit e.word 16, arrayFree := s.cycOf g + 1 } : Core).doneIn
      e.idx (s.cycOf g + 1)) (runEdgeCfg g e x) :=
  (h.upd (fun c => { c with clipT := bits e.word 0 16, clipEn := bit e.word 16 })).arrayDone e 1

theorem runKvSetup_to (h : s.CoreTo g c x) (hz : bits e.word 29 3 = 0) (hz' : bits e.word 32 64 = 0) (h0 : bits e.word 0 8 ≠ 0)
    (h255 : bits e.word 0 8 ≠ 255) :
    s.CoreTo g (({ c with
      kv := some { scale := bits e.word 0 8, head := bits e.word 8 3, isV := bit e.word 11, layer := bits e.word 12 9, route := bits e.word 21 8 },
      arrayFree := s.cycOf g + 1 } : Core).doneIn e.idx (s.cycOf g + 1)) (runKvSetup g e x) := by
  unfold runKvSetup
  dsimp only
  rw [if_neg (by simp [hz, hz', h0, h255])]
  exact (h.upd (fun c => { c with kv := some _ })).arrayDone e 1

theorem runKvSpec_to (h : s.CoreTo g c x) (hz : bits e.word 4 28 = 0) :
    s.CoreTo g (({ c with
      slots := (List.range 4).map (fun i => let sl := c.slots.getD i {}; { sl with spec := sl.spec || bit e.word i }),
      props := c.props.map (fun y => if bit e.word y.slot && (c.slots.getD y.slot {}).spurPass then { y with cp := none } else y),
      arrayFree := s.cycOf g + 1 } : Core).doneIn e.idx (s.cycOf g + 1)) (runKvSpec g e x) := by
  unfold runKvSpec
  rw [if_neg (not_not_intro hz)]
  exact State.CoreTo.cast ((h.upd _).arrayDone e 1) rfl

/-- KV_MAPLOAD without AUTO (R122). -/
theorem runKvMapload_to (h : s.CoreTo g c x) (hz : bits e.word 0 32 = 0) (hr : rangeOk [.slabArea] (cA e.word) (8 * cLen e.word) = true) :
    s.CoreTo g (({ (List.range (cLen e.word)).foldl (fun c i => c.cachePut (leNat (c.read (cA e.word + 8 * i) 8))) c with
      arrayFree := s.cycOf g + 2 * cLen e.word } : Core).doneIn e.idx (s.cycOf g + 2 * cLen e.word)) (runKvMapload g e x) := by
  have auto : bit e.word 0 = false := by simp only [bit, bits] at hz ⊢; simp; omega
  have reserved : bits e.word 1 31 = 0 := by simp only [bits] at hz ⊢; omega
  unfold runKvMapload
  dsimp only
  rw [if_neg (not_not_intro reserved), auto, if_neg Bool.false_ne_true, hr]
  exact (h.upd (fun c => (List.range (cLen e.word)).foldl (fun c i => c.cachePut (leNat (c.read (cA e.word + 8 * i) 8))) c)).arrayDone e _

end Sys2Proof.Machine
end

section
/-! SUPPORT. What the commands of the wide unit do to their core's record (R71, R93, R94, R284, R285). -/

namespace Sys2Proof.Machine

variable {s x : State} {g : Nat} {c : Core} {e : CmdEntry}

/-- The core once a wide-unit command that began in cycle `cyc` has kept the unit busy for `busy` cycles, with its result `lat` later. -/
def Core.wideEnd (c : Core) (e : CmdEntry) (cyc busy lat : Nat) : Core := ({ c with wideFree := cyc + busy } : Core).doneIn e.idx (cyc + busy + lat)

/-- A command over LEN elements whose ranges stand in the local store. -/
theorem State.CoreTo.wuRun {ranges : List (Nat × Nat)} (h : s.CoreTo g c x) (lat : Nat) (out : Core → List Byte) (hn : cLen e.word ≠ 0)
    (hr : ∀ r ∈ ranges, rangeOk [.localStore] r.1 r.2 = true) {n : Nat} (hd : rangeOk [.localStore] (cDst e.word) n = true) :
    s.CoreTo g ((c.write (cDst e.word) (out c)).wideEnd e (s.cycOf g) (cdiv (cLen e.word) 32) lat) (x.wuRun g e ranges lat out) := by
  have fits : ranges.any (fun (a, n) => !rangeOk [.localStore] a n) = false := by
    simpa only [List.any_eq_false, Bool.not_eq_true', Bool.not_eq_false] using hr
  unfold State.wuRun
  dsimp only
  rw [if_neg hn, fits, if_neg Bool.false_ne_true, h.here]
  exact (h.memWrite _ _ (areaOf_local hd)).wideDone e _ lat

theorem runBinary_to (f : F32 → F32 → F32) (lat : Nat) (m : WuFmt) (h : s.CoreTo g c x) (hn : cLen e.word ≠ 0)
    (ha : rangeOk [.localStore] (cA e.word) (vecBytes m.aBf (cLen e.word)) = true)
    (hb : rangeOk [.localStore] (cB e.word) (vecBytes m.bBf (cLen e.word)) = true)
    (hd : rangeOk [.localStore] (cDst e.word) (vecBytes m.dBf (cLen e.word)) = true) :
    s.CoreTo g (
      let n := cLen e.word
      let r := List.zipWith f (c.vec m.aBf (cA e.word) n) (c.vec m.bBf (cB e.word) n)
      (c.write (cDst e.word) (vecOut m.dBf r)).wideEnd e (s.cycOf g) (cdiv n 32) lat) (runBinary f lat m g e x) := by
  unfold runBinary
  exact State.CoreTo.cast (h.wuRun lat _ hn (by simp [ha, hb, hd]) hd) rfl

theorem runUnary_to (f : F32 → F32) (lat : Nat) (m : WuFmt) (h : s.CoreTo g c x) (hn : cLen e.word ≠ 0)
    (ha : rangeOk [.localStore] (cA e.word) (vecBytes m.aBf (cLen e.word)) = true)
    (hd : rangeOk [.localStore] (cDst e.word) (vecBytes m.dBf (cLen e.word)) = true) :
    s.CoreTo g (
      let r := (c.vec m.aBf (cA e.word) (cLen e.word)).map f
      (c.write (cDst e.word) (vecOut m.dBf r)).wideEnd e (s.cycOf g) (cdiv (cLen e.word) 32) lat) (runUnary f lat m g e x) := by
  unfold runUnary
  exact State.CoreTo.cast (h.wuRun lat _ hn (by simp [ha, hd]) hd) rfl

theorem runFma_to (m : WuFmt) (h : s.CoreTo g c x) (hn : cLen e.word ≠ 0)
    (ha : rangeOk [.localStore] (cA e.word) (vecBytes m.aBf (cLen e.word)) = true)
    (hb : rangeOk [.localStore] (cB e.word) (vecBytes m.bBf (cLen e.word)) = true)
    (hd : rangeOk [.localStore] (cDst e.word) (vecBytes m.dBf (cLen e.word)) = true) :
    s.CoreTo g (
      let n := cLen e.word
      let r := List.zipWith (fun (y : F32 × F32) d => ffma y.1 y.2 d) ((c.vec m.aBf (cA e.word) n).zip (c.vec m.bBf (cB e.word) n))
        (c.vec m.dBf (cDst e.word) n)
      (c.write (cDst e.word) (vecOut m.dBf r)).wideEnd e (s.cycOf g) (cdiv n 32) 4) (runFma m g e x) := by
  unfold runFma
  exact State.CoreTo.cast (h.wuRun 4 _ hn (by simp [ha, hb, hd]) hd) rfl

theorem runReduce_to (m : WuFmt) (h : s.CoreTo g c x) (hn : cLen e.word ≠ 0)
    (ha : rangeOk [.localStore] (cA e.word) (vecBytes m.aBf (cLen e.word)) = true) (hd : rangeOk [.localStore] (cDst e.word) 4 = true) :
    s.CoreTo g (
      let r := reduceVec (bit e.word 0) (c.vec m.aBf (cA e.word) (cLen e.word))
      (c.write (cDst e.word) (leBytes 4 r.toNat)).wideEnd e (s.cycOf g) (cdiv (cLen e.word) 32) 9) (runReduce m g e x) := by
  unfold runReduce
  exact State.CoreTo.cast (h.wuRun 9 _ hn (by simp [ha, hd]) hd) rfl

theorem runRope_to (m : WuFmt) (half : Bool) (h : s.CoreTo g c x) (hn : cLen e.word ≠ 0)
    (ha : rangeOk [.localStore] (cA e.word) (vecBytes m.aBf (cLen e.word)) = true)
    (hb : rangeOk [.localStore] (cB e.word) (vecBytes m.bBf (2 * (cLen e.word / 2))) = true)
    (hd : rangeOk [.localStore] (cDst e.word) (vecBytes m.dBf (cLen e.word)) = true) :
    s.CoreTo g (
      let n := cLen e.word
      let r := ropeVec half (c.vec m.aBf (cA e.word) n) (c.vec m.bBf (cB e.word) (2 * (n / 2)))
      (c.write (cDst e.word) (vecOut m.dBf r)).wideEnd e (s.cycOf g) (cdiv n 32) 6) (runRope m half g e x) := by
  unfold runRope
  exact State.CoreTo.cast (h.wuRun 6 _ hn (by simp [ha, hb, hd]) hd) rfl

/-- WU_CVT. -/
theorem runCvt_to {a b : CvtFmt} (h : s.CoreTo g c x) (hf : cvtFmts e.word = (a, b)) (hn : cLen e.word ≠ 0)
    (ha : rangeOk [.localStore] (cA e.word) (cvtBytes a (cLen e.word)) = true)
    (hd : rangeOk [.localStore] (cDst e.word) (cvtBytes b (cLen e.word)) = true) :
    s.CoreTo g (let y := cvtSource c a (cA e.word) (cLen e.word)
      let z := cvtTarget b y.1
      let k : Core := { c with cnt := { c.cnt with nanIn := c.cnt.nanIn + y.2, clip := c.cnt.clip + z.2.1, nanOut := c.cnt.nanOut + z.2.2 } }
      let r := (if b = .mxfp4 then k.addClips (cSlot e.word) z.2.1 false else k).write (cDst e.word) z.1
      r.wideEnd e (s.cycOf g) (cdiv (cLen e.word) 32) 4) (runCvt g e x) := by
  unfold runCvt
  dsimp only
  rw [hf]
  dsimp only
  rw [if_neg hn, ha, hd, Bool.not_true, Bool.or_false, if_neg Bool.false_ne_true, h.here]
  exact State.CoreTo.cast (((h.upd _).memWrite _ _ (areaOf_local hd)).wideDone e _ 4) rfl

/-- WU_SPDELTA. -/
theorem runSpdelta_to {n : Nat} (h : s.CoreTo g c x) (hn : cLen e.word ≠ 0) (hz : bits e.word 1 7 = 0)
    (ha : rangeOk [.localStore] (cA e.word) (32 * cLen e.word) = true) (hb : rangeOk lsOrBuf (cB e.word) (n * actBytes (bit e.word 0)) = true)
    (hd : rangeOk [.localStore] (cDst e.word) 512 = true) :
    s.CoreTo g (
      let r := spStream c (cB e.word) n (bit e.word 0) (4 * cLen e.word) (c.read (cA e.word) (32 * cLen e.word))
        { vals := c.vec false (cDst e.word) 128 }
      let k : Core := { c with cnt := { c.cnt with nanIn := c.cnt.nanIn + r.nans, deltaFmt := c.cnt.deltaFmt + b2n r.bad } }
      (k.write (cDst e.word) (vecOut false r.vals)).wideEnd e (s.cycOf g) (max r.cycles 1) 6) (runSpdelta n g e x) := by
  unfold runSpdelta
  dsimp only
  rw [if_neg (by simp [hn, hz]), ha, hb, hd, Bool.not_true, Bool.or_false, Bool.or_false, if_neg Bool.false_ne_true, h.here]
  exact State.CoreTo.cast (((h.upd _).memWrite _ _ (areaOf_local hd)).wideDone e _ 6) rfl

/-- A slab copy that starts. -/
theorem startCopy_to (h : s.CoreTo g c x) (hb : rangeOk [.localStore] (cB e.word) (32 * cLen e.word) = true) :
    s.CoreTo g (let busy := cdiv (32 * cLen e.word) 640
      ({ c.write (cB e.word) (c.read (cA e.word) (32 * cLen e.word)) with portFree := s.cycOf g + busy } : Core).wideEnd e
        (s.cycOf g) busy 2) (startCopy x g e) := by
  unfold startCopy
  dsimp only
  rw [h.here, h.cycOf]
  exact State.CoreTo.cast (((h.memWrite _ _ (areaOf_local hb)).upd _).wideDone e _ 2) rfl

/-- WU_COPY with the slab read port free. -/
theorem runCopy_to (h : s.CoreTo g c x) (hn : cLen e.word ≠ 0) (ha : rangeOk [.slabArea] (cA e.word) (32 * cLen e.word) = true)
    (hb : rangeOk [.localStore] (cB e.word) (32 * cLen e.word) = true) (hp : c.portReady (s.cycOf g) = true) :
    s.CoreTo g (let busy := cdiv (32 * cLen e.word) 640
      ({ c.write (cB e.word) (c.read (cA e.word) (32 * cLen e.word)) with portFree := s.cycOf g + busy } : Core).wideEnd e
        (s.cycOf g) busy 2) (runCopy g e x) := by
  unfold runCopy
  dsimp only
  rw [if_neg hn, ha, hb, Bool.not_true, Bool.or_false, if_neg Bool.false_ne_true, h.here, h.cycOf, if_pos hp]
  exact startCopy_to h hb

end Sys2Proof.Machine
end

section
/-! SUPPORT. What a step error, a pass and a stream do to their core's record, and what the slab read port starts (R62 to R67, R71, R75, R79,
R117). -/

namespace Sys2Proof.Machine

variable {s x : State} {g : Nat} {c : Core} {e : CmdEntry}

/-! ### Step errors (R75, R79) -/

/-- A core keeps the first step error of its tick, and everything else of its record. -/
theorem State.core_stepErr (s : State) (g : Nat) (code : StepCode) (cmd : Nat) :
    ∃ r : StepErr, r.code = code.num ∧ r.cmd = cmd ∧ (s.stepErr g code cmd).core g = { s.core g with err := (s.core g).err.or (some r) } := by
  have counted : (if code = .sendMiss then s.inc (.core g) core.SEND_MISS_CNT 1 else s).core g = s.core g := by split <;> rfl
  unfold State.stepErr
  dsimp only
  rw [counted]
  split
  · next f hf => exact ⟨⟨code.num, cmd, 0, 0, false⟩, rfl, rfl, by rw [counted, hf, Option.some_or, ← hf]⟩
  · next hf => exact ⟨_, rfl, rfl, by rw [State.core_wr, State.core_updCore_self, counted, hf, Option.none_or]⟩

/-- The first step error of a tick stops the sequencer. -/
theorem State.seqState_stepErr (h : (s.core g).err = none) (code : StepCode) (cmd : Nat) :
    (s.stepErr g code cmd).rd (.core g) core.SEQ_STATE = 3 := by
  have counted : ((if code = .sendMiss then s.inc (.core g) core.SEND_MISS_CNT 1 else s).core g).err = none := by
    split <;> exact h
  unfold State.stepErr
  dsimp only
  rw [counted]
  exact State.rd_wr_self _ _ _ _ (by decide)

/-- A command that fails is issued with its step error, and has no effect. -/
theorem State.core_fail (s : State) (g : Nat) (e : CmdEntry) (code : StepCode) :
    ∃ r : StepErr, r.code = code.num ∧ r.cmd = e.idx ∧
      (s.fail g e code).core g = ({ s.core g with err := (s.core g).err.or (some r) } : Core).openIn e.idx false false := by
  obtain ⟨r, hcode, hcmd, hr⟩ := s.core_stepErr g code e.idx
  unfold State.fail State.issueOpen
  rw [State.core_updCore_self, hr]
  exact ⟨r, hcode, hcmd, rfl⟩

/-- A command that fails records its step error, and stops the sequencer. -/
theorem State.fail_stops (h : (s.core g).err = none) (code : StepCode) :
    (∃ r, ((s.fail g e code).core g).err = some r ∧ r.code = code.num ∧ r.cmd = e.idx) ∧ (s.fail g e code).rd (.core g) core.SEQ_STATE = 3 := by
  obtain ⟨r, hcode, hcmd, hr⟩ := s.core_fail g e code
  exact ⟨⟨r, by rw [hr, h]; rfl, hcode, hcmd⟩, (State.rd_updCore ..).trans (State.seqState_stepErr h ..)⟩

theorem State.lfa_fail (s : State) (g : Nat) (e : CmdEntry) (code : StepCode) : ((s.fail g e code).core g).lfa = (s.core g).lfa := by
  obtain ⟨r, -, -, hr⟩ := s.core_fail g e code
  rw [hr]
  rfl

/-! ### Passes (R62 to R67) -/

/-- The core once a pass that began in cycle `cyc` has added its terms: `low` where its weights come from the local store, `z` the depth of
its array (R65). -/
def Core.passEnd (c : Core) (e : CmdEntry) (wf : Fmt) (cols : Nat → Nat) (low : Bool) (z cyc : Nat) : Core :=
  let w := e.word
  let a8 : Bool := cAfmt w = 1
  let d := cyc + passTime wf a8 (cNblk w) (cNv w) (if low then 512 else 640) z
  let k := passEffect wf a8 (!cF w) (cA w) (cB w) (cNblk w) (cNv w) (cStride w) (cLfa0 w) ((arraysOf (cArrays w)).map (fun a => (a, cols a))) c
  ({ k with arrayFree := d, portFree := if low then k.portFree else cyc + passFill wf 640 + cdiv (cNblk w * streamBytes wf) 640 } : Core).doneIn e.idx d

theorem startPass_to {wf : Fmt} (h : s.CoreTo g c x) (hf : weightFmt (cFmt e.word) = some wf) :
    s.CoreTo g (c.passEnd e wf (s.columns g) (cLow e.word) (if cOp e.word = 1 then 36 else 4) (s.cycOf g)) (startPass x g e) := by
  have sameCols : x.columns g = s.columns g := h.eqv (fun x => x.columns g) (fun _ _ => rfl)
  unfold startPass
  dsimp only
  rw [hf]
  dsimp only
  rw [h.cycOf, sameCols]
  exact State.CoreTo.cast ((h.upd _).finishAt ..) rfl

theorem State.CoreTo.passCheck (h : s.CoreTo g c x) (w : Nat) : Machine.passCheck x g w = Machine.passCheck s g w :=
  h.eqv (fun x => Machine.passCheck x g w) (fun _ _ => rfl)

/-- A pass that passes its checks, as it starts or waits. -/
theorem runPass_passed (skew : Bool) (h : s.CoreTo g c x) (hc : passCheck s g e.word = none) :
    runPass g skew e x = (let y := x.updCore g (fun c => { c with skew := skew })
      if cLow e.word || c.portReady (s.cycOf g) then startPass y g e else y.issueOpen g e.idx false true) := by
  have skewed := h.upd (fun c => { c with skew := skew })
  unfold runPass
  dsimp only
  rw [skewed.passCheck, hc]
  dsimp only
  rw [skewed.here, skewed.cycOf]
  rfl

/-- From the local store, or with the slab read port free, a pass starts at once. -/
theorem runPass_starts {wf : Fmt} {z : Nat} (skew : Bool) (h : s.CoreTo g c x) (hf : weightFmt (cFmt e.word) = some wf)
    (hc : passCheck s g e.word = none) (hz : (if cOp e.word = 1 then 36 else 4) = z) (hp : cLow e.word = true ∨ c.portReady (s.cycOf g) = true) :
    s.CoreTo g (({ c with skew := skew } : Core).passEnd e wf (s.columns g) (cLow e.word) z (s.cycOf g)) (runPass g skew e x) := by
  have starts : (cLow e.word || c.portReady (s.cycOf g)) = true := Bool.or_eq_true_iff.2 hp
  rw [runPass_passed skew h hc, if_pos starts, ← hz]
  exact startPass_to (h.upd (fun c => { c with skew := skew })) hf

/-- While the slab read port is not free, a pass from the slab waits for it. -/
theorem runPass_waits (skew : Bool) (h : s.CoreTo g c x) (hc : passCheck s g e.word = none) (hl : cLow e.word = false)
    (hp : c.portReady (s.cycOf g) = false) :
    s.CoreTo g (({ c with skew := skew } : Core).openIn e.idx false true) (runPass g skew e x) := by
  rw [runPass_passed skew h hc, hl, hp]
  exact (h.upd (fun c => { c with skew := skew })).issueOpen ..

/-- A pass that fails its checks ends in its step error. -/
theorem runPass_fails {code : StepCode} (skew : Bool) (h : s.CoreTo g c x) (hc : passCheck s g e.word = some code) :
    runPass g skew e x = (x.updCore g (fun c => { c with skew := skew })).fail g e code := by
  unfold runPass
  dsimp only
  rw [(h.upd (fun c => { c with skew := skew })).passCheck, hc]

/-- A pass beyond accumulator 255, or one of more than 4 vectors in tree mode, is ILLEGAL (R66). -/
theorem passCheck_illegal {w : Nat} (h : 256 < cLfa0 w + cNv w ∨ cOp w = 0 ∧ 4 < cNv w) : passCheck s g w = some .illegal := by
  unfold passCheck
  split
  · rfl
  · exact if_pos (.inr (.inr (.inr h)))

/-! ### Streams (R117) -/

/-- The core once a stream that began in cycle `cyc` has been folded into its heads: `low` where it comes from the staging. -/
def Core.streamEnd (c : Core) (e : CmdEntry) (low : Bool) (cyc : Nat) : Core :=
  let l := c.selection e.word
  let n := (tilesOf l).length
  let d := if n = 0 then cyc + 4 else cyc + 7 + max (n * c.heads.length) (cdiv (n * 4096) (if low then 512 else 640)) + 12
  let k := streamEffect e.word l c
  ({ k with attFree := d, portFree := if low ∨ n = 0 then k.portFree else cyc + 7 + cdiv (n * 4096) 640 } : Core).doneIn e.idx d

theorem startStream_to (h : s.CoreTo g c x) : s.CoreTo g (c.streamEnd e (bit e.word 31) (s.cycOf g)) (startStream x g e) := by
  unfold startStream
  dsimp only
  rw [h.cycOf, h.here]
  exact State.CoreTo.cast ((h.upd _).finishAt ..) rfl

/-! ### The slab read port (R65, R71, R117) -/

/-- With the port free, the unit of the earliest waiting command starts it. -/
theorem slabReadPortStart_starts (hq : (s.core g).queue.find? (fun e => e.wait) = some e) (hr : s.coreRuns g = true)
    (hp : (s.core g).portFree ≤ s.cycOf g) :
    (unitOf (cOp e.word) = some .array → slabReadPortStart s g = startPass s g e) ∧
    (unitOf (cOp e.word) = some .attention → slabReadPortStart s g = startStream s g e) ∧
    (unitOf (cOp e.word) = some .wide → slabReadPortStart s g = startCopy s g e) := by
  have free : (s.coreRuns g && decide ((s.core g).portFree ≤ s.cycOf g)) = true := by rw [hr, decide_eq_true hp]; rfl
  unfold slabReadPortStart
  dsimp only
  rw [hq]
  dsimp only
  rw [if_pos free]
  refine ⟨fun hu => ?_, fun hu => ?_, fun hu => ?_⟩ <;> rw [hu]

theorem State.CoreTo.refl (s : State) (g : Nat) : s.CoreTo g (s.core g) s := ⟨rfl, fun _ _ => rfl, rfl⟩

end Sys2Proof.Machine
end

section
/-! SUPPORT. What drains, windows, semaphores and sends do to their core's record, and what a finding of the hardware does as a command issues
(R62, R72, R75, R91, R96, R106, R121, R135 to R144, R159 to R161). -/

namespace Sys2Proof.Machine

variable {s x : State} {g : Nat} {c : Core} {e : CmdEntry}

/-! ### Drains (R91, R96, R106, R121) -/

theorem Core.mem_doneIn {i d : Nat} {y : CmdEntry} (hy : y ∈ (c.doneIn i d).queue) (hi : y.idx = i) : y.issued = true ∧ y.doneAt = some d := by
  obtain ⟨z, -, rfl⟩ := List.mem_map.1 hy
  by_cases hz : z.idx = i
  · rw [if_pos hz]
    exact ⟨rfl, rfl⟩
  · rw [if_neg hz] at hi
    exact absurd hi hz

/-- The core once a drain of `n` cycles that began in cycle `cyc` is done. -/
def Core.drainEnd (c : Core) (e : CmdEntry) (cyc n : Nat) : Core := ({ c with arrayFree := cyc + (6 + n) } : Core).doneIn e.idx (cyc + (6 + n))

theorem State.CoreTo.drainCheck (h : s.CoreTo g c x) (hk : c.kv = (s.core g).kv) (w : Nat) : Machine.drainCheck x g w = Machine.drainCheck s g w := by
  have regs : ∀ p f, x.rd p f = s.rd p f := fun p f => h.eqv (fun x => x.rd p f) (fun _ _ => rfl)
  simp only [Machine.drainCheck, regs, h.here, hk]

/-- What a drain does with vector `v`: its bytes are stored, or leave as append flits of partition `p`. -/
def State.drainStep (g w : Nat) (k : KvSetup) (p : Nat) (arrays : List (Nat × Nat)) (s : State) (v : Nat) : State :=
  let r := drainVector w k.scale arrays v (s.core g)
  let s := s.updCore g (fun _ => r.1)
  if cLow w then
    let sl := r.1.slots.getD ((cLfa0 w + v) % 4) {}
    s.updCore g (fun c => { c with outFlits := c.outFlits ++ appendFlits p ((s.part p).tick % 256) sl.lane sl.pos k r.2 })
  else s.memWrite g (cA w + v * cStride w * 16) r.2

/-- The arrays that a drain selects, each with the columns that it presents. -/
def State.drainArrays (s : State) (g w : Nat) : List (Nat × Nat) := (arraysOf (cArrays w)).map (fun a => (a, s.columns g a))

/-- A drain that passes its checks, vector by vector. -/
theorem runDrain_passed (hc : drainCheck x g e.word = none) :
    runDrain g e x =
      let y := (List.range (cNv e.word)).foldl
        (State.drainStep g e.word ((x.core g).kv.getD {}) ((x.corePart g).getD 0) (x.drainArrays g e.word)) x
      let d := x.cycOf g + (6 + (arraysOf (cArrays e.word)).length * cNv e.word)
      (y.updCore g (fun c => { c with arrayFree := d })).finishAt g e.idx d := by
  unfold runDrain
  dsimp only
  rw [hc, ← Nat.add_assoc, List.length_map]
  rfl

theorem State.CoreTo.drainStep_stores {w v : Nat} (h : s.CoreTo g c x) (k : KvSetup) (p : Nat) (arrays : List (Nat × Nat)) (hl : cLow w = false)
    (ha : areaOf (cA w + v * cStride w * 16) ≠ .slabArea) :
    s.CoreTo g (let r := drainVector w k.scale arrays v c
      r.1.write (cA w + v * cStride w * 16) r.2) (x.drainStep g w k p arrays v) := by
  unfold State.drainStep
  dsimp only
  rw [hl, if_neg Bool.false_ne_true, h.here]
  exact (h.upd (fun _ => (drainVector w k.scale arrays v c).1)).memWrite _ _ ha

theorem State.CoreTo.drainStep_sends {w : Nat} (v : Nat) (h : s.CoreTo g c x) (k : KvSetup) (p : Nat) (arrays : List (Nat × Nat)) (hl : cLow w = true) :
    s.CoreTo g (let r := drainVector w k.scale arrays v c
      let sl := r.1.slots.getD ((cLfa0 w + v) % 4) {}
      { r.1 with outFlits := r.1.outFlits ++ appendFlits p ((s.part p).tick % 256) sl.lane sl.pos k r.2 }) (x.drainStep g w k p arrays v) := by
  have drained := h.upd (fun _ => (drainVector w k.scale arrays v c).1)
  have samePart : (x.updCore g (fun _ => (drainVector w k.scale arrays v c).1)).part p = s.part p :=
    drained.eqv (fun x => x.part p) (fun _ _ => rfl)
  unfold State.drainStep
  dsimp only
  rw [hl, if_pos rfl, h.here, samePart]
  exact State.CoreTo.cast (drained.upd _) rfl

theorem appendFlits_length (p st lane pos : Nat) (k : KvSetup) (codes : List Byte) : (appendFlits p st lane pos k codes).length = 5 := rfl

/-- A drain of one vector: what its step does, and the unit held. -/
theorem runDrain_one {k : Core} (h : s.CoreTo g c x) (hk : c.kv = (s.core g).kv) (hc : drainCheck s g e.word = none) (hn : cNv e.word = 1)
    (hs : s.CoreTo g k (x.drainStep g e.word ((s.core g).kv.getD {}) ((s.corePart g).getD 0) (s.drainArrays g e.word) 0)) :
    s.CoreTo g (k.drainEnd e (s.cycOf g) (arraysOf (cArrays e.word)).length) (runDrain g e x) := by
  have sameArrays : x.drainArrays g e.word = s.drainArrays g e.word := h.eqv (fun x => x.drainArrays g e.word) (fun _ _ => rfl)
  rw [runDrain_passed ((h.drainCheck hk _).trans hc), hn, h.here, hk, h.corePart, h.cycOf, sameArrays, Nat.mul_one]
  exact State.CoreTo.cast ((hs.upd _).finishAt ..) rfl

/-! ### Windows and semaphores (R135 to R137, R141, R144) -/

/-- The core with window `i` opened as `v`: the flits `rel` are released, and the counts of the window and of its route entries start again. -/
def Core.openWin (c : Core) (i : Nat) (v : Window) (rel : List EjFlit) (routes : Table Nat) : Core :=
  { c.updWin i (fun _ => v) with
    rel := c.rel ++ rel,
    counts := c.counts.filter (fun x => x.1 ≠ i),
    applied := c.applied.filter (fun x => rtWid (Table.get 0 routes x.1) ≠ i) }

theorem Core.win_openWin (c : Core) (i k : Nat) (v : Window) (rel : List EjFlit) (routes : Table Nat) :
    (c.openWin i v rel routes).win k = if k = i then v else c.win k :=
  Table.get_upd ({} : Window) c.wins i k (fun _ => v)

theorem runWinOpen_to (h : s.CoreTo g c x) (hz : bits e.word 6 2 = 0) (hz' : bits e.word 28 4 = 0) (hn : cLen e.word ≠ 0) (ha : cA e.word % 32 = 0)
    (ho : (c.win (bits e.word 0 6)).openedIn = false)
    (hr : rangeOk [.localStore, .inputBuf, .slabArea] (cA e.word) (32 * cLen e.word) = true) :
    s.CoreTo g (
      let wid := bits e.word 0 6
      let stamp := s.tickOf g % 256
      let held := (c.win wid).early
      let v : Window := ⟨cA e.word, cLen e.word, bits e.word 8 20, 0, stamp, .opened, true, false, held.filter (fun f => f.flit.stamp ≠ stamp)⟩
      let rel := (held.filter (fun f => f.flit.stamp = stamp)).map (fun f => { f with since := s.clock + 1 })
      (c.openWin wid v rel (s.router (s.routerOf g)).routes).doneIn e.idx (s.cycOf g + 1)) (runWinOpen g e x) := by
  have tick : x.tickOf g = s.tickOf g := h.eqv (fun x => x.tickOf g) (fun _ _ => rfl)
  have routes : x.router (x.routerOf g) = s.router (s.routerOf g) := h.eqv (fun x => x.router (x.routerOf g)) (fun _ _ => rfl)
  have clock : x.clock = s.clock := h.eqv (fun x => x.clock) (fun _ _ => rfl)
  unfold runWinOpen
  dsimp only
  rw [h.here, if_neg (by simp [hz, hz', hn, ha, ho]), hr, Bool.not_true, if_neg Bool.false_ne_true, tick, routes, clock, h.cycOf]
  exact State.CoreTo.cast ((h.upd _).finishAt ..) rfl

theorem runWinClose_to (h : s.CoreTo g c x) (hz : bits e.word 6 26 = 0) (ha : cA e.word = 0) (hn : cLen e.word = 0)
    (ho : (c.win (bits e.word 0 6)).state = .opened) (hc : (c.win (bits e.word 0 6)).closing = false) :
    s.CoreTo g ((c.updWin (bits e.word 0 6) (fun v => { v with closing := true })).doneIn e.idx (s.cycOf g + 1)) (runWinClose g e x) := by
  unfold runWinClose
  dsimp only
  rw [h.here, if_neg (by simp [hz, ha, hn, ho, hc]), h.cycOf]
  exact (h.upd (fun c => c.updWin (bits e.word 0 6) (fun v => { v with closing := true }))).finishAt ..

theorem runWinWait_to (h : s.CoreTo g c x) (hz : bits e.word 6 26 = 0) (ha : cA e.word = 0) (hn : cLen e.word = 0)
    (ho : (c.win (bits e.word 0 6)).openedIn = true) :
    s.CoreTo g (let v := c.win (bits e.word 0 6)
      let o := c.openIn e.idx true false
      if v.expect ≤ v.count then o.doneIn e.idx (s.cycOf g) else o) (runWinWait g e x) := by
  have opened := h.issueOpen e.idx true false
  have legal : ¬(bits e.word 6 26 ≠ 0 ∨ cA e.word ≠ 0 ∨ cLen e.word ≠ 0 ∨ (!(c.win (bits e.word 0 6)).openedIn) = true) := by simp [hz, ha, hn, ho]
  unfold runWinWait
  dsimp only
  rw [h.here, if_neg legal, opened.cycOf]
  split
  · exact opened.finishAt ..
  · exact opened

theorem runSemSignal_to (h : s.CoreTo g c x) (hv : c.sem (bits e.word 0 5) < 65535) :
    s.CoreTo g ((c.setSem (bits e.word 0 5) (c.sem (bits e.word 0 5) + 1)).doneIn e.idx (s.cycOf g + 1)) (runSemSignal g e x) := by
  have raised : x.raiseSem g (bits e.word 0 5) e.idx = x.updCore g (fun k => k.setSem (bits e.word 0 5) (c.sem (bits e.word 0 5) + 1)) := by
    unfold State.raiseSem
    dsimp only
    rw [h.here, if_neg (by omega)]
  unfold runSemSignal
  rw [raised, h.cycOf]
  exact State.CoreTo.cast ((h.upd _).finishAt ..) rfl

/-- A semaphore raised above 65,535 is step error QUEUE. -/
theorem runSemSignal_overflows (h : s.CoreTo g c x) (hv : 65535 ≤ c.sem (bits e.word 0 5)) :
    ∃ r : StepErr, r.code = 9 ∧ (runSemSignal g e x).core g =
      (({ c with err := c.err.or (some r) } : Core).doneIn e.idx (s.cycOf g + 1)) := by
  obtain ⟨r, hcode, -, hr⟩ := x.core_stepErr g .queue e.idx
  have raised : x.raiseSem g (bits e.word 0 5) e.idx = x.stepErr g .queue e.idx := by
    unfold State.raiseSem
    dsimp only
    rw [h.here, if_pos (by omega)]
  unfold runSemSignal State.finishAt
  rw [raised, State.core_updCore_self, hr, h.here, h.cycOf]
  exact ⟨r, hcode, rfl⟩

/-! ### Sends (R159 to R161) -/

theorem runSend_to (h : s.CoreTo g c x) (hc : sendCheck e.word = none) :
    s.CoreTo g (let lane := if cAll e.word then 0 else (c.slotOf e.word).lane
      let job : SendJob := ⟨e.idx, cA e.word, max (bits e.word 16 8) 1, cLen e.word, bits e.word 8 4, bits e.word 0 8, lane, none⟩
      ({ c with send := some job } : Core).openIn e.idx false false) (runSend g e x) := by
  unfold runSend
  dsimp only
  rw [hc, h.here]
  exact State.CoreTo.cast ((h.upd _).issueOpen ..) rfl

theorem runSendSpine_to (h : s.CoreTo g c x) (hn : cLen e.word ≠ 0) (ha : rangeOk lsOrBuf (cA e.word) (32 * cLen e.word) = true) :
    s.CoreTo g (let job : SendJob := ⟨e.idx, cA e.word, 1, cLen e.word, 0, 0, (c.slotOf e.word).lane, some (bits e.word 0 16)⟩
      ({ c with send := some job } : Core).openIn e.idx false false) (runSendSpine g e x) := by
  unfold runSendSpine
  dsimp only
  rw [if_neg hn, ha, Bool.not_true, if_neg Bool.false_ne_true]
  exact State.CoreTo.cast ((h.upd _).issueOpen ..) rfl

/-! ### Findings of the hardware (R62, R72, R75) -/

theorem State.core_err (s : State) (p : Page) (b : Nat) (inj : Bool) (k : Nat) : (s.err p b inj).core k = s.core k := by
  rw [State.core, State.core, (State.err_frame s p b inj).cores rfl]

/-- A parity mismatch or an uncorrectable error is counted or reported, and then a step error. -/
theorem State.upset_stops {u : Upset} {code : StepCode} (s : State) (g idx : Nat)
    (h : (u, code) ∈ [(Upset.wregParity, StepCode.wregParity), (.lsUe, .lsUe), (.slabUe, .slabUe)]) :
    ∃ y : State, y.core g = s.core g ∧ s.upset g idx u = (y.stepErr g code idx, false) := by
  simp only [List.mem_cons, List.not_mem_nil, or_false, Prod.mk.injEq] at h
  obtain ⟨rfl, rfl⟩ | ⟨rfl, rfl⟩ | ⟨rfl, rfl⟩ := h
  · exact ⟨(s.inc (.core g) core.WREG_PAR_CNT 1).err (.coreWin (tileOf g)) 2, State.core_err (s.inc ..) .., rfl⟩
  · exact ⟨s.err (.coreWin (tileOf g)) 3, State.core_err .., rfl⟩
  · exact ⟨s.err (.coreWin (tileOf g)) 3, State.core_err .., rfl⟩

/-- Such a command is issued with its step error, and has no effect. -/
theorem State.issue_stops {u : Upset} {code : StepCode} {op : Nat} {un : Unit4} (run : CmdEntry → State → State) (h : s.Takes g op un e)
    (hu : (u, code) ∈ [(Upset.wregParity, StepCode.wregParity), (.lsUe, .lsUe), (.slabUe, .slabUe)]) :
    ∃ y : State, y.core g = (s.core g).issuedIn (s.cycOf g) ∧ s.issue g op u run = y.fail g e code := by
  obtain ⟨y, hy, stopped⟩ := State.upset_stops (s.updCore g (fun c => { c with issuedAt := some (s.cycOf g) })) g e.idx hu
  refine ⟨y, hy.trans (State.core_updCore_self ..), ?_⟩
  unfold State.issue
  rw [h.oldest, h.unit]
  dsimp only
  rw [if_pos ⟨h.opcode, h.accepts⟩, stopped]
  rfl

/-- A corrected local store error is counted, and the command goes on. -/
theorem State.issue_counts {op : Nat} {un : Unit4} (run : CmdEntry → State → State) (h : s.Takes g op un e) :
    s.issue g op .lsCorr run = run e ((s.began g).inc (.core g) core.LS_ECC_CORR 1) := by
  unfold State.issue
  rw [h.oldest, h.unit]
  dsimp only
  rw [if_pos ⟨h.opcode, h.accepts⟩]
  rfl

theorem cragPage_ne_core (g : Nat) : (Page.core g).id ≠ (cragPage (cragOf g)).id := by
  simp only [cragPage, Page.id, cragOf, cragIn, tileOf, cxOf, cyOf]
  omega

/-- A write of a core's memory is shown by no register of a core. -/
theorem State.rd_memWrite (s : State) (g a : Nat) (bs : List Byte) {f : Field} (hf : f.off * 32 + f.lsb < 131072) :
    (s.memWrite g a bs).rd (.core g) f = s.rd (.core g) f := by
  unfold State.memWrite
  split
  · split
    · rfl
    · dsimp only
      split
      · rfl
      · exact State.rd_setFlag_page _ _ _ _ _ _ (cragPage_ne_core g) (by decide) hf
  · rfl

/-- A step error is shown in SEQ_STATE and SEND_MISS_CNT alone. -/
theorem State.rd_stepErr (s : State) (g : Nat) (code : StepCode) (cmd : Nat) {f : Field}
    (hs : f.off * 32 + f.lsb ≠ core.SEQ_STATE.off * 32 + core.SEQ_STATE.lsb)
    (hm : f.off * 32 + f.lsb ≠ core.SEND_MISS_CNT.off * 32 + core.SEND_MISS_CNT.lsb) :
    (s.stepErr g code cmd).rd (.core g) f = s.rd (.core g) f := by
  have counted : (if code = .sendMiss then s.inc (.core g) core.SEND_MISS_CNT 1 else s).rd (.core g) f = s.rd (.core g) f := by
    split
    · exact State.rd_wr_field _ _ _ _ _ hm
    · rfl
  unfold State.stepErr
  dsimp only
  split
  · exact counted
  · exact (State.rd_wr_field _ _ _ _ _ hs).trans counted

/-- An elementwise command is shown in the registers of a step error alone. -/
theorem State.rd_wuRun (s : State) (g : Nat) (e : CmdEntry) (ranges : List (Nat × Nat)) (lat : Nat) (out : Core → List Byte) {f : Field}
    (hf : f.off * 32 + f.lsb < 131072) (hs : f.off * 32 + f.lsb ≠ core.SEQ_STATE.off * 32 + core.SEQ_STATE.lsb)
    (hm : f.off * 32 + f.lsb ≠ core.SEND_MISS_CNT.off * 32 + core.SEND_MISS_CNT.lsb) :
    (s.wuRun g e ranges lat out).rd (.core g) f = s.rd (.core g) f := by
  unfold State.wuRun
  dsimp only
  split
  · exact State.rd_stepErr _ _ _ _ hs hm
  · split
    · exact State.rd_stepErr _ _ _ _ hs hm
    · exact State.rd_memWrite _ _ _ _ hf

end Sys2Proof.Machine
end

section
/-! SUPPORT. The bytes of its core's memory that a command leaves alone, meaning by meaning: those outside the range it stores to (R59, R71, R77,
R78, R96, R106, R115, R118, R285). -/

namespace Sys2Proof.Machine

variable {a g : Nat} {e : CmdEntry}

/-! ### The sequencer and the slab read port -/

theorem State.Keeps.foldl {α : Type} (f : State → α → State) (l : List α) (s : State) (h : ∀ x, ∀ v ∈ l, State.Keeps g a x (f x v)) :
    State.Keeps g a s (l.foldl f s) := by
  induction l generalizing s with
  | nil => exact State.Keeps.refl s
  | cons v l ih => exact (ih (f s v) (fun x y hy => h x y (List.mem_cons_of_mem _ hy))).step (h s v (List.mem_cons_self ..))

/-- A change of the core's record that leaves its bytes alone, as a command's effect before it is done. -/
theorem State.keeps_updDone (s : State) (f : Core → Core) (i d : Nat) (h : (f (s.core g)).byte a = (s.core g).byte a) :
    State.Keeps g a s ((s.updCore g f).finishAt g i d) :=
  (State.keeps_finishAt ..).step (State.keeps_updCore _ _ h)

theorem retireWithoutEffect_keeps (s : State) : State.Keeps g a s (retireWithoutEffect s g) := by
  unfold retireWithoutEffect
  dsimp only
  split
  · exact State.Keeps.refl s
  · exact State.Keeps.ite ((State.keeps_wr ..).step ((State.keeps_wr ..).step (State.keeps_updCore _ _ rfl))) (State.Keeps.refl s)

theorem commandRetire_keeps (s : State) : State.Keeps g a s (commandRetire s g) := by
  unfold commandRetire
  split
  · exact State.Keeps.refl s
  · next e rest _ =>
    have retired : State.Keeps g a s (s.updCore g (fun c => { c with queue := rest, halted := c.halted || cOp e.word = 0xF0 })) :=
      State.keeps_updCore _ _ rfl
    have shown := (State.keeps_wr _ (.core g) core.PC_IDX ((s.updCore g
      (fun c => { c with queue := rest, halted := c.halted || cOp e.word = 0xF0 })).core g).pcIdx).step
        ((State.keeps_wr _ (.core g) core.QFILL rest.length).step retired)
    exact State.Keeps.ite (State.Keeps.ite ((State.keeps_wr ..).step ((State.keeps_updCore _ _ rfl).step shown)) shown) (State.Keeps.refl s)

theorem runFence_keeps (s : State) : State.Keeps g a s (runFence g e s) := by
  unfold runFence
  dsimp only
  exact State.Keeps.ite ((State.keeps_finishAt ..).step (State.keeps_issueOpen ..)) (State.keeps_issueOpen ..)

theorem runMark_keeps (s : State) : State.Keeps g a s (runMark g e s) :=
  (State.keeps_finishAt ..).step ((State.keeps_wr ..).step (State.keeps_wr ..))

theorem runCommitKv_keeps (s : State) : State.Keeps g a s (runCommitKv g e s) :=
  State.Keeps.ite (State.keeps_fail ..) (State.keeps_updDone _ _ _ _ rfl)

/-! ### The array unit -/

theorem State.keeps_arrayDone (s : State) (e : CmdEntry) (n : Nat) : State.Keeps g a s (s.arrayDone g e n) := State.keeps_updDone _ _ _ _ rfl

theorem runKvSetup_keeps (s : State) : State.Keeps g a s (runKvSetup g e s) :=
  State.Keeps.ite (State.keeps_fail ..) ((State.keeps_arrayDone ..).step (State.keeps_updCore _ _ rfl))

theorem runKvSpec_keeps (s : State) : State.Keeps g a s (runKvSpec g e s) :=
  State.Keeps.ite (State.keeps_fail ..) ((State.keeps_arrayDone ..).step (State.keeps_updCore _ _ rfl))

theorem runKvMapload_keeps (s : State) : State.Keeps g a s (runKvMapload g e s) := by
  unfold runKvMapload
  dsimp only
  refine State.Keeps.ite (State.keeps_fail ..) (State.Keeps.ite (State.Keeps.ite (State.keeps_fail ..) ?_) (State.Keeps.ite (State.keeps_fail ..) ?_))
  · split
    · exact State.keeps_arrayDone ..
    · exact (State.keeps_arrayDone ..).step (State.keeps_updCore _ _ (Core.byte_cachePut ..))
  · exact (State.keeps_arrayDone ..).step (State.keeps_updCore _ _ (Core.byte_foldl _ _ _ (fun _ _ => Core.byte_cachePut ..)))

theorem startPass_keeps (s : State) : State.Keeps g a s (startPass s g e) := by
  unfold startPass
  dsimp only
  split
  · exact State.Keeps.refl s
  · exact State.keeps_updDone _ _ _ _ ((Core.byte_congr rfl rfl rfl rfl rfl).trans (Core.byte_passEffect ..))

theorem runPass_keeps (skew : Bool) (s : State) : State.Keeps g a s (runPass g skew e s) := by
  have skewed : State.Keeps g a s (s.updCore g (fun c => { c with skew := skew })) := State.keeps_updCore _ _ rfl
  unfold runPass
  dsimp only
  split
  · exact (State.keeps_fail ..).step skewed
  · exact State.Keeps.ite ((startPass_keeps _).step skewed) ((State.keeps_issueOpen ..).step skewed)

/-- A drain stores vector `v` at DST + v × OSTRIDE × 16, or sends it. -/
theorem State.drainStep_keeps (w : Nat) (k : KvSetup) (p : Nat) (arrays : List (Nat × Nat)) (s : State) (v : Nat)
    (h : cLow w = false → a < cA w + v * cStride w * 16 ∨ cA w + v * cStride w * 16 + arrays.length * drainSize (cFmt w) ≤ a) :
    State.Keeps g a s (s.drainStep g w k p arrays v) := by
  have drained : State.Keeps g a s (s.updCore g (fun _ => (drainVector w k.scale arrays v (s.core g)).1)) :=
    State.keeps_updCore _ _ (Core.byte_drainVector ..)
  unfold State.drainStep
  dsimp only
  split
  · exact (State.keeps_updCore _ _ rfl).step drained
  · next hl => exact (State.keeps_memWrite _ (by rw [drainVector_length]; exact h (by simpa using hl))).step drained

theorem runDrain_keeps (s : State)
    (h : cLow e.word = false → ∀ v < cNv e.word, a < cA e.word + v * cStride e.word * 16 ∨
      cA e.word + v * cStride e.word * 16 + (arraysOf (cArrays e.word)).length * drainSize (cFmt e.word) ≤ a) :
    State.Keeps g a s (runDrain g e s) := by
  cases hc : drainCheck s g e.word with
  | some code => rw [show runDrain g e s = s.fail g e code by unfold runDrain; dsimp only; rw [hc]]; exact State.keeps_fail ..
  | none =>
    rw [runDrain_passed hc]
    refine (State.keeps_updDone _ _ _ _ rfl).step (State.Keeps.foldl _ _ _ (fun x v hv => State.drainStep_keeps _ _ _ _ _ _ fun hl => ?_))
    rw [State.drainArrays, List.length_map]
    exact h hl v (List.mem_range.1 hv)

/-! ### The attention engine -/

theorem runQload_keeps (s : State) : State.Keeps g a s (runQload g e s) :=
  State.Keeps.ite (State.keeps_fail ..) (State.Keeps.ite (State.keeps_fail ..) (State.keeps_updDone _ _ _ _ rfl))

theorem startStream_keeps (s : State) : State.Keeps g a s (startStream s g e) :=
  State.keeps_updDone _ _ _ _ ((Core.byte_congr rfl rfl rfl rfl rfl).trans (Core.byte_streamEffect ..))

theorem runStream_keeps (s : State) : State.Keeps g a s (runStream g e s) :=
  State.Keeps.ite (State.keeps_fail ..) (State.Keeps.ite (State.keeps_fail ..) (State.Keeps.ite (State.keeps_fail ..)
    (State.Keeps.ite (startStream_keeps s) (State.keeps_issueOpen ..))))

theorem tripleBytes_length (h : AttHead) : (tripleBytes h).length = 32 + 2 * h.o.length := by
  have tail := flatMap_length (fun x => leBytes 2 (toB16 (f32Val x)).toNat) h.o 2 (fun _ _ => leBytes_length _ _)
  rw [tripleBytes, List.length_append, List.length_append, List.length_append, leBytes_length, leBytes_length, List.length_replicate, tail]

theorem outBytes_length (h : AttHead) : (outBytes h).length = 2 * h.o.length := flatMap_length _ _ 2 (fun _ _ => leBytes_length _ _)

theorem runFinish_keeps (s : State)
    (h : a < cA e.word ∨ cA e.word + ((s.core g).heads.map (fun h => (if bit e.word 0 then 32 else 0) + 2 * h.o.length)).sum ≤ a) :
    State.Keeps g a s (runFinish g e s) := by
  have length : ((s.core g).heads.flatMap (fun h => if bit e.word 0 then tripleBytes h else outBytes h)).length =
      ((s.core g).heads.map (fun h => (if bit e.word 0 then 32 else 0) + 2 * h.o.length)).sum := by
    rw [List.length_flatMap]
    refine congrArg List.sum (List.map_congr_left fun h _ => ?_)
    split
    · exact tripleBytes_length h
    · rw [outBytes_length, Nat.zero_add]
  refine State.Keeps.ite (State.keeps_fail ..) (State.Keeps.ite (State.keeps_fail ..) ?_)
  exact (State.keeps_updDone _ _ _ _ rfl).step (State.keeps_memWrite _ (by rwa [length]))

/-! ### The wide unit -/

theorem State.keeps_wideDone (s : State) (e : CmdEntry) (busy lat : Nat) : State.Keeps g a s (s.wideDone g e busy lat) :=
  State.keeps_updDone _ _ _ _ rfl

theorem State.wuRun_keeps {n : Nat} (s : State) (e : CmdEntry) (ranges : List (Nat × Nat)) (lat : Nat) (out : Core → List Byte)
    (hl : (out (s.core g)).length = n) (h : a < cDst e.word ∨ cDst e.word + n ≤ a) : State.Keeps g a s (s.wuRun g e ranges lat out) :=
  State.Keeps.ite (State.keeps_fail ..) (State.Keeps.ite (State.keeps_fail ..)
    ((State.keeps_wideDone ..).step (State.keeps_memWrite _ (by rwa [hl]))))

theorem runBinary_keeps (f : F32 → F32 → F32) (lat : Nat) (m : WuFmt) (s : State)
    (h : a < cDst e.word ∨ cDst e.word + vecBytes m.dBf (cLen e.word) ≤ a) : State.Keeps g a s (runBinary f lat m g e s) := by
  unfold runBinary
  refine State.wuRun_keeps _ _ _ _ _ ?_ h
  rw [vecOut_length, List.length_zipWith, Core.vec_length, Core.vec_length, Nat.min_self]

theorem runUnary_keeps (f : F32 → F32) (lat : Nat) (m : WuFmt) (s : State)
    (h : a < cDst e.word ∨ cDst e.word + vecBytes m.dBf (cLen e.word) ≤ a) : State.Keeps g a s (runUnary f lat m g e s) := by
  unfold runUnary
  refine State.wuRun_keeps _ _ _ _ _ ?_ h
  rw [vecOut_length, List.length_map, Core.vec_length]

theorem runFma_keeps (m : WuFmt) (s : State)
    (h : a < cDst e.word ∨ cDst e.word + vecBytes m.dBf (cLen e.word) ≤ a) : State.Keeps g a s (runFma m g e s) := by
  unfold runFma
  refine State.wuRun_keeps _ _ _ _ _ ?_ h
  simp only [vecOut_length, List.length_zipWith, List.length_zip, Core.vec_length, Nat.min_self]

theorem runReduce_keeps (m : WuFmt) (s : State) (h : a < cDst e.word ∨ cDst e.word + 4 ≤ a) : State.Keeps g a s (runReduce m g e s) := by
  unfold runReduce
  refine State.wuRun_keeps _ _ _ _ _ ?_ h
  exact leBytes_length ..

theorem runRope_keeps (m : WuFmt) (half : Bool) (s : State)
    (h : a < cDst e.word ∨ cDst e.word + vecBytes m.dBf (cLen e.word) ≤ a) : State.Keeps g a s (runRope m half g e s) := by
  unfold runRope
  refine State.wuRun_keeps _ _ _ _ _ ?_ h
  rw [vecOut_length, ropeVec_length, Core.vec_length]

theorem runCvt_keeps (s : State) (h : a < cDst e.word ∨ cDst e.word + cvtBytes (cvtFmts e.word).2 (cLen e.word) ≤ a) :
    State.Keeps g a s (runCvt g e s) := by
  unfold runCvt
  dsimp only
  refine State.Keeps.ite (State.keeps_fail ..) (State.Keeps.ite (State.keeps_fail ..) ?_)
  refine (State.keeps_wideDone ..).step ((State.keeps_memWrite _ ?_).step (State.keeps_updCore _ _ ?_))
  · rwa [cvtTarget_length, cvtSource_length]
  · split
    · exact Core.byte_addClips ..
    · rfl

theorem runSpdelta_keeps (n : Nat) (s : State) (h : a < cDst e.word ∨ cDst e.word + 512 ≤ a) : State.Keeps g a s (runSpdelta n g e s) := by
  refine State.Keeps.ite (State.keeps_fail ..) (State.Keeps.ite (State.keeps_fail ..) ?_)
  refine (State.keeps_wideDone ..).step ((State.keeps_memWrite _ ?_).step (State.keeps_updCore _ _ rfl))
  rwa [vecOut_length, spStream_length, Core.vec_length]

theorem startCopy_keeps (s : State) (h : a < cB e.word ∨ cB e.word + 32 * cLen e.word ≤ a) : State.Keeps g a s (startCopy s g e) :=
  (State.keeps_wideDone ..).step ((State.keeps_updCore _ _ rfl).step (State.keeps_memWrite _ (by rwa [Core.read_length])))

theorem runCopy_keeps (s : State) (h : a < cB e.word ∨ cB e.word + 32 * cLen e.word ≤ a) : State.Keeps g a s (runCopy g e s) :=
  State.Keeps.ite (State.keeps_fail ..) (State.Keeps.ite (State.keeps_fail ..)
    (State.Keeps.ite (startCopy_keeps s h) (State.keeps_issueOpen ..)))

theorem slabReadPortStart_keeps (s : State)
    (h : ∀ e, (s.core g).queue.find? (fun e => e.wait) = some e → unitOf (cOp e.word) = some .wide →
      a < cB e.word ∨ cB e.word + 32 * cLen e.word ≤ a) : State.Keeps g a s (slabReadPortStart s g) := by
  unfold slabReadPortStart
  dsimp only
  split
  · exact State.Keeps.refl s
  · next e he =>
    refine State.Keeps.ite ?_ (State.Keeps.refl s)
    split
    · exact startPass_keeps s
    · exact startStream_keeps s
    · next hu => exact startCopy_keeps s (h e he hu)
    · exact State.Keeps.refl s

/-! ### Windows, semaphores and sends -/

theorem runWinOpen_keeps (s : State) : State.Keeps g a s (runWinOpen g e s) :=
  State.Keeps.ite (State.keeps_fail ..) (State.Keeps.ite (State.keeps_fail ..) (State.keeps_updDone _ _ _ _ rfl))

theorem runWinClose_keeps (s : State) : State.Keeps g a s (runWinClose g e s) :=
  State.Keeps.ite (State.keeps_fail ..) (State.keeps_updDone _ _ _ _ rfl)

theorem runWinWait_keeps (s : State) : State.Keeps g a s (runWinWait g e s) :=
  State.Keeps.ite (State.keeps_fail ..) (State.Keeps.ite ((State.keeps_finishAt ..).step (State.keeps_issueOpen ..)) (State.keeps_issueOpen ..))

theorem runSemSignal_keeps (s : State) : State.Keeps g a s (runSemSignal g e s) :=
  (State.keeps_finishAt ..).step (State.Keeps.ite (State.keeps_stepErr ..) (State.keeps_updCore _ _ rfl))

theorem runSend_keeps (s : State) : State.Keeps g a s (runSend g e s) := by
  unfold runSend
  dsimp only
  split
  · exact State.keeps_fail ..
  · exact (State.keeps_issueOpen ..).step (State.keeps_updCore _ _ rfl)

theorem runSendSpine_keeps (s : State) : State.Keeps g a s (runSendSpine g e s) :=
  State.Keeps.ite (State.keeps_fail ..) (State.Keeps.ite (State.keeps_fail ..) ((State.keeps_issueOpen ..).step (State.keeps_updCore _ _ rfl)))

/-! ### The commands -/

/-- A command that stores to one range, which its word gives. -/
theorem keeps_issue_stores {s : State} {c : Instr} {lo n : CmdEntry → Nat} {op : Nat} {u : Upset} {run : CmdEntry → State → State}
    (h : ∀ r ∈ storesTo s c, a < r.1 ∨ r.1 + r.2 ≤ a) (hs : ∀ e, s.issuable g = some e → storesTo s c = [(lo e, n e)])
    (hr : ∀ e x, a < lo e ∨ lo e + n e ≤ a → State.Keeps g a x (run e x)) : State.Keeps g a s (s.issue g op u run) :=
  State.keeps_issue _ _ _ _ (fun e x he _ => hr e x (h (lo e, n e) (by rw [hs e he]; exact List.mem_singleton_self _)))

/-- A command that stores nothing. -/
theorem keeps_issue_quiet {s : State} {op : Nat} {u : Upset} {run : CmdEntry → State → State} (hr : ∀ e x, State.Keeps g a x (run e x)) :
    State.Keeps g a s (s.issue g op u run) :=
  State.keeps_issue _ _ _ _ (fun e x _ _ => hr e x)

/-- A command without a finding does nothing, or what its meaning says with the issue place taken. -/
theorem State.issue_none_cases (s : State) (g op : Nat) (run : CmdEntry → State → State) :
    s.issue g op .none run = s ∨ ∃ e, s.issuable g = some e ∧ s.issue g op .none run = run e (s.began g) := by
  unfold State.issue
  split
  · next e un he _ =>
    split
    · exact .inr ⟨e, he, rfl⟩
    · exact .inl rfl
  · exact .inl rfl

/-- A command of core `g` changes no byte outside the ranges it stores to. -/
theorem exec_keeps {s t : State} : (c : Instr) → {g : Nat} → coreOf c = some g → exec c s = .next t →
    (∀ r ∈ storesTo s c, a < r.1 ∨ r.1 + r.2 ≤ a) → State.Keeps g a s t
  | .retireWithoutEffect _, _, rfl, rfl, _ => retireWithoutEffect_keeps _
  | .commandRetire _, _, rfl, rfl, _ => commandRetire_keeps _
  | .slabReadPortStart g, _, rfl, rfl, h => slabReadPortStart_keeps _ fun e he hu => by
    have stores : storesTo s (.slabReadPortStart g) = [(cB e.word, 32 * cLen e.word)] := by simp only [storesTo, he, hu, if_true]
    exact h (cB e.word, 32 * cLen e.word) (by rw [stores]; exact List.mem_singleton_self _)
  | .apassTree .., _, rfl, rfl, _ => keeps_issue_quiet fun _ => runPass_keeps _
  | .apassSkew .., _, rfl, rfl, _ => keeps_issue_quiet fun _ => runPass_keeps _
  | .accDrain g u, _, rfl, rfl, h => State.keeps_issue _ _ _ _ fun e x he _ => runDrain_keeps _ fun hl v hv => by
    refine h (cA e.word + v * cStride e.word * 16, (arraysOf (cArrays e.word)).length * drainSize (cFmt e.word)) ?_
    simp only [storesTo, he, hl, Bool.false_eq_true, if_false]
    exact List.mem_map.2 ⟨v, List.mem_range.2 hv, rfl⟩
  | .accBase _, _, rfl, rfl, _ => keeps_issue_quiet fun _ _ => (State.keeps_arrayDone ..).step (State.keeps_updCore _ _ rfl)
  | .edgeCfg _, _, rfl, rfl, _ => keeps_issue_quiet fun _ _ => (State.keeps_arrayDone ..).step (State.keeps_updCore _ _ rfl)
  | .attQload .., _, rfl, rfl, _ => keeps_issue_quiet fun _ => runQload_keeps
  | .attStream .., _, rfl, rfl, _ => keeps_issue_quiet fun _ => runStream_keeps
  | .attFinish g, _, rfl, rfl, h => by
    obtain idle | ⟨e, he, ran⟩ := s.issue_none_cases g 0x12 (runFinish g)
    · rw [idle]
      exact State.Keeps.refl s
    · have began : State.Keeps g a s (s.began g) := State.keeps_updCore _ _ rfl
      rw [ran]
      refine (runFinish_keeps _ (h (_, _) ?_)).step began
      rw [(s.began_to g).here]
      simp only [storesTo, he]
      exact List.mem_singleton_self _
  | .wuAdd .., _, rfl, rfl, h => keeps_issue_stores h (fun _ he => by simp only [storesTo, he]) fun _ => runBinary_keeps _ _ _
  | .wuMul .., _, rfl, rfl, h => keeps_issue_stores h (fun _ he => by simp only [storesTo, he]) fun _ => runBinary_keeps _ _ _
  | .wuFma .., _, rfl, rfl, h => keeps_issue_stores h (fun _ he => by simp only [storesTo, he]) fun _ => runFma_keeps _
  | .wuMax .., _, rfl, rfl, h => keeps_issue_stores h (fun _ he => by simp only [storesTo, he]) fun _ => runBinary_keeps _ _ _
  | .wuExp .., _, rfl, rfl, h => keeps_issue_stores h (fun _ he => by simp only [storesTo, he]) fun _ => runUnary_keeps _ _ _
  | .wuRsqrt .., _, rfl, rfl, h => keeps_issue_stores h (fun _ he => by simp only [storesTo, he]) fun _ => runUnary_keeps _ _ _
  | .wuRecip .., _, rfl, rfl, h => keeps_issue_stores h (fun _ he => by simp only [storesTo, he]) fun _ => runUnary_keeps _ _ _
  | .wuSilu .., _, rfl, rfl, h => keeps_issue_stores h (fun _ he => by simp only [storesTo, he]) fun _ => runUnary_keeps _ _ _
  | .wuRope .., _, rfl, rfl, h => keeps_issue_stores h (fun _ he => by simp only [storesTo, he]) fun _ => runRope_keeps _ _
  | .wuReduce .., _, rfl, rfl, h => keeps_issue_stores h (fun _ he => by simp only [storesTo, he]) fun _ => runReduce_keeps _
  | .wuCvt .., _, rfl, rfl, h => keeps_issue_stores h (fun _ he => by simp only [storesTo, he]) fun _ => runCvt_keeps
  | .wuSpdelta .., _, rfl, rfl, h => keeps_issue_stores h (fun _ he => by simp only [storesTo, he]) fun _ => runSpdelta_keeps _
  | .wuCopy .., _, rfl, rfl, h => keeps_issue_stores h (fun _ he => by simp only [storesTo, he]) fun _ => runCopy_keeps
  | .send .., _, rfl, rfl, _ => keeps_issue_quiet fun _ => runSend_keeps
  | .sendMc .., _, rfl, rfl, _ => keeps_issue_quiet fun _ => runSend_keeps
  | .sendRed .., _, rfl, rfl, _ => keeps_issue_quiet fun _ => runSend_keeps
  | .sendSpine .., _, rfl, rfl, _ => keeps_issue_quiet fun _ => runSendSpine_keeps
  | .winOpen _, _, rfl, rfl, _ => keeps_issue_quiet fun _ => runWinOpen_keeps
  | .winClose _, _, rfl, rfl, _ => keeps_issue_quiet fun _ => runWinClose_keeps
  | .winWait _, _, rfl, rfl, _ => keeps_issue_quiet fun _ => runWinWait_keeps
  | .semSignal _, _, rfl, rfl, _ => keeps_issue_quiet fun _ => runSemSignal_keeps
  | .semWait _, _, rfl, rfl, _ => keeps_issue_quiet fun _ _ => State.keeps_issueOpen ..
  | .kvSetup _, _, rfl, rfl, _ => keeps_issue_quiet fun _ => runKvSetup_keeps
  | .kvMapload .., _, rfl, rfl, _ => keeps_issue_quiet fun _ => runKvMapload_keeps
  | .kvSpec _, _, rfl, rfl, _ => keeps_issue_quiet fun _ => runKvSpec_keeps
  | .commit _, _, rfl, rfl, _ => keeps_issue_quiet fun _ _ => State.keeps_updDone _ _ _ _ rfl
  | .commitKv _, _, rfl, rfl, _ => keeps_issue_quiet fun _ => runCommitKv_keeps
  | .fence _, _, rfl, rfl, _ => keeps_issue_quiet fun _ => runFence_keeps
  | .nop _, _, rfl, rfl, _ => keeps_issue_quiet fun _ _ => State.keeps_finishAt ..
  | .mark _, _, rfl, rfl, _ => keeps_issue_quiet fun _ => runMark_keeps
  | .halt _, _, rfl, rfl, _ => keeps_issue_quiet fun _ _ => State.keeps_issueOpen ..

end Sys2Proof.Machine
end

section
/-! SUPPORT. The page mover of a memory site: a command that comes to an empty queue runs at once, and the oldest command leaves when it has run
(R173, R191, R201). -/

namespace Sys2Proof.Machine

variable {s y : State} {m : Nat}

/-! ### What the page mover goes by -/

/-- `y` shows the page mover of site `m` what `s` shows it: the site but for the queue, and the registers below QMAX and PM_QFILL, with the kinds of
the sets, the partition, and the failed channels among them. -/
structure State.SameSite (m : Nat) (s y : State) : Prop where
  site : ∃ l, y.site m = { s.site m with pm := l }
  rd : ∀ q (f : Field), f.off * 32 + f.lsb < 0x50 * 32 → y.rd q f = s.rd q f

/-- A field keeps its value when another place is written, of whatever page. -/
theorem State.rd_wr_place (s : State) (p q : Page) (f k : Field) (v : Nat) (h : k.off * 32 + k.lsb < f.off * 32 + f.lsb)
    (hf : f.off * 32 + f.lsb < 131072) : (s.wr p f v).rd q k = s.rd q k := by
  apply State.rd_wr_ne
  simp only [regKey]
  omega

theorem State.rd_noteQueue (s : State) (m : Nat) (l : List Nat) (extra : Nat) (q : Page) {f : Field} (h : f.off * 32 + f.lsb < 0x50 * 32) :
    (s.noteQueue m l extra).rd q f = s.rd q f := by
  refine State.rd_foldl _ _ _ _ _ fun x ch => ?_
  unfold State.raise
  split
  · exact State.rd_wr_place _ _ _ _ _ _ h (by decide)
  · rfl

theorem State.site_noteQueue (s : State) (m : Nat) (l : List Nat) (extra k : Nat) : (s.noteQueue m l extra).site k = s.site k := by
  rw [State.site, State.site, (State.noteQueue_frame s m l extra).sites rfl]

/-- A change of the queue, its length and the queues of the channels change nothing else that the page mover goes by. -/
theorem State.SameSite.queued (h : State.SameSite m s y) (f : List PmJob → List PmJob) (n : Nat) (chs : List Nat) (extra : Nat) :
    State.SameSite m s (((y.updSite m (fun x => { x with pm := f x.pm })).wr (.msite m) msite.PM_QFILL n).noteQueue m chs extra) where
  site := by
    obtain ⟨q, hq⟩ := h.site
    rw [State.site_noteQueue, State.site_wr, State.site_updSite_self, hq]
    exact ⟨f q, rfl⟩
  rd := fun q k hk => by
    rw [State.rd_noteQueue _ _ _ _ _ hk, State.rd_wr_place _ _ _ _ _ _ (Nat.lt_trans hk (by decide)) (by decide), State.rd_updSite]
    exact h.rd q k hk

section SameSite
variable (h : State.SameSite m s y)
include h

/-- What does not depend on the queue is the same of both sites. -/
theorem State.SameSite.part {α : Type} (f : Site → α) (hf : ∀ x l, f { x with pm := l } = f x) : f (y.site m) = f (s.site m) := by
  obtain ⟨l, hl⟩ := h.site
  rw [hl, hf]

theorem State.SameSite.region (i : Nat) : y.region m i = s.region m i := h.part (fun x => Table.get ({} : Region) x.regions i) (fun _ _ => rfl)

theorem State.SameSite.chan (ch : Nat) : y.chan m ch = s.chan m ch := h.part (fun x => Table.get ({} : Chan) x.chans ch) (fun _ _ => rfl)

theorem State.SameSite.siteKey (k : Nat) : y.siteKey m k = s.siteKey m k := by
  unfold State.siteKey
  rw [h.part Site.keys (fun _ _ => rfl)]

theorem State.SameSite.setMutable (k : Nat) : y.setMutable m k = s.setMutable m k := congrArg (fun v => bit v k) (h.rd _ _ (by decide))

theorem State.SameSite.chFailed (ch : Nat) : y.chFailed m ch = s.chFailed m ch := congrArg (fun v => decide (v ≠ 0)) (h.rd _ _ (by decide))

theorem State.SameSite.sitePart : y.sitePart m = s.sitePart m := congrArg (fun v => if v < 12 then some v else none) (h.rd _ _ (by decide))

theorem State.SameSite.pmFree : y.pmFree m = s.pmFree m := by
  unfold State.pmFree State.flag
  rw [h.part Site.up (fun _ _ => rfl), h.part Site.zeroing (fun _ _ => rfl), h.rd _ _ (by decide)]

theorem State.SameSite.locate (r : Region) (x : Nat) : y.locate m r x = s.locate m r x := by
  unfold State.locate State.dataChans
  rw [h.setMutable]

theorem State.SameSite.pmRange (i x n : Nat) : y.pmRange m i x n = s.pmRange m i x n := by
  have chans : ∀ r, y.regionChans m r = s.regionChans m r := fun r => by
    unfold State.regionChans State.dataChans
    rw [h.setMutable]
  have failed : ∀ k, y.failedIn m k = s.failedIn m k := fun k => by
    have flags : y.chFailed m = s.chFailed m := funext h.chFailed
    unfold State.failedIn
    rw [flags]
  unfold State.pmRange State.serves State.regionSize State.setLost
  dsimp only
  rw [h.region, h.sitePart, chans, h.setMutable, failed]

theorem State.SameSite.pmStatus (c : PmCmd) : y.pmStatus m c = s.pmStatus m c := by
  unfold State.pmStatus
  dsimp only
  rw [h.region, h.region, h.pmRange, h.pmRange, h.siteKey]

end SameSite

/-! ### Reads without a finding (R191) -/

/-- Reads that meet no uncorrectable error lose no line. -/
theorem State.readUpset_lost {u : StackUpset} (hu : upsetUes u = []) (s : State) (m : Nat) (r : Region) (n : Nat) (at_ : Nat → Nat) :
    (s.readUpset m r n at_ u).2 = [] := by
  unfold State.readUpset
  rw [hu]
  rfl

theorem State.oldLines_lost {u : StackUpset} (hu : upsetUes u = []) (s : State) (m : Nat) (r : Region) (n : Nat) (at_ : Nat → Nat) :
    (s.oldLines m r n at_ u).2 = [] := by
  unfold State.oldLines
  split
  · exact State.readUpset_lost hu ..
  · rfl

/-- The lines that a source loses without a finding: those of channels without lock. -/
theorem State.SameSite.sourceLines (h : State.SameSite m s y) (r : Region) (n : Nat) (at_ : Nat → Nat) :
    (y.sourceLines m r n at_ .none).2 = (s.sourceLines m r n at_ .none).2 := by
  have chans : y.chan m = s.chan m := funext h.chan
  unfold State.sourceLines
  simp only [State.readUpset_lost (u := .none) rfl, h.locate, h.setMutable, h.chFailed, chans]

/-! ### A command runs (R201) -/

theorem eq_pair_nil {α : Type} {p : State × List α} (h : p.2 = []) : ∃ x, p = (x, []) := ⟨p.1, Prod.ext rfl h⟩

/-- A command of the six operations that meets nothing runs with status 0. -/
theorem State.pmExec_ran {j : PmJob} (hop : 1 ≤ j.cmd.op ∧ j.cmd.op ≤ 6) (hst : s.pmStatus m j.cmd = 0) (hu : j.upset = .none)
    (hsrc : (s.sourceLines m (s.region m j.cmd.region) j.cmd.length (fun i => 32 * j.cmd.offset + 32 * i) .none).2 = []) :
    (s.pmExec m j).2.ran = true ∧ (s.pmExec m j).2.status = 0 ∧ (s.pmExec m j).2.cmd = j.cmd := by
  obtain ⟨x, hx⟩ := eq_pair_nil hsrc
  obtain ⟨z, hz⟩ := eq_pair_nil (State.oldLines_lost (u := .none) rfl s m (s.region m j.cmd.region) j.cmd.length (fun i => 32 * j.cmd.offset + 32 * i))
  obtain ⟨w, hw⟩ := eq_pair_nil (State.oldLines_lost (u := upsetFrom .none j.cmd.length) rfl x m (s.region m j.cmd.dstRegion) j.cmd.length
    (fun i => 32 * j.cmd.dstOffset + 32 * i))
  have ops : j.cmd.op = 1 ∨ j.cmd.op = 2 ∨ j.cmd.op = 3 ∨ j.cmd.op = 4 ∨ j.cmd.op = 5 ∨ j.cmd.op = 6 := by omega
  unfold State.pmExec
  dsimp only
  rw [if_neg (not_not_intro hst), hu, hx, hz]
  obtain op | op | op | op | op | op := ops <;> rw [op]
  · exact ⟨rfl, rfl, rfl⟩
  · exact ⟨rfl, rfl, rfl⟩
  · exact ⟨rfl, rfl, rfl⟩
  · exact ⟨rfl, rfl, rfl⟩
  · dsimp only
    rw [hw]
    exact ⟨rfl, rfl, rfl⟩
  · exact ⟨rfl, rfl, rfl⟩

/-- A page mover that may run runs the one command of its queue. -/
theorem State.pmRun_one {j : PmJob} (hf : s.pmFree m = true) (hpm : (s.site m).pm = [j]) (hi : j.inner = false) (hr : j.ran = false) :
    ((s.pmRun m).site m).pm = [(s.pmExec m j).2] := by
  unfold State.pmRun
  rw [hf, Bool.not_true, if_neg Bool.false_ne_true, hpm]
  simp only [State.pmRunList, hi, hr, Bool.false_and, Bool.false_eq_true, if_false, State.site_updSite_self]

/-- A command that comes to a page mover that may run, with an empty queue and a range it serves and can read, runs at once. -/
theorem State.pmQueue_runs {p op : Nat} {c : PmCmd} (bytes : List Byte) (hop : 1 ≤ op ∧ op ≤ 6) (hpm : (s.site m).pm = [])
    (hd : (s.site m).draining = false) (hp : s.sitePart m = some p) (hf : s.pmFree m = true)
    (ht : (s.part p).xfers.any (fun x => x.cmd.tid = c.tid) = false)
    (hsrc : (s.sourceLines m (s.region m c.region) c.length (fun i => 32 * c.offset + 32 * i) .none).2 = [])
    (hst : s.pmStatus m { c with op := op } = 0) :
    ∃ j, ((s.pmQueue m op c bytes false .none).site m).pm = [j] ∧ j.ran = true ∧ j.status = 0 ∧ j.cmd = { c with op := op } := by
  have kept : ∀ x : Xfer, State.SameSite m s (s.addXfer p x) := fun x => ⟨⟨_, rfl⟩, fun _ _ _ => rfl⟩
  unfold State.pmQueue
  rw [hpm, if_neg (by decide), hp]
  dsimp only
  rw [ht, if_neg Bool.false_ne_true, (kept _).part Site.draining (fun _ _ => rfl), hd, if_neg Bool.false_ne_true]
  generalize hy : State.noteQueue _ m _ 0 = y
  have same : State.SameSite m s y := hy ▸ (kept _).queued (· ++ [_]) _ _ _
  have queue : (y.site m).pm = [{ cmd := { c with op := op }, bytes := bytes }] := by
    rw [← hy, State.site_noteQueue, State.site_wr, State.site_updSite_self]
    exact congrArg (· ++ _) hpm
  refine ⟨_, State.pmRun_one (same.pmFree.trans hf) queue rfl rfl, State.pmExec_ran hop ((same.pmStatus _).trans hst) rfl ?_⟩
  rw [same.sourceLines, same.region]
  exact hsrc

/-! ### Completion (R173, R201) -/

theorem State.pmDrained_up (h : (s.site m).draining = false) : s.pmDrained m = s := by
  unfold State.pmDrained
  dsimp only
  rw [h]
  rfl

theorem State.job_spineDone (s : State) (p tid status count k : Nat) : ((s.spineDone p tid status count).part k).job = (s.part k).job := by
  unfold State.spineDone
  rw [State.part_updPart]
  split
  · next hk => rw [hk, State.part_emit]
  · rfl

/-- The oldest command, once it has run, leaves the queue of a page mover that may not start another. -/
theorem pageMoverDone_pops {j : PmJob} {rest : List PmJob} (u : StackUpset) (hpm : (s.site m).pm = j :: rest) (hr : j.ran = true)
    (hd : (s.site m).draining = false) (hf : s.pmFree m = false) (hj : (s.part ((s.sitePart m).getD 0)).job = none) :
    ((pageMoverDone s m u).site m).pm = rest := by
  have idle : s.pmRun m = s := by
    unfold State.pmRun
    rw [hf]
    rfl
  have head : s.pmHead m u = s := by
    unfold State.pmHead
    rw [hpm]
    dsimp only
    rw [hr, Bool.or_true, Bool.true_or, if_pos rfl]
  unfold pageMoverDone
  rw [idle, head]
  dsimp only
  rw [hpm]
  dsimp only
  rw [hr, Bool.not_true, if_neg Bool.false_ne_true]
  generalize hx : (s.updSite m (fun x => { x with pm := rest })).wr (.msite m) msite.PM_QFILL rest.length = x
  have siteNow : x.site m = { s.site m with pm := rest } := by rw [← hx, State.site_wr, State.site_updSite_self]
  have partNow : x.sitePart m = s.sitePart m := by
    rw [← hx]
    exact congrArg (fun v => if v < 12 then some v else none) (State.rd_wr_field _ _ _ _ _ (by decide))
  have jobNow : (x.part ((s.sitePart m).getD 0)).job = none := by rw [← hx]; exact hj
  rw [State.pmDrained_up (by rw [siteNow]; exact hd), partNow]
  generalize hz : (if (j.cmd.op = 3 ∨ j.cmd.op = 4) ∧ j.status = 0 then _ else _) = z
  have told : z.site m = x.site m ∧ (z.part ((s.sitePart m).getD 0)).job = none := by
    rw [← hz]
    split
    · exact ⟨rfl, jobNow⟩
    · exact ⟨rfl, (State.job_spineDone ..).trans jobNow⟩
  rw [told.2]
  dsimp only
  rw [Bool.not_false, if_pos rfl, told.1, siteNow]

end Sys2Proof.Machine
end

section
/-! The statements of spec/03_core_and_arrays.md: the sequencer (O7), the array unit (O9, O13, O14, O15), the slab read port (O17), windows,
semaphores and sends (O18, O19), the hardware's findings (O20), the wide unit (O11, O12), what the commands store (O10), and where the elementwise
commands and the page mover's commands complete (O59). -/

namespace Sys2Proof.Machine

/-- Settles O7, from the rules of the sequencer's commands. -/
theorem sequencerCommandsComplete : Obligations.SequencerCommandsComplete := by
  refine ⟨fun s g _ h => h.ends (runNop_to (s.began_to g)), fun s g _ h => h.ends (runCommit_to (s.began_to g)), fun s g e h => h.ends ?_,
    fun s g _ h => h.ends (runFence_to (s.began_to g)), fun s g _ h => h.ends (runHalt_to (s.began_to g))⟩
  obtain ⟨here, tag, cycle, others⟩ := runMark_shows (e := e) (s.began_to g)
  exact ⟨here, tag, cycle, fun f hTag hCycle hf => others f hf hTag hCycle⟩

/-- Settles O9, from the rules of the configuration commands. -/
theorem arrayConfigurationCommands : Obligations.ArrayConfigurationCommands :=
  ⟨fun s g _ h => h.ends (runAccBase_to (s.began_to g)), fun s g _ h => h.ends (runEdgeCfg_to (s.began_to g)),
    fun s g _ h hz hz' h0 h255 => h.ends (runKvSetup_to (s.began_to g) hz hz' h0 h255),
    fun s g _ h hz => h.ends (runKvSpec_to (s.began_to g) hz), fun s g _ h hz hr => h.ends (runKvMapload_to (s.began_to g) hz hr),
    fun s g _ h hz => h.ends (runCommitKv_to (s.began_to g) hz)⟩

/-- Settles O11, from the rule of a command over LEN elements. -/
theorem wideElementwiseResults : Obligations.WideElementwiseResults :=
  ⟨fun s g _ m h ⟨hn, ha, hb, hd⟩ => h.ends (runBinary_to fadd 3 m (s.began_to g) hn ha (hb rfl) hd),
    fun s g _ m h ⟨hn, ha, hb, hd⟩ => h.ends (runBinary_to fmul 3 m (s.began_to g) hn ha (hb rfl) hd),
    fun s g _ m h ⟨hn, ha, hb, hd⟩ => h.ends (runBinary_to fmax 3 m (s.began_to g) hn ha (hb rfl) hd),
    fun s g _ m h ⟨hn, ha, _, hd⟩ => h.ends (runUnary_to fexp 8 m (s.began_to g) hn ha hd),
    fun s g _ m h ⟨hn, ha, _, hd⟩ => h.ends (runUnary_to frsqrt 12 m (s.began_to g) hn ha hd),
    fun s g _ m h ⟨hn, ha, _, hd⟩ => h.ends (runUnary_to frecip 10 m (s.began_to g) hn ha hd),
    fun s g _ m h ⟨hn, ha, _, hd⟩ => h.ends (runUnary_to fsilu 14 m (s.began_to g) hn ha hd),
    fun s g _ m h ⟨hn, ha, hb, hd⟩ => h.ends (runFma_to m (s.began_to g) hn ha (hb rfl) hd)⟩

/-- Settles O12, from the rules of the commands. -/
theorem wideOtherResults : Obligations.WideOtherResults :=
  ⟨fun s g _ m h hn ha hd => h.ends (runReduce_to m (s.began_to g) hn ha hd),
    fun s g _ m r h hn ha hb hd => h.ends (runRope_to m r (s.began_to g) hn ha hb hd),
    fun s g _ _ _ h hf hn ha hd => h.ends (runCvt_to (s.began_to g) hf hn ha hd),
    fun s g _ _ h hn hz ha hb hd => h.ends (runSpdelta_to (s.began_to g) hn hz ha hb hd),
    fun s g _ h hn ha hb hp => h.ends (runCopy_to (s.began_to g) hn ha hb hp)⟩

/-- Settles O13: the two modes differ in the depth of the array alone. -/
theorem arrayPassesAccumulate : Obligations.ArrayPassesAccumulate :=
  ⟨fun s g _ _ h hf hc => ⟨fun hp => h.ends (runPass_starts false (s.began_to g) hf hc (by rw [h.opcode]; rfl) hp),
      fun hl hp => h.ends (runPass_waits false (s.began_to g) hc hl hp)⟩,
    fun s g _ _ h hf hc => ⟨fun hp => h.ends (runPass_starts true (s.began_to g) hf hc (by rw [h.opcode]; rfl) hp),
      fun hl hp => h.ends (runPass_waits true (s.began_to g) hc hl hp)⟩⟩

/-- Settles O14: the range is checked before everything else. -/
theorem passOutsideItsRangesIsIllegal : Obligations.PassOutsideItsRangesIsIllegal := by
  have fails : ∀ (s : State) g e (skew : Bool), passCheck s g e.word = some .illegal →
      ((runPass g skew e (s.began g)).core g).lfa = (s.core g).lfa ∧ ((s.core g).err = none →
        (∃ r, ((runPass g skew e (s.began g)).core g).err = some r ∧ r.code = 3 ∧ r.cmd = e.idx) ∧
        (runPass g skew e (s.began g)).rd (.core g) core.SEQ_STATE = 3) := by
    intro s g e skew hc
    have skewed := (s.began_to g).upd (fun c => { c with skew := skew })
    rw [runPass_fails skew (s.began_to g) hc]
    refine ⟨by rw [State.lfa_fail, skewed.here]; rfl, fun herr => State.fail_stops ?_ .illegal⟩
    rw [skewed.here]
    exact herr
  refine ⟨fun w => ?_, fun s g e => ⟨fun ⟨h, ho⟩ => h.ends (fails s g e true (passCheck_illegal (.inl ho))),
    fun ⟨h, ho⟩ => h.ends (fails s g e false (passCheck_illegal (.inr ⟨h.opcode, ho⟩)))⟩⟩
  have : bits w 6 8 < 256 := Nat.mod_lt _ (by decide)
  unfold cNv
  omega

/-- Settles O17: the unit of the command that waits starts it. -/
theorem slabReadPortStartsTheEarliestWaiter : Obligations.SlabReadPortStartsTheEarliestWaiter := by
  intro s g e hq hr hp
  obtain ⟨pass, stream, copy⟩ := slabReadPortStart_starts hq hr hp
  refine ⟨fun ho hb => ⟨_, rfl, ?_⟩, fun wf ho hl hf => ⟨_, rfl, ?_⟩, fun ho hl => ⟨_, rfl, ?_⟩⟩
  · rw [copy (by rw [ho]; rfl)]
    exact startCopy_to (.refl s g) hb
  · have started := startPass_to (.refl s g) hf
    rw [hl] at started
    rw [pass (by obtain ho | ho := ho <;> rw [ho] <;> rfl)]
    exact started
  · have started := startStream_to (e := e) (.refl s g)
    rw [hl] at started
    rw [stream (by rw [ho]; rfl)]
    exact started.cast (by simp [Core.streamEnd])

/-- Settles O15, from a drain vector by vector. -/
theorem drainsConvertAndStore : Obligations.DrainsConvertAndStore := by
  refine ⟨fun s g e h hc => h.ends ?_, fun s g e h hc hn hl ha => h.ends ?_, fun s g e k h hc hn hl hk => h.ends ?_, appendFlits_length⟩
  · rw [runDrain_passed (((s.began_to g).drainCheck rfl _).trans hc), (s.began_to g).cycOf]
    have drained : ∀ (y : State) n, ((y.updCore g (fun c => { c with arrayFree := s.cycOf g + (6 + n) })).finishAt g e.idx (s.cycOf g + (6 + n))).core g =
        (y.core g).drainEnd e (s.cycOf g) n := fun y n => by
      unfold State.finishAt
      rw [State.core_updCore_self, State.core_updCore_self]
      rfl
    dsimp only
    rw [drained]
    exact ⟨rfl, fun y hy hi => Core.mem_doneIn hy hi⟩
  · have stored := (s.began_to g).drainStep_stores (v := 0) ((s.core g).kv.getD {}) ((s.corePart g).getD 0) (s.drainArrays g e.word) hl
      (by rw [Nat.zero_mul, Nat.zero_mul, Nat.add_zero, ha]; decide)
    rw [Nat.zero_mul, Nat.zero_mul, Nat.add_zero] at stored
    exact runDrain_one (s.began_to g) rfl hc hn stored
  · have sent := (s.began_to g).drainStep_sends 0 ((s.core g).kv.getD {}) ((s.corePart g).getD 0) (s.drainArrays g e.word) hl
    have done := runDrain_one (s.began_to g) rfl hc hn sent
    rw [hk] at done
    exact done

/-- Settles O18, from the rules of the commands. -/
theorem windowsAndSemaphores : Obligations.WindowsAndSemaphores := by
  refine ⟨fun s g e h hz hz' hn ha ho hr => h.ends ?_, fun s g _ h hz ha hn ho hc => h.ends (runWinClose_to (s.began_to g) hz ha hn ho hc),
    fun s g _ h hz ha hn ho => h.ends (runWinWait_to (s.began_to g) hz ha hn ho),
    fun s g e h => ⟨fun hv => h.ends (runSemSignal_to (s.began_to g) hv), fun hv herr => h.ends ?_⟩,
    fun s g _ h => h.ends ((s.began_to g).issueOpen ..)⟩
  · have opened := runWinOpen_to (s.began_to g) hz hz' hn ha ho hr
    rw [opened.here]
    refine ⟨?_, fun k hk => ?_, rfl, rfl, rfl, fun y hy hi => (Core.mem_doneIn hy hi).2⟩
    · exact (Core.win_openWin _ _ _ _ [] []).trans (if_pos rfl)
    · exact (Core.win_openWin _ _ _ _ [] []).trans (if_neg hk)
  · obtain ⟨r, hcode, hr⟩ := runSemSignal_overflows (s.began_to g) hv
    rw [hr]
    exact ⟨rfl, r, by rw [Core.doneIn, Core.issuedIn, herr]; rfl, hcode⟩

/-- Settles O19, from the rules of the commands. -/
theorem sendsOccupyTheSendUnit : Obligations.SendsOccupyTheSendUnit := by
  have sends : ∀ (s : State) g e, sendCheck e.word = none →
      ((runSend g e (s.began g)).core g).accepts .send (s.cycOf g) = false ∧ _ := fun s g e hc =>
    have taken := runSend_to (s.began_to g) hc
    ⟨by rw [taken.here]; rfl, taken⟩
  exact ⟨fun s g e h hc => h.ends (sends s g e hc), fun s g e h hc => h.ends (sends s g e hc), fun s g e h hc => h.ends (sends s g e hc),
    fun s g _ h hn ha => h.ends (runSendSpine_to (s.began_to g) hn ha)⟩

/-- Settles O20, from what the hardware's findings do as a command issues. -/
theorem aCommandThatMeetsAnErrorHasNoEffect : Obligations.ACommandThatMeetsAnErrorHasNoEffect := by
  have stops : ∀ (s : State) g e u code (op : Nat) un (run : CmdEntry → State → State), s.Takes g op un e → (s.core g).err = none →
      (u, code) ∈ [(Upset.wregParity, StepCode.wregParity), (.lsUe, .lsUe), (.slabUe, .slabUe)] →
      let t := s.issue g op u run
      (∃ x, (t.core g).err = some x ∧ x.code = code.num ∧ x.cmd = e.idx) ∧ t.rd (.core g) core.SEQ_STATE = 3 ∧
      (∀ a, (t.core g).byte a = (s.core g).byte a) ∧ (t.core g).lfa = (s.core g).lfa ∧ (t.core g).send = (s.core g).send := by
    intro s g e u code op un run h herr hu
    obtain ⟨y, hy, stopped⟩ := State.issue_stops run h hu
    obtain ⟨recorded, stop⟩ := State.fail_stops (s := y) (g := g) (e := e) (by rw [hy]; exact herr) code
    obtain ⟨r, -, -, hr⟩ := y.core_fail g e code
    dsimp only
    rw [stopped]
    refine ⟨recorded, stop, fun a => ?_, ?_, ?_⟩ <;> rw [hr, hy]
    · exact Core.byte_congr rfl rfl rfl rfl rfl
    · rfl
    · rfl
  refine ⟨fun s g e u un code op c h herr hc hu => ?_, fun s g e m h => ?_⟩
  · obtain ⟨k, hk, rfl⟩ : ∃ k : StepCode, (u, k) ∈ [(Upset.wregParity, StepCode.wregParity), (.lsUe, .lsUe), (.slabUe, .slabUe)] ∧ k.num = code := by
      simp only [List.mem_cons, List.not_mem_nil, or_false, Prod.mk.injEq] at hu
      obtain ⟨rfl, rfl⟩ | ⟨rfl, rfl⟩ | ⟨rfl, rfl⟩ := hu
      · exact ⟨.wregParity, by decide, rfl⟩
      · exact ⟨.lsUe, by decide, rfl⟩
      · exact ⟨.slabUe, by decide, rfl⟩
    simp only [List.mem_cons, List.not_mem_nil, or_false, Prod.mk.injEq] at hc
    obtain ⟨rfl, rfl⟩ | ⟨rfl, rfl⟩ | ⟨rfl, rfl⟩ | ⟨rfl, rfl⟩ := hc <;> exact ⟨_, rfl, stops _ _ _ _ _ _ _ _ h herr hk⟩
  · refine ⟨_, rfl, ?_⟩
    rw [State.issue_counts _ h, runBinary, State.rd_wuRun _ _ _ _ _ _ (by decide) (by decide) (by decide)]
    exact State.rd_wr_self _ _ _ _ (by decide)

/-- Settles O10, command by command. -/
theorem commandsStoreOnlyAtTheirDestination : Obligations.CommandsStoreOnlyAtTheirDestination :=
  fun c _ _ _ _ hc ht h => (exec_keeps c hc ht h).byte

/-- Settles O59, from the rules of the elementwise commands and of the page mover. -/
theorem wideAndPageMoverCommandsComplete : Obligations.WideAndPageMoverCommandsComplete := by
  have stored : ∀ (s t : State) g e bs busy lat, s.CoreTo g ((((s.core g).issuedIn (s.cycOf g)).write (cDst e.word) bs).wideEnd e (s.cycOf g) busy lat) t →
      ∀ i, (t.core g).byte i = ((s.core g).write (cDst e.word) bs).byte i := fun s t g e bs busy lat h i => by
    have sameMem : ((s.core g).issuedIn (s.cycOf g)).SameMem (s.core g) := ⟨rfl, rfl, rfl, rfl, rfl⟩
    rw [h.here]
    exact (Core.byte_congr rfl rfl rfl rfl rfl).trans ((sameMem.write ..).byte i)
  refine ⟨fun s g e m hn ha hd => ⟨fun hb => ⟨fun h => h.ends ?_, fun h => h.ends ?_⟩, fun h => h.ends ?_, fun h => h.ends ?_, fun h => h.ends ?_,
      fun h => h.ends ?_⟩,
    fun s m p c bytes hpm hdr hp hf ht hsrc => ?_,
    fun s m u j rest hpm hr hdr hf hj => ⟨_, rfl, pageMoverDone_pops u hpm hr hdr hf hj⟩⟩
  · exact stored _ _ _ _ _ _ _ (runBinary_to fmul 3 m (s.began_to g) hn ha hb hd)
  · exact stored _ _ _ _ _ _ _ (runBinary_to fmax 3 m (s.began_to g) hn ha hb hd)
  · exact stored _ _ _ _ _ _ _ (runUnary_to fexp 8 m (s.began_to g) hn ha hd)
  · exact stored _ _ _ _ _ _ _ (runUnary_to frsqrt 12 m (s.began_to g) hn ha hd)
  · exact stored _ _ _ _ _ _ _ (runUnary_to frecip 10 m (s.began_to g) hn ha hd)
  · exact stored _ _ _ _ _ _ _ (runUnary_to fsilu 14 m (s.began_to g) hn ha hd)
  · have runs : ∀ (op : Nat) bs, 1 ≤ op ∧ op ≤ 6 → s.pmStatus m { c with op := op } = 0 → _ := fun op bs hop =>
      State.pmQueue_runs bs hop hpm hdr hp hf ht hsrc
    exact ⟨fun h => ⟨_, rfl, runs 1 bytes (by decide) h⟩, fun h => ⟨_, rfl, runs 2 [] (by decide) h⟩, fun h => ⟨_, rfl, runs 3 [] (by decide) h⟩,
      fun h => ⟨_, rfl, runs 4 [] (by decide) h⟩, fun h => ⟨_, rfl, runs 5 [] (by decide) h⟩, fun h => ⟨_, rfl, runs 6 [] (by decide) h⟩⟩

end Sys2Proof.Machine
end

section
/-! SUPPORT. The counters of the mesh page, and what a router does with displaced flits and reductions (R142, R152, R158, R164 to R166, R174, R179). -/

namespace Sys2Proof.Machine

/-! ### Lists -/

/-- Where no element before `d` satisfies `p` and `d` does, `d` is the first that does. -/
theorem splitFirst_append {α : Type} {p : α → Bool} {a : List α} {d : α} (b : List α) (ha : ∀ x ∈ a, p x = false) (hd : p d = true) :
    splitFirst p (a ++ d :: b) = some (a, d, b) := by
  induction a with
  | nil => exact if_pos hd
  | cons x a ih => simp [splitFirst, ha x List.mem_cons_self, ih fun y hy => ha y (List.mem_cons_of_mem _ hy)]

theorem contains_addSet_singleton (l : List Nat) (x : Nat) : (addSet l [x]).contains x = true := by
  show (if l.contains x then l else l ++ [x]).contains x = true
  split
  · assumption
  · simp

/-! ### Counters of the mesh page (R179) -/

section
variable (s : State) (g : Nat) (f : Field) (b k : Nat)

@[simp] theorem State.router_meshCount : (s.meshCount g f b).router k = s.router k :=
  congrArg (fun t => Table.get ({} : Router) t k) ((State.meshCount_frame s g f b).routers rfl)

@[simp] theorem State.part_meshCount : (s.meshCount g f b).part k = s.part k :=
  congrArg (fun t => Table.get ({} : Part) t k) ((State.meshCount_frame s g f b).parts rfl)

/-- A counter of the mesh page, none of the common fields below 0x024, counts the event, modulo its width. -/
theorem State.rd_meshCount (hw : f.width ≤ 32) (hlo : 0x24 * 32 ≤ f.off * 32 + f.lsb) (hhi : f.off * 32 + f.lsb < 131072) :
    (s.meshCount g f b).rd (.mesh (tileOf g)) f = (s.rd (.mesh (tileOf g)) f + 1) % 2 ^ f.width :=
  (State.rd_err _ _ b false _ f hlo hhi).trans (State.rd_wr_self s _ f _ hw)

end

/-! ### Displaced flits (R158, R174) -/

section
variable {s : State} {g : Nat} {d : DispFlit}

theorem displacedForward_crosses {rest : List DispFlit} (h : (s.router g).disp = d :: rest) (hfree : d.outs.filter (s.freePort g) ≠ [])
    (hsteps : s.running ((s.corePart g).getD 0) = true → s.steps ((s.corePart g).getD 0) = true) :
    displacedForward s g =
      (let os := d.outs.filter (s.freePort g)
       let left := d.outs.filter (fun o => !os.contains o)
       ((s.updRouter g (fun r => { r with disp := if left = [] then rest else { d with outs := left } :: rest })).usePorts g os).crossAll g os
        d.port d.flit.route (rtOutLabel ((s.router g).route d.port d.flit.route)) d.flit) := by
  have goes : ¬ (d.outs.filter (s.freePort g) = [] ∨ (s.running ((s.corePart g).getD 0) ∧ !s.steps ((s.corePart g).getD 0))) := by
    rintro (hn | ⟨hr, hs⟩)
    · exact hfree hn
    · rw [hsteps hr] at hs
      exact Bool.false_ne_true hs
  unfold displacedForward
  rw [h]
  exact if_neg goes

theorem displacedTimeout_drops {a b : List DispFlit} (h : (s.router g).disp = a ++ d :: b)
    (young : ∀ x ∈ a, (s.part ((s.corePart g).getD 0)).sched < x.since + 256) (old : d.since + 256 ≤ (s.part ((s.corePart g).getD 0)).sched) :
    displacedTimeout s g = (s.updRouter g (fun r => { r with disp := a ++ b })).meshCount g mesh.DISP_DROP_CNT 1 := by
  unfold displacedTimeout
  dsimp only
  rw [h, splitFirst_append b (fun x hx => decide_eq_false (Nat.not_le.2 (young x hx))) (decide_eq_true old)]

end

/-! ### Reductions (R164 to R166) -/

section
variable {s : State} {g rctx : Nat}

theorem State.router_markRed (s : State) (g rctx : Nat) : (s.markRed g rctx).router g =
    { s.router g with redAt := Table.set 0 (s.router g).redAt rctx ((s.part ((s.corePart g).getD 0)).sched + 1) } :=
  State.router_updRouter_self ..

/-- The operands of a reduction leave the router's reduction buffer, and its slot has passed. -/
def State.dropOperands (s : State) (g rctx : Nat) : State :=
  (s.markRed g rctx).updRouter g (fun r => { r with red := ((r.operands rctx).map (·.1)).foldl (fun l o => dropFirst rctx o l) r.red })

theorem State.red_dropOperands (s : State) (g rctx : Nat) : ((s.dropOperands g rctx).router g).red =
    (((s.router g).operands rctx).map (·.1)).foldl (fun l o => dropFirst rctx o l) (s.router g).red := by
  rw [State.dropOperands, State.router_updRouter_self, State.router_markRed]
  rfl

theorem reductionIncomplete_fails (hs : s.redSlots g rctx ≠ []) (hr : s.redReady g rctx = none) (hd : s.redDone g rctx = false) :
    reductionIncomplete s g rctx = ((s.dropOperands g rctx).meshCount g mesh.RED_MISS_CNT 2).updPart ((s.corePart g).getD 0)
      (fun x => { x with routerErrs := addSet x.routerErrs [g], failCode := max x.failCode 4 }) :=
  if_neg (by simp [hs, hr, hd])

/-- What an operation other than LSE_MERGE yields keeps no context. -/
theorem reductionResult_crosses {port label : Nat} {os : List (Nat × Nat)} {f : RedFlit} {fs : List RedFlit} {res : List Byte} {cx : RedCtx}
    (hs : s.redSlots g rctx ≠ []) (ho : (s.router g).operands rctx = (port, label) :: os) (hr : s.redReady g rctx = some (f :: fs, res, cx))
    (hd : s.redDone g rctx = false) (hop : f.flit.op ≠ 5) :
    reductionResult s g rctx = ((s.markRed g rctx).updRouter g (fun r => { r with
        red := (f :: fs).foldl (fun l x => dropFirst rctx x.port l) r.red, redCtx := r.redCtx.filter (fun c => c.rctx ≠ rctx) })).crossAll g
      ((s.redSlots g rctx).map slOut) port label (rtOutLabel ((s.router g).route port label)) { f.flit with payload := res } := by
  unfold reductionResult
  dsimp only
  rw [if_neg (by simp [hs, hd]), hr, ho]
  simp only [hop, false_and, if_false, if_true, List.append_nil]
  rw [State.router_updRouter_self, State.router_markRed]
  rfl

theorem reductionResult_done (hd : s.redDone g rctx = true) : reductionResult s g rctx = s :=
  if_pos (by simp [hd])

theorem reductionIncomplete_done (hd : s.redDone g rctx = true) : reductionIncomplete s g rctx = s :=
  if_pos (.inr (.inr hd))

/-- Two ADD_INT32 operands, from one cycle after the later of them (R165). -/
theorem State.redReady_addInt32 {x y : RedFlit} (h : (s.router g).have rctx = [some x, some y]) (hcx : (s.router g).redCtx = []) (hop : x.flit.op = 1)
    (hdue : max x.arr y.arr + 1 ≤ (s.part ((s.corePart g).getD 0)).sched) :
    s.redReady g rctx = some ([x, y], accumulate 1 x.flit.payload y.flit.payload, { rctx := rctx, n := 1 }) := by
  have two : ((s.router g).operands rctx).length = 2 := by
    rw [← List.length_map]
    exact congrArg List.length h
  have ready : ¬ (2 ≠ ((s.router g).operands rctx).length ∨
      (s.part ((s.corePart g).getD 0)).sched < maxOf [x.arr, y.arr] + redLatency x.flit.op 2 0 ∨ (s.part ((s.corePart g).getD 0)).sched < 0) := by
    rw [two, hop]
    simp only [maxOf, redLatency, List.foldl]
    omega
  unfold State.redReady
  dsimp only
  rw [h, hcx]
  exact (if_neg ready).trans ((if_neg (by rw [hop]; decide)).trans (by rw [hop]; rfl))

end

end Sys2Proof.Machine
end

section
/-! The statements of spec/06_scratchpad_sync.md: displaced flits and reductions at a router (O25). -/

namespace Sys2Proof.Machine

/-- Settles O25, from what each of the four commands does at its router. -/
theorem displacedFlitsAndReductions : Obligations.DisplacedFlitsAndReductions := by
  refine ⟨fun s g d rest h hfree hsteps => congrArg Host.Outcome.next (displacedForward_crosses h hfree hsteps),
    fun s g a d b h young old => ⟨_, congrArg Host.Outcome.next (displacedTimeout_drops h young old), ?_, ?_, ?_, ?_⟩,
    fun s g rctx port label os f fs res cx hs ho hr hd hop => congrArg Host.Outcome.next (reductionResult_crosses hs ho hr hd hop),
    fun s g rctx x y h hcx hop hdue => State.redReady_addInt32 h hcx hop hdue,
    fun s g rctx hs hr hd => ⟨_, congrArg Host.Outcome.next (reductionIncomplete_fails hs hr hd), ?_, ?_, ?_, ?_, ?_, ?_⟩,
    fun s g rctx hd => ⟨congrArg Host.Outcome.next (reductionResult_done hd), congrArg Host.Outcome.next (reductionIncomplete_done hd)⟩⟩
  · rw [State.router_meshCount, State.router_updRouter_self]
  · exact (State.meshCount_frame ..).links rfl
  · exact (State.meshCount_frame ..).cores rfl
  · exact State.rd_meshCount _ _ _ _ (by decide) (by decide) (by decide)
  · rw [State.router_updPart, State.router_meshCount, State.red_dropOperands]
  · exact (State.meshCount_frame ..).links rfl
  · exact (State.meshCount_frame ..).cores rfl
  · exact State.rd_meshCount _ _ _ _ (by decide) (by decide) (by decide)
  · rw [State.part_updPart_self]
    exact contains_addSet_singleton _ _
  · rw [State.part_updPart_self, State.part_meshCount]
    rfl

end Sys2Proof.Machine
end

section
/-! SUPPORT. The watershed of a router: what the phase FIFO of its input leaves of the MESH page, and what the discard of a flit records (R168, R176,
R179). -/

namespace Sys2Proof.Machine

/-! ### The input of a router (R168, R181) -/

section
variable (s : State) (g port : Nat) {f : Field}

theorem State.rd_routerQueueErr (q : Page) (hlo : 0x24 * 32 ≤ f.off * 32 + f.lsb) (hhi : f.off * 32 + f.lsb < 131072) :
    (s.routerQueueErr g).rd q f = s.rd q f :=
  (State.rd_updPart ..).trans (State.rd_err _ _ _ _ _ _ hlo hhi)

/-- A phase FIFO takes flits up in the page of its saddle: the block's own fields of the MESH page keep their values. -/
theorem State.rd_phaseFifo_mesh (edge : Nat) (hlo : 0x24 * 32 ≤ f.off * 32 + f.lsb) (hhi : f.off * 32 + f.lsb < 131072) :
    (s.phaseFifo g port edge).rd (.mesh (tileOf g)) f = s.rd (.mesh (tileOf g)) f := by
  have raised : ∀ v, (s.raise (.saddle (tileOf g) edge) saddle.FIFO_MAX v).rd (.mesh (tileOf g)) f = s.rd (.mesh (tileOf g)) f := fun v => by
    refine State.rd_raise_ne _ _ _ _ _ _ ?_
    simp only [regKey, Page.id, saddle.FIFO_MAX]
    omega
  unfold State.phaseFifo
  dsimp only
  split
  · exact raised _
  · rw [State.rd_routerQueueErr _ _ _ hlo hhi, State.rd_err _ _ _ _ _ _ hlo hhi]
    exact raised _

theorem State.rd_atInput_mesh (hlo : 0x24 * 32 ≤ f.off * 32 + f.lsb) (hhi : f.off * 32 + f.lsb < 131072) :
    (s.atInput g port).rd (.mesh (tileOf g)) f = s.rd (.mesh (tileOf g)) f := by
  unfold State.atInput
  split
  · exact State.rd_phaseFifo_mesh _ _ _ _ hlo hhi
  · rfl

end

/-! ### The discard of a flit (R176) -/

section
variable (s : State) (g port part : Nat)

/-- What the discard of a flit shows in the MESH page: one more discarded, and the router, the port and the partition of this one. -/
theorem State.watershedDrop_records :
    let t := s.watershedDrop g port part
    let pg := Page.mesh (tileOf g)
    t.rd pg mesh.WS_DROP_CNT = (s.rd pg mesh.WS_DROP_CNT + 1) % 2 ^ 32 ∧ t.rd pg mesh.WS_DROP_RTR = g % 256 ∧
      t.rd pg mesh.WS_DROP_PORT = port % 8 ∧ t.rd pg mesh.WS_DROP_PART = part % 16 ∧ t.flag pg mesh.WS_DROP_VALID = true := by
  intro t pg
  have kept : ∀ (x : State) (k : Field), k.off * 32 + k.lsb ≠ mesh.WS_DROP_VALID.off * 32 + mesh.WS_DROP_VALID.lsb → k.off % 4 = 0 → k.lsb < 32 →
      k.off < 4096 → (x.raiseFlag pg mesh.WS_DROP_VALID).rd pg k = x.rd pg k := fun x k hn hk hl hk' =>
    State.rd_raiseFlag_ne _ _ _ _ _ (by simp only [regKey]; omega) rfl hk hl (by decide) hk'
  refine ⟨?_, ?_, ?_, ?_, State.flag_raiseFlag _ _ _ rfl⟩ <;> refine (kept _ _ (by decide) rfl (by decide) (by decide)).trans ?_
  · rw [State.rd_wr_field _ _ _ _ _ (by decide), State.rd_wr_field _ _ _ _ _ (by decide), State.rd_wr_field _ _ _ _ _ (by decide)]
    exact State.rd_meshCount _ _ _ _ (by decide) (by decide) (by decide)
  · rw [State.rd_wr_field _ _ _ _ _ (by decide), State.rd_wr_field _ _ _ _ _ (by decide), State.rd_wr_self _ _ _ _ (by decide)]
    exact Nat.mod_mod _ _
  · rw [State.rd_wr_field _ _ _ _ _ (by decide), State.rd_wr_self _ _ _ _ (by decide)]
    rfl
  · exact State.rd_wr_self _ _ _ _ (by decide)

end

/-- A flit of another partition than its router's is discarded as it comes off the link. -/
theorem flitArrival_foreign {s s1 : State} {g port : Nat} {f : Flit} {late : Bool} (hh : s.inHoldCycle ((s.corePart g).getD 0) = false)
    (h : (s.atInput g port).takeDue g port = some (f, late, s1)) (hp : s1.rd (.mesh (tileOf g)) mesh.PART_ID ≠ f.part) :
    flitArrival s g port false = s1.watershedDrop g port f.part := by
  unfold flitArrival
  rw [hh, if_neg Bool.false_ne_true]
  dsimp only
  rw [h]
  dsimp only
  split
  · contradiction
  · exact if_pos hp

end Sys2Proof.Machine
end

section
/-! SUPPORT. Failed channels (R169, R191, R193, R199): what a saddle's channel that fails leaves to wait for the spare, the swap in a boundary hold, a
stack channel declared for the next boundary, and the registers that a refresh leaves alone. -/

namespace Sys2Proof.Machine

/-! ### A channel of a saddle (R169) -/

/-- An error event keeps the partition of a tile. -/
theorem State.tilePart_err (s : State) (pg : Page) (b t : Nat) : (s.err pg b).tilePart t = s.tilePart t :=
  congrArg (fun v => if v < 12 then some v else none) (State.rd_err _ _ _ _ _ _ (by decide) (by decide))

/-- A write at another place than PART_ID keeps the partition of a tile. -/
theorem State.tilePart_wr (s : State) (pg : Page) (f : Field) (v t : Nat) (h : mesh.PART_ID.off * 32 + mesh.PART_ID.lsb < f.off * 32 + f.lsb)
    (hf : f.off * 32 + f.lsb < 131072) : (s.wr pg f v).tilePart t = s.tilePart t :=
  congrArg (fun v => if v < 12 then some v else none) (State.rd_wr_place _ _ _ _ _ _ h hf)

/-- What shows of a failed channel in the page of one end of its saddle (R169). -/
def State.showFailed (ch : Nat) (lock : Bool) (s : State) (x : Nat × Nat) : State :=
  let pg := Page.saddle x.1 x.2
  let s := s.wr pg saddle.CH_FAIL (Nat.lor (s.rd pg saddle.CH_FAIL) (2 ^ ch))
  if lock then (s.wr pg saddle.CH_LOCK (Nat.land (s.rd pg saddle.CH_LOCK) (Nat.xor 127 (2 ^ ch)))).err pg 1 else s

theorem State.showFailed_frame (ch : Nat) (lock : Bool) (s : State) (x : Nat × Nat) : Frame (fp.regs + fp.sent) s (s.showFailed ch lock x) :=
  Frame.ite (Frame.step (State.err_frame ..) rfl (Frame.step (State.wr_frame ..) rfl (Frame.step (State.wr_frame ..) rfl (Frame.refl _ s))))
    (Frame.step (State.wr_frame ..) rfl (Frame.refl _ s))

theorem State.tilePart_showFailed (ch : Nat) (lock : Bool) (s : State) (x : Nat × Nat) (t : Nat) : (s.showFailed ch lock x).tilePart t = s.tilePart t := by
  unfold State.showFailed
  dsimp only
  split
  · rw [State.tilePart_err, State.tilePart_wr _ _ _ _ _ (by decide) (by decide), State.tilePart_wr _ _ _ _ _ (by decide) (by decide)]
  · exact State.tilePart_wr _ _ _ _ _ (by decide) (by decide)

/-- The channel `ch` of the saddle between edge `e` of tile `t` and tile `u` is declared failed, and both ends show it. -/
def State.saddleDeclared (s : State) (t e u ch : Nat) (lock : Bool) : State :=
  [(t, e), (u, (e + 2) % 4)].foldl (State.showFailed ch lock) (s.updSaddle (saddleKey t e) (fun x => { x with failed := x.failed ++ [ch] }))

section
variable (s : State) (t e u ch : Nat) (lock : Bool)

theorem State.saddleDeclared_frame : Frame (fp.regs + fp.sent)
    (s.updSaddle (saddleKey t e) (fun x => { x with failed := x.failed ++ [ch] })) (s.saddleDeclared t e u ch lock) :=
  Frame.foldl _ _ (Frame.refl _ _) (State.showFailed_frame ch lock)

theorem State.tilePart_saddleDeclared (v : Nat) : (s.saddleDeclared t e u ch lock).tilePart v = s.tilePart v :=
  (State.tilePart_showFailed ..).trans (State.tilePart_showFailed ..)

theorem State.saddle_saddleDeclared : (s.saddleDeclared t e u ch lock).saddle (saddleKey t e) =
    { s.saddle (saddleKey t e) with failed := (s.saddle (saddleKey t e)).failed ++ [ch] } := by
  rw [State.saddle, (State.saddleDeclared_frame ..).saddles rfl]
  exact State.saddle_updSaddle_self ..

end

/-- A cut that is abandoned changes the load that asked for it alone: what does not depend on the load of a partition is the same. -/
theorem State.part_abandonCut {α : Type} (f : Part → α) (hf : ∀ x l, f { x with job := l } = f x) (s : State) (p : Nat) :
    f ((s.abandonCut (some p)).part p) = f (s.part p) := by
  unfold State.abandonCut
  dsimp only
  split
  · rw [State.abortLoad, State.part_updPart_self, hf]
  · rfl

/-- What an abandoned cut leaves of a partition depends on the partitions alone. -/
theorem State.part_abandonCut_congr {s t : State} (h : t.parts = s.parts) (p : Nat) : (t.abandonCut (some p)).part p = (s.abandonCut (some p)).part p := by
  have same : t.part p = s.part p := congrArg (fun l => Table.get ({} : Part) l p) h
  unfold State.abandonCut
  dsimp only
  rw [same]
  split
  · rw [State.abortLoad, State.abortLoad, State.part_updPart_self, State.part_updPart_self, same]
  · exact same

/-- The first channel 0 to 5 of a saddle between two tiles of one partition that fails outside a replay tick waits for the spare, and its swap is
pending for the partition's next drain or boundary hold. -/
theorem saddleChannelFail_waits {s : State} {t e ch u p : Nat} {lock : Bool} (hn : neighbour t e = some u) (hch : ch < 6)
    (hf : (s.saddle (saddleKey t e)).failed = [])
    (hl : lock = true ∨ 3 ≤ ((s.saddle (saddleKey t e)).crc.filter (fun c => c.1 = ch && decide (s.clock < c.2 + 2 ^ 20))).length)
    (hp : s.tilePart t = some p) (hq : s.tilePart u = some p) (hu : (s.saddle (saddleKey t e)).unused.contains ch = false) (hr : s.inReplay p = false) :
    (saddleChannelFail s t e ch lock).saddle (saddleKey t e) =
        { s.saddle (saddleKey t e) with failed := [ch], pending := some (ch, (s.part p).tick) } ∧
      (saddleChannelFail s t e ch lock).part p = { (s.abandonCut (some p)).part p with swapPend := (s.part p).swapPend ++ [(t, e, ch)] } := by
  have found : (lock || decide (3 ≤ ((s.saddle (saddleKey t e)).crc.filter (fun c => c.1 = ch && decide (s.clock < c.2 + 2 ^ 20))).length)) = true := by
    simpa using hl
  have numbered : ¬ 6 < ch := by omega
  unfold saddleChannelFail
  dsimp only
  rw [hn]
  dsimp only
  rw [found, hu, hf, decide_eq_false numbered, List.contains_nil, Bool.not_true, Bool.or_false, Bool.or_false, Bool.or_false,
    if_neg Bool.false_ne_true]
  generalize hx : List.foldl _ (s.updSaddle (saddleKey t e) _) _ = x
  obtain rfl : s.saddleDeclared t e u ch lock = x := hx
  rw [State.tilePart_saddleDeclared, State.tilePart_saddleDeclared, hp, hq]
  generalize hy : State.abandonCut _ (some p) = y
  have saddleNow : y.saddle (saddleKey t e) = { s.saddle (saddleKey t e) with failed := [ch] } := by
    rw [State.saddle, ← hy, (State.abandonCut_frame ..).saddles rfl]
    exact (State.saddle_saddleDeclared ..).trans (by rw [hf]; rfl)
  have partNow : y.part p = (s.abandonCut (some p)).part p := by
    rw [← hy, State.part_abandonCut_congr (s := s) ((State.saddleDeclared_frame ..).parts rfl)]
  have tick : (y.part p).tick = (s.part p).tick := by rw [partNow, State.part_abandonCut Part.tick (fun _ _ => rfl)]
  have swaps : (y.part p).swapPend = (s.part p).swapPend := by rw [partNow, State.part_abandonCut Part.swapPend (fun _ _ => rfl)]
  have replay : y.inReplay p = false := by
    rw [State.inReplay, State.running, partNow, State.part_abandonCut Part.phase (fun _ _ => rfl), State.part_abandonCut Part.replay (fun _ _ => rfl)]
    exact hr
  have one : ¬ 2 ≤ (y.saddle (saddleKey t e)).failed.length := by
    rw [saddleNow]
    exact Nat.not_le.2 (Nat.lt_succ_self 1)
  have both : ((some p).isSome && decide (some p = some p)) = true := decide_eq_true rfl
  rw [if_neg one, if_neg (by omega), both, Bool.not_true, if_neg Bool.false_ne_true, Option.getD_some, tick]
  rw [if_neg (fun now : (y.updSaddle _ _).inReplay p = true => Bool.false_ne_true (replay.symm.trans now))]
  constructor
  · rw [State.saddle_updPart, State.saddle_updSaddle_self, saddleNow]
  · rw [State.part_updPart_self, State.part_updSaddle, swaps, partNow]

/-- What shows of a swap in the page of one end of the saddle (R169). -/
def State.showSwap (c : Nat) (s : State) (x : Nat × Nat) : State :=
  ((s.wr (.saddle x.1 x.2) saddle.SPARE_FOR c).inc (.saddle x.1 x.2) saddle.SWAP_CNT 1).err (.saddle x.1 x.2) 2

theorem State.showSwap_frame (c : Nat) (s : State) (x : Nat × Nat) : Frame (fp.regs + fp.sent) s (s.showSwap c x) :=
  Frame.step (State.err_frame ..) rfl (Frame.step (State.inc_frame ..) rfl (Frame.step (State.wr_frame ..) rfl (Frame.refl _ s)))

/-- The spare takes over channel `c` of the saddle between edge `e` of tile `t` and tile `u`, in partition `p`: nothing waits any more, and both ends
show it. -/
def State.spareSwapped (s : State) (t e u p c : Nat) : State :=
  [(t, e), (u, (e + 2) % 4)].foldl (State.showSwap c)
    ((s.updSaddle (saddleKey t e) (fun x => { x with pending := none })).updPart p (fun x => { x with
      swapPend := x.swapPend.filter (fun w => !(saddleKey w.1 w.2.1 = saddleKey t e)) }))

theorem State.mapped_spareSwapped (s : State) (t e u p c kind i : Nat) : (s.spareSwapped t e u p c).mapped kind i = s.mapped kind i := by
  have swaps : Frame (fp.regs + fp.sent) _ (s.spareSwapped t e u p c) := Frame.foldl _ _ (Frame.refl _ _) (State.showSwap_frame c)
  rw [State.mapped, swaps.faultMap rfl]
  rfl

/-- The swap in a boundary hold is an event of the hold, unless the fault map names the channel already. -/
theorem saddleSpareSwap_in_hold {s : State} {t e u p c n tick : Nat} (hpend : (s.saddle (saddleKey t e)).pending = some (c, tick))
    (hn : neighbour t e = some u) (hp : s.tilePart t = some p) (hq : s.tilePart u = some p) (hh : (s.part p).phase = .boundaryHold n) :
    saddleSpareSwap s t e = if s.mapped 2 (saddleKey t e * 8 + c) ≠ 0 then s.spareSwapped t e u p c else
      ((s.spareSwapped t e u p c).noteHold p 2 128 128).record
        { cls := 2, path := 6, part := p, outcome := 0, loc := t, unit := c, tick := tick, hold := 128, intr := 128 } [(2, saddleKey t e * 8 + c, 1)] [p] := by
  rw [← State.mapped_spareSwapped s t e u p c]
  unfold saddleSpareSwap
  dsimp only
  rw [hpend, hn, hp]
  dsimp only [Option.getD_some]
  simp only [hq, hh]
  exact if_neg nofun

/-! ### A channel of a stack (R191, R193) -/

/-- A channel declared for the next boundary: its buffer keeps the places of the flits that it lost (R193). -/
def Chan.declared (c : Chan) (lock : Bool) : Chan :=
  { c with failNext := true, noLock := c.noLock || lock, buffer := c.buffer.map (fun x => (x.1, { x.2 with payload := [] })) }

/-- The channel `ch` of site `m` is declared: the site's page shows the error, and the memory saddle's a lock that is lost. -/
def State.channelDeclared (s : State) (m ch : Nat) (lock : Bool) : State :=
  let s := ((s.abandonCut (s.sitePart m)).updChan m ch (fun c => c.declared lock)).err (.msite m) 1
  let pg := Page.saddle (siteTile m) 4
  if lock ∧ bit (s.rd pg saddle.MCH_LOCK) ch then s.wr pg saddle.MCH_LOCK (s.rd pg saddle.MCH_LOCK - 2 ^ ch) else s

theorem State.site_channelDeclared (s : State) (m ch : Nat) (lock : Bool) :
    (s.channelDeclared m ch lock).site m = (s.updChan m ch (fun c => c.declared lock)).site m := by
  have cut : (s.abandonCut (s.sitePart m)).sites = s.sites := (State.abandonCut_frame ..).sites rfl
  have shown : Frame (fp.regs + fp.sent) ((s.abandonCut (s.sitePart m)).updChan m ch (fun c => c.declared lock)) (s.channelDeclared m ch lock) :=
    Frame.ite (Frame.step (State.wr_frame ..) rfl (State.err_frame ..)) (State.err_frame ..)
  rw [State.site, shown.sites rfl, State.updChan, State.updSite, cut]
  rfl

theorem State.chan_channelDeclared (s : State) (m ch : Nat) (lock : Bool) :
    (s.channelDeclared m ch lock).chan m ch = (s.chan m ch).declared lock := by
  rw [State.chan, State.site_channelDeclared]
  exact (State.chan_updChan ..).trans (if_pos rfl)

theorem State.siteErr_channelDeclared (s : State) (m ch : Nat) (lock : Bool) :
    ((s.channelDeclared m ch lock).site m).siteErr = (s.site m).siteErr := by
  rw [State.site_channelDeclared, State.updChan, State.site_updSite_self]

/-- A stack channel that loses its lock, or meets errors too often, is declared, and a read cut short is SITE_UE. -/
theorem memChannelFail_declares {s : State} {m ch : Nat} {lock : Bool} (hf : (s.chan m ch).failNext = false) (hc : s.chFailed m ch = false)
    (hl : lock = true ∨ 3 ≤ ((s.chan m ch).ueTimes.filter (fun t => decide (s.clock < t + 2 ^ 20))).length ∨
      3 ≤ ((s.chan m ch).crcTimes.filter (fun t => decide (s.clock < t + 2 ^ 20))).length) :
    memChannelFail s m ch lock = if (s.chan m ch).buffer ≠ [] then (s.channelDeclared m ch lock).siteError m 1 else s.channelDeclared m ch lock := by
  have found : (lock || decide (3 ≤ (s.chan m ch).ueTimes.countP (fun t => decide (s.clock < t + 2 ^ 20))) ||
      decide (3 ≤ (s.chan m ch).crcTimes.countP (fun t => decide (s.clock < t + 2 ^ 20)))) = true := by
    simpa [List.countP_eq_length_filter, or_assoc] using hl
  unfold memChannelFail
  dsimp only
  rw [hf, hc, found]
  exact (if_neg Bool.false_ne_true).trans rfl

/-! ### A refresh (R199) -/

/-- A refresh raises QMAX of its channel and changes no register at another place. -/
theorem stackRefresh_rd (s : State) (m ch : Nat) (pg : Page) (f : Field) (h : regKey pg f ≠ regKey (.mchan m ch) mchan.QMAX) :
    (stackRefresh s m ch).rd pg f = s.rd pg f :=
  (State.rd_raise_ne _ _ _ _ _ _ h).trans (State.rd_updSite ..)

theorem stackRefresh_chan (s : State) (m ch : Nat) :
    (stackRefresh s m ch).chan m ch = { s.chan m ch with refreshes := (s.chan m ch).refreshes + 1 } := by
  rw [stackRefresh, State.chan, State.site_noteQueue]
  exact (State.chan_updChan ..).trans (if_pos rfl)

theorem stackRefresh_qmax (s : State) (m ch : Nat) : s.rd (.mchan m ch) mchan.QMAX ≤ (stackRefresh s m ch).rd (.mchan m ch) mchan.QMAX := by
  have raised : ∀ (x : State) (pg : Page), ∀ v < 64, x.rd pg mchan.QMAX ≤ (x.raise pg mchan.QMAX v).rd pg mchan.QMAX := fun x pg v hv => by
    rw [State.rd_raise_self x pg mchan.QMAX v (by decide) hv]
    exact Nat.le_max_left _ _
  exact raised (s.updChan m ch _) _ _ (Nat.lt_of_le_of_lt (Nat.add_le_add (Nat.min_le_right _ _) (Nat.min_le_left _ _)) (by decide))

/-- What O27 says holds but for its one clause about the registers of other pages, to which the statement comes down. -/
theorem failedChannels_iff : Obligations.FailedChannels ↔
    ∀ (s : State) m ch pg f, pg ≠ .mchan m ch → (stackRefresh s m ch).rd pg f = s.rd pg f := by
  refine ⟨fun h s m ch pg f hpg => ?_, fun others => ⟨fun s t e ch lock u p hn hch hf hl hp hq hu hr => ?_, fun s t e c tick u p hpend hn hp hq hh => ?_,
    fun s m ch lock hf hc hl => ?_, fun s m ch => ?_⟩⟩
  · obtain ⟨-, -, -, refresh⟩ := h
    obtain ⟨t, runs, -, others, -⟩ := refresh s m ch
    cases runs
    exact others pg f hpg
  · exact ⟨_, rfl, saddleChannelFail_waits hn hch hf hl hp hq hu hr⟩
  · obtain ⟨n, hn'⟩ := hh
    have swapped := saddleSpareSwap_in_hold hpend hn hp hq hn'
    exact ⟨fun hm => congrArg Host.Outcome.next (swapped.trans (if_neg (not_not_intro hm))),
      fun hm => congrArg Host.Outcome.next (swapped.trans (if_pos hm))⟩
  · refine ⟨_, congrArg Host.Outcome.next (memChannelFail_declares hf hc hl), ?_⟩
    split
    · next hb =>
      refine ⟨?_, fun _ => ?_, fun hn => absurd hn hb⟩
      · rw [State.siteError, State.chan, State.site_updSite_self]
        exact State.chan_channelDeclared s m ch lock
      · rw [State.siteError, State.site_updSite_self, State.siteErr_channelDeclared]
    · next hb =>
      exact ⟨State.chan_channelDeclared s m ch lock, fun hn => absurd hn hb, fun _ => State.siteErr_channelDeclared s m ch lock⟩
  · exact ⟨_, rfl, stackRefresh_chan s m ch, others s m ch, stackRefresh_qmax s m ch⟩

end Sys2Proof.Machine
end

section
/-! SUPPORT. The six operations of a page mover: a command runs as it comes to an empty queue, what each operation does with a source that it can read,
and the completion word of the oldest command (R173, R190, R191, R201). -/

namespace Sys2Proof.Machine

variable {s : State} {m : Nat}

/-! ### Reads that meet no error (R191) -/

/-- An upset without errors changes nothing and loses no line. -/
theorem State.readUpset_clean {u : StackUpset} (hc : upsetCes u = []) (hu : upsetUes u = []) (s : State) (m : Nat) (r : Region) (n : Nat)
    (at_ : Nat → Nat) : s.readUpset m r n at_ u = (s, []) := by
  unfold State.readUpset
  rw [hc, hu]
  rfl

theorem State.oldLines_clean {u : StackUpset} (hc : upsetCes u = []) (hu : upsetUes u = []) (s : State) (m : Nat) (r : Region) (n : Nat)
    (at_ : Nat → Nat) : s.oldLines m r n at_ u = (s, []) := by
  unfold State.oldLines
  rw [State.readUpset_clean hc hu, ite_self]

/-- Source lines that can all be read are read without a change. -/
theorem State.sourceLines_clean {r : Region} {n : Nat} {at_ : Nat → Nat} (h : (s.sourceLines m r n at_ .none).2 = []) :
    s.sourceLines m r n at_ .none = (s, []) := by
  refine Prod.ext ?_ h
  unfold State.sourceLines
  rw [State.readUpset_clean (u := .none) rfl rfl]

/-! ### One command (R190, R201) -/

/-- A source line that cannot be read is status 5, and nothing is counted. -/
theorem State.pmExec_unreadable {j : PmJob} (hst : s.pmStatus m j.cmd = 0) (hlo : 2 ≤ j.cmd.op) (hhi : j.cmd.op ≤ 5)
    (hl : (s.sourceLines m (s.region m j.cmd.region) j.cmd.length (fun i => 32 * j.cmd.offset + 32 * i) j.upset).2 ≠ []) :
    (s.pmExec m j).2 = { j with ran := true, status := 5, count := 0 } := by
  obtain ⟨x, a, l, hx⟩ : ∃ x a l, s.sourceLines m (s.region m j.cmd.region) j.cmd.length (fun i => 32 * j.cmd.offset + 32 * i) j.upset = (x, a :: l) := by
    obtain ⟨a, l, hal⟩ := List.exists_cons_of_ne_nil hl
    exact ⟨_, a, l, Prod.ext rfl hal⟩
  have ops : j.cmd.op = 2 ∨ j.cmd.op = 3 ∨ j.cmd.op = 4 ∨ j.cmd.op = 5 := by omega
  unfold State.pmExec
  dsimp only
  rw [if_neg (not_not_intro hst), hx]
  obtain op | op | op | op := ops <;> (rw [op]; rfl)

/-- A command that its range, its kind or its key stops moves nothing: a range of another owner is counted, and a key that is not loaded. -/
theorem State.pmExec_stopped {j : PmJob} (hst : s.pmStatus m j.cmd ≠ 0) :
    s.pmExec m j = (if s.pmStatus m j.cmd = 1 then s.ownerMiss m
      else if s.pmStatus m j.cmd = 4 then s.keyMiss m (s.region m j.cmd.region).keySlot else s,
      { j with ran := true, status := s.pmStatus m j.cmd, count := 0 }) := if_pos hst

/-- The status of the source's range comes before all others (R200). -/
theorem State.pmStatus_of_source {c : PmCmd} {k : Nat} (h : s.pmRange m c.region (32 * c.offset) (32 * c.length) = k) (hk : k ≠ 0) :
    s.pmStatus m c = k := (if_pos (by rwa [h])).trans h

theorem State.pmRange_invalid {i x n : Nat} (h : (s.region m i).valid = false) : s.pmRange m i x n = 2 := if_pos (by rw [h]; rfl)

theorem State.pmRange_foreign {i x n : Nat} (h : (s.region m i).valid = true) (hs : s.serves m (s.region m i) = false) : s.pmRange m i x n = 1 :=
  (if_neg (by rw [h]; decide)).trans (if_pos (by rw [hs]; rfl))

/-! ### A command comes to an empty queue (R201) -/

/-- A page mover that may run runs the one command of its queue, and keeps it for its completion. -/
theorem State.pmRun_single {j : PmJob} (hf : s.pmFree m = true) (hpm : (s.site m).pm = [j]) (hi : j.inner = false) (hr : j.ran = false) :
    s.pmRun m = (s.pmExec m j).1.updSite m (fun x => { x with pm := [(s.pmExec m j).2] }) := by
  unfold State.pmRun
  rw [hf, Bool.not_true, if_neg Bool.false_ne_true, hpm]
  simp only [State.pmRunList, hi, hr, Bool.false_and, Bool.false_eq_true, if_false]

/-- A command in the queue of a page mover, as its initiator `p` and the site keep it. -/
def State.pmKept (s : State) (m p : Nat) (j : PmJob) (expect : Nat) : State :=
  let s0 := s.addXfer p { site := m, cmd := j.cmd, bytes := j.bytes, expect := expect }
  ((s0.updSite m (fun x => { x with pm := x.pm ++ [j] })).wr (.msite m) msite.PM_QFILL 1).noteQueue m (s0.writeChans m (s0.region m j.cmd.region)) 0

theorem State.pmKept_same (p : Nat) (j : PmJob) (expect : Nat) : State.SameSite m s (s.pmKept m p j expect) := by
  have kept : ∀ x : Xfer, State.SameSite m s (s.addXfer p x) := fun _ => ⟨⟨_, rfl⟩, fun _ _ _ => rfl⟩
  exact (kept _).queued (· ++ [j]) 1 _ 0

theorem State.pm_pmKept (hpm : (s.site m).pm = []) (p : Nat) (j : PmJob) (expect : Nat) : ((s.pmKept m p j expect).site m).pm = [j] := by
  rw [State.pmKept, State.site_noteQueue, State.site_wr, State.site_updSite_self]
  exact congrArg (· ++ [j]) hpm

/-- A command that comes to a page mover that may run, with an empty queue, runs at once. -/
theorem State.pmQueue_at_once {p op : Nat} {c : PmCmd} (bytes : List Byte) (u : StackUpset) (hpm : (s.site m).pm = [])
    (hd : (s.site m).draining = false) (hp : s.sitePart m = some p) (hf : s.pmFree m = true)
    (ht : (s.part p).xfers.any (fun x => x.cmd.tid = c.tid) = false) :
    let j : PmJob := { cmd := { c with op := op }, bytes := bytes, upset := u }
    let t := s.pmKept m p j (if op = 3 ∨ op = 4 then (32 * c.length + 23) / 24 else c.length)
    s.pmQueue m op c bytes false u = (t.pmExec m j).1.updSite m (fun x => { x with pm := [(t.pmExec m j).2] }) := by
  intro j t
  have kept : ∀ x : Xfer, (s.addXfer p x).site m = s.site m := fun _ => rfl
  rw [← State.pmRun_single ((State.pmKept_same ..).pmFree.trans hf) (State.pm_pmKept hpm ..) rfl rfl]
  unfold State.pmQueue
  rw [hpm, if_neg (by decide), hp]
  dsimp only
  rw [ht, if_neg Bool.false_ne_true, kept, hd, if_neg Bool.false_ne_true, hpm]
  rfl

/-! ### Completion (R173, R201) -/

/-- The queue of a page mover without its oldest command. -/
def State.pmPopped (s : State) (m : Nat) (rest : List PmJob) : State :=
  (s.updSite m (fun x => { x with pm := rest })).wr (.msite m) msite.PM_QFILL rest.length

theorem State.sitePart_pmPopped (rest : List PmJob) : (s.pmPopped m rest).sitePart m = s.sitePart m :=
  congrArg (fun v => if v < 12 then some v else none) (State.rd_wr_field _ _ _ _ _ (by decide))

/-- The oldest command, once it has run, leaves a page mover that may not start another, and its completion word goes out: at once for what is complete
only with its last flit. -/
theorem pageMoverDone_tells {j : PmJob} {rest : List PmJob} (u : StackUpset) (hpm : (s.site m).pm = j :: rest) (hr : j.ran = true)
    (hd : (s.site m).draining = false) (hf : s.pmFree m = false) (hj : (s.part ((s.sitePart m).getD 0)).job = none) :
    let x := s.pmPopped m rest
    let p := (s.sitePart m).getD 0
    pageMoverDone s m u = if (j.cmd.op = 3 ∨ j.cmd.op = 4) ∧ j.status = 0 then x.emit (.spineDone (x.primary p) j.cmd.tid 0 j.count)
      else x.spineDone p j.cmd.tid j.status j.count := by
  intro x p
  have idle : s.pmRun m = s := by
    unfold State.pmRun
    rw [hf]
    rfl
  have head : s.pmHead m u = s := by
    unfold State.pmHead
    rw [hpm]
    dsimp only
    rw [hr, Bool.or_true, Bool.true_or, if_pos rfl]
  have drained : (s.pmPopped m rest).pmDrained m = s.pmPopped m rest := State.pmDrained_up (by
    rw [State.pmPopped, State.site_wr, State.site_updSite_self]
    exact hd)
  unfold pageMoverDone
  rw [idle, head]
  dsimp only
  rw [hpm]
  dsimp only
  rw [hr, Bool.not_true, if_neg Bool.false_ne_true]
  have popped : (s.updSite m (fun x => { x with pm := rest })).wr (.msite m) msite.PM_QFILL rest.length = s.pmPopped m rest := rfl
  rw [popped, drained, State.sitePart_pmPopped]
  generalize hz : (if (j.cmd.op = 3 ∨ j.cmd.op = 4) ∧ j.status = 0 then _ else _) = z
  have told : (z.part ((s.sitePart m).getD 0)).job = none := by
    rw [← hz]
    split
    · exact hj
    · exact (State.job_spineDone ..).trans hj
  rw [told]
  exact if_pos rfl

/-- The completion word names the primary control tile of the site's partition, and PM_QFILL is the length of the queue that is left. -/
theorem pageMoverDone_completes {j : PmJob} {rest : List PmJob} (u : StackUpset) (hpm : (s.site m).pm = j :: rest) (hr : j.ran = true)
    (hd : (s.site m).draining = false) (hf : s.pmFree m = false) (hj : (s.part ((s.sitePart m).getD 0)).job = none) :
    let t := pageMoverDone s m u
    t.sent = s.sent ++ [.spineDone (t.primary ((t.sitePart m).getD 0)) j.cmd.tid j.status j.count] ∧
      t.rd (.msite m) msite.PM_QFILL = rest.length % 128 := by
  intro t
  have fill : (s.pmPopped m rest).rd (.msite m) msite.PM_QFILL = rest.length % 128 := State.rd_wr_self _ _ _ _ (by decide)
  have told : t = _ := pageMoverDone_tells u hpm hr hd hf hj
  rw [told, ← State.sitePart_pmPopped (rest := rest)]
  split
  · next h =>
    rw [h.2]
    exact ⟨rfl, fill⟩
  · exact ⟨rfl, fill⟩

end Sys2Proof.Machine
end

section
/-! The statements of spec/07_mesh_and_saddles.md: the watershed (O24), failed channels (O27), the page mover (O30). -/

namespace Sys2Proof.Machine

/-- Settles O24: what the router's input and the discard change are registers, links and the partition's router errors. -/
theorem watershedDiscardsForeignFlits : Obligations.WatershedDiscardsForeignFlits := by
  intro s s1 g port f late hh s0 h hp
  have taken := State.takeDue_frame h
  have dropped := State.watershedDrop_frame s1 g port f.part
  have whole : Frame (fp.regs + fp.links + fp.parts + fp.sent) s (s1.watershedDrop g port f.part) :=
    Frame.step dropped rfl (Frame.step taken rfl (State.atInput_frame s g port))
  have same : ∀ k : Field, 0x24 * 32 ≤ k.off * 32 + k.lsb → k.off * 32 + k.lsb < 131072 → s1.rd (.mesh (tileOf g)) k = s.rd (.mesh (tileOf g)) k :=
    fun k hlo hhi => (State.rd_congr (taken.regs rfl) _ _).trans (State.rd_atInput_mesh s g port hlo hhi)
  obtain ⟨count, last⟩ := State.watershedDrop_records s1 g port f.part
  exact ⟨_, congrArg Host.Outcome.next (flitArrival_foreign hh h (by rwa [same _ (by decide) (by decide)])), dropped.links rfl, whole.routers rfl,
    whole.cores rfl, whole.crags rfl, whole.sites rfl, (dropped.parts rfl).trans (taken.parts rfl), whole.saddles rfl,
    count.trans (by rw [same _ (by decide) (by decide)]), last⟩

/-- Refutes O27: the statement takes every number for a channel. The pages of the 32 channels of a site end where the page of its rail monitor begins, so
a refresh of a channel 32, which no site has, raises the START_ENTRY of that monitor's first source. All else of the statement holds
(`failedChannels_iff`), and a refresh keeps every register at another address (`stackRefresh_rd`). -/
theorem not_failedChannels : ¬ Obligations.FailedChannels := by
  rw [failedChannels_iff]
  intro others
  exact absurd (others State.reset 0 32 (.rmbSite 0) (rmb.START_ENTRY 0) (by decide)) (by decide)

/-- Settles O30: a command that comes to an empty queue runs, a clean source leaves the state to the operation, and the oldest command's word goes out. -/
theorem pageMoverCommands : Obligations.PageMoverCommands := by
  refine ⟨fun s m p c bytes u op i hi hpm hd hp hf ht => ?_, fun s m j => ?_, fun s m u j rest hpm hr hd hf hj => ?_⟩
  · have runs : ∀ (k : Nat) bs, _ := fun k bs => State.pmQueue_at_once (op := k) bs u hpm hd hp hf ht
    simp only [List.mem_cons, Prod.mk.injEq, List.not_mem_nil, or_false] at hi
    obtain ⟨rfl, rfl⟩ | ⟨rfl, rfl⟩ | ⟨rfl, rfl⟩ | ⟨rfl, rfl⟩ | ⟨rfl, rfl⟩ | ⟨rfl, rfl⟩ := hi
    · exact congrArg Host.Outcome.next (runs 1 bytes)
    · exact congrArg Host.Outcome.next (runs 2 [])
    · exact congrArg Host.Outcome.next (runs 3 [])
    · exact congrArg Host.Outcome.next (runs 4 [])
    · exact congrArg Host.Outcome.next (runs 5 [])
    · exact congrArg Host.Outcome.next (runs 6 [])
  · refine ⟨fun hst hlo hhi hl => State.pmExec_unreadable hst hlo hhi hl, fun hst hu hsrc => ?_, fun hv => ?_, fun hv hs => ?_⟩
    · have source := State.sourceLines_clean hsrc
      have old : ∀ r n at_, s.oldLines m r n at_ .none = (s, []) := State.oldLines_clean rfl rfl s m
      have oldCopied : ∀ r n at_, s.oldLines m r n at_ (upsetFrom .none j.cmd.length) = (s, []) := State.oldLines_clean rfl rfl s m
      unfold State.pmExec
      dsimp only
      rw [if_neg (not_not_intro hst), hu, source, old]
      dsimp only
      rw [oldCopied]
      refine ⟨fun op => ?_, fun op => ?_, fun op => ?_, fun op => ?_, fun op => ?_, fun op => ?_⟩ <;> (rw [op]; rfl)
    · have status := State.pmStatus_of_source (c := j.cmd) (State.pmRange_invalid hv) (by decide)
      rw [State.pmExec_stopped (by rw [status]; decide), status]
      rfl
    · have status := State.pmStatus_of_source (c := j.cmd) (State.pmRange_foreign hv hs) (by decide)
      rw [State.pmExec_stopped (by rw [status]; decide), status]
      rfl
  · exact ⟨_, rfl, pageMoverDone_pops u hpm hr hd hf hj, pageMoverDone_completes u hpm hr hd hf hj⟩

end Sys2Proof.Machine
end

section
/-! SUPPORT. The streams of a memory site's channels (R187, R191, R193 to R195): what the read of an entry's data leaves of a channel, the start of an
entry, and the release of a flit. -/

namespace Sys2Proof.Machine

/-! ### What a read leaves of a channel (R191, R193) -/

theorem State.chan_congr {s t : State} (h : t.sites = s.sites) (m ch : Nat) : t.chan m ch = s.chan m ch := by
  unfold State.chan State.site
  rw [h]

theorem State.chan_siteError (s : State) (m code ch : Nat) : (s.siteError m code).chan m ch = s.chan m ch := by
  unfold State.chan State.siteError
  rw [State.site_updSite_self]

/-- Channel `d` is channel `c` but for the clocks of its uncorrectable errors. -/
def Chan.SameButUes (c d : Chan) : Prop := ∃ l, d = { c with ueTimes := l }

theorem Chan.SameButUes.of_eq {c d : Chan} (h : d = c) : c.SameButUes d := ⟨c.ueTimes, h⟩

theorem Chan.SameButUes.trans {c d e : Chan} (h : c.SameButUes d) (h' : d.SameButUes e) : c.SameButUes e := by
  obtain ⟨l, rfl⟩ := h
  obtain ⟨l', rfl⟩ := h'
  exact ⟨l', rfl⟩

theorem Chan.SameButUes.ite {c : Chan} {m ch : Nat} {q : Prop} [Decidable q] {x y : State × List (List Byte)}
    (hx : c.SameButUes (x.1.chan m ch)) (hy : c.SameButUes (y.1.chan m ch)) : c.SameButUes ((if q then x else y).1.chan m ch) := by
  split <;> assumption

theorem Chan.SameButUes.foldl {α : Type} (m ch : Nat) (f : State → α → State) (l : List α) (s : State)
    (h : ∀ (s : State) x, (s.chan m ch).SameButUes ((f s x).chan m ch)) : (s.chan m ch).SameButUes ((l.foldl f s).chan m ch) := by
  induction l generalizing s with
  | nil => exact .of_eq rfl
  | cons x l ih => exact (h s x).trans (ih (f s x))

theorem State.chan_stackUe (s : State) (m k off ch : Nat) : (s.chan m ch).SameButUes ((s.stackUe m k off).chan m ch) := by
  unfold State.stackUe
  extract_lets t
  have kept : (t.err (.msite m) 0).chan m ch = s.chan m ch := State.chan_congr ((State.err_frame ..).sites rfl) m ch
  rw [State.chan_updChan, kept]
  split
  · next hk => exact ⟨_, by rw [← hk, kept]⟩
  · exact .of_eq rfl

theorem State.chan_readUpset (s : State) (m : Nat) (r : Region) (n : Nat) (at_ : Nat → Nat) (u : StackUpset) (ch : Nat) :
    (s.chan m ch).SameButUes ((s.readUpset m r n at_ u).1.chan m ch) :=
  (Chan.SameButUes.foldl m ch _ _ s fun x _ => .of_eq (State.chan_congr ((State.stackCe_frame x m _).sites rfl) m ch)).trans
    (Chan.SameButUes.foldl m ch _ _ _ fun x _ => x.chan_stackUe m _ _ ch)

/-- Whatever the read of an entry's data finds, of a channel it changes the clocks of uncorrectable errors only. -/
theorem State.chan_csData (s : State) (m k e : Nat) (sl : Slot) (u : StackUpset) (ch : Nat) :
    (s.chan m ch).SameButUes ((s.csData m k e sl u).1.chan m ch) := by
  unfold State.csData
  dsimp only
  split
  · exact .of_eq (by split <;> rfl)
  · next ri x _ =>
    refine .ite (.of_eq (State.chan_congr ((State.ownerMiss_frame s m).sites rfl) m ch)) (.ite (.of_eq rfl)
      (.ite (.of_eq (s.chan_siteError m 2 ch)) (.ite (.of_eq (State.chan_congr ((State.keyMiss_frame s m _).sites rfl) m ch)) ?_)))
    have counted : ∀ y : State, (if (s.region m ri).weight then y.inc (.xts m) xts.DEC_UNITS (unitsOf x (32 * csFlits e)).length else y).chan m ch =
        y.chan m ch :=
      fun y => by split <;> rfl
    have read := (s.chan_readUpset m (s.region m ri) (csFlits e) (fun i => s.csStep m e x (32 * i)) u ch).trans (.of_eq (counted _))
    dsimp only
    split
    · exact read.trans (.of_eq (State.chan_siteError ..))
    · exact read

/-! ### Data without a finding (R187, R188, R191, R193) -/

/-- Data of a served region that is whole, not zeroing and not encrypted is what the stack holds there. -/
theorem State.csData_stored {s : State} {m e ri x : Nat} (ch : Nat) {sl : Slot} (hw : s.csWhere m ch e sl = some (ri, x))
    (hs : s.serves m (s.region m ri) = true) (hz : (s.site m).zeroing.contains ri = false) (hl : s.regionLost m (s.region m ri) = false)
    (hk : (s.region m ri).weight = false)
    (hlock : ∀ i, i < csFlits e → (s.chan m (s.locate m (s.region m ri) (s.csStep m e x (32 * i))).1).noLock = false) :
    s.csData m ch e sl .none =
      (s, (List.range (csFlits e)).map (fun i => s.regionRead m (s.region m ri) (s.csStep m e x (32 * i)) 32)) := by
  unfold State.csData
  rw [hw]
  dsimp only
  rw [hs, hz, hl, hk, State.readUpset_clean (u := .none) rfl rfl]
  simp only [Bool.not_true, Bool.false_and, Bool.false_eq_true, if_false, List.contains_nil, Bool.false_or, ne_eq, not_true_eq_false, decide_false]
  have locked : ∀ i ∈ List.range (csFlits e), ((s.chan m (s.locate m (s.region m ri) (s.csStep m e x (32 * i))).1).failNext &&
      (s.chan m (s.locate m (s.region m ri) (s.csStep m e x (32 * i))).1).noLock) = false :=
    fun i hi => by rw [hlock i (List.mem_range.1 hi), Bool.and_false]
  rw [if_neg (Bool.eq_false_iff.1 (List.any_eq_false.2 fun i hi => Bool.eq_false_iff.1 (locked i hi)))]
  exact congrArg (Prod.mk s) (List.map_congr_left fun i hi => if_neg (Bool.eq_false_iff.1 (locked i hi)))

/-! ### The start of an entry (R194, R195) -/

/-- The flits of a schedule entry with the payloads `ps`, one per cycle from CYCLE on, but for those whose cycle has passed. -/
def State.streamFlits (s : State) (p e : Nat) (sl : Slot) (ps : List (List Byte)) : List (Nat × Flit) :=
  ((List.range (csFlits e)).map (fun j => (csCycle e + j,
    ({ part := p, stamp := (s.part p).tick % 256, op := 10, lane := if csSrc e = 0 then 0 else sl.lane, route := csLabel e,
       payload := ps.getD j [] } : Flit)))).filter (fun x => (s.part p).cyc ≤ x.1)

/-- Entry `i` of a channel's schedule has started, with its flits in the buffer. -/
def State.streamStarted (s : State) (m ch p i : Nat) (u : StackUpset) : State :=
  let e := (s.chan m ch).sched.getD i 0
  let d := s.csData m ch e (s.csDescr m ch e) u
  d.1.updChan m ch (fun c => { c with
    started := c.started ++ [i], buffer := c.buffer ++ s.streamFlits p e (s.csDescr m ch e) d.2 })

theorem State.chan_streamStarted (s : State) (m ch p i : Nat) (u : StackUpset) :
    let e := (s.chan m ch).sched.getD i 0
    let sl := s.csDescr m ch e
    ((s.streamStarted m ch p i u).chan m ch).started = (s.chan m ch).started ++ [i] ∧
      ((s.streamStarted m ch p i u).chan m ch).buffer = (s.chan m ch).buffer ++ s.streamFlits p e sl (s.csData m ch e sl u).2 := by
  intro e sl
  obtain ⟨l, read⟩ := s.chan_csData m ch e sl u ch
  unfold State.streamStarted
  dsimp only
  rw [State.chan_updChan, if_pos rfl, read]
  exact ⟨rfl, rfl⟩

section
variable {s : State} {m ch p : Nat}

section
variable {i : Nat} (u : StackUpset) (hp : s.sitePart m = some p) (hr : s.running p = true) (hup : (s.site m).up = true) (hc : 12 ≤ (s.part p).cyc)
  (hi : (List.range (s.chan m ch).sched.length).find? (fun i => (s.chan m ch).waiting i &&
    decide (csCycle ((s.chan m ch).sched.getD i 0) ≤ (s.part p).cyc + 340)) = some i)
include hp hr hup hc hi

/-- An entry of an EMPTY or STALL slot starts and sends nothing. -/
theorem scheduleReadStart_skips (hsl : (s.csDescr m ch ((s.chan m ch).sched.getD i 0)).state = .empty ∨
      (s.csDescr m ch ((s.chan m ch).sched.getD i 0)).state = .stall) :
    scheduleReadStart s m ch u = s.updChan m ch (fun c => { c with started := c.started ++ [i] }) := by
  unfold scheduleReadStart
  rw [hp]
  dsimp only
  rw [if_neg (by simp [hr, hup, Nat.not_lt.2 hc]), hi]
  exact if_pos hsl

/-- An entry of another slot starts where the buffer has room for its flits and the request queues for its requests; QMAX and BUF_MAX take that up. -/
theorem scheduleReadStart_starts (hsl : ¬((s.csDescr m ch ((s.chan m ch).sched.getD i 0)).state = .empty ∨
      (s.csDescr m ch ((s.chan m ch).sched.getD i 0)).state = .stall))
    (hroom : (s.chan m ch).held + csFlits ((s.chan m ch).sched.getD i 0) ≤ 2048)
    (hreq : (s.readChans m ch).any (fun k => 24 < s.schedReqs m k (s.part p).cyc + csUnits ((s.chan m ch).sched.getD i 0)) = false) :
    let x := s.streamStarted m ch p i u
    scheduleReadStart s m ch u = (x.noteQueue m (x.readChans m ch) 0).raise (.mchan m ch) mchan.BUF_MAX ((x.chan m ch).held / 4) := by
  unfold State.streamStarted scheduleReadStart
  rw [hp]
  dsimp only
  rw [if_neg (by simp [hr, hup, Nat.not_lt.2 hc]), hi]
  dsimp only
  rw [if_neg hsl, if_neg (not_or.2 ⟨Nat.not_lt.2 hroom, Bool.eq_false_iff.1 hreq⟩)]
  have kept : ∀ e sl, (s.csData m ch e sl u).1.part p = s.part p :=
    fun e sl => congrArg (fun t => Table.get ({} : Part) t p) ((State.csData_frame s m ch e sl u).parts rfl)
  rw [kept]
  rfl

end

/-! ### The release of a flit (R193, R195) -/

/-- A flit that is due is not there: it is counted as late. -/
def State.schedLate (s : State) (m : Nat) : State := (s.inc (.msite m) msite.SCHED_LATE_CNT 1).err (.msite m) 4

theorem State.schedLate_frame (s : State) (m : Nat) : Frame (fp.regs + fp.sent) s (s.schedLate m) :=
  Frame.step (State.err_frame ..) rfl (Frame.step (State.inc_frame ..) rfl (Frame.refl _ _))

theorem State.rd_schedLate (s : State) (m : Nat) :
    (s.schedLate m).rd (.msite m) msite.SCHED_LATE_CNT = (s.rd (.msite m) msite.SCHED_LATE_CNT + 1) % 2 ^ 32 :=
  (State.rd_err _ _ _ _ _ _ (by decide) (by decide)).trans (State.rd_wr_self _ _ _ _ (by decide))

theorem splitFirst_eq_none {α : Type} {q : α → Bool} {l : List α} (h : ∀ x ∈ l, q x = false) : splitFirst q l = none := by
  induction l with
  | nil => rfl
  | cons x l ih => simp [splitFirst, h x List.mem_cons_self, ih fun y hy => h y (List.mem_cons_of_mem _ hy)]

section
variable (hp : s.sitePart m = some p) (hs : s.steps p = true) (hup : (s.site m).up = true)
include hp hs hup

/-- The flit of this cycle leaves the buffer: onto the edge router's input, or as late where a failed channel has lost it. -/
theorem scheduleRelease_buffered {a b : List (Nat × Flit)} {x : Nat × Flit} (hb : (s.chan m ch).buffer = a ++ x :: b)
    (ha : ∀ y ∈ a, y.1 ≠ (s.part p).cyc) (hx : x.1 = (s.part p).cyc) :
    let t := s.updChan m ch (fun c => { c with buffer := a ++ b })
    scheduleRelease s m ch = if x.2.payload = [] then t.schedLate m else
      (t.inc (.mchan m ch) mchan.SCHED_FLITS 1).launch p (chRouter m ch) (chPort ch) 0 x.2 := by
  unfold scheduleRelease
  rw [hp]
  dsimp only
  rw [if_neg (by simp [hs, hup]), hb, splitFirst_append b (fun y hy => decide_eq_false (ha y hy)) (decide_eq_true hx)]
  rfl

/-- An entry that is due and has not started, with no flit of this cycle in the buffer, is late. -/
theorem scheduleRelease_late {i : Nat} (hb : ∀ y ∈ (s.chan m ch).buffer, y.1 ≠ (s.part p).cyc) (hi : i < (s.chan m ch).sched.length)
    (hw : (s.chan m ch).waiting i = true) (hfrom : csCycle ((s.chan m ch).sched.getD i 0) ≤ (s.part p).cyc)
    (hto : (s.part p).cyc < csCycle ((s.chan m ch).sched.getD i 0) + csFlits ((s.chan m ch).sched.getD i 0)) :
    scheduleRelease s m ch = s.schedLate m := by
  unfold scheduleRelease
  rw [hp]
  dsimp only
  rw [if_neg (by simp [hs, hup]), splitFirst_eq_none fun y hy => decide_eq_false (hb y hy)]
  exact if_pos (List.any_eq_true.2 ⟨i, List.mem_range.2 hi, by simp only [hw, hfrom, hto, decide_true, Bool.and_self]⟩)

end

end

end Sys2Proof.Machine
end

section
/-! The statements of spec/08_memory_sites.md: the streams of a site's channels (O28). -/

namespace Sys2Proof.Machine

/-- Settles O28: the read of an entry's data leaves the channel's schedule and buffer, so a start adds its flits to what was there; a release is by its
three outcomes, a flit on the router's input, a flit that a failed channel lost, and an entry that has not started. -/
theorem siteStreams : Obligations.SiteStreams := by
  refine ⟨fun s m ch u p i hp hr hup hc hi => ⟨fun hsl => ?_, fun he hst hroom hreq => ?_⟩,
    fun s m ch e sl ri x hw hs hz hl hk hlock => State.csData_stored ch hw hs hz hl hk hlock,
    fun s m ch p hp hs hup => ⟨fun a x b hb ha hx => ?_, fun i hb hi hw hfrom hto => ?_⟩⟩
  · exact ⟨_, congrArg Host.Outcome.next (scheduleReadStart_skips u hp hr hup hc hi hsl), (State.chan_updChan ..).trans (if_pos rfl)⟩
  · refine ⟨_, congrArg Host.Outcome.next (scheduleReadStart_starts u hp hr hup hc hi (not_or.2 ⟨he, hst⟩) hroom hreq), ?_⟩
    rw [State.chan_congr ((State.raise_frame ..).sites rfl), State.chan_congr ((State.noteQueue_frame ..).sites rfl)]
    exact s.chan_streamStarted m ch p i u
  · have released := scheduleRelease_buffered hp hs hup hb ha hx
    have left : (s.updChan m ch (fun c => { c with buffer := a ++ b })).chan m ch = { s.chan m ch with buffer := a ++ b } :=
      (State.chan_updChan ..).trans (if_pos rfl)
    refine ⟨fun lost => ?_, fun sent => ?_⟩
    · have late := State.schedLate_frame (s.updChan m ch (fun c => { c with buffer := a ++ b })) m
      exact ⟨_, congrArg Host.Outcome.next (released.trans (if_pos lost)), (State.chan_congr (late.sites rfl) m ch).trans left, late.links rfl,
        State.rd_schedLate ..⟩
    · exact ⟨_, congrArg Host.Outcome.next (released.trans (if_neg sent)), left, rfl, State.rd_wr_self _ _ _ _ (by decide)⟩
  · have late := State.schedLate_frame s m
    exact ⟨_, congrArg Host.Outcome.next (scheduleRelease_late hp hs hup hb hi hw hfrom hto), late.links rfl, late.sites rfl, State.rd_schedLate s m⟩

end Sys2Proof.Machine
end

section
/-! SUPPORT. Loads and repairs: what LOAD_IMAGE, LOAD_END, MIGRATION_ROUND, REPAIR_CUT and SPARE_CLEAR do, an equation for each of their outcomes
(R222 to R231). -/

namespace Sys2Proof.Machine

/-! ### LOAD_IMAGE (R221, R222) -/

section
variable {s u : State} {p : Nat} {d : LoadData} {c : CmdIn} (hc : s.takeCmd p 0x10 = some (c, u)) (hr : ringOk c 16 = true)
  (ha : u.inAperture p (c.field 8 8) 64 false = true) (hd : d.readErr = false)
include hc hr ha hd

theorem loadImage_refuses {e : LoadErr} (h : u.loadPlan p d = .refuse e) : loadImage s p d = u.loadRefuse p d c 1 e := by
  simp only [loadImage, hc, hr, ha, hd, h, Bool.not_true, Bool.false_and, Bool.false_eq_true, if_false]

theorem loadImage_carries {x : Placing} {l : List Sect} {meas : Nat} {changed : Bool} (h : u.loadPlan p d = .go x l meas changed) :
    loadImage s p d = u.carryOut p d c x l meas changed := by
  simp only [loadImage, hc, hr, ha, hd, h, Bool.not_true, Bool.false_and, Bool.false_eq_true, if_false]

end

/-! ### LOAD_END (R223 to R226, R230) -/

section
variable {s : State} {p : Nat} {j : LoadJob}

theorem State.pumpLoad_idle (h : (s.part p).job = none) : s.pumpLoad p = s := by
  unfold State.pumpLoad
  rw [h]

theorem State.pumpLoad_interrupted (h : (s.part p).job = some j) (ha : j.abort ≠ none) : s.pumpLoad p = s := by
  unfold State.pumpLoad
  rw [h]
  exact if_pos (Option.isSome_iff_ne_none.2 ha)

/-- A job with no command left for the page movers, as every repair is (R228), stays as it is. -/
theorem State.job_pumpLoad_sent (h : (s.part p).job = some j) (ha : j.abort = none) (ht : j.todo = []) : ((s.pumpLoad p).part p).job = some j := by
  have same : { j with todo := [] } = j := by rw [← ht]
  unfold State.pumpLoad
  rw [h]
  dsimp only
  rw [ha, ht]
  exact (congrArg Part.job (State.part_updPart_self ..)).trans ((congrArg (Option.map _) h).trans (congrArg some same))

theorem loadEnd_idle (h : ((s.pumpLoad p).part p).job = none) : loadEnd s p = s.pumpLoad p := by
  unfold loadEnd
  dsimp only
  rw [h]

variable (h : ((s.pumpLoad p).part p).job = some j)
include h

/-- What is past its commit point closes as LOADED (R230). -/
theorem loadEnd_finished (hf : j.finished = true) : loadEnd s p = (s.pumpLoad p).closeLoad p j 0 0 := by
  unfold loadEnd
  dsimp only
  rw [h]
  exact if_pos hf

/-- A load that was interrupted stops its transfers, clears what it wrote and closes with its code (R226). -/
theorem loadEnd_interrupted {code : Nat} (hf : j.finished = false) (ha : j.abort = some code) :
    let t := (s.pumpLoad p).stopTransfers p j.tids
    loadEnd s p = (if j.repair then t.dropRepair p j else t.clearLoaded p).closeLoad p j 2 code := by
  unfold loadEnd
  dsimp only
  rw [h]
  simp only [hf, ha, Bool.false_eq_true, if_false]

/-- A repair goes on until its cut, unless its second reading differs (R223, R229). -/
theorem loadEnd_repair (hf : j.finished = false) (ha : j.abort = none) (hr : j.repair = true) :
    loadEnd s p = if j.changed then (((s.pumpLoad p).stopTransfers p j.tids).dropRepair p j).closeLoad p j 2 0x1B else s.pumpLoad p := by
  unfold loadEnd
  dsimp only
  rw [h]
  simp only [hf, ha, hr, Bool.false_eq_true, if_false, if_true]

/-- A load ends once its transfers are complete: cleared where its second reading differs, and in effect otherwise (R223, R224). -/
theorem loadEnd_load (hf : j.finished = false) (ha : j.abort = none) (hr : j.repair = false) :
    loadEnd s p = if (s.pumpLoad p).loadDone p j = false then s.pumpLoad p
      else if j.changed then ((s.pumpLoad p).clearLoaded p).closeLoad p j 2 0x1B else ((s.pumpLoad p).finishLoad p j).closeLoad p j 0 0 := by
  unfold loadEnd
  dsimp only
  rw [h]
  simp only [hf, ha, hr, Bool.false_eq_true, if_false, Bool.not_eq_true']

end

/-- A repair whose second reading differs closes with CHANGED, where no command is left for the page movers (R223). -/
theorem loadEnd_changed_repair {s : State} {p : Nat} {j : LoadJob} (h : (s.part p).job = some j) (ht : j.todo = []) (ha : j.abort = none)
    (hr : j.repair = true) (hch : j.changed = true) (hf : j.finished = false) :
    loadEnd s p = (((s.pumpLoad p).stopTransfers p j.tids).dropRepair p j).closeLoad p j 2 0x1B :=
  (loadEnd_repair (State.job_pumpLoad_sent h ha ht) hf ha hr).trans (if_pos hch)

/-! ### MIGRATION_ROUND (R229) -/

/-- Two changes that agree on the partition's record are one. -/
theorem State.updPart_congr {s : State} {p : Nat} {f g : Part → Part} (h : f (s.part p) = g (s.part p)) : s.updPart p f = s.updPart p g :=
  congrArg (fun x => { s with parts := Table.set {} s.parts p x }) h

/-- The job as a round leaves it, with the cut requested or not. -/
def LoadJob.afterRound (j : LoadJob) (cut : Bool) : LoadJob := { j with rounds := j.rounds + 1, tids := [], cutReq := cut }

theorem LoadJob.afterRound_uncut {j : LoadJob} (hq : j.cutReq = false) : j.afterRound false = { j with rounds := j.rounds + 1, tids := [] } := by
  rw [← hq]
  rfl

/-- The engine after a round, with the cut requested or not. -/
def State.roundEnded (s : State) (p : Nat) (j : LoadJob) (cut : Bool) : State :=
  (s.endRound p j).updPart p (fun x => { x with job := some (j.afterRound cut) })

theorem State.job_roundEnded (s : State) (p : Nat) (j : LoadJob) (cut : Bool) : ((s.roundEnded p j cut).part p).job = some (j.afterRound cut) :=
  congrArg Part.job (State.part_updPart_self ..)

section
variable {s : State} {p : Nat} {j : LoadJob} (hj : (s.part p).job = some j)
include hj

theorem State.job_endRound : ((s.endRound p j).part p).job = some { j with tids := [] } :=
  (congrArg Part.job (State.part_updPart_self ..)).trans (congrArg (Option.map _) hj)

theorem migrationRound_waits (hc : s.copied p j = false) : migrationRound s p = s := by
  simp only [migrationRound, hj, hc, Bool.not_false, Bool.or_true, if_true]

variable (hr : j.repair = true) (hq : j.cutReq = false) (ha : j.abort = none) (hf : j.finished = false) (hch : j.changed = false)
include hr hq ha hf hch

/-- A round whose copies are complete ends: in the request for the cut, in the stop of the repair, or in the copies of the next round. -/
theorem migrationRound_ends (hc : s.copied p j = true) :
    let dirty := s.dirtyOf j.moves
    let z := s.roundEnded p j (decide (dirty.length ≤ 256))
    migrationRound s p = if dirty.length ≤ 256 then z else if 8 ≤ j.rounds + 1 then z.abortLoad p 0x1F
      else z.startCopies p j.moves (fun m b => dirty.contains (m.src, b)) := by
  have ended : (s.endRound p j).updPart p (fun x => { x with job := x.job.map (fun k =>
      { k with rounds := k.rounds + 1, cutReq := decide ((s.dirtyOf j.moves).length ≤ 256) }) }) =
      s.roundEnded p j (decide ((s.dirtyOf j.moves).length ≤ 256)) :=
    State.updPart_congr (by rw [State.job_endRound hj]; rfl)
  simp only [migrationRound, hj, hr, hq, ha, hf, hch, hc, ended, Bool.not_true, Bool.or_self, Option.isSome_none, Bool.false_eq_true, if_false]

end

/-- A load that is stopped keeps its job, marked with the code, where nothing has stopped it before. -/
theorem State.job_abortLoad {s : State} {p : Nat} {j : LoadJob} (hj : (s.part p).job = some j) (hf : j.finished = false) (ha : j.abort = none) (code : Nat) :
    ((s.abortLoad p code).part p).job = some { j with abort := some code } := by
  rw [State.abortLoad, State.part_updPart_self, hj]
  simp only [Option.map_some, hf, ha, Option.none_or, Bool.false_eq_true, if_false]

/-! ### REPAIR_CUT (R230) -/

section
variable {s : State} {p : Nat} {j : LoadJob} (hj : (s.part p).job = some j)
include hj

theorem repairCut_waits (h : (s.part p).phase = .running ∨ (s.part p).toDecide = true ∨ (s.part p).deadNow ≠ [] ∨ j.cutReq = false ∨ s.copied p j = false) :
    repairCut s p = s := by
  unfold repairCut
  dsimp only
  rw [hj]
  split
  · next k hk hold =>
    cases hk
    refine if_pos ?_
    rcases h with hph | hdec | hdead | hreq | hcop
    · rw [hold] at hph
      cases hph
    · simp [hdec]
    · simp [hdead]
    · simp [hreq]
    · simp [hcop]
  · rfl

variable (hph : (s.part p).phase = .boundaryHold 0) (hq : j.cutReq = true) (hh : (s.part p).holdReq = true) (ht : (s.part p).toDecide = false)
  (hdead : (s.part p).deadNow = []) (ha : j.abort = none) (hf : j.finished = false) (hch : j.changed = false) (hc : s.copied p j = true)
include hph hq hh ht hdead ha hf hch hc

theorem repairCut_copies (hd : s.dirtyOf j.moves ≠ []) :
    repairCut s p = (s.endRound p j).startCopies p j.moves (fun m b => (s.dirtyOf j.moves).contains (m.src, b)) := by
  unfold repairCut
  dsimp only
  rw [hj, hph]
  simp [hq, hh, ht, hdead, ha, hf, hch, hc, hd]

/-- With nothing dirty left the cut ends the hold, and the measurement is the repair's. -/
theorem repairCut_cuts (hd : s.dirtyOf j.moves = []) :
    ∃ (z : State) (f : Part → Part), repairCut s p = z.updPart p f ∧ ∀ x, (f x).holdReq = false ∧ (f x).meas = j.meas := by
  unfold repairCut
  dsimp only
  rw [hj]
  split
  · next k hk hold =>
    cases hk
    rw [if_neg (by simp [hq, hh, ht, hdead, ha, hf, hch, hc]), if_neg (not_not_intro hd)]
    exact ⟨_, _, rfl, fun _ => ⟨rfl, rfl⟩⟩
  · next other => exact absurd hph (other j rfl)

end

/-! ### SPARE_CLEAR (R231) -/

theorem State.clearWaits_of {s : State} {y : Nat} (hs : s.rd (cragPage y) crag.STAND_FOR = 15) (hu : s.flag (cragPage y) crag.UNPROT = true)
    (hd : s.flag (cragPage y) crag.SPARE_DEAD = false) : s.clearWaits y = true := by
  unfold State.clearWaits
  dsimp only
  rw [hs, hu, hd]
  rfl

/-- The former spare's slab cleared, and its crag protected again. -/
def State.spareCleared (s : State) (y : Nat) : State :=
  ((slabBytes (s.core (spareCore y)).mem).foldl (fun z e => z.memWrite (spareCore y) e.1 [0]) s).setFlag (cragPage y) crag.UNPROT false

theorem spareClear_clears {s : State} {y : Nat} (h : s.clearWaits y = true) :
    spareClear s y = if (List.range 16).any (fun i => (s.spareCleared y).clearWaits (y / 16 * 16 + i)) then s.spareCleared y
      else (s.spareCleared y).setFlag (.slab (y / 16)) slab.CLEAR_BUSY false :=
  if_neg (by rw [h]; decide)

end Sys2Proof.Machine
end

section
/-! The statement of spec/09_massif_images.md (O40). -/

namespace Sys2Proof.Machine

/-- What O40 says holds but for its one clause about a repair whose second reading differs, to which the statement comes down. -/
theorem loadsAndRepairs_iff : Obligations.LoadsAndRepairs ↔
    ∀ (s : State) p j, (s.part p).job = some j → j.abort = none → j.repair = true → j.changed = true → j.finished = false →
      exec (.loadEnd p) s = .next ((((s.pumpLoad p).stopTransfers p j.tids).dropRepair p j).closeLoad p j 2 0x1B) := by
  refine ⟨fun h s p => ?_, fun changed => ⟨fun s u p d c hc hr ha hd => ?_, fun s p => ?_, fun s p j hj hr hq ha hf hch => ?_, fun s p j hj => ?_,
    fun s y hs hu hd => ?_⟩⟩
  · obtain ⟨-, ends, -⟩ := h
    obtain ⟨-, -, -, changed, -⟩ := ends s p
    exact changed
  · refine ⟨congrArg Host.Outcome.next ?_, fun e he => ?_⟩
    · split
      · next e he => exact loadImage_refuses hc hr ha hd he
      · next x l meas ch he => exact loadImage_carries hc hr ha hd he
    · have whole := Frame.step (State.loadRefuse_frame u p d c 1 e) (by decide)
        (Frame.step (k := fp.regs + fp.parts + fp.reqs + fp.ports + fp.writes + fp.reads + fp.sent + fp.fresh) (State.takeCmd_frame hc) rfl (Frame.refl _ s))
      exact ⟨_, congrArg Host.Outcome.next (loadImage_refuses hc hr ha hd he), whole.cores rfl, whole.routers rfl, whole.tiles rfl, whole.crags rfl,
        whole.sites rfl⟩
  · refine ⟨fun h => ?_, fun j h hf ha => ?_, fun j code h ha hr hf => ?_, changed s p, fun j h ha hr hf => ?_⟩
    · have idle := State.pumpLoad_idle h
      exact congrArg Host.Outcome.next ((loadEnd_idle (by rw [idle, h])).trans idle)
    · have idle := State.pumpLoad_interrupted h ha
      exact congrArg Host.Outcome.next ((loadEnd_finished (by rw [idle, h]) hf).trans (by rw [idle]))
    · have idle := State.pumpLoad_interrupted h (by rw [ha]; exact Option.some_ne_none code)
      exact congrArg Host.Outcome.next ((loadEnd_interrupted (by rw [idle, h]) hf ha).trans (by rw [idle, hr]; rfl))
    · have ends := loadEnd_load h hf ha hr
      exact ⟨fun hd => congrArg Host.Outcome.next (ends.trans (if_pos hd)), fun hd hch => congrArg Host.Outcome.next (ends.trans (by rw [hd, hch]; rfl)),
        fun hd hch => congrArg Host.Outcome.next (ends.trans (by rw [hd, hch]; rfl))⟩
  · refine ⟨fun hc => congrArg Host.Outcome.next (migrationRound_waits hj hc), fun hc => ?_⟩
    have ends := migrationRound_ends hj hr hq ha hf hch hc
    refine ⟨fun few => ?_, fun many early => ?_, fun many last => ?_⟩
    · have cut := ends.trans (if_pos few)
      rw [decide_eq_true few] at cut
      exact ⟨_, congrArg Host.Outcome.next cut, State.job_roundEnded .., rfl⟩
    · have goesOn := (ends.trans (if_neg (Nat.not_le.2 many))).trans (if_neg (by omega))
      rw [decide_eq_false (Nat.not_le.2 many), State.roundEnded, LoadJob.afterRound_uncut hq] at goesOn
      exact congrArg Host.Outcome.next goesOn
    · have stops := (ends.trans (if_neg (Nat.not_le.2 many))).trans (if_pos (by omega))
      rw [decide_eq_false (Nat.not_le.2 many)] at stops
      refine ⟨_, congrArg Host.Outcome.next stops, (State.job_abortLoad (State.job_roundEnded ..) hf ha 0x1F).trans ?_⟩
      rw [LoadJob.afterRound_uncut hq]
  · refine ⟨fun hph hq hh ht hdead ha hf hch hc => ⟨fun clean => ?_, fun dirty => ?_⟩, fun h => congrArg Host.Outcome.next (repairCut_waits hj h)⟩
    · obtain ⟨z, f, cuts, after⟩ := repairCut_cuts hj hph hq hh ht hdead ha hf hch hc clean
      refine ⟨_, congrArg Host.Outcome.next cuts, ?_⟩
      rw [State.part_updPart_self]
      exact after _
    · exact congrArg Host.Outcome.next (repairCut_copies hj hph hq hh ht hdead ha hf hch hc dirty)
  · have clears := spareClear_clears (State.clearWaits_of hs hu hd)
    exact ⟨fun others => congrArg Host.Outcome.next (clears.trans (if_pos others)),
      fun alone => congrArg Host.Outcome.next (clears.trans (if_neg (Bool.eq_false_iff.1 alone)))⟩

/-- A repair of partition 0 whose second reading differs, with a LOAD left for the page mover of site 0, where a STAGE_IN from outside waits for a region
that the repair reads from. -/
def changedUnderStageIn : State :=
  ((State.reset.wr (.msite 0) msite.PART_ID 0).updSite 0 (fun x => { x with
    regions := [(0, { valid := true, kind := 1, len := 1 })], pm := [{ cmd := { op := 1, length := 1 }, bytes := List.replicate 32 0 }] })).updPart 0
    (fun x => { x with job := some { repair := true, changed := true, regions := [(0, 0)], todo := [(0, { op := 3, length := 1, tid := 1 }, [])] } })

/-- Refutes O40: the statement takes the job as it was before the load goes on. Where that sends a command to a page mover with a STAGE_IN from outside
that has not run, the STAGE_IN runs and changes a region that the job reads from, which interrupts it (R226): LOAD_END then closes it with code 0x19 and
not with 0x1B. All else of the statement holds (`loadsAndRepairs_iff`), and the clause holds of a repair with no command left to send
(`loadEnd_changed_repair`). -/
theorem not_loadsAndRepairs : ¬ Obligations.LoadsAndRepairs := by
  rw [loadsAndRepairs_iff]
  intro changed
  have ends := changed changedUnderStageIn 0 _ (congrArg Part.job (State.part_updPart_self ..)) rfl rfl rfl rfl
  have code := congrArg (fun t : State => (t.part 0).status.map LoadStatus.code) (Host.Outcome.next.inj ends)
  exact absurd code (by decide +kernel)

end Sys2Proof.Machine
end

section
/-! SUPPORT. The commands that serve admitted requests: what LANE_PRIME, ELASTIC_SCAN, OUTPUT_RECORD_WRITE, KV_EXPORT_DONE, TTL_EXPIRE and SLACK_SWEEP
do, an equation for each of their outcomes (R241, R249 to R252, R258, R261). -/

namespace Sys2Proof.Machine

/-! ### LANE_PRIME (R249, R443) -/

theorem State.lane_updLane (s : State) (p l k : Nat) (f : Lane → Lane) : (s.updLane p l f).lane p k = if k = l then f (s.lane p l) else s.lane p k := by
  unfold State.lane State.updLane
  rw [State.part_updPart_self]
  exact Table.get_upd _ _ _ _ _

/-- The directories of a lane lie in the memories of the cores, so that writing them leaves what the lanes hold. -/
theorem State.lane_writeDirs (s : State) (p lane n cp : Nat) (deep : Bool) (q k : Nat) : (s.writeDirs p lane n cp deep).lane q k = s.lane q k := by
  unfold State.lane State.part
  rw [(State.writeDirs_frame s p lane n cp deep).parts rfl]

theorem State.lane_prime (s : State) (p l k : Nat) :
    (s.prime p l).lane p k = if k = l then { s.lane p l with gen := (s.lane p l).gen + 1, primed := true } else s.lane p k :=
  (State.lane_writeDirs ..).trans (State.lane_updLane ..)

theorem State.handle_of_laneFree {s : State} {p l : Nat} (h : s.laneFree p l = true) : (s.lane p l).handle = none :=
  of_decide_eq_true (Bool.and_eq_true_iff.1 h).1

theorem lanePrime_primes {s : State} {p l : Nat} (hl : l ∈ s.laneIds p) (hf : s.laneFree p l = true) (hp : (s.lane p l).primed = false)
    (hi : (s.part p).image ≠ none) (hs : s.pstate p = 1 ∨ s.pstate p = 2) : lanePrime s p l = s.prime p l :=
  if_neg (by simpa [hl, hf, hp, hi] using Decidable.or_iff_not_imp_left.1 hs)

/-! ### ELASTIC_SCAN (R252, R311) -/

/-- A record that is still in its SCREE regions needs no place. -/
theorem State.unspill_resident {s : State} {h : Nat} (p : Nat) (bytes : List Byte) (ht : (s.req h).inT2 = false) : s.unspill p h bytes = some s :=
  if_pos (by rw [ht]; rfl)

theorem State.admitElastic_fits {s : State} {p l b : Nat} {r : Request} (h : Nat) (hl : s.freeLane p = some l) (hb : bucketOf (s.img p) r.lmax = some b)
    (hf : s.fitsElastic p (lanePages (s.img p) r.lmax) = true) :
    s.admitElastic p h r = some (s.admitPlan p h r (s.planFor p (s.img p) r l b none)) := by
  unfold State.admitElastic
  dsimp only
  rw [hl, hb]
  exact if_pos hf

theorem elasticScan_idle {s : State} {p : Nat} (bs : List Byte) (h : s.storeHolds p = true ∨ s.pstate p ≠ 2) : elasticScan s p bs = s := if_pos h

/-- The ELASTIC requests that a scan considers, in rank order (R252, R311). -/
def State.elasticRanked (s : State) (p : Nat) : List (Nat × Request) :=
  sortBy (fun a b => decide (a.2.prio < b.2.prio) || (a.2.prio = b.2.prio && decide (a.2.order < b.2.order)))
    (s.reqsOf p (fun r => r.elastic && (r.state = .queued || (r.state = .scree && r.auto && r.kvLayout = (s.img p).kvLayout))))

theorem elasticScan_tries {s : State} {p l h : Nat} {r : Request} (bs : List Byte) (hst : s.storeHolds p = false) (hp : s.pstate p = 2)
    (hl : s.freeLane p = some l) (hfind : (s.elasticRanked p).find? (fun e => s.fitsElastic p (lanePages (s.img p) e.2.lmax)) = some (h, r))
    (ht : (s.req h).inT2 = false) : elasticScan s p bs = (s.admitElastic p h (s.req h)).getD s := by
  unfold elasticScan
  rw [if_neg (by simp [hst, hp])]
  unfold State.elasticRanked at hfind
  dsimp only
  rw [hl, hfind]
  dsimp only
  rw [State.unspill_resident p bs ht]

/-! ### OUTPUT_RECORD_WRITE (R241) -/

/-- The queue of a partition's records is no part of its apertures. -/
theorem State.inAperture_outQ (s : State) (p a n : Nat) (w : Bool) (l : List OutRec) :
    (s.updPart p (fun x => { x with outQ := l })).inAperture p a n w = s.inAperture p a n w := by
  unfold State.inAperture
  rw [State.part_updPart_self]

section
variable {s : State} {p : Nat} {o : OutRec} {l : List OutRec} (hq : (s.part p).outQ = o :: l)
include hq

theorem outputRecordWrite_closes {st : Nat} {c : Cpl} (hf : o.fin = some (st, c)) :
    outputRecordWrite s p = (s.updPart p (fun x => { x with outQ := l })).closeOut p o.base st c := by
  unfold outputRecordWrite
  rw [hq]
  dsimp only
  rw [hf]

/-- A record in an aperture is written, then SEQ and the count; an end behind it that is not of its own request waits. -/
theorem outputRecordWrite_writes (hf : o.fin = none) (ha : s.inAperture p (o.base + o.offset) o.bytes.length true = true)
    (hl : ∀ n ∈ l.head?, n.fin ≠ none → n.handle ≠ o.handle) :
    outputRecordWrite s p = (((s.updPart p (fun x => { x with outQ := l })).sendWrite p true (o.base + o.offset) o.bytes).sendWrite p true o.base
      (leBytes 4 o.seq ++ leBytes 4 o.cnt)).updPart p (fun x => { x with shareTok := (x.shareTok + 1) % 2 ^ 64 }) := by
  unfold outputRecordWrite
  rw [hq]
  dsimp only
  rw [hf]
  dsimp only
  rw [if_neg (by rw [State.inAperture_outQ, ha]; decide)]
  cases l with
  | nil => rfl
  | cons n t =>
    dsimp only
    cases hn : n.fin with
    | none => rfl
    | some e => exact if_neg (hl n rfl (by rw [hn]; exact Option.some_ne_none e))

end

/-! ### KV_EXPORT_DONE and TTL_EXPIRE (R258, R261) -/

/-- The state once a request's last piece is in the scree: a free value is taken for its page root, and its lane, pages and transfers are given up. -/
def State.exported (s : State) (p h : Nat) : State := ((s.free.2.leaveLane p h).freePages p h).dropXfers p h

theorem kvExportDone_enters_scree {s : State} {p h : Nat} (hp : (s.req h).part = p) (hs : (s.req h).state = .paused)
    (he : (s.req h).toExport = false) (hx : s.xfersDone p h = true) :
    let ttl := if (s.req h).ttl = 0 then s.rd (.adm p) adm.DEFAULT_TTL else (s.req h).ttl
    kvExportDone s p h = ((s.exported p h).updReq h (fun r => { r with
      state := .scree, ttl := ttl, ttlExp := ((s.exported p h).ms + ttl * 1000) % 2 ^ 32, pageRoot := s.free.1.toNat % 2 ^ 24,
      kvLayout := ((s.exported p h).img p).kvLayout })).postCpl p
        { event := 4, cookie := (s.req h).cookie, handle := h, produced := (s.req h).genCnt } :=
  if_neg (by simp [hp, hs, he, hx])

theorem not_ttlOver (ms e : Nat) : (!ttlOver ms e) = decide (2 ^ 31 ≤ (ms % 2 ^ 32 + 2 ^ 32 - e) % 2 ^ 32) := by
  simp only [ttlOver, ← decide_not, Nat.not_lt]

/-- A RESUME of the request waits that was fetched before its timer ran out (R262). -/
def State.resumeInTime (s : State) (p h : Nat) : Bool :=
  (s.part p).cmdIn.any (fun c => c.opc = 3 && c.field 12 3 % 2 ^ 17 = h && !ttlOver c.ms (s.req h).ttlExp)

theorem ttlExpire_expires {s : State} {p h : Nat} (hp : (s.req h).part = p) (hs : (s.req h).state = .scree)
    (ho : ttlOver s.ms (s.req h).ttlExp = true) (hr : s.resumeInTime p h = false) :
    ttlExpire s p h = (s.updReq h (fun r => { r with state := .expired, scree := [], inT2 := false })).postCpl p
      { event := 5, cookie := (s.req h).cookie, handle := h, produced := (s.req h).genCnt, ends := true } := by
  unfold State.resumeInTime at hr
  exact if_neg (by simp only [hp, hs, ho, hr, ne_eq, not_true_eq_false, Bool.not_true, Bool.false_eq_true, or_self, not_false_eq_true])

theorem ttlExpire_waits {s : State} {p h : Nat} (hw : ttlOver s.ms (s.req h).ttlExp = false ∨ s.resumeInTime p h = true) : ttlExpire s p h = s :=
  if_pos (.inr (.inr (hw.imp_left fun ho => by rw [ho]; rfl)))

/-! ### SLACK_SWEEP (R251) -/

/-- The bits that SLACK_MIN holds of a slack (R265). -/
def slackBits (v : Int) : Nat := ((min v 0x7FFFFFFF) % 2 ^ 32).toNat % 2 ^ 32

theorem State.rd_setSlack_ne (s : State) (p q : Nat) (v : Int) {f : Field} (hlo : 0x24 * 32 ≤ f.off * 32 + f.lsb) (hhi : f.off * 32 + f.lsb < 131072)
    (hne : f.off * 32 + f.lsb ≠ (adm.SLACK_MIN q).off * 32 + (adm.SLACK_MIN q).lsb) : (s.setSlack p q v).rd (.adm p) f = s.rd (.adm p) f := by
  unfold State.setSlack
  dsimp only
  split
  · exact (State.rd_err _ _ _ _ _ _ hlo hhi).trans (State.rd_wr_field _ _ _ _ _ hne)
  · exact State.rd_wr_field _ _ _ _ _ hne

theorem State.rd_setSlack_self (s : State) (p : Nat) {q : Nat} (v : Int) (hq : q < 8) :
    (s.setSlack p q v).rd (.adm p) (adm.SLACK_MIN q) = slackBits v := by
  have written := State.rd_wr_self s (.adm p) (adm.SLACK_MIN q) ((min v 0x7FFFFFFF) % 2 ^ 32).toNat (Nat.le_refl 32)
  unfold State.setSlack
  dsimp only
  split
  · exact (State.rd_err _ _ _ _ _ _ (by simp only [adm.SLACK_MIN]; omega) (by simp only [adm.SLACK_MIN]; omega)).trans written
  · exact written

/-- The least slack of the admitted GUARANTEED requests of a priority (R251). -/
def State.leastSlack (s : State) (p q : Nat) : Int :=
  ((s.reqsOf p (fun r => !r.elastic && r.state.running && r.prio = q)).map (fun e => s.slackOf p e.2)).foldl min 0x7FFFFFFF

/-- Slacks come from the requests and the charge counters. -/
theorem State.leastSlack_setSlack (s : State) (p k : Nat) (v : Int) {q : Nat} (hk : k < 8) (hq : q < 8) :
    (s.setSlack p k v).leastSlack p q = s.leastSlack p q := by
  have reqs : (s.setSlack p k v).reqs = s.reqs := (State.setSlack_frame s p k v).reqs rfl
  have counter : (s.setSlack p k v).rd (.adm p) (adm.K q) = s.rd (.adm p) (adm.K q) :=
    State.rd_setSlack_ne _ _ _ _ (by simp only [adm.K]; omega) (by simp only [adm.K]; omega) (by simp only [adm.K, adm.SLACK_MIN]; omega)
  unfold State.leastSlack State.reqsOf
  rw [reqs]
  refine congrArg (List.foldl min _) (List.map_congr_left fun e he => ?_)
  have prio : e.2.prio = q := by
    simp only [List.mem_filter, Bool.and_eq_true, decide_eq_true_eq] at he
    exact he.2.2.2
  unfold State.slackOf
  rw [prio, counter]

/-- The sweep of the priorities of a list. -/
def State.sweep (s : State) (p : Nat) (l : List Nat) : State := l.foldl (fun s q => s.setSlack p q (s.leastSlack p q)) s

theorem slackSweep_eq (s : State) (p : Nat) : slackSweep s p = s.sweep p (List.range 8) := rfl

theorem State.sweep_frame (s : State) (p : Nat) (l : List Nat) : Frame (fp.regs + fp.sent) s (s.sweep p l) :=
  Frame.foldl _ l (Frame.refl _ s) (fun s q => State.setSlack_frame s p q _)

theorem State.rd_sweep (s : State) (p : Nat) {l : List Nat} {q : Nat} (hl : ∀ k ∈ l, k < 8) (hq : q < 8) :
    (s.sweep p l).rd (.adm p) (adm.SLACK_MIN q) = if q ∈ l then slackBits (s.leastSlack p q) else s.rd (.adm p) (adm.SLACK_MIN q) := by
  induction l generalizing s with
  | nil => rfl
  | cons k l ih =>
    obtain ⟨hk, hl⟩ := List.forall_mem_cons.1 hl
    have rest := ih (s.setSlack p k (s.leastSlack p k)) hl
    rw [State.leastSlack_setSlack s p k _ hk hq] at rest
    refine rest.trans ?_
    by_cases hqk : q = k
    · subst hqk
      rw [State.rd_setSlack_self s p _ hq, ite_self, if_pos List.mem_cons_self]
    · rw [State.rd_setSlack_ne s p k _ (by simp only [adm.SLACK_MIN]; omega) (by simp only [adm.SLACK_MIN]; omega) (by simp only [adm.SLACK_MIN]; omega)]
      simp only [List.mem_cons, hqk, false_or]

end Sys2Proof.Machine
end

section
/-! The statement of spec/10_requests_and_admission.md (O41). -/

namespace Sys2Proof.Machine

/-- Settles O41, command by command. -/
theorem lanesScreeAndOutput : Obligations.LanesScreeAndOutput := by
  refine ⟨fun s p l hl hf hp hi hs => ?_, fun s p bs => ⟨fun h => ?_, fun l h r b hst hp hl hfind ht hb hfit => ?_⟩,
    fun s p o l hq => ⟨fun st c hf => ?_, fun hf ha hl => ?_⟩, fun s p h hp hs he hx => ?_, fun s p h hp hs => ⟨fun ended asked => ?_, fun waits => ?_⟩, fun s p => ?_⟩
  · refine ⟨_, congrArg Host.Outcome.next (lanePrime_primes hl hf hp hi hs), ?_, ?_, fun k hk => ?_⟩
    · rw [State.lane_prime, if_pos rfl]
    · rw [State.lane_prime, if_pos rfl]
      exact State.handle_of_laneFree hf
    · rw [State.lane_prime, if_neg hk]
  · exact congrArg Host.Outcome.next (elasticScan_idle bs h)
  · have tries := elasticScan_tries bs hst hp hl hfind ht
    rw [State.admitElastic_fits h hl hb hfit] at tries
    exact congrArg Host.Outcome.next tries
  · exact congrArg Host.Outcome.next (outputRecordWrite_closes hq hf)
  · subst hl
    exact congrArg Host.Outcome.next (outputRecordWrite_writes hq hf ha (by simp))
  · exact congrArg Host.Outcome.next (kvExportDone_enters_scree hp hs he hx)
  · exact congrArg Host.Outcome.next (ttlExpire_expires hp hs (decide_eq_true ended) (by simpa only [State.resumeInTime, not_ttlOver] using asked))
  · refine congrArg Host.Outcome.next (ttlExpire_waits (waits.imp (fun left => decide_eq_false (Nat.not_lt.2 left)) fun asked => ?_))
    simpa only [State.resumeInTime, not_ttlOver] using asked
  · exact ⟨_, rfl, (State.sweep_frame s p _).reqs rfl,
      fun q hq => (State.rd_sweep s p (fun k hk => List.mem_range.1 hk) hq).trans (if_pos (List.mem_range.2 hq))⟩

end Sys2Proof.Machine
end

section
/-! SUPPORT. Faults of cores and units, and the heartbeat: what ALIVE_LOSS, FAULT_COMPLETION, TILE_FAULT, ROUTER_PARITY_FAILURE,
SITE_CONTROLLER_FAILURE, HEARTBEAT and HEARTBEAT_TIMEOUT do, an equation for each of their outcomes (R290, R291, R302 to R304, R308, R313). -/

namespace Sys2Proof.Machine

/-! ### Fault records (R313) -/

/-- An event takes one record number. -/
theorem State.faultSeq_record (s : State) (r : FaultRec) (ents : List (Nat × Nat × Nat)) (ps : List Nat) :
    (s.record r ents ps).faultSeq = s.faultSeq + 1 := by
  have counted : Frame (fp.regs + fp.parts + fp.nor + fp.faultLog + fp.sent + fp.fresh) (s.setMap ents).countRec (s.record r ents ps) := by
    refine .foldl _ _ (.ite (.step (State.abortLoad_frame ..) rfl ?_) ?_) fun x p =>
      .step (State.updPart_frame ..) rfl (.step (State.free_frame x) rfl (.refl ..))
    all_goals exact .step (State.journal_frame ..) rfl (.step (State.logFault_frame ..) rfl (.refl ..))
  exact counted.faultSeq rfl

/-- An event leaves the sites. -/
theorem State.site_record (s : State) (r : FaultRec) (ents : List (Nat × Nat × Nat)) (ps : List Nat) (m : Nat) :
    (s.record r ents ps).site m = s.site m := by
  rw [State.site, State.site, (State.record_frame ..).sites rfl]

/-- The oldest FAULT entry that is due is posted. -/
theorem faultCompletion_posts {s : State} {p : Nat} {c : Cpl} {l : List Cpl} (h : (s.part p).faultDue = c :: l) :
    faultCompletion s p = (s.updPart p (fun x => { x with faultDue := l })).postCplAt p c := by
  unfold faultCompletion
  rw [h]

/-! ### ALIVE_LOSS (R290, R291) -/

section
variable {s : State} {g p : Nat} (ha : (s.core g).alive = true) (hd : cragLocal g < 11)

theorem State.part_showDead (s : State) (g k : Nat) : (s.showDead g).part k = s.part k := by
  rw [State.part, State.part, (State.showDead_frame ..).parts rfl]

theorem State.core_showDead (s : State) (g k : Nat) : (s.showDead g).core k = s.core k := by
  rw [State.core, State.core, (State.showDead_frame ..).cores rfl]

/-- A core that is found dead sets bit 0 of its crag's ERR_STAT (R316). -/
theorem State.stat_showDead (s : State) (g : Nat) : bit ((s.showDead g).rd (cragPage (cragOf g)) page.ERR_STAT) 0 = true :=
  State.stat_err _ _ _ _ (by decide)

/-- A core that its partition's generator has not been given yet is given to it as dead. -/
theorem State.addDead_new {src : Nat} (h : (s.part p).deadNow.any (fun e => e.1 = src) = false) (cause path : Nat) :
    s.addDead p src cause path =
      (s.updPart p (fun x => { x with deadNow := x.deadNow ++ [(src, path)], deadCause := max x.deadCause cause })).showDead src :=
  if_neg (Bool.eq_false_iff.1 h)

include hd in
/-- A data core is neither its crag's parity core nor its spare (R16). -/
theorem State.coreDead_data (s : State) (p path : Nat) : s.coreDead p g path = (s.keepRole p g).addDead p g 6 path :=
  (if_neg (by omega)).trans (if_neg (by omega))

/-- A partition whose tick runs is not held: the dead core waits for the finality (R295). -/
theorem State.joinHold_running (h : (s.part p).phase = .running) (known : List Nat) : s.joinHold p known = s := by
  unfold State.joinHold
  dsimp only
  rw [h]

theorem aliveLoss_ignored (h : (s.core g).alive = false) : aliveLoss s g = s := if_pos (by rw [h]; rfl)

/-- ALIVE_LOSS of a core of a partition that is held goes into the hold (R307). -/
theorem exec_aliveLoss_joins (hp : s.corePart g = some p) :
    exec (.aliveLoss g) s = .next ((aliveLoss s g).joinHold p ((s.part p).deadNow.map (·.1))) := by
  show execAliveLoss g s = _
  unfold execAliveLoss
  dsimp only
  rw [hp]

variable (hg : (s.core g).gated = false) (hf : (s.core g).faulty = false)
include ha hd hg hf

/-- A live data core of an ON partition is given to the generator. -/
theorem aliveLoss_on (hp : s.corePart g = some p) (hs : s.pstate p = 2) :
    aliveLoss s g = ((s.updCore g (fun c => { c with alive := false })).keepRole p g).addDead p g 6 1 := by
  have part : (s.updCore g (fun c => { c with alive := false })).corePart g = some p := hp
  have on : (s.updCore g (fun c => { c with alive := false })).pstate p = 2 := hs
  unfold aliveLoss
  simp only [ha, hg, hf, part, Bool.not_true, Bool.or_self, Bool.false_eq_true, if_false]
  exact (if_pos (.inl on)).trans (State.coreDead_data hd ..)

/-- A live data core that no partition has is recorded alone. -/
theorem aliveLoss_alone (hp : s.corePart g = none) :
    aliveLoss s g = ((s.updCore g (fun c => { c with alive := false })).showDead g).record
      { cls := 1, path := 1, outcome := 2, loc := tileOf g, unit := g % 256 } [(1, g, 1)] [] := by
  have part : (s.updCore g (fun c => { c with alive := false })).corePart g = none := hp
  have cls : deadClass g = 1 := (if_neg (by omega)).trans (if_neg (by omega))
  unfold aliveLoss
  dsimp only
  rw [ha, hg, hf, part, cls]
  rfl

/-- What ALIVE_LOSS leaves of a live data core of an ON partition whose tick runs. -/
theorem exec_aliveLoss_on (hp : s.corePart g = some p) (hs : s.pstate p = 2) (hr : (s.part p).phase = .running)
    (hn : (s.part p).deadNow.any (fun e => e.1 = g) = false) :
    ∃ t, exec (.aliveLoss g) s = .next t ∧ (t.core g).alive = false ∧ (t.part p).deadNow = (s.part p).deadNow ++ [(g, 1)] ∧
      (t.part p).deadCause = max (s.part p).deadCause 6 ∧ bit (t.rd (cragPage (cragOf g)) page.ERR_STAT) 0 = true := by
  let kept := (s.updCore g (fun c => { c with alive := false })).keepRole p g
  obtain ⟨l, role⟩ : ∃ l, kept.part p = { s.part p with roleKeep := l } := ⟨_, State.part_updPart_self ..⟩
  have given := (aliveLoss_on ha hd hg hf hp hs).trans (State.addDead_new (by rw [role]; exact hn) 6 1)
  have part : ((aliveLoss s g).part p) = { kept.part p with
      deadNow := (kept.part p).deadNow ++ [(g, 1)], deadCause := max (kept.part p).deadCause 6 } := by
    rw [given, State.part_showDead, State.part_updPart_self]
  rw [role] at part
  have runs : ((aliveLoss s g).part p).phase = .running := by rw [part]; exact hr
  refine ⟨aliveLoss s g, (exec_aliveLoss_joins hp).trans (congrArg Host.Outcome.next (State.joinHold_running runs _)), ?_, by rw [part], by rw [part],
    by rw [given]; exact State.stat_showDead ..⟩
  rw [given, State.core_showDead]
  exact congrArg Core.alive (State.core_updCore_self s g (fun c => { c with alive := false }))

end

/-- ALIVE_LOSS of a core that no partition has joins no hold. -/
theorem exec_aliveLoss_alone {s : State} {g : Nat} (hp : s.corePart g = none) : exec (.aliveLoss g) s = .next (aliveLoss s g) := by
  show execAliveLoss g s = _
  unfold execAliveLoss
  dsimp only
  rw [hp]

/-! ### Failures that halt (R308) -/

theorem State.tileLost_halts {s : State} {t p : Nat} (h : s.tilePart t = some p) (path : Nat) : s.tileLost t path = s.halt p 9 path t 0 [(5, t, 1)] := by
  unfold State.tileLost
  rw [h]

theorem State.tileLost_alone {s : State} {t : Nat} (h : s.tilePart t = none) (path : Nat) :
    s.tileLost t path = s.record { cls := 9, path := path, outcome := 2, loc := t } [(5, t, 1)] [] := by
  unfold State.tileLost
  rw [h]

theorem routerParityFailure_halts {s : State} {g p : Nat} (h : s.corePart g = some p) :
    routerParityFailure s g = s.freePath.2.halt p 10 s.freePath.1 (tileOf g) (g % 256) [] := by
  have part : s.freePath.2.corePart g = some p := h
  unfold routerParityFailure
  dsimp only
  rw [part]

theorem routerParityFailure_alone {s : State} {g : Nat} (h : s.corePart g = none) :
    routerParityFailure s g = s.freePath.2.record { cls := 10, path := s.freePath.1, outcome := 2, loc := tileOf g, unit := g % 256 } [] [] := by
  have part : s.freePath.2.corePart g = none := h
  unfold routerParityFailure
  dsimp only
  rw [part]

/-- A site whose controller has failed: its page reads FAULTED. -/
def State.siteFailed (s : State) (m : Nat) : State := (s.updSite m (fun x => { x with up := false })).wr (.msite m) page.STATE 4

theorem State.sitePart_siteFailed (s : State) (m : Nat) : (s.siteFailed m).freePath.2.sitePart m = s.sitePart m :=
  congrArg (fun v => if v < 12 then some v else none) (State.rd_wr_field _ _ _ _ _ (by decide))

theorem siteControllerFailure_halts {s : State} {m p : Nat} (h : s.sitePart m = some p) :
    siteControllerFailure s m = (s.siteFailed m).freePath.2.halt p 15 (s.siteFailed m).freePath.1 m 0 [] := by
  have part := (State.sitePart_siteFailed s m).trans h
  unfold siteControllerFailure
  dsimp only
  unfold State.siteFailed at part
  rw [part]
  rfl

theorem siteControllerFailure_alone {s : State} {m : Nat} (h : s.sitePart m = none) :
    siteControllerFailure s m =
      (s.siteFailed m).freePath.2.record { cls := 15, path := (s.siteFailed m).freePath.1, outcome := 2, loc := m } [] [] := by
  have part := (State.sitePart_siteFailed s m).trans h
  unfold siteControllerFailure
  dsimp only
  unfold State.siteFailed at part
  rw [part]
  rfl

/-! ### Control tiles (R302 to R304) -/

theorem heartbeat_noted {s : State} {c : Nat} (hc : (s.ctl c).up = true) (hd : (s.ctl (1 - c)).up = true) :
    heartbeat s c = s.updCtl (1 - c) (fun x => { x with hbSeen := s.clock }) :=
  if_neg (by rw [hc, hd]; decide)

theorem heartbeat_lost {s : State} {c : Nat} (h : (s.ctl c).up = false ∨ (s.ctl (1 - c)).up = false) : heartbeat s c = s :=
  if_pos (by rcases h with h | h <;> rw [h] <;> simp)

section
variable {s : State} {c : Nat}

theorem heartbeatTimeout_early (h : s.clock < (s.ctl c).hbSeen + 6000) : heartbeatTimeout s c = s := if_pos (by simp [h])

variable (hup : (s.ctl c).up = true) (hb : 4 ≤ s.rd (.smc c) smc.BRINGUP) (hs : (s.ctl c).hbSeen + 6000 ≤ s.clock)
include hup hb hs

/-- The conditions of R303 hold: the request goes to the SPS. -/
theorem heartbeatTimeout_due : ¬ (!(s.ctl c).up || decide (s.rd (.smc c) smc.BRINGUP < 4) || decide ((s.ctl c).hbSeen + 6000 > s.clock)) = true := by
  simp [hup, hb, hs]

/-- A tile that its peer has fenced switches itself off. -/
theorem heartbeatTimeout_fenced (hf : s.sps.fenced = some c) :
    heartbeatTimeout s c = (s.updCtl c (fun x => { x with up := false })).losePorts c := by
  refine (if_neg (heartbeatTimeout_due hup hb hs)).trans ?_
  rw [hf]
  exact if_pos rfl

/-- A takeover changes the power sequencer by the fence alone. -/
theorem heartbeatTimeout_sps (hf : s.sps.fenced = none) : (heartbeatTimeout s c).sps = { s.sps with fenced := some (1 - c) } := by
  have granted : Frame (fp.ctls + fp.faulted) (s.setSps { s.sps with fenced := some (1 - c) }) (heartbeatTimeout s c) := by
    unfold heartbeatTimeout
    dsimp only
    rw [if_neg (heartbeatTimeout_due hup hb hs), hf]
    refine .step (State.linkCheck_frame ..) rfl (.step (State.flush_frame ..) rfl (.step (State.record_frame ..) rfl ?_))
    refine .foldl _ _ (.foldl _ _ ?_ fun x p => .step (State.takeOver_frame ..) rfl (.refl ..)) fun x p =>
      .step (State.soloPart_frame ..) rfl (.refl ..)
    refine .step (State.agentGone_frame ..) rfl (.step (State.losePorts_frame ..) rfl (.step (State.updCtl_frame ..) rfl ?_))
    exact .step (State.setFlag_frame ..) rfl (.step (State.setFlag_frame ..) rfl (.refl ..))
  exact granted.sps rfl

end

theorem exec_heartbeatTimeout_quiet {s : State} {c : Nat} (h : (heartbeatTimeout s c).sps.fenced = s.sps.fenced) :
    exec (.heartbeatTimeout c) s = .next (heartbeatTimeout s c) := congrArg Host.Outcome.next (if_pos h)

/-- A takeover tells the Tally the module again (R429). -/
theorem exec_heartbeatTimeout_tells {s : State} {c : Nat} (h : (heartbeatTimeout s c).sps.fenced ≠ s.sps.fenced) :
    exec (.heartbeatTimeout c) s = .next ((heartbeatTimeout s c).pairInfo false) := congrArg Host.Outcome.next (if_neg h)

end Sys2Proof.Machine
end

section
/-! The statement of spec/12_faults_and_recovery.md about cores and units (O43). -/

namespace Sys2Proof.Machine

/-- Settles O43, command by command. -/
theorem coreAndUnitFaults : Obligations.CoreAndUnitFaults := by
  refine ⟨fun s g p ha hg hf hp hs hd hr hn => exec_aliveLoss_on ha hd hg hf hp hs hr hn, fun s g ha hg hf hp hd => ?_, fun s g ha hp => ?_,
    fun s p c l h => ?_, fun s t p h => ?_, fun s t h => ⟨?_, ?_⟩, fun s g => ⟨fun p h => ?_, fun h => ?_⟩, fun s m h => ?_, fun s m p h => ?_,
    fun s c => ⟨fun hc hd => ?_, fun h => ?_⟩, fun s c hup hb => ⟨fun early => ?_, fun due => ⟨fun fenced => ?_, fun free => ?_⟩⟩⟩
  · exact (exec_aliveLoss_alone hp).trans (congrArg Host.Outcome.next (aliveLoss_alone ha hd hg hf hp))
  · exact (exec_aliveLoss_alone hp).trans (congrArg Host.Outcome.next (aliveLoss_ignored ha))
  · exact congrArg Host.Outcome.next (faultCompletion_posts h)
  · exact congrArg Host.Outcome.next (State.tileLost_halts h 11)
  · exact congrArg Host.Outcome.next (State.tileLost_alone h 11)
  · exact congrArg Host.Outcome.next (State.tileLost_alone (s := s.freePath.2) h s.freePath.1)
  · exact congrArg Host.Outcome.next (routerParityFailure_halts h)
  · exact congrArg Host.Outcome.next (routerParityFailure_alone h)
  · have alone := siteControllerFailure_alone (m := m) (if_neg (Nat.not_lt.2 h))
    refine ⟨_, congrArg Host.Outcome.next alone, ?_, State.faultSeq_record ..⟩
    rw [State.site_record]
    exact congrArg Site.up (State.site_updSite_self s m (fun x => { x with up := false }))
  · exact congrArg Host.Outcome.next (siteControllerFailure_halts h)
  · refine ⟨_, congrArg Host.Outcome.next (heartbeat_noted hc hd), ?_, rfl⟩
    rw [State.ctl_updCtl_self]
  · exact congrArg Host.Outcome.next (heartbeat_lost h)
  · have same := heartbeatTimeout_early early
    exact (exec_heartbeatTimeout_quiet (by rw [same])).trans (congrArg Host.Outcome.next same)
  · have off := heartbeatTimeout_fenced hup hb due fenced
    have kept : (heartbeatTimeout s c).sps = s.sps := by rw [off, (State.losePorts_frame ..).sps rfl]; rfl
    exact ⟨_, exec_heartbeatTimeout_quiet (by rw [kept]), by rw [kept, fenced], off⟩
  · have granted : (heartbeatTimeout s c).sps.fenced = some (1 - c) := congrArg Sps.fenced (heartbeatTimeout_sps hup hb due free)
    exact ⟨granted, exec_heartbeatTimeout_tells (by rw [granted, free]; exact Option.some_ne_none _)⟩

end Sys2Proof.Machine
end

section
/-! SUPPORT. The input and the regulator phases: what VIN_SAMPLE, COMPUTE_SWITCH_CLOSE, PHASE_LOSS, PH_OFFLINE and CARTRIDGE_SELF_TEST do, an equation
for each of their outcomes (R300, R305, R319, R321, R322, R324, R325, R327, R333). -/

namespace Sys2Proof.Machine

/-! ### VIN_SAMPLE (R319, R325, R327) -/

/-- A sample taken: the newest 10,000 products, and the samples since P48 was last at 45 V or below. -/
def State.takeSample (s : State) (v a : Nat) : State :=
  s.updSps (fun x => { x with samples := (v * a :: x.samples).take 10000, recovered := if 4500 < v then x.recovered + 1 else 0 })

/-- A sample shown: VIN, and in PIN the average over the window. -/
def State.showSample (s : State) (v a : Nat) : State :=
  let q := (s.takeSample v a).freeQuot ((s.takeSample v a).powerSum 10000) (10000 * tenWatts)
  (q.2.wr .sps sps.VIN v).wr .sps sps.PIN q.1

/-- VIN_LOW and VIN_HIGH, for an input that was in the range of class `was`. -/
def State.noteRange (s : State) (was v : Nat) : State :=
  if vinClass v = 2 ∧ (was ≠ 2 ∨ !bit (s.rd .sps page.ERR_STAT) 7) then s.err .sps 7
  else if vinClass v = 1 ∧ (was ≠ 1 ∨ !bit (s.rd .sps page.ERR_STAT) 1) then s.err .sps 1 else s

section
variable (s : State) (v a : Nat)

theorem State.showSample_frame : Frame (fp.regs + fp.fresh) (s.takeSample v a) (s.showSample v a) :=
  .step (State.wr_frame ..) rfl (.step (State.wr_frame ..) rfl (.step (State.freeQuot_frame ..) rfl (.refl ..)))

theorem State.noteRange_frame (was : Nat) : Frame (fp.regs + fp.sent) s (s.noteRange was v) :=
  .ite (State.err_frame ..) (.ite (State.err_frame ..) (.refl ..))

theorem State.noteRange_inside (was : Nat) (h : vinClass v = 0) : s.noteRange was v = s :=
  (if_neg (by rw [h]; nofun)).trans (if_neg (by rw [h]; nofun))

/-- What is shown of a sample leaves the sequencer as the sample left it. -/
theorem State.sps_shown (was : Nat) : ((s.showSample v a).noteRange was v).sps = (s.takeSample v a).sps :=
  ((State.noteRange_frame ..).sps rfl).trans ((State.showSample_frame ..).sps rfl)

theorem State.rd_vin_showSample : (s.showSample v a).rd .sps sps.VIN = v % 2 ^ 16 :=
  (State.rd_wr_field _ _ _ _ _ (by decide)).trans (State.rd_wr_self _ _ _ _ (by decide))

theorem State.rd_modCap_showSample : (s.showSample v a).rd .sps sps.MOD_CAP = s.rd .sps sps.MOD_CAP := by
  have quot : ((s.takeSample v a).freeQuot ((s.takeSample v a).powerSum 10000) (10000 * tenWatts)).2.regs = s.regs :=
    (State.freeQuot_frame ..).regs rfl
  exact (State.rd_wr_field _ _ _ _ _ (by decide)).trans ((State.rd_wr_field _ _ _ _ _ (by decide)).trans (State.rd_congr quot _ _))

end

/-- Whether a sample trips depends on the sequencer alone. -/
theorem State.tripCause_congr {s t : State} (h : t.sps = s.sps) (v w : Nat) : t.tripCause v w = s.tripCause v w := by
  unfold State.tripCause State.powerSum
  rw [h]

/-- The power-fail path leaves of the sequencer what it latched (R325). -/
theorem State.sps_trip (s : State) (cause : Nat) : (s.trip cause).sps = { s.sps with latched := true, state := .failing } := by
  let latched := ((s.wr .sps sps.TRIP_CAUSE cause).err .sps 0).updSps (fun x => { x with latched := true })
  have down : Frame fp.faulted (latched.updSps (fun x => { x with state := .failing })) (s.trip cause) := by
    unfold State.trip State.powerFailing
    exact .step (State.updNor_frame ..) rfl (.step (State.haltAll_frame ..) rfl (.step (State.openAll_frame ..) rfl (.refl ..)))
  have noted : ((s.wr .sps sps.TRIP_CAUSE cause).err .sps 0).sps = s.sps := (State.err_frame ..).sps rfl
  rw [down.sps rfl, ← noted]
  rfl

theorem vinSample_off {s : State} (h : s.sps.state = .off) (v a : Nat) : vinSample s v a = s := if_pos h

section
variable {s : State} {v a : Nat} (hg : s.sps.state = .good)
include hg

/-- A module in service that a sample trips, and one that stays within the window with neither itself over its cap nor the average above it. -/
theorem vinSample_good :
    ((s.takeSample v a).tripCause v (v * a) ≠ 0 → vinSample s v a =
      ((s.showSample v a).noteRange (vinClass (s.rd .sps sps.VIN)) v).trip ((s.takeSample v a).tripCause v (v * a))) ∧
    ((s.takeSample v a).tripCause v (v * a) = 0 → vinClass v = 0 → s.sps.modOver = false →
      (s.takeSample v a).powerSum 10000 ≤ s.rd .sps sps.MOD_CAP * tenWatts * 10000 → vinSample s v a = s.showSample v a) := by
  let was := vinClass (s.rd .sps sps.VIN)
  have kept := State.sps_shown s v a was
  have cause := State.tripCause_congr kept v (v * a)
  obtain ⟨pin, x, hq⟩ : ∃ pin x, (s.takeSample v a).freeQuot ((s.takeSample v a).powerSum 10000) (10000 * tenWatts) = (pin, x) := ⟨_, _, rfl⟩
  have shown : (x.wr .sps sps.VIN v).wr .sps sps.PIN pin = s.showSample v a := by rw [State.showSample, hq]
  have good : ¬ ((s.showSample v a).sps.state ≠ .good ∧ (s.showSample v a).sps.state ≠ .clkWait) := by
    rw [(State.showSample_frame s v a).sps rfl]
    exact fun out => out.1 hg
  unfold State.takeSample at hq
  unfold vinSample
  dsimp only
  rw [if_neg (by rw [hg]; nofun), hq]
  dsimp only
  rw [shown, if_neg good, ← State.noteRange]
  refine ⟨fun trips => ?_, fun fits inside under below => ?_⟩
  · split
    · next h => exact absurd (cause.symm.trans h) trips
    · exact congrArg (State.trip _) cause
  · have mark := congrArg Sps.modOver kept
    rw [State.noteRange_inside _ _ _ inside] at mark cause ⊢
    split
    · rw [if_neg, if_pos]
      · exact (congrArg (!·) (mark.trans under))
      · rw [State.rd_modCap_showSample]
        exact Nat.not_lt.2 below
    · next h => exact absurd (cause.trans fits) h

end

/-! ### COMPUTE_SWITCH_CLOSE (R324) -/

/-- A field keeps its value when a field at another place is written, of whatever page. -/
theorem State.rd_wr_apart (s : State) (p q : Page) (f k : Field) (v : Nat) (h : k.off * 32 + k.lsb ≠ f.off * 32 + f.lsb)
    (hf : f.off * 32 + f.lsb < 131072) (hk : k.off * 32 + k.lsb < 131072) : (s.wr p f v).rd q k = s.rd q k := by
  apply State.rd_wr_ne
  simp only [regKey]
  omega

section
variable {s : State} {t : Nat} (h : s.flag (.therm t) therm.COMPUTE_ON = false)
include h

theorem computeSwitchClose_may (hm : s.mayClose t = true) (ok : Bool) :
    computeSwitchClose s t ok = if ok then s.setCompute t true else s.tileLost t 11 :=
  if_neg (by rw [h, hm]; decide)

theorem computeSwitchClose_mayNot (hm : s.mayClose t = false) (ok : Bool) : computeSwitchClose s t ok = s :=
  if_pos (by rw [h, hm]; rfl)

end

/-- As the compute side of a tile goes on, COMPUTE_ON and the neighbours' PEER_COMPUTE_DOWN are written. -/
theorem State.rd_setCompute_on (s : State) (t : Nat) (pg : Page) {f : Field}
    (h : f.off * 32 + f.lsb ≠ saddle.PEER_COMPUTE_DOWN.off * 32 + saddle.PEER_COMPUTE_DOWN.lsb) (hf : f.off * 32 + f.lsb < 131072) :
    (s.setCompute t true).rd pg f = (s.setFlag (.therm t) therm.COMPUTE_ON true).rd pg f := by
  refine State.rd_foldl _ _ _ _ _ fun x e => ?_
  split
  · exact State.rd_wr_apart _ _ _ _ _ _ h (by decide) hf
  · rfl

theorem State.computeOn_setCompute (s : State) (t : Nat) : (s.setCompute t true).flag (.therm t) therm.COMPUTE_ON = true := by
  rw [State.flag, State.rd_setCompute_on _ _ _ (by decide) (by decide)]
  exact State.flag_setFlag_self _ _ _ _ (by decide) (by decide)

/-! ### Regulator stacks (R300, R322, R333) -/

theorem State.stack_congr {s t : State} (h : t.sps = s.sps) (k : Nat) : t.stack k = s.stack k := by
  rw [State.stack, State.stack, h]

theorem State.stack_updStack_self (s : State) (k : Nat) (f : Stack → Stack) : (s.updStack k f).stack k = f (s.stack k) := by
  have twice : ∀ a b : Nat, Nat.xor (Nat.xor a b) b = a := fun a b => by
    show (a ^^^ b) ^^^ b = a
    rw [Nat.xor_assoc, Nat.xor_self, Nat.xor_zero]
  have whole : ∀ x : Stack, ({ x with ok := Nat.xor (Nat.xor x.ok (stackNew k).ok) (stackNew k).ok } : Stack) = x := fun x => by rw [twice]
  unfold State.stack State.updStack
  rw [Table.get_set, if_pos rfl]
  exact whole _

/-! ### PHASE_LOSS -/

section
variable {s : State} {k ph : Nat} (hk : k < 90) (hph : ph < stackPhases k)

theorem phaseLoss_lost (h : bit (s.stack k).ok ph = false) (e : Bool) : phaseLoss s k ph e = s := if_pos (by rw [h]; simp)

/-- The power sequencer once a phase is lost: its stack alone has changed. -/
def State.phaseOut (s : State) (k ph : Nat) : State :=
  s.updStack k (fun x => { x with ok := x.ok - 2 ^ ph, bad := Nat.lor x.bad (2 ^ ph), lost := (x.lost + 1) % 2 ^ 32 })

include hk hph

/-- A lost phase changes the power sequencer in the record of its stack alone. -/
theorem phaseLoss_sps (h : bit (s.stack k).ok ph = true) (e : Bool) : (phaseLoss s k ph e).sps = (s.phaseOut k ph).sps := by
  have counted : Frame (fp.ctls + fp.faulted) (s.phaseOut k ph) ((s.phaseOut k ph).err .sps 3) := .step (State.err_frame ..) rfl (.refl ..)
  have noted := fun q loc e ent => Frame.step (State.notePhase_frame _ q loc ph e ent) rfl counted
  have lost : Frame (fp.ctls + fp.faulted) (s.phaseOut k ph) (phaseLoss s k ph e) := by
    unfold phaseLoss
    dsimp only
    rw [if_neg (by simp [h, Nat.not_le.2 hk, Nat.not_le.2 hph])]
    refine .ite (.ite ?_ (noted ..)) (.ite (.ite ?_ (noted ..)) (.ite (.step (State.ctlLost_frame ..) rfl (noted ..)) (noted ..)))
    all_goals
      split
      · exact .step (State.halt_frame ..) rfl counted
      · exact .step (State.record_frame ..) rfl counted
  exact lost.sps rfl

end

/-! ### PH_OFFLINE -/

section
variable {s : State} {k v : Nat} (hs : s.rd .sps sps.PH_SEL = k) (hk : k < 90)
include hs hk

/-- One phase goes offline, where every other one reads PH_OK and none comes back. -/
theorem phOffline_takes {b : Nat} (hn : (List.range (stackPhases k)).filter (fun i => bit v i && !bit (s.stack k).offline i) = [b])
    (hb : (List.range (stackPhases k)).filter (fun i => !bit v i && bit (s.stack k).offline i && !bit (s.stack k).bad i) = [])
    (ho : (List.range (stackPhases k)).all (fun i => i = b || bit (s.stack k).ok i) = true) (hok : bit (s.stack k).ok b = true) :
    phOffline s v = s.updStack k (fun x => { x with ok := (s.stack k).ok - 2 ^ b, offline := v % 2 ^ stackPhases k }) := by
  unfold phOffline
  dsimp only
  rw [hs, if_neg (Nat.not_le.2 hk), hn, hb]
  simp only [ho, hok, Bool.not_true, Bool.false_eq_true, if_false, if_true, List.foldl_nil, List.foldl_cons]

/-- A write that takes out two phases is refused. -/
theorem phOffline_refuses {a b : Nat} {l : List Nat}
    (hn : (List.range (stackPhases k)).filter (fun i => bit v i && !bit (s.stack k).offline i) = a :: b :: l) : phOffline s v = s.err .sps 4 := by
  unfold phOffline
  dsimp only
  rw [hs, if_neg (Nat.not_le.2 hk), hn]
  rfl

end

/-! ### CARTRIDGE_SELF_TEST -/

/-- A cartridge that has passed its test: its phase is in again, and it counts as failed no more. -/
def State.cartridgeFine (s : State) (k ph : Nat) : State :=
  s.updStack k (fun x => { x with ok := Nat.lor x.ok (2 ^ ph), bad := if bit x.bad ph then x.bad - 2 ^ ph else x.bad })

theorem State.stack_cartridgeFine (s : State) (k ph : Nat) : (s.cartridgeFine k ph).stack k = { s.stack k with
    ok := Nat.lor (s.stack k).ok (2 ^ ph), bad := if bit (s.stack k).bad ph then (s.stack k).bad - 2 ^ ph else (s.stack k).bad } :=
  State.stack_updStack_self ..

theorem cartridgeSelfTest_restores {s : State} {k ph : Nat} (hk : k < 90) (hph : ph < stackPhases k) (h : bit (s.stack k).offline ph = true) :
    cartridgeSelfTest s k ph = (s.cartridgeFine k ph).setMap [(4, k * 32 + ph, 0)] := by
  unfold cartridgeSelfTest
  exact if_neg (by simp [h, Nat.not_le.2 hk, Nat.not_le.2 hph])

/-- A change of one entry of the fault map. -/
theorem State.mapped_setMap_self (s : State) (kind i v : Nat) : (s.setMap [(kind, i, v)]).mapped kind i = v :=
  (Table.get_set ..).trans (if_pos rfl)

end Sys2Proof.Machine
end

section
/-! The statement of spec/12_faults_and_recovery.md about the input and the phases (O45). -/

namespace Sys2Proof.Machine

/-- Settles O45, command by command. -/
theorem inputAndPhases : Obligations.InputAndPhases := by
  refine ⟨fun s v a => ⟨fun off => ?_, fun good trips => ?_, fun good fits inside under below => ?_⟩,
    fun s t h => ⟨fun may => ⟨?_, ?_⟩, fun mayNot ok => ?_⟩, fun s k ph e hk hph => ⟨fun h => ?_, fun h => ?_⟩,
    fun s v k hs hk => ⟨fun b hn ho hb hok => ?_, fun a b l hn => ?_⟩, fun s k ph hk hph h => ?_⟩
  · exact congrArg Host.Outcome.next (vinSample_off off v a)
  · obtain ⟨falls, -⟩ := vinSample_good (v := v) (a := a) good
    refine ⟨_, congrArg Host.Outcome.next (falls trips), ?_, ?_⟩ <;> rw [State.sps_trip]
  · obtain ⟨-, stays⟩ := vinSample_good (v := v) (a := a) good
    have shown := State.showSample_frame s v a
    exact ⟨_, congrArg Host.Outcome.next (stays fits inside under below), shown.sps rfl, State.rd_vin_showSample s v a, shown.parts rfl⟩
  · exact ⟨_, congrArg Host.Outcome.next (computeSwitchClose_may h may true), State.computeOn_setCompute s t⟩
  · exact congrArg Host.Outcome.next (computeSwitchClose_may h may false)
  · exact congrArg Host.Outcome.next (computeSwitchClose_mayNot h mayNot ok)
  · exact ⟨_, rfl, (State.stack_congr (phaseLoss_sps hk hph h e) k).trans (State.stack_updStack_self ..)⟩
  · exact congrArg Host.Outcome.next (phaseLoss_lost h e)
  · exact ⟨_, congrArg Host.Outcome.next (phOffline_takes hs hk hn hb ho hok), State.stack_updStack_self ..⟩
  · exact ⟨_, congrArg Host.Outcome.next (phOffline_refuses hs hk hn), (State.err_frame ..).sps rfl, State.stat_err _ _ _ _ (by decide)⟩
  · have stack : ((s.cartridgeFine k ph).setMap [(4, k * 32 + ph, 0)]).stack k = _ := State.stack_cartridgeFine s k ph
    exact ⟨_, congrArg Host.Outcome.next (cartridgeSelfTest_restores hk hph h), by rw [stack], by rw [stack],
      State.mapped_setMap_self .., rfl⟩

end Sys2Proof.Machine
end

section
/-! SUPPORT. Heat: what THERMAL_UPDATE writes into STRETCH_REQ, and what DIODE_READING, BASE_CAPTURE and CAPTURE_END do, an equation for each of their
outcomes (R312, R328, R330 to R332, R339). -/

namespace Sys2Proof.Machine

/-! ### THERMAL_UPDATE (R330) -/

/-- The stretch that the tiles and sites of a partition ask for. -/
def State.wantedStretch (s : State) (p : Nat) : Nat :=
  max (maxOf ((s.part p).tiles.map (fun t => s.rd (.therm t) therm.K_TILE))) (if (s.partSites p).any (fun m => s.flag (.msite m) msite.HOT) then 16 else 0)

section
variable (s : State) (k p : Nat)

/-- A request for a stretch changes STRETCH_REQ alone. -/
theorem State.rd_writeStretch_apart (q : Page) {f : Field} (h : f.off * 32 + f.lsb ≠ tickgen.STRETCH_REQ.off * 32 + tickgen.STRETCH_REQ.lsb)
    (hf : f.off * 32 + f.lsb < 131072) : (s.writeStretch k).rd q f = s.rd q f := by
  unfold State.writeStretch
  split
  · rfl
  · exact State.rd_wr_apart _ _ _ _ _ _ h (by decide) hf

theorem State.tiles_writeStretch : ((s.writeStretch k).part p).tiles = (s.part p).tiles := by
  unfold State.writeStretch
  split
  · rfl
  · refine (congrArg Part.tiles (State.part_updPart ..)).trans ?_
    split
    · next h => rw [h]; rfl
    · rfl

theorem State.created_writeStretch : (s.writeStretch k).created p = s.created p :=
  congrArg (fun v => decide (v ≠ 0)) (State.rd_writeStretch_apart _ _ _ (by decide) (by decide))

theorem State.partSites_writeStretch : (s.writeStretch k).partSites p = s.partSites p := by
  have site : (s.writeStretch k).sitePart = s.sitePart := funext fun m =>
    congrArg (fun v => if v < 12 then some v else none) (State.rd_writeStretch_apart s k (.msite m) (by decide) (by decide))
  rw [State.partSites, State.partSites, site]

theorem State.wantedStretch_writeStretch : (s.writeStretch k).wantedStretch p = s.wantedStretch p := by
  have tile : (fun t => (s.writeStretch k).rd (.therm t) therm.K_TILE) = fun t => s.rd (.therm t) therm.K_TILE :=
    funext fun t => State.rd_writeStretch_apart _ _ _ (by decide) (by decide)
  have hot : (fun m => (s.writeStretch k).flag (.msite m) msite.HOT) = fun m => s.flag (.msite m) msite.HOT :=
    funext fun m => congrArg (fun v => decide (v ≠ 0)) (State.rd_writeStretch_apart s k (.msite m) (by decide) (by decide))
  rw [State.wantedStretch, State.tiles_writeStretch, State.partSites_writeStretch, tile, hot, State.wantedStretch]

theorem State.rd_writeStretch (hc : s.created p = true) : (s.writeStretch k).rd (.tickgen p) tickgen.STRETCH_REQ =
    if k = p then s.wantedStretch p % 2 ^ 7 else s.rd (.tickgen p) tickgen.STRETCH_REQ := by
  split
  · next h =>
    subst h
    unfold State.writeStretch
    rw [if_neg (by rw [hc]; decide)]
    exact State.rd_wr_self _ _ _ _ (by decide)
  · next h =>
    unfold State.writeStretch
    split
    · rfl
    · exact State.rd_wr_page _ _ _ _ _ _ (by simp only [Page.id]; omega) (by decide) (by decide)

end

/-- The requests for the partitions of a list: each created one gets the stretch that its tiles and sites ask for. -/
theorem State.rd_writeStretches (s : State) (l : List Nat) {p : Nat} (hc : s.created p = true) :
    (l.foldl State.writeStretch s).rd (.tickgen p) tickgen.STRETCH_REQ =
      if p ∈ l then s.wantedStretch p % 2 ^ 7 else s.rd (.tickgen p) tickgen.STRETCH_REQ := by
  induction l generalizing s with
  | nil => rfl
  | cons k l ih =>
    have rest := ih (s.writeStretch k) ((State.created_writeStretch ..).trans hc)
    rw [State.wantedStretch_writeStretch, State.rd_writeStretch _ _ _ hc] at rest
    refine rest.trans ?_
    by_cases h : k = p
    · subst h
      rw [if_pos rfl, ite_self, if_pos List.mem_cons_self]
    · simp only [List.mem_cons, Ne.symm h, h, false_or, if_false]

theorem thermalUpdate_ignored {s : State} (h : s.sps.state ≠ .good) (tIn : Int) : thermalUpdate s tIn = s := if_pos h

theorem thermalUpdate_good {s : State} (h : s.sps.state = .good) (tIn : Int) : thermalUpdate s tIn =
    (List.range 12).foldl State.writeStretch ((List.range 72).foldl (fun s t => (s.heatTile tIn t).coolant tIn t) s.capUpdate) :=
  if_neg (not_not_intro h)

/-! ### Quotients that no rule rounds -/

theorem State.freeQuot_fst (s : State) (n d : Nat) : (s.freeQuot n d).1 = n / d ∨ (s.freeQuot n d).1 = n / d + 1 := by
  unfold State.freeQuot
  split
  · exact .inl rfl
  · exact (Nat.mod_two_eq_zero_or_one s.free.1.toNat).imp (congrArg (n / d + ·)) (congrArg (n / d + ·))

theorem State.freeQuotInt_fst (s : State) (n : Int) {d : Nat} (hd : 0 < d) :
    (s.freeQuotInt n d).1 = n / d ∨ (s.freeQuotInt n d).1 = n / d + 1 := by
  have small : (n % d).toNat / d = 0 := Nat.div_eq_of_lt (by have := Int.emod_lt_of_pos n (Int.natCast_pos.2 hd); omega)
  have rounded := s.freeQuot_fst (n % d).toNat d
  rw [small] at rounded
  refine rounded.imp (fun h => ?_) fun h => ?_ <;> simp [State.freeQuotInt, h]

/-! ### DIODE_READING (R312, R331) -/

/-- A reading shown in T_LAST. -/
def State.showDiodes (s : State) (t : Nat) : State :=
  let q := s.freeQuotInt (s.dieTemp t) 1024
  q.2.wr (.therm t) therm.T_LAST (temp8 q.1)

/-- The run of readings of 105 °C or more that one of `temp` makes. -/
def State.hotRun (s : State) (t : Nat) (temp : Int) : Nat := if celsius 105 ≤ temp then min 10 ((s.tile t).hot105 + 1) else 0

theorem State.hotRun_cool (s : State) (t : Nat) {temp : Int} (hc : temp < celsius 105) : s.hotRun t temp = 0 := if_neg (Int.not_le.2 hc)

/-- A reading shown and kept. -/
def State.readDiodes (s : State) (t : Nat) : State :=
  let x := s.showDiodes t
  let run := x.hotRun t (s.dieTemp t)
  (x.updTile t (fun x => { x with diodes := (s.dieTemp t :: x.diodes).take 10, hot105 := run })).wr (.therm t) therm.HOT105_RUN run

section
variable (s : State) (t : Nat)

theorem State.showDiodes_frame : Frame (fp.regs + fp.fresh) s (s.showDiodes t) :=
  .step (State.wr_frame ..) rfl (.step (State.freeQuotInt_frame ..) rfl (.refl ..))

theorem State.readDiodes_frame : Frame (fp.regs + fp.tiles + fp.fresh) s (s.readDiodes t) :=
  .step (State.wr_frame ..) rfl (.step (State.updTile_frame ..) rfl (.step (State.showDiodes_frame ..) rfl (.refl ..)))

theorem State.tile_readDiodes : (s.readDiodes t).tile t =
    { s.tile t with diodes := (s.dieTemp t :: (s.tile t).diodes).take 10, hot105 := (s.showDiodes t).hotRun t (s.dieTemp t) } := by
  have shown : (s.showDiodes t).tile t = s.tile t := by rw [State.tile, State.tile, (State.showDiodes_frame ..).tiles rfl]
  rw [← shown]
  unfold State.readDiodes
  dsimp only
  rw [State.tile_wr, State.tile_updTile_self]

/-- A reading changes T_LAST and HOT105_RUN alone of the registers. -/
theorem State.rd_readDiodes (q : Page) {f : Field} (hl : f.off * 32 + f.lsb ≠ therm.T_LAST.off * 32 + therm.T_LAST.lsb)
    (hr : f.off * 32 + f.lsb ≠ therm.HOT105_RUN.off * 32 + therm.HOT105_RUN.lsb) (hf : f.off * 32 + f.lsb < 131072) :
    (s.readDiodes t).rd q f = s.rd q f := by
  have quot : (s.freeQuotInt (s.dieTemp t) 1024).2.regs = s.regs := (State.freeQuotInt_frame ..).regs rfl
  refine (State.rd_wr_apart _ _ _ _ _ _ hr (by decide) hf).trans ?_
  exact (State.rd_wr_apart _ _ _ _ _ _ hl (by decide) hf).trans (State.rd_congr quot _ _)

theorem State.flag_fenced_readDiodes : (s.readDiodes t).flag (.therm t) therm.FENCED = s.flag (.therm t) therm.FENCED :=
  congrArg (fun v => decide (v ≠ 0)) (State.rd_readDiodes _ _ _ (by decide) (by decide) (by decide))

theorem State.rd_tLast_readDiodes : ∃ v, (s.readDiodes t).rd (.therm t) therm.T_LAST = temp8 v % 2 ^ 8 ∧
    (v = s.dieTemp t / 1024 ∨ v = s.dieTemp t / 1024 + 1) :=
  ⟨_, (State.rd_wr_field _ _ _ _ _ (by decide)).trans (State.rd_wr_self _ _ _ _ (by decide)), State.freeQuotInt_fst _ _ (by decide)⟩

end

section
variable {s : State} {t p : Nat} (ht : t < 72) (hp : s.tilePart t = some p) (hs : s.pstate p = 2) (hr : (s.part p).phase = .running)
include ht hp hs hr

/-- A tile of a partition whose tick runs is fenced: the partition halts at its next boundary (R312). -/
theorem State.heatFence_running : s.heatFence t =
      ((s.setFlag (.therm t) therm.FENCED true).err (.therm t) 1).updPart p (fun x => { x with haltAt := some (x.haltAt.getD t) }) := by
  let fenced := (s.setFlag (.therm t) therm.FENCED true).err (.therm t) 1
  have part : fenced.tilePart t = some p := (State.tilePart_err ..).trans ((State.tilePart_wr _ _ _ _ _ (by decide) (by decide)).trans hp)
  have other : (Page.tickgen p).id ≠ (Page.therm t).id := by simp only [Page.id]; omega
  have on : fenced.pstate p = 2 :=
    (State.rd_err' _ _ _ _ _ _ other (by decide)).trans ((State.rd_setFlag_page _ _ _ _ _ _ other (by decide) (by decide)).trans hs)
  have runs : (fenced.part p).phase = .running := by
    rw [State.part, (State.err_frame ..).parts rfl]
    exact hr
  unfold State.heatFence
  dsimp only
  rw [part]
  exact (if_neg (by rw [on]; decide)).trans (if_neg (by rw [runs]; nofun))

/-- A fence of a tile leaves the tile's record. -/
theorem State.tile_heatFence_running : (s.heatFence t).tile t = s.tile t := by
  have fenced : Frame (fp.regs + fp.parts + fp.sent) s (s.heatFence t) := by
    rw [State.heatFence_running ht hp hs hr]
    exact .step (State.updPart_frame ..) rfl (.step (State.err_frame ..) rfl (.step (State.setFlag_frame ..) rfl (.refl ..)))
  rw [State.tile, State.tile, fenced.tiles rfl]

theorem State.haltAt_heatFence_running : ((s.heatFence t).part p).haltAt = some ((s.part p).haltAt.getD t) := by
  rw [State.heatFence_running ht hp hs hr, State.part_updPart_self, State.part, (State.err_frame ..).parts rfl]
  rfl

theorem State.fenced_heatFence_running : (s.heatFence t).flag (.therm t) therm.FENCED = true := by
  rw [State.heatFence_running ht hp hs hr, State.flag_updPart, State.flag, State.rd_err _ _ _ _ _ _ (by decide) (by decide)]
  exact State.flag_setFlag_self _ _ _ _ (by decide) (by decide)

end

/-- A fence that is cleared reads 0, whether the compute rail comes on or not (R312, R324). -/
theorem State.fenced_fenceClear (s : State) (t : Nat) : (s.fenceClear t).flag (.therm t) therm.FENCED = false := by
  have clear : (s.setFlag (.therm t) therm.FENCED false).flag (.therm t) therm.FENCED = false :=
    State.flag_setFlag_self _ _ _ _ (by decide) (by decide)
  unfold State.fenceClear
  dsimp only
  split
  · rw [State.flag, State.rd_setCompute_on _ _ _ (by decide) (by decide), State.rd_setFlag_field _ _ _ _ _ (by decide)]
    exact clear
  · exact clear

section
variable {s : State} {t : Nat} (hu : (s.tile t).up = true) (hg : s.sps.state = .good)
include hu hg

/-- What a reading comes to once it is kept. -/
theorem diodeReading_eq : diodeReading s t =
    if s.flag (.therm t) therm.FENCED then (if s.dieTemp t < celsius 95 then (s.readDiodes t).fenceClear t else s.readDiodes t)
    else if celsius 110 ≤ s.dieTemp t ∨ ((s.showDiodes t).hotRun t (s.dieTemp t) = 10 ∧ (s.readDiodes t).atCeiling t) then (s.readDiodes t).heatFence t
    else s.readDiodes t := by
  rw [← State.flag_fenced_readDiodes]
  exact if_neg (by simp [hu, hg])

theorem diodeReading_cools (hf : s.flag (.therm t) therm.FENCED = true) (hc : s.dieTemp t < celsius 95) :
    diodeReading s t = (s.readDiodes t).fenceClear t := by
  rw [diodeReading_eq hu hg, if_pos hf, if_pos hc]

theorem diodeReading_fences (hf : s.flag (.therm t) therm.FENCED = false) (hc : celsius 110 ≤ s.dieTemp t) :
    diodeReading s t = (s.readDiodes t).heatFence t := by
  rw [diodeReading_eq hu hg, hf, if_neg Bool.false_ne_true, if_pos (.inl hc)]

theorem diodeReading_mild (hf : s.flag (.therm t) therm.FENCED = false) (hc : s.dieTemp t < celsius 105) : diodeReading s t = s.readDiodes t := by
  have below : ¬ celsius 110 ≤ s.dieTemp t := by
    unfold celsius at hc ⊢
    omega
  rw [diodeReading_eq hu hg, hf, if_neg Bool.false_ne_true, State.hotRun_cool _ _ hc, if_neg]
  exact not_or_intro below fun run => absurd run.1 (by decide)

end

/-- A reading of 110 °C or more on a tile of a partition whose tick runs. -/
theorem diodeReading_fences_running {s : State} {t p : Nat} (ht : t < 72) (hu : (s.tile t).up = true) (hg : s.sps.state = .good)
    (hf : s.flag (.therm t) therm.FENCED = false) (hc : celsius 110 ≤ s.dieTemp t) (hp : s.tilePart t = some p) (hs : s.pstate p = 2)
    (hr : (s.part p).phase = .running) :
    (diodeReading s t).flag (.therm t) therm.FENCED = true ∧ ((diodeReading s t).part p).haltAt = some ((s.part p).haltAt.getD t) ∧
      ((diodeReading s t).tile t).diodes = (s.dieTemp t :: (s.tile t).diodes).take 10 := by
  have same : (s.readDiodes t).part p = s.part p := by rw [State.part, State.part, (State.readDiodes_frame ..).parts rfl]
  have part : (s.readDiodes t).tilePart t = some p :=
    (congrArg (fun v => if v < 12 then some v else none) (State.rd_readDiodes s t (.mesh t) (by decide) (by decide) (by decide))).trans hp
  have on : (s.readDiodes t).pstate p = 2 := (State.rd_readDiodes s t (.tickgen p) (by decide) (by decide) (by decide)).trans hs
  have runs : ((s.readDiodes t).part p).phase = .running := by rw [same, hr]
  rw [diodeReading_fences hu hg hf hc, State.haltAt_heatFence_running ht part on runs, State.tile_heatFence_running ht part on runs, same,
    State.tile_readDiodes]
  exact ⟨State.fenced_heatFence_running ht part on runs, rfl, rfl⟩

/-! ### The commissioning capture (R332) -/

theorem baseCapture_begins {s : State} {t : Nat} (hu : (s.tile t).up = true) (hc : (s.tile t).capture = none) :
    baseCapture s t = (s.updTile t (fun x => { x with capture := some (6000, 0, 0) })).setFlag (.therm t) therm.CAPTURE_BUSY true :=
  if_neg (by rw [hu, hc]; decide)

theorem baseCapture_captured {s : State} {t : Nat} (hc : (s.tile t).capture ≠ none) : baseCapture s t = s :=
  if_pos (by rw [Option.isSome_iff_ne_none.2 hc]; rfl)

/-- The capture of a tile is over. -/
def State.captureOver (s : State) (t : Nat) : State :=
  (s.updTile t (fun x => { x with capture := none })).setFlag (.therm t) therm.CAPTURE_BUSY false

theorem State.capture_captureOver (s : State) (t : Nat) : ((s.captureOver t).tile t).capture = none :=
  congrArg Tile.capture (State.tile_updTile_self s t (fun x => { x with capture := none }))

section
variable {s : State} {t q m : Nat} (h : (s.tile t).capture = some (0, q, m))
include h

theorem captureEnd_fails (hq : q < 3000) : captureEnd s t = ((s.captureOver t).setFlag (.therm t) therm.BASE_FAIL true).err (.therm t) 2 := by
  unfold captureEnd
  dsimp only
  rw [h]
  exact if_pos hq

/-- The baseline is the mean, and goes to the journal. -/
theorem captureEnd_settles (hq : 3000 ≤ q) : ∃ c b, captureEnd s t =
    ((((s.captureOver t).freeQuot m q).2.setFlag (.therm t) therm.BASE_FAIL false).wr (.therm t) therm.THETA_BASE
      ((s.captureOver t).freeQuot m q).1).journal c b := by
  unfold captureEnd
  dsimp only
  rw [h]
  exact ⟨_, _, if_neg (Nat.not_lt.2 hq)⟩

end

end Sys2Proof.Machine
end

section
/-! The statement of spec/12_faults_and_recovery.md about heat (O46). -/

namespace Sys2Proof.Machine

/-- Settles O46, command by command. -/
theorem heatCommands : Obligations.HeatCommands := by
  refine ⟨fun s tIn => ⟨fun h => ?_, fun h => ⟨_, congrArg Host.Outcome.next (thermalUpdate_good h tIn), fun p hp => ?_⟩⟩,
    fun s t ht hu hg => ⟨rfl, fun p hf hc hp hs hr => ?_, fun hf hc => ?_, fun hf hc => ?_⟩, fun s t hu => ⟨fun hc => ?_, fun hc => ?_⟩,
    fun s t q m h => ⟨fun hq => ?_, fun hq => ?_⟩⟩
  · exact congrArg Host.Outcome.next (thermalUpdate_ignored h tIn)
  · intro u hc
    exact (State.rd_writeStretches u _ hc).trans (if_pos (List.mem_range.2 hp))
  · exact ⟨_, rfl, diodeReading_fences_running ht hu hg hf hc hp hs hr⟩
  · exact ⟨_, congrArg Host.Outcome.next (diodeReading_cools hu hg hf hc), State.fenced_fenceClear ..⟩
  · obtain ⟨v, shown, rounded⟩ := State.rd_tLast_readDiodes s t
    have tile := State.tile_readDiodes s t
    rw [State.hotRun_cool _ _ hc] at tile
    exact ⟨_, v, congrArg Host.Outcome.next (diodeReading_mild hu hg hf hc), by rw [tile], by rw [tile], shown, rounded,
      (State.readDiodes_frame ..).parts rfl⟩
  · refine ⟨_, congrArg Host.Outcome.next (baseCapture_begins hu hc), ?_, State.flag_setFlag_self _ _ _ _ (by decide) (by decide)⟩
    exact congrArg Tile.capture (State.tile_updTile_self s t (fun x => { x with capture := some (6000, 0, 0) }))
  · exact congrArg Host.Outcome.next (baseCapture_captured hc)
  · refine ⟨_, congrArg Host.Outcome.next (captureEnd_fails h hq), ?_, ?_, State.stat_err _ _ _ _ (by decide)⟩
    · rw [State.tile, (State.err_frame ..).tiles rfl]
      exact State.capture_captureOver s t
    · rw [State.flag, State.rd_err _ _ _ _ _ _ (by decide) (by decide)]
      exact State.flag_setFlag_self _ _ _ _ (by decide) (by decide)
  · obtain ⟨c, b, settles⟩ := captureEnd_settles h hq
    refine ⟨_, ((s.captureOver t).freeQuot m q).1, congrArg Host.Outcome.next settles, ?_, ?_, ?_, State.freeQuot_fst ..⟩
    · rw [State.tile, (State.journal_frame ..).tiles rfl]
      exact (congrArg (fun l => (Table.get ({} : Tile) l t).capture) ((State.freeQuot_frame ..).tiles rfl)).trans (State.capture_captureOver s t)
    · rw [State.flag, State.rd_congr ((State.journal_frame ..).regs rfl), State.rd_wr_field _ _ _ _ _ (by decide)]
      exact State.flag_setFlag_self _ _ _ _ (by decide) (by decide)
    · rw [State.rd_congr ((State.journal_frame ..).regs rfl)]
      exact State.rd_wr_self _ _ _ _ (by decide)

end Sys2Proof.Machine
end

section
/-! SUPPORT. The power sequencer (R323, R325, R326, R432, R479): where a power-up ends, what the power-fail path leaves of the sequencer, and the
outcomes of each command in the states in which it acts. -/

namespace Sys2Proof.Machine

/-! ### Power-up -/

/-- With the clock present a power-up ends with POWER_GOOD (R323). -/
theorem State.powerUp_present (s : State) (fails : List RailBlock) :
    (s.powerUp true fails).sps.state = .good ∧ (s.powerUp true fails).flag .sps sps.POWER_GOOD = true :=
  ⟨rfl, State.flag_setFlag_self _ _ _ _ (by decide) (by decide)⟩

/-- Without the clock the sequencer waits for it (R323). -/
theorem State.powerUp_absent (s : State) (fails : List RailBlock) : (s.powerUp false fails).sps.state = .clkWait :=
  congrArg Sps.state ((State.err_frame ..).sps rfl)

/-- A module that powers up keeps the fuses and the Tally. -/
theorem exec_powerUp {s x : State} {i : Instr} {fails : List RailBlock} (h : exec i s = .next (x.powerUp true fails))
    (hf : x.fuses = s.fuses) (ht : x.tally = s.tally) :
    ∃ t, exec i s = .next t ∧ t.sps.state = .good ∧ t.flag .sps sps.POWER_GOOD = true ∧ t.fuses = s.fuses ∧ t.tally = s.tally :=
  have frame := State.powerUp_frame x true fails
  ⟨_, h, (State.powerUp_present ..).1, (State.powerUp_present ..).2, (frame.fuses rfl).trans hf, (frame.tally rfl).trans ht⟩

section
variable {s : State} (clk : Bool) (fails : List RailBlock)

theorem powerOn_starts (h : s.sps.state = .off ∨ s.sps.state = .down) (hr : s.sps.resetLow = false) :
    powerOn s clk fails = s.freshSps.powerUp clk fails :=
  (if_neg (Classical.not_and_iff_not_or_not.2 (h.imp Classical.not_not.2 Classical.not_not.2))).trans (if_neg (by rw [hr]; nofun))

theorem powerOn_waits (h : s.sps.state = .off ∨ s.sps.state = .down) (hr : s.sps.resetLow = true) :
    powerOn s clk fails = s.freshSps.updSps (fun x => { x with state := .down, resetLow := true, resetReq := true }) :=
  (if_neg (Classical.not_and_iff_not_or_not.2 (h.imp Classical.not_not.2 Classical.not_not.2))).trans (if_pos hr)

theorem powerOn_ignored (h : s.sps.state = .good) : powerOn s clk fails = s := if_pos (by rw [h]; decide)

theorem clkRetry_starts (h : s.sps.state = .clkWait) : clkRetry s clk fails = s.powerUp clk fails := if_neg (Classical.not_not.2 h)

theorem clkRetry_ignored (h : s.sps.state ≠ .clkWait) : clkRetry s clk fails = s := if_pos h

theorem pwrFailRestart_starts (h : s.sps.state = .down) (hl : s.sps.latched = true) (hs : s.sps.shutdown = false) (hr : s.sps.resetLow = false)
    (hv : 10000 ≤ s.sps.recovered) : pwrFailRestart s clk fails = s.powerUp clk fails :=
  if_neg (by simp [h, hl, hs, hr, Nat.not_lt.2 hv])

theorem pwrFailRestart_ignored (h : s.sps.state ≠ .down) : pwrFailRestart s clk fails = s := if_pos (by simp [h])

theorem mgtRstNRelease_starts (hr : s.sps.resetLow = true) (h : s.sps.state = .down) (hq : s.sps.resetReq = true) (hl : s.sps.latched = false)
    (hs : s.sps.shutdown = false) : mgtRstNRelease s clk fails =
      ((s.updSps (fun x => { x with resetLow := false })).freshSps.updSps (fun x => { x with resetReq := true })).powerUp clk fails :=
  (if_neg (by simp [hr])).trans (if_neg (by simp [h, hq, hl, hs]))

end

/-! ### Power-down -/

/-- The power-fail path changes the sequencer's state alone (R325). -/
theorem State.sps_powerFailing (s : State) (cause : Nat) : (s.powerFailing cause).sps = { s.sps with state := .failing } := by
  have down : Frame fp.faulted (s.updSps (fun x => { x with state := .failing })) (s.powerFailing cause) := by
    unfold State.powerFailing
    exact .step (State.updNor_frame ..) rfl (.step (State.haltAll_frame ..) rfl (.step (State.openAll_frame ..) rfl (.refl ..)))
  exact down.sps rfl

/-- A shutdown that goes on keeps its request. -/
theorem State.sps_shutdownCheck (s : State) : s.shutdownCheck.sps.shutdown = s.sps.shutdown := by
  unfold State.shutdownCheck
  split
  · rw [State.sps_powerFailing]
  · rfl

theorem powerDown_ends {s : State} (h : s.sps.state = .failing) : powerDown s = s.unpowered.setFlag .sps sps.POWER_GOOD false :=
  if_neg (Classical.not_not.2 h)

theorem State.state_unpowered (s : State) : s.unpowered.sps.state = .down ∨ s.unpowered.sps.state = .clkWait := by
  show (if _ then PowerState.clkWait else .down) = .down ∨ (if _ then PowerState.clkWait else .down) = .clkWait
  split
  · exact .inr rfl
  · exact .inl rfl

/-! ### Shutdown, module reset and loss of the clock -/

section
variable {s : State}

theorem shutdown_ignored (h : s.sps.state ≠ .good ∨ s.sps.shutdown = true) : shutdown s = s := if_pos (by simpa using h)

/-- SHUTDOWN of a module in service takes note of it (R326). -/
theorem shutdown_noted (h : s.sps.state = .good) (hs : s.sps.shutdown = false) : (shutdown s).sps.shutdown = true := by
  let noted := s.releaseLeaves.updSps (fun x => { x with shutdown := true })
  have off : Frame fp.faulted noted ((List.range 12).foldl (fun s p => s.enPart p false) noted) :=
    .foldl _ _ (.refl ..) fun _ _ => .step (State.enPart_frame ..) rfl (.refl ..)
  have taken : shutdown s = ((List.range 12).foldl (fun s p => s.enPart p false) noted).shutdownCheck := if_neg (by simp [h, hs])
  rw [taken, State.sps_shutdownCheck, off.sps rfl]
  rfl

theorem shutdownTimeout_fails (h : s.sps.state = .good) (hs : s.sps.shutdown = true) : shutdownTimeout s = s.powerFailing 0 :=
  if_pos (by simp [h, hs])

/-- MODULE_RESET of a module in service leads to the power-fail path with its request (R432). -/
theorem sps_moduleReset (h : s.sps.state = .good) :
    (moduleReset s).sps = { s.sps with resetLow := true, resetReq := true, state := .failing } := by
  have resets : moduleReset s = ((s.updSps (fun x => { x with resetLow := true })).updSps
      (fun x => { x with resetReq := true })).releaseLeaves.powerFailing 4 := by
    unfold moduleReset
    rw [h]
  rw [resets, State.sps_powerFailing, (State.releaseLeaves_frame _).sps rfl]
  rfl

/-- Beside the note of the lost clock, CLOCK_LOSS leaves the sequencer (R479). -/
theorem sps_clockLoss (h : s.sps.state = .good) : (clockLoss s).sps = { s.sps with clkLost := true } := by
  have lost : ∃ x, Frame (fp.ctls + fp.faulted) s x ∧ clockLoss s = x.updSps (fun x => { x with clkLost := true }) := by
    refine ⟨_, ?_, if_neg (Classical.not_not.2 h)⟩
    refine .foldl _ _ (.step (State.haltAll_frame ..) rfl (.foldl _ _ (.foldl _ _ (.foldl _ _ (.refl ..) fun x t => ?_) ?_) ?_)) ?_
    · exact .ite (.refl ..) (.step (State.err_frame ..) rfl (.step (State.setFlag_frame ..) rfl (.refl ..)))
    · exact fun _ _ => .step (State.updSite_frame ..) rfl (.refl ..)
    · exact fun _ _ => .step (State.updCtl_frame ..) rfl (.refl ..)
    · exact fun _ _ => .step (State.abortLoad_frame ..) rfl (.refl ..)
  obtain ⟨x, frame, hx⟩ := lost
  rw [hx]
  exact congrArg (fun y : Sps => { y with clkLost := true }) (frame.sps rfl)

theorem clockLoss_ignored (h : s.sps.state ≠ .good) : clockLoss s = s := if_pos h

end

end Sys2Proof.Machine
end

section
/-! The statement of spec/13_power_and_thermal.md about the power sequence (O44). -/

namespace Sys2Proof.Machine

/-- Settles O44, command by command. -/
theorem powerSequence : Obligations.PowerSequence := by
  refine ⟨fun s fails i h => ?_, fun s fails h => ⟨fun hr => ?_, fun hr clk => ?_⟩, fun s clk fails h => ⟨?_, ?_, ?_⟩, fun s h => ?_,
    fun s h => ⟨fun hs => ?_, fun hs => ⟨?_, ?_⟩, ?_, ?_⟩, fun s h => ⟨?_, ?_⟩⟩
  · obtain ⟨rfl, off, high⟩ | ⟨rfl, waits⟩ | ⟨rfl, down, latched, on, high, long⟩ | ⟨rfl, low, down, asked, clear, on⟩ := h
    · exact exec_powerUp (congrArg Host.Outcome.next (powerOn_starts _ _ off high)) rfl rfl
    · exact exec_powerUp (congrArg Host.Outcome.next (clkRetry_starts _ _ waits)) rfl rfl
    · exact exec_powerUp (congrArg Host.Outcome.next (pwrFailRestart_starts _ _ down latched on high long)) rfl rfl
    · exact exec_powerUp (congrArg Host.Outcome.next (mgtRstNRelease_starts _ _ low down asked clear on)) rfl rfl
  · exact ⟨_, congrArg Host.Outcome.next (powerOn_starts _ _ h hr), State.powerUp_absent ..⟩
  · exact ⟨_, congrArg Host.Outcome.next (powerOn_waits _ _ h hr), rfl, _,
      congrArg Host.Outcome.next (mgtRstNRelease_starts _ _ rfl rfl rfl rfl rfl), (State.powerUp_present ..).1⟩
  · exact congrArg Host.Outcome.next (powerOn_ignored _ _ h)
  · exact congrArg Host.Outcome.next (clkRetry_ignored _ _ (by rw [h]; nofun))
  · exact congrArg Host.Outcome.next (pwrFailRestart_ignored _ _ (by rw [h]; nofun))
  · exact ⟨_, congrArg Host.Outcome.next (powerDown_ends h), State.state_unpowered s, State.flag_setFlag_self _ _ _ _ (by decide) (by decide),
      rfl, rfl, rfl, rfl, rfl, rfl, rfl, rfl⟩
  · exact ⟨_, rfl, shutdown_noted h hs⟩
  · exact congrArg Host.Outcome.next (shutdown_ignored (.inr hs))
  · exact ⟨_, congrArg Host.Outcome.next (shutdownTimeout_fails h hs), congrArg Sps.state (State.sps_powerFailing s 0)⟩
  · exact ⟨_, rfl, congrArg Sps.state (sps_moduleReset h), congrArg Sps.resetReq (sps_moduleReset h), congrArg Sps.resetLow (sps_moduleReset h)⟩
  · exact ⟨_, rfl, congrArg Sps.clkLost (sps_clockLoss h), (congrArg Sps.state (sps_clockLoss h)).trans h⟩
  · exact congrArg Host.Outcome.next (shutdown_ignored (.inl h))
  · exact congrArg Host.Outcome.next (clockLoss_ignored h)

end Sys2Proof.Machine
end

section
/-! SUPPORT. Doorbells and interrupts (R377 to R380): what each command does in the states in which it acts, and what a firing sends. -/

namespace Sys2Proof.Machine

variable {s : State} {p v : Nat}

/-! ### The command doorbell -/

/-- The entries that index `v` places ahead of CMD_CI (R377). -/
def State.cmdAhead (s : State) (p v : Nat) : Nat := (v + 2 * s.cmdN p - s.rd (.cohc p) cohc.CMD_CI) % (2 * s.cmdN p)

theorem cmdPi_takes (h : (s.flag (.tickgen p) tickgen.CREATED && s.pstate p = 0 && !s.ringsGood p) = false)
    (fits : s.cmdAhead p (v % (2 * s.cmdN p)) ≤ s.cmdN p) : cmdPi s p v =
      (s.wr (.doorbell p) doorbell.CMD_PI (v % (2 * s.cmdN p))).updPart p (fun x => { x with bells := x.bells ++ [(v % (2 * s.cmdN p), s.clock)] }) :=
  (if_neg (by rw [h]; nofun)).trans (if_neg (Nat.not_lt.2 fits))

theorem cmdPi_overruns (h : (s.flag (.tickgen p) tickgen.CREATED && s.pstate p = 0 && !s.ringsGood p) = false)
    (exceeds : s.cmdN p < s.cmdAhead p (v % (2 * s.cmdN p))) : cmdPi s p v = s.err (.cohc p) 1 :=
  (if_neg (by rw [h]; nofun)).trans (if_pos exceeds)

theorem Page.doorbell_ne_cohc (p : Nat) : (Page.doorbell p).id ≠ (Page.cohc p).id := by
  simp only [Page.id]
  omega

/-! ### Arming and firing -/

/-- What arms the interrupt does not move the completion ring's indices. -/
theorem State.cplUsed_arm (s : State) (p : Nat) (b : Bool) : (s.setFlag (.cohc p) cohc.ARMED b).cplUsed p = s.cplUsed p := by
  have kept : ∀ f : Field, f.off * 32 + f.lsb ≠ 0x6C * 32 + 1 → (s.setFlag (.cohc p) cohc.ARMED b).rd (.cohc p) f = s.rd (.cohc p) f :=
    fun f h => State.rd_wr_field _ _ _ _ _ h
  unfold State.cplUsed State.cplN
  rw [kept _ (by decide), kept _ (by decide), State.setFlag, State.rd_wr_page _ _ _ _ _ _ (Page.doorbell_ne_cohc p) (by decide) (by decide)]

theorem arm_quiet (h : s.cplUsed p = 0) : arm s p = s.setFlag (.cohc p) cohc.ARMED true :=
  if_pos ((State.cplUsed_arm s p true).trans h)

theorem State.tryFire_fires (ha : s.flag (.cohc p) cohc.ARMED = true) (he : s.flag (.cohc p) cohc.INT_EN = true) (ho : s.holdoffOver p = true) :
    s.tryFire p = s.fire p :=
  (if_neg (by rw [ha, he]; decide)).trans (if_pos ho)

theorem arm_fires (h : s.cplUsed p ≠ 0) (he : s.flag (.cohc p) cohc.INT_EN = true) (ho : s.holdoffOver p = true) :
    arm s p = (s.setFlag (.cohc p) cohc.ARMED true).fire p := by
  have kept : ∀ f : Field, f.off * 32 + f.lsb ≠ 0x6C * 32 + 1 → (s.setFlag (.cohc p) cohc.ARMED true).rd (.cohc p) f = s.rd (.cohc p) f :=
    fun f h => State.rd_wr_field _ _ _ _ _ h
  have held : (s.setFlag (.cohc p) cohc.ARMED true).holdoffOver p = true := by
    unfold State.holdoffOver
    rw [kept _ (by decide)]
    exact ho
  have enabled : (s.setFlag (.cohc p) cohc.ARMED true).flag (.cohc p) cohc.INT_EN = true := by
    rw [State.flag, kept _ (by decide)]
    exact he
  exact (if_neg (by rw [State.cplUsed_arm]; exact h)).trans
    (State.tryFire_fires (State.flag_setFlag_self _ _ _ _ (by decide) (by decide)) enabled held)

theorem intHoldoffExpire_fires (hp : (s.part p).intPend = true) (ho : s.holdoffOver p = true) (ha : s.flag (.cohc p) cohc.ARMED = true)
    (he : s.flag (.cohc p) cohc.INT_EN = true) : intHoldoffExpire s p = s.fire p :=
  if_pos (by rw [hp, ho, ha, he]; rfl)

/-- The interrupt has fired: it is disarmed, waits no more, and its holdoff begins (R379). -/
def State.fired (s : State) (p : Nat) : State :=
  (s.setFlag (.cohc p) cohc.ARMED false).updPart p (fun x => { x with intPend := false, lastFire := s.clock + 1 })

/-- A firing keeps the address and the data that it sends. -/
theorem State.fire_eq (s : State) (p : Nat) :
    s.fire p = (s.fired p).sendWrite p true ((s.part p).intAddr / 4 * 4) (leBytes 4 (s.rd (.cohc p) cohc.INT_DATA)) := by
  have addr : ((s.fired p).part p).intAddr = (s.part p).intAddr := by rw [State.fired, State.part_updPart_self]; rfl
  have data : (s.fired p).rd (.cohc p) cohc.INT_DATA = s.rd (.cohc p) cohc.INT_DATA := State.rd_wr_field _ _ _ _ _ (by decide)
  rw [← addr, ← data]
  rfl

theorem State.inAperture_fired (s : State) (p a n : Nat) (w : Bool) : (s.fired p).inAperture p a n w = s.inAperture p a n w := by
  unfold State.inAperture
  rw [State.fired, State.part_updPart_self]
  rfl

/-- Four bytes at an address divisible by 4 cross no line of 64 bytes. -/
theorem linePieces_aligned {a : Nat} {bs : List Byte} (h : bs.length = 4) : linePieces (bs.length + 1) (a / 4 * 4) bs = [(a / 4 * 4, bs)] := by
  have room : 4 ≤ 64 - a / 4 * 4 % 64 := by omega
  obtain ⟨b, c, d, e, rfl⟩ : ∃ b c d e, bs = [b, c, d, e] :=
    match bs, h with
    | [b, c, d, e], _ => ⟨b, c, d, e, rfl⟩
  have whole : [b, c, d, e].take (64 - a / 4 * 4 % 64) = [b, c, d, e] := List.take_of_length_le room
  have none : [b, c, d, e].drop (64 - a / 4 * 4 % 64) = [] := List.drop_of_length_le room
  rw [linePieces, if_neg (by nofun)]
  dsimp only
  rw [whole, none]
  rfl

theorem State.sendWrite_refused {a : Nat} {bs : List Byte} {o : Bool} (h : s.inAperture p a bs.length true = false) :
    s.sendWrite p o a bs = s.apertViol p :=
  if_pos (by rw [h]; rfl)

theorem State.sendWrite_sends {a : Nat} {bs : List Byte} {o : Bool} (h : s.inAperture p a bs.length true = true) :
    s.sendWrite p o a bs = (s.setWrites (s.writes ++
      (linePieces (bs.length + 1) a bs).map (fun x => { part := p, ord := o, addr := x.1, bytes := x.2 }))).flush :=
  if_neg (by rw [h]; nofun)

/-- A firing inside the apertures sends one ordered write of INT_DATA (R379). -/
theorem State.fire_sends (h : s.inAperture p ((s.part p).intAddr / 4 * 4) 4 true = true) : s.fire p = ((s.fired p).setWrites (s.writes ++
    [⟨p, true, (s.part p).intAddr / 4 * 4, leBytes 4 (s.rd (.cohc p) cohc.INT_DATA), 0, none⟩])).flush := by
  rw [State.fire_eq, State.sendWrite_sends ((State.inAperture_fired ..).trans h), linePieces_aligned rfl]
  rfl

/-- One outside them is an aperture violation (R380). -/
theorem State.fire_refused (h : s.inAperture p ((s.part p).intAddr / 4 * 4) 4 true = false) : s.fire p = (s.fired p).apertViol p := by
  rw [State.fire_eq, State.sendWrite_refused ((State.inAperture_fired ..).trans h)]

/-- A violation counts in APERT_VIOL_CNT. -/
theorem State.rd_violCnt_apertViol (s : State) (p : Nat) :
    (s.apertViol p).rd (.cohc p) cohc.APERT_VIOL_CNT = (s.rd (.cohc p) cohc.APERT_VIOL_CNT + 1) % 2 ^ 32 :=
  (State.rd_err _ _ _ _ _ _ (by decide) (by decide)).trans (State.rd_wr_self _ _ _ _ (by decide))

/-- A write to companion memory changes no field of a page but APERT_VIOL_CNT and the common ones. -/
theorem State.rd_sendWrite (s : State) (p : Nat) (o : Bool) (a : Nat) (bs : List Byte) {f : Field} (h : 0x24 * 32 ≤ f.off * 32 + f.lsb)
    (h' : f.off * 32 + f.lsb < 131072) (hv : f.off * 32 + f.lsb ≠ 0x94 * 32) : (s.sendWrite p o a bs).rd (.cohc p) f = s.rd (.cohc p) f := by
  cases ha : s.inAperture p a bs.length true with
  | false =>
    rw [State.sendWrite_refused ha]
    exact (State.rd_err _ _ _ _ _ _ h h').trans (State.rd_wr_field _ _ _ _ _ hv)
  | true =>
    rw [State.sendWrite_sends ha]
    exact State.rd_congr ((State.flush_frame _).regs rfl) _ _

/-- A firing disarms (R379). -/
theorem State.armed_fire (s : State) (p : Nat) : (s.fire p).flag (.cohc p) cohc.ARMED = false := by
  rw [State.fire_eq, State.flag, State.rd_sendWrite _ _ _ _ _ (by decide) (by decide) (by decide)]
  exact State.flag_setFlag_self _ _ _ _ (by decide) (by decide)

/-- INT_ADDR takes effect as a whole when its high word is written (R379). -/
theorem part_intAddr (s : State) (p v : Nat) : ((intAddr s p v).part p).intAddr = s.rd (.cohc p) cohc.INT_ADDR_LO + 2 ^ 32 * (v % 2 ^ 32) := by
  unfold intAddr
  rw [State.part_updPart_self]
  show State.rd _ _ _ + 2 ^ 32 * State.rd _ _ _ = _
  rw [State.rd_wr_self _ _ _ _ (by decide), State.rd_wr_field _ _ _ _ _ (by decide)]
  rfl

end Sys2Proof.Machine
end

section
/-! The statement of spec/15_vreljo_link.md about doorbells and interrupts (O32). -/

namespace Sys2Proof.Machine

/-- Settles O32, command by command, with what a firing does. -/
theorem doorbellsAndInterrupts : Obligations.DoorbellsAndInterrupts := by
  refine ⟨fun s p v h => ⟨fun fits => ?_, fun exceeds => ?_⟩, fun s p v => ?_, fun s p => ⟨fun hc => ?_, fun hc he ho => ?_⟩, fun s p v => ?_,
    fun s p hp ho ha he => ?_, fun s p => ⟨State.armed_fire s p, State.fire_sends, fun out => ?_⟩⟩
  · refine ⟨_, congrArg Host.Outcome.next (cmdPi_takes h fits), State.rd_wr_self _ _ _ _ (by decide), ?_⟩
    exact congrArg Part.bells (State.part_updPart_self ..)
  · refine ⟨_, congrArg Host.Outcome.next (cmdPi_overruns h exceeds), ?_, State.stat_err _ _ _ _ (by decide)⟩
    exact State.rd_err' _ _ _ _ _ _ (Page.doorbell_ne_cohc p) (by decide)
  · exact ⟨_, rfl, State.rd_wr_self _ _ _ _ (by decide)⟩
  · exact ⟨_, congrArg Host.Outcome.next (arm_quiet hc), State.flag_setFlag_self _ _ _ _ (by decide) (by decide), rfl⟩
  · exact congrArg Host.Outcome.next (arm_fires hc he ho)
  · exact ⟨_, rfl, part_intAddr s p v⟩
  · exact congrArg Host.Outcome.next (intHoldoffExpire_fires hp ho ha he)
  · rw [State.fire_refused out]
    refine ⟨(State.apertViol_frame ..).writes rfl, (State.rd_violCnt_apertViol ..).trans ?_⟩
    exact congrArg (fun n => (n + 1) % 2 ^ 32) (State.rd_wr_field _ _ _ _ _ (by decide))

end Sys2Proof.Machine
end

section
/-! SUPPORT. Key slots and attestation (R396 to R403): what KEY_LOAD, KEY_CLEAR and ATTEST do with the command in hand, and where a key goes. -/

namespace Sys2Proof.Machine

/-! ### KEY_LOAD and KEY_CLEAR -/

/-- A key record that is refused with a code: counted, noted, and the command's completion (R402). -/
def State.refuseKey (s : State) (p : Nat) (c : CmdIn) (code : Nat) : State :=
  (((s.inc (.ssb (s.primary p)) ssb.KEYLOAD_FAIL_CNT 1).wr (.ssb (s.primary p)) ssb.LAST_KEY_CODE code).err (.ssb (s.primary p)) 3).ringDone p c 12
    code

/-- What KEY_LOAD does with a record whose command names it well: unwrapped, or refused with code 0x31 (R401, R402). -/
def State.unwrapInto (s : State) (p : Nat) (c : CmdIn) (r : KeyRecord) : State :=
  match s.unwrapKey (s.primary p) r with
  | none => s.refuseKey p c 0x31
  | some key => (((s.setKey p r.slot (key + 1)).inc (.ssb (s.primary p)) ssb.KEYLOAD_CNT 1).wr (.ssb (s.primary p)) ssb.LAST_KEY_CODE 0).ringDone p c
      12 0

section
variable {s u : State} {p : Nat} {c : CmdIn} (record : List Byte) (ht : s.takeCmd p 0x11 = some (c, u)) (hr : ringOk c 16 = true)
include ht hr

/-- The order of the refusals of R402. -/
theorem keyLoad_taken : keyLoad s p record =
    if (keyRecordOf record).magic ≠ 0x444B584B ∨ !u.inAperture p (c.field 8 8) 1680 false ∨ 32 ≤ (keyRecordOf record).slot then u.refuseKey p c 0x35
    else if (keyRecordOf record).part ≠ p then u.refuseKey p c 0x34
    else if (keyRecordOf record).ssb ≠ u.primary p then u.refuseKey p c 0x30
    else if u.slotBusy p (keyRecordOf record).slot then u.refuseKey p c 0x32
    else u.unwrapInto p c (keyRecordOf record) := by
  unfold keyLoad
  rw [ht]
  exact if_neg (by rw [hr]; nofun)

theorem keyLoad_malformed (h : (keyRecordOf record).magic ≠ 0x444B584B ∨ u.inAperture p (c.field 8 8) 1680 false = false ∨
    32 ≤ (keyRecordOf record).slot) : keyLoad s p record = u.refuseKey p c 0x35 :=
  (keyLoad_taken record ht hr).trans (if_pos (h.imp_right (.imp_left fun ha => by rw [ha]; rfl)))

variable (hm : (keyRecordOf record).magic = 0x444B584B) (ha : u.inAperture p (c.field 8 8) 1680 false = true) (hs : (keyRecordOf record).slot < 32)
include hm ha hs

theorem keyLoad_wellFormed : keyLoad s p record =
    if (keyRecordOf record).part ≠ p then u.refuseKey p c 0x34
    else if (keyRecordOf record).ssb ≠ u.primary p then u.refuseKey p c 0x30
    else if u.slotBusy p (keyRecordOf record).slot then u.refuseKey p c 0x32
    else u.unwrapInto p c (keyRecordOf record) :=
  (keyLoad_taken record ht hr).trans (if_neg (by simp [hm, ha, Nat.not_le.2 hs]))

theorem keyLoad_foreign (hp : (keyRecordOf record).part ≠ p) : keyLoad s p record = u.refuseKey p c 0x34 :=
  (keyLoad_wellFormed record ht hr hm ha hs).trans (if_pos hp)

variable (hp : (keyRecordOf record).part = p)
include hp

theorem keyLoad_otherSsb (hk : (keyRecordOf record).ssb ≠ u.primary p) : keyLoad s p record = u.refuseKey p c 0x30 :=
  (keyLoad_wellFormed record ht hr hm ha hs).trans ((if_neg (Classical.not_not.2 hp)).trans (if_pos hk))

variable (hk : (keyRecordOf record).ssb = u.primary p)
include hk

theorem keyLoad_busy (hb : u.slotBusy p (keyRecordOf record).slot = true) : keyLoad s p record = u.refuseKey p c 0x32 :=
  (keyLoad_wellFormed record ht hr hm ha hs).trans ((if_neg (Classical.not_not.2 hp)).trans ((if_neg (Classical.not_not.2 hk)).trans (if_pos hb)))

theorem keyLoad_unwraps (hb : u.slotBusy p (keyRecordOf record).slot = false) : keyLoad s p record = u.unwrapInto p c (keyRecordOf record) :=
  (keyLoad_wellFormed record ht hr hm ha hs).trans
    ((if_neg (Classical.not_not.2 hp)).trans ((if_neg (Classical.not_not.2 hk)).trans (if_neg (by rw [hb]; nofun))))

end

section
variable {s u : State} {p : Nat} {c : CmdIn} (ht : s.takeCmd p 0x12 = some (c, u)) (hr : ringOk c 9 = true) (hs : c.field 8 1 < 32)
include ht hr hs

theorem keyClear_taken : keyClear s p =
    if u.keyInUse p (c.field 8 1) then (u.wr (.ssb (u.primary p)) ssb.LAST_KEY_CODE 0x33).ringDone p c 12 0x33
    else ((u.setKey p (c.field 8 1) 0).wr (.ssb (u.primary p)) ssb.LAST_KEY_CODE 0).ringDone p c 12 0 := by
  unfold keyClear
  rw [ht]
  exact if_neg (by simp [hr, Nat.not_le.2 hs])

end

/-! ### ATTEST -/

/-- ATTEST with a buffer in the apertures and an index to sign with (R398, R399). -/
theorem attest_signs {s u v : State} {p q : Nat} {c : CmdIn} (ht : s.takeCmd p 0x13 = some (c, u)) (hr : ringOk c 48 = true)
    (ha : s.inAperture p (c.field 8 8) 6420 true = true) (hl : u.takeLeaf (s.primary p) = (some q, v)) : attest s p =
      ((v.inc (.ssb (s.primary p)) ssb.ATTEST_CNT 1).sendWrite p true (c.field 8 8)
        (v.reportBody p (s.primary p) q ((c.bytes.drop 16).take 32) ++
          leBytes 2964 (Config.hssSign v.fuses.seed q (leNat (v.reportBody p (s.primary p) q ((c.bytes.drop 16).take 32)))))).ringDone p c 13 0 := by
  unfold attest
  rw [ht]
  dsimp only
  rw [if_neg (by rw [hr]; nofun), if_neg (by rw [ha]; nofun), hl]

/-! ### Keys at the sites -/

/-- Sets or clears key slot `k` at one site. -/
def State.setSiteKey (k v : Nat) (s : State) (m : Nat) : State :=
  (s.updSite m (fun x => { x with keys := Table.set 0 x.keys k v })).wr (.xts m) xts.KEY_VALID
    (if v = 0 then (if bit (s.rd (.xts m) xts.KEY_VALID) k then s.rd (.xts m) xts.KEY_VALID - 2 ^ k else s.rd (.xts m) xts.KEY_VALID)
      else Nat.lor (s.rd (.xts m) xts.KEY_VALID) (2 ^ k))

theorem State.setKey_eq (s : State) (p k v : Nat) : s.setKey p k v = (s.partSites p).foldl (State.setSiteKey k v) s := rfl

theorem State.key_setSiteKey (s : State) (k v m j : Nat) :
    Table.get 0 ((s.setSiteKey k v m).site j).keys k = if j = m then v else Table.get 0 (s.site j).keys k := by
  unfold State.setSiteKey
  rw [State.site_wr, State.site_updSite]
  split
  · exact (Table.get_set ..).trans (if_pos rfl)
  · rfl

/-- Setting a key at several sites sets it at each of them. -/
theorem State.key_foldl_setSiteKey (s : State) (k v : Nat) (l : List Nat) (m : Nat) :
    Table.get 0 ((l.foldl (State.setSiteKey k v) s).site m).keys k = if m ∈ l then v else Table.get 0 (s.site m).keys k := by
  induction l generalizing s with
  | nil => rfl
  | cons j l ih =>
    rw [List.foldl_cons, ih, State.key_setSiteKey]
    by_cases hl : m ∈ l
    · rw [if_pos hl, if_pos (List.mem_cons_of_mem _ hl)]
    · rw [if_neg hl]
      exact ite_congr (propext (by simp [hl])) (fun _ => rfl) fun _ => rfl

end Sys2Proof.Machine
end

section
/-! SUPPORT. Firmware slots, role swaps and site updates (R387 to R394, R405 to R407, R413): the outcomes of the commands that stage, activate and commit
firmware, swap roles and update a site. -/

namespace Sys2Proof.Machine

/-! ### Staging -/

/-- The slot of a kind into which an object is staged: the one that does not run (R405). -/
def State.stageSlot (s : State) (k : Nat) : Nat :=
  if (s.fwSlot k 0).st = .active ∨ ((s.fwSlot k 0).st = .trial ∧ (s.fwSlot k 1).st ≠ .active) then 1 else 0

/-- An object in its slot as STAGED (R387, R394). -/
def SignedObj.staged (o : SignedObj) : FwSlot :=
  { st := .staged, key := o.key, svn := o.svn, version := o.version, ifgen := o.ifgen, digest := o.digest
    payload := if o.type = 8 then manifestRows o.payload else [] }

section
variable {s : State} {bytes : List Byte} (hk : (signedObjOf bytes).type ∈ [1, 2, 3, 4, 8])
  (hb : s.rd (.ssb (s.norHolder.getD 0)) ssb.BOOT_STATE ≠ 3 ∨ (signedObjOf bytes).type = 1)
include hk hb

/-- A firmware object whose SVN reaches the minimum is staged, or an error of the verifying SSB (R388, R405). -/
theorem firmwareObjectStage_fresh (hv : s.svnOk (signedObjOf bytes).type (signedObjOf bytes).svn = true) : firmwareObjectStage s bytes =
    if s.genuine (signedObjOf bytes) then s.setSlot (signedObjOf bytes).type (s.stageSlot (signedObjOf bytes).type) (fun _ => (signedObjOf bytes).staged)
    else s.ssbErr 0 := by
  have kind : ([1, 2, 3, 4, 8, 9, 10].contains (signedObjOf bytes).type) = true :=
    List.contains_iff_mem.2 (List.mem_append_left [9, 10] hk)
  have slots : (signedObjOf bytes).type ≠ 10 ∧ (signedObjOf bytes).type ≠ 9 := by
    constructor <;> (intro e; rw [e] at hk; revert hk; decide)
  unfold firmwareObjectStage
  dsimp only
  rw [if_neg (by rw [kind]; nofun), if_neg (Classical.not_and_iff_not_or_not.2 (hb.imp id Classical.not_not.2)), hv, if_neg (by nofun : ¬ (!true) = true), if_neg slots.1, if_neg slots.2]
  cases hg : s.genuine (signedObjOf bytes) with
  | false => rfl
  | true => rfl

/-- One below the minimum changes neither slots nor fuses. -/
theorem firmwareObjectStage_rollback (hv : s.svnOk (signedObjOf bytes).type (signedObjOf bytes).svn = false) :
    firmwareObjectStage s bytes = if s.genuine (signedObjOf bytes) then (s.ssbErr 0).ssbErr 4 else s.ssbErr 0 := by
  have kind : ([1, 2, 3, 4, 8, 9, 10].contains (signedObjOf bytes).type) = true :=
    List.contains_iff_mem.2 (List.mem_append_left [9, 10] hk)
  unfold firmwareObjectStage
  dsimp only
  rw [if_neg (by rw [kind]; nofun), if_neg (Classical.not_and_iff_not_or_not.2 (hb.imp id Classical.not_not.2)), hv]
  cases hg : s.genuine (signedObjOf bytes) with
  | false => rfl
  | true => rfl

end

/-! ### Activating, and a start that is not healthy -/

section
variable {s : State} {kind i : Nat}

section
variable (hi : s.slotIn kind .staged = some i) (hk : kind ∈ [1, 2, 3, 4, 8])
include hi hk

theorem activateFirmware_refused (hc : s.combosOk kind (s.fwSlot kind i).version = false) (h : Bool) :
    activateFirmware s kind h = (s.err (.smc (s.norHolder.getD 0)) 2).emit (.combo kind) := by
  unfold activateFirmware
  rw [hi]
  exact (if_neg (by rw [List.contains_iff_mem.2 hk]; nofun)).trans (if_pos (by rw [hc]; rfl))

variable (hc : s.combosOk kind (s.fwSlot kind i).version = true)
include hc

/-- Where every combination is in the manifest, the slot is on trial, until a healthy start of a kind other than the MCF (R405). -/
theorem activateFirmware_allowed (h : Bool) (h2 : kind ≠ 2) : activateFirmware s kind h =
    if h && (kind = 3 || kind = 4) then (s.setSlot kind i (fun x => { x with st := .trial })).trialGood kind i
    else s.setSlot kind i (fun x => { x with st := .trial }) := by
  unfold activateFirmware
  rw [hi]
  dsimp only
  rw [if_neg (by rw [List.contains_iff_mem.2 hk]; nofun), hc]
  simp [h2]

theorem activateFirmware_unhealthy : activateFirmware s kind false = s.setSlot kind i (fun x => { x with st := .trial }) := by
  unfold activateFirmware
  rw [hi]
  dsimp only
  rw [if_neg (by rw [List.contains_iff_mem.2 hk]; nofun), hc]
  rfl

end

theorem healthyStartTimeout_fails (hi : s.slotIn kind .trial = some i) (hk : kind = 2 ∨ kind = 3 ∨ kind = 4) :
    healthyStartTimeout s kind = (s.setSlot kind i (fun x => { x with st := .failed })).ssbErr 5 := by
  unfold healthyStartTimeout
  rw [hi]
  exact if_pos hk

end

/-! ### SVN_COMMIT -/

theorem getD_setAt {α : Type} (l : List α) (i j : Nat) (v d : α) (h : i < l.length) :
    (setAt l i v).getD j d = if j = i then v else l.getD j d := by
  induction l generalizing i j with
  | nil => exact absurd h (Nat.not_lt_zero i)
  | cons x l ih =>
    cases i with
    | zero => cases j <;> rfl
    | succ i =>
      cases j with
      | zero => rfl
      | succ j =>
        rw [setAt, List.getD_cons_succ, List.getD_cons_succ, ih i j (Nat.lt_of_succ_lt_succ h)]
        exact ite_congr (propext (by omega)) (fun _ => rfl) fun _ => rfl

/-- The kind that SVN_KIND names: 0 for the manifest (R413). -/
def svnKind (v : Nat) : Nat := if v = 0 then 8 else v

theorem svnIndex_svnKind {v : Nat} (h : v ≤ 4) : svnIndex (svnKind v) = v := by
  unfold svnIndex svnKind
  split <;> split <;> omega

theorem svnCommit_burns {s : State} {c v i : Nat} (hv : s.rd (.ssb c) ssb.SVN_KIND = v) (h4 : v ≤ 4)
    (hi : s.slotIn (svnKind v) .active = some i) : svnCommit s c = s.burnSvn (svnKind v) (s.fwSlot (svnKind v) i).svn := by
  unfold svnCommit
  dsimp only
  rw [hv, if_neg (Nat.not_lt.2 h4), ← svnKind, hi]

/-! ### Role swaps -/

/-- The port through which the other control tile reaches the partition's companion (R406). -/
def State.swapPort (s : State) (p : Nat) : Option Nat :=
  ((List.range 4).map (· + 4 * (1 - s.primary p))).find? (fun n => s.portActive n && bit (s.rd (.vlport n) vlport.PORT_PARTS) p &&
    s.rd (.vlport n) vlport.PORT_COMP = s.rd (.cohc p) cohc.COMP)

/-- A crag of the partition is without protection. -/
def State.unprot (s : State) (p : Nat) : Bool :=
  (s.part p).tiles.any (fun t => (List.range 16).any (fun y => s.flag (.crag t y) crag.UNPROT))

/-- A swap may be carried out now: the partition is OFF, or its boundary is due. -/
def State.swapDue (s : State) (p : Nat) : Bool :=
  s.pstate p = 0 || ((s.part p).phase = .running && (s.part p).commitDone && tickLen (s.periodOf p) (s.part p).stretch ≤ (s.part p).wall)

/-- The other generator is primary. -/
def State.swapped (s : State) (p : Nat) : State := s.setFlag (.tickgen p) tickgen.MIRROR_ACT (!s.flag (.tickgen p) tickgen.MIRROR_ACT)

/-- The ROLE_SWAP entry of a swap through port `n`. -/
def State.postSwap (s : State) (p n : Nat) : State :=
  s.free.2.postCpl p { event := 14, code := (s.free.2.ordPort p).getD n, cookie := s.free.1.toNat, handle := 0x1FFFF }

theorem State.pstate_swapped (s : State) (p : Nat) : (s.swapped p).pstate p = s.pstate p := State.rd_wr_field _ _ _ _ _ (by decide)

section
variable {s : State} {p n : Nat} (hn : s.swapPort p = some n)
include hn

theorem roleSwap_waits (h : s.flag (.tickgen p) tickgen.CREATED = false ∨ (s.ctl (1 - s.primary p)).up = false ∨ (s.part p).job ≠ none ∨
    s.unprot p = true ∨ s.swapDue p = false) : roleSwap s p = s := by
  unfold roleSwap
  dsimp only
  rw [← State.swapPort, hn]
  refine if_pos ?_
  rw [← Option.isSome_iff_ne_none] at h
  show (!s.flag (.tickgen p) tickgen.CREATED || !(s.ctl (1 - s.primary p)).up || (s.part p).job.isSome || s.unprot p || !s.swapDue p) = true
  obtain h | h | h | h | h := h <;> rw [h] <;> simp

variable (hc : s.flag (.tickgen p) tickgen.CREATED = true) (hu : (s.ctl (1 - s.primary p)).up = true) (hj : (s.part p).job = none)
  (hp : s.unprot p = false)
include hc hu hj hp

/-- A swap that no condition of R406 holds back. -/
theorem roleSwap_swaps (hd : s.swapDue p = true) : roleSwap s p = State.postSwap (if s.pstate p = 0 then s.swapped p else
    ((s.swapped p).updPart p (fun x => { x with phase := .boundaryHold 78000, holdReq := true, holdStart := (s.part p).wall })).setFlag (.tickgen p)
      tickgen.HOLD true) p n := by
  unfold roleSwap
  dsimp only
  rw [← State.swapPort, hn]
  refine (if_neg ?_).trans ?_
  · show ¬ (!s.flag (.tickgen p) tickgen.CREATED || !(s.ctl (1 - s.primary p)).up || (s.part p).job.isSome || s.unprot p || !s.swapDue p) = true
    rw [hc, hu, hj, hp, hd]
    decide
  · rw [← State.swapped, State.pstate_swapped]
    rfl

end

/-! ### Site updates -/

section
variable {s : State} {m : Nat}

theorem siteUpdateDrain_drains (h : s.slotIn 4 .active ≠ none) :
    siteUpdateDrain s m = (s.updSite m (fun x => { x with draining := true })).pmDrained m :=
  if_neg (by simp [Option.isNone_eq_false_iff.2 (Option.isSome_iff_ne_none.2 h)])

/-- A page mover that drains with commands left waits for them. -/
theorem State.pmDrained_waits (h : (s.site m).pm ≠ []) : s.pmDrained m = s := if_pos (by simp [h])

/-- An ON page whose page mover has drained starts again (R407). -/
theorem State.pmDrained_restarts (hd : (s.site m).draining = true) (h : (s.site m).pm = []) (hs : s.rd (.msite m) page.STATE = 2) :
    s.pmDrained m = s.wr (.msite m) page.STATE 1 := by
  unfold State.pmDrained
  dsimp only
  rw [if_neg (by simp [hd, h]), hs]
  rfl

/-- An empty queue of a page mover stays empty, and its registers stay. -/
theorem State.pmRun_empty (h : (s.site m).pm = []) : s.pmRun m = s ∨ s.pmRun m = s.updSite m (fun x => { x with pm := [] }) := by
  unfold State.pmRun
  split
  · exact .inl rfl
  · rw [h]
    exact .inr rfl

/-- MSF_READY of a page in STARTING (R452). -/
theorem msfReady_ready (h : s.rd (.msite m) page.STATE = 1) :
    msfReady s m = ((s.wr (.msite m) page.STATE 2).updSite m (fun x => { x with draining := false })).pmRun m :=
  if_neg (Classical.not_not.2 h)

end

end Sys2Proof.Machine
end

section
/-! The statements of spec/16_security_and_firmware.md: keys and attestation (O34), firmware (O35), role swaps and site updates (O36). -/

namespace Sys2Proof.Machine

/-- Settles O34, from the order in which KEY_LOAD refuses and from what each command does otherwise. -/
theorem keySlotCommands : Obligations.KeySlotCommands := by
  refine ⟨fun s u p record c ht hr => ⟨fun hm ha hs hp hk hb => ?_, fun bad => ?_, fun hm ha hs => ⟨fun hp => ?_, fun hp hk => ?_, fun hp hk hb => ?_⟩⟩,
    fun s u p c ht hr hs => ⟨fun hu => ?_, fun hu => ?_⟩, fun s u v p c q ht hr ha hl => ?_, fun s p k v m hm => ?_⟩
  · exact congrArg Host.Outcome.next (keyLoad_unwraps record ht hr hm ha hs hp hk hb)
  · exact congrArg Host.Outcome.next (keyLoad_malformed record ht hr bad)
  · exact congrArg Host.Outcome.next (keyLoad_foreign record ht hr hm ha hs hp)
  · exact congrArg Host.Outcome.next (keyLoad_otherSsb record ht hr hm ha hs hp hk)
  · exact congrArg Host.Outcome.next (keyLoad_busy record ht hr hm ha hs hp hk hb)
  · exact congrArg Host.Outcome.next ((keyClear_taken ht hr hs).trans (if_pos hu))
  · exact congrArg Host.Outcome.next ((keyClear_taken ht hr hs).trans (if_neg (by rw [hu]; nofun)))
  · exact congrArg Host.Outcome.next (attest_signs ht hr ha hl)
  · rw [State.setKey_eq, State.key_foldl_setSiteKey, if_pos hm]

/-- Settles O35, command by command. -/
theorem firmwareSlots : Obligations.FirmwareSlots := by
  refine ⟨fun s bytes => ?_, fun s kind h i hi hk => ⟨fun hc => ⟨fun hh => ?_, fun hh h34 => ?_⟩, fun hc => ?_⟩, fun s kind i hi hk => ?_,
    fun s c v i hv h4 hi hl => ?_, fun s bs => ⟨_, rfl, rfl, rfl, rfl, rfl⟩⟩
  · intro o hk hb
    refine ⟨fun hv => congrArg Host.Outcome.next (firmwareObjectStage_fresh hk hb hv), fun hv => ?_⟩
    refine ⟨_, congrArg Host.Outcome.next (firmwareObjectStage_rollback hk hb hv), ?_⟩
    have frame : Frame (fp.regs + fp.sent) s (if s.genuine o then (s.ssbErr 0).ssbErr 4 else s.ssbErr 0) :=
      .ite (.step (State.err_frame ..) rfl (State.err_frame ..)) (State.err_frame ..)
    exact ⟨frame.nor rfl, frame.fuses rfl⟩
  · cases h with
    | false => exact congrArg Host.Outcome.next (activateFirmware_unhealthy hi hk hc)
    | true =>
      obtain hh | rfl | rfl := hh
      · exact absurd hh nofun
      · exact congrArg Host.Outcome.next (activateFirmware_allowed hi hk hc true (by decide))
      · exact congrArg Host.Outcome.next (activateFirmware_allowed hi hk hc true (by decide))
  · subst hh
    obtain rfl | rfl := h34
    · exact congrArg Host.Outcome.next (activateFirmware_allowed hi hk hc true (by decide))
    · exact congrArg Host.Outcome.next (activateFirmware_allowed hi hk hc true (by decide))
  · exact congrArg Host.Outcome.next (activateFirmware_refused hi hk hc h)
  · exact congrArg Host.Outcome.next (healthyStartTimeout_fails hi hk)
  · refine ⟨_, congrArg Host.Outcome.next (svnCommit_burns hv h4 hi), ?_, fun k hk => ?_, rfl, rfl, rfl⟩
    · unfold State.burnSvn
      rw [svnIndex_svnKind h4, getD_setAt _ _ _ _ _ (Nat.lt_of_le_of_lt h4 hl), if_pos rfl]
      rfl
    · unfold State.burnSvn
      rw [svnIndex_svnKind h4, getD_setAt _ _ _ _ _ (Nat.lt_of_le_of_lt h4 hl), if_neg hk]

/-- Settles O36, command by command. -/
theorem swapsAndSiteUpdates : Obligations.SwapsAndSiteUpdates := by
  refine ⟨fun s p n hn => ?_, fun s m hf => ⟨fun he hs => ?_, fun he => ?_⟩, fun s m => ⟨fun hs he => ?_, fun hs => ?_⟩⟩
  · intro unprot due s1 s2 done
    refine ⟨fun hc hu hj hp => ⟨fun off => ?_, fun on hd => ?_⟩, fun h => congrArg Host.Outcome.next (roleSwap_waits hn h)⟩
    · have hd : s.swapDue p = true := by simp [State.swapDue, off]
      exact congrArg Host.Outcome.next ((roleSwap_swaps hn hc hu hj hp hd).trans (by rw [if_pos off]; rfl))
    · exact congrArg Host.Outcome.next ((roleSwap_swaps hn hc hu hj hp hd).trans (by rw [if_neg on]; rfl))
  · have drains := State.pmDrained_restarts (s := s.updSite m (fun x => { x with draining := true })) (m := m)
      (by rw [State.site_updSite_self]) (by rw [State.site_updSite_self]; exact he) hs
    refine ⟨_, congrArg Host.Outcome.next ((siteUpdateDrain_drains hf).trans drains), ?_, State.rd_wr_self _ _ _ _ (by decide)⟩
    rw [State.site_wr, State.site_updSite_self]
  · refine congrArg Host.Outcome.next ((siteUpdateDrain_drains hf).trans (State.pmDrained_waits ?_))
    rw [State.site_updSite_self]
    exact he
  · let x := (s.wr (.msite m) page.STATE 2).updSite m (fun x => { x with draining := false })
    have site : x.site m = { s.site m with draining := false } := State.site_updSite_self ..
    have empty : (x.site m).pm = [] := by rw [site]; exact he
    have ready : x.rd (.msite m) page.STATE = 2 := State.rd_wr_self _ _ _ _ (by decide)
    refine ⟨_, congrArg Host.Outcome.next (msfReady_ready hs), ?_⟩
    obtain same | same := State.pmRun_empty empty
    · rw [same]
      exact ⟨ready, congrArg Site.draining site, empty⟩
    · rw [same, State.site_updSite_self]
      exact ⟨ready, congrArg Site.draining site, rfl⟩
  · exact congrArg Host.Outcome.next (if_pos hs)

end Sys2Proof.Machine
end

section
/-! SUPPORT. Training and retraining of a port (R358 to R360, R364, R373): what a check of the links leaves of the registers, and the ends of an attempt. -/

namespace Sys2Proof.Machine

/-- A 64-bit value in two words of 32 bits. -/
theorem State.rd64_wr64 (s : State) (p : Page) (lo hi : Field) (v : Nat) (hl : lo.width = 32) (hh : hi.width = 32)
    (hn : lo.off * 32 + lo.lsb ≠ hi.off * 32 + hi.lsb) : (s.wr64 p lo hi v).rd64 p lo hi = v % 2 ^ 64 := by
  unfold State.rd64 State.wr64
  rw [State.rd_wr_field _ _ _ _ _ hn, State.rd_wr_self _ _ _ _ (by omega), State.rd_wr_self _ _ _ _ (by omega), hl, hh]
  omega

/-! ### What the link's operations leave of the registers -/

/-- The ports' pages are none of a partition's companion pages. -/
theorem Page.vlport_ne_cohc {n p : Nat} (hn : n < 8) (hp : p < 12) : (Page.vlport n).id ≠ (Page.cohc p).id := by
  simp only [Page.id]
  split <;> omega

/-- A check of the links changes the common fields of the companion pages alone (R375). -/
theorem State.rd_linkCheck (s : State) {q : Page} {f : Field} (h : 0x24 * 32 ≤ f.off * 32 + f.lsb ∨ ∀ p, p < 12 → q.id ≠ (Page.cohc p).id)
    (h' : f.off * 32 + f.lsb < 131072) : s.linkCheck.rd q f = s.rd q f := by
  have noted : ∀ (x : State) p, p < 12 → (x.err (.cohc p) 2).rd q f = x.rd q f := fun x p hp =>
    h.elim (fun hf => State.rd_err _ _ _ _ _ _ hf h') (fun hq => State.rd_err' _ _ _ _ _ _ (hq p hp) h')
  have each : ∀ (l : List Nat) (x : State), (∀ p ∈ l, p < 12) → (l.foldl (fun s p =>
      (if (s.flag (.tickgen p) tickgen.CREATED && s.linkLost p) && !(s.part p).lost then s.err (.cohc p) 2 else s).updPart p
        (fun y => { y with lost := s.flag (.tickgen p) tickgen.CREATED && s.linkLost p })) x).rd q f = x.rd q f := by
    intro l
    induction l with
    | nil => exact fun _ _ => rfl
    | cons p l ih =>
      intro x hl
      refine (ih _ fun k hk => hl k (List.mem_cons_of_mem _ hk)).trans ?_
      rw [State.rd_updPart]
      split
      · exact noted x p (hl p (List.mem_cons_self ..))
      · rfl
  exact each _ s fun p hp => List.mem_range.1 hp

/-- A port that leaves its duties shows its new LSTATE (R374). -/
theorem State.rd_portOff (s : State) (n st : Nat) {q : Page} {f : Field}
    (h : 0x24 * 32 ≤ f.off * 32 + f.lsb ∨ ∀ p, p < 12 → q.id ≠ (Page.cohc p).id) (h' : f.off * 32 + f.lsb < 131072) :
    (s.portOff n st).rd q f = (s.wr (.vlport n) vlport.LSTATE st).rd q f := by
  unfold State.portOff
  rw [State.rd_linkCheck _ h h', State.rd_congr ((State.flush_frame _).regs rfl)]
  rfl

/-- A port that is DOWN, counted and noted (R359, R360, R364). -/
theorem State.portDown_shows (s : State) {n : Nat} (hn : n < 8) : (s.portDown n).rd (.vlport n) vlport.LSTATE = 6 ∧
    (s.portDown n).rd (.vlport n) vlport.DOWN_CNT = (s.rd (.vlport n) vlport.DOWN_CNT + 1) % 2 ^ 32 ∧
    bit ((s.portDown n).rd (.vlport n) page.ERR_STAT) 2 = true := by
  unfold State.portDown
  refine ⟨?_, ?_, ?_⟩
  · rw [State.rd_portOff _ _ _ (.inl (by decide)) (by decide)]
    exact State.rd_wr_self _ _ _ _ (by decide)
  · rw [State.rd_portOff _ _ _ (.inl (by decide)) (by decide), State.rd_wr_field _ _ _ _ _ (by decide),
      State.rd_err _ _ _ _ _ _ (by decide) (by decide)]
    exact State.rd_wr_self _ _ _ _ (by decide)
  · rw [State.rd_portOff _ _ _ (.inr fun p hp => Page.vlport_ne_cohc hn hp) (by decide), State.rd_wr_field _ _ _ _ _ (by decide)]
    exact State.stat_err _ _ _ _ (by decide)

/-! ### Training -/

section
variable {s : State} {n : Nat}

/-- The third failed attempt of a series, or one from DOWN (R359). -/
theorem State.trainFail_down (h : 2 ≤ (s.port n).attempts ∨ s.rd (.vlport n) vlport.LSTATE = 6) : s.trainFail n = s.portDown n :=
  if_pos (h.imp_left Nat.succ_le_succ)

/-- Any other failed attempt. -/
theorem State.trainFail_detect (h : ¬ (2 ≤ (s.port n).attempts ∨ s.rd (.vlport n) vlport.LSTATE = 6)) :
    s.trainFail n = (s.updPort n (fun x => { x with attempts := (s.port n).attempts + 1 })).wr (.vlport n) vlport.LSTATE 0 :=
  if_neg fun c => h (c.imp_left Nat.le_of_succ_le_succ)

theorem trainingTimeout_fails (he : s.portEnabled n = true) (hs : s.rd (.vlport n) vlport.LSTATE < 4) : trainingTimeout s n = s.trainFail n :=
  if_pos (by simp [he, hs])

theorem State.lstate_trainFail (s : State) {n : Nat} (hn : n < 8) : (s.trainFail n).rd (.vlport n) vlport.LSTATE =
    if 2 ≤ (s.port n).attempts ∨ s.rd (.vlport n) vlport.LSTATE = 6 then 6 else 0 := by
  split
  · next h =>
    rw [State.trainFail_down h]
    exact (State.portDown_shows s hn).1
  · next h =>
    rw [State.trainFail_detect h]
    exact State.rd_wr_self _ _ _ _ (by decide)

/-- LANE_FAIL is no part of what the ports report of the companion's nodes. -/
theorem State.compClash_laneFail (s : State) (n v id : Nat) : (s.wr (.vlport n) vlport.LANE_FAIL v).compClash n id = s.compClash n id := by
  have kept : ∀ (m : Nat) (f : Field), f.off * 32 + f.lsb ≠ 0x44 * 32 + 16 → f.off * 32 + f.lsb < 131072 →
      (s.wr (.vlport n) vlport.LANE_FAIL v).rd (.vlport m) f = s.rd (.vlport m) f := fun m f h h' =>
    State.rd_wr_apart _ _ _ _ _ _ h (by decide) h'
  unfold State.compClash State.portActive State.rd64
  simp only [kept _ vlport.LSTATE (by decide) (by decide), kept _ vlport.PORT_COMP (by decide) (by decide),
    kept _ vlport.NODE_ID_LO (by decide) (by decide), kept _ vlport.NODE_ID_HI (by decide) (by decide)]

section
variable {d : TrainData}

theorem State.trainOnce_fails (h : d.active = false) : s.trainOnce n d = s.trainFail n := if_pos (by rw [h]; rfl)

/-- No half of sixteen lanes is good (R360). -/
theorem State.trainOnce_noHalf (h : d.active = true) (hl : laneHalf d.laneFail false ≠ 0) (hh : laneHalf d.laneFail true ≠ 0) :
    s.trainOnce n d = (s.wr (.vlport n) vlport.LANE_FAIL d.laneFail).portDown n :=
  (if_neg (by rw [h]; nofun)).trans (if_pos ⟨hl, hh⟩)

/-- What a port shows that has trained: its lanes, generation, width and the node at its other end (R358, R373). -/
def State.trained (s : State) (n : Nat) (d : TrainData) : State :=
  (((s.wr (.vlport n) vlport.LANE_FAIL d.laneFail).wr (.vlport n) vlport.GEN (min (s.rd (.vlport n) vlport.GEN_MAX) d.gen)).setFlag (.vlport n)
    vlport.WIDTH (d.laneFail % 65536 ≠ 0)).wr64 (.vlport n) vlport.NODE_ID_LO vlport.NODE_ID_HI d.nodeId

/-- A training that reaches ACTIVE (R358 to R360). -/
theorem State.trainOnce_trains (h : d.active = true) (hl : laneHalf d.laneFail false = 0 ∨ laneHalf d.laneFail true = 0)
    (hc : s.compClash n d.nodeId = false) : s.trainOnce n d =
      ((if decide (d.laneFail % 65536 ≠ 0) then (s.trained n d).err (.vlport n) 7 else s.trained n d).wr (.vlport n) vlport.LSTATE 4 |>.updPort n
        (fun _ => { credits := d.credits })).flush.linkCheck := by
  have max : (s.wr (.vlport n) vlport.LANE_FAIL d.laneFail).rd (.vlport n) vlport.GEN_MAX = s.rd (.vlport n) vlport.GEN_MAX :=
    State.rd_wr_field _ _ _ _ _ (by decide)
  unfold State.trainOnce State.trained
  rw [if_neg (by rw [h]; nofun)]
  dsimp only
  rw [if_neg (fun c : _ ∧ _ => hl.elim c.1 c.2), if_neg (by rw [State.compClash_laneFail, hc]; nofun), max]

/-- A port that has trained shows so, and is ACTIVE. -/
theorem State.rd_trainOnce (h : d.active = true) (hl : laneHalf d.laneFail false = 0 ∨ laneHalf d.laneFail true = 0)
    (hc : s.compClash n d.nodeId = false) {f : Field} (hf : 0x24 * 32 ≤ f.off * 32 + f.lsb) (hf' : f.off * 32 + f.lsb < 131072) :
    (s.trainOnce n d).rd (.vlport n) f = ((s.trained n d).wr (.vlport n) vlport.LSTATE 4).rd (.vlport n) f := by
  rw [State.trainOnce_trains h hl hc, State.rd_linkCheck _ (.inl hf) hf', State.rd_congr ((State.flush_frame _).regs rfl), State.rd_updPort]
  by_cases hs : f.off * 32 + f.lsb = vlport.LSTATE.off * 32 + vlport.LSTATE.lsb
  · unfold State.rd State.wr
    simp only [Table.get_set]
    rw [if_pos (by simp only [regKey]; omega), if_pos (by simp only [regKey]; omega)]
  · rw [State.rd_wr_field _ _ _ _ _ hs, State.rd_wr_field _ _ _ _ _ hs]
    split
    · exact State.rd_err _ _ _ _ _ _ hf hf'
    · rfl

theorem State.trainOnce_shows (h : d.active = true) (hl : laneHalf d.laneFail false = 0 ∨ laneHalf d.laneFail true = 0)
    (hc : s.compClash n d.nodeId = false) :
    (s.trainOnce n d).rd (.vlport n) vlport.LSTATE = 4 ∧
    (s.trainOnce n d).rd (.vlport n) vlport.GEN = min (s.rd (.vlport n) vlport.GEN_MAX) d.gen % 2 ^ 2 ∧
    (s.trainOnce n d).flag (.vlport n) vlport.WIDTH = decide (d.laneFail % 65536 ≠ 0) ∧
    (s.trainOnce n d).rd (.vlport n) vlport.LANE_FAIL = d.laneFail % 2 ^ 16 ∧
    (s.trainOnce n d).rd64 (.vlport n) vlport.NODE_ID_LO vlport.NODE_ID_HI = d.nodeId % 2 ^ 64 := by
  have shown := fun (f : Field) (hf : 0x24 * 32 ≤ f.off * 32 + f.lsb) hf' => State.rd_trainOnce h hl hc (f := f) hf hf'
  refine ⟨?_, ?_, ?_, ?_, ?_⟩
  · rw [shown _ (by decide) (by decide)]
    exact State.rd_wr_self _ _ _ _ (by decide)
  · rw [shown _ (by decide) (by decide), State.rd_wr_field _ _ _ _ _ (by decide), State.trained, State.wr64, State.rd_wr_field _ _ _ _ _ (by decide),
      State.rd_wr_field _ _ _ _ _ (by decide), State.rd_setFlag_field _ _ _ _ _ (by decide)]
    exact State.rd_wr_self _ _ _ _ (by decide)
  · rw [State.flag, shown _ (by decide) (by decide), State.rd_wr_field _ _ _ _ _ (by decide), State.trained, State.wr64,
      State.rd_wr_field _ _ _ _ _ (by decide), State.rd_wr_field _ _ _ _ _ (by decide)]
    exact State.flag_setFlag_self _ _ _ _ (by decide) (by decide)
  · rw [shown _ (by decide) (by decide), State.rd_wr_field _ _ _ _ _ (by decide), State.trained, State.wr64, State.rd_wr_field _ _ _ _ _ (by decide),
      State.rd_wr_field _ _ _ _ _ (by decide), State.rd_setFlag_field _ _ _ _ _ (by decide), State.rd_wr_field _ _ _ _ _ (by decide)]
    exact State.rd_wr_self _ _ _ _ (by decide)
  · rw [State.rd64, shown _ (by decide) (by decide), shown _ (by decide) (by decide), State.rd_wr_field _ _ _ _ _ (by decide),
      State.rd_wr_field _ _ _ _ _ (by decide), State.trained]
    exact State.rd64_wr64 _ _ _ _ _ rfl rfl (by decide)

end

/-! ### Retraining -/

theorem State.startRetrain_active (h : s.portActive n = true) : s.startRetrain n = (s.wr (.vlport n) vlport.LSTATE 5).linkCheck := if_pos h

theorem State.startRetrain_other (h : s.portActive n = false) : s.startRetrain n = s := if_neg (by rw [h]; nofun)

/-- A retrain that begins shows in LSTATE (R364). -/
theorem State.lstate_startRetrain (h : s.portActive n = true) : (s.startRetrain n).rd (.vlport n) vlport.LSTATE = 5 := by
  rw [State.startRetrain_active h, State.rd_linkCheck _ (.inl (by decide)) (by decide)]
  exact State.rd_wr_self _ _ _ _ (by decide)

theorem retrainTimeout_down (h : s.rd (.vlport n) vlport.LSTATE = 5) : retrainTimeout s n false = s.portDown n := if_neg (Classical.not_not.2 h)

theorem retrainTimeout_active (h : s.rd (.vlport n) vlport.LSTATE = 5) : retrainTimeout s n true =
    ((((s.wr (.vlport n) vlport.LSTATE 4).updPort n (fun x => { x with replays := 0, ackTime := s.clock })).inc (.vlport n) vlport.RETRAIN_CNT 1).err
      (.vlport n) 1).flush.linkCheck :=
  if_neg (Classical.not_not.2 h)

/-- A retrain that ends in ACTIVE, counted and noted (R364). -/
theorem retrainTimeout_active_shows (hn : n < 8) (h : s.rd (.vlport n) vlport.LSTATE = 5) :
    (retrainTimeout s n true).rd (.vlport n) vlport.LSTATE = 4 ∧
    (retrainTimeout s n true).rd (.vlport n) vlport.RETRAIN_CNT = (s.rd (.vlport n) vlport.RETRAIN_CNT + 1) % 2 ^ 32 ∧
    bit ((retrainTimeout s n true).rd (.vlport n) page.ERR_STAT) 1 = true := by
  rw [retrainTimeout_active h]
  refine ⟨?_, ?_, ?_⟩
  · rw [State.rd_linkCheck _ (.inl (by decide)) (by decide), State.rd_congr ((State.flush_frame _).regs rfl),
      State.rd_err _ _ _ _ _ _ (by decide) (by decide), State.inc, State.rd_wr_field _ _ _ _ _ (by decide)]
    exact State.rd_wr_self _ _ _ _ (by decide)
  · rw [State.rd_linkCheck _ (.inl (by decide)) (by decide), State.rd_congr ((State.flush_frame _).regs rfl),
      State.rd_err _ _ _ _ _ _ (by decide) (by decide), State.inc, State.rd_wr_self _ _ _ _ (by decide), State.rd_updPort,
      State.rd_wr_field _ _ _ _ _ (by decide)]
    rfl
  · rw [State.rd_linkCheck _ (.inr fun p hp => Page.vlport_ne_cohc hn hp) (by decide), State.rd_congr ((State.flush_frame _).regs rfl)]
    exact State.stat_err _ _ _ _ (by decide)

end

end Sys2Proof.Machine
end

section
/-! The statement of spec/15_vreljo_link.md about the training of ports (O48). -/

namespace Sys2Proof.Machine

/-- The commands that make an attempt in the states in which they act (R359). -/
theorem exec_trainOnce {s : State} {n : Nat} {d : TrainData} {i : Instr} (he : s.portEnabled n = true)
    (hi : (i = .portTrain n d ∧ s.rd (.vlport n) vlport.LSTATE < 4) ∨
      (i = .downRetry n d ∧ s.rd (.vlport n) vlport.LSTATE = 6 ∧ (s.port n).sinceDown + 250000000 ≤ s.clock)) : exec i s = .next (s.trainOnce n d) := by
  obtain ⟨rfl, hl⟩ | ⟨rfl, hl, ht⟩ := hi
  · exact congrArg Host.Outcome.next (if_pos (by simp [he, hl]))
  · exact congrArg Host.Outcome.next (if_pos (by simp [he, hl, ht]))

/-- The commands that begin a retrain (R364, R383). -/
theorem exec_startRetrain {s : State} {n : Nat} {i : Instr} (hi : i = .retrain n ∨ i = .blockLockLoss n) : exec i s = .next (s.startRetrain n) := by
  obtain rfl | rfl := hi <;> rfl

/-- Settles O48, by the ends of an attempt and of a retrain. -/
theorem portTraining : Obligations.PortTraining := by
  refine ⟨fun s n d i hn he hi => ⟨fun ha hl hc => ?_, fun ha hl hh => ?_, fun ha => ?_⟩, fun s n hn he hs => ⟨fun hf => ?_, fun hf => ?_⟩,
    fun s n d he => ⟨?_, ?_, ?_⟩, fun s n i hn hi => ⟨fun ha => ?_, fun ha => ?_⟩, fun s n b hn => ⟨fun hs => ?_, fun hs => ?_⟩⟩
  · exact ⟨_, exec_trainOnce he hi, State.trainOnce_shows ha hl hc⟩
  · refine ⟨_, (exec_trainOnce he hi).trans (congrArg Host.Outcome.next (State.trainOnce_noHalf ha hl hh)), (State.portDown_shows _ hn).1⟩
  · exact ⟨_, (exec_trainOnce he hi).trans (congrArg Host.Outcome.next (State.trainOnce_fails ha)), State.lstate_trainFail s hn⟩
  · have detect := State.trainFail_detect (s := s) (n := n) (by omega)
    refine ⟨_, congrArg Host.Outcome.next ((trainingTimeout_fails he hs).trans detect), State.rd_wr_self _ _ _ _ (by decide), ?_⟩
    rw [State.port_wr, State.port_updPort_self]
  · exact ⟨_, congrArg Host.Outcome.next ((trainingTimeout_fails he hs).trans (State.trainFail_down (.inl hf))), State.portDown_shows s hn⟩
  · exact congrArg Host.Outcome.next (if_neg (by simp [he]))
  · exact congrArg Host.Outcome.next (if_neg (by simp [he]))
  · exact congrArg Host.Outcome.next (if_neg (by simp [he]))
  · refine ⟨_, exec_startRetrain hi, State.lstate_startRetrain ha, ?_⟩
    rw [State.startRetrain_active ha]
    exact (State.linkCheck_frame _).ports rfl
  · exact (exec_startRetrain hi).trans (congrArg Host.Outcome.next (State.startRetrain_other ha))
  · cases b with
    | true =>
      obtain ⟨active, counted, noted⟩ := retrainTimeout_active_shows hn hs
      exact ⟨_, rfl, active, fun _ => ⟨counted, noted⟩, nofun⟩
    | false =>
      obtain ⟨down, counted, noted⟩ := State.portDown_shows s hn
      exact ⟨_, congrArg Host.Outcome.next (retrainTimeout_down hs), down, nofun, fun _ => ⟨counted, noted⟩⟩
  · exact congrArg Host.Outcome.next (if_pos hs)

end Sys2Proof.Machine
end

section
/-! SUPPORT. What sending leaves of the ports and of the lists that wait (R363, R366, R374): the receiver's side of each port, the number of waiting writes
and reads, and everything where nothing waits. -/

namespace Sys2Proof.Machine

/-! ### The receiver's side of a port -/

/-- The receiver's side of every port is as before: the sequence number it expects, the NAK in hand, and the bytes of the message in hand. -/
structure State.SameRx (s t : State) : Prop where
  rxSeq : ∀ n, (t.port n).rxSeq = (s.port n).rxSeq
  nakSent : ∀ n, (t.port n).nakSent = (s.port n).nakSent
  rxBuf : ∀ n, (t.port n).rxBuf = (s.port n).rxBuf

theorem State.SameRx.refl (s : State) : s.SameRx s := ⟨fun _ => rfl, fun _ => rfl, fun _ => rfl⟩

theorem State.SameRx.trans {s t u : State} (h : s.SameRx t) (h' : t.SameRx u) : s.SameRx u :=
  ⟨fun n => (h'.rxSeq n).trans (h.rxSeq n), fun n => (h'.nakSent n).trans (h.nakSent n), fun n => (h'.rxBuf n).trans (h.rxBuf n)⟩

/-- A change of a port that leaves its receiver's side. -/
theorem State.SameRx.updPort {s t : State} (h : s.SameRx t) {n : Nat} {f : Port → Port} (hq : ∀ x, (f x).rxSeq = x.rxSeq)
    (hn : ∀ x, (f x).nakSent = x.nakSent) (hb : ∀ x, (f x).rxBuf = x.rxBuf) : s.SameRx (t.updPort n f) := by
  have kept : ∀ {α : Type} (g : Port → α), (∀ x, g (f x) = g x) → ∀ m, g ((t.updPort n f).port m) = g (t.port m) := by
    intro α g hg m
    rw [State.port_updPort]
    split
    · next e => rw [hg, e]
    · rfl
  exact h.trans ⟨kept _ hq, kept _ hn, kept _ hb⟩

theorem State.sameRx_transmit (s : State) (n vc k : Nat) (m : Msg) : s.SameRx (s.transmit n vc k m) := by
  have moved := (State.SameRx.refl s).updPort (n := n) (f := fun x => { x with
    credits := setAt x.credits vc (x.credits.getD vc 0 - k), tag := (x.tag + 1) % 4096
    replay := x.replay ++ (List.range (s.flitsOf n k)).map (fun i => ((x.txSeq + i) % 1024, if i = 0 then some m else none))
    ackTime := if x.replay = [] then s.clock else x.ackTime, txSeq := (x.txSeq + s.flitsOf n k) % 1024 })
    (fun _ => rfl) (fun _ => rfl) (fun _ => rfl)
  exact ⟨moved.rxSeq, moved.nakSent, moved.rxBuf⟩

theorem State.sameRx_flushWrite (a : State × List Nat × List Write) (w : Write) : a.1.SameRx (flushWrite a w).1 := by
  unfold flushWrite
  dsimp only
  split
  · exact .refl _
  · split
    · exact .refl _
    · split
      · exact State.sameRx_transmit ..
      · exact .refl _

theorem State.sameRx_flushRead (a : State × List Read) (r : Read) : a.1.SameRx (flushRead a r).1 := by
  unfold flushRead
  dsimp only
  split
  · exact .refl _
  · split
    · exact .refl _
    · split
      · exact State.sameRx_transmit ..
      · exact .refl _

theorem State.sameRx_flushMsg (n : Nat) (a : State × List (Msg × Nat × Nat)) (m : Msg × Nat × Nat) : a.1.SameRx (flushMsg n a m).1 := by
  unfold flushMsg
  dsimp only
  split
  · exact .refl _
  · exact State.sameRx_transmit ..

theorem State.SameRx.foldlFst {α β : Type} (f : State × β → α → State × β) (h : ∀ (a : State × β) (x : α), a.1.SameRx (f a x).1) (l : List α) (a : State × β) :
    a.1.SameRx (l.foldl f a).1 := by
  induction l generalizing a with
  | nil => exact .refl _
  | cons x l ih => exact (h a x).trans (ih _)

theorem State.sameRx_flushPort (s : State) (n : Nat) : s.SameRx (s.flushPort n) :=
  (State.SameRx.foldlFst _ (State.sameRx_flushMsg n) _ (s, [])).updPort (fun _ => rfl) (fun _ => rfl) (fun _ => rfl)

/-- Sending what waits leaves the receiver's side of every port. -/
theorem State.sameRx_flush (s : State) : s.SameRx s.flush := by
  have ports : ∀ (l : List Nat) (x : State), x.SameRx (l.foldl State.flushPort x) := by
    intro l
    induction l with
    | nil => exact .refl
    | cons n l ih => exact fun x => (State.sameRx_flushPort x n).trans (ih _)
  have writes : ∀ x : State, x.SameRx x.flushWrites := fun x =>
    have sent := State.SameRx.foldlFst _ State.sameRx_flushWrite x.writes (x, [], [])
    ⟨sent.rxSeq, sent.nakSent, sent.rxBuf⟩
  have reads : ∀ x : State, x.SameRx x.flushReads := fun x =>
    have sent := State.SameRx.foldlFst _ State.sameRx_flushRead x.reads (x, [])
    ⟨sent.rxSeq, sent.nakSent, sent.rxBuf⟩
  exact ((ports _ s).trans (writes _)).trans (reads _)

/-! ### The number of writes and reads that wait -/

theorem length_flushWrite (a : State × List Nat × List Write) (w : Write) : (flushWrite a w).2.2.length = a.2.2.length + 1 := by
  unfold flushWrite
  dsimp only
  split
  · exact List.length_append
  · split
    · exact List.length_append
    · split <;> exact List.length_append

theorem length_flushRead (a : State × List Read) (r : Read) : (flushRead a r).2.length = a.2.length + 1 := by
  unfold flushRead
  dsimp only
  split
  · exact List.length_append
  · split
    · exact List.length_append
    · split <;> exact List.length_append

/-- A fold that adds one element each time. -/
theorem length_foldl {α β γ : Type} (f : β → α → β) (len : β → List γ) (h : ∀ b x, (len (f b x)).length = (len b).length + 1) (l : List α) (b : β) :
    (len (l.foldl f b)).length = (len b).length + l.length := by
  induction l generalizing b with
  | nil => rfl
  | cons x l ih =>
    rw [List.foldl_cons, ih, h, List.length_cons]
    omega

theorem State.flushPorts_frame (s : State) : Frame (fp.ports + fp.sent) s ((List.range 8).foldl State.flushPort s) :=
  .foldl _ _ (.refl ..) fun _ _ => .step (State.flushPort_frame ..) rfl (.refl ..)

theorem State.writes_flushWrites (s : State) : s.flushWrites.writes.length = s.writes.length :=
  (length_foldl flushWrite (fun a => a.2.2) length_flushWrite s.writes (s, [], [])).trans (Nat.zero_add _)

theorem State.reads_flushReads (s : State) : s.flushReads.reads.length = s.reads.length :=
  (length_foldl flushRead (fun a => a.2) length_flushRead s.reads (s, [])).trans (Nat.zero_add _)

/-- Sending keeps the number of writes and reads that wait for their answer. -/
theorem State.writes_flush (s : State) : s.flush.writes.length = s.writes.length := by
  unfold State.flush
  rw [(State.flushReads_frame _).writes rfl, State.writes_flushWrites, (State.flushPorts_frame s).writes rfl]

theorem State.reads_flush (s : State) : s.flush.reads.length = s.reads.length := by
  unfold State.flush
  rw [State.reads_flushReads, (State.flushWrites_frame _).reads rfl, (State.flushPorts_frame s).reads rfl]

/-! ### Nothing waits -/

/-- No write, read or message waits to be sent. -/
structure State.Idle (s : State) : Prop where
  writes : s.writes = []
  reads : s.reads = []
  msgs : ∀ m, m < 8 → (s.port m).txWait = []

/-- A change of a port that leaves its waiting messages. -/
theorem State.Idle.updPort {s : State} (h : s.Idle) (n : Nat) (f : Port → Port) (hf : ∀ x, (f x).txWait = x.txWait) : (s.updPort n f).Idle where
  writes := h.writes
  reads := h.reads
  msgs := fun m hm => by
    rw [State.port_updPort]
    split
    · next e => rw [hf, ← e]; exact h.msgs m hm
    · exact h.msgs m hm

theorem State.Idle.congr {s t : State} (h : s.Idle) (hw : t.writes = s.writes) (hr : t.reads = s.reads) (hp : t.ports = s.ports) : t.Idle where
  writes := hw.trans h.writes
  reads := hr.trans h.reads
  msgs := by
    unfold State.port
    rw [hp]
    exact h.msgs

theorem State.flushPort_idle {s : State} {n : Nat} (h : (s.port n).txWait = []) :
    s.flushPort n = s.updPort n (fun x => { x with txWait := [] }) := by
  unfold State.flushPort
  rw [h]
  rfl

theorem State.flushWrites_none {s : State} (h : s.writes = []) : s.flushWrites = s.setWrites [] := by
  unfold State.flushWrites
  rw [h]
  rfl

theorem State.flushReads_none {s : State} (h : s.reads = []) : s.flushReads = s.setReads [] := by
  unfold State.flushReads
  rw [h]
  rfl

/-- Where nothing waits, sending leaves the ports and sends nothing. -/
theorem State.Idle.flush {s : State} (h : s.Idle) : (∀ m, s.flush.port m = s.port m) ∧ s.flush.sent = s.sent := by
  have ports : ∀ (l : List Nat) (x : State), (∀ n ∈ l, (x.port n).txWait = []) →
      (∀ m, (l.foldl State.flushPort x).port m = x.port m) ∧ (l.foldl State.flushPort x).sent = x.sent := by
    intro l
    induction l with
    | nil => exact fun x _ => ⟨fun _ => rfl, rfl⟩
    | cons n l ih =>
      intro x hx
      have empty := hx n (List.mem_cons_self ..)
      have same : ∀ m, (x.flushPort n).port m = x.port m := fun m => by
        rw [State.flushPort_idle empty, State.port_updPort]
        split
        · next e => rw [e, ← empty]
        · rfl
      have rest := ih (x.flushPort n) fun k hk => by rw [same]; exact hx k (List.mem_cons_of_mem _ hk)
      exact ⟨fun m => (rest.1 m).trans (same m), rest.2.trans (by rw [State.flushPort_idle empty]; rfl)⟩
  have all := ports (List.range 8) s fun n hn => h.msgs n (List.mem_range.1 hn)
  have frame := State.flushPorts_frame s
  have writes := (frame.writes rfl).trans h.writes
  have reads := (frame.reads rfl).trans h.reads
  unfold State.flush
  generalize (List.range 8).foldl State.flushPort s = x at all writes reads
  rw [State.flushWrites_none writes, State.flushReads_none (s := x.setWrites []) reads]
  exact all

end Sys2Proof.Machine
end

section
/-! SUPPORT. The link layer's flits (R361 to R363): what a header acknowledges and credits, what a replay sends again, and what a DATA flit delivers. -/

namespace Sys2Proof.Machine

/-! ### Headers -/

/-- Beside FEC_CORR_CNT a corrected flit changes no field of its port's page. -/
theorem State.rd_corrected (s : State) (n : Nat) (corr : Bool) {f : Field} (h : f.off * 32 + f.lsb ≠ 0x54 * 32) :
    (s.corrected n corr).rd (.vlport n) f = s.rd (.vlport n) f := by
  unfold State.corrected
  split
  · exact State.rd_wr_field _ _ _ _ _ h
  · rfl

theorem State.portActive_corrected (s : State) (n : Nat) (corr : Bool) : (s.corrected n corr).portActive n = s.portActive n := by
  unfold State.portActive
  rw [State.rd_corrected _ _ _ (by decide)]

theorem State.port_corrected (s : State) (n : Nat) (corr : Bool) (m : Nat) : (s.corrected n corr).port m = s.port m :=
  congrArg (fun t => Table.get ({} : Port) t m) ((State.corrected_frame ..).ports rfl)

theorem State.Idle.corrected {s : State} (h : s.Idle) (n : Nat) (corr : Bool) : (s.corrected n corr).Idle :=
  have frame := State.corrected_frame s n corr
  h.congr (frame.writes rfl) (frame.reads rfl) (frame.ports rfl)

/-- The acknowledgement in a header takes what it covers out of the replay buffer (R362, R363). -/
theorem State.replay_flitAck (s : State) (n ack : Nat) (ackv : Bool) : ((s.flitAck n ack ackv).port n).replay =
    if ackv then (ackTo ack (s.port n).replay).getD (s.port n).replay else (s.port n).replay := by
  unfold State.flitAck
  cases hack : ackTo ack (s.port n).replay with
  | none => exact (ite_self _).symm
  | some t =>
    cases ackv with
    | false => rfl
    | true => exact congrArg Port.replay (State.port_updPort_self ..)

theorem State.credits_flitAck (s : State) (n ack : Nat) (ackv : Bool) : ((s.flitAck n ack ackv).port n).credits = (s.port n).credits := by
  unfold State.flitAck
  split
  · split
    · rw [State.port_updPort_self]
    · rfl
  · rfl

theorem State.Idle.flitAck {s : State} (h : s.Idle) (n ack : Nat) (ackv : Bool) : (s.flitAck n ack ackv).Idle := by
  unfold State.flitAck
  split
  · split
    · exact h.updPort _ _ fun _ => rfl
    · exact h
  · exact h

theorem State.sameRx_flitHeader (s : State) (n ack vc cr : Nat) (ackv : Bool) : s.SameRx (s.flitHeader n ack vc cr ackv) := by
  have acked : s.SameRx (s.flitAck n ack ackv) := by
    unfold State.flitAck
    split
    · split
      · exact (State.SameRx.refl s).updPort (fun _ => rfl) (fun _ => rfl) (fun _ => rfl)
      · exact .refl s
    · exact .refl s
  have credited : ∀ t : State, t.SameRx (t.flitCredit n vc cr) := fun t => by
    unfold State.flitCredit
    refine .trans ?_ (State.sameRx_flush _)
    exact (State.SameRx.refl t).updPort (fun _ => rfl) (fun _ => rfl) (fun _ => rfl)
  exact acked.trans (credited _)

theorem State.regs_flitHeader (s : State) (n ack vc cr : Nat) (ackv : Bool) : (s.flitHeader n ack vc cr ackv).regs = s.regs :=
  (State.flitHeader_frame ..).regs rfl

/-- The credits of a port after a header that returns `cr` on a VC (R366). -/
def Port.credited (x : Port) (vc cr : Nat) : Port := { x with credits := setAt x.credits (vc % 4) (x.credits.getD (vc % 4) 0 + cr % 64) }

/-- Where nothing waits, returned credits are added and nothing is sent. -/
theorem State.flitCredit_idle {s : State} (h : s.Idle) (n vc cr : Nat) :
    (s.flitCredit n vc cr).port n = (s.port n).credited vc cr ∧ (s.flitCredit n vc cr).sent = s.sent := by
  have credited : (s.updPort n (fun x => x.credited vc cr)).Idle := h.updPort _ _ fun _ => rfl
  exact ⟨(credited.flush.1 n).trans (State.port_updPort_self ..), credited.flush.2⟩

theorem State.regs_flitCredit (s : State) (n vc cr : Nat) : (s.flitCredit n vc cr).regs = s.regs := (State.flitCredit_frame ..).regs rfl

/-! ### Replays -/

/-- Flits that go out again. -/
def State.resent (s : State) (n : Nat) (l : List (Nat × Option Msg)) : State := { s with sent := s.sent ++ l.map (fun e => .flit n 0 e.1) }

theorem State.foldl_emit_flit (s : State) (n : Nat) (l : List (Nat × Option Msg)) : l.foldl (fun s e => s.emit (.flit n 0 e.1)) s = s.resent n l := by
  induction l generalizing s with
  | nil => exact congrArg (fun m => { s with sent := m }) (List.append_nil _).symm
  | cons e l ih =>
    rw [List.foldl_cons, ih]
    exact congrArg (fun m => { s with sent := m }) (List.append_assoc ..)

/-- A replay, counted (R363). -/
def State.replayed (s : State) (n : Nat) (l : List (Nat × Option Msg)) : State :=
  ((s.resent n l).inc (.vlport n) vlport.REPLAY_CNT 1).updPort n (fun x => { x with replays := x.replays + 1, ackTime := s.clock })

section
variable {s : State} {n : Nat} {l : List (Nat × Option Msg)}

theorem State.port_replayed : (s.replayed n l).port n = { s.port n with replays := (s.port n).replays + 1, ackTime := s.clock } :=
  State.port_updPort_self ..

theorem State.replayCnt_replayed :
    (s.replayed n l).rd (.vlport n) vlport.REPLAY_CNT = (s.rd (.vlport n) vlport.REPLAY_CNT + 1) % 2 ^ 32 :=
  State.rd_wr_self _ _ _ _ (by decide)

theorem State.portActive_replayed : (s.replayed n l).portActive n = s.portActive n := by
  unfold State.portActive
  rw [show (s.replayed n l).rd (.vlport n) vlport.LSTATE = s.rd (.vlport n) vlport.LSTATE from State.rd_wr_field _ _ _ _ _ (by decide)]

theorem State.Idle.replayed (h : s.Idle) : (s.replayed n l).Idle :=
  (h.congr (t := (s.resent n l).inc (.vlport n) vlport.REPLAY_CNT 1) rfl rfl rfl).updPort _ _ fun _ => rfl

theorem State.replayFlits_eq : s.replayFlits n l =
    if 16 ≤ ((s.replayed n l).port n).replays then (s.replayed n l).startRetrain n else s.replayed n l := by
  unfold State.replayFlits
  dsimp only
  rw [State.foldl_emit_flit]
  rfl

/-- A replay before the sixteenth in a row. -/
theorem State.replayFlits_few (h : (s.port n).replays < 15) : s.replayFlits n l = s.replayed n l := by
  rw [State.replayFlits_eq, State.port_replayed]
  exact if_neg (Nat.not_le.2 (Nat.succ_lt_succ h))

/-- The sixteenth replay in a row retrains the port (R364). -/
theorem State.replayFlits_many (h : 15 ≤ (s.port n).replays) : s.replayFlits n l = (s.replayed n l).startRetrain n := by
  rw [State.replayFlits_eq, State.port_replayed]
  exact if_pos (Nat.succ_le_succ h)

/-- What an ACTIVE port shows and holds after a replay before the sixteenth. -/
theorem State.replayFlits_shows (ha : s.portActive n = true) (h : (s.port n).replays < 15) :
    (s.replayFlits n l).rd (.vlport n) vlport.REPLAY_CNT = (s.rd (.vlport n) vlport.REPLAY_CNT + 1) % 2 ^ 32 ∧
    (s.replayFlits n l).sent = s.sent ++ l.map (fun e => .flit n 0 e.1) ∧ ((s.replayFlits n l).port n).replay = (s.port n).replay ∧
    ((s.replayFlits n l).port n).replays = (s.port n).replays + 1 ∧ (s.replayFlits n l).portActive n = true := by
  rw [State.replayFlits_few h]
  refine ⟨State.replayCnt_replayed, rfl, ?_, ?_, State.portActive_replayed.trans ha⟩
  · rw [State.port_replayed]
  · rw [State.port_replayed]

theorem State.lstate_replayFlits (ha : s.portActive n = true) (h : 15 ≤ (s.port n).replays) :
    (s.replayFlits n l).rd (.vlport n) vlport.LSTATE = 5 := by
  rw [State.replayFlits_many h]
  exact State.lstate_startRetrain (State.portActive_replayed.trans ha)

end

theorem ackTimeout_replays {s : State} {n : Nat} (ha : s.portActive n = true) (hr : (s.port n).replay ≠ [])
    (ht : (s.port n).ackTime + 5000 ≤ s.clock) : ackTimeout s n = s.replayFlits n (s.port n).replay :=
  if_neg (by simp [ha, hr, Nat.not_lt.2 ht])

/-- What a NAK acknowledges, before it replays and credits (R362). -/
def State.nakAcked (s : State) (n ack : Nat) (ackv corr : Bool) : State := (s.corrected n corr).flitAck n ack ackv

theorem nak_replays {s : State} {n : Nat} (ha : s.portActive n = true) (q ack vc cr : Nat) (ackv corr : Bool) : nak s n q ack vc cr ackv corr =
    ((s.nakAcked n ack ackv corr).replayFlits n (fromSeq q ((s.nakAcked n ack ackv corr).port n).replay)).flitCredit n vc cr :=
  if_neg (by rw [ha]; nofun)

section
variable (s : State) (n ack : Nat) (ackv corr : Bool)

theorem State.rd_nakAcked {f : Field} (h : f.off * 32 + f.lsb ≠ 0x54 * 32) :
    (s.nakAcked n ack ackv corr).rd (.vlport n) f = s.rd (.vlport n) f :=
  (State.rd_congr ((State.flitAck_frame ..).regs rfl) _ _).trans (State.rd_corrected _ _ _ h)

theorem State.portActive_nakAcked : (s.nakAcked n ack ackv corr).portActive n = s.portActive n := by
  unfold State.portActive
  rw [State.rd_nakAcked _ _ _ _ _ (by decide)]

theorem State.sent_nakAcked : (s.nakAcked n ack ackv corr).sent = s.sent :=
  ((State.flitAck_frame ..).sent rfl).trans ((State.corrected_frame ..).sent rfl)

theorem State.replay_nakAcked : ((s.nakAcked n ack ackv corr).port n).replay =
    if ackv then (ackTo ack (s.port n).replay).getD (s.port n).replay else (s.port n).replay := by
  rw [State.nakAcked, State.replay_flitAck, State.port_corrected]

theorem State.credits_nakAcked : ((s.nakAcked n ack ackv corr).port n).credits = (s.port n).credits := by
  rw [State.nakAcked, State.credits_flitAck, State.port_corrected]

end

/-! ### DATA flits -/

/-- A NAK is in hand, and the flit that is expected stays (R363). -/
theorem State.sendNak_port (s : State) (n : Nat) : ((s.sendNak n).port n).nakSent = true ∧ ((s.sendNak n).port n).rxSeq = (s.port n).rxSeq := by
  unfold State.sendNak
  split
  · next h => exact ⟨h, rfl⟩
  · rw [State.port_emit, State.port_updPort_self]
    exact ⟨rfl, rfl⟩

/-- A good flit in order, taken: the next one is expected, and its header acts (R362). -/
def State.flitTaken (s : State) (n ack vc cr : Nat) (ackv corr : Bool) : State :=
  ((s.corrected n corr).updPort n (fun x => { x with rxSeq := (x.rxSeq + 1) % 1024, nakSent := false })).flitHeader n ack vc cr ackv

section
variable {s : State} {n fseq ack vc cr : Nat} {ackv corr : Bool} {bytes : List Byte} (ha : s.portActive n = true)
include ha

theorem dataFlit_bad : dataFlit s n fseq ack vc cr ackv false corr bytes =
    (((s.corrected n corr).inc (.vlport n) vlport.CRC_ERR_CNT 1).err (.vlport n) 0).sendNak n :=
  (if_neg (by rw [ha]; nofun)).trans (if_pos rfl)

theorem dataFlit_unordered (hq : fseq ≠ (s.port n).rxSeq) : dataFlit s n fseq ack vc cr ackv true corr bytes = (s.corrected n corr).sendNak n :=
  (if_neg (by rw [ha]; nofun)).trans ((if_neg (by nofun)).trans (if_pos (by rw [State.port_corrected]; exact hq)))

/-- What a good flit in order does: its bytes join those of the message in hand. -/
theorem dataFlit_taken (hq : fseq = (s.port n).rxSeq) (hb : (s.port n).rxBuf = []) : dataFlit s n fseq ack vc cr ackv true corr bytes =
    ((s.flitTaken n ack vc cr ackv corr).parse n bytes.length bytes).2.updPort n
      (fun x => { x with rxBuf := ((s.flitTaken n ack vc cr ackv corr).parse n bytes.length bytes).1 }) := by
  have buf : ((s.flitTaken n ack vc cr ackv corr).port n).rxBuf = [] := by
    rw [State.flitTaken, (State.sameRx_flitHeader ..).rxBuf, State.port_updPort_self, State.port_corrected]
    exact hb
  have taken : dataFlit s n fseq ack vc cr ackv true corr bytes =
      ((s.flitTaken n ack vc cr ackv corr).parse n (((s.flitTaken n ack vc cr ackv corr).port n).rxBuf ++ bytes).length
        (((s.flitTaken n ack vc cr ackv corr).port n).rxBuf ++ bytes)).2.updPort n (fun x => { x with
          rxBuf := ((s.flitTaken n ack vc cr ackv corr).parse n (((s.flitTaken n ack vc cr ackv corr).port n).rxBuf ++ bytes).length
            (((s.flitTaken n ack vc cr ackv corr).port n).rxBuf ++ bytes)).1 }) :=
    (if_neg (by rw [ha]; nofun)).trans ((if_neg (by nofun)).trans (if_neg (by rw [State.port_corrected]; exact Classical.not_not.2 hq)))
  rw [taken, buf, List.nil_append]

end

theorem State.flitTaken_shows (s : State) (n ack vc cr : Nat) (ackv corr : Bool) :
    (s.flitTaken n ack vc cr ackv corr).regs = (s.corrected n corr).regs ∧
    ((s.flitTaken n ack vc cr ackv corr).port n).rxSeq = ((s.port n).rxSeq + 1) % 1024 ∧
    ((s.flitTaken n ack vc cr ackv corr).port n).nakSent = false := by
  unfold State.flitTaken
  refine ⟨State.regs_flitHeader .., ?_, ?_⟩
  · rw [(State.sameRx_flitHeader ..).rxSeq, State.port_updPort_self, State.port_corrected]
  · rw [(State.sameRx_flitHeader ..).nakSent, State.port_updPort_self]

/-- Padding fills the rest of a flit (R367). -/
theorem State.parse_padding (s : State) (n : Nat) {l : List Byte} (h : l = [] ∨ l.head? = some 0) (k : Nat) (hk : l.length ≤ k) :
    s.parse n k l = ([], s) := by
  obtain rfl | h := h
  · cases k <;> rfl
  · obtain ⟨t, rfl⟩ := List.head?_eq_some_iff.1 h
    cases k with
    | zero => exact absurd hk (by simp)
    | succ k => rfl

/-- The opcode of a header. -/
theorem leNat_take_one {h : List Byte} {b : Byte} (hb : h.head? = some b) : leNat (h.take 1) = b.toNat := by
  obtain ⟨t, rfl⟩ := List.head?_eq_some_iff.1 hb
  rfl

/-- A flit that carries one message without data, and padding, delivers it (R367). -/
theorem State.parse_message (s : State) (n : Nat) {h : List Byte} {b : Byte} (hl : h.length = 16) (hb : h.head? = some b) (h0 : b ≠ 0)
    (h19 : b ≠ 0x19) : s.parse n (h ++ [0]).length (h ++ [0]) = ([], s.deliver n h []) := by
  obtain ⟨t, rfl⟩ := List.head?_eq_some_iff.1 hb
  have len : (b :: t ++ [0]).length = 16 + 1 := by rw [List.length_append, hl]; rfl
  have head : (b :: t ++ [0]).take 16 = b :: t := by rw [← hl]; exact List.take_left
  have rest : (b :: t ++ [0]).drop 16 = [0] := by rw [← hl]; exact List.drop_left
  rw [len]
  show (if b = 0 then _ else if (b :: t ++ [0]).length < (if b = 0x19 then _ else 16) then _ else _) = _
  rw [if_neg h0, if_neg h19, len, if_neg (by decide), head, rest, List.drop_eq_nil_of_le (Nat.le_of_eq hl)]
  exact State.parse_padding (l := [0]) _ n (.inr rfl) 16 (by decide)

/-- A port that denies or answers an access leaves all but the ports and what is sent. -/
theorem State.sendMsg_regs (s : State) (n vc k : Nat) (m : Msg) : (s.sendMsg n vc k m).regs = s.regs := (State.sendMsg_frame ..).regs rfl

end Sys2Proof.Machine
end

section
/-! SUPPORT. The messages that a port receives (R366 to R370, R376, R381): where each takes effect, and what it leaves. -/

namespace Sys2Proof.Machine

section
variable {s : State} {n : Nat} (ha : s.portActive n = true)
include ha

/-! ### MMIO -/

theorem mmioWr_denied (tag : Nat) {addr : Nat} (v : Nat) (h : (s.emit (.credit n 0 1)).mmioAllowed n addr = false) :
    mmioWr s n tag addr v = (s.emit (.credit n 0 1)).mmioDeny n tag :=
  (if_neg (by rw [ha]; nofun)).trans (if_pos (by rw [State.returnCredit, h]; rfl))

theorem mmioRd_denied (tag : Nat) {addr : Nat} (h : (s.emit (.credit n 0 1)).mmioAllowed n addr = false) :
    mmioRd s n tag addr = (s.emit (.credit n 0 1)).mmioDeny n tag :=
  (if_neg (by rw [ha]; nofun)).trans (if_pos (by rw [State.returnCredit, h]; rfl))

/-- An allowed write is the register write, and its answer (R376, R448). -/
theorem mmioWr_allowed (tag : Nat) {addr : Nat} (v : Nat) (h : (s.emit (.credit n 0 1)).mmioAllowed n addr = true) : mmioWr s n tag addr v =
    (registerWrite (s.emit (.credit n 0 1)) addr v).sendMsg n 2 1 (.mmioRsp n tag ((s.emit (.credit n 0 1)).writeReg addr v).1 0) :=
  (if_neg (by rw [ha]; nofun)).trans (if_neg (by rw [State.returnCredit, h]; nofun))

/-- An allowed read is the register read, and its answer. -/
theorem mmioRd_allowed (tag : Nat) {addr : Nat} (h : (s.emit (.credit n 0 1)).mmioAllowed n addr = true) : mmioRd s n tag addr =
    ((s.emit (.credit n 0 1)).readReg addr).2.2.sendMsg n 2 1
      (.mmioRsp n tag ((s.emit (.credit n 0 1)).readReg addr).1 ((s.emit (.credit n 0 1)).readReg addr).2.1) :=
  (if_neg (by rw [ha]; nofun)).trans (if_neg (by rw [State.returnCredit, h]; nofun))

omit ha in
/-- A denied access is counted and noted (R376). -/
theorem State.mmioDeny_shows (s : State) (n tag : Nat) :
    (s.mmioDeny n tag).rd (.vlport n) vlport.MMIO_DENY_CNT = (s.rd (.vlport n) vlport.MMIO_DENY_CNT + 1) % 2 ^ 32 ∧
    bit ((s.mmioDeny n tag).rd (.vlport n) page.ERR_STAT) 4 = true ∧ (s.mmioDeny n tag).parts = s.parts := by
  unfold State.mmioDeny
  refine ⟨?_, ?_, (State.mmioDeny_frame s n tag).parts rfl⟩
  · rw [State.rd_congr (State.sendMsg_regs ..), State.rd_err _ _ _ _ _ _ (by decide) (by decide)]
    exact State.rd_wr_self _ _ _ _ (by decide)
  · rw [State.rd_congr (State.sendMsg_regs ..)]
    exact State.stat_err _ _ _ _ (by decide)

/-! ### SNP_INV, CMP and DATA -/

omit ha in
/-- A snooped line leaves the cache of the port's control tile (R370). -/
def State.snooped (s : State) (n addr : Nat) : State :=
  (s.updCtl (n / 4) (fun x => { x with cache := x.cache.filter (· ≠ addr / 64) })).setReads (s.reads.map (fun (r : Read) =>
    if r.cached && r.addr / 64 = addr / 64 && s.primary r.part = n / 4 then { r with stale := true } else r))

theorem snpInv_active (addr : Nat) :
    snpInv s n addr = (((s.snooped n addr).inc (.vlport n) vlport.SNP_CNT 1).returnCredit n 1 1).sendMsg n 2 1 (.snpRsp n addr) :=
  if_neg (by rw [ha]; nofun)

theorem cmp_unknown {tag status : Nat} (h : splitFirst (fun w => decide (w.port = some n ∧ w.tag = tag)) s.writes = none) :
    cmp s n tag status = s.emit (.credit n 2 1) := by
  unfold cmp
  rw [if_neg (by rw [ha]; nofun)]
  dsimp only
  rw [show (s.returnCredit n 2 1).writes = s.writes from rfl, h]
  rfl

theorem cmp_known {tag status : Nat} {a b : List Write} {w : Write}
    (h : splitFirst (fun w => decide (w.port = some n ∧ w.tag = tag)) s.writes = some (a, w, b)) : cmp s n tag status =
      if status = 0 then ((s.emit (.credit n 2 1)).setWrites (a ++ b)).flush
      else ((((s.emit (.credit n 2 1)).setWrites (a ++ b)).flush).inc (.vlport n) vlport.WR_ERR_CNT 1).err (.vlport n) 6 := by
  unfold cmp
  rw [if_neg (by rw [ha]; nofun)]
  dsimp only
  rw [show (s.returnCredit n 2 1).writes = s.writes from rfl, h]
  rfl

section
variable {tag status : Nat} {l : List Byte}

theorem data_unknown (h : splitFirst (fun r => decide (r.port = some n ∧ r.tag = tag)) s.reads = none) :
    data s n tag status l = s.emit (.credit n 3 (1 + cdiv l.length 16)) := by
  unfold data
  rw [if_neg (by rw [ha]; nofun)]
  dsimp only
  rw [show (s.returnCredit n 3 (1 + cdiv l.length 16)).reads = s.reads from rfl, h]
  rfl

variable {a b : List Read} {r : Read} (h : splitFirst (fun r => decide (r.port = some n ∧ r.tag = tag)) s.reads = some (a, r, b))
include h

/-- A line that a snoop hit meanwhile is read again (R370). -/
theorem data_stale (hs : r.stale = true) : data s n tag status l =
    ((s.emit (.credit n 3 (1 + cdiv l.length 16))).setReads (a ++ { r with port := none, stale := false } :: b)).flush := by
  unfold data
  rw [if_neg (by rw [ha]; nofun)]
  dsimp only
  rw [show (s.returnCredit n 3 (1 + cdiv l.length 16)).reads = s.reads from rfl, h]
  exact if_pos hs

/-- A read that is answered, and not one of a command with an error. -/
theorem data_answered (hs : r.stale = false) (hk : status = 0 ∨ r.what ≠ 1) : data s n tag status l =
    if status = 0 ∧ r.cached = true then
      (((s.emit (.credit n 3 (1 + cdiv l.length 16))).setReads (a ++ b)).flush).cacheLine (n / 4) (r.addr / 64)
    else ((s.emit (.credit n 3 (1 + cdiv l.length 16))).setReads (a ++ b)).flush := by
  unfold data
  rw [if_neg (by rw [ha]; nofun)]
  dsimp only
  rw [show (s.returnCredit n 3 (1 + cdiv l.length 16)).reads = s.reads from rfl, h]
  dsimp only
  rw [if_neg (by rw [hs]; nofun)]
  by_cases h0 : status = 0
  · rw [if_pos h0]
    exact ite_congr (propext (by simp [h0])) (fun _ => rfl) fun _ => rfl
  · rw [if_neg h0, if_pos (hk.resolve_left h0), if_neg fun c => h0 c.1]
    rfl

end

end

/-- A line that enters the cache is there (R370). -/
theorem State.mem_cacheLine (s : State) (c l : Nat) : l ∈ ((s.cacheLine c l).ctl c).cache := by
  unfold State.cacheLine
  dsimp only
  split
  · next h => exact List.contains_iff_mem.1 h
  · split
    · rw [State.ctl_updCtl_self]
      exact List.mem_append_right _ (List.mem_singleton_self _)
    · rw [State.ctl_updCtl_self]
      exact List.mem_append_right _ (List.mem_singleton_self _)

end Sys2Proof.Machine
end

section
/-! The statement of spec/15_vreljo_link.md about flits and messages (O49). -/

namespace Sys2Proof.Machine

/-- On a port that is not ACTIVE flits and messages change nothing (R361 to R368). -/
theorem exec_linkMessage_ignored {s : State} {n : Nat} {i : Instr} (h : s.portActive n = false)
    (hi : (∃ fseq ack vc cr ackv good corr bytes, i = .dataFlit n fseq ack vc cr ackv good corr bytes) ∨ (∃ ack vc cr ackv corr, i = .idleFlit n ack vc cr ackv corr) ∨
      (∃ q ack vc cr ackv corr, i = .nak n q ack vc cr ackv corr) ∨ i = .ackTimeout n ∨ (∃ tag a v, i = .mmioWr n tag a v) ∨
      (∃ tag a, i = .mmioRd n tag a) ∨ (∃ a, i = .snpInv n a) ∨ (∃ tag st, i = .cmp n tag st) ∨ (∃ tag st l, i = .data n tag st l)) :
    exec i s = .next s := by
  have off : (!s.portActive n) = true := by rw [h]; rfl
  obtain ⟨_, _, _, _, _, _, _, _, rfl⟩ | ⟨_, _, _, _, _, rfl⟩ | ⟨_, _, _, _, _, _, rfl⟩ | rfl | ⟨_, _, _, rfl⟩ | ⟨_, _, rfl⟩ | ⟨_, rfl⟩ |
    ⟨_, _, rfl⟩ | ⟨_, _, _, rfl⟩ := hi
  · exact congrArg Host.Outcome.next (if_pos off)
  · exact congrArg Host.Outcome.next (if_neg (by rw [h]; nofun))
  · exact congrArg Host.Outcome.next (if_pos off)
  · exact congrArg Host.Outcome.next (if_pos (by rw [off]; rfl))
  · exact congrArg Host.Outcome.next (if_pos off)
  · exact congrArg Host.Outcome.next (if_pos off)
  · exact congrArg Host.Outcome.next (if_pos off)
  · exact congrArg Host.Outcome.next (if_pos off)
  · exact congrArg Host.Outcome.next (if_pos off)

/-- A DATA flit on an ACTIVE port, by its verdict and its number (R361, R363, R367). -/
theorem exec_dataFlit_spec {s : State} {n : Nat} (fseq ack vc cr : Nat) (ackv good corr : Bool) (bytes : List Byte) (ha : s.portActive n = true) :
    (good = false → ∃ t, exec (.dataFlit n fseq ack vc cr ackv good corr bytes) s = .next t ∧
      t.rd (.vlport n) vlport.CRC_ERR_CNT = (s.rd (.vlport n) vlport.CRC_ERR_CNT + 1) % 2 ^ 32 ∧
      bit (t.rd (.vlport n) page.ERR_STAT) 0 = true ∧ (t.port n).nakSent = true ∧ (t.port n).rxSeq = (s.port n).rxSeq) ∧
    (good = true → fseq ≠ (s.port n).rxSeq → ∃ t, exec (.dataFlit n fseq ack vc cr ackv good corr bytes) s = .next t ∧
      (t.port n).nakSent = true ∧ (t.port n).rxSeq = (s.port n).rxSeq) := by
  refine ⟨?_, ?_⟩
  · rintro rfl
    have nak := State.sendNak_port (((s.corrected n corr).inc (.vlport n) vlport.CRC_ERR_CNT 1).err (.vlport n) 0) n
    refine ⟨_, congrArg Host.Outcome.next (dataFlit_bad ha), ?_, ?_, nak.1, nak.2.trans ?_⟩
    · rw [State.rd_congr ((State.sendNak_frame ..).regs rfl), State.rd_err _ _ _ _ _ _ (by decide) (by decide), State.inc,
        State.rd_wr_self _ _ _ _ (by decide), State.rd_corrected _ _ _ (by decide)]
      rfl
    · rw [State.rd_congr ((State.sendNak_frame ..).regs rfl)]
      exact State.stat_err _ _ _ _ (by decide)
    · rw [State.port, (State.err_frame ..).ports rfl]
      exact congrArg Port.rxSeq (State.port_corrected ..)
  · rintro rfl hq
    have nak := State.sendNak_port (s.corrected n corr) n
    exact ⟨_, congrArg Host.Outcome.next (dataFlit_unordered ha hq), nak.1, nak.2.trans (congrArg Port.rxSeq (State.port_corrected ..))⟩

section
variable {s : State} {n : Nat} (ack vc cr : Nat) (ackv corr : Bool) {bytes : List Byte} (ha : s.portActive n = true) (hb : (s.port n).rxBuf = [])
include ha hb

/-- A flit in order with only padding. -/
theorem exec_dataFlit_padding (h : bytes = [] ∨ bytes.head? = some 0) : exec (.dataFlit n (s.port n).rxSeq ack vc cr ackv true corr bytes) s =
    .next ((s.flitTaken n ack vc cr ackv corr).updPort n (fun x => { x with rxBuf := [] })) := by
  refine congrArg Host.Outcome.next ((dataFlit_taken ha rfl hb).trans ?_)
  rw [State.parse_padding _ _ h _ (Nat.le_refl _)]

/-- A flit in order with one whole message: its command, and no byte left in hand. -/
theorem exec_dataFlit_message {h : List Byte} {b : Byte} (hl : h.length = 16) (hh : h.head? = some b) (h0 : b ≠ 0) (h19 : b ≠ 0x19) :
    exec (.dataFlit n (s.port n).rxSeq ack vc cr ackv true corr (h ++ [0])) s =
      .next (((s.flitTaken n ack vc cr ackv corr).deliver n h []).updPort n (fun x => { x with rxBuf := [] })) := by
  refine congrArg Host.Outcome.next ((dataFlit_taken ha rfl hb).trans ?_)
  rw [State.parse_message _ _ hl hh h0 h19]

end

/-- The message of a header acts as the command of its opcode (R368). -/
theorem State.deliver_command {u : State} {n : Nat} {h : List Byte} {i : Instr}
    (hi : (h.head? = some 0x10 ∧ i = .mmioWr n (leNat ((h.drop 2).take 2) % 4096) (leNat ((h.drop 4).take 8)) (leNat ((h.drop 12).take 4))) ∨
      (h.head? = some 0x11 ∧ i = .mmioRd n (leNat ((h.drop 2).take 2) % 4096) (leNat ((h.drop 4).take 8))) ∨
      (h.head? = some 0x12 ∧ i = .snpInv n (leNat ((h.drop 4).take 8))) ∨
      (h.head? = some 0x18 ∧ i = .cmp n (leNat ((h.drop 2).take 2) % 4096) (leNat ((h.drop 1).take 1) / 16))) :
    exec i u = .next (u.deliver n h []) := by
  unfold State.deliver
  obtain ⟨hh, rfl⟩ | ⟨hh, rfl⟩ | ⟨hh, rfl⟩ | ⟨hh, rfl⟩ := hi
  · rw [leNat_take_one hh]
    rfl
  · rw [leNat_take_one hh]
    rfl
  · rw [leNat_take_one hh]
    rfl
  · rw [leNat_take_one hh]
    rfl

/-- An opcode that no message has is a protocol error. -/
theorem State.deliver_unknown (u : State) (n : Nat) {h : List Byte} (hh : h.head? = some 0x1A) :
    u.deliver n h [] = (u.inc (.vlport n) vlport.PROTO_ERR_CNT 1).err (.vlport n) 5 := by
  unfold State.deliver
  rw [leNat_take_one hh]
  rfl

/-- The header bytes that a message's command begins with. -/
theorem head_of_command {h : List Byte} {i a b c d : Instr} (hi : (h.head? = some 0x10 ∧ i = a) ∨ (h.head? = some 0x11 ∧ i = b) ∨
    (h.head? = some 0x12 ∧ i = c) ∨ (h.head? = some 0x18 ∧ i = d)) : ∃ b : Byte, h.head? = some b ∧ b ≠ 0 ∧ b ≠ 0x19 := by
  obtain ⟨hh, -⟩ | ⟨hh, -⟩ | ⟨hh, -⟩ | ⟨hh, -⟩ := hi
  · exact ⟨_, hh, by decide, by decide⟩
  · exact ⟨_, hh, by decide, by decide⟩
  · exact ⟨_, hh, by decide, by decide⟩
  · exact ⟨_, hh, by decide, by decide⟩

/-- Of the port itself a credit changes the credits alone. -/
theorem Port.credited_spec (x : Port) (vc cr : Nat) : (x.credited vc cr).replay = x.replay ∧ (x.credited vc cr).replays = x.replays ∧
    (x.credited vc cr).credits = setAt x.credits (vc % 4) (x.credits.getD (vc % 4) 0 + cr % 64) := ⟨rfl, rfl, rfl⟩

/-- An idle flit acknowledges and returns credits (R363, R366). -/
theorem exec_idleFlit_spec {s : State} {n : Nat} (ack vc cr : Nat) (ackv corr : Bool) (ha : s.portActive n = true) (idle : s.Idle) :
    ∃ t, exec (.idleFlit n ack vc cr ackv corr) s = .next t ∧
      (t.port n).credits = setAt (s.port n).credits (vc % 4) ((s.port n).credits.getD (vc % 4) 0 + cr % 64) ∧
      (t.port n).replay = (if ackv then (ackTo ack (s.port n).replay).getD (s.port n).replay else (s.port n).replay) ∧ t.sent = s.sent := by
  have credited := State.flitCredit_idle ((idle.corrected n corr).flitAck n ack ackv) n vc cr
  refine ⟨_, congrArg Host.Outcome.next (if_pos ha), ?_, ?_, credited.2.trans (State.sent_nakAcked ..)⟩
  · rw [State.flitHeader, credited.1, (Port.credited_spec ..).2.2, ← State.credits_nakAcked s n ack ackv corr]
    rfl
  · rw [State.flitHeader, credited.1, (Port.credited_spec ..).1, ← State.replay_nakAcked s n ack ackv corr]
    rfl

/-- A NAK acknowledges, sends again from the flit that it names on, and returns credits (R362, R363). -/
theorem exec_nak_spec {s : State} {n : Nat} (q ack vc cr : Nat) (ackv corr : Bool) (ha : s.portActive n = true) (idle : s.Idle) :
    let x := (s.nakAcked n ack ackv corr).port n
    (x.replays < 15 → ∃ t, exec (.nak n q ack vc cr ackv corr) s = .next t ∧
      t.rd (.vlport n) vlport.REPLAY_CNT = (s.rd (.vlport n) vlport.REPLAY_CNT + 1) % 2 ^ 32 ∧
      t.sent = s.sent ++ (fromSeq q x.replay).map (fun e => .flit n 0 e.1) ∧ (t.port n).replay = x.replay ∧ (t.port n).replays = x.replays + 1 ∧
      (t.port n).credits = setAt (s.port n).credits (vc % 4) ((s.port n).credits.getD (vc % 4) 0 + cr % 64) ∧ t.portActive n = true) ∧
    (15 ≤ x.replays → ∃ t, exec (.nak n q ack vc cr ackv corr) s = .next t ∧ t.rd (.vlport n) vlport.LSTATE = 5) := by
  intro x
  have acked : (s.nakAcked n ack ackv corr).portActive n = true := (State.portActive_nakAcked ..).trans ha
  refine ⟨fun few => ?_, fun many => ?_⟩
  · obtain ⟨count, sent, replay, replays, active⟩ := State.replayFlits_shows (l := fromSeq q x.replay) acked few
    have credited := State.flitCredit_idle (s := (s.nakAcked n ack ackv corr).replayFlits n (fromSeq q x.replay))
      (by rw [State.replayFlits_few few]; exact ((idle.corrected n corr).flitAck n ack ackv).replayed) n vc cr
    have regs := State.regs_flitCredit ((s.nakAcked n ack ackv corr).replayFlits n (fromSeq q x.replay)) n vc cr
    refine ⟨_, congrArg Host.Outcome.next (nak_replays ha ..), ?_, ?_, ?_, ?_, ?_, ?_⟩
    · rw [State.rd_congr regs, count, State.rd_nakAcked _ _ _ _ _ (by decide)]
    · rw [credited.2, sent, State.sent_nakAcked]
    · rw [credited.1, (Port.credited_spec ..).1, replay]
    · rw [credited.1, (Port.credited_spec ..).2.1, replays]
    · rw [credited.1, (Port.credited_spec ..).2.2, State.replayFlits_few few, State.port_replayed, ← State.credits_nakAcked s n ack ackv corr]
    · exact (congrArg (· == 4) (State.rd_congr regs ..)).trans active
  · refine ⟨_, congrArg Host.Outcome.next (nak_replays ha ..), ?_⟩
    rw [State.rd_congr (State.regs_flitCredit ..)]
    exact State.lstate_replayFlits acked many

/-- Without an acknowledgement for 5,000 cycles the whole replay buffer goes out again (R363). -/
theorem exec_ackTimeout_spec {s : State} {n : Nat} (ha : s.portActive n = true) (hr : (s.port n).replay ≠ []) (ht : (s.port n).ackTime + 5000 ≤ s.clock) :
    ((s.port n).replays < 15 → ∃ t, exec (.ackTimeout n) s = .next t ∧
      t.rd (.vlport n) vlport.REPLAY_CNT = (s.rd (.vlport n) vlport.REPLAY_CNT + 1) % 2 ^ 32 ∧
      t.sent = s.sent ++ (s.port n).replay.map (fun e => .flit n 0 e.1) ∧ (t.port n).replay = (s.port n).replay ∧
      (t.port n).replays = (s.port n).replays + 1 ∧ t.portActive n = true) ∧
    (15 ≤ (s.port n).replays → ∃ t, exec (.ackTimeout n) s = .next t ∧ t.rd (.vlport n) vlport.LSTATE = 5) :=
  ⟨fun few => ⟨_, congrArg Host.Outcome.next (ackTimeout_replays ha hr ht), State.replayFlits_shows ha few⟩,
    fun many => ⟨_, congrArg Host.Outcome.next (ackTimeout_replays ha hr ht), State.lstate_replayFlits ha many⟩⟩

/-- An access that PORT_PARTS or MGMT does not allow is denied (R376). -/
theorem exec_mmio_denied {s : State} {n tag addr v : Nat} {i : Instr} (ha : s.portActive n = true)
    (hi : i = .mmioWr n tag addr v ∨ i = .mmioRd n tag addr) (h : (s.emit (.credit n 0 1)).mmioAllowed n addr = false) :
    exec i s = .next ((s.emit (.credit n 0 1)).mmioDeny n tag) := by
  obtain rfl | rfl := hi
  · exact congrArg Host.Outcome.next (mmioWr_denied ha tag v h)
  · exact congrArg Host.Outcome.next (mmioRd_denied ha tag h)

/-- An allowed access acts on the registers as the SMC's does (R376). -/
theorem exec_mmio_allowed {s : State} {n addr : Nat} (tag v : Nat) (ha : s.portActive n = true)
    (h : (s.emit (.credit n 0 1)).mmioAllowed n addr = true) :
    (∃ t u, exec (.mmioWr n tag addr v) s = .next t ∧ exec (.registerWrite addr v) (s.emit (.credit n 0 1)) = .next u ∧ t.regs = u.regs ∧
      t.parts = u.parts ∧ t.cores = u.cores ∧ t.sites = u.sites ∧ t.reqs = u.reqs) ∧
    (∃ t, exec (.mmioRd n tag addr) s = .next t ∧ t.regs = ((s.emit (.credit n 0 1)).readReg addr).2.2.regs ∧ t.parts = s.parts ∧
      t.cores = s.cores ∧ t.sites = s.sites) := by
  have answer := fun (u : State) m => State.sendMsg_frame u n 2 1 m
  have read := State.readReg_frame (s.emit (.credit n 0 1)) addr
  refine ⟨⟨_, _, congrArg Host.Outcome.next (mmioWr_allowed ha tag v h), rfl, ?_⟩, ⟨_, congrArg Host.Outcome.next (mmioRd_allowed ha tag h), ?_⟩⟩
  · exact ⟨(answer ..).regs rfl, (answer ..).parts rfl, (answer ..).cores rfl, (answer ..).sites rfl, (answer ..).reqs rfl⟩
  · exact ⟨(answer ..).regs rfl, ((answer ..).parts rfl).trans (read.parts rfl), ((answer ..).cores rfl).trans (read.cores rfl),
      ((answer ..).sites rfl).trans (read.sites rfl)⟩

theorem State.cache_snooped (s : State) (n addr : Nat) : addr / 64 ∉ ((s.snooped n addr).ctl (n / 4)).cache := by
  have dropped : ((s.snooped n addr).ctl (n / 4)).cache = (s.ctl (n / 4)).cache.filter (· ≠ addr / 64) :=
    congrArg Ctl.cache (State.ctl_updCtl_self s (n / 4) fun x => { x with cache := x.cache.filter (· ≠ addr / 64) })
  rw [dropped]
  simp

theorem State.reads_snooped (s : State) (n addr : Nat) : (s.snooped n addr).reads.length = s.reads.length := List.length_map _

/-- A snooped line is gone, and counted (R370). -/
theorem exec_snpInv_spec {s : State} {n : Nat} (addr : Nat) (ha : s.portActive n = true) : ∃ t, exec (.snpInv n addr) s = .next t ∧
    addr / 64 ∉ (t.ctl (n / 4)).cache ∧ t.rd (.vlport n) vlport.SNP_CNT = (s.rd (.vlport n) vlport.SNP_CNT + 1) % 2 ^ 32 ∧
    t.reads.length = s.reads.length := by
  refine ⟨_, congrArg Host.Outcome.next (snpInv_active ha addr), ?_, ?_, ?_⟩
  · rw [State.ctl, (State.sendMsg_frame ..).ctls rfl]
    exact State.cache_snooped s n addr
  · exact (State.rd_congr (State.sendMsg_regs ..) _ _).trans (State.rd_wr_self _ _ _ _ (by decide))
  · rw [(State.sendMsg_frame ..).reads rfl]
    exact State.reads_snooped s n addr

/-- CMP ends the write of its tag (R366, R368). -/
theorem exec_cmp_known {s : State} {n tag status : Nat} {a b : List Write} {w : Write} (ha : s.portActive n = true)
    (h : splitFirst (fun w => decide (w.port = some n ∧ w.tag = tag)) s.writes = some (a, w, b)) :
    ∃ t, exec (.cmp n tag status) s = .next t ∧ t.writes.length = a.length + b.length ∧ (status = 0 → t.regs = s.regs) ∧
      (status ≠ 0 → t.rd (.vlport n) vlport.WR_ERR_CNT = (s.rd (.vlport n) vlport.WR_ERR_CNT + 1) % 2 ^ 32 ∧
        bit (t.rd (.vlport n) page.ERR_STAT) 6 = true) := by
  have length : (((s.emit (.credit n 2 1)).setWrites (a ++ b)).flush).writes.length = a.length + b.length :=
    (State.writes_flush _).trans List.length_append
  have regs : (((s.emit (.credit n 2 1)).setWrites (a ++ b)).flush).regs = s.regs := (State.flush_frame _).regs rfl
  refine ⟨_, congrArg Host.Outcome.next (cmp_known ha h), ?_⟩
  generalize ((s.emit (.credit n 2 1)).setWrites (a ++ b)).flush = u at length regs ⊢
  by_cases h0 : status = 0
  · rw [if_pos h0]
    exact ⟨length, fun _ => regs, (absurd h0 ·)⟩
  · rw [if_neg h0]
    refine ⟨?_, (absurd · h0), fun _ => ⟨?_, State.stat_err _ _ _ _ (by decide)⟩⟩
    · rw [(State.err_frame ..).writes rfl]
      exact length
    · rw [State.rd_err _ _ _ _ _ _ (by decide) (by decide), State.inc, State.rd_wr_self _ _ _ _ (by decide), State.rd_congr regs]
      rfl

/-- DATA ends the read of its tag, or has a stale one wait again (R368, R370). -/
theorem exec_data_known {s : State} {n tag status : Nat} {l : List Byte} {a b : List Read} {r : Read} (ha : s.portActive n = true)
    (h : splitFirst (fun r => decide (r.port = some n ∧ r.tag = tag)) s.reads = some (a, r, b)) :
    (r.stale = true → ∃ t, exec (.data n tag status l) s = .next t ∧ t.reads.length = a.length + 1 + b.length ∧ t.regs = s.regs) ∧
    (r.stale = false → status = 0 ∨ r.what ≠ 1 → ∃ t, exec (.data n tag status l) s = .next t ∧ t.reads.length = a.length + b.length ∧
      t.regs = s.regs ∧ (status = 0 → r.cached = true → r.addr / 64 ∈ (t.ctl (n / 4)).cache)) := by
  have credited : ∀ m, (((s.emit (.credit n 3 (1 + cdiv l.length 16))).setReads m).flush).reads.length = m.length ∧
      (((s.emit (.credit n 3 (1 + cdiv l.length 16))).setReads m).flush).regs = s.regs :=
    fun m => ⟨State.reads_flush _, (State.flush_frame _).regs rfl⟩
  refine ⟨fun hs => ?_, fun hs hk => ?_⟩
  · refine ⟨_, congrArg Host.Outcome.next (data_stale ha h hs), (credited _).1.trans ?_, (credited _).2⟩
    rw [List.length_append, List.length_cons]
    omega
  · refine ⟨_, congrArg Host.Outcome.next (data_answered ha h hs hk), ?_⟩
    have length := (credited (a ++ b)).1.trans List.length_append
    by_cases hc : status = 0 ∧ r.cached = true
    · rw [if_pos hc]
      refine ⟨?_, ((State.cacheLine_frame ..).regs rfl).trans (credited _).2, fun _ _ => State.mem_cacheLine ..⟩
      rw [(State.cacheLine_frame ..).reads rfl]
      exact length
    · rw [if_neg hc]
      exact ⟨length, (credited _).2, fun h0 h1 => absurd ⟨h0, h1⟩ hc⟩

/-- Settles O49, message by message. -/
theorem linkMessages : Obligations.LinkMessages := by
  refine ⟨fun s n i h hi => exec_linkMessage_ignored h hi, fun s n fseq ack vc cr ackv good corr bytes ha => ?_,
    fun s n ack vc cr ackv corr ha hw hr hm => exec_idleFlit_spec ack vc cr ackv corr ha ⟨hw, hr, hm⟩,
    fun s n q ack vc cr ackv corr _ ha hw hr hm => ?_, ?_, ?_, fun s n tag addr v ha h => exec_mmio_allowed tag v ha h,
    fun s n addr ha => exec_snpInv_spec addr ha,
    fun s n tag status ha => ⟨fun h => congrArg Host.Outcome.next (cmp_unknown ha h), fun a w b h => exec_cmp_known ha h⟩,
    fun s n tag status l ha => ⟨fun h => congrArg Host.Outcome.next (data_unknown ha h), fun a r b h => exec_data_known ha h⟩⟩
  · obtain ⟨bad, unordered⟩ := exec_dataFlit_spec fseq ack vc cr ackv good corr bytes ha
    refine ⟨bad, unordered, ?_⟩
    rintro rfl rfl hb
    obtain ⟨regs, seq, nakked⟩ := State.flitTaken_shows s n ack vc cr ackv corr
    refine ⟨s.flitTaken n ack vc cr ackv corr, regs, seq, nakked, exec_dataFlit_padding ack vc cr ackv corr ha hb, ?_, ?_⟩
    · rintro h i rfl hl hi
      obtain ⟨b, hh, h0, h19⟩ := head_of_command hi
      exact ⟨_, State.deliver_command hi, exec_dataFlit_message ack vc cr ackv corr ha hb hl hh h0 h19⟩
    · rintro h rfl hl hh
      refine ⟨_, exec_dataFlit_message ack vc cr ackv corr ha hb hl hh (by decide) (by decide), ?_⟩
      rw [State.deliver_unknown _ _ hh]
      refine ⟨?_, State.stat_err _ _ _ _ (by decide)⟩
      show State.rd (State.err _ _ _) _ _ = _
      rw [State.rd_err _ _ _ _ _ _ (by decide) (by decide), State.inc, State.rd_wr_self _ _ _ _ (by decide), State.rd_congr regs]
      rfl
  · exact ⟨State.replay_nakAcked s n ack ackv corr, exec_nak_spec q ack vc cr ackv corr ha ⟨hw, hr, hm⟩⟩
  · rintro s n i l _ ha ⟨rfl, rfl, hr, ht⟩
    exact exec_ackTimeout_spec ha hr ht
  · intro s n tag addr v i ha hi h
    exact ⟨_, exec_mmio_denied ha hi h, State.mmioDeny_shows _ n tag⟩

end Sys2Proof.Machine
end

section
/-! SUPPORT. What error events leave of a page (R453, R461): the fields that each keeps, what a capture shows and counts, and the report of the summary. -/

namespace Sys2Proof.Machine

/-! ### Fields that a change keeps -/

/-- A field of a page's register map; the records of hardware sets (R11) lie elsewhere. -/
def mappedField (k : Field) : Bool := k.off % 4 = 0 && k.lsb < 32 && k.off < 4096

/-- Where a field lies in its page. -/
def fieldPlace (k : Field) : Nat := k.off * 32 + k.lsb

section
variable {k f : Field} (hk : mappedField k = true) (hf : mappedField f = true) (h : fieldPlace k ≠ fieldPlace f)
include hk hf h

theorem State.rd_wr_place_ne (s : State) (p q : Page) (v : Nat) : (s.wr p f v).rd q k = s.rd q k := by
  simp only [mappedField, Bool.and_eq_true, decide_eq_true_eq] at hk hf
  exact State.rd_wr_apart _ _ _ _ _ _ h (by omega) (by omega)

theorem State.rd_raiseFlag_place_ne (s : State) (p q : Page) : (s.raiseFlag p f).rd q k = s.rd q k := by
  have apart : regKey q k ≠ regKey p f := by
    simp only [mappedField, Bool.and_eq_true, decide_eq_true_eq] at hk hf
    simp only [fieldPlace] at h
    simp only [regKey]
    omega
  simp only [mappedField, Bool.and_eq_true, decide_eq_true_eq] at hk hf
  exact State.rd_raiseFlag_ne _ _ _ _ _ apart hf.1.1 hk.1.1 hk.1.2 hf.2 hk.2

end

/-- The partition of a page depends on the PART_ID fields alone. -/
theorem State.pagePart_congr {s t : State} (hm : ∀ i, t.rd (.mesh i) mesh.PART_ID = s.rd (.mesh i) mesh.PART_ID)
    (hs : ∀ i, t.rd (.msite i) msite.PART_ID = s.rd (.msite i) msite.PART_ID) (p : Page) : t.pagePart p = s.pagePart p := by
  unfold State.pagePart State.corePart State.tilePart State.sitePart
  simp only [hm, hs]

/-! ### One error event -/

/-- An error event before its capture: its bit of ERR_STAT is set, and a change of the summary is reported. -/
def State.noted (s : State) (p : Page) (b : Nat) : State :=
  (s.hwSet p page.ERR_STAT b).noting p (fun x => if bit (s.rd p page.ERR_STAT) b then x else x.wr p page.ERR_STAT (s.rd p page.ERR_STAT + 2 ^ b))

theorem State.rd_noted (s : State) (p q : Page) (b : Nat) {k : Field} (hk : mappedField k = true) (h : fieldPlace k ≠ fieldPlace page.ERR_STAT) :
    (s.noted p b).rd q k = s.rd q k := by
  have set : (s.hwSet p page.ERR_STAT b).rd q k = s.rd q k := by
    simp only [mappedField, Bool.and_eq_true, decide_eq_true_eq] at hk
    exact State.rd_hwSet _ _ _ _ _ _ rfl hk.1.1 hk.1.2 (by decide) hk.2
  rw [State.noted, State.rd_noting]
  split
  · exact set
  · rw [State.rd_wr_place_ne hk (by decide) h, set]

/-- A state with the registers and the reports of another. -/
def State.underRegs (t s : State) : State := { t with regs := s.regs, sent := s.sent }

theorem State.noting_only (s t : State) (p : Page) (f : State → State) : (t.noting p f).underRegs s = (f t).underRegs s := by
  unfold State.noting
  dsimp only
  split <;> rfl

theorem State.noted_only (s : State) (p : Page) (b : Nat) : (s.noted p b).underRegs s = s := by
  rw [State.noted, State.noting_only]
  split <;> rfl

theorem State.err_masked {s : State} {p : Page} {b : Nat} (inj : Bool) (h : bit (s.rd p page.ERR_MASK) b = true) : s.err p b inj = s.noted p b :=
  if_pos ((congrArg (bit · b) (State.rd_noted s p p b (by decide) (by decide))).trans h)

theorem State.err_unmasked {s : State} {p : Page} {b : Nat} (inj : Bool) (h : bit (s.rd p page.ERR_MASK) b = false) :
    s.err p b inj = (s.noted p b).capture p b inj :=
  if_neg (ne_true_of_eq_false ((congrArg (bit · b) (State.rd_noted s p p b (by decide) (by decide))).trans h))

/-! ### Captures -/

/-- A field of none of the common registers 0x018 to 0x020 keeps its value in a time stamp. -/
theorem State.rd_stamp_ne (s : State) (p q : Page) {k : Field} (hk : mappedField k = true) (hlo : fieldPlace k ≠ fieldPlace page.ERR_TICK_LO)
    (hhi : fieldPlace k ≠ fieldPlace page.ERR_TICK_HI) (hsrc : fieldPlace k ≠ fieldPlace page.TICK_SRC) : (s.stamp p).rd q k = s.rd q k := by
  unfold State.stamp State.setFlag
  split <;>
    rw [State.rd_wr_place_ne hk (by decide) hsrc, State.rd_wr_place_ne hk (by decide) hhi, State.rd_wr_place_ne hk (by decide) hlo]

/-- What the time of an event is: the tick of the page's partition, or the microseconds since POWER_GOOD (R453). -/
def State.eventTime (s : State) (p : Page) : Nat := match s.pagePart p with | some q => (s.part q).tick | none => s.sps.micros

theorem State.stamp_shows (s : State) (p : Page) : (s.stamp p).flag p page.TICK_SRC = (s.pagePart p).isNone ∧
    (s.stamp p).rd p page.ERR_TICK_LO = s.eventTime p % 2 ^ 32 := by
  unfold State.stamp State.eventTime
  cases s.pagePart p with
  | some q =>
    refine ⟨State.flag_setFlag_self _ _ _ _ (by decide) (by decide), ?_⟩
    rw [State.rd_setFlag_field _ _ _ _ _ (by decide), State.rd_wr_field _ _ _ _ _ (by decide)]
    exact State.rd_wr_self _ _ page.ERR_TICK_LO _ (by decide)
  | none =>
    refine ⟨State.flag_setFlag_self _ _ _ _ (by decide) (by decide), ?_⟩
    rw [State.rd_setFlag_field _ _ _ _ _ (by decide), State.rd_wr_field _ _ _ _ _ (by decide)]
    exact State.rd_wr_self _ _ page.ERR_TICK_LO _ (by decide)

/-- After a capture an event is counted, up to 0xFFFF. -/
theorem State.capture_counts {s : State} {p : Page} (b : Nat) (inj : Bool) (h : s.flag p page.FIRST_VALID = true) :
    s.capture p b inj = s.wr p page.FIRST_MORE (min (s.rd p page.FIRST_MORE + 1) 0xFFFF) := if_pos h

/-- A captured event, before its time stamp. -/
def State.captured (s : State) (p : Page) (b : Nat) (inj : Bool) : State :=
  ((s.raiseFlag p page.FIRST_VALID).wr p page.FIRST_BIT b).setFlag p page.FIRST_INJ inj

theorem State.capture_first {s : State} {p : Page} (b : Nat) (inj : Bool) (h : s.flag p page.FIRST_VALID = false) :
    s.capture p b inj = (s.captured p b inj).stamp p := if_neg (ne_true_of_eq_false h)

theorem State.rd_captured_ne (s : State) (p q : Page) (b : Nat) (inj : Bool) {k : Field} (hk : mappedField k = true)
    (hv : fieldPlace k ≠ fieldPlace page.FIRST_VALID) (hb : fieldPlace k ≠ fieldPlace page.FIRST_BIT) (hi : fieldPlace k ≠ fieldPlace page.FIRST_INJ) :
    (s.captured p b inj).rd q k = s.rd q k := by
  rw [State.captured, State.setFlag, State.rd_wr_place_ne hk (by decide) hi, State.rd_wr_place_ne hk (by decide) hb,
    State.rd_raiseFlag_place_ne hk (by decide) hv]

/-- What the page shows of the first unmasked event (R453). -/
structure State.ShowsFirst (s t : State) (p : Page) (b : Nat) (inj : Bool) : Prop where
  valid : t.flag p page.FIRST_VALID = true
  first : t.rd p page.FIRST_BIT = b % 2 ^ 5
  injected : t.flag p page.FIRST_INJ = inj
  source : t.flag p page.TICK_SRC = (s.pagePart p).isNone
  time : t.rd p page.ERR_TICK_LO = s.eventTime p % 2 ^ 32
  more : t.rd p page.FIRST_MORE = s.rd p page.FIRST_MORE

theorem State.eventTime_congr {s t : State} {p : Page} (part : t.pagePart p = s.pagePart p) (hp : t.parts = s.parts) (hm : t.sps = s.sps) :
    t.eventTime p = s.eventTime p := by
  unfold State.eventTime State.part
  rw [part, hp, hm]

theorem State.capture_shows {s : State} {p : Page} (b : Nat) (inj : Bool) (h : s.flag p page.FIRST_VALID = false) :
    s.ShowsFirst (s.capture p b inj) p b inj := by
  have part : (s.captured p b inj).pagePart p = s.pagePart p := State.pagePart_congr
    (fun i => State.rd_captured_ne _ _ _ _ _ (by decide) (by decide) (by decide) (by decide))
    (fun i => State.rd_captured_ne _ _ _ _ _ (by decide) (by decide) (by decide) (by decide)) p
  obtain ⟨src, time⟩ := State.stamp_shows (s.captured p b inj) p
  have kept : ∀ k, mappedField k = true → fieldPlace k < fieldPlace page.ERR_TICK_LO → ((s.captured p b inj).stamp p).rd p k = (s.captured p b inj).rd p k :=
    fun k hk hlt => State.rd_stamp_ne _ _ _ hk (by omega) (by simp only [fieldPlace, page.ERR_TICK_LO, page.ERR_TICK_HI] at hlt ⊢; omega)
      (by simp only [fieldPlace, page.ERR_TICK_LO, page.TICK_SRC] at hlt ⊢; omega)
  rw [State.capture_first b inj h]
  refine ⟨?_, ?_, ?_, ?_, ?_, ?_⟩
  · rw [State.flag, kept _ (by decide) (by decide), State.captured, State.setFlag, State.rd_wr_field _ _ _ _ _ (by decide),
      State.rd_wr_field _ _ _ _ _ (by decide)]
    exact State.flag_raiseFlag _ _ _ rfl
  · rw [kept _ (by decide) (by decide), State.captured, State.setFlag, State.rd_wr_field _ _ _ _ _ (by decide)]
    exact State.rd_wr_self _ _ _ _ (by decide)
  · rw [State.flag, kept _ (by decide) (by decide)]
    exact State.flag_setFlag_self _ _ _ _ (by decide) (by decide)
  · rw [src, part]
  · rw [time, State.eventTime_congr part rfl rfl]
  · rw [kept _ (by decide) (by decide)]
    exact State.rd_captured_ne _ _ _ _ _ (by decide) (by decide) (by decide) (by decide)

/-! ### Several error events of one cycle -/

/-- The bits that ERR_MASK leaves unmasked. -/
def State.unmasked (s : State) (p : Page) (l : List Nat) : List Nat := l.filter (fun b => !bit (s.rd p page.ERR_MASK) b)

/-- A field of the capture: every field at 0x018 to 0x020 but the count. -/
def captureField (k : Field) : Bool := mappedField k && decide (fieldPlace k ≠ fieldPlace page.ERR_STAT) && decide (fieldPlace k ≠ fieldPlace page.FIRST_MORE)

section
variable {p : Page} (inj : Bool)

theorem State.mask_err (s : State) (b : Nat) : (s.err p b inj).rd p page.ERR_MASK = s.rd p page.ERR_MASK := by
  have noted : (s.noted p b).rd p page.ERR_MASK = s.rd p page.ERR_MASK := State.rd_noted _ _ _ _ (by decide) (by decide)
  cases hb : bit (s.rd p page.ERR_MASK) b with
  | true => rw [State.err_masked inj hb, noted]
  | false => rw [State.err_unmasked inj hb, State.rd_capture_below _ _ _ _ (by decide), noted]

theorem State.unmasked_err (s : State) (b : Nat) (l : List Nat) : (s.err p b inj).unmasked p l = s.unmasked p l := by
  rw [State.unmasked, State.unmasked, State.mask_err]

/-- Once an event is captured, the others are counted and the capture stands. -/
theorem State.errs_counted {s : State} (l : List Nat) (h : s.flag p page.FIRST_VALID = true) :
    (∀ k, captureField k = true → (s.errs p l inj).rd p k = s.rd p k) ∧
    (s.errs p l inj).rd p page.FIRST_MORE = min (s.rd p page.FIRST_MORE + (s.unmasked p l).length) 0xFFFF := by
  induction l generalizing s with
  | nil =>
    exact ⟨fun _ _ => rfl, (Nat.min_eq_left (Nat.le_of_lt_succ (State.rd_lt s p page.FIRST_MORE))).symm⟩
  | cons b l ih =>
    have step : (∀ k, captureField k = true → (s.err p b inj).rd p k = s.rd p k) ∧ (s.err p b inj).rd p page.FIRST_MORE =
        min (s.rd p page.FIRST_MORE + (s.unmasked p [b]).length) 0xFFFF := by
      have noted : ∀ k, mappedField k = true → fieldPlace k ≠ fieldPlace page.ERR_STAT → (s.noted p b).rd p k = s.rd p k :=
        fun k hk hne => State.rd_noted _ _ _ _ hk hne
      have more : (s.noted p b).rd p page.FIRST_MORE = s.rd p page.FIRST_MORE := noted _ (by decide) (by decide)
      cases hb : bit (s.rd p page.ERR_MASK) b with
      | true =>
        rw [State.err_masked inj hb]
        refine ⟨fun k hk => ?_, ?_⟩
        · simp only [captureField, Bool.and_eq_true, decide_eq_true_eq] at hk
          exact noted _ hk.1.1 hk.1.2
        · rw [more, show s.unmasked p [b] = [] by simp [State.unmasked, hb]]
          exact (Nat.min_eq_left (Nat.le_of_lt_succ (State.rd_lt s p page.FIRST_MORE))).symm
      | false =>
        have valid : (s.noted p b).flag p page.FIRST_VALID = true := by
          rw [State.flag, noted _ (by decide) (by decide)]
          exact h
        rw [State.err_unmasked inj hb, State.capture_counts b inj valid]
        refine ⟨fun k hk => ?_, ?_⟩
        · simp only [captureField, Bool.and_eq_true, decide_eq_true_eq] at hk
          rw [State.rd_wr_place_ne hk.1.1 (by decide) hk.2]
          exact noted _ hk.1.1 hk.1.2
        · rw [State.rd_wr_self _ _ _ _ (by decide), more, show s.unmasked p [b] = [b] by simp [State.unmasked, hb]]
          exact Nat.mod_eq_of_lt (Nat.lt_succ_of_le (Nat.min_le_right ..))
    have valid : (s.err p b inj).flag p page.FIRST_VALID = true := by
      rw [State.flag, step.1 _ (by decide)]
      exact h
    obtain ⟨fields, more⟩ := ih valid
    refine ⟨fun k hk => (fields k hk).trans (step.1 k hk), more.trans ?_⟩
    have parts : (s.unmasked p (b :: l)).length = (s.unmasked p [b]).length + (s.unmasked p l).length := by
      rw [← List.length_append, State.unmasked, State.unmasked, State.unmasked, ← List.filter_append]
      rfl
    rw [step.2, State.unmasked_err, parts]
    omega

/-- Without an unmasked event no field of the capture changes. -/
theorem State.errs_masked {s : State} {l : List Nat} (h : s.unmasked p l = []) {k : Field} (hk : mappedField k = true)
    (hne : fieldPlace k ≠ fieldPlace page.ERR_STAT) : (s.errs p l inj).rd p k = s.rd p k := by
  induction l generalizing s with
  | nil => rfl
  | cons b l ih =>
    obtain ⟨hb, hl⟩ := List.filter_eq_nil_iff.1 h |> List.forall_mem_cons.1
    have masked : bit (s.rd p page.ERR_MASK) b = true := by simpa using hb
    have rest : (s.err p b inj).unmasked p l = [] := (State.unmasked_err ..).trans (List.filter_eq_nil_iff.2 hl)
    refine (ih rest).trans ?_
    rw [State.err_masked inj masked]
    exact State.rd_noted _ _ _ _ hk hne

/-- The first unmasked event is captured, and those that follow are counted. -/
theorem State.errs_captured {s : State} {l r : List Nat} {b : Nat} (hv : s.flag p page.FIRST_VALID = false) (h : s.unmasked p l = b :: r) :
    (s.errs p l inj).flag p page.FIRST_VALID = true ∧ (s.errs p l inj).rd p page.FIRST_BIT = b % 2 ^ 5 ∧
    (s.errs p l inj).flag p page.FIRST_INJ = inj ∧ (s.errs p l inj).rd p page.FIRST_MORE = min (s.rd p page.FIRST_MORE + r.length) 0xFFFF ∧
    (s.errs p l inj).flag p page.TICK_SRC = (s.pagePart p).isNone ∧ (s.errs p l inj).rd p page.ERR_TICK_LO = s.eventTime p % 2 ^ 32 := by
  induction l generalizing s with
  | nil => nomatch h
  | cons a l ih =>
    have noted : ∀ q k, mappedField k = true → fieldPlace k ≠ fieldPlace page.ERR_STAT → (s.noted p a).rd q k = s.rd q k :=
      fun q k hk hne => State.rd_noted _ _ _ _ hk hne
    have invalid : (s.noted p a).flag p page.FIRST_VALID = false := by
      rw [State.flag, noted _ _ (by decide) (by decide)]
      exact hv
    have part : (s.noted p a).pagePart p = s.pagePart p :=
      State.pagePart_congr (fun i => noted _ _ (by decide) (by decide)) (fun i => noted _ _ (by decide) (by decide)) p
    have only := State.noted_only s p a
    have parts : (s.noted p a).parts = s.parts := (congrArg State.parts only :)
    have sps : (s.noted p a).sps = s.sps := (congrArg State.sps only :)
    have time : (s.noted p a).eventTime p = s.eventTime p := State.eventTime_congr part parts sps
    have more : (s.noted p a).rd p page.FIRST_MORE = s.rd p page.FIRST_MORE := noted _ _ (by decide) (by decide)
    cases ha : bit (s.rd p page.ERR_MASK) a with
    | true =>
      have rest : (s.noted p a).unmasked p l = b :: r := by
        rw [← State.err_masked inj ha, State.unmasked_err, ← h]
        simp [State.unmasked, ha]
      have tail := ih invalid rest
      rw [part, time, more, ← State.err_masked inj ha] at tail
      exact tail
    | false =>
      have split : a = b ∧ s.unmasked p l = r := by
        have := h
        rw [State.unmasked, List.filter_cons_of_pos (by simp [ha])] at this
        exact List.cons.inj this
      obtain ⟨rfl, rfl⟩ := split
      have first := State.capture_shows a inj invalid
      rw [← State.err_unmasked inj ha] at first
      obtain ⟨fields, count⟩ := State.errs_counted inj l first.valid
      have flags : ∀ k, captureField k = true → ((s.err p a inj).errs p l inj).flag p k = (s.err p a inj).flag p k :=
        fun k hk => congrArg (fun v => decide (v ≠ 0)) (fields k hk)
      refine ⟨(flags _ (by decide)).trans first.valid, (fields _ (by decide)).trans first.first, (flags _ (by decide)).trans first.injected,
        ?_, ?_, ?_⟩
      · exact count.trans (by rw [first.more, more, State.unmasked_err])
      · exact ((flags _ (by decide)).trans first.source).trans (by rw [part])
      · exact ((fields _ (by decide)).trans first.time).trans (by rw [time])

end

/-! ### The summary -/

/-- The platform event of a summary that was `a` and is `b` (R461). -/
def Page.report (p : Page) (a b : Bool) : List Msg := if b = a then [] else [.event p.id (b2n b)]

theorem State.summary_congr {s t : State} {p : Page} (hp : t.parts = s.parts) (hs : t.rd p page.ERR_STAT = s.rd p page.ERR_STAT)
    (hm : t.rd p page.ERR_MASK = s.rd p page.ERR_MASK) : t.summary p = s.summary p := by
  have shown : t.errStat p = s.errStat p := by
    unfold State.errStat State.part
    rw [hs, hp]
  rw [State.summary, State.summary, shown, hm]

theorem State.errStat_shown_err (s : State) (p : Page) {b : Nat} (inj : Bool) (hb : b < 32) : (s.err p b inj).errStat p = s.errStat p ||| 2 ^ b := by
  unfold State.errStat State.part
  rw [State.errStat_err _ _ _ hb, (State.err_frame ..).parts rfl]
  split
  · split
    · exact (Nat.or_assoc ..).trans ((congrArg (_ ||| ·) (Nat.or_comm ..)).trans (Nat.or_assoc ..).symm)
    · rfl
  · rfl

/-- An event never takes a summary back. -/
theorem State.summary_err_of_summary {s : State} {p : Page} {b : Nat} (inj : Bool) (hb : b < 32) (h : s.summary p = true) :
    (s.err p b inj).summary p = true := by
  unfold State.summary at h ⊢
  rw [State.errStat_shown_err _ _ _ hb, State.mask_err, decide_eq_true_eq]
  rw [decide_eq_true_eq] at h
  intro none
  refine h ?_
  have union : (s.errStat p ||| 2 ^ b) &&& (s.rd p page.ERR_MASK ^^^ 0xFFFFFFFF) = 0 := none
  rw [Nat.and_or_distrib_right, Nat.or_eq_zero_iff] at union
  exact union.1

theorem State.sent_err (s : State) (p : Page) (b : Nat) (inj : Bool) : (s.err p b inj).sent = s.sent ++ p.report (s.summary p) ((s.err p b inj).summary p) := by
  have captured : ∀ t : State, (t.capture p b inj).sent = t.sent ∧ (t.capture p b inj).summary p = t.summary p := fun t =>
    ⟨(State.capture_frame ..).sent rfl, State.summary_congr ((State.capture_frame ..).parts rfl) (State.rd_capture_below _ _ _ _ (by decide))
      (State.rd_capture_below _ _ _ _ (by decide))⟩
  have set : (s.hwSet p page.ERR_STAT b).summary p = s.summary p :=
    State.summary_congr rfl (State.rd_hwSet _ _ _ _ _ _ rfl rfl (by decide) (by decide) (by decide))
      (State.rd_hwSet _ _ _ _ _ _ rfl rfl (by decide) (by decide) (by decide))
  have noting : ∀ (t : State) (f : State → State), (f t).sent = t.sent → (t.noting p f).sent = t.sent ++ p.report (t.summary p) ((t.noting p f).summary p) := by
    intro t f hf
    unfold State.noting Page.report
    dsimp only
    by_cases h : (f t).summary p = t.summary p
    · rw [if_pos h, if_pos h, List.append_nil, hf]
    · rw [if_neg h, if_neg (show ¬ (State.emit _ _).summary p = _ from h)]
      exact congrArg (· ++ _) hf
  have noted : (s.noted p b).sent = s.sent ++ p.report (s.summary p) ((s.noted p b).summary p) := by
    have reported := noting (s.hwSet p page.ERR_STAT b)
      (fun x => if bit (s.rd p page.ERR_STAT) b then x else x.wr p page.ERR_STAT (s.rd p page.ERR_STAT + 2 ^ b)) (by split <;> rfl)
    rw [set] at reported
    exact reported
  cases hb : bit (s.rd p page.ERR_MASK) b with
  | true => rw [State.err_masked inj hb, noted]
  | false => rw [State.err_unmasked inj hb, (captured _).1, (captured _).2, noted]

/-- However many events a cycle has, a change of the summary is reported once. -/
theorem State.sent_errs (s : State) (p : Page) (l : List Nat) (inj : Bool) (hl : ∀ b ∈ l, b < 32) :
    (s.errs p l inj).sent = s.sent ++ p.report (s.summary p) ((s.errs p l inj).summary p) := by
  have stays : ∀ (l : List Nat) (s : State), (∀ b ∈ l, b < 32) → s.summary p = true → (s.errs p l inj).summary p = true := by
    intro l
    induction l with
    | nil => exact fun _ _ h => h
    | cons b l ih => exact fun s hl h => ih _ (List.forall_mem_cons.1 hl).2 (State.summary_err_of_summary inj (List.forall_mem_cons.1 hl).1 h)
  have join : ∀ a b c : Bool, (a = true → b = true) → (b = true → c = true) → p.report a b ++ p.report b c = p.report a c := by
    intro a b c hab hbc
    cases b with
    | false =>
      obtain rfl : a = false := by simpa using hab
      rfl
    | true =>
      obtain rfl : c = true := hbc rfl
      exact List.append_nil _
  induction l generalizing s with
  | nil => simp [State.errs, Page.report]
  | cons b l ih =>
    obtain ⟨hb, hrest⟩ := List.forall_mem_cons.1 hl
    calc (s.errs p (b :: l) inj).sent
      _ = (s.err p b inj).sent ++ p.report ((s.err p b inj).summary p) ((s.errs p (b :: l) inj).summary p) := ih _ hrest
      _ = s.sent ++ (p.report (s.summary p) ((s.err p b inj).summary p) ++ p.report ((s.err p b inj).summary p) ((s.errs p (b :: l) inj).summary p)) := by
        rw [State.sent_err, List.append_assoc]
      _ = s.sent ++ p.report (s.summary p) ((s.errs p (b :: l) inj).summary p) :=
        congrArg (s.sent ++ ·) (join _ _ _ (State.summary_err_of_summary inj hb) (stays l _ hrest))

theorem State.capture_only (s t : State) (p : Page) (b : Nat) (inj : Bool) : (t.capture p b inj).underRegs s = t.underRegs s := by
  unfold State.capture
  split
  · rfl
  · unfold State.stamp
    split <;> rfl

/-- Error events change registers and what is sent, and nothing else. -/
theorem State.errs_only (s : State) (p : Page) (l : List Nat) (inj : Bool) : (s.errs p l inj).underRegs s = s := by
  have one : ∀ (s : State) b, (s.err p b inj).underRegs s = s := by
    intro s b
    cases hb : bit (s.rd p page.ERR_MASK) b with
    | true => rw [State.err_masked inj hb, State.noted_only]
    | false => rw [State.err_unmasked inj hb, State.capture_only, State.noted_only]
  induction l generalizing s with
  | nil => rfl
  | cons b l ih => exact (congrArg (·.underRegs s) (ih (s.err p b inj))).trans (one s b)

end Sys2Proof.Machine
end

section
/-! The statements of spec/19_registers.md about injected errors (O56), and of spec/95_what_each_step_holds.md about the step (O1). -/

namespace Sys2Proof.Machine

/-- The bits that an injection takes, and those of them that ERR_MASK leaves. -/
theorem State.unmasked_injected (s : State) (p : Page) (v : Nat) : s.unmasked p ((List.range p.errBits).filter (bit v)) =
    (List.range p.errBits).filter (fun b => bit v b && !bit (s.rd p page.ERR_MASK) b) := by
  rw [State.unmasked, List.filter_filter]
  exact List.filter_congr fun b _ => Bool.and_comm ..

/-- Settles O56: an injection is several error events of one cycle. -/
theorem errorInjection : Obligations.ErrorInjection := by
  intro s pg v hp
  refine ⟨fun h => congrArg Host.Outcome.next (errInject_ignored _ _ _ (.inr h)), fun h => ?_⟩
  have small : ∀ b ∈ (List.range pg.errBits).filter (bit v), b < 32 := fun b hb =>
    Nat.lt_trans (List.mem_range.1 (List.mem_filter.1 hb).1) pg.errBits_lt
  refine ⟨_, congrArg Host.Outcome.next (errInject_takes _ _ _ hp h), State.errs_only .., fun q k hq hk => State.rd_errs_page _ _ _ _ _ _ hq hk,
    fun b _ => ?_, State.sent_errs _ _ _ _ small, fun none => ?_, fun b l some => ?_⟩
  · rw [State.bit_errStat_errs _ _ _ _ small]
    congr 1
    rw [Bool.eq_iff_iff]
    simp
  · rw [← State.unmasked_injected] at none
    have kept := fun k hk hne => State.errs_masked true none (k := k) hk hne
    have flags : ∀ k, mappedField k = true → fieldPlace k ≠ fieldPlace page.ERR_STAT →
        (s.errs pg ((List.range pg.errBits).filter (bit v)) true).flag pg k = s.flag pg k :=
      fun k hk hne => congrArg (fun v => decide (v ≠ 0)) (kept k hk hne)
    exact ⟨kept _ (by decide) (by decide), flags _ (by decide) (by decide), flags _ (by decide) (by decide), kept _ (by decide) (by decide)⟩
  · have bound : b < 32 := small b (by
      have mem : b ∈ (List.range pg.errBits).filter (fun b => bit v b && !bit (s.rd pg page.ERR_MASK) b) := some ▸ List.mem_cons_self
      rw [← State.unmasked_injected] at mem
      exact (List.mem_filter.1 mem).1)
    rw [← State.unmasked_injected] at some
    cases hv : s.flag pg page.FIRST_VALID with
    | true =>
      obtain ⟨kept, more⟩ := State.errs_counted true ((List.range pg.errBits).filter (bit v)) hv
      have flags : ∀ k, captureField k = true → (s.errs pg ((List.range pg.errBits).filter (bit v)) true).flag pg k = s.flag pg k :=
        fun k hk => congrArg (fun v => decide (v ≠ 0)) (kept k hk)
      rw [some] at more
      exact ⟨(flags _ (by decide)).trans hv, fun _ => ⟨kept _ (by decide), flags _ (by decide), more⟩, nofun⟩
    | false =>
      obtain ⟨valid, first, injected, more, source, time⟩ := State.errs_captured true hv some
      exact ⟨valid, nofun, fun _ => ⟨first.trans (Nat.mod_eq_of_lt bound), injected, more, source, time⟩⟩

/-- Settles O1: a step takes the front command off the queue and executes it. -/
theorem stepRunsFrontCommand : Obligations.StepRunsFrontCommand := fun _ _ _ => rfl

end Sys2Proof.Machine
end

section
/-! SUPPORT. The writer of the journal (R410, R471) and the report of the bring-up (R439). -/

namespace Sys2Proof.Machine

/-! ### The journal's writer -/

/-- A start moves a record from the queue into the writer's hand, and nothing else. -/
theorem Nor.start_only (n : Nor) : { n.start with waiting := n.waiting, writing := n.writing, seqNext := n.seqNext } = n := by
  unfold Nor.start
  split
  · rfl
  · dsimp only
    split
    · rfl
    · split <;> rfl

theorem Nor.log_start (n : Nor) : n.start.log = n.log := (congrArg Nor.log n.start_only :)
theorem Nor.full_start (n : Nor) : n.start.full = n.full := (congrArg Nor.full n.start_only :)
theorem Nor.snap_start (n : Nor) : n.start.snap = n.snap := (congrArg Nor.snap n.start_only :)
theorem Nor.snapSeq_start (n : Nor) : n.start.snapSeq = n.snapSeq := (congrArg Nor.snapSeq n.start_only :)
theorem Nor.compact_start (n : Nor) : n.start.compact = n.compact := (congrArg Nor.compact n.start_only :)

/-- With a record in hand no other is started. -/
theorem Nor.start_of_writing {n : Nor} {r : JRec} (h : n.writing = some r) : n.start = n := if_pos (by rw [h]; rfl)

theorem Nor.log_maybeCompact (n : Nor) : n.maybeCompact.log = n.log := by
  unfold Nor.maybeCompact
  split <;> rfl

/-- The write point of a record moves the place alone. -/
theorem Nor.place_only (n : Nor) (k : Nat) : { n.place k with sector := n.sector, off := n.off } = n := by
  unfold Nor.place
  split <;> rfl

theorem Nor.log_place (n : Nor) (k : Nat) : (n.place k).log = n.log := (congrArg Nor.log (n.place_only k) :)
theorem Nor.writing_place (n : Nor) (k : Nat) : (n.place k).writing = n.writing := (congrArg Nor.writing (n.place_only k) :)
theorem Nor.abandon_place (n : Nor) (k : Nat) : (n.place k).abandon = n.abandon := (congrArg Nor.abandon (n.place_only k) :)
theorem Nor.full_place (n : Nor) (k : Nat) : (n.place k).full = n.full := (congrArg Nor.full (n.place_only k) :)

theorem State.updNor_start {s : State} {r : JRec} (h : s.nor.writing = some r) : s.updNor Nor.start = s := by
  unfold State.updNor
  rw [Nor.start_of_writing h]

theorem State.nor_err (s : State) (p : Page) (b : Nat) : (s.err p b).nor = s.nor := (State.err_frame ..).nor rfl

/-- The journal after a record of `k` units has been programmed at its place. -/
def Nor.recorded (n : Nor) (r : JRec) : Nor :=
  Nor.start (Nor.maybeCompact { n.place r.body.units with
    log := (n.place r.body.units).log ++ [{ r with sector := (n.place r.body.units).sector }]
    off := (n.place r.body.units).off + r.body.units, writing := none })

theorem Nor.log_recorded (n : Nor) (r : JRec) : (n.recorded r).log = n.log ++ [{ r with sector := (n.place r.body.units).sector }] := by
  rw [Nor.recorded, Nor.log_start, Nor.log_maybeCompact, Nor.log_place]

/-- The journal after a readback failure: the place is abandoned. -/
def Nor.abandoned (n : Nor) (k : Nat) : Nor :=
  { n.place k with abandon := (n.place k).abandon ++ [((n.place k).sector, (n.place k).off)], sector := ((n.place k).sector + 1) % jSectors, off := 0 }

/-- The journal after a readback failure with a full table of abandoned places (R471). -/
def Nor.filled (n : Nor) (r : JRec) : Nor :=
  Nor.start { n with full := true, writing := none, waiting := { r with seq := 0 } :: n.waiting, seqNext := n.seqNext - 1 }

/-- A record is counted, and a reservation of LMS leaves among them is durable (R397). -/
def State.recordCounted (s : State) (b : Cairn) : State := (s.inc .journal journal.RECORD_CNT 1).durable b

theorem State.recordCounted_shows (s : State) (b : Cairn) : (s.recordCounted b).nor = s.nor ∧
    (s.recordCounted b).rd .journal journal.RECORD_CNT = (s.rd .journal journal.RECORD_CNT + 1) % 2 ^ 32 :=
  have frame := State.durable_frame (s.inc .journal journal.RECORD_CNT 1) b
  ⟨frame.nor rfl, (State.rd_congr (frame.regs rfl) _ _).trans (State.rd_wr_self _ _ _ _ (by decide))⟩

section
variable {s : State} {r : JRec} (hg : s.norHolder ≠ none) (hr : s.nor.writing = some r)
include hg hr

/-- Without an erased sector ahead, a record that does not fit waits. -/
theorem journalRecordDurable_noRoom (ok : Bool) (he : s.nor.erased = 0) (hu : 4096 < s.nor.off + r.body.units) :
    journalRecordDurable s ok = s.err .journal 3 := by
  unfold journalRecordDurable
  rw [if_neg hg, State.updNor_start hr]
  dsimp only
  rw [hr]
  exact if_pos ⟨he, hu⟩

section
variable (room : s.nor.erased ≠ 0 ∨ s.nor.off + r.body.units ≤ 4096)
include room

theorem journalRecordDurable_good : journalRecordDurable s true =
    State.recordCounted (if (s.nor.recorded r).erased = 0 then (s.updNor fun _ => s.nor.recorded r).err .journal 3 else s.updNor fun _ => s.nor.recorded r)
      r.body := by
  have full : ¬ (s.nor.erased = 0 ∧ 4096 < s.nor.off + r.body.units) := fun h => room.elim (· h.1) (Nat.not_le.2 h.2)
  unfold journalRecordDurable
  rw [if_neg hg, State.updNor_start hr]
  dsimp only
  rw [hr]
  exact if_neg full

theorem journalRecordDurable_bad : journalRecordDurable s false =
    if 64 ≤ (s.err .journal 0).nor.abandon.length then ((s.err .journal 0).updNor fun n => n.filled r).err .journal 2
    else (s.err .journal 0).updNor fun n => n.abandoned r.body.units := by
  have full : ¬ (s.nor.erased = 0 ∧ 4096 < s.nor.off + r.body.units) := fun h => room.elim (· h.1) (Nat.not_le.2 h.2)
  unfold journalRecordDurable
  rw [if_neg hg, State.updNor_start hr]
  dsimp only
  rw [hr]
  exact if_neg full

/-- A record that has been programmed and read back is in the log, and counted (R410). -/
theorem exec_journalRecordDurable_good : ∃ t, exec (.journalRecordDurable true) s = .next t ∧
    t.nor.log = s.nor.log ++ [{ r with sector := (s.nor.place r.body.units).sector }] ∧
    t.rd .journal journal.RECORD_CNT = (s.rd .journal journal.RECORD_CNT + 1) % 2 ^ 32 := by
  refine ⟨_, congrArg Host.Outcome.next (journalRecordDurable_good hg hr room), ?_⟩
  rw [(State.recordCounted_shows ..).1, (State.recordCounted_shows ..).2]
  split
  · rw [State.nor_err, State.rd_err _ _ _ _ _ _ (by decide) (by decide)]
    exact ⟨Nor.log_recorded .., rfl⟩
  · exact ⟨Nor.log_recorded .., rfl⟩

/-- After a readback failure the record waits for another place (R471). -/
theorem exec_journalRecordDurable_bad (ha : s.nor.abandon.length < 64) : ∃ t, exec (.journalRecordDurable false) s = .next t ∧
    bit (t.rd .journal page.ERR_STAT) 0 = true ∧ t.nor.log = s.nor.log ∧ t.nor.writing = some r ∧
    t.nor.abandon = s.nor.abandon ++ [((s.nor.place r.body.units).sector, (s.nor.place r.body.units).off)] ∧ t.nor.full = s.nor.full := by
  refine ⟨_, congrArg Host.Outcome.next (journalRecordDurable_bad hg hr room), ?_⟩
  rw [State.nor_err, if_neg (Nat.not_le.2 ha)]
  refine ⟨State.stat_err _ _ _ _ (by decide), ?_⟩
  rw [show ((s.err .journal 0).updNor fun n => n.abandoned r.body.units).nor = s.nor.abandoned r.body.units from
    congrArg (Nor.abandoned · r.body.units) (State.nor_err ..)]
  exact ⟨Nor.log_place .., (Nor.writing_place ..).trans hr, congrArg (· ++ _) (Nor.abandon_place ..), Nor.full_place ..⟩

/-- With a full table of abandoned places the journal is FULL (R471). -/
theorem exec_journalRecordDurable_full (ha : 64 ≤ s.nor.abandon.length) : ∃ t, exec (.journalRecordDurable false) s = .next t ∧
    bit (t.rd .journal page.ERR_STAT) 2 = true ∧ t.nor.log = s.nor.log ∧ t.nor.full = true := by
  refine ⟨_, congrArg Host.Outcome.next (journalRecordDurable_bad hg hr room), ?_⟩
  rw [State.nor_err, if_pos ha]
  refine ⟨State.stat_err _ _ _ _ (by decide), ?_⟩
  rw [State.nor_err, show ((s.err .journal 0).updNor fun n => n.filled r).nor = s.nor.filled r from congrArg (Nor.filled · r) (State.nor_err ..)]
  exact ⟨Nor.log_start _, Nor.full_start _⟩

end

end

/-- A compaction puts the snapshot in hand in force and erases what it covers (R411). -/
theorem exec_compaction_spec {s : State} {l : List JRec} {q : Nat} (h : s.nor.compact = some (l, q)) : ∃ t, exec .compaction s = .next t ∧
    t.nor.snap = l ∧ t.nor.snapSeq = q ∧ t.nor.compact = none ∧ t.nor.full = false ∧ t.nor.log = s.nor.log.filter (fun r => q < r.seq) ∧
    t.regs = s.regs := by
  refine ⟨_, rfl, ?_⟩
  rw [compaction, h]
  exact ⟨Nor.snap_start _, Nor.snapSeq_start _, Nor.compact_start _, Nor.full_start _, Nor.log_start _, rfl⟩

/-! ### The report of the bring-up -/

/-- The counts of what is down, and the time, on one SMC (R439). -/
def State.countsOn (tiles sads sites ms : Nat) (s : State) (c : Nat) : State :=
  let pg := Page.smc c
  let s := (((s.wr pg smc.TILES_DOWN tiles).wr pg smc.SADDLES_DOWN sads).wr pg smc.SITES_DOWN sites).wr pg smc.READY_MS ms
  if s.sps.resetReq then s.raiseFlag pg smc.MODRST else s

/-- The whole report of one SMC, with BRINGUP. -/
def State.reportOn (tiles sads sites ms : Nat) (s : State) (c : Nat) : State :=
  ((s.countsOn tiles sads sites ms c).wr (.smc c) smc.BRINGUP (if (s.countsOn tiles sads sites ms c).rd (.ssb c) ssb.BOOT_STATE = 1 then 4 else 5)).updCtl c
    (fun x => { x with hbSeen := (s.countsOn tiles sads sites ms c).clock })

section
variable (tiles sads sites ms : Nat) (s : State) (c : Nat)

theorem State.rd_countsOn_readyMs : (s.countsOn tiles sads sites ms c).rd (.smc c) smc.READY_MS = ms % 2 ^ 32 := by
  unfold State.countsOn
  dsimp only
  split
  · rw [State.rd_raiseFlag_place_ne (by decide) (by decide) (by decide)]
    exact State.rd_wr_self _ _ _ _ (by decide)
  · exact State.rd_wr_self _ _ _ _ (by decide)

section
variable (q : Page) {k : Field} (hq : q.id ≠ (Page.smc c).id) (hk : mappedField k = true)
include hq hk

/-- The counts on one SMC keep every other page. -/
theorem State.rd_countsOn_page : (s.countsOn tiles sads sites ms c).rd q k = s.rd q k := by
  have place : k.off * 32 + k.lsb < 131072 ∧ k.off % 4 = 0 ∧ k.lsb < 32 ∧ k.off < 4096 := by
    simp only [mappedField, Bool.and_eq_true, decide_eq_true_eq] at hk
    omega
  obtain ⟨hlt, hoff, hlsb, hpage⟩ := place
  have wrote : ∀ (x : State) (f : Field) v, f.off * 32 + f.lsb < 131072 → (x.wr (.smc c) f v).rd q k = x.rd q k :=
    fun x f v hf => State.rd_wr_page _ _ _ _ _ _ hq hf hlt
  have raised : ∀ x : State, (x.raiseFlag (.smc c) smc.MODRST).rd q k = x.rd q k := fun x =>
    State.rd_raiseFlag_ne _ _ _ _ _ (by simp only [regKey, smc.MODRST]; omega) rfl hoff hlsb (by decide) hpage
  unfold State.countsOn
  dsimp only
  split
  · rw [raised, wrote _ _ _ (by decide), wrote _ _ _ (by decide), wrote _ _ _ (by decide), wrote _ _ _ (by decide)]
  · rw [wrote _ _ _ (by decide), wrote _ _ _ (by decide), wrote _ _ _ (by decide), wrote _ _ _ (by decide)]

theorem State.rd_reportOn_page : (s.reportOn tiles sads sites ms c).rd q k = s.rd q k := by
  rw [State.reportOn, State.rd_updCtl, State.rd_wr_page _ _ _ _ _ _ hq (by decide), State.rd_countsOn_page _ _ _ _ _ _ q hq hk]
  simp only [mappedField, Bool.and_eq_true, decide_eq_true_eq] at hk
  omega

end

/-- What an SMC shows after its report. -/
def State.reported (t : State) (ms c : Nat) : Prop :=
  t.rd (.smc c) smc.READY_MS = ms % 2 ^ 32 ∧ t.rd (.smc c) smc.BRINGUP = if t.rd (.ssb c) ssb.BOOT_STATE = 1 then 4 else 5

theorem State.reported_reportOn : (s.reportOn tiles sads sites ms c).reported ms c := by
  have apart : (Page.ssb c).id ≠ (Page.smc c).id := by simp only [Page.id]; omega
  refine ⟨?_, ?_⟩
  · rw [State.reportOn, State.rd_updCtl, State.rd_wr_field _ _ _ _ _ (by decide), State.rd_countsOn_readyMs]
  · rw [State.rd_reportOn_page _ _ _ _ _ _ _ apart (by decide), State.reportOn, State.rd_updCtl, State.rd_wr_self _ _ _ _ (by decide),
      State.rd_countsOn_page _ _ _ _ _ _ _ apart (by decide)]
    split <;> rfl

/-- The report of one SMC keeps what the other shows. -/
theorem State.reported_reportOn_other {ms : Nat} {c d : Nat} (hd : d < 2) (hc : c < 2) (h : s.reported ms d) (hne : d ≠ c) :
    (s.reportOn tiles sads sites ms c).reported ms d := by
  have smcs : (Page.smc d).id ≠ (Page.smc c).id := by simp only [Page.id]; omega
  have ssbs : (Page.ssb d).id ≠ (Page.smc c).id := by simp only [Page.id]; omega
  unfold State.reported
  rw [State.rd_reportOn_page _ _ _ _ _ _ _ smcs (by decide), State.rd_reportOn_page _ _ _ _ _ _ _ smcs (by decide),
    State.rd_reportOn_page _ _ _ _ _ _ _ ssbs (by decide)]
  exact h

/-- Every SMC of a list shows its report. -/
theorem State.reported_foldl (l : List Nat) (hl : ∀ c ∈ l, c < 2) (d : Nat) (hd : d < 2) (h : d ∈ l ∨ s.reported ms d) :
    (l.foldl (State.reportOn tiles sads sites ms) s).reported ms d := by
  induction l generalizing s with
  | nil => exact h.resolve_left (List.not_mem_nil)
  | cons c l ih =>
    obtain ⟨hc, hrest⟩ := List.forall_mem_cons.1 hl
    refine ih _ hrest ?_
    by_cases hdc : d = c
    · exact .inr (hdc ▸ State.reported_reportOn tiles sads sites ms s d)
    · obtain hmem | shown := h
      · exact .inl ((List.mem_cons.1 hmem).resolve_left hdc)
      · exact .inr (State.reported_reportOn_other tiles sads sites s hd hc shown hdc)

end

theorem State.up_reportOn (tiles sads sites ms : Nat) (s : State) (c d : Nat) : ((s.reportOn tiles sads sites ms c).ctl d).up = (s.ctl d).up := by
  have counts : (s.countsOn tiles sads sites ms c).ctl d = s.ctl d := by
    unfold State.countsOn
    dsimp only
    split <;> rfl
  have beat : ∀ (x : State) v, ((x.updCtl c (fun y => { y with hbSeen := v })).ctl d).up = (x.ctl d).up := by
    intro x v
    rw [State.ctl_updCtl]
    split
    · next e => rw [e]
    · rfl
  exact (beat _ _).trans (congrArg Ctl.up counts :)

/-- After the report every control tile that is up shows it (R439). -/
theorem State.reported_reportReady (s : State) (ms : Nat) : ∀ c ∈ (s.reportReady ms).ctlsUp, (s.reportReady ms).reported ms c := by
  have up : ∀ (tiles sads sites : Nat) (l : List Nat) (s : State) d, ((l.foldl (State.reportOn tiles sads sites ms) s).ctl d).up = (s.ctl d).up := by
    intro tiles sads sites l
    induction l with
    | nil => exact fun _ _ => rfl
    | cons c l ih => exact fun s d => (ih _ d).trans (State.up_reportOn ..)
  have small : ∀ c ∈ s.ctlsUp, c < 2 := fun c hc => by
    have := (List.mem_filter.1 hc).1
    simp only [List.mem_cons, List.not_mem_nil, or_false] at this
    omega
  intro c hc
  have same : (s.reportReady ms).ctlsUp = s.ctlsUp := by
    unfold State.ctlsUp
    exact List.filter_congr fun d _ => up _ _ _ s.ctlsUp s d
  rw [same] at hc
  exact State.reported_foldl _ _ _ ms s s.ctlsUp small c (small c hc) (.inl hc)

end Sys2Proof.Machine
end

section
/-! The statement of spec/16_security_and_firmware.md and spec/18_bringup.md about the bring-up and the journal (O50). -/

namespace Sys2Proof.Machine

theorem exec_bringup_ignored {s : State} (d : BringupData)
    (h : s.flag .sps sps.POWER_GOOD = false ∨ s.rd (.ssb 0) ssb.BOOT_STATE ≠ 0 ∨ s.rd (.ssb 1) ssb.BOOT_STATE ≠ 0 ∨ s.ctlsUp = []) :
    exec (.bringup d) s = .next s := by
  refine congrArg Host.Outcome.next (if_pos ?_)
  simpa only [List.any_cons, List.any_nil, Bool.or_false, Bool.or_eq_true, Bool.not_eq_true', decide_eq_true_eq, or_assoc] using h

section
variable {s : State} (hg : s.flag .sps sps.POWER_GOOD = true) (h0 : s.rd (.ssb 0) ssb.BOOT_STATE = 0)
  (h1 : s.rd (.ssb 1) ssb.BOOT_STATE = 0) (hu : s.ctlsUp ≠ [])
include hg h0 h1 hu

/-- The boot chain of BRINGUP, and after it the report unless every SSB stays in the ROM (R390). -/
theorem bringup_boots (d : BringupData) : ∃ v : State, bringup s d =
    if ((s.setFlag (.smc (s.ctlsUp.headD 0)) smc.NOR_GRANT true).replayNor.bootChain).ctlsUp.all (fun c =>
      ((s.setFlag (.smc (s.ctlsUp.headD 0)) smc.NOR_GRANT true).replayNor.bootChain).rd (.ssb c) ssb.BOOT_STATE = 3)
    then (s.setFlag (.smc (s.ctlsUp.headD 0)) smc.NOR_GRANT true).replayNor.bootChain else v.reportReady d.ms :=
  ⟨_, if_neg (by simp [hg, h0, h1, hu])⟩

/-- BRINGUP ends in the ROM, or with its report (R390, R433, R439). -/
theorem exec_bringup_spec (d : BringupData) : ∃ t, exec (.bringup d) s = .next t ∧
      (let u := (s.setFlag (.smc (s.ctlsUp.headD 0)) smc.NOR_GRANT true).replayNor.bootChain
       if u.ctlsUp.all (fun c => u.rd (.ssb c) ssb.BOOT_STATE = 3) then t = u
       else ∀ c ∈ t.ctlsUp, t.rd (.smc c) smc.READY_MS = d.ms % 2 ^ 32 ∧ t.rd (.smc c) smc.BRINGUP = (if t.rd (.ssb c) ssb.BOOT_STATE = 1 then 4 else 5)) := by
  obtain ⟨v, hv⟩ := bringup_boots hg h0 h1 hu d
  refine ⟨_, congrArg Host.Outcome.next hv, ?_⟩
  dsimp only
  generalize (s.setFlag (.smc (s.ctlsUp.headD 0)) smc.NOR_GRANT true).replayNor.bootChain = u
  split
  · rfl
  · exact State.reported_reportReady v d.ms

end

/-- Settles O50, from what the journal's writer, a compaction and the bring-up each end with. -/
theorem bringupAndJournal : Obligations.BringupAndJournal :=
  ⟨fun _ d h => exec_bringup_ignored d h, fun _ d hg h0 h1 hu => exec_bringup_spec hg h0 h1 hu d,
    fun _ _ h => congrArg Host.Outcome.next (if_pos h),
    fun s r hg hr => ⟨fun room => ⟨exec_journalRecordDurable_good hg hr room, exec_journalRecordDurable_bad hg hr room,
        exec_journalRecordDurable_full hg hr room⟩,
      fun he hu ok => ⟨_, congrArg Host.Outcome.next (journalRecordDurable_noRoom hg hr ok he hu), State.stat_err _ _ _ _ (by decide), State.nor_err ..⟩⟩,
    fun s h => congrArg Host.Outcome.next (by rw [compaction, h]), fun _ _ _ h => exec_compaction_spec h⟩

end Sys2Proof.Machine
end

section
/-! SUPPORT. The Tally (R416, R419 to R425): what a measurement, a frame, an index and a record each leave of it, and what the engine's page shows. -/

namespace Sys2Proof.Machine

/-! ### Measurement and the journal -/

/-- No energy is lost between the pulses that are due and the rest below one pulse (R416). -/
theorem PulseOut.energy_add (x : PulseOut) (unit slot mwh c : Nat) :
    (x.add unit slot mwh c).total * unit + (x.add unit slot mwh c).rest = x.total * unit + x.rest + mwh := by
  have split := Nat.div_add_mod' (x.rest + mwh) unit
  show (x.total + (x.rest + mwh) / unit) * unit + (x.rest + mwh) % unit = _
  rw [Nat.add_mul]
  omega

/-- An episode is recorded, and changes nothing else of the Tally (R425). -/
theorem State.tally_episodes (s : State) (old new : Nat) :
    { (s.episodes old new).tally with log := s.tally.log, logNext := s.tally.logNext } = s.tally := by
  unfold State.episodes
  simp only [List.foldl_cons, List.foldl_nil]
  split
  · split <;> rfl
  · split <;> rfl

/-- An index that is taken changes the Tally's tree, and the journal where a tree is reserved (R422). -/
theorem State.tally_takeIndex (s : State) : { s.takeIndex.tally with
    log := s.tally.log, logNext := s.tally.logNext, q := s.tally.q, treeLeft := s.tally.treeLeft, trees := s.tally.trees } = s.tally := by
  unfold State.takeIndex
  split
  · rfl
  · dsimp only
    split <;> rfl

theorem State.q_takeIndex {s : State} (h : s.tally.spent = false) :
    s.takeIndex.tally.q = (if s.tally.treeLeft ≠ 0 then s.tally.q else s.tally.trees * 32768) + 1 := by
  unfold State.takeIndex
  rw [if_neg (ne_true_of_eq_false h)]
  dsimp only
  split <;> rfl

/-! ### The page -/

/-- Error events of a cycle change only the common fields below 0x024 (R453). -/
theorem State.rd_errs_above (s : State) (p q : Page) (l : List Nat) (inj : Bool) {f : Field} (h : 0x24 * 32 ≤ f.off * 32 + f.lsb)
    (h' : f.off * 32 + f.lsb < 131072) : (s.errs p l inj).rd q f = s.rd q f := by
  induction l generalizing s with
  | nil => rfl
  | cons b l ih => exact (ih (s.err p b inj)).trans (State.rd_err _ _ _ _ _ _ h h')

/-- The generation that the MCF speaks depends on the firmware slots alone. -/
theorem State.mcfGen_congr {s t : State} (h : t.nor = s.nor) : t.mcfGen = s.mcfGen := by
  unfold State.mcfGen State.running' State.slotIn State.fwSlot
  rw [h]

theorem State.genOk_showGen (s : State) : s.showGen.flag .tallyIf tallyIf.GEN_OK = decide (s.mcfGen = some s.tally.gen) := by
  have shown : ((s.wr .tallyIf tallyIf.TLY_GEN s.tally.gen).setFlag .tallyIf tallyIf.GEN_OK (decide (s.mcfGen = some s.tally.gen))).flag
      .tallyIf tallyIf.GEN_OK = decide (s.mcfGen = some s.tally.gen) := State.flag_setFlag_self _ _ _ _ (by decide) (by decide)
  unfold State.showGen
  dsimp only
  split
  · rw [State.flag, State.rd_err _ _ _ _ _ _ (by decide) (by decide)]
    exact shown
  · exact shown

theorem State.linkUp_showGen (s : State) : s.showGen.flag .tallyIf tallyIf.LINK_UP = s.flag .tallyIf tallyIf.LINK_UP := by
  have kept : ∀ b, ((s.wr .tallyIf tallyIf.TLY_GEN s.tally.gen).setFlag .tallyIf tallyIf.GEN_OK b).rd .tallyIf tallyIf.LINK_UP =
      s.rd .tallyIf tallyIf.LINK_UP := fun b => by
    rw [State.rd_setFlag_field _ _ _ _ _ (by decide), State.rd_wr_field _ _ _ _ _ (by decide)]
  unfold State.showGen State.flag
  dsimp only
  split
  · rw [State.rd_err _ _ _ _ _ _ (by decide) (by decide), kept]
  · rw [kept]

/-! ### Frames that the engine receives -/

section
variable {s : State} {f : TallyFrame} (k : State → State)

theorem State.goodFrame_off (h : s.tallyLink = false) : s.goodFrame f k = s := if_pos (by rw [h]; rfl)

theorem State.goodFrame_bad (h : s.tallyLink = true) (hc : f.crcOk = false) : s.goodFrame f k = s.err .tallyIf 1 :=
  (if_neg (by rw [h]; nofun)).trans (if_neg (ne_true_of_eq_false hc))

theorem State.goodFrame_good (h : s.tallyLink = true) (hc : f.crcOk = true) : s.goodFrame f k = k s :=
  (if_neg (by rw [h]; nofun)).trans (if_pos hc)

end

/-- What the engine's page and the Tally hold of a frame of type `k` (R430). -/
structure State.Holds (t : State) (k : Nat) (f : TallyFrame) : Prop where
  frame : t.tally.frame = frameBytes k f.fseq f.payload
  valid : t.flag .tallyIf tallyIf.FRAME_VALID = true
  type : t.rd .tallyIf tallyIf.FRAME_TYPE = k % 2 ^ 4
  length : t.rd .tallyIf tallyIf.FRAME_LEN = (frameBytes k f.fseq f.payload).length % 2 ^ 16

theorem State.holds_bufferFrame (s : State) (k : Nat) (f : TallyFrame) : (s.bufferFrame k f).Holds k f where
  frame := rfl
  valid := by
    unfold State.bufferFrame State.flag
    rw [State.rd_wr_field _ _ _ _ _ (by decide), State.rd_wr_field _ _ _ _ _ (by decide)]
    exact State.flag_raiseFlag _ _ _ rfl
  type := by
    unfold State.bufferFrame
    rw [State.rd_wr_field _ _ _ _ _ (by decide)]
    exact State.rd_wr_self _ _ tallyIf.FRAME_TYPE _ (by decide)
  length := State.rd_wr_self _ _ tallyIf.FRAME_LEN _ (by decide)

/-- An error event leaves the frame that is held. -/
theorem State.Holds.err {t : State} {k : Nat} {f : TallyFrame} (h : t.Holds k f) (b : Nat) : (t.err .tallyIf b).Holds k f where
  frame := (congrArg Tally.frame ((State.err_frame ..).tally rfl)).trans h.frame
  valid := (congrArg (fun v => decide (v ≠ 0)) (State.rd_err _ _ _ _ _ _ (by decide) (by decide))).trans h.valid
  type := (State.rd_err _ _ _ _ _ _ (by decide) (by decide)).trans h.type
  length := (State.rd_err _ _ _ _ _ _ (by decide) (by decide)).trans h.length

/-- A frame of type 2 frees the request that it answers, and takes an index (R422). -/
def State.answered (s : State) : State := s.takeIndex.updTally (fun x => { x with queued := none })

section
variable {s : State} {f : TallyFrame} (h : s.tallyLink = true) (hc : f.crcOk = true)
include h hc

theorem signed_good : signed s f = (if f.payload.getD 88 0 = 1 then s.answered else s).bufferFrame 2 f := State.goodFrame_good _ h hc
theorem log_good : log s f = s.bufferFrame 3 f := State.goodFrame_good _ h hc
theorem cert_good : cert s f = s.bufferFrame 4 f := State.goodFrame_good _ h hc

theorem status_good : status s f =
    if f.payload = [1] then (s.bufferFrame 5 f).err .tallyIf 2 else if f.payload = [3] then (s.bufferFrame 5 f).err .tallyIf 7 else s.bufferFrame 5 f :=
  State.goodFrame_good _ h hc

end

/-! ### READING -/

/-- A field of a frame's payload. -/
def frameField (f : TallyFrame) (i n : Nat) : Nat := leNat ((f.payload.drop i).take n)

/-- A READING's fields at the Tally, with the episodes that it begins and ends, and the state of the link (R421, R430). -/
def State.readingTaken (s : State) (f : TallyFrame) : State :=
  (((s.updTally (fun x => { x.measure (frameField f 0 8 - x.eImp) (frameField f 8 8 - x.eRev) s.clock with
    eImp := frameField f 0 8, eRev := frameField f 8 8, tSec := frameField f 28 8, sinceReading := s.clock, quality := 2 * (frameField f 38 2 / 2 % 4) })).episodes
      (s.rd .tallyIf tallyIf.STATUS) (frameField f 38 2)).setFlag .tallyIf tallyIf.LINK_UP true).showGen

/-- A READING's fields on the engine's page. -/
def State.readingCopied (s : State) (f : TallyFrame) : State :=
  ((((s.wr64 .tallyIf tallyIf.E_IMP_LO tallyIf.E_IMP_HI (frameField f 0 8)).wr64 .tallyIf tallyIf.E_REV_LO tallyIf.E_REV_HI (frameField f 8 8)).wr .tallyIf
    tallyIf.P_LAST (frameField f 24 4)).wr .tallyIf tallyIf.CHECKSUM (frameField f 36 2)).wr .tallyIf tallyIf.STATUS (frameField f 38 2)

/-- The first READING of a link gives the energy that the shares count from (R428). -/
def State.firstReading (s : State) (f : TallyFrame) : State :=
  if s.tally.eLast = none then s.updTally (fun x => { x with eLast := some (frameField f 0 8) }) else s

/-- A page whose MCF does not speak the Tally's generation shows zero (R430). -/
def State.readingHidden (s : State) : State :=
  s.clrAll .tallyIf [tallyIf.CHECKSUM, tallyIf.E_IMP_LO, tallyIf.E_IMP_HI, tallyIf.E_REV_LO, tallyIf.E_REV_HI, tallyIf.P_LAST, tallyIf.STATUS]

theorem reading_good {s : State} {f : TallyFrame} (h : s.tallyLink = true) (hc : f.crcOk = true) : reading s f =
    if !(s.readingTaken f).flag .tallyIf tallyIf.GEN_OK then (s.readingTaken f).readingHidden
    else (((s.readingTaken f).readingCopied f).firstReading f).errs .tallyIf
      (([(0, 4), (3, 5), (4, 6)].filter (fun e => bit (frameField f 38 2) e.1 && !bit (s.rd .tallyIf tallyIf.STATUS) e.1)).map (·.2)) :=
  State.goodFrame_good _ h hc

/-- What a READING leaves at the Tally and on the page, whatever its generation. -/
structure State.TookReading (s t : State) (f : TallyFrame) : Prop where
  link : t.flag .tallyIf tallyIf.LINK_UP = true
  gen : t.flag .tallyIf tallyIf.GEN_OK = decide (s.mcfGen = some s.tally.gen)
  since : t.tally.sinceReading = s.clock
  eImp : t.tally.eImp = frameField f 0 8
  tSec : t.tally.tSec = frameField f 28 8

theorem State.tookReading_readingTaken (s : State) (f : TallyFrame) : s.TookReading (s.readingTaken f) f := by
  have episode := fun x : State => State.tally_episodes x (s.rd .tallyIf tallyIf.STATUS) (frameField f 38 2)
  have shown : ∀ x : State, x.showGen.tally = x.tally := fun x => (State.showGen_frame x).tally rfl
  have gen : ∀ x : State, ((x.episodes (s.rd .tallyIf tallyIf.STATUS) (frameField f 38 2)).setFlag .tallyIf tallyIf.LINK_UP true).mcfGen = x.mcfGen :=
    fun x => State.mcfGen_congr ((State.episodes_frame ..).nor rfl)
  refine ⟨?_, ?_, ?_, ?_, ?_⟩
  · exact (State.linkUp_showGen _).trans (State.flag_setFlag_self _ _ _ _ (by decide) (by decide))
  · unfold State.readingTaken
    rw [State.genOk_showGen, gen]
    exact congrArg (fun g => decide (s.mcfGen = some g)) (congrArg Tally.gen (episode _) :)
  · exact (congrArg Tally.sinceReading (shown _)).trans (congrArg Tally.sinceReading (episode _) :)
  · exact (congrArg Tally.eImp (shown _)).trans (congrArg Tally.eImp (episode _) :)
  · exact (congrArg Tally.tSec (shown _)).trans (congrArg Tally.tSec (episode _) :)

theorem State.TookReading.congr {s t u : State} {f : TallyFrame} (h : s.TookReading t f)
    (link : u.rd .tallyIf tallyIf.LINK_UP = t.rd .tallyIf tallyIf.LINK_UP) (gen : u.rd .tallyIf tallyIf.GEN_OK = t.rd .tallyIf tallyIf.GEN_OK)
    (tally : { u.tally with eLast := t.tally.eLast } = t.tally) : s.TookReading u f where
  link := (congrArg (fun v => decide (v ≠ 0)) link).trans h.link
  gen := (congrArg (fun v => decide (v ≠ 0)) gen).trans h.gen
  since := (congrArg Tally.sinceReading tally :).trans h.since
  eImp := (congrArg Tally.eImp tally :).trans h.eImp
  tSec := (congrArg Tally.tSec tally :).trans h.tSec

/-- What the page shows of a READING that the MCF understands. -/
structure State.ShowsReading (t : State) (f : TallyFrame) : Prop where
  eImp : t.rd64 .tallyIf tallyIf.E_IMP_LO tallyIf.E_IMP_HI = frameField f 0 8 % 2 ^ 64
  eRev : t.rd64 .tallyIf tallyIf.E_REV_LO tallyIf.E_REV_HI = frameField f 8 8 % 2 ^ 64
  pLast : t.rd .tallyIf tallyIf.P_LAST = frameField f 24 4 % 2 ^ 32
  checksum : t.rd .tallyIf tallyIf.CHECKSUM = frameField f 36 2 % 2 ^ 16
  status : t.rd .tallyIf tallyIf.STATUS = frameField f 38 2 % 2 ^ 16

theorem State.rd64_wr_ne (s : State) (p : Page) {f lo hi : Field} (v : Nat) (hl : fieldPlace lo ≠ fieldPlace f) (hh : fieldPlace hi ≠ fieldPlace f) :
    (s.wr p f v).rd64 p lo hi = s.rd64 p lo hi := by
  rw [State.rd64, State.rd_wr_field _ _ _ _ _ hl, State.rd_wr_field _ _ _ _ _ hh]
  rfl

theorem State.showsReading_readingCopied (s : State) (f : TallyFrame) : (s.readingCopied f).ShowsReading f := by
  unfold State.readingCopied
  refine ⟨?_, ?_, ?_, ?_, State.rd_wr_self _ _ tallyIf.STATUS _ (by decide)⟩
  · rw [State.rd64_wr_ne _ _ _ (by decide) (by decide), State.rd64_wr_ne _ _ _ (by decide) (by decide), State.rd64_wr_ne _ _ _ (by decide) (by decide),
      State.wr64, State.rd64_wr_ne _ _ _ (by decide) (by decide), State.rd64_wr_ne _ _ _ (by decide) (by decide)]
    exact State.rd64_wr64 _ _ _ _ _ rfl rfl (by decide)
  · rw [State.rd64_wr_ne _ _ _ (by decide) (by decide), State.rd64_wr_ne _ _ _ (by decide) (by decide), State.rd64_wr_ne _ _ _ (by decide) (by decide)]
    exact State.rd64_wr64 _ _ _ _ _ rfl rfl (by decide)
  · rw [State.rd_wr_field _ _ _ _ _ (by decide), State.rd_wr_field _ _ _ _ _ (by decide)]
    exact State.rd_wr_self _ _ tallyIf.P_LAST _ (by decide)
  · rw [State.rd_wr_field _ _ _ _ _ (by decide)]
    exact State.rd_wr_self _ _ tallyIf.CHECKSUM _ (by decide)

/-- Beside the fields that it copies a READING leaves the page. -/
theorem State.rd_readingCopied (s : State) (f : TallyFrame) {k : Field} (hk : fieldPlace k < fieldPlace tallyIf.CHECKSUM) :
    (s.readingCopied f).rd .tallyIf k = s.rd .tallyIf k := by
  have kept : ∀ (x : State) (g : Field) v, fieldPlace tallyIf.CHECKSUM ≤ fieldPlace g → (x.wr .tallyIf g v).rd .tallyIf k = x.rd .tallyIf k :=
    fun x g v hg => State.rd_wr_field _ _ _ _ _ (Nat.ne_of_lt (Nat.lt_of_lt_of_le hk hg))
  unfold State.readingCopied State.wr64
  rw [kept _ _ _ (by decide), kept _ _ _ (by decide), kept _ _ _ (by decide), kept _ _ _ (by decide), kept _ _ _ (by decide), kept _ _ _ (by decide),
    kept _ _ _ (by decide)]

theorem State.rd_readingHidden (s : State) {k : Field} (hk : fieldPlace k < fieldPlace tallyIf.CHECKSUM) :
    s.readingHidden.rd .tallyIf k = s.rd .tallyIf k := by
  have kept : ∀ (x : State) (g : Field), fieldPlace tallyIf.CHECKSUM ≤ fieldPlace g → (x.clr .tallyIf g).rd .tallyIf k = x.rd .tallyIf k :=
    fun x g hg => State.rd_wr_field _ _ _ _ _ (Nat.ne_of_lt (Nat.lt_of_lt_of_le hk hg))
  unfold State.readingHidden State.clrAll
  simp only [List.foldl_cons, List.foldl_nil]
  rw [kept _ _ (by decide), kept _ _ (by decide), kept _ _ (by decide), kept _ _ (by decide), kept _ _ (by decide), kept _ _ (by decide),
    kept _ _ (by decide)]

theorem State.readingHidden_shows (s : State) : s.readingHidden.rd64 .tallyIf tallyIf.E_IMP_LO tallyIf.E_IMP_HI = 0 ∧
    s.readingHidden.rd .tallyIf tallyIf.STATUS = 0 := by
  unfold State.readingHidden State.clrAll
  simp only [List.foldl_cons, List.foldl_nil]
  refine ⟨?_, State.rd_wr_self _ _ tallyIf.STATUS _ (by decide)⟩
  unfold State.clr
  rw [State.rd64_wr_ne _ _ _ (by decide) (by decide), State.rd64_wr_ne _ _ _ (by decide) (by decide), State.rd64_wr_ne _ _ _ (by decide) (by decide),
    State.rd64_wr_ne _ _ _ (by decide) (by decide), State.rd64, State.rd_wr_field _ _ _ _ _ (by decide), State.rd_wr_self _ _ _ _ (by decide),
    State.rd_wr_self _ _ _ _ (by decide)]
  rfl

theorem State.regs_firstReading (s : State) (f : TallyFrame) : (s.firstReading f).regs = s.regs := by
  unfold State.firstReading
  split <;> rfl

theorem State.tally_firstReading (s : State) (f : TallyFrame) : { (s.firstReading f).tally with eLast := s.tally.eLast } = s.tally := by
  unfold State.firstReading
  split <;> rfl

/-- A good READING (R421, R430). -/
theorem reading_shows {s : State} {f : TallyFrame} (h : s.tallyLink = true) (hc : f.crcOk = true) : s.TookReading (reading s f) f ∧
    (s.mcfGen = some s.tally.gen → (reading s f).ShowsReading f) ∧
    (s.mcfGen ≠ some s.tally.gen → (reading s f).rd64 .tallyIf tallyIf.E_IMP_LO tallyIf.E_IMP_HI = 0 ∧ (reading s f).rd .tallyIf tallyIf.STATUS = 0) := by
  have took := State.tookReading_readingTaken s f
  rw [reading_good h hc, took.gen]
  by_cases hg : s.mcfGen = some s.tally.gen
  · rw [if_neg (by simp [hg])]
    generalize ([(0, 4), (3, 5), (4, 6)].filter (fun e => bit (frameField f 38 2) e.1 && !bit (s.rd .tallyIf tallyIf.STATUS) e.1)).map (·.2) = l
    have copied : ∀ k, 0x24 * 32 ≤ k.off * 32 + k.lsb → k.off * 32 + k.lsb < 131072 →
        ((((s.readingTaken f).readingCopied f).firstReading f).errs .tallyIf l).rd .tallyIf k = ((s.readingTaken f).readingCopied f).rd .tallyIf k :=
      fun k hk hk' => (State.rd_errs_above _ _ _ _ _ hk hk').trans (State.rd_congr (State.regs_firstReading ..) _ _)
    have page := State.showsReading_readingCopied (s.readingTaken f) f
    have tally : { ((((s.readingTaken f).readingCopied f).firstReading f).errs .tallyIf l).tally with eLast := (s.readingTaken f).tally.eLast } =
        (s.readingTaken f).tally := by
      rw [(State.errs_frame ..).tally rfl]
      exact State.tally_firstReading ((s.readingTaken f).readingCopied f) f
    refine ⟨took.congr ?_ ?_ tally, fun _ => ⟨?_, ?_, ?_, ?_, ?_⟩, (absurd hg ·)⟩
    · exact (copied _ (by decide) (by decide)).trans (State.rd_readingCopied _ _ (by decide))
    · exact (copied _ (by decide) (by decide)).trans (State.rd_readingCopied _ _ (by decide))
    · rw [State.rd64, copied _ (by decide) (by decide), copied _ (by decide) (by decide)]
      exact page.eImp
    · rw [State.rd64, copied _ (by decide) (by decide), copied _ (by decide) (by decide)]
      exact page.eRev
    · exact (copied _ (by decide) (by decide)).trans page.pLast
    · exact (copied _ (by decide) (by decide)).trans page.checksum
    · exact (copied _ (by decide) (by decide)).trans page.status
  · rw [if_pos (by simp [hg])]
    exact ⟨took.congr (State.rd_readingHidden _ (by decide)) (State.rd_readingHidden _ (by decide)) rfl, (absurd · hg), fun _ => State.readingHidden_shows _⟩

/-! ### Intervals and the link -/

/-- The energy of an interval, measured and recorded (R416, R425). -/
def State.intervalTaken (s : State) (a b : Nat) : State :=
  let t := s.updTally (fun x => { x.measure a b s.clock with tSec := (x.tSec / 900 + 1) * 900 })
  t.tallyLog 1 t.tally.regs

theorem intervalSign_spent {s : State} (a b : Nat) (h : s.hasTally = true) (hs : s.tally.spent = true) : intervalSign s a b = s.intervalTaken a b :=
  (if_neg (by rw [h]; nofun)).trans (if_pos hs)

/-- While indices are left an interval frame goes out (R422). -/
theorem intervalSign_signs {s : State} (a b : Nat) (h : s.hasTally = true) (hs : s.tally.spent = false) :
    ∃ l, intervalSign s a b = (s.intervalTaken a b).takeIndex.signedBody.2.fromTally 2 l :=
  ⟨_, (if_neg (by rw [h]; nofun)).trans (if_neg (ne_true_of_eq_false hs))⟩

theorem tallyLinkTimeout_due {s : State} (h : s.flag .tallyIf tallyIf.LINK_UP = true) (ht : s.tally.sinceReading + 750000000 ≤ s.clock) :
    tallyLinkTimeout s = ((s.setFlag .tallyIf tallyIf.LINK_UP false).err .tallyIf 0).updTally (fun x => { x with eLast := none }) :=
  if_neg (by simp [h, Nat.not_lt.2 ht])

end Sys2Proof.Machine
end

section
/-! The statement of spec/17_tally.md about the Tally's frames (O51). -/

namespace Sys2Proof.Machine

/-- A frame on a link that is not powered is not seen, and one with a bad CRC is discarded (R419). -/
theorem exec_tallyFrame_discarded {s : State} {f : TallyFrame} {i : Instr}
    (hi : i = .reading f ∨ i = .signed f ∨ i = .log f ∨ i = .cert f ∨ i = .status f) : (s.tallyLink = false → exec i s = .next s) ∧
    (s.tallyLink = true → f.crcOk = false → exec i s = .next (s.err .tallyIf 1)) := by
  obtain rfl | rfl | rfl | rfl | rfl := hi
  · exact ⟨fun h => congrArg Host.Outcome.next (State.goodFrame_off _ h), fun h hc => congrArg Host.Outcome.next (State.goodFrame_bad _ h hc)⟩
  · exact ⟨fun h => congrArg Host.Outcome.next (State.goodFrame_off _ h), fun h hc => congrArg Host.Outcome.next (State.goodFrame_bad _ h hc)⟩
  · exact ⟨fun h => congrArg Host.Outcome.next (State.goodFrame_off _ h), fun h hc => congrArg Host.Outcome.next (State.goodFrame_bad _ h hc)⟩
  · exact ⟨fun h => congrArg Host.Outcome.next (State.goodFrame_off _ h), fun h hc => congrArg Host.Outcome.next (State.goodFrame_bad _ h hc)⟩
  · exact ⟨fun h => congrArg Host.Outcome.next (State.goodFrame_off _ h), fun h hc => congrArg Host.Outcome.next (State.goodFrame_bad _ h hc)⟩

section
variable {s : State} {f : TallyFrame} (h : s.tallyLink = true) (hc : f.crcOk = true)
include h hc

theorem exec_signed_good : ∃ t, exec (.signed f) s = .next t ∧ t.Holds 2 f ∧ (f.payload.getD 88 0 = 1 → t.tally.queued = none ∧
    (s.tally.spent = false → t.tally.q = (if s.tally.treeLeft ≠ 0 then s.tally.q else s.tally.trees * 32768) + 1)) := by
  refine ⟨_, congrArg Host.Outcome.next (signed_good h hc), State.holds_bufferFrame .., fun hr => ?_⟩
  rw [if_pos hr]
  exact ⟨rfl, fun hs => State.q_takeIndex hs⟩

theorem exec_status_good : ∃ t, exec (.status f) s = .next t ∧ t.Holds 5 f ∧ (f.payload = [1] → bit (t.rd .tallyIf page.ERR_STAT) 2 = true) ∧
    (f.payload = [3] → bit (t.rd .tallyIf page.ERR_STAT) 7 = true) := by
  have held := State.holds_bufferFrame s 5 f
  refine ⟨_, congrArg Host.Outcome.next (status_good h hc), ?_⟩
  by_cases busy : f.payload = [1]
  · rw [if_pos busy]
    exact ⟨held.err 2, fun _ => State.stat_err _ _ _ _ (by decide), fun spent => absurd (busy.symm.trans spent) (by decide)⟩
  · rw [if_neg busy]
    by_cases spent : f.payload = [3]
    · rw [if_pos spent]
      exact ⟨held.err 7, (absurd · busy), fun _ => State.stat_err _ _ _ _ (by decide)⟩
    · rw [if_neg spent]
      exact ⟨held, (absurd · busy), (absurd · spent)⟩

end

/-- INTERVAL_SIGN loses no energy, and sends its frame while indices are left (R416, R422). -/
theorem exec_intervalSign_spec {s : State} (a b : Nat) (h : s.hasTally = true) : ∃ t, exec (.intervalSign a b) s = .next t ∧
    t.tally.eImp = (s.tally.eImp + a) % 2 ^ 64 ∧ t.tally.eRev = (s.tally.eRev + b) % 2 ^ 64 ∧ t.tally.tSec = (s.tally.tSec / 900 + 1) * 900 ∧
    t.tally.led.total * 100 + t.tally.led.rest = s.tally.led.total * 100 + s.tally.led.rest + a ∧
    t.tally.pulse.total * 1000 + t.tally.pulse.rest = s.tally.pulse.total * 1000 + s.tally.pulse.rest + a ∧
    (s.tally.spent = true → t.sent = s.sent) ∧
    (s.tally.spent = false → ∃ l, t.sent = s.sent ++ [.tallyOut 2 s.tally.fseqTx l] ∧ t.tally.fseqTx = (s.tally.fseqTx + 1) % 65536) := by
  have led := PulseOut.energy_add s.tally.led 100 (pulseSlot false) a s.clock
  have pulse := PulseOut.energy_add s.tally.pulse 1000 (pulseSlot true) a s.clock
  cases hs : s.tally.spent with
  | true => exact ⟨_, congrArg Host.Outcome.next (intervalSign_spent a b h hs), rfl, rfl, rfl, led, pulse, fun _ => rfl, nofun⟩
  | false =>
    obtain ⟨l, hl⟩ := intervalSign_signs a b h hs
    have taken := State.tally_takeIndex (s.intervalTaken a b)
    have body : (s.intervalTaken a b).takeIndex.signedBody.2.tally = (s.intervalTaken a b).takeIndex.tally := (State.signedBody_frame _).tally rfl
    have sent : (s.intervalTaken a b).takeIndex.signedBody.2.sent = s.sent :=
      ((State.signedBody_frame _).sent rfl).trans ((State.takeIndex_frame _).sent rfl)
    have kept : { (s.intervalTaken a b).takeIndex.signedBody.2.tally with
        log := (s.intervalTaken a b).tally.log, logNext := (s.intervalTaken a b).tally.logNext, q := (s.intervalTaken a b).tally.q,
        treeLeft := (s.intervalTaken a b).tally.treeLeft, trees := (s.intervalTaken a b).tally.trees } = (s.intervalTaken a b).tally := by
      rw [body]
      exact taken
    refine ⟨_, congrArg Host.Outcome.next hl, (congrArg Tally.eImp kept :), (congrArg Tally.eRev kept :), (congrArg Tally.tSec kept :), ?_, ?_, nofun,
      fun _ => ⟨l, ?_, ?_⟩⟩
    · refine .trans ?_ led
      exact congrArg (fun x : PulseOut => x.total * 100 + x.rest) (congrArg Tally.led kept :)
    · refine .trans ?_ pulse
      exact congrArg (fun x : PulseOut => x.total * 1000 + x.rest) (congrArg Tally.pulse kept :)
    · unfold State.fromTally
      exact (congrArg (· ++ _) sent).trans (congrArg (fun q => s.sent ++ [Msg.tallyOut 2 q l]) (congrArg Tally.fseqTx kept :))
    · exact congrArg (fun q => (q + 1) % 65536) (congrArg Tally.fseqTx kept :)

theorem exec_tallyLinkTimeout_spec {s : State} (h : s.flag .tallyIf tallyIf.LINK_UP = true) (ht : s.tally.sinceReading + 750000000 ≤ s.clock) :
    ∃ t, exec .tallyLinkTimeout s = .next t ∧ t.flag .tallyIf tallyIf.LINK_UP = false ∧ bit (t.rd .tallyIf page.ERR_STAT) 0 = true ∧
      t.tally.eLast = none := by
  refine ⟨_, congrArg Host.Outcome.next (tallyLinkTimeout_due h ht), ?_, State.stat_err _ _ _ _ (by decide), rfl⟩
  refine (congrArg (fun v => decide (v ≠ 0)) (State.rd_err (s.setFlag .tallyIf tallyIf.LINK_UP false) .tallyIf 0 false .tallyIf tallyIf.LINK_UP
    (by decide) (by decide))).trans ?_
  exact State.flag_setFlag_self _ _ _ _ (by decide) (by decide)

/-- Settles O51, frame by frame. -/
theorem tallyFrames : Obligations.TallyFrames := by
  refine ⟨fun s f i hi => ?_, fun s f h hc => ?_, fun s f i k h hc hi => ?_, fun s a b => ?_, fun s => ?_⟩
  · obtain ⟨off, bad⟩ := exec_tallyFrame_discarded (s := s) hi
    exact ⟨off, fun h hc => ⟨_, bad h hc, State.stat_err _ _ _ _ (by decide), (State.err_frame ..).tally rfl⟩⟩
  · obtain ⟨took, shows, hidden⟩ := reading_shows h hc
    refine ⟨_, rfl, took.link, took.gen, took.since, took.eImp, took.tSec, fun hg => ?_, hidden⟩
    have page := shows hg
    exact ⟨page.eImp, page.eRev, page.pLast, page.checksum, page.status⟩
  · obtain ⟨rfl, rfl⟩ | ⟨rfl, rfl⟩ | ⟨rfl, rfl⟩ | ⟨rfl, rfl⟩ := hi
    · obtain ⟨t, ht, held, request⟩ := exec_signed_good h hc
      exact ⟨t, ht, held.frame, held.valid, held.type, held.length, fun _ => request, nofun, nofun⟩
    · have held := State.holds_bufferFrame s 3 f
      exact ⟨_, congrArg Host.Outcome.next (log_good h hc), held.frame, held.valid, held.type, held.length, nofun, nofun, nofun⟩
    · have held := State.holds_bufferFrame s 4 f
      exact ⟨_, congrArg Host.Outcome.next (cert_good h hc), held.frame, held.valid, held.type, held.length, nofun, nofun, nofun⟩
    · obtain ⟨t, ht, held, busy, spent⟩ := exec_status_good h hc
      exact ⟨t, ht, held.frame, held.valid, held.type, held.length, nofun, fun _ => busy, fun _ => spent⟩
  · exact ⟨fun h => congrArg Host.Outcome.next (if_pos (by rw [h]; rfl)), exec_intervalSign_spec a b⟩
  · refine ⟨fun h => congrArg Host.Outcome.next (if_pos ?_), exec_tallyLinkTimeout_spec⟩
    simpa using h

end Sys2Proof.Machine
end

section
/-! SUPPORT. The requests of the engine to its Tally (R420, R422, R425) and the shares of the energy (R428). -/

namespace Sys2Proof.Machine

/-- The nonce that the page holds. -/
def State.nonce (s : State) : List Byte := (List.range 8).flatMap (fun i => leBytes 4 (s.rd .tallyIf (tallyIf.NONCE i)))

section
variable {s : State} (h : s.tallyLink = true)
include h

theorem reqSigned_sends : reqSigned s =
    if (s.toTally 0x81 s.nonce).tally.spent then (s.toTally 0x81 s.nonce).fromTally 5 [3]
    else if (s.toTally 0x81 s.nonce).tally.queued.isSome then (s.toTally 0x81 s.nonce).fromTally 5 [1]
    else (s.toTally 0x81 s.nonce).updTally (fun x => { x with queued := some (leNat s.nonce) }) :=
  if_neg (by rw [h]; nofun)

/-- The answer of the Tally to a request for the record of index `i` (R420, R425). -/
def State.logAnswer (s : State) (i : Nat) : Nat × List Byte :=
  match s.tally.log.find? (fun r => r.seq = i) with
  | some r => if s.tally.logNext ≤ i + Config.tallyRing then (3, r.bytes) else (5, [2])
  | none => (5, [2])

theorem reqLog_sends : reqLog s = (s.toTally 0x82 (leBytes 4 (s.rd .tallyIf tallyIf.LOG_IDX))).fromTally
    (s.logAnswer (s.rd .tallyIf tallyIf.LOG_IDX)).1 (s.logAnswer (s.rd .tallyIf tallyIf.LOG_IDX)).2 := by
  have known : ∀ x, (s.toTally 0x82 x).tally.log = s.tally.log := fun _ => rfl
  have next : ∀ x, (s.toTally 0x82 x).tally.logNext = s.tally.logNext := fun _ => rfl
  unfold reqLog State.logAnswer
  rw [if_neg (by rw [h]; nofun)]
  dsimp only
  rw [known]
  cases s.tally.log.find? (fun r => r.seq = s.rd .tallyIf tallyIf.LOG_IDX) with
  | none => rfl
  | some r =>
    dsimp only
    rw [next]
    split <;> rfl

theorem reqCert_sends : reqCert s = (s.toTally 0x84 []).fromTally 4 (leBytes 3400 (Config.tallyCert s.tally.serial)) :=
  if_neg (by rw [h]; nofun)

end

/-! ### The firmware and the seal -/

section
variable {s : State} (h : s.hasTally = true)
include h

theorem tallyHoldupSave_saves : tallyHoldupSave s = (s.tallyLog 3 s.tally.regs).updTally (fun x => { x with treeLeft := 0, queued := none }) :=
  if_neg (by rw [h]; nofun)

theorem sealOpen_records (ho : s.tally.sealOpen = false) : sealOpen s = (s.updTally (fun x => { x with sealOpen := true })).tallyLog 4 [] :=
  if_neg (by rw [h, ho]; nofun)

theorem sealClosed_records (ho : s.tally.sealOpen = true) : sealClosed s = (s.updTally (fun x => { x with sealOpen := false })).tallyLog 5 [] :=
  if_neg (by rw [h, ho]; nofun)

theorem fwChange_open (ho : s.tally.sealOpen = true) (l : List Byte) : fwChange s l =
    if !s.tally.accepts (signedObjOf l) then s.tallyLog 7 [] else
    (s.tallyLog 6 [s.tally.checksum, s.tally.version, crc16 (signedObjOf l).payload, (signedObjOf l).version]).updTally (fun x => { x with
      checksum := crc16 (signedObjOf l).payload, version := (signedObjOf l).version
      gen := (((signedObjOf l).ifgen.find? (fun e => e.1 = 0x0A)).map (·.2)).getD x.gen }) :=
  if_neg (by rw [h, ho]; nofun)

end

/-! ### Shares -/

/-- The share of a partition in the energy of the second, with its rounding (R428). -/
def State.share (s : State) (e total p : Nat) : Nat := if total = 0 then 0 else (s.freeQuot (e * (s.part p).tileE) total).1

/-- A partition takes its share and starts its next second. -/
def State.shareTo (e total : Nat) (s : State) (p : Nat) : State :=
  ((s.freeQuot (e * (s.part p).tileE) total).2).updPart p (fun x => { x with shareE := (x.shareE + s.share e total p) % 2 ^ 64, tileE := 0 })

section
variable (e total : Nat)

theorem State.part_shareTo_self (s : State) (p : Nat) : (s.shareTo e total p).part p =
    { s.part p with shareE := ((s.part p).shareE + s.share e total p) % 2 ^ 64, tileE := 0 } := by
  rw [State.shareTo, State.part_updPart_self, State.part, (State.freeQuot_frame ..).parts rfl]
  rfl

theorem State.part_shareTo_ne (s : State) {p q : Nat} (hq : q ≠ p) : (s.shareTo e total p).part q = s.part q := by
  rw [State.shareTo, State.part_updPart, if_neg hq, State.part, (State.freeQuot_frame ..).parts rfl]
  rfl

theorem State.part_foldl_shareTo_notMem (l : List Nat) (s : State) {q : Nat} (hq : q ∉ l) : (l.foldl (State.shareTo e total) s).part q = s.part q := by
  induction l generalizing s with
  | nil => rfl
  | cons p l ih =>
    obtain ⟨hne, hrest⟩ := List.ne_and_not_mem_of_not_mem_cons hq
    exact (ih _ hrest).trans (State.part_shareTo_ne _ _ _ hne)

/-- The share is exact, or rounded up, and none where no tile has used energy. -/
theorem State.share_spec (s : State) (p : Nat) : (total = 0 → s.share e total p = 0) ∧ (total ≠ 0 →
    s.share e total p = e * (s.part p).tileE / total ∨ s.share e total p = e * (s.part p).tileE / total + 1) := by
  unfold State.share
  refine ⟨fun h => if_pos h, fun h => ?_⟩
  rw [if_neg h]
  exact State.freeQuot_fst ..

/-- Each partition of a list without duplicates takes its share once. -/
theorem State.part_foldl_shareTo {l : List Nat} (hl : l.Nodup) (s : State) {p : Nat} (hp : p ∈ l) : ∃ v,
    (l.foldl (State.shareTo e total) s).part p = { s.part p with shareE := ((s.part p).shareE + v) % 2 ^ 64, tileE := 0 } ∧ (total = 0 → v = 0) ∧
      (total ≠ 0 → v = e * (s.part p).tileE / total ∨ v = e * (s.part p).tileE / total + 1) := by
  induction l generalizing s with
  | nil => exact absurd hp List.not_mem_nil
  | cons q l ih =>
    obtain ⟨hq, hrest⟩ := List.nodup_cons.1 hl
    by_cases hpq : p = q
    · subst hpq
      exact ⟨_, (State.part_foldl_shareTo_notMem e total l _ hq).trans (State.part_shareTo_self ..), State.share_spec ..⟩
    · have later := ih hrest (s.shareTo e total q) ((List.mem_cons.1 hp).resolve_left hpq)
      rw [State.part_shareTo_ne _ _ _ hpq] at later
      exact later

end

/-- The source of the second's energy on the page, and the register that the next second counts from. -/
def State.shareSource (s : State) (src : Bool) : State :=
  if src then s.setFlag .tallyIf tallyIf.SHARE_SRC src
  else (s.setFlag .tallyIf tallyIf.SHARE_SRC src).updTally (fun x => { x with
    eLast := some ((s.setFlag .tallyIf tallyIf.SHARE_SRC src).rd64 .tallyIf tallyIf.E_IMP_LO tallyIf.E_IMP_HI) })

theorem State.shareSource_shows (s : State) (src : Bool) : (s.shareSource src).flag .tallyIf tallyIf.SHARE_SRC = src ∧ (s.shareSource src).parts = s.parts := by
  have set : (s.setFlag .tallyIf tallyIf.SHARE_SRC src).flag .tallyIf tallyIf.SHARE_SRC = src :=
    State.flag_setFlag_self _ _ _ _ (by decide) (by decide)
  unfold State.shareSource
  split
  · exact ⟨set, rfl⟩
  · exact ⟨set, rfl⟩

theorem shareUpdate_shares {s : State} (pin : Nat) (h : s.sps.state = .good) : shareUpdate s pin = (List.range 12).foldl
    (State.shareTo (s.inputEnergy pin).1 ((List.range 12).map (fun p => (s.part p).tileE)).sum) (s.shareSource (s.inputEnergy pin).2) :=
  if_neg (Classical.not_not.2 h)

/-- Shares leave the registers. -/
theorem State.regs_foldl_shareTo (e total : Nat) (l : List Nat) (s : State) : (l.foldl (State.shareTo e total) s).regs = s.regs := by
  induction l generalizing s with
  | nil => rfl
  | cons p l ih => exact (ih _).trans ((State.freeQuot_frame ..).regs rfl)

end Sys2Proof.Machine
end

section
/-! The statement of spec/17_tally.md about the Tally's services (O52). -/

namespace Sys2Proof.Machine

theorem exec_tallyRequest_ignored {s : State} {i : Instr} (h : s.tallyLink = false) (hi : i = .reqSigned ∨ i = .reqLog ∨ i = .reqCert) :
    exec i s = .next s := by
  obtain rfl | rfl | rfl := hi
  · exact congrArg Host.Outcome.next (if_pos (by rw [h]; rfl))
  · exact congrArg Host.Outcome.next (if_pos (by rw [h]; rfl))
  · exact congrArg Host.Outcome.next (if_pos (by rw [h]; rfl))

theorem exec_tallyOwn_ignored {s : State} {i : Instr} (h : s.hasTally = false)
    (hi : i = .tallyHoldupSave ∨ i = .sealOpen ∨ i = .sealClosed ∨ ∃ b, i = .fwChange b) : exec i s = .next s := by
  obtain rfl | rfl | rfl | ⟨b, rfl⟩ := hi
  · exact congrArg Host.Outcome.next (if_pos (by rw [h]; rfl))
  · exact congrArg Host.Outcome.next (if_pos (by rw [h]; rfl))
  · exact congrArg Host.Outcome.next (if_pos (by rw [h]; rfl))
  · exact congrArg Host.Outcome.next (if_pos (by rw [h]; rfl))

section
variable {s : State} (h : s.tallyLink = true)
include h

/-- REQ_SIGNED sends the nonce; it waits, or the Tally answers EXHAUSTED or BUSY (R422). -/
theorem exec_reqSigned_spec : ∃ t, exec .reqSigned s = .next t ∧ t.sent = s.sent ++ [.tallyFrame 0x81 s.tally.fseqRx s.nonce] ++
      (if s.tally.spent then [.tallyOut 5 s.tally.fseqTx [3]] else if s.tally.queued.isSome then [.tallyOut 5 s.tally.fseqTx [1]] else []) ∧
    t.tally.queued = if s.tally.spent = false ∧ s.tally.queued = none then some (leNat s.nonce) else s.tally.queued := by
  have spent : (s.toTally 0x81 s.nonce).tally.spent = s.tally.spent := rfl
  have queued : (s.toTally 0x81 s.nonce).tally.queued = s.tally.queued := rfl
  refine ⟨_, congrArg Host.Outcome.next (reqSigned_sends h), ?_⟩
  rw [spent, queued]
  cases hs : s.tally.spent with
  | true => exact ⟨rfl, rfl⟩
  | false =>
    cases hq : s.tally.queued with
    | some n => exact ⟨rfl, hq⟩
    | none => exact ⟨(List.append_nil _).symm, rfl⟩

/-- REQ_LOG sends the index; the Tally answers with the record or NO_RECORD (R425). -/
theorem exec_reqLog_spec : ∃ t, exec .reqLog s = .next t ∧ t.sent = s.sent ++ [.tallyFrame 0x82 s.tally.fseqRx (leBytes 4 (s.rd .tallyIf tallyIf.LOG_IDX))] ++
    [.tallyOut (s.logAnswer (s.rd .tallyIf tallyIf.LOG_IDX)).1 s.tally.fseqTx (s.logAnswer (s.rd .tallyIf tallyIf.LOG_IDX)).2] :=
  ⟨_, congrArg Host.Outcome.next (reqLog_sends h), rfl⟩

/-- REQ_CERT is answered with the certificate (R420). -/
theorem exec_reqCert_spec : ∃ t l, exec .reqCert s = .next t ∧
    t.sent = s.sent ++ [.tallyFrame 0x84 s.tally.fseqRx [], .tallyOut 4 s.tally.fseqTx l] ∧ l.length = 3400 := by
  refine ⟨_, leBytes 3400 (Config.tallyCert s.tally.serial), congrArg Host.Outcome.next (reqCert_sends h), ?_, leBytes_length ..⟩
  exact List.append_assoc s.sent [Msg.tallyFrame 0x84 s.tally.fseqRx []] [.tallyOut 4 s.tally.fseqTx (leBytes 3400 (Config.tallyCert s.tally.serial))]

end

theorem exec_tallyHoldupSave_spec {s : State} (h : s.hasTally = true) : ∃ t, exec .tallyHoldupSave s = .next t ∧ t.tally.treeLeft = 0 ∧
    t.tally.queued = none ∧ t.tally.log = s.tally.log ++ [{ seq := s.tally.logNext, kind := 3, vals := [s.tally.eImp, s.tally.eRev, s.tally.tSec] }] :=
  ⟨_, congrArg Host.Outcome.next (tallyHoldupSave_saves h), rfl, rfl, rfl⟩

section
variable {s : State} (h : s.hasTally = true)
include h

theorem exec_seal_closed (ho : s.tally.sealOpen = false) : (∃ t, exec .sealOpen s = .next t ∧ t.tally.sealOpen = true ∧
      t.tally.log = s.tally.log ++ [{ seq := s.tally.logNext, kind := 4, vals := [] }]) ∧ exec .sealClosed s = .next s ∧
    ∀ b, exec (.fwChange b) s = .next s :=
  ⟨⟨_, congrArg Host.Outcome.next (sealOpen_records h ho), rfl, rfl⟩, congrArg Host.Outcome.next (if_pos (by rw [ho, Bool.or_comm]; rfl)),
    fun _ => congrArg Host.Outcome.next (if_pos (by rw [ho, Bool.or_comm]; rfl))⟩

theorem exec_seal_open (ho : s.tally.sealOpen = true) : (∃ t, exec .sealClosed s = .next t ∧ t.tally.sealOpen = false ∧
      t.tally.log = s.tally.log ++ [{ seq := s.tally.logNext, kind := 5, vals := [] }]) ∧ exec .sealOpen s = .next s :=
  ⟨⟨_, congrArg Host.Outcome.next (sealClosed_records h ho), rfl, rfl⟩, congrArg Host.Outcome.next (if_pos (by rw [ho, Bool.or_comm]; rfl))⟩

/-- FW_CHANGE records what it takes, or that it refuses (R426, R427). -/
theorem exec_fwChange_spec (ho : s.tally.sealOpen = true) (b : List Byte) :
    let o := signedObjOf b
    let sum := crc16 o.payload
    let ok := s.tally.accepts o
    ∃ t, exec (.fwChange b) s = .next t ∧ t.tally.checksum = (if ok then sum else s.tally.checksum) ∧
      t.tally.version = (if ok then o.version else s.tally.version) ∧ t.tally.eImp = s.tally.eImp ∧ t.tally.eRev = s.tally.eRev ∧
      t.tally.log = s.tally.log ++ [if ok then { seq := s.tally.logNext, kind := 6, vals := [s.tally.checksum, s.tally.version, sum, o.version] }
        else { seq := s.tally.logNext, kind := 7, vals := [] }] := by
  intro o sum ok
  refine ⟨_, congrArg Host.Outcome.next (fwChange_open h ho b), ?_⟩
  show _ ∧ _ ∧ _ ∧ _ ∧ _
  cases hok : ok with
  | true =>
    rw [if_neg (show ¬ (!s.tally.accepts (signedObjOf b)) = true by rw [show s.tally.accepts (signedObjOf b) = true from hok]; nofun)]
    exact ⟨rfl, rfl, rfl, rfl, rfl⟩
  | false =>
    rw [if_pos (show (!s.tally.accepts (signedObjOf b)) = true by rw [show s.tally.accepts (signedObjOf b) = false from hok]; rfl)]
    exact ⟨rfl, rfl, rfl, rfl, rfl⟩

end

/-- SHARE_UPDATE gives every partition its share (R428). -/
theorem exec_shareUpdate_spec {s : State} (pin : Nat) (h : s.sps.state = .good) : ∃ t, exec (.shareUpdate pin) s = .next t ∧
    t.flag .tallyIf tallyIf.SHARE_SRC = (s.inputEnergy pin).2 ∧
    (let total := ((List.range 12).map (fun p => (s.part p).tileE)).sum
     ∀ p, p < 12 → ∃ v, t.part p = { s.part p with shareE := ((s.part p).shareE + v) % 2 ^ 64, tileE := 0 } ∧ (total = 0 → v = 0) ∧
       (total ≠ 0 → v = (s.inputEnergy pin).1 * (s.part p).tileE / total ∨ v = (s.inputEnergy pin).1 * (s.part p).tileE / total + 1)) := by
  obtain ⟨source, parts⟩ := State.shareSource_shows s (s.inputEnergy pin).2
  refine ⟨_, congrArg Host.Outcome.next (shareUpdate_shares pin h), ?_, fun p hp => ?_⟩
  · exact (congrArg (fun v => decide (v ≠ 0)) (State.rd_congr (State.regs_foldl_shareTo ..) _ _)).trans source
  · have same : (s.shareSource (s.inputEnergy pin).2).part p = s.part p := by
      rw [State.part, parts]
      rfl
    have shared := State.part_foldl_shareTo (s.inputEnergy pin).1 ((List.range 12).map (fun p => (s.part p).tileE)).sum List.nodup_range
      (s.shareSource (s.inputEnergy pin).2) (List.mem_range.2 hp)
    rw [same] at shared
    exact shared

/-- Settles O52, service by service. -/
theorem tallyServices : Obligations.TallyServices := by
  refine ⟨fun s i h hi => exec_tallyRequest_ignored h hi, fun s h => ⟨exec_reqSigned_spec h, ?_, exec_reqCert_spec h⟩,
    fun s h => exec_tallyHoldupSave_spec h, fun s i h hi => exec_tallyOwn_ignored h hi,
    fun s h => ⟨exec_seal_closed h, fun ho => ⟨(exec_seal_open h ho).1, (exec_seal_open h ho).2, exec_fwChange_spec h ho⟩⟩,
    fun s pin => ⟨fun h => congrArg Host.Outcome.next (if_pos h), exec_shareUpdate_spec pin⟩⟩
  obtain ⟨t, ht, sent⟩ := exec_reqLog_spec h
  refine ⟨t, ht, sent.trans (congrArg (HAppend.hAppend _) ?_)⟩
  unfold State.logAnswer
  cases s.tally.log.find? (fun r => r.seq = s.rd .tallyIf tallyIf.LOG_IDX) with
  | none => rfl
  | some r =>
    dsimp only
    split <;> rfl

end Sys2Proof.Machine
end

section
/-! SUPPORT. The start of a sequence on an idle rail monitor (R344, R345), and what a NAK counts. -/

namespace Sys2Proof.Machine

/-! ### Starts of a rail monitor -/

theorem State.rmbOf_congr {s t : State} (h : t.rmbs = s.rmbs) (pg : Page) : t.rmbOf pg = s.rmbOf pg := by
  rw [State.rmbOf, h]
  rfl

section
variable {s : State} {pg : Page} {src : Nat}

/-- The one source that waits is served next, an URGENT one before anything else (R345). -/
theorem State.nextSrc_single (h : (s.rmbOf pg).pend = [src]) (hs : src < 8) :
    s.nextSrc pg true = (if s.urgent pg src then some src else none) ∧ s.nextSrc pg false = some src := by
  have waits : ∀ k, k < 8 → (List.range 8).filter (fun i => [k].contains i) = [k] := by decide
  unfold State.nextSrc
  rw [h, waits src hs]
  cases hu : s.urgent pg src with
  | true => simp [hu]
  | false => simp [hu]

/-- What the sequencer holds after the start of a sequence: the entry of its source, from the next cycle on (R344). -/
theorem State.cur_beginSeq (s : State) (pg : Page) (src c : Nat) :
    ∃ x, ((s.beginSeq pg src c).rmbOf pg).cur = some x ∧ x.entry = s.rd pg (rmb.START_ENTRY src) ∧ x.began = c := by
  unfold State.beginSeq State.beginSlot
  dsimp only
  rw [State.rmbOf_updRmb_self]
  exact ⟨_, rfl, rfl, rfl⟩

/-- An idle sequencer with one source that waits starts it. -/
theorem State.nextSlot_single (c : Nat) (hp : (s.rmbOf pg).pend = [src]) (hs : src < 8) (hc : (s.rmbOf pg).cur = none)
    (hi : (s.rmbOf pg).intr = none) (hh : (s.rmbOf pg).held = none) (hr : s.flag pg rmb.REF_RDY = true) (he : s.flag pg page.EN = true) :
    s.nextSlot pg c = s.beginSeq pg src c := by
  obtain ⟨urgent, any⟩ := State.nextSrc_single hp hs
  unfold State.nextSlot
  dsimp only
  rw [if_neg (by simp [hc, hr, he]), hh, hi, any, urgent]
  cases s.urgent pg src with
  | true => rfl
  | false => rfl

/-- A start on an idle sequencer begins its sequence in the next cycle (R344, R345). -/
theorem State.cur_startSrc (hs : src < 8) (he : s.flag pg page.EN = true) (hen : s.flag pg (rmb.SRC_EN src) = true) (hp : (s.rmbOf pg).pend = [])
    (hc : (s.rmbOf pg).cur = none) (hi : (s.rmbOf pg).intr = none) (hh : (s.rmbOf pg).held = none) (hr : s.flag pg rmb.REF_RDY = true) :
    ∃ x, ((s.startSrc pg src).rmbOf pg).cur = some x ∧ x.entry = s.rd pg (rmb.START_ENTRY src) ∧ x.began = s.clock + 1 := by
  have waits : ((s.updRmb pg (fun x => { x with pend := x.pend ++ [src] })).rmbOf pg) = { s.rmbOf pg with pend := [src] } := by
    rw [State.rmbOf_updRmb_self, hp]
    rfl
  have idle : (s.updRmb pg (fun x => { x with pend := x.pend ++ [src] })).preemptSlot pg = s.updRmb pg (fun x => { x with pend := x.pend ++ [src] }) := by
    unfold State.preemptSlot
    rw [waits]
    dsimp only
    rw [hc]
  have started : s.startSrc pg src = ((s.updRmb pg (fun x => { x with pend := x.pend ++ [src] })).beginSeq pg src (s.clock + 1)).showSeq pg := by
    unfold State.startSrc
    rw [if_neg (by simp [he, hen]), if_neg (by simp [hp])]
    dsimp only
    rw [idle, State.nextSlot_single _ (congrArg Rmb.pend waits) hs ((congrArg Rmb.cur waits).trans hc) ((congrArg Rmb.intr waits).trans hi)
      ((congrArg Rmb.held waits).trans hh) hr he]
    rfl
  rw [started, State.rmbOf_congr ((State.showSeq_frame ..).rmbs rfl)]
  exact State.cur_beginSeq _ pg src _

end

theorem rmbTimer_due {s : State} {pg : Page} {k : Nat} (hk : k ≤ 1) (hper : 0 < s.timerPer pg k) (hen : s.flag pg (rmb.SRC_EN (5 + k)) = true)
    (ht : Table.get 0 (s.rmbOf pg).timers k ≤ s.clock) : rmbTimer s pg k =
      (s.updRmb pg (fun x => { x with timers := Table.set 0 x.timers k (Table.get 0 x.timers k + 125 * s.timerPer pg k) })).startSrc pg (5 + k) := by
  refine if_neg ?_
  simp only [hen, Bool.not_true, Bool.false_eq_true, false_or, not_or]
  omega

/-! ### NAK -/

theorem State.replays_nakAcked (s : State) (n ack : Nat) (ackv corr : Bool) : ((s.nakAcked n ack ackv corr).port n).replays ≤ (s.port n).replays := by
  rw [State.nakAcked, State.flitAck]
  split
  · split
    · rw [State.port_updPort_self]
      exact Nat.zero_le _
    · exact Nat.le_of_eq (congrArg Port.replays (State.port_corrected ..))
  · exact Nat.le_of_eq (congrArg Port.replays (State.port_corrected ..))

/-- A NAK counts its replay (R363). -/
theorem exec_nak_counts {s : State} {n : Nat} (ha : s.portActive n = true) (hr : (s.port n).replays < 15) (q ack vc cr : Nat) (ackv corr : Bool) :
    ∃ t, exec (.nak n q ack vc cr ackv corr) s = .next t ∧
      t.rd (.vlport n) vlport.REPLAY_CNT = (s.rd (.vlport n) vlport.REPLAY_CNT + 1) % 2 ^ 32 := by
  refine ⟨_, congrArg Host.Outcome.next (nak_replays ha ..), ?_⟩
  rw [State.rd_congr (State.regs_flitCredit ..),
    State.replayFlits_few (Nat.lt_of_le_of_lt (State.replays_nakAcked ..) hr), State.replayCnt_replayed, State.rd_nakAcked _ _ _ _ _ (by decide)]

end Sys2Proof.Machine
end

section
/-! The statement about where the commands of the units complete (O60). -/

namespace Sys2Proof.Machine

/-- A timer of an idle rail monitor starts its entry (R344, R349). -/
theorem exec_rmbTimer_spec {s : State} {pg : Page} {k : Nat} (hk : k ≤ 1) (hper : 0 < s.timerPer pg k)
    (ht : Table.get 0 (s.rmbOf pg).timers k ≤ s.clock) (he : s.flag pg page.EN = true) (hen : s.flag pg (rmb.SRC_EN (5 + k)) = true)
    (hp : (s.rmbOf pg).pend = []) (hc : (s.rmbOf pg).cur = none) (hi : (s.rmbOf pg).intr = none) (hh : (s.rmbOf pg).held = none)
    (hr : s.flag pg rmb.REF_RDY = true) :
    ∃ t x, exec (.rmbTimer pg k) s = .next t ∧ (t.rmbOf pg).cur = some x ∧ x.entry = s.rd pg (rmb.START_ENTRY (5 + k)) ∧ x.began = s.clock + 1 := by
  have block := State.rmbOf_updRmb_self s pg (fun x => { x with timers := Table.set 0 x.timers k (Table.get 0 x.timers k + 125 * s.timerPer pg k) })
  obtain ⟨x, cur, entry, began⟩ := State.cur_startSrc (s := s.updRmb pg (fun x => { x with
      timers := Table.set 0 x.timers k (Table.get 0 x.timers k + 125 * s.timerPer pg k) })) (pg := pg) (src := 5 + k) (by omega) he hen
    ((congrArg Rmb.pend block).trans hp) ((congrArg Rmb.cur block).trans hc) ((congrArg Rmb.intr block).trans hi) ((congrArg Rmb.held block).trans hh) hr
  exact ⟨_, x, congrArg Host.Outcome.next (rmbTimer_due hk hper hen ht), cur, entry, began⟩

/-- A read of SEQ_LAST_LO latches the high word (R470). -/
theorem exec_seqLastLo_spec {s : State} (h : s.norHolder ≠ none) : ∃ t, exec .seqLastLo s = .next t ∧
    t.rd .journal journal.SEQ_LAST_HI = s.nor.seqLast / 2 ^ 32 % 2 ^ 32 := by
  have latched : s.latchRead .journal 0x040 = s.wr .journal journal.SEQ_LAST_HI (s.nor.seqLast / 2 ^ 32) :=
    if_pos (by rw [Option.isSome_iff_ne_none.2 h]; rfl)
  refine ⟨_, rfl, ?_⟩
  unfold seqLastLo
  rw [State.rd_emit, latched]
  exact State.rd_wr_self _ _ _ _ (by decide)

/-- Settles O60, unit by unit, from what the commands of each end with. -/
theorem unitCommandsComplete : Obligations.UnitCommandsComplete := by
  refine ⟨fun s f h hc => ?_, fun s h => ⟨fun hs hq => ?_, ?_, ?_⟩, fun s h => ⟨?_, fun ho => ?_, fun ho => ?_⟩, fun s h ht => ?_,
    fun s n _ ha => ⟨fun hr => ⟨exec_nak_counts ha hr, fun hl ht => ?_⟩, ?_, ?_⟩, fun s => ⟨fun h => ?_, fun h => ⟨fun hs => ?_, fun hs => ?_, ?_, ?_⟩⟩,
    fun s pg k hk hper ht he hen hp hc hi hh hr => exec_rmbTimer_spec hk hper ht he hen hp hc hi hh hr, fun s l q h => ?_, fun s h => exec_seqLastLo_spec h⟩
  · obtain ⟨t, ht, signed, -⟩ := exec_signed_good h hc
    obtain ⟨u, hu, status, -⟩ := exec_status_good h hc
    have log := State.holds_bufferFrame s 3 f
    have cert := State.holds_bufferFrame s 4 f
    exact ⟨⟨t, ht, signed.valid, signed.type⟩, ⟨_, congrArg Host.Outcome.next (log_good h hc), log.valid, log.type⟩,
      ⟨_, congrArg Host.Outcome.next (cert_good h hc), cert.valid, cert.type⟩, ⟨u, hu, status.valid, status.type⟩⟩
  · obtain ⟨t, ht, -, queued⟩ := exec_reqSigned_spec h
    rw [if_pos ⟨hs, hq⟩] at queued
    exact ⟨t, ht, by rw [queued]; nofun⟩
  · obtain ⟨t, ht, sent⟩ := exec_reqLog_spec h
    exact ⟨t, ht, by rw [sent, List.length_append, List.length_append]; rfl⟩
  · obtain ⟨t, l, ht, sent, -⟩ := exec_reqCert_spec h
    exact ⟨t, ht, by rw [sent, List.length_append]; rfl⟩
  · obtain ⟨t, ht, -, -, log⟩ := exec_tallyHoldupSave_spec h
    exact ⟨t, ht, by rw [log, List.length_append]; rfl⟩
  · obtain ⟨⟨t, ht, opened, -⟩, -⟩ := exec_seal_closed h ho
    exact ⟨t, ht, opened⟩
  · obtain ⟨⟨t, ht, closed, -⟩, -⟩ := exec_seal_open h ho
    exact ⟨t, ht, closed⟩
  · obtain ⟨t, hx, down, -⟩ := exec_tallyLinkTimeout_spec h ht
    exact ⟨t, hx, down⟩
  · obtain ⟨t, hx, count, -⟩ := (exec_ackTimeout_spec ha hl ht).1 hr
    exact ⟨t, hx, count⟩
  · exact ⟨_, exec_startRetrain (.inr rfl), State.lstate_startRetrain ha⟩
  · exact ⟨_, exec_startRetrain (.inl rfl), State.lstate_startRetrain ha⟩
  · exact ⟨_, congrArg Host.Outcome.next (powerDown_ends h), State.flag_setFlag_self _ _ _ _ (by decide) (by decide)⟩
  · exact ⟨_, rfl, shutdown_noted h hs⟩
  · exact ⟨_, congrArg Host.Outcome.next (shutdownTimeout_fails h hs), congrArg Sps.state (State.sps_powerFailing s 0)⟩
  · exact ⟨_, rfl, congrArg Sps.state (sps_moduleReset h)⟩
  · exact ⟨_, rfl, congrArg Sps.clkLost (sps_clockLoss h)⟩
  · obtain ⟨t, ht, snap, -, compact, -⟩ := exec_compaction_spec h
    exact ⟨t, ht, snap, compact⟩

end Sys2Proof.Machine
end
